-- ==== Sys2Proof/Word.lean ====
section
/-! DEFINITION. The words of the module's interfaces: octets and binary32 patterns (R10). Everything that the spec counts
or measures in whole units is a plain number in the rest of the model. -/

namespace Sys2Proof

/-- One octet of a message, a frame or an `OCTETS` object (R10). -/
abbrev Byte := BitVec 8

/-- The 32 bits of an IEEE 754 binary32 value (type `F32` of R10). -/
abbrev F32 := BitVec 32

/-- A string of octets. -/
abbrev Bytes := List Byte

end Sys2Proof
end

