-- ==== Sys2Proof/Syntax.lean ====
section
/-! DEFINITION. The commands and events that the module takes: one constructor per row of the opcode table, and the
types of their operands. -/

namespace Sys2Proof

/-- One item of a write request: an object address and the octets written to it (R6, R127). -/
structure WriteItem where
  idx : Nat
  inst : Nat
  sub : Nat
  value : Bytes
  deriving DecidableEq, Repr

/-- One item address of a read request (R127). -/
structure ReadItem where
  idx : Nat
  inst : Nat
  sub : Nat
  deriving DecidableEq, Repr

/-- The body of one Sehal request, by opcode (R127). -/
inductive SehalBody where
  | openReq (role subs : Nat)
  | closeReq
  | readReq (items : List ReadItem)
  | writeReq (items : List WriteItem)
  /-- `errors`: the bit errors that each Stockpot page read for the content finds (R418) -/
  | blockOpen (idx inst sub dir total : Nat) (errors : List Nat)
  | blockPiece (offset len : Nat) (data : Bytes)
  | blockClose (crc : Nat)
  | blockAbort
  | nop
  | unknown (opcode : Nat)
  deriving DecidableEq, Repr

/-- The header fields of one Sehal request that matter to its outcome (R126): sequence, flags and item count; and the die that does
not answer the request within 10 ms, where one does not (R97). -/
structure SehalHdr where
  seq : Nat
  flags : Nat
  count : Nat
  deadDie : Option Nat := none
  deriving DecidableEq, Repr

/-- The cipher suites, groups and signature schemes that a ClientHello offers, by their TLS codes (R100). -/
structure HelloOffer where
  suites : List Nat
  groups : List Nat
  schemes : List Nat
  deriving DecidableEq, Repr

/-- How a client authenticates (R100): the SubjectPublicKeyInfo of its certificate (empty: it presents none), the octets that its
handshake signature covers, and the signature. -/
structure ClientProof where
  spki : Bytes
  signed : Bytes
  r : Nat
  s : Nat
  deriving DecidableEq, Repr

/-- What a frame received on a management port is (R122, R123): an ARP request or a neighbour solicitation with its target address, an
ICMP echo or a UDP datagram that carries a Sehal message with its destination address, and everything that no port answers. -/
inductive MgmtFrame where
  | arp (target : Bytes)
  | neighbour (target : Bytes)
  | echo (v6 : Bool) (dst data : Bytes)
  | sehal (v6 : Bool) (dst : Bytes) (port version : Nat)
  | unknownRequest (conn : Nat) (hdr : SehalHdr) (opcode : Nat)
  | tagged
  | fragment
  | other
  deriving DecidableEq, Repr

/-- The frame of an SDO request (R134, R135, R137): its identifier, whether that has 29 bits, whether it is an FD frame, and in the
non-ISO format; and the die that does not answer the request within 10 ms, where one does not (R97). -/
structure SdoFrame where
  cobId : Nat
  extended : Bool := false
  fd : Bool := false
  nonIso : Bool := false
  deadDie : Option Nat := none
  deriving DecidableEq, Repr

/-- What one step of an acquisition yields (R185, R186): the Ladle's estimate in ps/nm, the symbol clock offset in ppm, the clock-tone
metric at the loaded dispersion, the frequency offset in MHz, the gradients gathered for the Whisk's taps in 2⁻¹⁴, and whether the
outputs were exchanged. -/
structure Acquired where
  dispersion : Int
  clock : F32
  tone : Nat
  freq : F32
  grad : List (Int × Int)
  swapped : Bool
  deriving DecidableEq, Repr

/-- What is derived from a carrier's Whisk and loops every 1 ms (R202, R204, R205, R207): DGD in ps, PDL in dB, rotation rate in
rad/s, residual dispersion in 0.001 ps/nm, clock offset in ppm, timing lock, timing slips, frequency offset in MHz, and its drift in
MHz/s. -/
structure WhiskReport where
  dgd : F32
  pdl : F32
  sop : F32
  residual : Int
  clock : F32
  locked : Bool
  slips : Nat
  freq : F32
  drift : F32
  deriving DecidableEq, Repr

/-- The pilots of one pilot group on a subcarrier and polarisation of the carrier in a slot (R208, R215): Σ y x* with x the pilots sent,
and Σ|x|². -/
structure PilotSum where
  slot : Nat
  sc : Nat
  pol : Bool
  re : Int
  im : Int
  norm : Nat
  deriving DecidableEq, Repr

/-- What a millisecond of reception measures (R222). On a Krytelm carrier a symbol: its subcarrier, its polarisation (true for Y), its
frame, its index among the frame's data symbols (none for a pilot), the received value ahead of its trim in 2⁻²⁴, and the label sent:
the decoded bits of I and then of Q, or the pilot's two bits. On a profile carrier the sums that the profile's demapper makes: Σ|x|²
and Σ|y − x|² in one unit, differing and compared hard-decision bits, data symbols, and Σ log2 (1 + exp (−s L)) in 2⁻³². -/
inductive QualitySample where
  | symbol (sc : Nat) (pol : Bool) (frame : Nat) (index : Option Nat) (y : Int × Int) (label : List Bool)
  | profile (sx se errs bits syms gmi : Nat)
  deriving DecidableEq, Repr

/-- What an engine and its port measure of the light meanwhile (R153, R157, R163, R177): powers in dBm of the line, the received
signal and the two fibres; the offset of the line from its slot's centre (MHz); where the bias loops have moved their six points;
the powers that would keep the transmit and the local-oscillator filter on the line (mW), and the filters' offsets from it (MHz). -/
structure LightReading where
  line : F32
  rx : F32
  comb : F32
  rxTotal : F32
  offset : Int
  bias : List Int
  txHeater : F32
  loHeater : F32
  txOffset : Int
  loOffset : Int
  deriving DecidableEq, Repr

/-- What the mapper has for one path of a tray in one block (R37, R327, R328): Cm of a GMP tray, the client bits or whole 66b blocks,
the AIS pattern of an OTN client for the same bits, and whether the tray is short of data. -/
structure TrayFeed where
  tray : Nat
  prot : Bool
  cm : Nat
  bits : List Bool
  ais : List Bool
  underrun : Bool
  deriving DecidableEq, Repr

/-- A received block as its decoder releases it (R270, R292): its coded bits, the ranges of them (first bit, length) that come from
uncorrected coded blocks, on a profile carrier whether the superframe's framing is good and the client bits it holds by client
index, the fill of the tray receive queue in bytes and whether it overran, and the arrival differences measured, by tray in ns. -/
structure DecodedBlock where
  coded : List Bool
  bad : List (Nat × Nat)
  frame : Bool
  clients : List (Nat × Nat)
  rxFill : Nat
  overrun : Bool
  delays : List (Nat × Int)
  deriving DecidableEq, Repr

/-- A coded block as the Sieve or a profile decoder releases it (R290, R292): uncorrected or not, coded bits corrected to 1 and to 0,
the iterations after which every parity row that touches it is satisfied, and coded blocks of the engine in flight. -/
structure CodedRelease where
  uncorrected : Bool
  ones : Nat
  zeros : Nat
  iterations : Nat
  inFlight : Nat
  deriving DecidableEq, Repr

/-- What the receiver of a host lane measures (R301, R308, R309): the slicer SNR and the channel loss in dB, the far-end rate against
nominal in 0.001 ppb, and the equalisers that its adaptation gives: the continuous-time equaliser, the feed-forward taps and the
decision-feedback tap. -/
structure LaneReport where
  fom : F32
  loss : F32
  rate : Int
  ctle : Nat
  ffe : List Int
  dfe : Int
  deriving DecidableEq, Repr

/-- What a client PCS counted in the last second (R313, R314): codewords corrected and uncorrected, bits that the codewords corrected
and bits received, and section monitoring BIP-8 errors. -/
structure PcsCount where
  corrected : Nat
  uncorrected : Nat
  errors : Nat
  bits : Nat
  bip : Nat
  deriving DecidableEq, Repr

/-- What one step of an engine's calibration finds (R80): whether it succeeded; at step 1 the worst interleaving spur; at step 2 the
power of the line at the tap photodiode and its offset from the slot's centre (MHz); at step 4 the bias points; at step 5 the gain
table of the tile's TIAs (0.01 dB), the receive and transmit skew of the four channels, their receive response taps, and the taps of
the inverse of their transmit response (2⁻¹⁴). -/
structure CalResult where
  ok : Bool
  spur : F32
  power : F32
  offset : Int
  bias : List Int
  gains : List Int
  skew : List Int
  txSkew : List Int
  taps : List Bytes
  txTaps : List (List Int)
  deriving DecidableEq, Repr

/-- VIN12 as the supervisor sees it (R53, R56). -/
inductive VinBand where
  | low      -- below 11.40 V
  | inRange  -- 11.40 V to 12.60 V
  | high     -- above 12.60 V
  deriving DecidableEq, Repr

/-- What the sensors read in one 1 ms sample (R45, R62, R70): the junction sensors of each die in °C, the four lid sensors in °C,
VIN12 volts, amps and watts as 10 ms averages, AUX3V3 volts and watts, and the power of each die at the load. -/
structure ThermalReading where
  junctions : List (List F32)
  lid : List F32
  volts : F32
  amps : F32
  watts : F32
  auxVolts : F32
  auxWatts : F32
  loads : List F32
  deriving DecidableEq, Repr

/-- One command or event of the module: one constructor for each row of spec/opcode_table.json. The table gives its rows no operands;
the operands here are what the rule of each row needs to be told (assumption 1). -/
inductive Instr where
  /-- AUX3V3 enters its range: a power-on reset starts, the MG boot ROM runs and reads the boot record from flash. (R73) -/
  | aux3v3InRange (spoiled : List Nat)
  /-- The management firmware reports ready; transports start answering and the module is in STANDBY. (R508) -/
  | managementFirmwareReady
  /-- The started management firmware has not reported ready within 500 ms, so the ROM treats its slot as failed and falls back. (R77) -/
  | firmwareReadyTimeout
  /-- AUX3V3 falls below 3.00 V and the whole module stops, main rails included. (R56) -/
  | aux3v3Loss (torn : Bool)
  /-- The integrator asserts PWR_EN; MG checks VIN12 and either starts the regulators or raises a supply fault. (R55) -/
  | pwrEnAsserted (vin : VinBand)
  /-- VIN12 enters its range while PWR_EN stays asserted after a refused start, and the regulators start. (R56) -/
  | vin12EntersRange
  /-- PWR_EN is negated; PWRGD goes low and the domains power down towards STANDBY. (R74) -/
  | pwrEnNegated
  /-- All regulated rails are good; PWRGD is released and BOOT begins. (R55) -/
  | railsGood
  /-- A regulated rail is not good 50 ms after PWR_EN; all regulators go off and RAIL_FAULT is raised. (R56) -/
  | railGoodTimeout
  /-- VIN12 has been below 10.80 V for 50 µs while running; the regulators go off at once and MAIN_UNDERVOLTAGE is raised. (R56) -/
  | vin12Undervoltage
  /-- VIN12 has been above 13.20 V for 50 µs; the regulators go off at once and MAIN_OVERVOLTAGE is raised. (R56) -/
  | vin12Overvoltage
  /-- The regulators finish switching off after PWR_EN is negated, and the module is in STANDBY. (R55) -/
  | regulatorsOff
  /-- RESET_N is held low for at least 1 µs; a full reset holds the module, darkens carriers and zeroises key slots. (R83) -/
  | resetNAsserted
  /-- RESET_N rises and the start-up sequence begins at step 1. (R83) -/
  | resetNReleased (spoiled : List Nat)
  /-- The datapath image part has streamed into the dies and been checked against its digest; a die that fails is held in reset. (R76) -/
  | datapathPartStreamed (ok : Bool)
  /-- The die-to-die links and the inter-die bridge finish training, with the bridge latency fixed at 16 cycles. (R73) -/
  | dieLinksTrained
  /-- The Stockpot stacks finish training; written tags and histories are cleared and retired flags are restored. (R78) -/
  | stockpotInitialised
  /-- The saved configuration is applied, refused values are recorded in ConfigRejects, and saved enables become held enables. (R79) -/
  | savedConfigApplied (refused : List Nat)
  /-- The domains whose PowerAtBoot is true finish powering up; BOOT ends and CALIBRATE begins. (R503) -/
  | bootPowerUpDone
  /-- One step of a carrier engine's calibration completes. (R80) -/
  | calibrationStepDone (n : Nat) (r : CalResult)
  /-- A carrier engine's calibration ends and the engine is marked CALIBRATED, NO_LIGHT or FAILED. (R80) -/
  | carrierCalibrationEnd (n : Nat)
  /-- A held saved enable is applied once its engine is CALIBRATED and powered and the module is outside SAFE. (R79) -/
  | heldEnableRelease (n : Nat)
  /-- The comb line of a NO_LIGHT carrier engine becomes usable, and that engine alone is calibrated. (R81) -/
  | noLightLineUsable (n : Nat) (power : F32)
  /-- ResetCommand code 1 restarts the MG controller firmware and its transports. (R87) -/
  | managementReset (k : Nat)
  /-- ResetCommand code 2 performs a full reset of the whole module. (R82) -/
  | fullResetCommand (k : Nat)
  /-- A management reset completes; the firmware rebuilds active values from the dies and the CAN ports send boot-up. (R86) -/
  | managementResetDone
  /-- EngineReset re-initialises one carrier engine, which goes dark for at most 1 ms and re-acquires cold. (R85) -/
  | engineReset (k : Nat) (n : Nat)
  /-- LaneGroupReset returns every lane of the group to the start of bring-up. (R85) -/
  | laneGroupReset (k : Nat) (g : Nat)
  /-- Recalibrate runs calibration steps 1 to 6 for one carrier engine. (R81) -/
  | recalibrate (k : Nat) (n : Nat)
  /-- ConfigCommand code 1 saves every RW and RWS active value to flash. (R79) -/
  | configSave (k : Nat)
  /-- ConfigCommand code 2 erases the saved configuration. (R79) -/
  | configErase (k : Nat)
  /-- FirmwareCommand code 1 verifies the slot that is not running. (R92) -/
  | firmwareVerify (k : Nat) (ok : Bool) (version : Bytes) (security : Nat) (datapath : Nat)
  /-- FirmwareCommand code 2 marks the new slot preferred and TRIAL, then performs a management reset into it. (R88) -/
  | firmwareActivate (k : Nat)
  /-- FirmwareCommand code 3 marks the running TRIAL slot GOOD and raises the anti-rollback counter. (R88) -/
  | firmwareConfirm (k : Nat)
  /-- FirmwareCommand code 4 makes the other slot preferred without a reset. (R89) -/
  | firmwareSwapPreferred (k : Nat)
  /-- TrialTimeout passes without confirmation; FW_TRIAL_EXPIRED is raised, the slot is marked INVALID and the previous slot becomes preferred. (R88) -/
  | trialTimeout
  /-- The management reset that trial expiry had to defer runs once the blocking commit, key load, agreement or reset has ended. (R88) -/
  | deferredTrialReset
  /-- The 1 ms sensor sample evaluates the junction, case and power thresholds. (R64) -/
  | thermalSample (r : ThermalReading)
  /-- The grace timer reaches GraceTime and the first powered carrier in ShedOrder is shed. (R66) -/
  | graceTimeExpired
  /-- ShedInterval passes with a cause still present and the next carrier in ShedOrder is shed. (R66) -/
  | shedIntervalExpired
  /-- No cause has been present for ExitHold; the module leaves SAFE and returns to the state StateBeforeSafe reads. (R67) -/
  | exitHoldExpired
  /-- ClearThermalPeaks clears the power and temperature peaks and SafeEntries. (R70) -/
  | clearThermalPeaks (k : Nat)
  /-- A ClientHello is answered with a cookie HelloRetryRequest, or the handshake continues when the cookie returns. (R125) -/
  | dtlsClientHello (conn : Nat) (port : Nat) (cookie : Option Nat) (offer : HelloOffer)
  /-- The client's signature is verified and its key hash is matched against the identity table, or access_denied is sent. (R100) -/
  | dtlsHandshakeComplete (conn : Nat) (proof : ClientProof)
  /-- A connection whose handshake and OPEN have not completed within 10 s is dropped. (R125) -/
  | handshakeTimeout (conn : Nat)
  /-- A DTLS alert or failure ends the session and releases its claims and locks. (R104) -/
  | dtlsAlert (conn : Nat)
  /-- An OPEN request with the requested role opens a session in a slot, or is refused. (R129) -/
  | sehalOpen (conn : Nat) (h : SehalHdr) (role : Nat) (subs : Nat)
  /-- A CLOSE request ends the session after its response. (R127) -/
  | sehalClose (conn : Nat) (h : SehalHdr)
  /-- A READ request returns the values of its items from one instant. (R128) -/
  | sehalRead (conn : Nat) (h : SehalHdr) (items : List ReadItem)
  /-- A WRITE request applies all of its items or none of them. (R128) -/
  | sehalWrite (conn : Nat) (h : SehalHdr) (items : List WriteItem)
  /-- BLOCK_OPEN opens a block transfer; for a read it captures the object's content. (R130) -/
  | blockOpen (conn : Nat) (h : SehalHdr) (idx : Nat) (inst : Nat) (sub : Nat) (dir : Nat) (total : Nat) (errors : List Nat)
  /-- BLOCK_PIECE reads or writes one piece of an open block transfer. (R130) -/
  | blockPiece (conn : Nat) (h : SehalHdr) (offset : Nat) (len : Nat) (data : Bytes)
  /-- BLOCK_CLOSE checks the CRC and makes the written content take effect whole. (R130) -/
  | blockClose (conn : Nat) (h : SehalHdr) (crc : Nat)
  /-- BLOCK_ABORT abandons the open transfer and leaves the object unchanged. (R130) -/
  | blockAbort (conn : Nat) (h : SehalHdr)
  /-- A NOP request restarts the idle timer. (R129) -/
  | sehalNop (conn : Nat) (h : SehalHdr)
  /-- No piece arrives for BlockTimeout and the transfer is abandoned. (R130) -/
  | blockTimeout (k : Nat)
  /-- An Ethernet session receives no request for IdleTimeout and ends. (R104) -/
  | idleTimeout (k : Nat)
  /-- A management port frame is answered by ARP, ND or ICMP echo, passed to Sehal, or discarded and counted. (R123) -/
  | mgmtFrameReceived (p : Nat) (f : MgmtFrame)
  /-- 100 ms after a write to 1100h[p], the write takes effect and every session on that port ends. (R124) -/
  | mgmtPortConfigApply (p : Nat)
  /-- CloseSession ends session k. (R104) -/
  | closeSession (k : Nat) (x : Nat)
  /-- IdentityCommand disables every identity entry and returns the module to commissioning. (R103) -/
  | identityCommand (k : Nat)
  /-- A write enabling identity entries; the first one must keep a Key Officer entry for the writer, and it ends commissioning. (R103) -/
  | identityEnableWrite (k : Nat) (items : List WriteItem)
  /-- OwnershipCommand code 1 claims group x for the calling session. (R107) -/
  | ownershipClaim (k : Nat) (x : Nat)
  /-- OwnershipCommand code 2 releases the caller's claim of group x. (R107) -/
  | ownershipRelease (k : Nat) (x : Nat)
  /-- OwnershipCommand code 3 lets a Maintainer free group x whoever owns it. (R107) -/
  | ownershipForceRelease (k : Nat) (x : Nat)
  /-- ReleaseMine releases every claim of the calling session. (R107) -/
  | releaseMine (k : Nat)
  /-- CommitCommand code 1 arms scope s and sets its target, or sends a change request when the far end is needed. (R111) -/
  | commitArm (k : Nat) (n : Nat)
  /-- CommitCommand code 2 cancels an ARMED or PEER_WAIT scope with COMMIT_CANCELLED. (R113) -/
  | commitCancel (k : Nat) (n : Nat)
  /-- CommitCommand code 3 sets every shadow of the scope equal to its active value. (R111) -/
  | commitRevert (k : Nat) (n : Nat)
  /-- GroupCommand code 1 arms every member scope of a group commit against TargetTime. (R114) -/
  | groupArm (k : Nat)
  /-- GroupCommand code 2 before the decision time ends every member with COMMIT_CANCELLED. (R114) -/
  | groupCancel (k : Nat)
  /-- At the decision time the group either counts down and copies, or every member ends without a copy. (R114) -/
  | groupDecisionTime (targets : List (Nat × Nat))
  /-- No confirmation is decoded within PeerTimeout; the commit or automatic change ends without a copy. (R113) -/
  | peerTimeout (n : Nat) (auto : Bool)
  /-- The first change announcement, with its Countdown, goes out in its scheduled transmit block. (R286) -/
  | countdownStart (n : Nat)
  /-- At the target block all pending shadows of the scope become active, and the journal and ShadowGeneration record it. (R113) -/
  | commitCopy (n : Nat) (auto : Bool)
  /-- The mapping-core cycle of scope 64's target arrives and its shadows are copied. (R112) -/
  | moduleScopeTarget
  /-- A write to an object with no row of its own checks role, ownership, range and consistency, then updates the active or shadow value. (R116) -/
  | objectWrite (k : Nat) (items : List WriteItem)
  /-- An SDO download initiate frame starts an expedited or segmented write. (R137) -/
  | sdoDownloadInitiate (p : Nat) (f : SdoFrame) (idx : Nat) (sub : Nat) (size : Option Nat) (expedited : Bool) (data : Bytes)
  /-- An SDO download segment is taken, and the write takes effect at the last segment. (R137) -/
  | sdoDownloadSegment (p : Nat) (f : SdoFrame) (toggle : Bool) (data : Bytes) (last : Bool)
  /-- An SDO upload initiate captures the value and answers it expedited or starts a segmented upload. (R137) -/
  | sdoUploadInitiate (p : Nat) (f : SdoFrame) (idx : Nat) (sub : Nat)
  /-- An SDO upload segment request returns the next segment. (R137) -/
  | sdoUploadSegment (p : Nat) (f : SdoFrame) (toggle : Bool)
  /-- A block SDO request is refused with abort code 0x0504_0001. (R137) -/
  | sdoBlockRequest (p : Nat) (f : SdoFrame) (idx : Nat) (sub : Nat)
  /-- The gap between segments exceeds 1 s and the transfer is aborted. (R137) -/
  | sdoSegmentTimeout (p : Nat)
  /-- NMT commands and remote frames are ignored. (R136) -/
  | canNmtFrame (p : Nat)
  /-- A CAN port starts after its delay, sends the boot-up message and begins its session. (R136) -/
  | canPortStart (p : Nat)
  /-- A write to a CAN port's Enabled, NodeId or Role ends that port's session. (R101) -/
  | canSessionReconfigure (k : Nat) (p : Nat) (sub : Nat) (value : Nat)
  /-- A write to the session's own copy of CanAccess sets its instance selector or shadow view, with no journal entry. (R138) -/
  | canAccessWrite (k : Nat) (sub : Nat) (value : Nat)
  /-- ProducerHeartbeatTime passes and a heartbeat byte 0x05 is sent. (R136) -/
  | heartbeat (p : Nat)
  /-- Every 1 ms the mapped TPDO values are sampled, and a changed TPDO is sent when its inhibit time allows. (R140) -/
  | tpdoSample
  /-- EventTimer runs out since the last transmission and the TPDO is sent. (R140) -/
  | tpdoEventTimer (p : Nat) (j : Nat)
  /-- InhibitTime ends with a change waiting, and the TPDO is sent. (R140) -/
  | tpdoInhibitExpired (p : Nat) (j : Nat)
  /-- InhibitTimeEmcy passes and the next waiting EMCY message is sent. (R141) -/
  | emcyInhibitExpired (p : Nat)
  /-- The CAN controller enters bus-off, recovers automatically and counts the event. (R134) -/
  | canBusOff (p : Nat)
  /-- EventHold passes with no further event and a fast status hold bit falls. (R146) -/
  | eventHoldExpired (addr : Nat) (bit : Nat)
  /-- Line absence is confirmed; LOS_COMB_LINE is raised, the attenuator closes and the loops hold. (R156) -/
  | combLineLost (n : Nat) (power : F32)
  /-- The line rises to −4 dBm or above and the heaters resume tracking. (R156) -/
  | combLineReturn (n : Nat) (power : F32)
  /-- The line has been present for 10 ms; LOS_COMB_LINE clears and the bias loops resume. (R156) -/
  | combLineStable (n : Nat)
  /-- The bias loops lock and an enabled carrier starts its launch ramp. (R156) -/
  | biasLockAchieved (n : Nat) (bias : List Int)
  /-- A launch ramp completes over TurnOnTime: TxState reads 2, or the output reaches the dark level on a disable. (R161) -/
  | launchRampDone (n : Nat)
  /-- CarrierEnable written true takes the carrier into service, with a ramp and receive acquisition, or holds it. (R159) -/
  | carrierEnable (k : Nat) (n : Nat)
  /-- CarrierEnable written false ramps the carrier down to its dark level and sets the receive path to RX_OFF. (R161) -/
  | carrierDisable (k : Nat) (n : Nat)
  /-- A change to LightSource, AnchorIndex or SpacingIndex recalibrates the port's engines from step 2. (R154) -/
  | portLightChange (k : Nat) (p : Nat) (source : Nat) (anchor : Int) (spacing : Nat)
  /-- An auto bias loop's error stays out of limits for 10 ms (BIAS_UNLOCK raised) or within them for 100 ms (cleared). (R158) -/
  | biasErrorTimer (n : Nat) (out : Bool)
  /-- A heater held at 40 mW for 1 s raises HEATER_LIMIT; 1 s below 38 mW clears it. (R163) -/
  | heaterLimitTimer (n : Nat) (limit : Bool) (tx : F32) (lo : F32)
  /-- RxPower stays below LosThreshold for 10 µs (LOS_SIGNAL raised) or 1 dB above it for 10 ms (cleared). (R165) -/
  | losSignalTimer (n : Nat) (low : Bool) (power : F32)
  /-- RxPower stays above +4 dBm for 1 ms (RX_OVERLOAD raised) or at or below +3 dBm for 100 ms (cleared). (R165) -/
  | rxOverloadTimer (n : Nat) (high : Bool) (power : F32)
  /-- An AGC window ends; the loop measures RMS and may step the analog index with digital compensation. (R170) -/
  | agcWindowEnd (n : Nat) (rms : List F32) (means : List (List (List Int))) (clips : List Nat) (light : LightReading)
  /-- A skew and response filter cross-fade completes after FadeBlocks blocks. (R173) -/
  | frontEndFadeDone (n : Nat) (tx : Bool)
  /-- One step of a cold or warm acquisition completes and the next begins. (R185) -/
  | acquisitionStepDone (n : Nat) (a : Acquired)
  /-- An acquisition step exceeds its bound; the attempt ends and the next attempt follows R182. (R187) -/
  | acquisitionStepTimeout (n : Nat)
  /-- ACQUIRE has lasted 100 ms with a usable signal and RX_LOL is raised. (R187) -/
  | rxLolTimer (n : Nat)
  /-- WarmHoldTime passes in HOLD; the warm state is discarded and the receive path enters SEARCH. (R182) -/
  | warmHoldExpired (n : Nat)
  /-- Every 10 µs in TRACK, a snapshot of the warm state is taken. (R183) -/
  | warmSnapshot (n : Nat) (tone : Nat)
  /-- Reacquire starts a warm (code 1) or cold (code 2) acquisition. (R219) -/
  | reacquire (k : Nat) (n : Nat) (code : Nat)
  /-- Every 1 ms in TRACK, the residual dispersion is read from the taps and the Ladle may be moved through a fade. (R191) -/
  | ladleTrackUpdate (n : Nat)
  /-- A Ladle cross-fade completes after LadleFadeBlocks blocks. (R192) -/
  | ladleFadeDone (n : Nat)
  /-- Every 1 ms in TRACK, outer Whisk tap pairs are gated or reopened. (R200) -/
  | tapGating (n : Nat) (blind aided : List (Int × Int)) (peaks : List Nat)
  /-- Every 1 ms, DGD, PDL, SOP rate and residual dispersion are derived from the Whisk taps. (R202) -/
  | whiskEstimates (n : Nat) (e : WhiskReport)
  /-- The X and Y output correlation exceeds 0.9 over 10 µs; hyx and hyy are reinitialised, or in TRACK lock is lost. (R198) -/
  | singularityCheck (n : Nat) (run : List (List (Int × Int) × List (Int × Int)))
  /-- TimingLocked stays false for 100 µs in TRACK, a loss of lock with cause 3. (R205) -/
  | timingLockLoss (n : Nat)
  /-- Pilot correlation stays below half its locked value for 10 µs, a loss of lock with cause 4. (R217) -/
  | pilotSyncLoss (n : Nat)
  /-- The frequency offset goes beyond ±2 % of the symbol rate, a loss of lock with cause 6. (R207) -/
  | frequencyOutOfRange (n : Nat)
  /-- Once per QualifyTime, the joint-recovery candidates are fitted and pruned to form the member set. (R211) -/
  | jointQualifyTest (p : Nat) (fits : List (Nat × List Nat))
  /-- At each pilot group the joint fit is recomputed and failing members are dropped. (R212) -/
  | pilotGroupFit (p : Nat) (residuals : List (Nat × Nat)) (slips : List (Nat × Nat)) (pilots : List PilotSum)
  /-- Every 1 ms the Now quality measures are updated over QualityWindow. (R223) -/
  | qualityUpdate (n : Nat) (samples : List QualitySample)
  /-- At each 1 s boundary of module time, interval measures and counters latch and restart. (R223) -/
  | pmBoundary (corrected : Nat) (latencies : List (Nat × Nat)) (clients : List (Nat × PcsCount))
  /-- QMarginNow stays below QMarginAlarm for 1 s (QMARGIN_LOW raised) or at or above it plus 0.5 dB for 10 s (cleared). (R226) -/
  | qmarginTimer (n : Nat) (low : Bool)
  /-- Every 10 ms the receiver forms per-subcarrier recommendations and starts a new report set. (R253) -/
  | tuningEvaluation (n : Nat)
  /-- A back-channel cell is checked by its CRC and its report part is taken. (R252) -/
  | backchannelCellReceived (n : Nat) (cell : Nat)
  /-- An automatic layout change starts once its conditions hold, or is refused by the floor. (R259) -/
  | autoChangeStart (n : Nat)
  /-- BcTimeout passes without a valid cell; loading freezes and BACKCHANNEL_LOST is raised. (R254) -/
  | backchannelTimeout (n : Nat)
  /-- The far end has reported RxState 1 or 2 for RescueTime, and the layout is lowered to RescueEntropy without the far end. (R261) -/
  | rescue (n : Nat)
  /-- A KLF block is assembled and sent: overhead area, cells, announcements, seal entries, trays and payload. (R278) -/
  | klfBlockTransmit (n : Nat) (feeds : List TrayFeed) (fill : Nat)
  /-- The header signs of a received block are read by hard decision and the header is accepted. (R273) -/
  | headerSignsRead (n : Nat) (header : Nat)
  /-- The Sieve releases a coded block, corrected or uncorrected, exactly L after its arrival. (R290) -/
  | codedBlockRelease (n : Nat) (r : CodedRelease)
  /-- A decoded block's fixed part is checked, and it passes or fails for block alignment. (R283) -/
  | klfBlockDecoded (n : Nat) (b : DecodedBlock)
  /-- Both parts of a far-end change request are decoded, checked, and confirmed or declined. (R287) -/
  | changeRequestDecoded (n : Nat)
  /-- A confirmation matching the outstanding RequestId stops the request cells and schedules the first announcement. (R286) -/
  | confirmationDecoded (n : Nat) (id : Nat)
  /-- A decoded announcement sets or confirms the receive target and pending record, or interrupts the countdown. (R288) -/
  | announcementDecoded (n : Nat) (ann : Nat)
  /-- At the held target block the receiver switches to the new layout. (R288) -/
  | rxTargetBlock (n : Nat)
  /-- 65,536 blocks pass without a matching announcement, and the confirmation stops. (R287) -/
  | confirmationLimit (n : Nat)
  /-- The carrier has stayed in LOF for 10 ms, a loss of lock with cause 5. (R284) -/
  | lofTimer (n : Nat)
  /-- A far-end termination is detected on the transmit pair and the lane enters NEGOTIATE. (R305) -/
  | farTerminationDetected (k : Nat)
  /-- Clause 73 DME pages arrive; the first lane resolves a type, or the client returns to NEGOTIATE. (R306) -/
  | dmePagesReceived (k : Nat) (abilities : Nat)
  /-- No DME page arrives within AnTimeout and parallel detection runs. (R305) -/
  | anTimeout (k : Nat)
  /-- Parallel detection accepts an allowed type, or finds none and returns the lanes to DETECT. (R306) -/
  | parallelDetectDone (t : Nat) (ty : Nat)
  /-- Link training completes and the lane enters LOCK. (R305) -/
  | trainingDone (k : Nat) (taps : List Int)
  /-- TrainTimeout passes: the lane enters LOCK with local training, or returns to DETECT. (R305) -/
  | trainTimeout (k : Nat) (started : Bool)
  /-- Clock recovery is locked and FomNow holds at the lock threshold for 1 ms. (R305) -/
  | lockQualified (k : Nat) (r : LaneReport)
  /-- LockTimeout passes without lock and the lane returns to DETECT. (R305) -/
  | lockTimeout (k : Nat)
  /-- A capability frame is checked and may be accepted, setting Ack and checking the CardId. (R310) -/
  | capabilityFrameReceived (k : Nat) (frame : Nat)
  /-- After 16 further frames the completed exchange takes the lane to ACTIVE or TEST. (R310) -/
  | exchangeDone (k : Nat)
  /-- ExchangeTimeout passes: the lane goes to ACTIVE or TEST, or to DETECT, by ExchangeMode. (R305) -/
  | exchangeTimeout (k : Nat)
  /-- No receive signal for 10 µs takes an ACTIVE or TEST lane to DETECT. (R305) -/
  | laneSignalLoss (k : Nat)
  /-- Clock recovery is lost, or FomNow stays below the fail threshold for 1 ms, and the lane returns to LOCK. (R305) -/
  | laneFomFail (k : Nat) (r : LaneReport) (clockLost : Bool)
  /-- A client PCS reaches block, frame or lane alignment and PcsState changes. (R313) -/
  | pcsAligned (t : Nat) (st : Nat)
  /-- LaneCommand code 1 restarts bring-up at DETECT. (R305) -/
  | laneRestart (k : Nat) (l : Nat)
  /-- LaneCommand code 2 starts error injection on the lane. (R317) -/
  | laneInjectStart (k : Nat) (l : Nat)
  /-- LaneCommand code 3 stops error injection on the lane. (R317) -/
  | laneInjectStop (k : Nat) (l : Nat)
  /-- LaneCommand code 4 clears the lane's 4003h counters. (R323) -/
  | laneClearCounters (k : Nat) (l : Nat)
  /-- ClearLaneCounters clears every counter and peak of the host-lane objects. (R323) -/
  | clearLaneCounters (k : Nat)
  /-- An enabled lane with far termination has been out of ACTIVE and TEST for BringUpAlarm, and LANE_BRINGUP_FAIL is raised. (R322) -/
  | bringupAlarmTimer (k : Nat)
  /-- A write to a client's binding objects returns the lanes of the old and new spans to DETECT. (R312) -/
  | clientBindingWrite (k : Nat) (t : Nat) (items : List (Nat × Bytes))
  /-- CLIENT_SIGNAL_FAIL clears 10 ms after the ingress failure ends. (R315) -/
  | clientFailClearTimer (t : Nat)
  /-- An aggregated member's frame enters its priority queue, may trigger XOFF, or is dropped. (R318) -/
  | clientFrameIngress (t : Nat) (frame : Bytes)
  /-- Half the pause time passes with the queue above XonBytes, and the PFC frame is repeated. (R319) -/
  | pfcRefreshTimer (t : Nat) (q : Nat)
  /-- A received PFC frame pauses or releases the member's egress priorities. (R319) -/
  | pfcFrameReceived (t : Nat) (enables : Nat) (times : List Nat)
  /-- 10 s pass without a headroom drop and PFC_HEADROOM_OVERRUN clears. (R319) -/
  | headroomOverrunClear (t : Nat)
  /-- A path's signal fail or degrade has lasted HoldOff and becomes a protection request. (R337) -/
  | holdOffExpired (t : Nat) (prot : Bool) (degrade : Bool)
  /-- WaitToRestore passes with working clean, and the revertive selector returns to working. (R338) -/
  | waitToRestoreExpired (t : Nat)
  /-- The selector switches at a Position boundary, hitless when equalised. (R339) -/
  | protectionSwitch (t : Nat)
  /-- ProtCommand code 1 clears every host protection command. (R336) -/
  | protClear (k : Nat) (t : Nat)
  /-- ProtCommand code 2 locks out protection. (R336) -/
  | protLockout (k : Nat) (t : Nat)
  /-- ProtCommand code 3 forces a switch to protection. (R336) -/
  | protForceProtection (k : Nat) (t : Nat)
  /-- ProtCommand code 4 forces a switch to working. (R336) -/
  | protForceWorking (k : Nat) (t : Nat)
  /-- ProtCommand code 5 requests a manual switch to protection. (R336) -/
  | protManualProtection (k : Nat) (t : Nat)
  /-- ProtCommand code 6 requests a manual switch to working. (R336) -/
  | protManualWorking (k : Nat) (t : Nat)
  /-- ProtCommand code 7 realigns the delay equalisation at once. (R341) -/
  | protRealign (k : Nat) (t : Nat)
  /-- The delay region holds |D| of the earlier copy and Equalised becomes true. (R340) -/
  | delayEqualised (t : Nat)
  /-- TRAY_SIGNAL_FAIL clears 10 ms after the fill stops. (R343) -/
  | trayFailClearTimer (t : Nat)
  /-- ClearTrayCounters clears every counter of 4101h and 4201h. (R344) -/
  | clearTrayCounters (k : Nat)
  /-- A passing seal notice synchronises the receiver, or is held as pending, for the tray's path. (R353) -/
  | sealNoticeReceived (n : Nat) (seg : Nat)
  /-- SealCommand code 1 makes the other key slot ACTIVE and queues pending notices. (R364) -/
  | sealRollover (k : Nat) (t : Nat)
  /-- At StartSpan, a path starts sealing with the new slot under a fresh epoch. (R364) -/
  | rolloverSwitch (t : Nat) (prot : Bool)
  /-- A wrapped 256-bit key is unwrapped under the KEK into a tray key slot. (R361) -/
  | trayKeyLoad (k : Nat) (x : Nat) (data : Bytes)
  /-- A wrapped 256-bit key is unwrapped into a utility key slot, with UseMask 0. (R361) -/
  | utilityKeyLoad (k : Nat) (u : Nat) (data : Bytes)
  /-- A tray key reaches every powered line die and the slot reads LOADED. (R362) -/
  | keyDelivered (x : Nat)
  /-- KeySlotCommand code 1 zeroises a tray key slot everywhere. (R363) -/
  | keySlotZeroise (k : Nat) (x : Nat)
  /-- UtilityKeyCommand code 1 zeroises a utility key slot. (R363) -/
  | utilityKeyZeroise (k : Nat) (u : Nat)
  /-- A write to KekPeerKey replaces the KEK at once. (R360) -/
  | kekPeerKeyWrite (k : Nat) (data : Bytes)
  /-- AgreeCommand code 1 starts an in-band key agreement into the tray's inactive slot. (R366) -/
  | agreeStart (k : Nat) (t : Nat)
  /-- AgreeCommand code 2 cancels the agreement. (R368) -/
  | agreeCancel (k : Nat) (t : Nat)
  /-- An offer, answer, confirm or abort advances, completes or fails the agreement. (R366) -/
  | agreementMessageReceived (n : Nat) (seg : Nat)
  /-- AgreeTimeout passes before completion and the agreement fails. (R366) -/
  | agreeTimeout (t : Nat)
  /-- LidLock code 1 acquires the Lid lock for the calling session. (R369) -/
  | lidLockAcquire (k : Nat)
  /-- LidLock code 2 releases the lock and zeroises the output. (R369) -/
  | lidLockRelease (k : Nat)
  /-- LidLock code 3 lets a Maintainer release the lock whoever holds it. (R369) -/
  | lidLockForceRelease (k : Nat)
  /-- The holder makes no Lid request for LidLease and the lock is released. (R369) -/
  | lidLeaseExpired
  /-- A 16-byte write to LidBlock runs one AES-256 operation under LidKeySlot. (R370) -/
  | lidBlockOperation (k : Nat) (data : Bytes)
  /-- SEAL_FAIL clears after 10 ms without a failed span, and SEAL_CONFIG_MISMATCH after 100 ms. (R372) -/
  | sealAlarmClearTimer (t : Nat) (kind : Nat)
  /-- ClearSealCounters clears the counters of 4301h, 4320h and 4340h. (R373) -/
  | clearSealCounters (k : Nat)
  /-- At B_k the grant-map banks swap, or the stale previous map is reused. (R401) -/
  | grantMapSwap (i : Nat)
  /-- The grant builder completes a hub subcarrier's map in its inactive bank. (R401) -/
  | mapBuildDone (i : Nat) (micros : F32)
  /-- At T_k a downstream hub frame starts and is filled with header, map, control, leaf data and fill. (R383) -/
  | hubDownstreamFrame (i : Nat) (offset : Nat) (poisoned : List (Nat × Nat))
  /-- The contexts of a frame's granted leaves are prefetched into the hot cache and delivered to the line die. (R404) -/
  | contextPrefetch (i : Nat) (frame : Nat) (poisoned : List Nat)
  /-- A preamble segment metric exceeds PreambleThreshold and a tentative reception begins or replaces one. (R409) -/
  | preambleDetected (i : Nat) (metric : Nat) (frame : Nat) (a : Int)
  /-- The sync word matches and the burst reception is committed: its hard decisions on X and then Y, and the RMS of the four channels
  over the preamble as a fraction of full scale. (R409) -/
  | syncWordMatch (i : Nat) (bits : List Bool) (rms : List F32)
  /-- 96 symbols pass without a sync word and a false detection is counted. (R409) -/
  | tentativeExpiry (i : Nat)
  /-- The burst header is decoded from 192 soft values, checked by CRC and matched against the grant. (R411) -/
  | burstHeaderDecoded (i : Nat) (soft : List Int) (power : Int) (freq : Int)
  /-- An upstream payload block of 2,048 coded bits as the decoder leaves it, with the errored mark if it is uncorrected. (R394) -/
  | burstPayloadBlock (i : Nat) (coded : Bytes)
  /-- The postamble is found; reception ends, the tag is verified and the context update is returned. (R408) -/
  | burstEnd (i : Nat) (seeds : Bytes)
  /-- A granted slot passes without a committed burst; the grant is missed and may make the leaf LOST. (R411) -/
  | grantedSlotEnd (i : Nat) (frame : Nat) (leaf : Nat)
  /-- Eight frames pass with no burst on a hub carrier, and LOS_SIGNAL is raised. (R165) -/
  | hubBurstSilence (n : Nat)
  /-- LeafCommand code 1 returns an ACTIVE or DORMANT leaf to RANGING. (R399) -/
  | leafRangeAgain (k : Nat) (l : Nat)
  /-- LeafCommand code 2 sends Deregister and makes the leaf UNREGISTERED. (R399) -/
  | leafDeregister (k : Nat) (l : Nat)
  /-- A write to LeafEnable disables a leaf with Disable sent, or re-enables it as UNREGISTERED. (R399) -/
  | leafEnableWrite (k : Nat) (l : Nat) (enable : Bool)
  /-- HubKeyCommand code 1 sends KeyInfo and schedules the switch at frame F. (R386) -/
  | hubKeyRollover (k : Nat) (i : Nat)
  /-- From frame F downstream is sealed with the new slot and a new epoch. (R386) -/
  | hubRolloverEffective (i : Nat)
  /-- After frame F + 64 upstream opens under the new slot only and the old slot returns to LOADED. (R386) -/
  | hubRolloverEnd (i : Nat)
  /-- An ingress frame of a hub source is classified to a leaf queue, or dropped. (R406) -/
  | hubIngressFrame (j : Nat) (frame : Bytes)
  /-- QueueCommand code 1 drops every committed unread frame of the queue. (R407) -/
  | queueFlush (k : Nat) (q : Nat)
  /-- ClearHubCounters clears every hub counter and peak. (R414) -/
  | clearHubCounters (k : Nat)
  /-- A page read ends OK, CORRECTED, NEVER_WRITTEN or POISONED, with write-back and logging as needed. (R421) -/
  | stockpotPageRead (a : Nat) (errors : Nat)
  /-- A whole page is written with its code and tag, or discarded if the page is poisoned. (R420) -/
  | stockpotPageWrite (a : Nat) (data : Bytes)
  /-- The scrubber reads the next written page; a clean read resets History and a corrected one may class the page PERSISTENT. (R426) -/
  | scrubRead (x : Nat) (errors : Nat)
  /-- StockpotCommand code 1 copies a page to a spare and records the retirement in flash. (R428) -/
  | retirePage (k : Nat)
  /-- StockpotCommand code 2 clears the Written and History bits of every page of a region. (R426) -/
  | initialiseRegion (k : Nat)
  /-- StockpotCommand code 3 clears the Stockpot and DMA counters. (R442) -/
  | stockpotClearCounters (k : Nat)
  /-- StockpotCommand code 4 clears the Stockpot log. (R442) -/
  | clearLog (k : Nat)
  /-- StockpotCommand code 5 erases the retirement list, effective at the next BOOT. (R428) -/
  | eraseRetirementList (k : Nat)
  /-- DmaCommand code 1 checks the descriptor, allocates a ring and sets the channel RUNNING. (R437) -/
  | dmaStart (k : Nat) (c : Nat)
  /-- DmaCommand code 2 stops reading source pages and drains the channel towards PAUSED. (R438) -/
  | dmaPause (k : Nat) (c : Nat)
  /-- DmaCommand code 3 resumes a PAUSED channel, or fails it with SRC_LOST. (R438) -/
  | dmaResume (k : Nat) (c : Nat)
  /-- DmaCommand code 4 drains the channel towards IDLE. (R438) -/
  | dmaStop (k : Nat) (c : Nat)
  /-- In-flight bursts and the page buffer are written, and the channel enters PAUSED or IDLE. (R438) -/
  | dmaDrainDone (c : Nat)
  /-- A line-die source completes a page into its ring, or drops it when the ring is full. (R431) -/
  | sourcePageProduced (c : Nat) (t : Nat) (data : Bytes)
  /-- A pacing event releases BurstsPerEvent bursts or takes a snapshot. (R436) -/
  | dmaEventRelease (kind : Nat) (arg : Nat)
  /-- A burst is moved into the page buffer, and a full destination page is written whole; a mode 0 transfer may end DONE. (R434) -/
  | dmaBurstDone (c : Nat) (errors : Nat)
  /-- Each second, entries are qualified or disqualified, votes are held, the history is sampled and selection runs. (R450) -/
  | timingEvaluation (g : Nat) (means : List (Nat × Int)) (out : Int)
  /-- A reference input goes without edges for its limit and its entries are disqualified. (R445) -/
  | refActivityLoss (x : Nat)
  /-- No OSCIN edge for 1 µs; the generators hold on MG's internal oscillator. (R444) -/
  | oscinLoss
  /-- OSCIN returns and the generators and synthesisers resume. (R444) -/
  | oscinReturn
  /-- OSCIN has been present for 10 s and OSCIN_LOSS clears. (R444) -/
  | oscinAlarmClear
  /-- Frequency and phase errors have stayed in bounds for 5 s and the generator is LOCKED. (R456) -/
  | generatorLock (g : Nat)
  /-- 60 s pass in ACQUIRING without lock; the entry is disqualified and selection runs again. (R456) -/
  | generatorLockTimeout (g : Nat)
  /-- HoldoverLimit passes in HOLDOVER and the generator enters LOST. (R456) -/
  | holdoverLimit (g : Nat)
  /-- TgCommand code 1 reselects now and ends any revertive wait. (R450) -/
  | tgReselect (k : Nat) (g : Nat)
  /-- TgCommand code 2 forces HOLDOVER, or LOST without a valid history. (R456) -/
  | tgForceHoldover (k : Nat) (g : Nat)
  /-- TgCommand code 3 releases the forced holdover and selection resumes. (R456) -/
  | tgReleaseHoldover (k : Nat) (g : Nat)
  /-- A better-ranked entry has been qualified for WaitToRestore, and a revertive generator selects it. (R450) -/
  | tgWaitToRestore (g : Nat)
  /-- A write to LoopOpen opens the loop with SteerOffset copied, or closes it and starts ACQUIRING. (R460) -/
  | loopOpenWrite (k : Nat) (g : Nat) (isOpen : Bool)
  /-- A SteerOffset write steers an open generator within 1 ms. (R460) -/
  | steerOffsetWrite (k : Nat) (g : Nat) (offset : Int)
  /-- TimeCommand code 1 schedules a step of module time to TimeSet. (R462) -/
  | timeStep (k : Nat)
  /-- At the next 1 ms tick, module time is set to TimeSet and the interval in progress ends. (R462) -/
  | timeStepApply
  /-- TimeCommand code 2 starts a slew of module time by TimeAdjust. (R462) -/
  | timeSlew (k : Nat)
  /-- TimeCommand code 3 stops a running slew where it stands. (R462) -/
  | timeSlewCancel (k : Nat)
  /-- A running slew completes, and any waiting PPS correction may start. (R462) -/
  | slewDone
  /-- A PPS rising edge measures PpsError and may start a correcting slew. (R463) -/
  | ppsEdge (t : Nat)
  /-- FpoEnable written true places the first pulse on the next target edge; false drives the output low. (R465) -/
  | fpoEnableWrite (k : Nat) (f : Nat) (enable : Bool)
  /-- FpoCommand code 1 moves the output onto its target at the next target edge. (R465) -/
  | fpoAlign (k : Nat) (f : Nat)
  /-- ClearTimingCounters clears the timing counters. (R468) -/
  | clearTimingCounters (k : Nat)
  /-- A sequence entry's conversion ends and its results update; the reference channel is checked. (R471) -/
  | monitorConversionDone (m : Nat) (code : Nat)
  /-- UrgentCommand interrupts the sequence and runs one conversion. (R472) -/
  | urgentConversion (k : Nat) (m : Nat)
  /-- The urgent conversion ends, its results update and the sequence resumes. (R472) -/
  | urgentConversionDone (m : Nat) (code : Nat)
  /-- ClearMonitorPeaks clears the monitor peaks and Passes. (R488) -/
  | clearMonitorPeaks (k : Nat)
  /-- Every 100 ns each occupancy counter samples its quantity against its Threshold. (R477) -/
  | occupancySample (levels : List (Nat × Nat)) (slips : List (Nat × Bool)) (lanes : List (Nat × LaneReport))
  /-- A write to EventSelect or Threshold restarts the counter and marks the interval Partial. (R477) -/
  | perfCounterSelect (k : Nat) (c : Nat) (sel : Option Nat) (threshold : Option Nat)
  /-- CounterCommand code 1 fixes Ts and copies every counter's count up to Ts. (R478) -/
  | counterSnapshot (k : Nat)
  /-- The snapshot copy completes within 5 µs of Ts and the command ends. (R478) -/
  | snapshotCopyDone
  /-- CounterCommand code 2 stops counting from the next whole microsecond. (R478) -/
  | counterFreeze (k : Nat)
  /-- CounterCommand code 3 resumes counting. (R478) -/
  | counterUnfreeze (k : Nat)
  /-- CounterCommand code 4 sets every EventSelect to 0. (R478) -/
  | counterDeselectAll (k : Nat)
  /-- A bandwidth window ends and RateNow and the peak are updated. (R479) -/
  | bandwidthWindowEnd (w : Nat)
  /-- Every 10 µs the Probe derives Stokes, rotation rate and dispersion from each member and detects excursions; `residuals` gives the
  residual dispersion that is read from the taps, in 0.1 ps/nm, by slot. (R481) -/
  | probeSample (p : Nat) (residuals : List (Nat × Int))
  /-- Every member's rate stays below half the threshold for EventHold and the event is logged. (R483) -/
  | probeEventEnd (p : Nat)
  /-- AlarmClear passes without a port event and FIBRE_DISTURBANCE clears. (R485) -/
  | fibreDisturbanceClear (p : Nat)
  /-- ClearProbe clears EventsTotal and every ProbeEventLog. (R488) -/
  | clearProbe (k : Nat)
  /-- A fault source raises an occurrence; an entry is added or updated, or an overflow is counted. (R492) -/
  | sourceOccurrence (key : Nat) (unit : Nat)
  /-- A source's condition ends; an ACKED source goes to CLEAR and its entry is removed. (R492) -/
  | conditionEnd (key : Nat)
  /-- EventCommand code 1 acknowledges the source named by AckSource, or a leaf's four sources. (R495) -/
  | eventAckSource (k : Nat)
  /-- EventCommand code 2 acknowledges every source in RAISED or NOTIFIED. (R495) -/
  | eventAckAll (k : Nat)
  /-- EventCommand code 3 clears EventsLost and EntriesHighWater. (R495) -/
  | eventClearLost (k : Nat)
  /-- InjectCommand code 1 starts an injector on its source. (R496) -/
  | injectStart (k : Nat) (j : Nat)
  /-- InjectCommand code 2 stops an injector. (R496) -/
  | injectStop (k : Nat) (j : Nat)
  /-- InjectDuration passes and an injected condition is released. (R496) -/
  | injectHoldEnd (j : Nat)
  /-- InjectGap passes and the next injected occurrence is made. (R496) -/
  | injectGapExpired (j : Nat)
  /-- PowerCommand code 1 starts powering a domain down. (R500) -/
  | powerDown (k : Nat) (d : Nat)
  /-- PowerCommand code 2 starts powering a domain up. (R499) -/
  | powerUp (k : Nat) (d : Nat)
  /-- A domain finishes powering down, its sources' conditions end and PowerState reads 0. (R500) -/
  | powerDownDone (d : Nat)
  /-- A domain finishes powering up and PowerState reads 2. (R502) -/
  | powerUpDone (d : Nat)
  /-- ClearCrossingMarks code 1 clears the crossing high-water marks. (R40) -/
  | clearHighWater (k : Nat)
  /-- ClearCrossingMarks code 2 clears the crossing counters. (R40) -/
  | clearCrossingCounters (k : Nat)
  /-- ClearCrossingMarks code 3 clears both the high-water marks and the counters. (R40) -/
  | clearCrossingAll (k : Nat)
  /-- ClearRxCounters clears the receive DSP counters and SopRatePeak. (R229) -/
  | clearRxCounters (k : Nat)
  /-- ClearTuneCounters clears the link-tuning counters. (R266) -/
  | clearTuneCounters (k : Nat)
  /-- ClearFecCounters clears the alignment, announcement and FEC counters. (R298) -/
  | clearFecCounters (k : Nat)
  /-- An engine reset of a carrier engine ends: the transmit output leaves its dark level within 1 ms and ramps, and a waiting power-down may proceed. (R85) -/
  | engineResetDone (n : Nat)
  /-- Edges arrive again on a reference input, RefActive becomes true and its entries leave disqualification for no activity and start qualifying. (R445) -/
  | refActivityReturn (x : Nat)
  /-- The lane's PRBS checker sees 64 consecutive error-free bits, locks, and starts counting CheckBits and CheckErrors. (R316) -/
  | prbsCheckerLocked (k : Nat) (run : List Bool)
  /-- The lane's PRBS checker sees 32 errors within 64 bits and loses lock. (R316) -/
  | prbsCheckerLockLost (k : Nat) (run : List Bool)
  /-- The PCS link of a management Ethernet port is established or lost, and LinkUp changes. (R122) -/
  | mgmtLinkChange (p : Nat) (up : Bool)
  /-- A CAN controller enters the error-passive state and ErrorPassiveEntries is counted. (R149) -/
  | canErrorPassive (p : Nat)
  deriving DecidableEq, Repr

end Sys2Proof
end

