-- ==== Sys2Proof/Decode.lean ====
section
/-! DEFINITION. The commands that a word spells. No row of the spec's table gives a command any bits, so no word spells one. -/

namespace Sys2Proof

/-- The command of a word of `nbits` bits: none, for the table gives its rows no bits (assumption 5). -/
def decodeTableWord (_nbits _w : Nat) : Option Instr := none

end Sys2Proof
end

