-- ==== Sys2Proof/Config.lean ====
section
/-! DEFINITION. What one specimen of the module fixes at manufacture and the spec does not give, and the free values of the
model. Every constant here is opaque: nothing can be proved of its value. -/

namespace Sys2Proof

/-- The free values of the model: draw `i` is a number that nothing constrains. A step that needs an open value takes the
draw numbered by `State.freeCount` and advances it (assumption 2). -/
opaque Config.freeNat : Nat → Nat

/-- The Stokes vector, in 2⁻³⁰, that the Probe derives of taps that sum to nothing: R481 states none (assumption 74). -/
opaque Config.nullStokes : Int × Int × Int

/-- The offset of MG's internal oscillator in 0.001 ppb (R444), by the microseconds since power-on: it is read within ±50 ppm. -/
opaque Config.internalOffset : Nat → Int

/-- `SerialNumber`, fused at manufacture (R94). -/
opaque Config.serialNumber : Nat

/-- Firmware minor version of a running image, by the octets of its version string (R94): the spec gives no form for `Version`. -/
opaque Config.firmwareMinor : Bytes → Nat

/-- `MacAddress` of a management port, fused at manufacture (R149). -/
opaque Config.macAddress : Nat → Bytes

/-- `DeviceCertificate` (R100, R120). -/
opaque Config.deviceCertificate : Bytes

/-- The private wrap key and agreement key of the key store, as scalars of P-384 (R360, R366). -/
opaque Config.wrapPrivate : Nat
opaque Config.agreementPrivate : Nat

/-- `TransceiverSnr` of a carrier engine, measured at manufacture (R225). -/
opaque Config.transceiverSnr : Nat → F32

/-- The taps, in 2⁻¹⁴, of the windowed-sinc delay by a number of sixty-fourths of a sample (chapter 06): the spec names no window. -/
opaque Config.delayTap : Nat → Nat → Int

/-- The inverse of a modulator's transfer, measured at calibration (R247): by engine and channel, of a value in 2⁻¹⁶ of full scale. -/
opaque Config.predistort : Nat → Nat → Int → Int

/-- The scale of the 6-bit LLRs of a subcarrier, in steps per unit of ln, 1/256 each (R216): by engine and subcarrier. -/
opaque Config.llrScale : Nat → Nat → Nat

/-- What a frame of decoded levels spells where their composition is not that of the frame, as happens only in an uncorrected block
(R240, R292). -/
opaque Config.strangeLevels : List Nat → Nat

/-- The coefficients of a transmit preset (R305), c(−3) first, in 1/1,024: by lane mode and preset; the PMD clauses give them. -/
opaque Config.txPreset : Nat → Nat → List Int

/-- Which of a lane's 32 feed-forward taps a channel needs (R309): by lane mode and channel loss, bit i for tap i. -/
opaque Config.ffeMask : Nat → F32 → Nat

/-- The next bit of the SSPRQ pattern after the 31 bits before it (R316). -/
opaque Config.ssprqNext : List Bool → Bool

/-- The page number at which the placement of a region's pages on a stack begins (R415: the module places every use itself). The
argument is the region's allocation key and the stack. -/
opaque Config.placement : Nat → Nat → Nat

/-- What the documents of the interoperable profiles fix and the spec does not repeat (R233, R243, R291): by profile code, the
occupied bandwidth in kHz, the net rate, and the fixed decode latency. -/
opaque Config.profileBandwidth : Nat → Nat
opaque Config.profileNetRate : Nat → F32
opaque Config.profileLatency : Nat → F32

/-- The symbol rate, in Hz, of the 800ZR implementation agreement (R294). -/
opaque Config.symbolHz800zr : Nat

end Sys2Proof
end

