-- ==== Sys2Proof/Machine/Crc.lean ====
section
/-! DEFINITION. The check codes of the spec: CRC-8 of R329, CRC-16 of R252, CRC-32 of the tray and block overheads (R278) and
CRC-32 of IEEE 802.3 (R130). -/

namespace Sys2Proof.Machine

/-- An unreflected CRC of width `w`: feed the `n` low bits of `v`, most significant first, into register `r`. -/
def crcFeed (w poly : Nat) : Nat → Nat → Nat → Nat
  | 0, _, r => r
  | n + 1, v, r =>
    let b := v / 2 ^ n % 2
    let top := r / 2 ^ (w - 1) % 2
    let sh := 2 * r % 2 ^ w
    crcFeed w poly n v (if top = b then sh else sh ^^^ poly)

/-- CRC-16 of R252 over the `n` bits of `v`. -/
def crc16 (n v : Nat) : Nat := crcFeed 16 0x1021 n v 0xFFFF

/-- CRC-8 of R329. -/
def crc8 (n v : Nat) : Nat := crcFeed 8 0x07 n v 0

/-- CRC-32 of R278. -/
def crc32Sent (n v : Nat) : Nat := crcFeed 32 0x04C11DB7 n v 0xFFFFFFFF ^^^ 0xFFFFFFFF

/-- Eight steps of the reflected CRC-32 register. -/
def crc32Shift : Nat → Nat → Nat
  | 0, r => r
  | n + 1, r => crc32Shift n (if r % 2 = 1 then (r / 2) ^^^ 0xEDB88320 else r / 2)

/-- CRC-32 of IEEE 802.3 (R130). -/
def crc32 (bs : Bytes) : Nat := (bs.foldl (fun r b => crc32Shift 8 (r ^^^ b.toNat)) 0xFFFFFFFF) ^^^ 0xFFFFFFFF

end Sys2Proof.Machine
end

