-- ==== Sys2Proof/Machine/Float.lean ====
section
/-! DEFINITION. Exact arithmetic on binary32 values (type `F32` of R10): a finite value is read as a whole number of
2⁻¹⁴⁹, and an exact quotient is rounded to the nearest binary32 value, ties to even. -/

namespace Sys2Proof.Machine

/-- The exact value of a finite binary32 pattern, in units of 2⁻¹⁴⁹. An infinity or a NaN, which no `F32` object may be
given (R10), is read by the same fields. -/
def f32Int (x : F32) : Int :=
  let n := x.toNat
  let e := n / 8388608 % 256
  let m := n % 8388608
  let a : Nat := if e = 0 then m else (m + 8388608) * 2 ^ (e - 1)
  if n / 2147483648 = 1 then - (a : Int) else (a : Int)

/-- A binary32 pattern is finite when its exponent field is not all ones (R10 refuses the others in a write). -/
def f32Finite (x : F32) : Bool := x.toNat / 8388608 % 256 != 255

/-- `num / den` rounded to a whole number, half to even. -/
def divRoundEven (num den : Nat) : Nat :=
  let q := num / den
  let r := num % den
  if 2 * r > den then q + 1 else if 2 * r = den then q + q % 2 else q

/-- The magnitude `num / den` (den > 0) as a binary32 pattern without sign; the result saturates at the largest finite value. -/
def f32Mag (num den : Nat) : Nat :=
  if num = 0 then 0 else
  let scaled := num * 2 ^ 149 / den
  let lg := Nat.log2 scaled
  if scaled < 8388608 then divRoundEven (num * 2 ^ 149) den
  else
    let sh := lg - 23
    let q := divRoundEven (num * 2 ^ 149) (den * 2 ^ sh)
    let p := (sh + 1) * 8388608 + (q - 8388608)
    if p ≥ 2139095040 then 2139095039 else p

/-- The rational `num / den` as binary32, nearest, ties to even. -/
def f32OfRat (num : Int) (den : Nat) : F32 :=
  if num < 0 then BitVec.ofNat 32 (2147483648 + f32Mag num.natAbs den)
  else BitVec.ofNat 32 (f32Mag num.natAbs den)

/-- A whole number as binary32. -/
def f32OfInt (z : Int) : F32 := f32OfRat z 1

/-- A value counted in 2⁻¹⁴⁹ as binary32, exact when it came from one. -/
def f32OfUnits (z : Int) : F32 := f32OfRat z (2 ^ 149)

/-- The exact order of two finite binary32 values. -/
def f32Le (a b : F32) : Bool := f32Int a ≤ f32Int b
def f32Lt (a b : F32) : Bool := f32Int a < f32Int b
/-- The larger of two finite binary32 values. -/
def f32Max (a b : F32) : F32 := if f32Int a < f32Int b then b else a
def f32Min (a b : F32) : F32 := if f32Int b < f32Int a then b else a

/-- The units (2⁻¹⁴⁹) of the rational `num / den`, rounded towards minus infinity; exact for every threshold of the
dictionary whose denominator divides 2¹⁴⁹, and used only in comparisons that clear denominators otherwise. -/
def unitsOf (z : Int) : Int := z * 2 ^ 149

/-- `x` compared with the rational `num / den`: is the binary32 value at or above it. -/
def f32GeRat (x : F32) (num : Int) (den : Nat) : Bool := num * 2 ^ 149 ≤ f32Int x * den
/-- Is the binary32 value strictly below `num / den`. -/
def f32LtRat (x : F32) (num : Int) (den : Nat) : Bool := f32Int x * den < num * 2 ^ 149
/-- Is the binary32 value strictly above `num / den`. -/
def f32GtRat (x : F32) (num : Int) (den : Nat) : Bool := num * 2 ^ 149 < f32Int x * den
/-- Is the binary32 value at or below `num / den`. -/
def f32LeRat (x : F32) (num : Int) (den : Nat) : Bool := f32Int x * den ≤ num * 2 ^ 149

end Sys2Proof.Machine
end

