-- ==== Sys2Proof/Machine/Measure.lean ====
section
/-! DEFINITION. The functions that the spec's measures are defined by (R222–R225, R242, R255): logarithms, square roots and
the inverse complementary error function, computed in fixed point with 128 fraction bits. The spec gives these measures no
rounding; the last binary32 digit follows the model's own arithmetic (assumption 3). -/

namespace Sys2Proof.Machine

/-- 2¹²⁸: one, in the fixed-point form of this file. -/
def fxOne : Nat := 2 ^ 128

/-- The fraction bits of log2 of a mantissa `m` in [1, 2), `n` bits of them, by repeated squaring. -/
def log2Frac : Nat → Nat → Nat → Nat
  | 0, _, acc => acc
  | n + 1, m, acc =>
    let sq := m * m / fxOne
    if sq ≥ 2 * fxOne then log2Frac n (sq / 2) (2 * acc + 1) else log2Frac n sq (2 * acc)

/-- log2 (num / den), in units of 2⁻⁶⁴, for positive numbers. -/
def log2Fx (num den : Nat) : Int :=
  let v := num * 2 ^ 512 / den
  let e := Nat.log2 v
  let m := if e ≥ 128 then v / 2 ^ (e - 128) else v * 2 ^ (128 - e)
  ((e : Int) - 512) * 2 ^ 64 + (log2Frac 64 m 0 : Nat)

/-- log10 2 in units of 2⁻⁶⁴ (0.30102999566398119521…). -/
def log10of2 : Int := 5553023288523357132

/-- 10 × log10 (num / den) in dB, in units of 2⁻⁶⁴. -/
def dbFx (num den : Nat) : Int := 10 * (log2Fx num den * log10of2 / 2 ^ 64)

/-- A fixed-point number of 64 fraction bits as binary32. -/
def fxToF32 (z : Int) : F32 := f32OfRat z (2 ^ 64)

/-- A ratio of powers in dB, as binary32; a zero numerator or denominator reads 0. -/
def dbF32 (num den : Nat) : F32 := if num = 0 ∨ den = 0 then 0 else fxToF32 (dbFx num den)

/-- 2^(z / 2⁶⁴) in units of 2⁻¹²⁸, for z in [0, 2⁶⁴): the product of the roots 2^(2⁻ⁱ) that the bits of z select. -/
def exp2Frac : Nat → Nat → Nat → Nat → Nat
  | 0, _, _, acc => acc
  | n + 1, z, root, acc =>
    let bit := z / 2 ^ n % 2
    exp2Frac n z (Nat.sqrt (root * fxOne)) (if bit = 1 then acc * root / fxOne else acc)

/-- 2^(z / 2⁶⁴) as a fraction over 2¹²⁸ (z may be negative). -/
def exp2Fx (z : Int) : Nat :=
  let k := z / 2 ^ 64
  let f := (z % 2 ^ 64).toNat
  let m := exp2Frac 64 f (Nat.sqrt (2 * fxOne * fxOne)) fxOne
  if k ≥ 0 then m * 2 ^ k.toNat else m / 2 ^ (-k).toNat

/-- 10^(x / 10) for x in dB given in units of 2⁻⁶⁴, as a fraction over 2¹²⁸. -/
def ratioOfDb (x : Int) : Nat := exp2Fx (x * 2 ^ 64 / (10 * log10of2))

/-- The square root of num / den as binary32, times `scale`. -/
def sqrtF32 (scale num den : Nat) : F32 :=
  if den = 0 then 0 else f32OfRat (Nat.sqrt (num * scale * scale * 2 ^ 256 / den) : Nat) (2 ^ 128)

/-- The terms of erf (x) × √π ÷ 2 = Σ (−1)ⁿ x²ⁿ⁺¹ ÷ (n! (2n + 1)), x in units of 2⁻¹²⁸. -/
def erfSeries : Nat → Nat → Int → Int → Int → Int
  | 0, _, _, _, acc => acc
  | f + 1, n, x2, p, acc =>
    erfSeries f (n + 1) x2 (-(p * x2 / 2 ^ 128) / ((n : Int) + 1)) (acc + p / (2 * (n : Int) + 1))

/-- 2 ÷ √π in units of 2⁻¹²⁸: the square root of 4 ÷ π, from 113 bits of π. -/
def twoOverSqrtPi : Nat := Nat.sqrt (4 * 2 ^ 256 * 2 ^ 128 / 1069028584064966747859680373161870783300)

/-- erfc (x), x in units of 2⁻¹²⁸ and at most 6. -/
def erfcFx (x : Nat) : Int :=
  (fxOne : Int) - erfSeries 160 0 ((x : Int) * x / 2 ^ 128) x 0 * twoOverSqrtPi / 2 ^ 128

/-- The x in [lo, hi] at which erfc (x) = y ÷ 2¹²⁸, by halving the interval. -/
def erfcInvBisect : Nat → Nat → Nat → Int → Nat
  | 0, lo, _, _ => lo
  | n + 1, lo, hi, y =>
    let m := (lo + hi) / 2
    if erfcFx m > y then erfcInvBisect n m hi y else erfcInvBisect n lo m y

/-- Q (b) = 20 × log10 (√2 × erfc⁻¹ (2b)) in dB, units of 2⁻⁶⁴, for 0 < b < 1/2 (R225). -/
def qOfBer (num den : Nat) : Int :=
  let x := erfcInvBisect 100 0 (6 * fxOne) ((2 * num * fxOne / den : Nat) : Int)
  if x = 0 then -(200 * 2 ^ 64) else dbFx (2 * x * x) (fxOne * fxOne)

/-- Q-margin of R225 in dB as binary32: limited to −20.0 to +20.0, and +20.0 for a BER of 0. -/
def qMargin (errs bits thNum thDen : Nat) : F32 :=
  if errs = 0 then f32OfInt 20 else
  if bits ≤ 2 * errs then f32OfInt (-20) else
  let d := qOfBer errs bits - qOfBer thNum thDen
  if d > 20 * 2 ^ 64 then f32OfInt 20 else if d < -(20 * 2 ^ 64) then f32OfInt (-20) else fxToF32 d

end Sys2Proof.Machine
end

