-- ==== Sys2Proof/Machine/State.lean ====
section
/-! DEFINITION. The state of the module as plain data: the queue of waiting commands, the values of the object dictionary,
and every piece of state that the spec gives the module beside its objects. Tables keyed by a unit number hold only the
units that differ from their reset value, in ascending order. -/

namespace Sys2Proof.Machine

/-- The value of one dictionary object: unsigned (`BOOL`, `U8`–`U64`), signed (`I16`, `I32`), binary32, or octets (R10). -/
inductive Val where
  | u (n : Nat)
  | i (z : Int)
  | f (b : F32)
  | o (b : Bytes)
  deriving DecidableEq, Repr

/-- The status codes of R97, in the order of their codes 0x00 to 0x12. -/
inductive Status where
  | ok | noObject | noSub | readOnly | writeOnly | badType | range | inconsistent | role | owned | locked
  | shadowBusy | busy | state | resource | noData | hardware | timeout | general
  deriving DecidableEq, Repr

/-- The module states of R72. -/
inductive ModState where
  | off | standby | boot | calibrate | ready | traffic | safe
  deriving DecidableEq, Repr

/-- Where the start-up sequence of R73 stands: the step whose end is awaited. -/
inductive BootStep where
  | none            -- rails off, or the sequence is complete
  | rails           -- step 4: regulators starting
  | streaming       -- step 6
  | linkTraining    -- step 7
  | stockpot        -- step 8
  | config          -- step 9
  | powerUp         -- step 10
  | calibration     -- step 11
  deriving DecidableEq, Repr

/-- A reset kind of R82 that is running now. -/
inductive ResetKind where
  | none | management | full
  deriving DecidableEq, Repr

/-- The pins that carry levels (R55, R64, R83); `true` is the high level. Lines driven open-drain read high when released. -/
structure Pins where
  aux3v3 : Bool := false
  vin12 : VinBand := .low
  pwrEn : Bool := false
  resetN : Bool := true
  pwrgd : Bool := false
  thermN : Bool := true
  deriving DecidableEq, Repr

/-- One firmware slot of the boot flash (R75, R91): its `SlotState` code, the image's version and security version, and a
number that stands for the digest of its datapath part; and whether its manifest signature verifies and its MG part matches its
digest, as the boot ROM finds them (R76). -/
structure FwSlot where
  st : Nat := 0
  intact : Bool := true
  version : Bytes := []
  security : Nat := 0
  datapath : Nat := 0
  deriving DecidableEq, Repr

/-- One copy of the boot record (R75): sequence number, CRC state, and what it records. -/
structure BootCopy where
  seq : Nat := 0
  crcOk : Bool := true
  preferred : Nat := 0
  slotA : FwSlot := { st := 4 }
  slotB : FwSlot := {}
  deriving DecidableEq, Repr

/-- The boot flash (R75): two boot-record copies, the saved configuration and the Stockpot retirement list. -/
structure Flash where
  copy0 : BootCopy := {}
  copy1 : BootCopy := {}
  /-- values saved by `ConfigCommand`, where they differ from the defaults; `none` when no saved configuration exists -/
  saved : Option (List (Nat × Val)) := none
  /-- the retirement list: (retired page, spare) in order of retirement (R428) -/
  retired : List (Nat × Nat) := []
  /-- sequence number of the list copy in use (R429) -/
  listSeq : Nat := 0
  /-- the retirement list was erased and the erase awaits the next `BOOT` (R428) -/
  retiredErased : Bool := false
  deriving DecidableEq, Repr

/-- Start-up, rails and reset state (chapters 02 and 03). -/
structure Boot where
  st : ModState := .off
  step : BootStep := .none
  /-- uptime, in µs, at which the present module state was entered (`StateMillis`) -/
  enteredAt : Nat := 0
  /-- uptime at which the last `BOOT` began -/
  bootAt : Nat := 0
  /-- the regulators are on -/
  railsOn : Bool := false
  /-- a restart needs PWR_EN to be negated first (R56) -/
  needNegate : Bool := false
  /-- the trip latch of R68: THERM_N stays low until PWR_EN is negated -/
  tripped : Bool := false
  /-- a start refused for VIN12 awaits VIN12 entering its range (R56) -/
  vinWait : Bool := false
  /-- PWR_EN was asserted while nothing could act on it: without AUX3V3 (R56), or in the recovery condition (R77) -/
  pwrIgnored : Bool := false
  /-- management firmware running and ready (FW of R146) -/
  fwReady : Bool := false
  /-- management firmware started and not yet ready (R77) -/
  fwStarting : Bool := false
  /-- the recovery condition of R77 -/
  recovery : Bool := false
  running : Nat := 0
  /-- the datapath image that the dies run (R89); `none` while the main rails are off -/
  dpRunning : Option Nat := none
  /-- anti-rollback counter fused in MG (R76) -/
  antiRollback : Nat := 0
  resetting : ResetKind := .none
  /-- the trial of R88 is running -/
  trialRunning : Bool := false
  /-- a management reset that trial expiry had to defer (R88) -/
  trialDeferred : Bool := false
  /-- an image is being written into the slot not running (R131) -/
  imageWriting : Bool := false
  /-- the rails have been on since the last power-on or full reset -/
  railsBefore : Bool := false
  /-- a trip has happened: the next start waits for the case and MG to cool (R68) -/
  afterTrip : Bool := false
  /-- after a failed datapath part, `BOOT` is repeated once the other slot's firmware is ready (R77) -/
  retryBoot : Bool := false
  /-- `SAFE` was entered for causes that injection alone made, and no real cause has joined them (R145, R497) -/
  safeInj : Bool := false
  deriving DecidableEq, Repr

/-- Thermal supervision (R64–R69). -/
structure Thermal where
  /-- the grace timer has begun shedding in its present run -/
  shedding : Bool := false
  /-- next position of `ShedOrder` to consider, 1–64 -/
  shedPos : Nat := 1
  deriving DecidableEq, Repr

/-- A running block transfer of a session (R130). -/
structure BlockXfer where
  idx : Nat
  inst : Nat
  sub : Nat
  writing : Bool
  total : Nat
  /-- captured content of a read -/
  content : Bytes
  /-- pieces written, oldest first -/
  pieces : List (Nat × Bytes)
  deriving DecidableEq, Repr

/-- One session slot (R99–R104, R129, R130, R132, R138). Role and transport are the codes of R95 and 2100h[k].2. -/
structure Session where
  isOpen : Bool := false
  transport : Nat := 0
  role : Nat := 0
  identity : Nat := 255
  keyHash : Bytes := []
  subs : Nat := 0
  /-- opened while the module was commissioning (R103) -/
  commissioned : Bool := false
  openedAt : Bytes := List.replicate 10 0
  lastStatus : Nat := 0
  conn : Nat := 0
  nextSeq : Nat := 0
  buffered : List (SehalHdr × SehalBody) := []
  cache : List (Nat × Bytes) := []
  notifySeq : Nat := 0
  notifySecond : Nat := 0
  notifyCount : Nat := 0
  canInst : Nat := 0
  shadowView : Bool := false
  block : Option BlockXfer := none
  blockTimedOut : Bool := false
  deriving DecidableEq, Repr

/-- The phase of one DTLS connection (R100, R125). -/
inductive ConnPhase where
  | cookieSent | handshaking | authenticated | sessionOpen
  deriving DecidableEq, Repr

/-- One DTLS connection: its port, its phase, the cookie it was sent, and the identity its key matched. -/
structure Conn where
  id : Nat
  port : Nat
  phase : ConnPhase
  cookie : Nat
  identity : Nat := 255
  keyHash : Bytes := []
  slot : Nat := 255
  deriving DecidableEq, Repr

/-- One journal entry (R118). -/
structure JournalEntry where
  seq : Nat
  time : Bytes
  slot : Nat
  kind : Nat
  idx : Nat
  inst : Nat
  sub : Nat
  role : Nat
  gen : Nat
  deriving DecidableEq, Repr

/-- An SDO transfer of a CAN port (R137). -/
structure SdoXfer where
  download : Bool
  idx : Nat
  sub : Nat
  total : Nat
  data : Bytes
  toggle : Bool := false
  /-- its last request came in an FD frame -/
  fd : Bool := false
  deriving DecidableEq, Repr

/-- What a management port works with (R123, R124): subs 1 and 4 to 9 of 1100h. -/
structure MgmtConf where
  mode : Nat := 1
  ipv6 : Bytes := List.replicate 16 0
  ipv6Prefix : Nat := 64
  ipv4 : Bytes := List.replicate 4 0
  ipv4Prefix : Nat := 24
  gateway6 : Bytes := List.replicate 16 0
  gateway4 : Bytes := List.replicate 4 0
  deriving DecidableEq, Repr

/-- One management port beside its objects: the configuration in force, and those that writes have left and that wait for their
100 ms, oldest first (R124). -/
structure MgmtPort where
  conf : MgmtConf := {}
  waiting : List MgmtConf := []
  deriving DecidableEq, Repr

/-- One TPDO of a port (R140): the values last sampled and last sent, and its inhibit time. -/
structure Tpdo where
  sample : Option Bytes := none
  last : Option Bytes := none
  inhibited : Bool := false
  waiting : Bool := false
  deriving DecidableEq, Repr

/-- One CAN port beside its objects (R134–R141). -/
structure CanPort where
  started : Bool := false
  startPending : Bool := false
  sdo : Option SdoXfer := none
  tpdo : List (Nat × Tpdo) := []
  /-- waiting EMCY messages, oldest first: source key, whether it reports a raising, and the message -/
  emcy : List (Nat × Bool × Bytes) := []
  emcyInhibit : Bool := false
  deriving DecidableEq, Repr

/-- One message that the module has sent on a management transport. -/
inductive Msg where
  | sehal (slot : Nat) (msg : Bytes)
  /-- a response on a connection that carries no session -/
  | sehalConn (conn : Nat) (msg : Bytes)
  /-- a CAN frame: classic, or FD -/
  | can (port cobId : Nat) (fd : Bool) (data : Bytes)
  | helloRetry (conn cookie : Nat)
  | dtlsServerFlight (conn : Nat) (certificate : Bytes)
  | accessDenied (conn : Nat)
  | dtlsClose (conn : Nat)
  | reply (port : Nat) (frame : MgmtFrame)
  deriving DecidableEq, Repr

/-- A commit scope beside its objects (R111–R114). -/
structure Scope where
  armRole : Nat := 0
  armSlot : Nat := 255
  /-- armed as a member of the group commit -/
  member : Bool := false
  /-- a pending object needs the far end, as judged at the arm -/
  needsPeer : Bool := false
  /-- the far end's confirmation has been decoded -/
  confirmed : Bool := false
  /-- result with which the scope ended as a member of the group commit; 0 while it runs -/
  memberResult : Nat := 0
  /-- when scope 64 copies: uptime (µs) if armed on its own, module time (ns) as a member of the group commit -/
  due : Nat := 0
  deriving DecidableEq, Repr

/-- The entry of a fault source in the event queue (R492, R494). -/
structure QEntry where
  seq : Nat
  first : Bytes
  last : Bytes
  count : Nat
  injLatest : Bool
  injAny : Bool
  realAny : Bool
  ackedBy : Nat := 255
  unit : Nat
  deriving DecidableEq, Repr

/-- One fault source (R491): state code, real and injected condition, its queue entry, and its occurrences. -/
structure Source where
  st : Nat := 0
  real : Bool := false
  inj : Bool := false
  entry : Option QEntry := none
  occurrences : Nat := 0
  /-- what made the latest raising injected, kept when the source found no queue slot -/
  injAny : Bool := false
  realAny : Bool := false
  deriving DecidableEq, Repr

/-- An injector beside its objects (R496). -/
structure Injector where
  src : Nat := 0
  remaining : Nat := 0
  holding : Bool := false
  deriving DecidableEq, Repr

/-- A power domain beside its objects (R499–R503). -/
structure Domain where
  changeAt : Nat := 0
  /-- a host power-down that waits for an engine reset to end (R90) -/
  waiting : Bool := false
  /-- the running power-down is a shed (R66) -/
  byShed : Bool := false
  deriving DecidableEq, Repr
/-- The encoder of R274: information bits of the two coded blocks before (newest first), and the bits of the coded block in
progress, parity places empty. -/
structure Encoder where
  prev1 : List Bool := []
  prev2 : List Bool := []
  cur : List (Option Bool) := []
  deriving DecidableEq, Repr

/-- A change of a carrier's layout, or of a commit scope without one, on its way to its target block (R112, R286). -/
structure Change where
  /-- codes of the new layout; for a host commit they are the pending shadows and this is empty -/
  codes : List Nat := []
  /-- the change alters the layout, so that it is announced -/
  layout : Bool := true
  /-- RequestId; 0 without the far end -/
  request : Nat := 0
  /-- awaiting the confirmation -/
  waiting : Bool := false
  first : Option Nat := none
  target : Option Nat := none
  rescue : Bool := false
  deriving DecidableEq, Repr

/-- The layout of a block whose coded bits are still being encoded: its counter, codes, and power offsets in 0.1 dB. -/
structure TxLayout where
  counter : Nat
  codes : List Nat
  offsets : List Int
  deriving DecidableEq, Repr

/-- The symbols of a sent block, in 2⁻²⁴ (R231 steps 4 to 6): for each active subcarrier X and Y in time order, pilots among them. -/
structure TxBlock where
  counter : Nat
  points : List (Nat × List (Int × Int) × List (Int × Int))
  deriving DecidableEq, Repr

/-- The transmit side of a carrier (chapters 08 and 09): the counter of the next block, the encoder, MapTag, the outstanding
change of the commit scope and the automatic one, the confirmation being sent and the blocks left of it, a cursor over service
segments, and what the last block sent: header signs, fixed part, data stream and coded bits; coded bits that wait for the rest of
their block, the layouts of the blocks not yet mapped (oldest first), and the symbols of the last three blocks (newest first). -/
structure KlfTx where
  next : Nat := 0
  enc : Encoder := {}
  mapTag : Nat := 0
  host : Option Change := none
  auto : Option Change := none
  confirm : Nat := 0
  confirmLeft : Nat := 0
  cursor : Nat := 0
  header : Nat := 0
  fixed : Nat := 0
  data : List Bool := []
  coded : List Bool := []
  unmapped : List Bool := []
  layouts : List TxLayout := []
  blocks : List TxBlock := []
  deriving DecidableEq, Repr

/-- The receive side of a carrier (R273, R282–R288): the layout it demaps with, the last passing counter and blocks since, runs of
passing and failing blocks, compare results by slot with the MapTag and the run of matching blocks, the last two header records
that passed with the header phase, a header resync under way, request and pending record parts (part, RequestId, content), and the
target with its tag, and the RequestId last judged while its cells go on. -/
structure KlfRx where
  record : Nat := 0
  held : Bool := false
  counter : Nat := 0
  since : Nat := 0
  known : Bool := false
  passes : Nat := 0
  fails : Nat := 0
  mapTag : Option Nat := none
  /-- slots whose last receipt mismatched, and passing blocks in a row that matched -/
  mismatched : List Nat := []
  matchRun : Nat := 0
  /-- tag and phase of the last header that passed, when the block before this one passed -/
  lastHeader : Option (Nat × Nat) := none
  resync : Nat := 0
  requestParts : List (Nat × Nat × Nat) := []
  pendingParts : List (Nat × Nat) := []
  target : Option (Nat × Nat) := none
  judged : Nat := 0
  deriving DecidableEq, Repr

/-- Link tuning of a carrier beside its objects (chapter 08): the report set being sent (number, tag, entries, next part), the set
being received (number, parts with their entries), the 1 ms SNR values by subcarrier (newest first, 2⁻¹⁴⁹ dB), the uptime (µs) of
the last change of each subcarrier's far code, of the last valid cell, of the last automatic change applied, of the automatic
change in progress, and since when the far end has reported RxState 1 or 2. -/
structure TuneSt where
  seq : Nat := 0
  tag : Nat := 0
  entries : List (Nat × Nat) := []
  part : Nat := 0
  rxSeq : Nat := 0
  rxParts : List (Nat × List (Nat × Nat)) := []
  window : List (Nat × List Int) := []
  changedAt : List (Nat × Nat) := []
  lastCell : Option Nat := none
  lastApplied : Option Nat := none
  autoAt : Nat := 0
  targets : List Nat := []
  /-- `MinChangeInterval` in ms, as the last complete set found it (R267) -/
  interval : Nat := 100
  lowSince : Option Nat := none
  deriving DecidableEq, Repr

/-- A cross-fade of a filter (R173, R192): the bank that it leaves, as settings with their weights in 2⁻³², the settings that it
goes to, the uptime (µs) at its start, and its length in blocks of 256 samples. A front-end bank is the applied skew of the four
channels and the response mode; a Ladle bank is its dispersion. -/
structure Fade where
  old : List (Nat × List Int)
  new : List Int
  start : Nat
  blocks : Nat
  deriving DecidableEq, Repr

/-- A ramp of the launch power (R161): levels in 10⁻³ dBm, its start (uptime, µs) and length, and whether it ends at the dark
level. -/
structure Ramp where
  lo : Int
  hi : Int
  start : Nat
  micros : Nat
  dark : Bool
  deriving DecidableEq, Repr

/-- A warm state (R183): the Ladle's value, the Whisk's taps, the timing loop's frequency and the carrier frequency offset, and the
clock-tone metric that stood then (R186). -/
structure Warm where
  ladle : Int
  taps : List (Int × Int)
  clock : F32
  freq : F32
  tone : Nat
  deriving DecidableEq, Repr

/-- Sums of the quality measures over some time, of one subcarrier (R222): Σ|x|² and Σ|y − x|² in 2⁻⁴⁸, differing and compared
hard-decision bits, data symbols, Σ log2 (1 + exp (−s L)) in 2⁻³², and Σ 32 H over the data symbols. -/
structure QSum where
  sx : Nat := 0
  se : Nat := 0
  errs : Nat := 0
  bits : Nat := 0
  syms : Nat := 0
  gmi : Nat := 0
  ent : Nat := 0
  deriving DecidableEq, Repr

/-- The quality measures of a carrier beside their objects (R223): the sums of the last milliseconds by subcarrier (newest first),
the sums of the interval, the lowest updates in it, and time in `TRACK` in the interval: µs so far, and since when. -/
structure Quality where
  recent : List (List (Nat × QSum)) := []
  interval : List (Nat × QSum) := []
  snrMin : List (Nat × F32) := []
  marginMin : Option F32 := none
  trackMicros : Nat := 0
  trackFrom : Nat := 0
  deriving DecidableEq, Repr

/-- The receive DSP of a carrier beside its objects (chapter 07): the acquisition step completed last (R185, R186) and when the
acquisition began, warm attempts that failed in a row, the two newest snapshots (newest first), the held warm state, the Ladle
mode and the search bounds of the last cold acquisition, a Ladle fade and whether a tracking update waits for its end, the taps
(hxx, hxy, hyx, hyy, in 2⁻¹⁴), tap pairs gated, the residual dispersion last read from the taps, in 0.001 ps/nm, `ResidualLimit` as
the last test of R211 took it, pilot sums over `PhaseAverage` (newest first), the trims by subcarrier and polarisation (2k for X,
2k + 1 for Y) in 2⁻¹⁴, and the LLR words that the demapper last passed on. -/
structure Rx where
  step : Nat := 0
  began : Nat := 0
  warmFails : Nat := 0
  snaps : List Warm := []
  held : Option Warm := none
  mode : Nat := 0
  searchMin : Int := -250000
  searchMax : Int := 250000
  fade : Option Fade := none
  due : Bool := false
  taps : List (Int × Int) := []
  gated : Nat := 0
  residual : Int := 0
  jointLimit : Nat := 0
  phases : List (Int × Int) := []
  trims : List (Nat × (Int × Int)) := []
  llrs : List Int := []
  quality : Quality := {}
  deriving DecidableEq, Repr

/-- The optical front end of a carrier beside its objects (chapter 06): a ramp, whether a loss of the line has not yet run through
all steps of R156, whether it still waits for step 4 (R156), whether its bias loops have not locked since its port was powered up
(R502), the receive and transmit filter fades, the DC offsets in 2⁻²⁴ of an ADC code, the DC block's settings since its AGC window
began (`DcShift` and whether it is frozen, oldest first), the calibrated inverse of the transmit response by channel (R245), and
clipped ADC samples of the four channels so far in the interval. -/
structure Front where
  ramp : Option Ramp := none
  lineHeld : Bool := false
  lineWaits : Bool := false
  unlocked : Bool := false
  rxFade : Option Fade := none
  txFade : Option Fade := none
  dc : List Int := [0, 0, 0, 0]
  dcRuns : List (Nat × Bool) := []
  txResponse : List (List Int) := []
  clips : List Nat := [0, 0, 0, 0]
  deriving DecidableEq, Repr

/-- One carrier engine beside its objects (chapters 03, 06 to 09): the next calibration step of R80 (0 when no calibration runs), a
held enable (R79), a running reset (R85), and the Sieve's statistics of the interval (R292): uncorrected blocks, corrected bits,
iterations and window positions. -/
structure Engine where
  /-- uptime (µs) at which `TRACK` was entered -/
  trackSince : Option Nat := none
  calStep : Nat := 0
  heldEnable : Bool := false
  resetting : Bool := false
  /-- shed, and not powered up since (R66, R146) -/
  shed : Bool := false
  /-- it was shed for causes that injection alone made (R145, R497) -/
  shedInj : Bool := false
  /-- an injected condition that acted took the receive path out of service, and it has not come back (R145, R497) -/
  injLost : Bool := false
  front : Front := {}
  dsp : Rx := {}
  tx : KlfTx := {}
  rx : KlfRx := {}
  tune : TuneSt := {}
  sieve : List Nat := [0, 0, 0, 0]
  /-- coded blocks released since decoding started, at most 2 counted (R290) -/
  sieveStart : Nat := 0
  /-- coded blocks in flight in the Sieve's pool (R290) -/
  inFlight : Nat := 0
  /-- `UncorrectedAlarm` as the interval in progress took it (R299) -/
  alarmLevel : Nat := 1
  /-- DAC samples clipped so far in the interval (R247) -/
  dacClips : Nat := 0
  deriving DecidableEq, Repr

/-- A PRBS checker (R316): the last 31 bits of its reference, newest first, the run of error-free bits before lock, and which of the
last 64 compared bits were in error. -/
structure Checker where
  hist : List Bool := []
  good : Nat := 0
  errs : List Bool := []
  deriving DecidableEq, Repr

/-- One host lane beside its objects (R303–R317): the configuration that its last entry to `DETECT` took (R323), how far its
bring-up has come, its equalisers, and its PRBS checker. -/
structure Lane where
  modeSelect : Nat := 0
  anEnable : Bool := true
  trainEnable : Bool := true
  exchangeMode : Nat := 1
  txPreset : Nat := 1
  adaptMode : Nat := 0
  /-- uptime (µs) of the entry to `DETECT` -/
  detectAt : Nat := 0
  farTermination : Bool := false
  /-- parallel detection runs (R306) -/
  parallel : Bool := false
  /-- the last passing capability frame of a run of passing frames, and whether it has been accepted (R310) -/
  lastFrame : Option Nat := none
  accepted : Bool := false
  complete : Bool := false
  /-- lowest `FomNow` update of the running interval -/
  fomMin : Option F32 := none
  /-- error injection runs; the errors of mode 2 still to come; bits or symbols sent since the last injected error, in 1/1,000 (R317) -/
  injecting : Bool := false
  injectLeft : Nat := 0
  injectBits : Nat := 0
  /-- this run of bring-up began in `DETECT` (R305) -/
  fresh : Bool := false
  /-- transmit coefficients in force, c(−3) first, in 1/1,024; none while the lane is electrically idle (R301, R309) -/
  txTaps : List Int := []
  /-- far-end rate against nominal in 0.001 ppb -/
  farRate : Int := 0
  ctle : Nat := 0
  ffe : List Int := []
  dfe : Int := 0
  checker : Checker := {}
  /-- an injected `LANE_LOS` that acted restarted the lane, and it is not back in `ACTIVE` or `TEST` (R145, R497) -/
  injDown : Bool := false
  deriving DecidableEq, Repr

/-- One aggregated member (R318, R319): per priority, the frames in its ingress queue and in its egress queue (oldest first),
whether XOFF is held, and the uptime (µs) until which its egress is paused. -/
structure Member where
  ingress : List (Nat × List Bytes) := []
  egress : List (Nat × List Bytes) := []
  xoff : List Nat := []
  pausedUntil : List (Nat × Nat) := []
  /-- bytes of the member's egress frames delivered to its client, and the last of those frames -/
  delivered : Nat := 0
  sent : Bytes := []
  deriving DecidableEq, Repr

/-- What a seal notice says (R351). -/
structure Notice where
  sel : Nat
  epoch : Nat
  phase : Nat
  side : Nat
  deriving DecidableEq, Repr

/-- A rollover that a path has still to make (R364): the slot it goes to; from its first notice on, the epoch (2³² for none) and the first span
under it; and whether the last free ControlCell carried its notice. -/
structure Roll where
  sel : Nat
  epoch : Nat := 0
  start : Option Nat := none
  justSent : Bool := false
  deriving DecidableEq, Repr

/-- The sealing of one transmit path (R346–R350, R364): whether a span is in progress, the target blocks that start and end it, key slot and
epoch, the span in progress (its number, overheads and ciphertext bits), the tag that awaits its block, and its notices. -/
structure SealTx where
  on : Bool := false
  from' : Nat := 0
  stopAt : Option Nat := none
  sel : Nat := 0
  epoch : Nat := 0
  /-- a fresh epoch is drawn when the next span begins -/
  drawNew : Bool := true
  noEpoch : Bool := false
  span : Nat := 0
  aad : Bytes := []
  ct : List Bool := []
  tag : Option (Nat × Nat) := none
  fresh : Nat := 0
  roll : Option Roll := none
  deriving DecidableEq, Repr

/-- A received span whose tag is awaited: its number, overheads, ciphertext with errored marks, and what it would deliver. -/
structure Span where
  num : Nat
  aad : Bytes := []
  ct : List (Bool × Bool) := []
  /-- the payload areas of its blocks: overhead, first bit in `ct`, length -/
  areas : List (Nat × Nat × Nat) := []
  deriving DecidableEq, Repr

/-- The opening of one receive path (R353–R356). -/
structure SealRx where
  cur : Option Notice := none
  /-- adopted from the next span on -/
  next : Option Notice := none
  /-- a pending notice and the span, modulo 32, from which it applies -/
  held : Option (Notice × Nat) := none
  span : Option Span := none
  /-- the last span failed -/
  bad : Bool := false
  /-- the key slot of the notice that brought the path into step, then of the last verified span (R353, R364) -/
  shown : Option Nat := none
  deriving DecidableEq, Repr

/-- One path of a tray (R326, R336, R337): bits sent before this block, bits of the stream already formed; runs of failing and
passing overheads; times (µs) of blocks with an errored mark in the last 100 ms; conditions, and whether each has lasted
`HoldOff`; sealing. -/
structure TrayPath where
  pos : Nat := 0
  rest : List Bool := []
  /-- the idle-mapped stream stands inside a frame (R328) -/
  inFrame : Bool := false
  /-- at egress, the stream position that comes next and the bits of a 66b block that is not yet whole (R335) -/
  next : Nat := 0
  part : List (Bool × Bool) := []
  fails : Nat := 0
  passes : Nat := 0
  marked : List Nat := []
  sf : Bool := true
  sd : Bool := false
  sfHeld : Bool := false
  sdHeld : Bool := false
  tx : SealTx := {}
  rx : SealRx := {}
  deriving DecidableEq, Repr

/-- The receiver of an aggregated tray (R329): stream bits with marks not yet taken, whether it is between headers, and the frame
in progress: member, priority, octets still to come with padding, octets so far, frame length, and whether it is damaged. -/
structure AggRx where
  buf : List (Bool × Bool) := []
  sync : Bool := false
  member : Nat := 0
  priority : Nat := 0
  left : Nat := 0
  length : Nat := 0
  acc : Bytes := []
  damaged : Bool := false
  deriving DecidableEq, Repr

/-- A key agreement of a tray (R366, R367): exchange number, own ephemeral key, parts received by message and part, and whether
each message is being sent. -/
structure Agree where
  exchange : Nat := 0
  secret : Nat := 0
  parts : List (Nat × Bytes) := []
  sendOffer : Bool := false
  sendAnswer : Bool := false
  sendConfirm : Bool := false
  sendAbort : Bool := false
  confirmKey : Bytes := []
  key : Bytes := []
  started : Nat := 0
  deriving DecidableEq, Repr

/-- What takes the place of a tray's client at egress (R335). -/
inductive Fill where
  | none | odukAis | ones | localFault | idle
  deriving DecidableEq, Repr

/-- What a tray last gave its egress: a fill, or client bits (R335). -/
structure Egress where
  fill : Fill := .none
  bits : List Bool := []
  deriving DecidableEq, Repr

/-- One tray beside its objects (chapters 11 and 12): its two paths, the host command of its selector, a wait to restore that has
passed, the last equalised delay (ns), a realignment in progress and one that waits for a switch, fill since when (µs) and so far
in the interval, the receiver of an aggregated tray, the last member served by priority, the exchange last drawn, the
agreement that runs, what it last delivered, and the client bits and blocks from which the client clock is recovered (R327). -/
structure Tray where
  work : TrayPath := {}
  prot : TrayPath := {}
  command : Nat := 0
  restored : Bool := false
  lastD : Option Int := none
  realigning : Bool := false
  realignLater : Bool := false
  fillSince : Option Nat := none
  fillMicros : Nat := 0
  agg : AggRx := {}
  served : List (Nat × Nat) := []
  exchange : Nat := 0
  agree : Option Agree := none
  out : Egress := {}
  clock : Nat × Nat := (0, 0)
  deriving DecidableEq, Repr

/-- One key slot of the key store (R359): the key, and whether it has reached every powered line die. -/
structure Key where
  key : Bytes := []
  delivered : Bool := false
  deriving DecidableEq, Repr
/-- The context of a leaf (R403), field by field; a never-written context is all zeros. `seeds` are bytes 48 to 319, empty for
zeros; `counters` are subs 16 to 21 of 5100h. -/
structure Context where
  state : Nat := 0
  enable : Bool := false
  suspect : Bool := false
  keySel : Nat := 0
  upFormat : Nat := 0
  serial : Bytes := List.replicate 6 0
  tags : Nat := 0
  source : Nat := 0
  home : Nat := 0
  upWeight : Nat := 0
  downWeight : Nat := 0
  upMin : Nat := 0
  upMax : Nat := 0
  rateMax : Nat := 0
  ranging : Int := 0
  epoch : Nat := 0
  lastBurst : Nat := 0
  demand : Nat := 0
  /-- last arrival error, in 1/16 Tsc -/
  arrival : Int := 0
  powerStep : Int := 0
  seeds : Bytes := []
  counters : List (Nat × Nat) := []
  deriving DecidableEq, Repr

/-- A frame of a leaf queue (R407): its number, priority and octets, and how many of them the scheduler has read. -/
structure QFrame where
  num : Nat
  priority : Nat
  data : Bytes
  taken : Nat := 0
  deriving DecidableEq, Repr

/-- A leaf as builder and scheduler hold it (R383, R398–R400, R407): its queue, oldest first; the deficit of its round robin and
the octets sent in the last milliseconds (time in µs, octets); the frame of its last grant, the information bytes granted after its
last header, grants missed in a row, ranging grants used, and the last arrival errors (1/16 Tsc). -/
structure LeafRun where
  queue : List QFrame := []
  nextNum : Nat := 0
  deficit : Nat := 0
  sent : List (Nat × Nat) := []
  lastGrant : Nat := 0
  granted : Nat := 0
  missed : Nat := 0
  attempts : Nat := 0
  errors : List Int := []
  /-- the upstream frame in progress across pieces: octets so far, and whether a piece was lost -/
  upAcc : Bytes := []
  upLost : Bool := false
  /-- 1 + the leaf state that an injected condition which acted gave, and whether one made the ranging suspect (R145, R497) -/
  injAs : Nat := 0
  injSuspect : Bool := false
  deriving DecidableEq, Repr

/-- A grant entry (R389). -/
structure Grant where
  kind : Nat
  leaf : Nat
  start : Nat
  blocks : Nat
  format : Nat
  deriving DecidableEq, Repr

/-- The burst receiver of a hub subcarrier (R408–R411): 0 idle, 1 tentative, 2 committed, 3 in the payload; the metric, the
upstream frame, the arrival error (1/16 Tsc), the leaf, the header, blocks still due, what they carried with marks, whether it was
granted, lies in a discovery window, was cold, and was overlapped. -/
structure Burst where
  phase : Nat := 0
  metric : Nat := 0
  frame : Nat := 0
  arrival : Int := 0
  leaf : Nat := 0
  header : Nat := 0
  left : Nat := 0
  info : Bytes := []
  marked : List Nat := []
  grant : Option Grant := none
  window : Bool := false
  cold : Bool := false
  overlapped : Bool := false
  /-- the seeds that the reception works with: those of the hot context, or the defaults (R405, R408) -/
  seeds : Bytes := []
  /-- the host wrote the leaf's seed profile meanwhile: its values stand (R412) -/
  hostWrote : Bool := false
  deriving DecidableEq, Repr

/-- One hub subcarrier beside its objects (chapter 13): the active map (with its frame), the map being built, maps that the line
die holds, contexts delivered for the next frame; control messages with the copies still to be sent; a key rollover scheduled for
frame F, and the end of the frames that open under the old slot; the frame bits still to be sent, those sent before, whether a
frame starts in the next block, the last bits of the queued frames they carry (position, leaf, frame), the leaf that the round robin
serves first, and the epochs of the slot to come and of the slot before. -/
structure Hub where
  active : List Grant := []
  building : Option (List Grant) := none
  lineMaps : List (Nat × List Grant) := []
  control : List (Nat × Bytes × Nat) := []
  rollAt : Option Nat := none
  oldUntil : Option Nat := none
  drawEpoch : Bool := true
  out : List Bool := []
  outPos : Nat := 0
  startsNow : Bool := false
  marks : List (Nat × Nat × Nat) := []
  cursor : Nat := 0
  nextEpoch : Option Nat := none
  oldEpoch : Option Nat := none
  /-- the subcarrier has an epoch to seal under -/
  hasEpoch : Bool := false
  burst : Burst := {}
  /-- missed grants count only from the first downstream frame after a return (R412) -/
  settled : Bool := false
  deriving DecidableEq, Repr

/-- One Stockpot page beside its place: its data, its tag (R420), and whether it is classed `PERSISTENT` (R423). -/
structure Page where
  data : Bytes := []
  written : Bool := false
  history : Nat := 0
  persistent : Bool := false
  deriving DecidableEq, Repr

/-- The Stockpot beside its objects (R415–R429). Pages are keyed by page address, as the array holds them: the page of a retired
address is the spare's. -/
structure Stockpot where
  /-- pages of each region: runs (first page address, count); key 4 r + stack for region r, 1000 + t for tray t's delay region -/
  extents : List (Nat × List (Nat × Nat)) := []
  /-- remaps in force, oldest first: (retired page address, spare address) (R428) -/
  remap : List (Nat × Nat) := []
  /-- the log, oldest first (R427) -/
  log : List Bytes := []
  /-- uptime (µs) at which each stack's sweep began, and the stacks swept in the sweep of the whole Stockpot (R426) -/
  sweepStart : List (Nat × Nat) := []
  swept : List Nat := []
  deriving DecidableEq, Repr

/-- What a channel does after a pause or a stop until its buffers are written (R438, R439). -/
inductive Drain where
  | none | pause | stop
  | forced (error : Nat)
  deriving DecidableEq, Repr

/-- One capture DMA channel beside its objects (R430–R439). -/
structure Dma where
  /-- a ring is allocated: its length in pages -/
  ringSize : Nat := 0
  /-- the line die in whose buffer the ring lies -/
  ringPort : Nat := 0
  /-- the complete pages in the ring, oldest first -/
  ring : List Bytes := []
  ringLost : Bool := false
  seq : Nat := 0
  dropped : Bool := false
  /-- pages left of the snapshots taken, of a kind 2 source -/
  snapLeft : Nat := 0
  /-- what is left of the source page being moved -/
  cur : Bytes := []
  /-- octets in the page buffer; they end at the present destination offset -/
  buffer : Bytes := []
  drain : Drain := .none
  deriving DecidableEq, Repr

/-- One priority-table entry of a timing generator as the generator works with it (R448–R452): the table values that took
effect at the last 1 s evaluation, the 1 s means held (newest first, at most 100), and how many evaluations in a row its
`Offset100s` lay within `SoftLimit`, and within `AgreementWindow` of the selected reference. -/
structure TgEntry where
  cand : Nat := 0
  rank : Nat := 0
  soft : Nat := 9200
  hard : Nat := 12000
  means : List Int := []
  softRun : Nat := 0
  agreeRun : Nat := 0
  deriving DecidableEq, Repr

/-- One timing generator beside its objects: the holdover history in 0.001 ppb, newest first (R453), the forced holdover
(R456), the cause of the next selection, and generator time minus module time in 10⁻⁹ ns (R464). -/
structure Tg where
  history : List Int := []
  forced : Bool := false
  cause : Nat := 0
  phase : Int := 0
  deriving DecidableEq, Repr

/-- Module time beside its objects (R461–R463): the fraction of a nanosecond and what is left of a slew, both in 10⁻⁹ ns, a
step that awaits the next 1 ms tick, and a PPS correction that awaits the end of a slew. -/
structure TimeCtl where
  frac : Int := 0
  slewLeft : Int := 0
  stepping : Bool := false
  ppsWaiting : Bool := false
  oscinLost : Bool := false
  deriving DecidableEq, Repr

/-- One frame-pulse output beside its objects (R464, R465): the period in effect (units of 125 µs), output edge minus target
edge in 10⁻⁹ ns, and the generator times (ns) of the first pulse, of an awaited period change and of an awaited jump. -/
structure Fpo where
  period : Nat := 8000
  err : Int := 0
  firstAt : Nat := 0
  periodAt : Option Nat := none
  jumpAt : Option Nat := none
  deriving DecidableEq, Repr

/-- One monitor converter beside its objects (R471–R474): the entries (channel, sampling time, gain code) of the pass in
progress, the entry that runs, a conversion that may still end after a suspension, a running urgent conversion, results of
channel 0x00 in a row outside and inside the band, and the entries that have a result since the last clear. -/
structure Monitor where
  pass : List (Nat × Nat × Nat) := []
  pos : Nat := 0
  finishing : Bool := false
  urgent : Option (Nat × Nat × Nat) := none
  badRun : Nat := 0
  goodRun : Nat := 0
  seen : List Nat := []
  deriving DecidableEq, Repr

/-- The performance counter block beside its objects (R477, R478): counters whose running interval is not whole, whether all
read `Partial` for the last interval, a snapshot that awaits its time, and the freeze: when it starts, when counting resumes, and the
frozen time of the interval before. -/
structure Perf where
  partialNow : List Nat := []
  allPartialLast : Bool := false
  snapAt : Option Nat := none
  frozenFrom : Nat := 0
  thawAt : Nat := 0
  frozenNs : Nat := 0
  deriving DecidableEq, Repr

/-- One bandwidth window beside its objects (R479), in eighths of a bit: this window, this interval, and the peak (R479). -/
structure Window where
  acc : Nat := 0
  interval : Nat := 0
  peakBits : Nat := 0
  peakMillis : Nat := 1
  deriving DecidableEq, Repr

/-- One port event of the Probe in progress (R483), with the settings it runs under (R486). -/
structure ProbeEvent where
  start : Nat
  number : Nat
  hold : Nat
  threshold : Nat
  mask : Nat
  peakRate : Nat
  peakExc : Nat
  /-- dispersion of each participating slot at the start, in 0.1 ps/nm -/
  disp : List (Nat × Int)
  /-- the Stokes vectors of each participating slot since it took part, newest first, in 2⁻³⁰ -/
  vecs : List (Nat × List (Int × Int × Int)) := []
  changes : List Int := []
  left : Bool := false
  injected : Bool := false
  deriving DecidableEq, Repr

/-- What the Probe holds of one slot of a port: whether it was a member and above the threshold at the last sample, the start
of its last excursion, its last dispersion, rotation rate and Stokes vector, and the stream interval in progress (R482): its Stokes
vectors, newest first, in 2⁻³⁰, its highest rate and its largest excursion. -/
structure ProbeSlot where
  member : Bool := false
  above : Bool := false
  started : Option Nat := none
  disp : Int := 0
  speed : Nat := 0
  last : Option (Int × Int × Int) := none
  vecs : List (Int × Int × Int) := []
  rate : Nat := 0
  exc : Nat := 0
  deriving DecidableEq, Repr

/-- The Probe of one port beside its objects (R480–R485). -/
structure ProbePort where
  slots : List (Nat × ProbeSlot) := []
  event : Option ProbeEvent := none
  /-- start times of earlier events, newest first -/
  starts : List Nat := []
  log : List Bytes := []
  count : Nat := 0
  peak : Nat := 0
  /-- 10 µs samples taken in the stream interval in progress -/
  samples : Nat := 0
  /-- records that await a source page: end time (ns) and the 28 octets after TimeOffset, oldest first -/
  records : List (Nat × Bytes) := []
  deriving DecidableEq, Repr

/-- The whole state of the module. -/
structure State where
  /-- commands waiting to be run, first in, first out -/
  pending : List Instr := []
  /-- dictionary values that differ from their defaults, by key (R6, R21) -/
  od : List (Nat × Val) := []
  /-- shadow values written since the last copy (R12, R109) -/
  shadow : List (Nat × Val) := []
  pins : Pins := {}
  flash : Flash := {}
  boot : Boot := {}
  thermal : Thermal := {}
  /-- microseconds that MG has run since AUX3V3 entered its range -/
  uptime : Nat := 0
  sessions : List (Nat × Session) := []
  conns : List Conn := []
  journal : List JournalEntry := []
  journalNext : Nat := 1
  can : List (Nat × CanPort) := []
  mgmtPorts : List (Nat × MgmtPort) := []
  scopes : List (Nat × Scope) := []
  sources : List (Nat × Source) := []
  injectors : List (Nat × Injector) := []
  domains : List (Nat × Domain) := []
  /-- hold bits of the fast status RAM that are set now: address × 8 + bit (R146); bit 6 marks one that an injected event set (assumption 36) -/
  holds : List Nat := []
  /-- messages sent, newest first -/
  outbox : List Msg := []
  /-- how many free values the run has taken: the model's own counter, no part of the hardware -/
  freeCount : Nat := 0
  /-- module time, in nanoseconds (R461) -/
  moduleTime : Nat := 0
  /-- performance counters whose present interval includes an injected event (R477) -/
  perfInjected : List Nat := []
  engines : List (Nat × Engine) := []
  lanes : List (Nat × Lane) := []
  members : List (Nat × Member) := []
  /-- PFC frames sent to clients, newest first: tray, priority, pause time (R319) -/
  pfcSent : List (Nat × Nat × Nat) := []
  trays : List (Nat × Tray) := []
  /-- tray key slots 0–4,095 and utility slots at 4,096 + u -/
  keys : List (Nat × Key) := []
  /-- the key-encryption key (R360); empty while no peer key is held -/
  kek : Bytes := []
  hubs : List (Nat × Hub) := []
  /-- contexts as the Stockpot holds them, and the copies in the hot cache, most recently used first in `hotOrder` -/
  contexts : List (Nat × Context) := []
  hotCopies : List (Nat × Context) := []
  hotOrder : List Nat := []
  leafRuns : List (Nat × LeafRun) := []
  /-- hub egress: octets that wait for a source client, by source -/
  hubEgress : List (Nat × List Bytes) := []
  pages : List (Nat × Page) := []
  stockpot : Stockpot := {}
  dmas : List (Nat × Dma) := []
  tgEntries : List (Nat × TgEntry) := []
  tgs : List (Nat × Tg) := []
  timeCtl : TimeCtl := {}
  fpos : List (Nat × Fpo) := []
  monitors : List (Nat × Monitor) := []
  perf : Perf := {}
  windows : List (Nat × Window) := []
  probes : List (Nat × ProbePort) := []
  deriving DecidableEq, Repr

/-- A step that stops. -/
inductive Fault where
  /-- Raised by a meaning whose command names a unit that the module does not have (R3, R499). Safe: no such event exists. -/
  | noSuchUnit
  deriving DecidableEq, Repr

/-- A command without a meaning. -/
inductive Refusal where
  /-- Raised by an arm of `exec` whose command has no meaning yet. Safe: nothing is claimed of it. -/
  | notModelled (mnemonic : String)
  deriving DecidableEq, Repr

/-- The module with no supply applied: every object at its default, every unit at its reset value, no command waiting. -/
def State.reset : State := {}

end Sys2Proof.Machine
end

