-- ==== Sys2Proof/Machine/Layout.lean ====
section
/-! DEFINITION. The line format as functions of a carrier's format and layout: entropy codes, the distribution matcher, pilots,
rates and capacities, bit positions, the code, and the fields of a block (chapters 08, 09 and 11). -/

namespace Sys2Proof.Machine

/-- A carrier's format (R232, R268, R269): symbol rate in MBd, subcarrier count, pilot and FEC overhead codes. -/
structure Fmt where
  rs : Nat
  n : Nat
  pilot : Nat
  fec : Nat
  deriving DecidableEq, Repr

/-! ### Entropy codes (R235) -/

/-- The code of a subcarrier that is off. -/
def codeOff : Nat := 255

/-- `m` of a code; 0 for a subcarrier that is off. -/
def baseBits (e : Nat) : Nat := if e ≤ 16 then 2 else if e ≤ 64 then 4 else if e ≤ 144 then 6 else 0

/-- Amplitude levels per real dimension. -/
def levelsOf (e : Nat) : Nat := if e ≤ 16 then 1 else if e ≤ 64 then 2 else 4

/-- Amplitude bits per real dimension. -/
def ampBits (e : Nat) : Nat := if e ≤ 16 then 0 else if e ≤ 64 then 1 else 2

/-- A value of R235. -/
def codeValid (e : Nat) : Bool := e ≤ 144 || e = codeOff

/-- 32 × H of a code. -/
def entropy32 (e : Nat) : Nat := 48 + e

/-- Pilot spacing P of a `PilotRate` code (R242). -/
def pilotSpacing (c : Nat) : Nat := if c = 0 then 64 else if c = 1 then 32 else 16

/-- Data symbols of a matcher frame (R237). -/
def frameSymbols (c : Nat) : Nat := 256 - 256 / pilotSpacing c

/-- 1 − r of a `FecOverhead` code, as numerator and denominator (R269). -/
def fecLoss (c : Nat) : Nat × Nat := if c = 0 then (3, 23) else if c = 1 then (1, 6) else if c = 2 then (1, 5) else (27, 127)

/-- The pre-FEC BER threshold of a `FecOverhead` code, in units of 10⁻³ (R269). -/
def fecThreshold (c : Nat) : Nat := if c = 0 then 22 else if c = 1 then 32 else if c = 2 then 42 else 46

/-- The pre-FEC BER threshold of a profile, in units of 10⁻⁴ (R294). -/
def profileThreshold (p : Nat) : Nat := if p = 1 then 122 else 200

/-- Client indices of a profile (R243, R333). -/
def profileCapacity (p : Nat) : Nat := if p = 3 then 2 else if p = 4 then 3 else if p = 5 then 4 else 1

/-- The net rate H − (1 − r) m of a code, in units of 1 ÷ (32 b) bit, where 1 − r = a ÷ b (R241, R255). -/
def netOf (fec e : Nat) : Nat :=
  if e = codeOff then 0 else entropy32 e * (fecLoss fec).2 - 32 * (fecLoss fec).1 * baseBits e

/-! ### Rates and capacities (R243, R276, R277) -/

/-- The active subcarriers, in ascending order. -/
def activeSubs (f : Fmt) (codes : List Nat) : List Nat := (List.range f.n).filter fun k => codes.getD k codeOff != codeOff

/-- The sum of the net rates of the active subcarriers, in units of 1 ÷ (32 b). -/
def netSum (f : Fmt) (codes : List Nat) : Nat := ((activeSubs f codes).map fun k => netOf f.fec (codes.getD k codeOff)).foldl (· + ·) 0

/-- `NetRate` in Mbit/s, as numerator and denominator (R243). -/
def netRate (f : Fmt) (codes : List Nat) : Nat × Nat :=
  (2 * f.rs * (pilotSpacing f.pilot - 1) * 199 * netSum f codes, f.n * pilotSpacing f.pilot * 200 * 32 * (fecLoss f.fec).2)

/-- `SlotCapacity` of a Krytelm carrier (R243). -/
def slotCapacity (f : Fmt) (codes : List Nat) : Nat :=
  let r := netRate f codes
  min 640 (r.1 / (r.2 * 5000))

/-- The net rate of one subcarrier in Gbit/s (R243). -/
def subNetRate (f : Fmt) (e : Nat) : F32 :=
  f32OfRat ((2 * f.rs * (pilotSpacing f.pilot - 1) * 199 * netOf f.fec e : Nat) : Int)
    (f.n * pilotSpacing f.pilot * 200 * 32 * (fecLoss f.fec).2 * 1000)

/-- y of R276: payload bits per block, as numerator and denominator. -/
def payloadRate (f : Fmt) (codes : List Nat) : Nat × Nat :=
  (2 * 65536 * (pilotSpacing f.pilot - 1) * 199 * netSum f codes, f.n * pilotSpacing f.pilot * 200 * 32 * (fecLoss f.fec).2)

/-- Yc of R276. -/
def payloadBits (f : Fmt) (codes : List Nat) (c : Nat) : Nat :=
  let y := payloadRate f codes
  (c + 1) * y.1 / y.2 - c * y.1 / y.2

/-- Coded bits per block of a subcarrier at code `e` (R270). -/
def codedBits (f : Fmt) (e : Nat) : Nat := 512 * baseBits e * frameSymbols f.pilot / f.n

/-- Cb of R270. -/
def codedBitsPerBlock (f : Fmt) (codes : List Nat) : Nat :=
  ((activeSubs f codes).map fun k => codedBits f (codes.getD k codeOff)).foldl (· + ·) 0

/-- Parity bits per block of a subcarrier (R271). -/
def parityBits (f : Fmt) (e : Nat) : Nat := ((fecLoss f.fec).1 * codedBits f e + (fecLoss f.fec).2 - 1) / (fecLoss f.fec).2

/-- Matcher frames per block of a subcarrier (R237). -/
def framesPerBlock (f : Fmt) : Nat := 256 / f.n

/-- ⌊(j + 1) q⌋ − ⌊j q⌋ of R238 and R241: the bits that frame `j` carries in its amplitudes, or its frozen bits. -/
def frameBits (f : Fmt) (e j : Nat) : Nat :=
  let d := if e ≤ 15 then 16 - e else e - 16
  let q := frameSymbols f.pilot * d
  (j + 1) * q / 16 - j * q / 16

/-- Amplitude bits of frame `j` that are data: matcher bits, or uniform labels (R238). -/
def frameAmpData (f : Fmt) (e j : Nat) : Nat := if e ≤ 16 then 0 else frameBits f e j

/-- Frozen bits of frame `j` (R241). -/
def frameFrozen (f : Fmt) (e j : Nat) : Nat := if e ≤ 15 then frameBits f e j else 0

/-- Parity bits of frame `j` (R271). -/
def frameParity (f : Fmt) (e j : Nat) : Nat :=
  let p := parityBits f e
  let jj := framesPerBlock f
  ((j + 1) * p + jj - 1) / jj - (j * p + jj - 1) / jj

/-- Data bits that a subcarrier carries per block, header signs included. -/
def subDataBits (f : Fmt) (e : Nat) : Nat :=
  let amp := ((List.range (framesPerBlock f)).map fun j => frameAmpData f e j).foldl (· + ·) 0
  let frozen := ((List.range (framesPerBlock f)).map fun j => frameFrozen f e j).foldl (· + ·) 0
  amp + 1024 * frameSymbols f.pilot / f.n - parityBits f e - frozen

/-- The bits of the data stream of one block (R275). -/
def dataStreamBits (f : Fmt) (codes : List Nat) : Nat :=
  ((activeSubs f codes).map fun k => subDataBits f (codes.getD k codeOff)).foldl (· + ·) 0 - 296

/-- `OverheadBitsMin` (R276). -/
def overheadBitsMin (f : Fmt) (codes : List Nat) : Nat :=
  let y := payloadRate f codes
  dataStreamBits f codes - (y.1 + y.2 - 1) / y.2

/-- `SealEntries` (R277). -/
def sealEntries (f : Fmt) (codes : List Nat) : Nat := (overheadBitsMin f codes - 568) / 144

/-- `InfoBitsNominal`, as numerator and denominator (R277). -/
def infoBitsNominal (f : Fmt) (codes : List Nat) : Nat × Nat :=
  (2 * 65536 * (pilotSpacing f.pilot - 1) * netSum f codes, f.n * pilotSpacing f.pilot * 32 * (fecLoss f.fec).2)

/-- The minimum of R277. -/
def meetsMinimum (f : Fmt) (codes : List Nat) : Bool :=
  let x := infoBitsNominal f codes
  decide (184320 * x.2 ≤ x.1)

/-- SNRreq of R255 in dB × 2⁶⁴, with the gap in 0.1 dB: log10 (2^x − 1) with x a multiple of 1 ÷ (32 b). -/
def snrReq (fec e gap : Nat) : Int :=
  let den := 32 * (fecLoss fec).2
  let p := exp2Fx ((netOf fec e : Int) * 2 ^ 64 / (den : Int))
  dbFx (p - fxOne) fxOne + (gap : Int) * 2 ^ 64 / 10

/-- Coded bit rate Rc in Mbit/s, as numerator and denominator (R291). -/
def codedRate (f : Fmt) (codes : List Nat) : Nat × Nat := (codedBitsPerBlock f codes * f.rs, 65536)

/-- `DecodeLatency` in µs (R291): W and the iterations are those of the port's Sieve. -/
def decodeLatency (f : Fmt) (codes : List Nat) (window iterations : Nat) : F32 :=
  let r := codedRate f codes
  if r.1 = 0 then 0 else
  f32OfRat (((40 + 3 * iterations) * r.1 + 100 * (window + 2) * 32768 * r.2 : Nat) : Int) (100 * r.1)

/-! ### Bit fields -/

/-- A number of `n` bits, most significant first (R22). -/
def bitsOf : Nat → Nat → List Bool
  | 0, _ => []
  | n + 1, v => (v / 2 ^ n % 2 == 1) :: bitsOf n v

/-- The number that bits spell, most significant first. -/
def natOfBits (bs : List Bool) : Nat := bs.foldl (fun a b => 2 * a + b.toNat) 0

/-- The bits of octets, most significant first. -/
def bitsOfBytes (bs : Bytes) : List Bool := bs.flatMap fun b => bitsOf 8 b.toNat

/-- The layout record of R248, as a number of 264 bits. -/
def layoutRecord (f : Fmt) (tag : Nat) (codes : List Nat) : Nat :=
  (List.range 32).foldl (fun a k => a * 256 + if k < f.n then codes.getD k codeOff else codeOff) tag

/-- Tag and codes of a layout record. -/
def recordTag (r : Nat) : Nat := r / 2 ^ 256 % 256
def recordCodes (r : Nat) : List Nat := (List.range 32).map fun k => r / 2 ^ (248 - 8 * k) % 256

/-- The 296 header signs of a block (R273). -/
def headerSigns (record fecPhase : Nat) : Nat :=
  let v := record * 2 ^ 16 + fecPhase % 32768 * 2
  v * 2 ^ 16 + crc16 280 (v % 2 ^ 280)

/-- A header passes its check (R273). -/
def headerOk (h : Nat) : Bool := crc16 280 (h / 2 ^ 16 % 2 ^ 280) = h % 65536
def headerRecord (h : Nat) : Nat := h / 2 ^ 32 % 2 ^ 264
def headerPhase (h : Nat) : Nat := h / 2 ^ 17 % 32768

/-- The fixed part of an overhead area, by its fields (R278). -/
structure Fixed where
  counter : Nat := 0
  announcement : Nat := 0
  confirmation : Nat := 0
  control : Nat := 0
  backChannel : Nat := 0
  trayMap : Nat := 0
  sealCount : Nat := 0
  deriving DecidableEq, Repr

/-- The alignment word (R278). -/
def alignmentWord : Nat := 0xB36D1A4E

/-- The 568 bits of a fixed part, its CRC included (R278). -/
def Fixed.encode (x : Fixed) : Nat :=
  let v := ((((((alignmentWord * 2 ^ 48 + x.counter) * 2 ^ 32 + x.announcement) * 2 ^ 16 + x.confirmation) * 2 ^ 144 + x.control)
    * 2 ^ 192 + x.backChannel) * 2 ^ 64 + x.trayMap) * 2 ^ 8 + x.sealCount
  v * 2 ^ 32 + crc32Sent 536 v

/-- The fields of 568 received bits. -/
def fixedOf (v : Nat) : Fixed :=
  { counter := v / 2 ^ 488 % 2 ^ 48, announcement := v / 2 ^ 456 % 2 ^ 32, confirmation := v / 2 ^ 440 % 2 ^ 16,
    control := v / 2 ^ 296 % 2 ^ 144, backChannel := v / 2 ^ 104 % 2 ^ 192, trayMap := v / 2 ^ 40 % 2 ^ 64,
    sealCount := v / 2 ^ 32 % 2 ^ 8 }
def fixedAligned (v : Nat) : Bool := v / 2 ^ 536 = alignmentWord
def fixedCrcOk (v : Nat) : Bool := crc32Sent 536 (v / 2 ^ 32) = v % 2 ^ 32

/-- The Announcement field (R280). -/
def announcement (countdown newTag request : Nat) : Nat := countdown * 2 ^ 27 + newTag * 2 ^ 16 + request * 2 ^ 9
def annCountdown (a : Nat) : Nat := a / 2 ^ 27 % 32
def annTag (a : Nat) : Nat := a / 2 ^ 16 % 256
def annRequest (a : Nat) : Nat := a / 2 ^ 9 % 128

/-- The Confirmation field (R280). -/
def confirmation (id : Nat) : Nat := id * 2 ^ 9

/-- A ControlCell of type 0x1 or 0x2 (R281): half of a pending record. -/
def controlCell (type part request record : Nat) : Nat :=
  type * 2 ^ 140 + part * 2 ^ 139 + request * 2 ^ 132 + (if part = 0 then record / 2 ^ 132 else record % 2 ^ 132)
def cellType (c : Nat) : Nat := c / 2 ^ 140
def cellPart (c : Nat) : Nat := c / 2 ^ 139 % 2
def cellRequest (c : Nat) : Nat := c / 2 ^ 132 % 128
def cellContent (c : Nat) : Nat := c % 2 ^ 132

/-- A ControlCell of type 0x3: a service segment of 140 bits. -/
def segmentCell (seg : Nat) : Nat := 3 * 2 ^ 140 + seg % 2 ^ 140

/-- The TrayMapCell of block `c`: MapTag and the four entries of slots 4w to 4w + 3 (R282). -/
def trayMapCell (mapTag c : Nat) (entry : Nat → Nat) : Nat :=
  let w := c % 160
  (List.range 4).foldl (fun a e => a + entry (4 * w + e) * 2 ^ (48 - 12 * e)) (mapTag % 16 * 2 ^ 60)
def mapEntry (cell e : Nat) : Nat := cell / 2 ^ (48 - 12 * e) % 4096
def mapCellTag (cell : Nat) : Nat := cell / 2 ^ 60

/-- A seal tag entry of 144 bits (R282). -/
def sealEntry (tray span tag : Nat) : Nat := tray % 2048 * 2 ^ 133 + span % 32 * 2 ^ 128 + tag

/-- The back-channel cell (R251): entries hold a code and an SNR octet. -/
def backChannelCell (type rxState part seq tag : Nat) (entries : List (Nat × Nat)) : Nat :=
  let v := type * 2 ^ 188 + rxState * 2 ^ 186 + part * 2 ^ 184 + seq * 2 ^ 180 + tag * 2 ^ 172
    + (List.range 8).foldl (fun a s => a + ((entries.getD s (0, 0)).1 * 256 + (entries.getD s (0, 0)).2) * 2 ^ (156 - 16 * s)) 0
  v + crc16 176 (v / 2 ^ 16)
def bcCrcOk (c : Nat) : Bool := crc16 176 (c / 2 ^ 16) = c % 2 ^ 16
def bcType (c : Nat) : Nat := c / 2 ^ 188
def bcRxState (c : Nat) : Nat := c / 2 ^ 186 % 4
def bcPart (c : Nat) : Nat := c / 2 ^ 184 % 4
def bcSeq (c : Nat) : Nat := c / 2 ^ 180 % 16
def bcTag (c : Nat) : Nat := c / 2 ^ 172 % 256
def bcEntry (c s : Nat) : Nat × Nat := (c / 2 ^ (164 - 16 * s) % 256, c / 2 ^ (156 - 16 * s) % 256)

/-- The tray overhead of 96 bits (R326). -/
def trayOverhead (kind status count position tray : Nat) : Nat :=
  let v := ((((kind * 4 + status) * 2 ^ 20 + count) * 2 ^ 40 + position % 2 ^ 40) * 2 ^ 11 + tray) * 8
  v * 2 ^ 16 + crc16 80 v
def ohKind (h : Nat) : Nat := h / 2 ^ 92
def ohStatus (h : Nat) : Nat := h / 2 ^ 90 % 4
def ohCount (h : Nat) : Nat := h / 2 ^ 70 % 2 ^ 20
def ohPosition (h : Nat) : Nat := h / 2 ^ 30 % 2 ^ 40
def ohTray (h : Nat) : Nat := h / 2 ^ 19 % 2 ^ 11
def ohCrcOk (h : Nat) : Bool := crc16 80 (h / 2 ^ 16) = h % 2 ^ 16

/-- The header word of an aggregated frame (R329). -/
def aggHeader (length member priority : Nat) : Nat :=
  let v := length * 2 ^ 8 + member * 2 ^ 4 + priority * 2
  v * 256 + crc8 24 v

/-! ### Payload (R324–R327) -/

/-- Bits of slot `s` in a block of payload `y` with `cap` slots (R324). -/
def slotBits (y cap s : Nat) : Nat := (s + 1) * y / cap - s * y / cap

/-- Offset in the payload, and length, of the tray area of slots f to f + k − 1 (R324, R326). -/
def trayArea (y cap f k : Nat) : Nat × Nat := (f * y / cap, (f + k) * y / cap - f * y / cap)

/-- The output of the payload scrambler from register `r` (R325). -/
def scramblerBits : Nat → Nat → List Bool
  | 0, _ => []
  | n + 1, r =>
    let b30 := r / 2 ^ 30 % 2
    let b27 := r / 2 ^ 27 % 2
    (b30 == 1) :: scramblerBits n (r * 2 % 2 ^ 31 + (b30 + b27) % 2)

/-- Scramble or descramble the payload of block `c` (R325). -/
def scramble (c : Nat) (bits : List Bool) : List Bool :=
  List.zipWith xor bits (scramblerBits bits.length (c % (2 ^ 31 - 1) + 1))

/-- Does bit `j` of a payload area of `p` bits carry a client bit at `cm` (R327). -/
def gmpCarries (p cm j : Nat) : Bool := (j + 1) * cm / p - j * cm / p = 1

/-- The payload area of a GMP tray: `cm` client bits among `p` (R327). -/
def gmpFill (p cm : Nat) : Nat → Nat → List Bool → List Bool
  | 0, _, _ => []
  | n + 1, j, bs =>
    if gmpCarries p cm j then (bs.headD false) :: gmpFill p cm n (j + 1) bs.tail else false :: gmpFill p cm n (j + 1) bs

/-- The client bits of a GMP payload area. -/
def gmpTake (p cm : Nat) (area : List Bool) : List Bool :=
  (area.zipIdx.filter fun x => gmpCarries p cm x.2).map (·.1)

/-! ### The distribution matcher (R238–R240) -/

/-- n! -/
def fact : Nat → Nat
  | 0 => 1
  | n + 1 => (n + 1) * fact n

/-- M (c) of R239. -/
def multinomial (c : List Nat) : Nat := fact (c.foldl (· + ·) 0) / (c.map fact).foldl (· * ·) 1

/-- Is log2 (a ÷ b) ÷ (i + 1) above log2 (a' ÷ b') ÷ (i' + 1): both sides raised to (i + 1)(i' + 1), an exact comparison. -/
def gainAbove (a b i a' b' i' : Nat) : Bool := decide (a' ^ (i + 1) * b ^ (i' + 1) < a ^ (i' + 1) * b' ^ (i + 1))

/-- The level from which one amplitude moves up (R239). -/
def bestMove (c : List Nat) : Option Nat :=
  (List.range (c.length - 1)).foldl (fun best i =>
    let a := c.getD i 0
    let b := c.getD (i + 1) 0 + 1
    if a ≤ b then best else
    match best with
    | none => some i
    | some j => if gainAbove a b i (c.getD j 0) (c.getD (j + 1) 0 + 1) j then some i else some j) none

/-- The loop of R239, at most `fuel` moves. -/
def composeLoop : Nat → Nat → List Nat → List Nat
  | 0, _, c => c
  | fuel + 1, target, c =>
    if multinomial c ≥ target then c else
    match bestMove c with
    | none => c
    | some i => composeLoop fuel target ((c.set i (c.getD i 0 - 1)).set (i + 1) (c.getD (i + 1) 0 + 1))

/-- The composition of a frame of `n` amplitudes on `l` levels that carries `k` bits (R239). -/
def composition (n l k : Nat) : List Nat := composeLoop (l * n) (2 ^ k) (n :: List.replicate (l - 1) 0)

/-- The level that takes rank `x` among the sequences that remain, with the rank left and the composition left (R240). -/
def unrankStep (rem : List Nat) : Nat → Nat → Nat → Nat × Nat × List Nat
  | 0, i, x => (i, x, rem)
  | fuel + 1, i, x =>
    let r := rem.getD i 0
    if r = 0 then unrankStep rem fuel (i + 1) x else
    let rem' := rem.set i (r - 1)
    let m := multinomial rem'
    if x < m then (i, x, rem') else unrankStep rem fuel (i + 1) (x - m)

/-- The levels of a frame: the `x`-th sequence of composition `rem` (R240). -/
def unrank : Nat → List Nat → Nat → List Nat
  | 0, _, _ => []
  | n + 1, rem, x =>
    let r := unrankStep rem rem.length 0 x
    r.1 :: unrank n r.2.2 r.2.1

/-- The rank of a sequence of levels (R240). -/
def rank : List Nat → List Nat → Nat
  | [], _ => 0
  | l :: t, rem =>
    let below := ((List.range l).map fun i => if rem.getD i 0 = 0 then 0 else multinomial (rem.set i (rem.getD i 0 - 1))).foldl (· + ·) 0
    below + rank t (rem.set l (rem.getD l 0 - 1))

/-- The amplitude bits of a level: its reflected Gray code, `w` bits, most significant first (R236). -/
def grayBits (w i : Nat) : List Bool := bitsOf w (i ^^^ (i / 2))

/-- The level whose Gray code the bits spell. -/
def levelOfGray (bs : List Bool) : Nat := bs.foldl (fun (a : Nat) b => 2 * a + ((a + b.toNat) % 2)) 0

/-- The amplitude bits of a frame of code `e` that carries the given data (R238, R240): n labels one after another. -/
def frameAmplitudes (f : Fmt) (e : Nat) (data : List Bool) : List Bool :=
  if e ≤ 16 then [] else if e = 144 then data else
  let n := 4 * frameSymbols f.pilot
  (unrank n (composition n (levelsOf e) data.length) (natOfBits data)).flatMap fun i => grayBits (ampBits e) i

/-- The real value of a dimension before scaling, in whole units (R236). -/
def dimValue (neg : Bool) (level : Nat) : Int := if neg then -(2 * (level : Int) + 1) else 2 * (level : Int) + 1

/-! ### Pilots (R242) -/

/-- Bits of the pilot register from value `r`. -/
def pilotBits : Nat → Nat → List Bool
  | 0, _ => []
  | n + 1, r =>
    let b14 := r / 2 ^ 14 % 2
    let b13 := r / 2 ^ 13 % 2
    (b14 == 1) :: pilotBits n (r * 2 % 2 ^ 15 + (b14 + b13) % 2)

/-- The pilot bits, two for each pilot, that a block carries on subcarrier `k` and polarisation `p` (0 X, 1 Y). -/
def pilotsOf (f : Fmt) (k p : Nat) : List Bool := pilotBits (2 * (65536 / f.n / pilotSpacing f.pilot)) (1 + 2 * k + p)

/-! ### Positions (R271, R272) -/

/-- What a sign position carries. -/
inductive Sign where
  | header (i : Nat) | parity | frozen | data
  deriving DecidableEq, Repr

/-- Header signs in frame 0 of the subcarrier in position `a` of `n` active ones (R272). -/
def headerCount (a n : Nat) : Nat := (296 - a + n - 1) / n

/-- ⌊(2i + 1) × len ÷ (2 cnt)⌋ for i = 0 to cnt − 1 (R271). -/
def spread (len cnt : Nat) : List Nat := (List.range cnt).map fun i => (2 * i + 1) * len / (2 * cnt)

/-- The sign positions of frame `j`, by sign index: the subcarrier is at code `e`, in position `a` of `n` active ones. -/
def frameSigns (f : Fmt) (e a n j : Nat) : List Sign :=
  let h := if j = 0 then headerCount a n else 0
  let len := 4 * frameSymbols f.pilot - h
  let par := spread len (frameParity f e j)
  let isPar := par.foldl (fun (v : Array Bool) p => v.setIfInBounds p true) (Array.replicate len false)
  let free := len - par.length
  let isFroz := (spread free (frameFrozen f e j)).foldl (fun (v : Array Bool) p => v.setIfInBounds p true) (Array.replicate free false)
  let r := (List.range len).foldl (fun (acc : List Sign × Nat) i =>
    if isPar.getD i false then (Sign.parity :: acc.1, acc.2)
    else ((if isFroz.getD acc.2 false then Sign.frozen else Sign.data) :: acc.1, acc.2 + 1)) ([], 0)
  (List.range h).map (fun i => Sign.header (i * n + a)) ++ r.1.reverse

/-! ### The coded bits of a block (R270, R275) -/

/-- A coded bit before encoding: an information bit, or a place for parity. -/
abbrev Slot := Option Bool

/-- Interleave sign slots and amplitude bits of one frame, dimension by dimension (R270). -/
def interleave (w : Nat) : List Slot → List Bool → List Slot
  | [], _ => []
  | s :: t, amps => s :: (amps.take w).map some ++ interleave w t (amps.drop w)

/-- The sign slots of a frame, and the data left after its data signs. -/
def fillSigns (header : Nat) : List Sign → List Bool → List Slot × List Bool
  | [], data => ([], data)
  | x :: t, data =>
    match x with
    | .header i => let r := fillSigns header t data; (some (header / 2 ^ (295 - i) % 2 == 1) :: r.1, r.2)
    | .parity => let r := fillSigns header t data; (none :: r.1, r.2)
    | .frozen => let r := fillSigns header t data; (some false :: r.1, r.2)
    | .data => let r := fillSigns header t data.tail; (some (data.headD false) :: r.1, r.2)

/-- The coded bits of a block before encoding: the data stream and the header signs in their places (R270–R275). -/
def blockSlots (f : Fmt) (codes : List Nat) (header : Nat) (data : List Bool) : List Slot :=
  let act := activeSubs f codes
  let r := (List.range (framesPerBlock f)).foldl (fun (acc : List Slot × List Bool) j =>
    act.zipIdx.foldl (fun (acc : List Slot × List Bool) ka =>
      let e := codes.getD ka.1 codeOff
      let q := frameAmpData f e j
      let amps := frameAmplitudes f e (acc.2.take q)
      let s := fillSigns header (frameSigns f e ka.2 act.length j) (acc.2.drop q)
      ((interleave (ampBits e) s.1 amps).reverse ++ acc.1, s.2)) acc) ([], data)
  r.1.reverse

/-- Add each information bit j into sum (j × g + e) mod p. -/
def parityAdd (p g e : Nat) (info : List Bool) (sums : Array Bool) : Array Bool :=
  info.zipIdx.foldl (fun (s : Array Bool) x =>
    let i := (x.2 * g + e) % p
    s.setIfInBounds i (xor (s.getD i false) x.1)) sums

/-- Each sum with all those before it. -/
def accumulated (sums : Array Bool) : List Bool :=
  (sums.toList.foldl (fun (acc : List Bool × Bool) b => let a := xor acc.2 b; (a :: acc.1, a)) ([], false)).1.reverse

/-- The parity of a coded block: `p` bits from the information bits of it and of the two blocks before it (R274). -/
def codeParity (p : Nat) (info0 info1 info2 : List Bool) : List Bool :=
  accumulated (parityAdd p 20011 22271 info2 (parityAdd p 30011 11117 info1 (parityAdd p 40009 0 info0 (Array.replicate p false))))

/-- Put the parity bits of a coded block into their places. -/
def placeParity : List Slot → List Bool → List Bool
  | [], _ => []
  | some b :: t, p => b :: placeParity t p
  | none :: t, p => p.headD false :: placeParity t p.tail

/-- Encode every whole coded block that is there; answers the coded bits completed, in order. -/
def Encoder.run : Nat → Encoder → List Bool × Encoder
  | 0, x => ([], x)
  | fuel + 1, x =>
    if x.cur.length < 32768 then ([], x) else
    let blk := x.cur.take 32768
    let info := blk.filterMap id
    let bits := placeParity blk (codeParity (32768 - info.length) info x.prev1 x.prev2)
    let r := Encoder.run fuel { prev1 := info, prev2 := x.prev1, cur := x.cur.drop 32768 }
    (bits ++ r.1, r.2)

/-- Take the slots of one more KLF block (R274). -/
def Encoder.feed (x : Encoder) (slots : List Slot) : List Bool × Encoder :=
  let x := { x with cur := x.cur ++ slots }
  Encoder.run (x.cur.length / 32768) x

end Sys2Proof.Machine
end

