-- ==== Sys2Proof/Machine/Dsp.lean ====
section
/-! DEFINITION. Signal arithmetic of a carrier, in fixed point: constellation points and pilots, the root-raised-cosine waveform, the
dispersion that a transmitter applies, the DACs, the Whisk's outputs, and soft demapping (R195, R198, R205, R216, R231–R247). Points and
samples are in 2⁻²⁴, sines and pulses in 2⁻³⁰; the spec states no arithmetic of its own (assumption 92). -/

namespace Sys2Proof.Machine

/-- A complex number, real and imaginary part in one unit. -/
abbrev Cx := Int × Int

def Cx.add (a b : Cx) : Cx := (a.1 + b.1, a.2 + b.2)
/-- A product, with `k` fraction bits of one factor taken off. -/
def Cx.mul (k : Nat) (a b : Cx) : Cx := ((a.1 * b.1 - a.2 * b.2) / 2 ^ k, (a.1 * b.2 + a.2 * b.1) / 2 ^ k)
def Cx.conj (a : Cx) : Cx := (a.1, -a.2)
def Cx.scale (k : Nat) (r : Int) (a : Cx) : Cx := (a.1 * r / 2 ^ k, a.2 * r / 2 ^ k)
/-- Squared magnitude. -/
def magSq (t : Cx) : Nat := (t.1 * t.1 + t.2 * t.2).toNat

/-! ### Angles -/

/-- π ÷ 2 and π in 2⁻⁶⁰. -/
def halfPi60 : Int := 1811004864519280710
def pi60 : Int := 3622009729038561421

/-- Terms of the series of cosine (from `k` = 0) or sine (from `k` = 1), in 2⁻⁶⁰. -/
def trigSeries : Nat → Int → Int → Int → Int → Int
  | 0, _, _, _, acc => acc
  | f + 1, k, x2, t, acc => trigSeries f (k + 2) x2 (-(t * x2 / 2 ^ 60) / ((k + 1) * (k + 2))) (acc + t)

/-- Cosine and sine of `num ÷ den` turns, in 2⁻³⁰. -/
def turn (num : Int) (den : Nat) : Cx :=
  let d : Int := max den 1
  let r := num % d
  let q := 4 * r / d
  let x := (4 * r - q * d) * halfPi60 / d
  let x2 := x * x / 2 ^ 60
  let c := trigSeries 14 0 x2 (2 ^ 60) 0 / 2 ^ 30
  let s := trigSeries 14 1 x2 x 0 / 2 ^ 30
  if q = 0 then (c, s) else if q = 1 then (-s, c) else if q = 2 then (-c, -s) else (s, -c)

/-! ### Points (R236, R242) -/

/-- How often each level stands in frame `j` of a subcarrier at code `e` (R237–R239); uniform codes have them all alike. -/
def frameLevels (f : Fmt) (e j : Nat) : List Nat :=
  if e ≤ 16 then [1] else if e = 144 then [1, 1, 1, 1]
  else composition (4 * frameSymbols f.pilot) (levelsOf e) (frameBits f e j)

/-- g of R236: unit mean power per polarisation over the frame's composition. -/
def levelGain (c : List Nat) : Nat :=
  let energy := (c.zipIdx.map fun x => x.1 * ((2 * x.2 + 1) * (2 * x.2 + 1))).foldl (· + ·) 0
  Nat.sqrt (2 ^ 48 * c.foldl (· + ·) 0 / max 1 (2 * energy))

/-- The value of a dimension from its label, the sign bit and then the amplitude bits (R236). -/
def labelValue (g : Nat) (label : List Bool) : Int := dimValue (label.headD false) (levelOfGray label.tail) * g

/-- `n` data symbols, X and Y, from their labels in the order of R270; `w` amplitude bits per dimension. -/
def dataSymbols (w g : Nat) : Nat → List Bool → List (Cx × Cx)
  | 0, _ => []
  | n + 1, bits =>
    let d (i : Nat) : Int := labelValue g ((bits.drop (i * (w + 1))).take (w + 1))
    ((d 0, d 1), (d 2, d 3)) :: dataSymbols w g n (bits.drop (4 * (w + 1)))

/-- The pilots that two bits each give (R242). -/
def pilotPoints : List Bool → List Cx
  | b0 :: b1 :: t =>
    let a : Int := Nat.sqrt (2 ^ 47)
    (if b0 then -a else a, if b1 then -a else a) :: pilotPoints t
  | _ => []

/-- A pilot ahead of every `run` data symbols (R242). -/
def withPilots (run : Nat) : List (Cx × Cx) → List (Cx × Cx) → List (Cx × Cx)
  | [], data => data
  | p :: ps, data => p :: data.take run ++ withPilots run ps (data.drop run)

/-- The symbols of frame `j` of subcarrier `k`, in time order. -/
def frameSymbolsOf (f : Fmt) (k e j : Nat) (bits : List Bool) : List (Cx × Cx) :=
  let p := pilotSpacing f.pilot
  let part (l : List Cx) : List Cx := (l.drop (j * (256 / p))).take (256 / p)
  withPilots (p - 1) (List.zip (part (pilotPoints (pilotsOf f k 0))) (part (pilotPoints (pilotsOf f k 1))))
    (dataSymbols (ampBits e) (levelGain (frameLevels f e j)) (frameSymbols f.pilot) bits)

/-- The amplitude factors of the active subcarriers, in 2⁻²⁴ (R236): powers as 10^(`PowerOffset` ÷ 10), in 0.1 dB, with their sum held
at 1. -/
def powerFactors (act : List Nat) (offsets : List Int) : List (Nat × Nat) :=
  let r := act.map fun k => (k, ratioOfDb (offsets.getD k 0 * 2 ^ 64 / 10))
  let total := (r.map (·.2)).foldl (· + ·) 0
  r.map fun x => (x.1, Nat.sqrt (x.2 * 2 ^ 48 / max total 1))

/-- The scaled symbols of a block from its coded bits: for each active subcarrier, X and Y in time order (R231 steps 4 to 6). -/
def blockPoints (f : Fmt) (codes : List Nat) (offsets : List Int) (coded : List Bool) : List (Nat × List Cx × List Cx) :=
  let act := activeSubs f codes
  let parts := (List.range (framesPerBlock f)).foldl (fun (acc : List (Nat × List (Cx × Cx)) × List Bool) j =>
    act.foldl (fun acc k =>
      let e := codes.getD k codeOff
      let len := 4 * frameSymbols f.pilot * (1 + ampBits e)
      ((k, frameSymbolsOf f k e j (acc.2.take len)) :: acc.1, acc.2.drop len)) acc) ([], coded)
  (powerFactors act offsets).map fun ka =>
    let sy := (parts.1.reverse.filter fun x => x.1 = ka.1).flatMap (·.2)
    (ka.1, sy.map fun x => x.1.scale 24 ka.2, sy.map fun x => x.2.scale 24 ka.2)

/-! ### The waveform (R233, R231 step 7) -/

/-- The root-raised-cosine pulse of roll-off `b` ÷ 100 at `tn ÷ td` symbol periods, cut off beyond ±32 of them. -/
def rrc (b : Nat) (tn : Int) (td : Nat) : Int :=
  let one : Int := 2 ^ 30
  if 32 * td < tn.natAbs then 0
  else if tn = 0 then one + (b : Int) * (4 * one * 2 ^ 60 / pi60 - one) / 100
  else
    let a := (b : Int) * tn
    let d : Int := 25 * td
    if a.natAbs = 25 * td then
      let t := turn 100 (8 * b)
      let c := 2 * one * 2 ^ 60 / pi60
      (b : Int) * ((one + c) * t.2 + (one - c) * t.1) / (100 * (Nat.sqrt (2 * 2 ^ 60) : Nat))
    else
      let s := (turn (tn * (100 - b)) (200 * td)).2
      let c := (turn (tn * (100 + b)) (200 * td)).1
      (s * d + c * a) * td * d * 2 ^ 60 / (pi60 * tn * (d * d - a * a))

/-- Samples of a block at 9/8 of the symbol rate. -/
def blockSamples : Nat := 73728

/-- One sample, X and Y, at sample `m` of the middle one of three blocks: every subcarrier's pulses, each shifted to its centre. `symbolAt k i`
is symbol `i` of subcarrier `k`, counted from the first of the middle block, and `c` the middle block's counter. -/
def waveSample (f : Fmt) (rollOff c : Nat) (subs : List Nat) (symbolAt : Nat → Int → Cx × Cx) (m : Int) : Cx × Cx :=
  let td := 9 * f.n
  let i0 := 8 * m / (td : Int)
  subs.foldl (fun acc k =>
    let base := (List.range 66).foldl (fun (a : Cx × Cx) (d : Nat) =>
      let i : Int := i0 - 32 + d
      let h := rrc rollOff (8 * m - td * i) td
      let y := symbolAt k i
      (a.1.add (y.1.scale 30 h), a.2.add (y.2.scale 30 h))) ((0, 0), (0, 0))
    let r := turn ((2 * k - f.n + 1 : Int) * (100 + rollOff) * 8 * (c * blockSamples + m)) (200 * td)
    (acc.1.add (base.1.mul 30 r), acc.2.add (base.2.mul 30 r))) ((0, 0), (0, 0))

/-! ### Dispersion (R246) -/

def evens : List Cx → List Cx
  | a :: _ :: t => a :: evens t
  | l => l
def odds : List Cx → List Cx
  | _ :: b :: t => b :: odds t
  | _ => []

/-- The discrete Fourier transform of 2ᵏ values; the inverse without its factor 2⁻ᵏ. -/
def fourier (inverse : Bool) : Nat → List Cx → List Cx
  | 0, l => l
  | k + 1, l =>
    let a := fourier inverse k (evens l)
    let b := (fourier inverse k (odds l)).zipIdx.map fun x => x.1.mul 30 (turn (if inverse then (x.2 : Int) else -(x.2 : Int)) (2 ^ (k + 1)))
    List.zipWith Cx.add a b ++ List.zipWith (fun x y => x.add (-y.1, -y.2)) a b

/-- The field with a dispersion of −`d` ps/nm: in bin `i` the phase −π d (λ² ÷ c) f² with λ² ÷ c = c ÷ f₀², at `fs` samples per second
about the frequency `f0` in Hz. -/
def dispersed (d f0 : Int) (fs : Nat) (k : Nat) (l : List Cx) : List Cx :=
  let spectrum := (fourier false k l).zipIdx.map fun x =>
    let i : Int := if x.2 < 2 ^ (k - 1) then x.2 else (x.2 : Int) - 2 ^ k
    x.1.mul 30 (turn (-(d * 299792458 * i * i * fs * fs)) (1000 * 2 * f0.natAbs * f0.natAbs * 2 ^ (2 * k)))
  (fourier true k spectrum).map fun x => (x.1 / 2 ^ k, x.2 / 2 ^ k)

/-! ### Filters and DACs (R245, R247) -/

/-- A real filter over a channel's samples, taps in 2⁻¹⁴: one output for each sample that has all its predecessors. -/
def filtered (taps : List Int) (samples : List Int) : List Int :=
  let n := taps.length
  let x := samples.toArray
  (List.range (samples.length + 1 - n)).map fun m => (taps.zipIdx.map fun t => t.1 * x.getD (m + n - 1 - t.2) 0).foldl (· + ·) 0 / 2 ^ 14

/-- Convolution of two tap sets in 2⁻¹⁴. -/
def convolved (a b : List Int) : List Int :=
  (List.range (a.length + b.length - 1)).map fun i =>
    ((List.range (i + 1)).map fun j => a.getD j 0 * b.getD (i - j) 0).foldl (· + ·) 0 / 2 ^ 14

/-- The 64 taps of a channel's filter (R172): the response part, the fractional delay of `skew` sixty-fourths
of a sample by 32 taps, and the whole samples as a shift about the middle. -/
def skewTaps (skew : Int) (response : List Int) : List Int :=
  let part := convolved response ((List.range 32).map fun i => Config.delayTap (skew % 64).toNat i)
  let lead := (8 + skew / 64).toNat
  (List.replicate lead 0 ++ part ++ List.replicate (64 - lead - part.length) 0).take 64

/-- 8-bit words of a channel and how many of its samples were clipped: scaling to the RMS `target` (1/1,024 of full scale), clipping
`clip` (0.1 dB) above it, the modulator's inverse where it is on, and rounding (R247). -/
def dacWords (target clip : Nat) (inverse : Option (Int → Int)) (samples : List Int) : List Int × Nat :=
  let power := (samples.map fun v => v * v).foldl (· + ·) 0
  let rms : Int := max 1 (Nat.sqrt (power.toNat * 2 ^ 32 / max 1 samples.length) : Nat)
  let limit : Int := Nat.sqrt ((target * 64) * (target * 64) * ratioOfDb ((clip : Int) * 2 ^ 64 / 10) / 2 ^ 128)
  let scaled := samples.map fun v => v * (target * 64 * 65536 : Nat) / rms
  let word (v : Int) : Int :=
    let c := max (-limit) (min limit v)
    let d := match inverse with | some g => g c | none => c
    max (-128) (min 127 ((d + 256) / 512))
  (scaled.map word, (scaled.filter fun v => decide (limit < v.natAbs)).length)

/-! ### The Whisk (R195, R198, R205) -/

/-- The taps of filter `i` of a set of four filters. -/
def tapsOf (taps : List Cx) (i : Nat) : List Cx := (taps.drop (i * (taps.length / 4))).take (taps.length / 4)

/-- Taps, in 2⁻¹⁴, over the samples under them, the latest first. -/
def tapSum (taps samples : List Cx) : Cx := (List.zipWith (Cx.mul 14) taps samples).foldl Cx.add (0, 0)

/-- X = hxx ∗ x + hxy ∗ y and Y = hyx ∗ x + hyy ∗ y at one symbol. -/
def whiskOut (taps x y : List Cx) : Cx × Cx :=
  ((tapSum (tapsOf taps 0) x).add (tapSum (tapsOf taps 1) y), (tapSum (tapsOf taps 2) x).add (tapSum (tapsOf taps 3) y))

/-- The normalised correlation of the outputs exceeds 0.9 (R198); the outputs are those of a run of symbols. -/
def singular (out : List (Cx × Cx)) : Bool :=
  let c := (out.map fun o => o.1.mul 0 o.2.conj).foldl Cx.add (0, 0)
  let x := (out.map fun o => magSq o.1).foldl (· + ·) 0
  let y := (out.map fun o => magSq o.2).foldl (· + ·) 0
  decide (81 * (x * y) < 100 * magSq c)

/-- `TapCentroid`: the position of hxx and hyy from the centre, weighted by squared magnitude (R205). -/
def tapCentroid (taps : List Cx) : F32 :=
  let n := taps.length / 4
  let w := (List.range n).map fun i => magSq ((tapsOf taps 0).getD i (0, 0)) + magSq ((tapsOf taps 3).getD i (0, 0))
  let total := w.foldl (· + ·) 0
  let sum : Int := (w.zipIdx.map fun x => (x.1 : Int) * (2 * (x.2 : Int) + 1 - n)).foldl (· + ·) 0
  if total = 0 then 0 else f32OfRat sum (2 * total)

/-- The normalised Stokes vector, in 2⁻³⁰, of the light that the far end launched as X (R481): the first column of the inverse of the
Whisk's matrix at the carrier's centre, whose entries are the sums of the filters' taps. -/
def stokesOf (taps : List Cx) : Int × Int × Int :=
  let at0 (i : Nat) : Cx := (tapsOf taps i).foldl Cx.add (0, 0)
  let a := at0 3
  let b : Cx := (-(at0 2).1, -(at0 2).2)
  let total : Int := magSq a + magSq b
  let c := b.mul 0 a.conj
  if total = 0 then Config.nullStokes
  else (((magSq a : Int) - magSq b) * 2 ^ 30 / total, 2 * c.1 * 2 ^ 30 / total, 2 * c.2 * 2 ^ 30 / total)

/-- The greatest `h` below `lo + 2ⁿ` with sin (h ÷ 2³¹) at most half the chord whose square is `chord` in 2⁻⁶⁰. -/
def halfAngle : Nat → Int → Int → Int
  | 0, lo, _ => lo
  | n + 1, lo, chord =>
    let m := lo + 2 ^ n
    let x := m * 2 ^ 29
    let y := trigSeries 14 1 (x * x / 2 ^ 60) x 0 / 2 ^ 30
    if halfPi60 < x ∨ chord < 4 * (y * y) then halfAngle n lo chord else halfAngle n m chord

/-- The angle between two Stokes vectors on the Poincaré sphere, in 2⁻³⁰ rad. -/
def sopAngle (u v : Int × Int × Int) : Nat :=
  let x := u.1 - v.1
  let y := u.2.1 - v.2.1
  let z := u.2.2 - v.2.2
  (halfAngle 32 0 (x * x + y * y + z * z)).toNat

/-- The largest angle between `v` and earlier vectors, in 2⁻¹⁴ rad. -/
def sopReach (v : Int × Int × Int) (earlier : List (Int × Int × Int)) : Nat :=
  (earlier.map fun u => sopAngle u v).foldl max 0 / 65536

/-- Taps after adaptation: each moves by 2⁻ᵏ of the gradient gathered for it (R196). -/
def adapted (k : Nat) (taps grad : List Cx) : List Cx :=
  taps.zipIdx.map fun t => let g := grad.getD t.2 (0, 0); (t.1.1 + g.1 / 2 ^ k, t.1.2 + g.2 / 2 ^ k)

/-! ### Soft demapping (R216, R241) -/

/-- log2 (2ᵃ + 2ᵇ + …) of exponents in 2⁻⁶⁴; none of no terms. -/
def log2Sum (l : List Int) : Option Int :=
  match l with
  | [] => none
  | a :: t =>
    let m := t.foldl max a
    some (m + log2Fx ((l.map fun x => exp2Fx (x - m)).foldl (· + ·) 0) fxOne)

/-- log2 of each label's weight in one dimension, up to a common term: the probability of its level times the Gaussian likelihood of the
received value `y`, with the noise variance that `ratio` (SNR, 2⁻¹²⁸) gives at unit power. -/
def labelWeights (w : Nat) (c : List Nat) (ratio : Nat) (y : Int) : List (List Bool × Int) :=
  let g := levelGain c
  let total := c.foldl (· + ·) 0
  (c.zipIdx.filter fun x => x.1 != 0).flatMap fun x => [false, true].map fun neg =>
    let d := y - dimValue neg x.2 * g
    (neg :: grayBits w x.2, log2Fx x.1 (max 1 total) - d * d * ratio * 26613026195688644983 / 2 ^ 176)

/-- The LLR ln (P (0) ÷ P (1)) of each label bit of one dimension, as log2 in 2⁻⁶⁴; `frozen` is a sign bit fixed at 0. -/
def dimLlrs (w : Nat) (c : List Nat) (ratio : Nat) (frozen : Bool) (y : Int) : List Int :=
  let l := labelWeights w c ratio y
  (List.range (w + 1)).map fun b =>
    if frozen && b = 0 then 2 ^ 80 else
    let side (v : Bool) : Option Int := log2Sum ((l.filter fun x => x.1.getD b false == v).map (·.2))
    match side false, side true with
    | some p, some q => p - q
    | some _, none => 2 ^ 80
    | none, _ => -(2 ^ 80)

/-- An LLR in 6 bits at a subcarrier's scale (steps per unit of ln, in 1/256): −31 to +31. -/
def llrWord (scale : Nat) (l : Int) : Int := max (-31) (min 31 ((l * 12786308645202655659 * scale + 2 ^ 135) / 2 ^ 136))

/-- log2 (1 + 2ᶻ), z and the result in 2⁻⁶⁴ (R222). -/
def log2OnePlus (z : Int) : Nat :=
  if 100 * 2 ^ 64 < z then z.toNat else if z < -(100 * 2 ^ 64) then 0 else (log2Fx (fxOne + exp2Fx z) fxOne).toNat

/-- The level and sign nearest to a received value, as a label (hard decision). -/
def hardLabel (w g : Nat) (y : Int) : List Bool :=
  let top := 2 ^ w - 1
  decide (y < 0) :: grayBits w (min top (y.natAbs / (2 * max g 1)))

/-! ### The data stream of decoded coded bits (R240, R270–R275) -/

/-- The levels that a frame's amplitude bits spell. -/
def levelsFrom (w : Nat) : Nat → List Bool → List Nat
  | 0, _ => []
  | n + 1, bits => levelOfGray (bits.take w) :: levelsFrom w n (bits.drop w)

/-- The data bits of a frame's amplitudes (R238, R240): the rank of the levels among the sequences of the frame's composition. Levels of
another composition, which no sent frame has, spell bits that nothing fixes. -/
def frameDematched (f : Fmt) (e j : Nat) (amps : List Bool) : List Bool :=
  if e ≤ 16 then [] else if e = 144 then amps else
  let levels := levelsFrom (ampBits e) (4 * frameSymbols f.pilot) amps
  let c := frameLevels f e j
  let q := frameBits f e j
  if (List.range c.length).all fun i => levels.count i = c.getD i 0 then bitsOf q (rank levels c) else bitsOf q (Config.strangeLevels levels)

/-- Signs and amplitude bits of a frame's coded bits, `w` amplitude bits per dimension. -/
def splitDims (w : Nat) : Nat → List (Bool × Bool) → List (Bool × Bool) × List (Bool × Bool)
  | 0, _ => ([], [])
  | n + 1, bits =>
    let r := splitDims w n (bits.drop (w + 1))
    (bits.headD (false, false) :: r.1, (bits.drop 1).take w ++ r.2)

/-- The data stream of a block from its decoded coded bits, each with its errored mark (R275, R292). A mark on any amplitude bit of a
matcher frame marks every bit that its rank spells. -/
def dataStream (f : Fmt) (codes : List Nat) (coded : List (Bool × Bool)) : List (Bool × Bool) :=
  let act := activeSubs f codes
  let r := (List.range (framesPerBlock f)).foldl (fun (acc : List (List (Bool × Bool)) × List (Bool × Bool)) j =>
    act.zipIdx.foldl (fun acc ka =>
      let e := codes.getD ka.1 codeOff
      let w := ampBits e
      let dims := 4 * frameSymbols f.pilot
      let p := splitDims w dims acc.2
      let mark := p.2.any (·.2)
      let amps := if e = 144 then p.2 else (frameDematched f e j (p.2.map (·.1))).map fun b => (b, mark)
      let signs := (List.zip (frameSigns f e ka.2 act.length j) p.1).filterMap fun x => match x.1 with | .data => some x.2 | _ => none
      ((amps ++ signs) :: acc.1, acc.2.drop (dims * (1 + w)))) acc) ([], coded)
  r.1.reverse.flatMap id

end Sys2Proof.Machine
end

