-- ==== Sys2Proof/Machine/HubBurst.lean ====
section
/-! DEFINITION. The upstream burst of hub mode: its fixed sequences, the header's code, and the coding and mapping of its payload
(R391–R394). -/

namespace Sys2Proof.Machine

/-! ### Fixed sequences (R392) -/

/-- Symbol `m` of the preamble on X: exp(−jπm² ÷ 512). -/
def preambleSymbol (m : Nat) : Cx := (turn (-((m * m : Nat) : Int)) 1024).scale 6 1

def preambleSymbols : List (Cx × Cx) := (List.range 512).map fun m => (preambleSymbol m, preambleSymbol ((m + 256) % 512))

/-- The bits of the sync word on polarisation `p` (0 X, 1 Y), two for each symbol. -/
def syncBits (p : Nat) : List Bool := pilotBits 128 (if p = 0 then 0x5A5A else 0x25A5)

/-- Bit errors of a received sync word: its hard decisions on X and then on Y. -/
def syncDistance (bits : List Bool) : Nat :=
  let want := syncBits 0 ++ syncBits 1
  ((List.zipWith xor bits want).filter id).length + (want.length - bits.length)

/-! ### The header's code (R393) -/

/-- The outputs of generators 133 and 171 (octal) for a register of seven bits, the newest at the top. -/
def headerOutputs (r : Nat) : Bool × Bool :=
  let odd (g : Nat) : Bool := ((bitsOf 7 (r &&& g)).filter id).length % 2 = 1
  (odd 0o133, odd 0o171)

/-- The coded bits of header bits from the six bits before them, the newest of these at the top. -/
def headerCode : Nat → List Bool → List (Bool × Bool)
  | _, [] => []
  | r, b :: t => headerOutputs (b.toNat * 64 + r) :: headerCode ((b.toNat * 64 + r) / 2) t

/-- The encoder's register at its start: the last six header bits. -/
def headerTail (bits : List Bool) : Nat := natOfBits ((bits.drop 90).reverse)

def headerCoded (bits : List Bool) : List (Bool × Bool) := headerCode (headerTail bits) bits

/-- The only header whose coded bits can be these: with both generators as polynomials in the delay D,
(D² + D⁴) × 133 + (1 + D + D² + D³ + D⁴) × 171 is 1. -/
def headerInverse (coded : List (Bool × Bool)) : List Bool :=
  let c := coded.toArray
  (List.range 96).map fun j =>
    let x (d : Nat) : Bool := (c.getD ((j + 96 - d) % 96) (false, false)).1
    let y (d : Nat) : Bool := (c.getD ((j + 96 - d) % 96) (false, false)).2
    xor (xor (x 2) (x 4)) (xor (xor (xor (y 0) (y 1)) (xor (y 2) (y 3))) (y 4))

/-- Pairs of soft values; a positive value speaks for a 0. -/
def softPairs : List Int → List (Int × Int)
  | a :: b :: t => (a, b) :: softPairs t
  | _ => []

/-- One step of the trellis: the best metric into each of 64 states, with the bits that lead there. -/
def trellisStep (at_ : List (Option (Int × Nat))) (soft : Int × Int) : List (Option (Int × Nat)) :=
  let v := at_.toArray
  (List.range 64).map fun state =>
    let into (low : Nat) : Option (Int × Nat) :=
      let r := state / 32 * 64 + state % 32 * 2 + low
      (v.getD (r % 64) none).map fun p =>
        let o := headerOutputs r
        (p.1 + (if o.1 then -soft.1 else soft.1) + (if o.2 then -soft.2 else soft.2), 2 * p.2 + state / 32)
    match into 0, into 1 with
    | some a, some b => some (if a.1 < b.1 then b else a)
    | some a, none => some a
    | none, b => b

/-- The best path that starts and ends in one of the states of the list, on the full tail-biting trellis. -/
def trellisBest (soft : List (Int × Int)) (states : List Nat) : Option (Int × Nat) :=
  states.foldl (fun best q =>
    let ends := soft.foldl trellisStep ((List.range 64).map fun x => if x = q then some (0, 0) else none)
    match best, ends.getD q none with
    | some a, some b => some (if a.1 < b.1 then b else a)
    | none, b => b
    | a, none => a) none

/-- The header that 192 soft values spell. Where every sign agrees with one header's coded bits, that header has the best metric. -/
def headerDecoded (soft : List Int) : Nat :=
  let pairs := softPairs soft
  let hard := pairs.map fun x => (decide (x.1 < 0), decide (x.2 < 0))
  let first := headerInverse hard
  if headerCoded first = hard then natOfBits first else ((trellisBest pairs (List.range 64)).map (·.2)).getD 0

/-! ### The payload (R394) -/

/-- The 512 parity bits of 1,536 information bits. -/
def burstParity (info : List Bool) : List Bool :=
  accumulated (parityAdd 512 263 343 info (parityAdd 512 517 171 info (parityAdd 512 1031 0 info (Array.replicate 512 false))))

/-- Whether 2,048 bits are a block of the payload's code. -/
def burstBlockOk (bits : List Bool) : Bool := decide (bits.length = 2048) && burstParity (bits.take 1536) = bits.drop 1536

/-- The blocks of a burst of leaf `l`: its information bits scrambled and encoded. -/
def burstBlocks (l blocks : Nat) (info : List Bool) : List (List Bool) :=
  let scrambled := List.zipWith xor info (scramblerBits (1536 * blocks) (l + 1))
  (List.range blocks).map fun b => let x := (scrambled.drop (1536 * b)).take 1536; x ++ burstParity x

/-! ### The whole burst (R391) -/

/-- The symbols that a granted leaf sends after its guard: preamble, sync word, header, payload with its pilots, and postamble. -/
def burstSymbols (l header format blocks : Nat) (info : List Bool) : List (Cx × Cx) :=
  let sync := List.zip (pilotPoints (syncBits 0)) (pilotPoints (syncBits 1))
  let head := dataSymbols 0 (levelGain [1]) 48 ((headerCoded (bitsOf 96 header)).flatMap fun x => [x.1, x.2])
  let d := (if format = 0 then 512 else 256) * blocks
  let levels := if format = 0 then [1] else [1, 1]
  let data := dataSymbols (levels.length - 1) (levelGain levels) d (burstBlocks l blocks info).flatten
  let pilots (p : Nat) : List Cx := pilotPoints (pilotBits (2 * ((d + 30) / 31)) (0x1001 + p))
  preambleSymbols ++ sync ++ head ++ withPilots 31 (List.zip (pilots 0) (pilots 1)) data
    ++ (sync.take 32).map fun x => ((-x.1.1, -x.1.2), (-x.2.1, -x.2.2))

end Sys2Proof.Machine
end

