-- ==== Sys2Proof/Machine/ObjTable.lean ====
section
/-! DEFINITION. The object dictionary as a table: every object table of the spec (R40, R70, R91, R94, R120, R149, R177, R229, R266, R298,
R323, R344, R373, R414, R442, R468, R488, R505), one row per object, one line per sub, with its type, access class, default and range, and the name of
every sub as a key of the stored values. -/

namespace Sys2Proof.Machine

/-- Object types (R10); `STR`, `OCTETS` and `BLOCK` carry their stated maximum in octets. -/
inductive Ty where
  | bool | u8 | u16 | u32 | u64 | i16 | i32 | f32
  | str (max : Nat) | octets (max : Nat) | block (max : Nat)
  deriving DecidableEq, Repr

/-- Access classes (R12). -/
inductive Acc where
  | ro | rw | wo | rws | cmd | key
  deriving DecidableEq, Repr

/-- The range that a written value must lie in (R13, R17): any value of the type, an interval with a step, an interval with
one further value, a list, or a mask of the bits that are not reserved (R11). -/
inductive Rng where
  | any
  | ivl (lo hi : Int) (step : Nat)
  | ivlOr (lo hi extra : Int)
  | oneOf (vs : List Int)
  | mask (bits : Nat)
  deriving DecidableEq, Repr

/-- One line of an object table: `count` consecutive subs from `sub`, with type, access, default and range. -/
structure SubRow where
  sub : Nat
  count : Nat
  ty : Ty
  acc : Acc
  dflt : Val
  rng : Rng
  deriving DecidableEq, Repr

/-- One object: `span` consecutive indices from `idx`, the number of units its unit field counts, its highest sub, whether
it has a single value and no subs, and its lines. -/
structure ObjRow where
  idx : Nat
  span : Nat
  units : Nat
  top : Nat
  single : Bool
  subs : List SubRow
  deriving DecidableEq, Repr

/-- The key under which the stored values keep object idx[inst].sub (R6): the three address fields packed into one number, the unit on top. -/
def odKey (idx inst sub : Nat) : Nat := idx * 256 + sub + 16777216 * inst
/-- The index field of a key. -/
def keyIdx (k : Nat) : Nat := k / 256 % 65536
/-- The unit number (the instance field) of a key. -/
def keyInst (k : Nat) : Nat := k / 16777216
/-- The sub field of a key. -/
def keySub (k : Nat) : Nat := k % 256

/-- The objects of the chapter in spec/01_*.md. -/
def objects01 : List ObjRow := [
  ⟨0x2040, 1, 64, 6, false, [
    ⟨1, 1, .u32, .ro, (.u 0), .any⟩,
    ⟨2, 1, .u32, .ro, (.u 0), .any⟩,
    ⟨3, 1, .u32, .ro, (.u 0), .any⟩,
    ⟨4, 1, .u32, .ro, (.u 0), .any⟩,
    ⟨5, 1, .u32, .ro, (.u 0), .any⟩,
    ⟨6, 1, .u32, .ro, (.u 0), .any⟩]⟩,
  ⟨0x2041, 1, 2048, 6, false, [
    ⟨1, 1, .u32, .ro, (.u 0), .any⟩,
    ⟨2, 1, .u32, .ro, (.u 0), .any⟩,
    ⟨3, 1, .u32, .ro, (.u 0), .any⟩,
    ⟨4, 1, .u32, .ro, (.u 0), .any⟩,
    ⟨5, 1, .u32, .ro, (.u 0), .any⟩,
    ⟨6, 1, .u32, .ro, (.u 0), .any⟩]⟩,
  ⟨0x2042, 1, 1, 3, false, [
    ⟨1, 1, .u16, .ro, (.u 16), .any⟩,
    ⟨2, 1, .u64, .ro, (.u 0), .any⟩,
    ⟨3, 1, .u64, .ro, (.u 0), .any⟩]⟩,
  ⟨0x2043, 1, 4, 4, false, [
    ⟨1, 1, .u16, .ro, (.u 0), .any⟩,
    ⟨2, 1, .u16, .ro, (.u 0), .any⟩,
    ⟨3, 1, .u32, .ro, (.u 0), .any⟩,
    ⟨4, 1, .u32, .ro, (.u 0), .any⟩]⟩,
  ⟨0x2044, 1, 1, 0, true, [
    ⟨0, 1, .u8, .cmd, (.u 0), (.oneOf [1, 2, 3])⟩]⟩]

/-- The objects of the chapter in spec/02_*.md. -/
def objects02 : List ObjRow := [
  ⟨0x2010, 1, 1, 6, false, [
    ⟨1, 1, .f32, .ro, (.f 0), .any⟩,
    ⟨2, 1, .f32, .ro, (.f 0), .any⟩,
    ⟨3, 1, .f32, .ro, (.f 0), .any⟩,
    ⟨4, 1, .f32, .ro, (.f 0), .any⟩,
    ⟨5, 1, .f32, .ro, (.f 0), .any⟩,
    ⟨6, 1, .f32, .ro, (.f 0), .any⟩]⟩,
  ⟨0x2011, 1, 27, 2, false, [
    ⟨1, 1, .f32, .ro, (.f 0), .any⟩,
    ⟨2, 1, .f32, .ro, (.f 0), .any⟩]⟩,
  ⟨0x2020, 1, 27, 2, false, [
    ⟨1, 1, .f32, .ro, (.f 0), .any⟩,
    ⟨2, 1, .f32, .ro, (.f 0), .any⟩]⟩,
  ⟨0x2021, 1, 1, 6, false, [
    ⟨1, 4, .f32, .ro, (.f 0), .any⟩,
    ⟨5, 1, .f32, .ro, (.f 0), .any⟩,
    ⟨6, 1, .f32, .ro, (.f 0), .any⟩]⟩,
  ⟨0x2022, 1, 1, 8, false, [
    ⟨1, 1, .u8, .rw, (.u 95), (.ivl 80 100 1)⟩,
    ⟨2, 1, .u8, .rw, (.u 100), (.ivl 85 102 1)⟩,
    ⟨3, 1, .u8, .rw, (.u 72), (.ivl 50 73 1)⟩,
    ⟨4, 1, .u16, .rw, (.u 1600), (.ivl 400 1600 1)⟩,
    ⟨5, 1, .u8, .rw, (.u 3), (.ivl 1 10 1)⟩,
    ⟨6, 1, .u32, .rw, (.u 5000), (.ivl 100 60000 1)⟩,
    ⟨7, 1, .u16, .rw, (.u 100), (.ivl 10 10000 1)⟩,
    ⟨8, 1, .u32, .rw, (.u 10000), (.ivl 1000 600000 1)⟩]⟩,
  ⟨0x2023, 1, 1, 64, false, [
    ⟨1, 64, .u8, .rw, (.u 0), (.ivlOr 0 63 255)⟩]⟩,
  ⟨0x2024, 1, 1, 4, false, [
    ⟨1, 1, .u8, .ro, (.u 0), .any⟩,
    ⟨2, 1, .u32, .ro, (.u 0), .any⟩,
    ⟨3, 1, .u8, .ro, (.u 0), .any⟩,
    ⟨4, 1, .u32, .ro, (.u 0), .any⟩]⟩,
  ⟨0x2025, 1, 1, 0, true, [
    ⟨0, 1, .u8, .cmd, (.u 0), (.oneOf [1])⟩]⟩]

/-- The objects of the chapter in spec/03_*.md. -/
def objects03 : List ObjRow := [
  ⟨0x2000, 1, 1, 3, false, [
    ⟨1, 1, .u8, .ro, (.u 0), .any⟩,
    ⟨2, 1, .u8, .ro, (.u 0), .any⟩,
    ⟨3, 1, .u32, .ro, (.u 0), .any⟩]⟩,
  ⟨0x2001, 1, 1, 0, true, [
    ⟨0, 1, .u8, .cmd, (.u 0), (.oneOf [1, 2])⟩]⟩,
  ⟨0x2002, 1, 64, 0, true, [
    ⟨0, 1, .u8, .cmd, (.u 0), (.oneOf [1])⟩]⟩,
  ⟨0x2003, 1, 32, 0, true, [
    ⟨0, 1, .u8, .cmd, (.u 0), (.oneOf [1])⟩]⟩,
  ⟨0x2004, 1, 1, 4, false, [
    ⟨1, 1, .u8, .ro, (.u 0), .any⟩,
    ⟨2, 1, (.octets 10), .ro, (.o []), .any⟩,
    ⟨3, 1, .u32, .ro, (.u 0), .any⟩,
    ⟨4, 1, .u32, .ro, (.u 0), .any⟩]⟩,
  ⟨0x2005, 1, 1, 4, false, [
    ⟨1, 1, .u8, .ro, (.u 0), .any⟩,
    ⟨2, 1, .u8, .ro, (.u 0), .any⟩,
    ⟨3, 1, .u32, .ro, (.u 0), .any⟩,
    ⟨4, 1, .u32, .ro, (.u 0), .any⟩]⟩,
  ⟨0x2006, 1, 64, 2, false, [
    ⟨1, 1, .u8, .ro, (.u 0), .any⟩,
    ⟨2, 1, .u8, .ro, (.u 0), .any⟩]⟩,
  ⟨0x2007, 1, 64, 0, true, [
    ⟨0, 1, .u8, .cmd, (.u 0), (.oneOf [1])⟩]⟩,
  ⟨0x2008, 1, 1, 0, true, [
    ⟨0, 1, .u8, .cmd, (.u 0), (.oneOf [1, 2])⟩]⟩,
  ⟨0x2009, 1, 1, 3, false, [
    ⟨1, 1, .bool, .ro, (.u 0), .any⟩,
    ⟨2, 1, .u32, .ro, (.u 0), .any⟩,
    ⟨3, 1, (.octets 512), .ro, (.o []), .any⟩]⟩,
  ⟨0x7F00, 1, 1, 0, true, [
    ⟨0, 1, (.block 117440512), .wo, (.o []), .any⟩]⟩,
  ⟨0x7F01, 1, 2, 5, false, [
    ⟨1, 1, (.str 32), .ro, (.o []), .any⟩,
    ⟨2, 1, .u8, .ro, (.u 0), .any⟩,
    ⟨3, 1, .u32, .ro, (.u 0), .any⟩,
    ⟨4, 1, .bool, .ro, (.u 0), .any⟩,
    ⟨5, 1, .bool, .ro, (.u 0), .any⟩]⟩,
  ⟨0x7F02, 1, 1, 0, true, [
    ⟨0, 1, .u8, .cmd, (.u 0), (.ivl 1 4 1)⟩]⟩,
  ⟨0x7F03, 1, 1, 0, true, [
    ⟨0, 1, .u32, .rw, (.u 600), (.ivl 60 86400 1)⟩]⟩]

/-- The objects of the chapter in spec/04_*.md. -/
def objects04 : List ObjRow := [
  ⟨0x1000, 1, 1, 0, true, [
    ⟨0, 1, .u32, .ro, (.u 0), .any⟩]⟩,
  ⟨0x1008, 1, 1, 0, true, [
    ⟨0, 1, (.str 9), .ro, (.o [70, 72, 45, 82, 90, 54, 52, 48, 50]), .any⟩]⟩,
  ⟨0x1009, 1, 1, 0, true, [
    ⟨0, 1, (.str 2), .ro, (.o [65, 49]), .any⟩]⟩,
  ⟨0x100A, 1, 1, 0, true, [
    ⟨0, 1, (.str 32), .ro, (.o []), .any⟩]⟩,
  ⟨0x1018, 1, 1, 4, false, [
    ⟨1, 1, .u32, .ro, (.u 18088), .any⟩,
    ⟨2, 1, .u32, .ro, (.u 25602), .any⟩,
    ⟨3, 1, .u32, .ro, (.u 0), .any⟩,
    ⟨4, 1, .u32, .ro, (.u 0), .any⟩]⟩,
  ⟨0x2100, 1, 8, 7, false, [
    ⟨1, 1, .u8, .ro, (.u 0), .any⟩,
    ⟨2, 1, .u8, .ro, (.u 0), .any⟩,
    ⟨3, 1, .u8, .ro, (.u 0), .any⟩,
    ⟨4, 1, .u8, .ro, (.u 255), .any⟩,
    ⟨5, 1, (.octets 10), .ro, (.o []), .any⟩,
    ⟨6, 1, .u16, .ro, (.u 0), .any⟩,
    ⟨7, 1, .u8, .ro, (.u 0), .any⟩]⟩,
  ⟨0x2101, 1, 1, 0, true, [
    ⟨0, 1, .u8, .ro, (.u 0), .any⟩]⟩,
  ⟨0x2102, 1, 8, 0, true, [
    ⟨0, 1, .u8, .cmd, (.u 0), (.oneOf [1])⟩]⟩,
  ⟨0x2103, 1, 1, 2, false, [
    ⟨1, 1, .u16, .rw, (.u 60), (.ivl 5 3600 1)⟩,
    ⟨2, 1, .bool, .ro, (.u 0), .any⟩]⟩,
  ⟨0x2104, 1, 32, 4, false, [
    ⟨1, 1, (.octets 48), .rw, (.o (List.replicate 48 0)), .any⟩,
    ⟨2, 1, .u8, .rw, (.u 0), (.mask 15)⟩,
    ⟨3, 1, (.str 32), .rw, (.o []), .any⟩,
    ⟨4, 1, .bool, .rw, (.u 0), .any⟩]⟩,
  ⟨0x2105, 1, 2, 3, false, [
    ⟨1, 1, .bool, .rw, (.u 0), .any⟩,
    ⟨2, 1, .u8, .rw, (.u 0), (.ivl 1 127 1)⟩,
    ⟨3, 1, .u8, .rw, (.u 1), (.ivl 1 3 1)⟩]⟩,
  ⟨0x2106, 1, 1, 0, true, [
    ⟨0, 1, (.block 4096), .ro, (.o []), .any⟩]⟩,
  ⟨0x2107, 1, 1, 0, true, [
    ⟨0, 1, .u8, .cmd, (.u 0), (.oneOf [1])⟩]⟩,
  ⟨0x2110, 1, 4164, 1, false, [
    ⟨1, 1, .u8, .ro, (.u 255), .any⟩]⟩,
  ⟨0x2111, 1, 4164, 0, true, [
    ⟨0, 1, .u8, .cmd, (.u 0), (.ivl 1 3 1)⟩]⟩,
  ⟨0x2112, 1, 1, 0, true, [
    ⟨0, 1, .u8, .cmd, (.u 0), (.oneOf [1])⟩]⟩,
  ⟨0x2120, 1, 65, 9, false, [
    ⟨1, 1, .u8, .ro, (.u 0), .any⟩,
    ⟨2, 1, .u8, .ro, (.u 0), .any⟩,
    ⟨3, 1, .u8, .ro, (.u 255), .any⟩,
    ⟨4, 1, .u32, .rw, (.u 16), (.ivl 2 1000000 1)⟩,
    ⟨5, 1, .u64, .ro, (.u 0), .any⟩,
    ⟨6, 1, .u32, .ro, (.u 0), .any⟩,
    ⟨7, 1, .u32, .ro, (.u 0), .any⟩,
    ⟨8, 1, .bool, .ro, (.u 0), .any⟩,
    ⟨9, 1, .u16, .rw, (.u 50), (.ivl 1 1000 1)⟩]⟩,
  ⟨0x2121, 1, 65, 0, true, [
    ⟨0, 1, .u8, .cmd, (.u 0), (.ivl 1 3 1)⟩]⟩,
  ⟨0x2122, 1, 1, 5, false, [
    ⟨1, 1, .u64, .rw, (.u 0), (.mask 18446744073709551615)⟩,
    ⟨2, 1, .bool, .rw, (.u 0), .any⟩,
    ⟨3, 1, (.octets 10), .rw, (.o (List.replicate 10 0)), .any⟩,
    ⟨4, 1, .u8, .ro, (.u 0), .any⟩,
    ⟨5, 1, .u8, .ro, (.u 0), .any⟩]⟩,
  ⟨0x2123, 1, 1, 0, true, [
    ⟨0, 1, .u8, .cmd, (.u 0), (.oneOf [1, 2])⟩]⟩,
  ⟨0x2130, 1, 1, 0, true, [
    ⟨0, 1, (.block 32768), .ro, (.o []), .any⟩]⟩,
  ⟨0x2131, 1, 1, 2, false, [
    ⟨1, 1, .u64, .ro, (.u 1), .any⟩,
    ⟨2, 1, .u64, .ro, (.u 0), .any⟩]⟩]

/-- The objects of the chapter in spec/05_*.md. -/
def objects05 : List ObjRow := [
  ⟨0x1001, 1, 1, 0, true, [
    ⟨0, 1, .u8, .ro, (.u 0), .any⟩]⟩,
  ⟨0x1015, 1, 1, 0, true, [
    ⟨0, 1, .u16, .rw, (.u 10), (.ivl 0 65535 1)⟩]⟩,
  ⟨0x1017, 1, 1, 0, true, [
    ⟨0, 1, .u16, .rw, (.u 1000), (.ivl 0 65535 1)⟩]⟩,
  ⟨0x1100, 1, 2, 10, false, [
    ⟨1, 1, .u8, .rw, (.u 1), (.ivl 0 2 1)⟩,
    ⟨2, 1, .bool, .ro, (.u 0), .any⟩,
    ⟨3, 1, (.octets 6), .ro, (.o []), .any⟩,
    ⟨4, 1, (.octets 16), .rw, (.o (List.replicate 16 0)), .any⟩,
    ⟨5, 1, .u8, .rw, (.u 64), (.ivl 1 128 1)⟩,
    ⟨6, 1, (.octets 4), .rw, (.o (List.replicate 4 0)), .any⟩,
    ⟨7, 1, .u8, .rw, (.u 24), (.ivl 1 32 1)⟩,
    ⟨8, 1, (.octets 16), .rw, (.o (List.replicate 16 0)), .any⟩,
    ⟨9, 1, (.octets 4), .rw, (.o (List.replicate 4 0)), .any⟩,
    ⟨10, 1, .u32, .ro, (.u 0), .any⟩]⟩,
  ⟨0x1110, 1, 1, 3, false, [
    ⟨1, 1, .u16, .rw, (.u 47100), (.ivl 1024 65535 1)⟩,
    ⟨2, 1, .u16, .rw, (.u 5), (.ivl 1 60 1)⟩,
    ⟨3, 1, .u16, .rw, (.u 1000), (.ivl 10 10000 1)⟩]⟩,
  ⟨0x1800, 4, 2, 5, false, [
    ⟨1, 1, .u32, .rw, (.u 0), (.mask 2147485695)⟩,
    ⟨2, 1, .u8, .rw, (.u 254), (.ivl 254 255 1)⟩,
    ⟨3, 1, .u16, .rw, (.u 10), (.ivl 0 65535 1)⟩,
    ⟨5, 1, .u16, .rw, (.u 1000), (.ivl 0 65535 1)⟩]⟩,
  ⟨0x1A00, 4, 2, 17, false, [
    ⟨1, 1, .u8, .rw, (.u 0), (.ivl 0 16 1)⟩,
    ⟨2, 16, .u64, .rw, (.u 0), .any⟩]⟩,
  ⟨0x1F10, 1, 1, 2, false, [
    ⟨1, 1, .u32, .rw, (.u 0), (.ivl 0 262143 1)⟩,
    ⟨2, 1, .bool, .rw, (.u 0), .any⟩]⟩,
  ⟨0x1F20, 1, 2, 4, false, [
    ⟨1, 1, .u8, .rw, (.u 0), (.mask 31)⟩,
    ⟨2, 1, .bool, .rw, (.u 1), .any⟩,
    ⟨3, 1, .bool, .ro, (.u 0), .any⟩,
    ⟨4, 1, .u8, .rw, (.u 0), (.ivl 0 3 1)⟩]⟩,
  ⟨0x1F21, 1, 1, 0, true, [
    ⟨0, 1, .u16, .rw, (.u 10), (.ivl 1 1000 1)⟩]⟩,
  ⟨0x1F30, 1, 2, 4, false, [
    ⟨1, 1, .u32, .ro, (.u 0), .any⟩,
    ⟨2, 1, .u32, .ro, (.u 0), .any⟩,
    ⟨3, 1, .u32, .ro, (.u 0), .any⟩,
    ⟨4, 1, .u32, .ro, (.u 0), .any⟩]⟩]

/-- The objects of the chapter in spec/06_*.md. -/
def objects06 : List ObjRow := [
  ⟨0x3000, 1, 8, 8, false, [
    ⟨1, 1, .u8, .rw, (.u 0), (.ivl 0 1 1)⟩,
    ⟨2, 1, .i16, .rw, (.i (-128)), (.ivl (-288) 480 1)⟩,
    ⟨3, 1, .u8, .rw, (.u 64), (.ivl 8 64 1)⟩,
    ⟨4, 1, .u8, .ro, (.u 0), .any⟩,
    ⟨5, 1, .f32, .ro, (.f 0), .any⟩,
    ⟨6, 1, .f32, .ro, (.f 0), .any⟩,
    ⟨7, 1, .u16, .rw, (.u 10), (.ivl 1 1000 1)⟩,
    ⟨8, 1, .u32, .rw, (.u 1000), (.ivl 100 100000 1)⟩]⟩,
  ⟨0x3002, 1, 8, 48, false, [
    ⟨1, 48, .i16, .ro, (.i 0), .any⟩]⟩,
  ⟨0x3010, 1, 64, 10, false, [
    ⟨1, 1, .bool, .rw, (.u 0), .any⟩,
    ⟨2, 1, .u8, .ro, (.u 0), .any⟩,
    ⟨3, 1, .i16, .rws, (.i 0), (.ivl (-40) 20 1)⟩,
    ⟨4, 1, .f32, .ro, (.f 0), .any⟩,
    ⟨5, 1, .i32, .ro, (.i 0), .any⟩,
    ⟨6, 1, .f32, .ro, (.f 0), .any⟩,
    ⟨7, 1, .u8, .ro, (.u 0), .any⟩,
    ⟨8, 1, .f32, .ro, (.f 0), .any⟩,
    ⟨9, 1, .i16, .rw, (.i (-240)), (.ivl (-300) (-150) 1)⟩,
    ⟨10, 1, .u32, .ro, (.u 0), .any⟩]⟩,
  ⟨0x3011, 1, 64, 10, false, [
    ⟨1, 1, .u8, .rw, (.u 0), (.ivl 0 1 1)⟩,
    ⟨2, 1, .bool, .ro, (.u 0), .any⟩,
    ⟨3, 6, .i16, .ro, (.i 0), .any⟩,
    ⟨9, 1, .u16, .rw, (.u 30), (.ivl 10 100 1)⟩,
    ⟨10, 1, .u32, .ro, (.u 0), .any⟩]⟩,
  ⟨0x3012, 1, 64, 5, false, [
    ⟨1, 1, .f32, .ro, (.f 0), .any⟩,
    ⟨2, 1, .f32, .ro, (.f 0), .any⟩,
    ⟨3, 1, .i32, .ro, (.i 0), .any⟩,
    ⟨4, 1, .i32, .ro, (.i 0), .any⟩,
    ⟨5, 1, .u8, .rw, (.u 0), (.ivl 0 1 1)⟩]⟩,
  ⟨0x3020, 1, 64, 3, false, [
    ⟨1, 1, .f32, .ro, (.f 0), .any⟩,
    ⟨2, 1, .u32, .ro, (.u 0), .any⟩,
    ⟨3, 1, .f32, .ro, (.f 0), .any⟩]⟩,
  ⟨0x3040, 1, 64, 10, false, [
    ⟨1, 4, .i16, .ro, (.i 0), .any⟩,
    ⟨5, 4, .i16, .rws, (.i 0), (.ivl (-512) 512 1)⟩,
    ⟨9, 1, .u16, .rw, (.u 256), (.ivl 16 4096 1)⟩,
    ⟨10, 1, .u16, .ro, (.u 0), .any⟩]⟩,
  ⟨0x3041, 1, 64, 5, false, [
    ⟨1, 1, .u8, .rws, (.u 0), (.ivl 0 1 1)⟩,
    ⟨2, 4, (.octets 34), .ro, (.o []), .any⟩]⟩,
  ⟨0x3042, 1, 64, 7, false, [
    ⟨1, 1, .u8, .rw, (.u 12), (.ivl 4 20 1)⟩,
    ⟨2, 1, .u8, .rw, (.u 0), (.ivl 0 2 1)⟩,
    ⟨3, 1, .bool, .ro, (.u 0), .any⟩,
    ⟨4, 4, .i16, .ro, (.i 0), .any⟩]⟩,
  ⟨0x3043, 1, 64, 17, false, [
    ⟨1, 1, .u8, .rw, (.u 0), (.ivl 0 2 1)⟩,
    ⟨2, 1, .u16, .rw, (.u 256), (.ivl 128 512 1)⟩,
    ⟨3, 1, .u16, .rw, (.u 1024), (.ivl 64 65535 1)⟩,
    ⟨4, 4, .u8, .ro, (.u 0), .any⟩,
    ⟨8, 4, .u16, .ro, (.u 0), .any⟩,
    ⟨12, 4, .u8, .rw, (.u 24), (.ivl 0 47 1)⟩,
    ⟨16, 1, .u16, .rw, (.u 4096), (.ivl 2048 8192 1)⟩,
    ⟨17, 1, .u32, .ro, (.u 0), .any⟩]⟩,
  ⟨0x3044, 1, 64, 12, false, [
    ⟨1, 1, .u8, .rw, (.u 1), (.ivl 0 2 1)⟩,
    ⟨2, 1, .u8, .rw, (.u 8), (.ivl 4 16 1)⟩,
    ⟨3, 1, .bool, .rw, (.u 0), .any⟩,
    ⟨4, 4, .f32, .ro, (.f 0), .any⟩,
    ⟨8, 4, .u32, .ro, (.u 0), .any⟩,
    ⟨12, 1, .f32, .ro, (.f 0), .any⟩]⟩]

/-- The objects of the chapter in spec/07_*.md. -/
def objects07 : List ObjRow := [
  ⟨0x3100, 1, 64, 11, false, [
    ⟨1, 1, .u8, .ro, (.u 0), .any⟩,
    ⟨2, 1, .u8, .ro, (.u 0), .any⟩,
    ⟨3, 1, .u32, .rw, (.u 1000), (.ivl 10 60000 1)⟩,
    ⟨4, 1, .u8, .rw, (.u 2), (.ivl 0 8 1)⟩,
    ⟨5, 1, .u32, .ro, (.u 0), .any⟩,
    ⟨6, 1, .u32, .ro, (.u 0), .any⟩,
    ⟨7, 1, .u32, .ro, (.u 0), .any⟩,
    ⟨8, 1, .u32, .ro, (.u 0), .any⟩,
    ⟨9, 1, .u32, .ro, (.u 0), .any⟩,
    ⟨10, 1, .bool, .ro, (.u 0), .any⟩,
    ⟨11, 1, .u8, .ro, (.u 0), .any⟩]⟩,
  ⟨0x3101, 1, 64, 0, true, [
    ⟨0, 1, .u8, .cmd, (.u 0), (.oneOf [1, 2])⟩]⟩,
  ⟨0x3102, 1, 1, 0, true, [
    ⟨0, 1, .u8, .cmd, (.u 0), (.oneOf [1])⟩]⟩,
  ⟨0x3110, 1, 64, 12, false, [
    ⟨1, 1, .u8, .rw, (.u 0), (.ivl 0 1 1)⟩,
    ⟨2, 1, .i32, .rws, (.i 0), (.ivl (-250000) 250000 1)⟩,
    ⟨3, 1, .i32, .rw, (.i (-250000)), (.ivl (-250000) 250000 1)⟩,
    ⟨4, 1, .i32, .rw, (.i 250000), (.ivl (-250000) 250000 1)⟩,
    ⟨5, 1, .bool, .rw, (.u 1), .any⟩,
    ⟨6, 1, .u16, .rw, (.u 5), (.ivl 1 50 1)⟩,
    ⟨7, 1, .u16, .rw, (.u 256), (.ivl 16 4096 1)⟩,
    ⟨8, 1, .i32, .ro, (.i 0), .any⟩,
    ⟨9, 1, .u32, .ro, (.u 0), .any⟩,
    ⟨10, 1, .f32, .ro, (.f 0), .any⟩,
    ⟨11, 1, .u16, .ro, (.u 0), .any⟩,
    ⟨12, 1, .u32, .ro, (.u 0), .any⟩]⟩,
  ⟨0x3120, 1, 64, 11, false, [
    ⟨1, 1, .u8, .rw, (.u 0), (.ivl 0 2 1)⟩,
    ⟨2, 1, .u8, .rws, (.u 31), (.ivl 7 63 2)⟩,
    ⟨3, 1, .u8, .rw, (.u 10), (.ivl 6 16 1)⟩,
    ⟨4, 1, .bool, .rw, (.u 1), .any⟩,
    ⟨5, 1, .u8, .ro, (.u 0), .any⟩,
    ⟨6, 1, .f32, .ro, (.f 0), .any⟩,
    ⟨7, 1, .f32, .ro, (.f 0), .any⟩,
    ⟨8, 1, .f32, .ro, (.f 0), .any⟩,
    ⟨9, 1, .f32, .ro, (.f 0), .any⟩,
    ⟨10, 1, .u32, .ro, (.u 0), .any⟩,
    ⟨11, 1, .bool, .ro, (.u 0), .any⟩]⟩,
  ⟨0x3121, 1, 64, 0, true, [
    ⟨0, 1, (.block 1009), .ro, (.o []), .any⟩]⟩,
  ⟨0x3125, 1, 64, 5, false, [
    ⟨1, 1, .u16, .rw, (.u 1000), (.ivl 100 8000 1)⟩,
    ⟨2, 1, .f32, .ro, (.f 0), .any⟩,
    ⟨3, 1, .bool, .ro, (.u 0), .any⟩,
    ⟨4, 1, .f32, .ro, (.f 0), .any⟩,
    ⟨5, 1, .u32, .ro, (.u 0), .any⟩]⟩,
  ⟨0x3130, 1, 64, 8, false, [
    ⟨1, 1, .f32, .ro, (.f 0), .any⟩,
    ⟨2, 1, .f32, .ro, (.f 0), .any⟩,
    ⟨3, 1, .f32, .ro, (.f 0), .any⟩,
    ⟨4, 1, .u16, .rw, (.u 128), (.ivl 32 1024 32)⟩,
    ⟨5, 1, .u32, .ro, (.u 0), .any⟩,
    ⟨6, 1, .u8, .ro, (.u 0), .any⟩,
    ⟨7, 1, .f32, .ro, (.f 0), .any⟩,
    ⟨8, 1, .u32, .ro, (.u 0), .any⟩]⟩,
  ⟨0x3131, 1, 8, 6, false, [
    ⟨1, 1, .bool, .rw, (.u 1), .any⟩,
    ⟨2, 1, .u16, .rw, (.u 50), (.ivl 10 200 1)⟩,
    ⟨3, 1, .u16, .rw, (.u 10), (.ivl 1 1000 1)⟩,
    ⟨4, 1, .u8, .ro, (.u 0), .any⟩,
    ⟨5, 1, .u32, .ro, (.u 0), .any⟩,
    ⟨6, 1, .bool, .ro, (.u 0), .any⟩]⟩,
  ⟨0x3150, 1, 64, 18, false, [
    ⟨1, 1, .u16, .rw, (.u 10), (.ivl 1 1000 1)⟩,
    ⟨2, 1, .f32, .ro, (.f 0), .any⟩,
    ⟨3, 1, .f32, .ro, (.f 0), .any⟩,
    ⟨4, 1, .f32, .ro, (.f 0), .any⟩,
    ⟨5, 1, .f32, .ro, (.f 0), .any⟩,
    ⟨6, 1, .f32, .ro, (.f 0), .any⟩,
    ⟨7, 1, .f32, .ro, (.f 0), .any⟩,
    ⟨8, 1, .u64, .ro, (.u 0), .any⟩,
    ⟨9, 1, .u64, .ro, (.u 0), .any⟩,
    ⟨10, 1, .f32, .ro, (.f 0), .any⟩,
    ⟨11, 1, .f32, .ro, (.f 0), .any⟩,
    ⟨12, 1, .f32, .ro, (.f 0), .any⟩,
    ⟨13, 1, .f32, .ro, (.f 0), .any⟩,
    ⟨14, 1, .f32, .ro, (.f 0), .any⟩,
    ⟨15, 1, .f32, .ro, (.f 0), .any⟩,
    ⟨16, 1, .f32, .ro, (.f 0), .any⟩,
    ⟨17, 1, .u16, .ro, (.u 0), .any⟩,
    ⟨18, 1, .i16, .rw, (.i 10), (.ivl (-50) 100 1)⟩]⟩,
  ⟨0x3151, 1, 2048, 9, false, [
    ⟨1, 1, .f32, .ro, (.f 0), .any⟩,
    ⟨2, 1, .f32, .ro, (.f 0), .any⟩,
    ⟨3, 1, .f32, .ro, (.f 0), .any⟩,
    ⟨4, 1, .f32, .ro, (.f 0), .any⟩,
    ⟨5, 1, .f32, .ro, (.f 0), .any⟩,
    ⟨6, 1, .f32, .ro, (.f 0), .any⟩,
    ⟨7, 1, .f32, .ro, (.f 0), .any⟩,
    ⟨8, 1, .f32, .ro, (.f 0), .any⟩,
    ⟨9, 1, .f32, .ro, (.f 0), .any⟩]⟩]

/-- The objects of the chapter in spec/08_*.md. -/
def objects08 : List ObjRow := [
  ⟨0x3200, 1, 64, 9, false, [
    ⟨1, 1, .u32, .rw, (.u 360000), (.ivl 30000 360000 1)⟩,
    ⟨2, 1, .u8, .rw, (.u 32), (.oneOf [1, 2, 4, 8, 16, 32])⟩,
    ⟨3, 1, .u8, .rw, (.u 5), (.ivl 1 10 1)⟩,
    ⟨4, 1, .u8, .rw, (.u 0), (.ivl 0 2 1)⟩,
    ⟨5, 1, .f32, .ro, (.f 0), .any⟩,
    ⟨6, 1, .u16, .ro, (.u 0), .any⟩,
    ⟨7, 1, .u16, .ro, (.u 0), .any⟩,
    ⟨8, 1, .u8, .ro, (.u 0), .any⟩,
    ⟨9, 1, .f32, .ro, (.f 0), .any⟩]⟩,
  ⟨0x3201, 1, 2048, 5, false, [
    ⟨1, 1, .u8, .rws, (.u 138), (.ivlOr 0 144 255)⟩,
    ⟨2, 1, .i16, .rws, (.i 0), (.ivl (-60) 30 1)⟩,
    ⟨3, 1, .u8, .ro, (.u 0), .any⟩,
    ⟨4, 1, .f32, .ro, (.f 0), .any⟩,
    ⟨5, 1, .f32, .ro, (.f 0), .any⟩]⟩,
  ⟨0x3203, 1, 64, 14, false, [
    ⟨1, 4, .i16, .rws, (.i 0), (.ivl (-512) 512 1)⟩,
    ⟨5, 1, .u8, .rws, (.u 0), (.ivl 0 1 1)⟩,
    ⟨6, 1, .bool, .rw, (.u 1), .any⟩,
    ⟨7, 1, .i32, .rw, (.i 0), (.ivl (-30000) 30000 1)⟩,
    ⟨8, 1, .u8, .rw, (.u 100), (.ivl 60 140 1)⟩,
    ⟨9, 1, .u16, .rw, (.u 225), (.ivl 128 384 1)⟩,
    ⟨10, 1, .u16, .rw, (.u 256), (.ivl 16 4096 1)⟩,
    ⟨11, 4, .i16, .ro, (.i 0), .any⟩]⟩,
  ⟨0x3400, 1, 64, 18, false, [
    ⟨1, 1, .u8, .rw, (.u 2), (.ivl 0 2 1)⟩,
    ⟨2, 1, .bool, .rw, (.u 1), .any⟩,
    ⟨3, 1, .u8, .rw, (.u 10), (.ivl 0 50 1)⟩,
    ⟨4, 1, .u8, .rw, (.u 5), (.ivl 0 30 1)⟩,
    ⟨5, 1, .u8, .rw, (.u 5), (.ivl 0 30 1)⟩,
    ⟨6, 1, .u16, .rw, (.u 10), (.ivl 1 3600 1)⟩,
    ⟨7, 1, .u8, .rw, (.u 8), (.ivl 1 144 1)⟩,
    ⟨8, 1, .u16, .rw, (.u 100), (.ivl 10 60000 1)⟩,
    ⟨9, 1, .u16, .rw, (.u 100), (.ivl 10 10000 1)⟩,
    ⟨10, 1, .u8, .rw, (.u 64), (.ivl 0 144 1)⟩,
    ⟨11, 1, .u16, .rw, (.u 500), (.ivl 100 60000 1)⟩,
    ⟨12, 1, .u8, .ro, (.u 0), .any⟩,
    ⟨13, 1, .u8, .ro, (.u 0), .any⟩,
    ⟨14, 1, .u32, .ro, (.u 0), .any⟩,
    ⟨15, 1, .u32, .ro, (.u 0), .any⟩,
    ⟨16, 1, .u8, .ro, (.u 0), .any⟩,
    ⟨17, 1, .u32, .ro, (.u 0), .any⟩,
    ⟨18, 1, .u32, .ro, (.u 0), .any⟩]⟩,
  ⟨0x3401, 1, 2048, 6, false, [
    ⟨1, 1, .u8, .rw, (.u 0), (.ivl 0 144 1)⟩,
    ⟨2, 1, .u8, .rw, (.u 144), (.ivl 0 144 1)⟩,
    ⟨3, 1, .u8, .ro, (.u 254), .any⟩,
    ⟨4, 1, .u8, .ro, (.u 254), .any⟩,
    ⟨5, 1, .f32, .ro, (.f 0), .any⟩,
    ⟨6, 1, .f32, .ro, (.f 0), .any⟩]⟩,
  ⟨0x3402, 1, 1, 3, false, [
    ⟨1, 1, .u8, .rw, (.u 10), (.ivl 0 50 1)⟩,
    ⟨2, 1, .u8, .rw, (.u 13), (.ivl 0 50 1)⟩,
    ⟨3, 1, .u8, .rw, (.u 16), (.ivl 0 50 1)⟩]⟩,
  ⟨0x3403, 1, 1, 0, true, [
    ⟨0, 1, .u8, .cmd, (.u 0), (.oneOf [1])⟩]⟩]

/-- The objects of the chapter in spec/09_*.md. -/
def objects09 : List ObjRow := [
  ⟨0x3300, 1, 64, 10, false, [
    ⟨1, 1, .u8, .rw, (.u 0), (.ivl 0 6 1)⟩,
    ⟨2, 1, .u8, .rw, (.u 2), (.ivl 0 3 1)⟩,
    ⟨3, 1, .f32, .ro, (.f 0), .any⟩,
    ⟨4, 1, .u32, .ro, (.u 0), .any⟩,
    ⟨5, 1, .u32, .ro, (.u 0), .any⟩,
    ⟨6, 1, .u8, .ro, (.u 0), .any⟩,
    ⟨7, 1, .f32, .ro, (.f 0), .any⟩,
    ⟨8, 1, .u64, .ro, (.u 0), .any⟩,
    ⟨9, 1, .f32, .ro, (.f 0), .any⟩,
    ⟨10, 1, .f32, .ro, (.f 0), .any⟩]⟩,
  ⟨0x3301, 1, 64, 6, false, [
    ⟨1, 1, .u8, .ro, (.u 0), .any⟩,
    ⟨2, 1, .u64, .ro, (.u 0), .any⟩,
    ⟨3, 1, .u32, .ro, (.u 0), .any⟩,
    ⟨4, 1, .u32, .ro, (.u 0), .any⟩,
    ⟨5, 1, .u32, .ro, (.u 0), .any⟩,
    ⟨6, 1, .bool, .ro, (.u 0), .any⟩]⟩,
  ⟨0x3302, 1, 64, 8, false, [
    ⟨1, 1, .u8, .ro, (.u 0), .any⟩,
    ⟨2, 1, .u64, .ro, (.u 0), .any⟩,
    ⟨3, 1, .u32, .ro, (.u 0), .any⟩,
    ⟨4, 1, .u32, .ro, (.u 0), .any⟩,
    ⟨5, 1, .u32, .ro, (.u 0), .any⟩,
    ⟨6, 1, .u32, .ro, (.u 0), .any⟩,
    ⟨7, 1, .u32, .ro, (.u 0), .any⟩,
    ⟨8, 1, .u8, .ro, (.u 0), .any⟩]⟩,
  ⟨0x3310, 1, 8, 4, false, [
    ⟨1, 1, .u8, .rw, (.u 6), (.ivl 3 6 1)⟩,
    ⟨2, 1, .u8, .rw, (.u 12), (.ivl 2 16 1)⟩,
    ⟨3, 1, .bool, .rw, (.u 1), .any⟩,
    ⟨4, 1, .u16, .ro, (.u 0), .any⟩]⟩,
  ⟨0x3311, 1, 64, 11, false, [
    ⟨1, 1, .u64, .ro, (.u 0), .any⟩,
    ⟨2, 1, .u64, .ro, (.u 0), .any⟩,
    ⟨3, 1, .u64, .ro, (.u 0), .any⟩,
    ⟨4, 1, .u64, .ro, (.u 0), .any⟩,
    ⟨5, 1, .u64, .ro, (.u 0), .any⟩,
    ⟨6, 1, .u64, .ro, (.u 0), .any⟩,
    ⟨7, 1, .f32, .ro, (.f 0), .any⟩,
    ⟨8, 1, .u64, .ro, (.u 0), .any⟩,
    ⟨9, 1, .u32, .ro, (.u 0), .any⟩,
    ⟨10, 1, .u64, .ro, (.u 0), .any⟩,
    ⟨11, 1, .u32, .rw, (.u 1), (.ivl 1 1000000 1)⟩]⟩,
  ⟨0x3312, 1, 1, 0, true, [
    ⟨0, 1, .u8, .cmd, (.u 0), (.oneOf [1])⟩]⟩]

/-- The objects of the chapter in spec/10_*.md. -/
def objects10 : List ObjRow := [
  ⟨0x4000, 1, 1024, 8, false, [
    ⟨1, 1, .bool, .rw, (.u 1), .any⟩,
    ⟨2, 1, .u8, .rw, (.u 0), (.ivl 0 5 1)⟩,
    ⟨3, 1, .bool, .rw, (.u 1), .any⟩,
    ⟨4, 1, .bool, .rw, (.u 1), .any⟩,
    ⟨5, 1, .u8, .rw, (.u 1), (.ivl 0 2 1)⟩,
    ⟨6, 1, .u8, .rw, (.u 1), (.ivl 1 5 1)⟩,
    ⟨7, 1, .u8, .rw, (.u 0), (.ivl 0 1 1)⟩,
    ⟨8, 1, .u8, .rw, (.u 0), (.mask 3)⟩]⟩,
  ⟨0x4001, 1, 1024, 10, false, [
    ⟨1, 1, .u8, .ro, (.u 0), .any⟩,
    ⟨2, 1, .u8, .ro, (.u 0), .any⟩,
    ⟨3, 1, .u8, .ro, (.u 0), .any⟩,
    ⟨4, 1, .u32, .ro, (.u 0), .any⟩,
    ⟨5, 1, .u32, .ro, (.u 0), .any⟩,
    ⟨6, 1, .u8, .ro, (.u 0), .any⟩,
    ⟨7, 1, .u8, .ro, (.u 0), .any⟩,
    ⟨8, 1, .u8, .ro, (.u 0), .any⟩,
    ⟨9, 1, (.octets 16), .ro, (.o (List.replicate 16 0)), .any⟩,
    ⟨10, 1, .bool, .ro, (.u 0), .any⟩]⟩,
  ⟨0x4002, 1, 1024, 6, false, [
    ⟨1, 1, .f32, .ro, (.f 0), .any⟩,
    ⟨2, 1, .f32, .ro, (.f 0), .any⟩,
    ⟨3, 1, .f32, .ro, (.f 0), .any⟩,
    ⟨4, 1, .f32, .ro, (.f 0), .any⟩,
    ⟨5, 1, (.octets 12), .ro, (.o (List.replicate 12 0)), .any⟩,
    ⟨6, 1, .u32, .ro, (.u 0), .any⟩]⟩,
  ⟨0x4003, 1, 1024, 9, false, [
    ⟨1, 1, .u8, .rw, (.u 0), (.ivl 0 8 1)⟩,
    ⟨2, 1, .u8, .rw, (.u 0), (.ivl 0 7 1)⟩,
    ⟨3, 1, .bool, .ro, (.u 0), .any⟩,
    ⟨4, 1, .u64, .ro, (.u 0), .any⟩,
    ⟨5, 1, .u64, .ro, (.u 0), .any⟩,
    ⟨6, 1, .u8, .rw, (.u 0), (.ivl 0 3 1)⟩,
    ⟨7, 1, .u32, .rw, (.u 1), (.ivl 1 4294967295 1)⟩,
    ⟨8, 1, .u8, .rw, (.u 6), (.ivl 3 12 1)⟩,
    ⟨9, 1, .u64, .ro, (.u 0), .any⟩]⟩,
  ⟨0x4004, 1, 1024, 0, true, [
    ⟨0, 1, .u8, .cmd, (.u 0), (.ivl 1 4 1)⟩]⟩,
  ⟨0x4010, 1, 32, 2, false, [
    ⟨1, 1, .u8, .rw, (.u 0), (.ivl 0 3 1)⟩,
    ⟨2, 1, .u8, .ro, (.u 0), .any⟩]⟩,
  ⟨0x4012, 1, 1, 8, false, [
    ⟨1, 1, .u32, .rw, (.u 0), (.ivl 0 1073741823 1)⟩,
    ⟨2, 1, .u16, .rw, (.u 2000), (.ivl 500 10000 1)⟩,
    ⟨3, 1, .u16, .rw, (.u 1000), (.ivl 100 10000 1)⟩,
    ⟨4, 1, .u16, .rw, (.u 50), (.ivl 10 1000 1)⟩,
    ⟨5, 1, .u16, .rw, (.u 10), (.ivl 1 1000 1)⟩,
    ⟨6, 1, .u16, .rw, (.u 10), (.ivl 1 600 1)⟩,
    ⟨7, 1, .i16, .rw, (.i 150), (.ivl 100 250 1)⟩,
    ⟨8, 1, .i16, .rw, (.i 190), (.ivl 140 300 1)⟩]⟩,
  ⟨0x4040, 1, 2048, 14, false, [
    ⟨1, 1, .u8, .rw, (.u 0), (.ivl 0 17 1)⟩,
    ⟨2, 1, .u16, .rw, (.u 0), (.ivl 0 1023 1)⟩,
    ⟨3, 1, .u32, .rw, (.u 0), (.mask 262142)⟩,
    ⟨4, 1, .u32, .rw, (.u 0), (.ivlOr 614400 200000000 0)⟩,
    ⟨5, 1, .u8, .rw, (.u 0), (.ivl 0 1 1)⟩,
    ⟨6, 1, .u8, .rw, (.u 0), (.ivl 0 1 1)⟩,
    ⟨7, 1, .u16, .rw, (.u 0), (.ivl 0 2047 1)⟩,
    ⟨8, 1, .u32, .rw, (.u 0), (.ivl 0 1073741823 1)⟩,
    ⟨9, 1, .u8, .ro, (.u 0), .any⟩,
    ⟨10, 1, .u8, .ro, (.u 0), .any⟩,
    ⟨11, 1, .u64, .ro, (.u 0), .any⟩,
    ⟨12, 1, .u64, .ro, (.u 0), .any⟩,
    ⟨13, 1, .f32, .ro, (.f 0), .any⟩,
    ⟨14, 1, .u64, .ro, (.u 0), .any⟩]⟩,
  ⟨0x4050, 1, 2048, 7, false, [
    ⟨1, 1, .u8, .rw, (.u 0), (.mask 255)⟩,
    ⟨2, 1, .u32, .rw, (.u 200), (.ivl 0 100000 1)⟩,
    ⟨3, 1, .u32, .rw, (.u 1000), (.ivl 0 100000 1)⟩,
    ⟨4, 1, .u16, .rw, (.u 9216), (.ivl 1518 16000 1)⟩,
    ⟨5, 1, .u32, .rw, (.u 65536), (.ivl 4096 4194304 1024)⟩,
    ⟨6, 1, .u32, .rw, (.u 32768), (.ivl 0 4193280 1024)⟩,
    ⟨7, 1, .u32, .ro, (.u 0), .any⟩]⟩,
  ⟨0x4051, 1, 2048, 19, false, [
    ⟨1, 8, .u32, .ro, (.u 0), .any⟩,
    ⟨9, 8, .u64, .ro, (.u 0), .any⟩,
    ⟨17, 1, .u64, .ro, (.u 0), .any⟩,
    ⟨18, 1, .u64, .ro, (.u 0), .any⟩,
    ⟨19, 1, .u64, .ro, (.u 0), .any⟩]⟩,
  ⟨0x4060, 1, 4, 3, false, [
    ⟨1, 1, .u32, .ro, (.u 33554432), .any⟩,
    ⟨2, 1, .u32, .ro, (.u 0), .any⟩,
    ⟨3, 1, .u32, .ro, (.u 0), .any⟩]⟩,
  ⟨0x4070, 1, 1, 0, true, [
    ⟨0, 1, .u8, .cmd, (.u 0), (.oneOf [1])⟩]⟩]

/-- The objects of the chapter in spec/11_*.md. -/
def objects11 : List ObjRow := [
  ⟨0x4100, 1, 2048, 8, false, [
    ⟨1, 1, .u8, .rws, (.u 255), (.ivlOr 0 63 255)⟩,
    ⟨2, 1, .u16, .rws, (.u 0), (.ivl 0 639 1)⟩,
    ⟨3, 1, .u16, .rws, (.u 0), (.ivl 0 640 1)⟩,
    ⟨4, 1, .u8, .rws, (.u 255), (.ivlOr 0 63 255)⟩,
    ⟨5, 1, .u16, .rws, (.u 0), (.ivl 0 639 1)⟩,
    ⟨6, 1, .u8, .rws, (.u 0), (.ivl 0 1 1)⟩,
    ⟨7, 1, .u16, .ro, (.u 0), .any⟩,
    ⟨8, 1, .u8, .ro, (.u 0), .any⟩]⟩,
  ⟨0x4101, 1, 2048, 6, false, [
    ⟨1, 1, .u8, .ro, (.u 0), .any⟩,
    ⟨2, 1, .u8, .ro, (.u 0), .any⟩,
    ⟨3, 1, .u32, .ro, (.u 0), .any⟩,
    ⟨4, 1, .u64, .ro, (.u 0), .any⟩,
    ⟨5, 1, .u64, .ro, (.u 0), .any⟩,
    ⟨6, 1, .u32, .ro, (.u 0), .any⟩]⟩,
  ⟨0x4200, 1, 2048, 6, false, [
    ⟨1, 1, .bool, .rw, (.u 0), .any⟩,
    ⟨2, 1, .u16, .rw, (.u 0), (.ivl 0 10000 100)⟩,
    ⟨3, 1, .u16, .rw, (.u 300), (.ivl 1 3600 1)⟩,
    ⟨4, 1, .u16, .rws, (.u 2000), (.ivl 100 20000 1)⟩,
    ⟨5, 1, .u16, .rw, (.u 100), (.ivl 1 10000 1)⟩,
    ⟨6, 1, .u8, .rw, (.u 0), (.ivl 0 1 1)⟩]⟩,
  ⟨0x4201, 1, 2048, 9, false, [
    ⟨1, 1, .u8, .ro, (.u 0), .any⟩,
    ⟨2, 1, .u8, .ro, (.u 0), .any⟩,
    ⟨3, 1, .u8, .ro, (.u 3), .any⟩,
    ⟨4, 1, .u8, .ro, (.u 3), .any⟩,
    ⟨5, 1, .i32, .ro, (.i 0), .any⟩,
    ⟨6, 1, .bool, .ro, (.u 0), .any⟩,
    ⟨7, 1, .u32, .ro, (.u 0), .any⟩,
    ⟨8, 1, .u32, .ro, (.u 0), .any⟩,
    ⟨9, 1, .u32, .ro, (.u 0), .any⟩]⟩,
  ⟨0x4202, 1, 2048, 0, true, [
    ⟨0, 1, .u8, .cmd, (.u 0), (.ivl 1 7 1)⟩]⟩,
  ⟨0x4210, 1, 1, 0, true, [
    ⟨0, 1, .u8, .cmd, (.u 0), (.oneOf [1])⟩]⟩]

/-- The objects of the chapter in spec/12_*.md. -/
def objects12 : List ObjRow := [
  ⟨0x4300, 1, 2048, 4, false, [
    ⟨1, 1, .bool, .rws, (.u 0), .any⟩,
    ⟨2, 1, .u8, .rws, (.u 0), (.ivl 0 1 1)⟩,
    ⟨3, 1, .u8, .rw, (.u 0), (.ivl 0 1 1)⟩,
    ⟨4, 1, .u8, .rw, (.u 8), (.ivl 2 24 1)⟩]⟩,
  ⟨0x4301, 1, 2048, 11, false, [
    ⟨1, 1, .u8, .ro, (.u 0), .any⟩,
    ⟨2, 1, .u8, .ro, (.u 0), .any⟩,
    ⟨3, 1, .u8, .ro, (.u 255), .any⟩,
    ⟨4, 1, .u8, .ro, (.u 255), .any⟩,
    ⟨5, 1, .u8, .ro, (.u 0), .any⟩,
    ⟨6, 1, .u8, .ro, (.u 0), .any⟩,
    ⟨7, 1, .u8, .ro, (.u 0), .any⟩,
    ⟨8, 1, .u64, .ro, (.u 0), .any⟩,
    ⟨9, 1, .u64, .ro, (.u 0), .any⟩,
    ⟨10, 1, .u64, .ro, (.u 0), .any⟩,
    ⟨11, 1, .f32, .ro, (.f 0), .any⟩]⟩,
  ⟨0x4302, 1, 2048, 0, true, [
    ⟨0, 1, .u8, .cmd, (.u 0), (.oneOf [1])⟩]⟩,
  ⟨0x4310, 1, 4096, 0, true, [
    ⟨0, 1, (.octets 40), .key, (.o []), .any⟩]⟩,
  ⟨0x4311, 1, 4096, 5, false, [
    ⟨1, 1, .u8, .ro, (.u 0), .any⟩,
    ⟨2, 1, (.octets 3), .ro, (.o (List.replicate 3 0)), .any⟩,
    ⟨3, 1, .u32, .ro, (.u 0), .any⟩,
    ⟨4, 1, (.octets 10), .ro, (.o (List.replicate 10 0)), .any⟩,
    ⟨5, 1, .u8, .ro, (.u 0), .any⟩]⟩,
  ⟨0x4312, 1, 4096, 0, true, [
    ⟨0, 1, .u8, .cmd, (.u 0), (.oneOf [1])⟩]⟩,
  ⟨0x4318, 1, 64, 0, true, [
    ⟨0, 1, (.octets 40), .key, (.o []), .any⟩]⟩,
  ⟨0x4319, 1, 64, 3, false, [
    ⟨1, 1, .u8, .ro, (.u 0), .any⟩,
    ⟨2, 1, (.octets 3), .ro, (.o (List.replicate 3 0)), .any⟩,
    ⟨3, 1, .u8, .rw, (.u 0), (.mask 3)⟩]⟩,
  ⟨0x431A, 1, 64, 0, true, [
    ⟨0, 1, .u8, .cmd, (.u 0), (.oneOf [1])⟩]⟩,
  ⟨0x4320, 1, 1, 5, false, [
    ⟨1, 1, (.octets 97), .ro, (.o []), .any⟩,
    ⟨2, 1, (.octets 97), .rw, (.o (List.replicate 97 0)), .any⟩,
    ⟨3, 1, (.octets 8), .ro, (.o (List.replicate 8 0)), .any⟩,
    ⟨4, 1, (.octets 97), .ro, (.o []), .any⟩,
    ⟨5, 1, .u32, .ro, (.u 0), .any⟩]⟩,
  ⟨0x4321, 1, 2048, 4, false, [
    ⟨1, 1, (.octets 97), .rw, (.o (List.replicate 97 0)), .any⟩,
    ⟨2, 1, .u8, .ro, (.u 0), .any⟩,
    ⟨3, 1, .u8, .ro, (.u 0), .any⟩,
    ⟨4, 1, .u16, .rw, (.u 1000), (.ivl 100 60000 1)⟩]⟩,
  ⟨0x4322, 1, 2048, 0, true, [
    ⟨0, 1, .u8, .cmd, (.u 0), (.oneOf [1, 2])⟩]⟩,
  ⟨0x4340, 1, 1, 7, false, [
    ⟨1, 1, .u8, .ro, (.u 255), .any⟩,
    ⟨2, 1, .u8, .rw, (.u 0), (.ivl 0 63 1)⟩,
    ⟨3, 1, .u8, .rw, (.u 0), (.ivl 0 1 1)⟩,
    ⟨4, 1, (.octets 16), .rw, (.o (List.replicate 16 0)), .any⟩,
    ⟨5, 1, .u16, .rw, (.u 10), (.ivl 1 3600 1)⟩,
    ⟨6, 1, .u64, .ro, (.u 0), .any⟩,
    ⟨7, 1, .u32, .ro, (.u 0), .any⟩]⟩,
  ⟨0x4341, 1, 1, 0, true, [
    ⟨0, 1, .u8, .cmd, (.u 0), (.ivl 1 3 1)⟩]⟩,
  ⟨0x4350, 1, 1, 0, true, [
    ⟨0, 1, .u8, .cmd, (.u 0), (.oneOf [1])⟩]⟩]

/-- The objects of the chapter in spec/13_*.md. -/
def objects13 : List ObjRow := [
  ⟨0x5000, 1, 2048, 20, false, [
    ⟨1, 1, .bool, .rws, (.u 0), .any⟩,
    ⟨2, 1, .u16, .rws, (.u 0), (.ivl 0 640 1)⟩,
    ⟨3, 1, .bool, .rw, (.u 1), .any⟩,
    ⟨4, 1, .u8, .rw, (.u 0), (.ivl 0 31 1)⟩,
    ⟨5, 1, .u16, .rw, (.u 32), (.ivl 1 1023 1)⟩,
    ⟨6, 1, .bool, .rw, (.u 1), .any⟩,
    ⟨7, 1, .bool, .rw, (.u 0), .any⟩,
    ⟨8, 1, .u8, .rw, (.u 60), (.ivl 10 200 1)⟩,
    ⟨9, 1, .u16, .rw, (.u 300), (.ivl 100 900 1)⟩,
    ⟨10, 1, .u8, .rw, (.u 24), (.ivl 0 64 1)⟩,
    ⟨11, 1, .u8, .rw, (.u 8), (.ivl 1 255 1)⟩,
    ⟨12, 1, .u16, .rw, (.u 256), (.ivl 8 65535 1)⟩,
    ⟨13, 1, .bool, .rws, (.u 0), .any⟩,
    ⟨14, 1, .i32, .rw, (.i 0), (.ivl (-20000) 20000 1)⟩,
    ⟨15, 1, .u16, .ro, (.u 0), .any⟩,
    ⟨16, 1, .u32, .ro, (.u 0), .any⟩,
    ⟨17, 1, .u16, .rw, (.u 64), (.ivl 16 4096 1)⟩,
    ⟨18, 1, .u8, .rw, (.u 4), (.ivl 1 32 1)⟩,
    ⟨19, 1, .u8, .rw, (.u 4), (.ivl 1 16 1)⟩,
    ⟨20, 1, .u8, .rw, (.u 8), (.ivl 2 64 1)⟩]⟩,
  ⟨0x5001, 1, 2048, 16, false, [
    ⟨1, 1, .u32, .ro, (.u 0), .any⟩,
    ⟨2, 1, .u64, .ro, (.u 0), .any⟩,
    ⟨3, 1, .u32, .ro, (.u 0), .any⟩,
    ⟨4, 1, .u32, .ro, (.u 0), .any⟩,
    ⟨5, 1, .u32, .ro, (.u 0), .any⟩,
    ⟨6, 1, .u32, .ro, (.u 0), .any⟩,
    ⟨7, 1, .u32, .ro, (.u 0), .any⟩,
    ⟨8, 1, .u32, .ro, (.u 0), .any⟩,
    ⟨9, 1, .u32, .ro, (.u 0), .any⟩,
    ⟨10, 1, .u32, .ro, (.u 0), .any⟩,
    ⟨11, 1, .u32, .ro, (.u 0), .any⟩,
    ⟨12, 1, .u32, .ro, (.u 0), .any⟩,
    ⟨13, 1, .u32, .ro, (.u 0), .any⟩,
    ⟨14, 1, .u64, .ro, (.u 0), .any⟩,
    ⟨15, 1, .u64, .ro, (.u 0), .any⟩,
    ⟨16, 1, .u64, .ro, (.u 0), .any⟩]⟩,
  ⟨0x5002, 1, 2048, 0, true, [
    ⟨0, 1, .u8, .cmd, (.u 0), (.oneOf [1])⟩]⟩,
  ⟨0x5003, 1, 2048, 3, false, [
    ⟨1, 1, .u8, .ro, (.u 0), .any⟩,
    ⟨2, 1, .u32, .ro, (.u 0), .any⟩,
    ⟨3, 1, .u64, .ro, (.u 0), .any⟩]⟩,
  ⟨0x5010, 1, 64, 4, false, [
    ⟨1, 1, .bool, .rw, (.u 0), .any⟩,
    ⟨2, 1, .u16, .rw, (.u 250), (.ivl 50 1200 1)⟩,
    ⟨3, 1, .u16, .rw, (.u 0), (.ivl 0 1200 1)⟩,
    ⟨4, 1, .u16, .rw, (.u 200), (.ivl 0 1200 1)⟩]⟩,
  ⟨0x5020, 1, 16, 3, false, [
    ⟨1, 1, .u16, .rw, (.u 65535), (.ivlOr 0 2047 65535)⟩,
    ⟨2, 1, .u64, .ro, (.u 0), .any⟩,
    ⟨3, 1, .u64, .ro, (.u 0), .any⟩]⟩,
  ⟨0x5030, 1, 1, 7, false, [
    ⟨1, 1, .u64, .ro, (.u 0), .any⟩,
    ⟨2, 1, .u8, .ro, (.u 0), .any⟩,
    ⟨3, 1, .u16, .ro, (.u 0), .any⟩,
    ⟨4, 1, .u16, .ro, (.u 0), .any⟩,
    ⟨5, 1, .f32, .ro, (.f 0), .any⟩,
    ⟨6, 1, .u16, .rw, (.u 8192), (.ivl 1024 8192 1)⟩,
    ⟨7, 1, .u32, .ro, (.u 0), .any⟩]⟩,
  ⟨0x5031, 1, 1, 0, true, [
    ⟨0, 1, .u8, .cmd, (.u 0), (.oneOf [1])⟩]⟩,
  ⟨0x5100, 1, 262144, 21, false, [
    ⟨1, 1, .bool, .rw, (.u 0), .any⟩,
    ⟨2, 1, (.octets 6), .rw, (.o (List.replicate 6 0)), .any⟩,
    ⟨3, 1, .u16, .rw, (.u 0), (.ivl 0 2047 1)⟩,
    ⟨4, 1, .u32, .rw, (.u 0), (.mask 16777215)⟩,
    ⟨5, 1, .u8, .rw, (.u 0), (.ivl 0 15 1)⟩,
    ⟨6, 1, .u8, .rw, (.u 0), (.ivl 0 255 1)⟩,
    ⟨7, 1, .u16, .rw, (.u 0), (.ivl 0 1023 1)⟩,
    ⟨8, 1, .u16, .rw, (.u 0), (.ivl 0 1023 1)⟩,
    ⟨9, 1, .u8, .rw, (.u 0), (.ivl 0 255 1)⟩,
    ⟨10, 1, .u32, .rw, (.u 0), (.ivl 0 1600000 1)⟩,
    ⟨11, 1, .u8, .rw, (.u 0), (.ivl 0 1 1)⟩,
    ⟨12, 1, .u8, .ro, (.u 0), .any⟩,
    ⟨13, 1, .i32, .ro, (.i 0), .any⟩,
    ⟨14, 1, .f32, .ro, (.f 0), .any⟩,
    ⟨15, 1, .u32, .ro, (.u 0), .any⟩,
    ⟨16, 1, .u64, .ro, (.u 0), .any⟩,
    ⟨17, 1, .u32, .ro, (.u 0), .any⟩,
    ⟨18, 1, .u32, .ro, (.u 0), .any⟩,
    ⟨19, 1, .u64, .ro, (.u 0), .any⟩,
    ⟨20, 1, .u32, .ro, (.u 0), .any⟩,
    ⟨21, 1, .u32, .ro, (.u 0), .any⟩]⟩,
  ⟨0x5101, 1, 262144, 0, true, [
    ⟨0, 1, (.block 1024), .ro, (.o []), .any⟩]⟩,
  ⟨0x5102, 1, 262144, 0, true, [
    ⟨0, 1, (.block 272), .rw, (.o []), .any⟩]⟩,
  ⟨0x5103, 1, 262144, 0, true, [
    ⟨0, 1, .u8, .cmd, (.u 0), (.oneOf [1, 2])⟩]⟩,
  ⟨0x5200, 1, 262144, 9, false, [
    ⟨1, 1, .u32, .rw, (.u 1048576), (.ivl 4096 268435456 4096)⟩,
    ⟨2, 1, .u32, .ro, (.u 0), .any⟩,
    ⟨3, 1, .u32, .ro, (.u 0), .any⟩,
    ⟨4, 1, .u64, .ro, (.u 0), .any⟩,
    ⟨5, 1, .u64, .ro, (.u 0), .any⟩,
    ⟨6, 1, .u32, .ro, (.u 0), .any⟩,
    ⟨7, 1, .u32, .ro, (.u 0), .any⟩,
    ⟨8, 1, .u64, .ro, (.u 0), .any⟩,
    ⟨9, 1, .u64, .ro, (.u 0), .any⟩]⟩,
  ⟨0x5201, 1, 262144, 0, true, [
    ⟨0, 1, .u8, .cmd, (.u 0), (.oneOf [1])⟩]⟩,
  ⟨0x5210, 1, 1, 4, false, [
    ⟨1, 1, .u32, .ro, (.u 0), .any⟩,
    ⟨2, 1, .u32, .ro, (.u 0), .any⟩,
    ⟨3, 1, .u32, .ro, (.u 0), .any⟩,
    ⟨4, 1, .u64, .ro, (.u 0), .any⟩]⟩]

/-- The objects of the chapter in spec/14_*.md. -/
def objects14 : List ObjRow := [
  ⟨0x6000, 1, 1, 12, false, [
    ⟨1, 1, .u8, .rw, (.u 16), (.ivl 8 64 1)⟩,
    ⟨2, 1, .u8, .ro, (.u 0), .any⟩,
    ⟨3, 1, .u16, .rw, (.u 60), (.ivl 10 3600 1)⟩,
    ⟨4, 1, .u8, .rw, (.u 3), (.ivl 1 7 1)⟩,
    ⟨5, 1, .u64, .ro, (.u 0), .any⟩,
    ⟨6, 1, .u64, .ro, (.u 0), .any⟩,
    ⟨7, 1, .u64, .ro, (.u 0), .any⟩,
    ⟨8, 1, .u32, .ro, (.u 0), .any⟩,
    ⟨9, 1, .u32, .ro, (.u 0), .any⟩,
    ⟨10, 1, .u32, .ro, (.u 0), .any⟩,
    ⟨11, 1, .u64, .ro, (.u 0), .any⟩,
    ⟨12, 1, .u32, .ro, (.u 0), .any⟩]⟩,
  ⟨0x6001, 1, 4, 7, false, [
    ⟨1, 1, .u32, .rw, (.u 1048576), (.ivl 0 2097152 1)⟩,
    ⟨2, 1, .u32, .ro, (.u 0), .any⟩,
    ⟨3, 1, .u32, .ro, (.u 65536), .any⟩,
    ⟨4, 1, .u32, .ro, (.u 0), .any⟩,
    ⟨5, 1, .u8, .ro, (.u 0), .any⟩,
    ⟨6, 1, .u32, .ro, (.u 0), .any⟩,
    ⟨7, 1, .f32, .ro, (.f 0), .any⟩]⟩,
  ⟨0x6002, 1, 1, 0, true, [
    ⟨0, 1, (.block 65536), .ro, (.o []), .any⟩]⟩,
  ⟨0x6003, 1, 1, 2, false, [
    ⟨1, 1, .u16, .ro, (.u 0), .any⟩,
    ⟨2, 1, .u32, .ro, (.u 0), .any⟩]⟩,
  ⟨0x6004, 1, 1, 2, false, [
    ⟨1, 1, .u32, .rw, (.u 0), .any⟩,
    ⟨2, 1, .u8, .rw, (.u 0), (.ivl 0 37 1)⟩]⟩,
  ⟨0x6005, 1, 1, 0, true, [
    ⟨0, 1, .u8, .cmd, (.u 0), (.ivl 1 5 1)⟩]⟩,
  ⟨0x6006, 1, 1, 0, true, [
    ⟨0, 1, (.block 32768), .ro, (.o []), .any⟩]⟩,
  ⟨0x6010, 1, 38, 8, false, [
    ⟨1, 1, .u8, .ro, (.u 0), .any⟩,
    ⟨2, 1, .u8, .rw, (.u 0), (.ivl 0 4 1)⟩,
    ⟨3, 1, .u32, .rw, (.u 0), (.ivl 0 1048575 1)⟩,
    ⟨4, 1, .bool, .rw, (.u 0), .any⟩,
    ⟨5, 1, .bool, .ro, (.u 0), .any⟩,
    ⟨6, 1, .u64, .ro, (.u 0), .any⟩,
    ⟨7, 1, .u64, .ro, (.u 0), .any⟩,
    ⟨8, 1, .u32, .ro, (.u 0), .any⟩]⟩,
  ⟨0x6011, 1, 32, 0, true, [
    ⟨0, 1, (.block 4096), .ro, (.o []), .any⟩]⟩,
  ⟨0x6012, 1, 1, 4, false, [
    ⟨1, 1, .u32, .rw, (.u 0), .any⟩,
    ⟨2, 1, .u8, .ro, (.u 0), .any⟩,
    ⟨3, 1, .u8, .ro, (.u 0), .any⟩,
    ⟨4, 1, .u8, .ro, (.u 0), .any⟩]⟩,
  ⟨0x6013, 1, 1, 0, true, [
    ⟨0, 1, (.block 4096), .ro, (.o []), .any⟩]⟩,
  ⟨0x6100, 1, 32, 13, false, [
    ⟨1, 1, .u8, .rw, (.u 0), (.ivl 0 6 1)⟩,
    ⟨2, 1, .u16, .rw, (.u 0), (.ivl 0 63 1)⟩,
    ⟨3, 1, .u32, .rw, (.u 0), .any⟩,
    ⟨4, 1, .u32, .rw, (.u 0), .any⟩,
    ⟨5, 1, .u8, .rw, (.u 0), (.ivl 0 31 1)⟩,
    ⟨6, 1, .u32, .rw, (.u 0), .any⟩,
    ⟨7, 1, .u32, .rw, (.u 0), .any⟩,
    ⟨8, 1, .u8, .rw, (.u 0), (.ivl 0 1 1)⟩,
    ⟨9, 1, .u8, .rw, (.u 0), (.ivl 0 1 1)⟩,
    ⟨10, 1, .u8, .rw, (.u 1), (.ivl 1 3 1)⟩,
    ⟨11, 1, .u16, .rw, (.u 0), .any⟩,
    ⟨12, 1, .u16, .rw, (.u 1), (.ivl 1 65535 1)⟩,
    ⟨13, 1, .u16, .rw, (.u 64), (.ivl 16 4096 1)⟩]⟩,
  ⟨0x6101, 1, 32, 8, false, [
    ⟨1, 1, .u8, .ro, (.u 0), .any⟩,
    ⟨2, 1, .u8, .ro, (.u 0), .any⟩,
    ⟨3, 1, .u64, .ro, (.u 0), .any⟩,
    ⟨4, 1, .u32, .ro, (.u 0), .any⟩,
    ⟨5, 1, .u64, .ro, (.u 0), .any⟩,
    ⟨6, 1, .u32, .ro, (.u 0), .any⟩,
    ⟨7, 1, .u64, .ro, (.u 0), .any⟩,
    ⟨8, 1, .u32, .ro, (.u 0), .any⟩]⟩,
  ⟨0x6102, 1, 32, 0, true, [
    ⟨0, 1, .u8, .cmd, (.u 0), (.ivl 1 4 1)⟩]⟩]

/-- The objects of the chapter in spec/15_*.md. -/
def objects15 : List ObjRow := [
  ⟨0x7000, 1, 4, 9, false, [
    ⟨1, 1, .bool, .rw, (.u 0), .any⟩,
    ⟨2, 1, .u16, .rw, (.u 300), (.ivl 0 3600 1)⟩,
    ⟨3, 1, .u16, .rw, (.u 10), (.ivl 1 600 1)⟩,
    ⟨4, 1, .u32, .rw, (.u 4600), (.ivl 100 50000 1)⟩,
    ⟨5, 1, .u16, .rw, (.u 100), (.ivl 1 10000 1)⟩,
    ⟨6, 1, .u16, .rw, (.u 100), (.ivl 1 1000 1)⟩,
    ⟨7, 1, .u32, .rw, (.u 86400), (.ivl 60 2592000 1)⟩,
    ⟨8, 1, .bool, .rw, (.u 0), .any⟩,
    ⟨9, 1, .i32, .rw, (.i 0), (.ivl (-95000000) 95000000 1)⟩]⟩,
  ⟨0x7001, 1, 4, 11, false, [
    ⟨1, 1, .u8, .ro, (.u 0), .any⟩,
    ⟨2, 1, .u8, .ro, (.u 255), .any⟩,
    ⟨3, 1, .i32, .ro, (.i 0), .any⟩,
    ⟨4, 1, .i32, .ro, (.i 0), .any⟩,
    ⟨5, 1, .u16, .ro, (.u 0), .any⟩,
    ⟨6, 1, .bool, .ro, (.u 0), .any⟩,
    ⟨7, 1, .u32, .ro, (.u 0), .any⟩,
    ⟨8, 1, .u32, .ro, (.u 0), .any⟩,
    ⟨9, 1, .u32, .ro, (.u 0), .any⟩,
    ⟨10, 1, .u8, .ro, (.u 0), .any⟩,
    ⟨11, 1, .i32, .ro, (.i 0), .any⟩]⟩,
  ⟨0x7002, 1, 4, 0, true, [
    ⟨0, 1, .u8, .cmd, (.u 0), (.ivl 1 3 1)⟩]⟩,
  ⟨0x7010, 16, 4, 10, false, [
    ⟨1, 1, .u16, .rw, (.u 0), .any⟩,
    ⟨2, 1, .u8, .rw, (.u 0), (.ivl 0 15 1)⟩,
    ⟨3, 1, .u32, .rw, (.u 9200), (.ivl 10 95000 1)⟩,
    ⟨4, 1, .u32, .rw, (.u 12000), (.ivl 10 95000 1)⟩,
    ⟨5, 1, .u8, .ro, (.u 0), .any⟩,
    ⟨6, 1, .u8, .ro, (.u 0), .any⟩,
    ⟨7, 1, .i32, .ro, (.i 0), .any⟩,
    ⟨8, 1, .i32, .ro, (.i 0), .any⟩,
    ⟨9, 1, .u8, .ro, (.u 0), .any⟩,
    ⟨10, 1, .u32, .ro, (.u 0), .any⟩]⟩,
  ⟨0x7020, 1, 4, 3, false, [
    ⟨1, 1, .u32, .rw, (.u 10000000), (.ivl 1 800000000 1)⟩,
    ⟨2, 1, .bool, .ro, (.u 0), .any⟩,
    ⟨3, 1, .i32, .ro, (.i 0), .any⟩]⟩,
  ⟨0x7021, 1, 1, 2, false, [
    ⟨1, 1, .bool, .ro, (.u 0), .any⟩,
    ⟨2, 1, .u32, .ro, (.u 0), .any⟩]⟩,
  ⟨0x7030, 1, 8, 1, false, [
    ⟨1, 1, .u8, .rw, (.u 0), (.ivl 0 3 1)⟩]⟩,
  ⟨0x7040, 1, 1, 9, false, [
    ⟨1, 1, (.octets 10), .ro, (.o []), .any⟩,
    ⟨2, 1, (.octets 10), .rw, (.o (List.replicate 10 0)), .any⟩,
    ⟨3, 1, .i32, .rw, (.i 0), (.ivl (-1000000000) 1000000000 1)⟩,
    ⟨4, 1, .u16, .rw, (.u 1000), (.ivl 1 10000 1)⟩,
    ⟨5, 1, .u32, .ro, (.u 0), .any⟩,
    ⟨6, 1, .i32, .ro, (.i 0), .any⟩,
    ⟨7, 1, .bool, .rw, (.u 0), .any⟩,
    ⟨8, 1, .i32, .ro, (.i 0), .any⟩,
    ⟨9, 1, .i32, .rw, (.i 0), (.ivl (-100000) 100000 1)⟩]⟩,
  ⟨0x7041, 1, 1, 0, true, [
    ⟨0, 1, .u8, .cmd, (.u 0), (.ivl 1 3 1)⟩]⟩,
  ⟨0x7050, 1, 8, 8, false, [
    ⟨1, 1, .bool, .rw, (.u 0), .any⟩,
    ⟨2, 1, .u8, .rw, (.u 0), (.ivl 0 3 1)⟩,
    ⟨3, 1, .u32, .rw, (.u 8000), (.ivl 1 8000 1)⟩,
    ⟨4, 1, .u32, .rw, (.u 0), (.ivl 0 999999999 1)⟩,
    ⟨5, 1, .u32, .rw, (.u 100), (.ivl 8 500000000 1)⟩,
    ⟨6, 1, .u8, .rw, (.u 1), (.ivl 1 100 1)⟩,
    ⟨7, 1, .i32, .ro, (.i 0), .any⟩,
    ⟨8, 1, .bool, .ro, (.u 0), .any⟩]⟩,
  ⟨0x7051, 1, 8, 0, true, [
    ⟨0, 1, .u8, .cmd, (.u 0), (.oneOf [1])⟩]⟩,
  ⟨0x7060, 1, 1, 0, true, [
    ⟨0, 1, .u8, .cmd, (.u 0), (.oneOf [1])⟩]⟩]

/-- The objects of the chapter in spec/16_*.md. -/
def objects16 : List ObjRow := [
  ⟨0x7100, 1, 9, 5, false, [
    ⟨1, 1, .u8, .rw, (.u 3), (.ivl 0 16 1)⟩,
    ⟨2, 1, .f32, .ro, (.f 0), .any⟩,
    ⟨3, 1, .u32, .ro, (.u 0), .any⟩,
    ⟨4, 1, .bool, .ro, (.u 0), .any⟩,
    ⟨5, 1, .bool, .ro, (.u 0), .any⟩]⟩,
  ⟨0x7101, 1, 144, 8, false, [
    ⟨1, 1, .u8, .rw, (.u 0), .any⟩,
    ⟨2, 1, .u8, .rw, (.u 3), (.ivl 1 128 1)⟩,
    ⟨3, 1, .u8, .rw, (.u 0), (.ivl 0 3 1)⟩,
    ⟨4, 1, .u16, .ro, (.u 0), .any⟩,
    ⟨5, 1, .f32, .ro, (.f 0), .any⟩,
    ⟨6, 1, .f32, .ro, (.f 0), .any⟩,
    ⟨7, 1, .f32, .ro, (.f 0), .any⟩,
    ⟨8, 1, (.octets 10), .ro, (.o (List.replicate 10 0)), .any⟩]⟩,
  ⟨0x7102, 1, 9, 7, false, [
    ⟨1, 1, .u8, .rw, (.u 0), .any⟩,
    ⟨2, 1, .u8, .rw, (.u 3), (.ivl 1 128 1)⟩,
    ⟨3, 1, .u8, .rw, (.u 0), (.ivl 0 3 1)⟩,
    ⟨4, 1, .u16, .ro, (.u 0), .any⟩,
    ⟨5, 1, .f32, .ro, (.f 0), .any⟩,
    ⟨6, 1, (.octets 10), .ro, (.o (List.replicate 10 0)), .any⟩,
    ⟨7, 1, .u32, .ro, (.u 0), .any⟩]⟩,
  ⟨0x7103, 1, 9, 0, true, [
    ⟨0, 1, .u8, .cmd, (.u 0), (.oneOf [1])⟩]⟩,
  ⟨0x7104, 1, 1, 0, true, [
    ⟨0, 1, .u8, .cmd, (.u 0), (.oneOf [1])⟩]⟩,
  ⟨0x7200, 1, 8192, 7, false, [
    ⟨1, 1, .u32, .rw, (.u 0), .any⟩,
    ⟨2, 1, .u32, .rw, (.u 0), .any⟩,
    ⟨3, 1, .u64, .ro, (.u 0), .any⟩,
    ⟨4, 1, .u64, .ro, (.u 0), .any⟩,
    ⟨5, 1, .u64, .ro, (.u 0), .any⟩,
    ⟨6, 1, .bool, .ro, (.u 0), .any⟩,
    ⟨7, 1, .bool, .ro, (.u 0), .any⟩]⟩,
  ⟨0x7201, 1, 1, 0, true, [
    ⟨0, 1, .u8, .cmd, (.u 0), (.ivl 1 4 1)⟩]⟩,
  ⟨0x7202, 1, 1, 5, false, [
    ⟨1, 1, .bool, .ro, (.u 0), .any⟩,
    ⟨2, 1, (.octets 10), .ro, (.o (List.replicate 10 0)), .any⟩,
    ⟨3, 1, .u32, .ro, (.u 0), .any⟩,
    ⟨4, 1, .u64, .ro, (.u 0), .any⟩,
    ⟨5, 1, .u16, .ro, (.u 0), .any⟩]⟩,
  ⟨0x7203, 1, 1, 0, true, [
    ⟨0, 1, (.block 49152), .ro, (.o []), .any⟩]⟩,
  ⟨0x7204, 1, 1, 0, true, [
    ⟨0, 1, (.block 49152), .ro, (.o []), .any⟩]⟩,
  ⟨0x7210, 1, 64, 5, false, [
    ⟨1, 1, .u32, .rw, (.u 0), .any⟩,
    ⟨2, 1, .u16, .rw, (.u 100), (.ivl 1 1000 1)⟩,
    ⟨3, 1, .f32, .ro, (.f 0), .any⟩,
    ⟨4, 1, .f32, .ro, (.f 0), .any⟩,
    ⟨5, 1, .f32, .ro, (.f 0), .any⟩]⟩,
  ⟨0x7300, 1, 8, 9, false, [
    ⟨1, 1, .bool, .rw, (.u 0), .any⟩,
    ⟨2, 1, .u8, .rw, (.u 255), (.mask 255)⟩,
    ⟨3, 1, .u8, .rw, (.u 0), (.ivl 0 10 1)⟩,
    ⟨4, 1, .u32, .rw, (.u 50000), (.ivl 1000 10000000 1)⟩,
    ⟨5, 1, .u16, .rw, (.u 5), (.ivl 1 1000 1)⟩,
    ⟨6, 1, .u8, .rw, (.u 3), (.ivl 1 8 1)⟩,
    ⟨7, 1, .u16, .rw, (.u 3), (.ivl 1 1000 1)⟩,
    ⟨8, 1, .u16, .rw, (.u 60), (.ivl 1 3600 1)⟩,
    ⟨9, 1, .u32, .rw, (.u 600), (.ivl 1 86400 1)⟩]⟩,
  ⟨0x7301, 1, 8, 6, false, [
    ⟨1, 1, .u8, .ro, (.u 0), .any⟩,
    ⟨2, 1, .u32, .ro, (.u 0), .any⟩,
    ⟨3, 1, .u64, .ro, (.u 0), .any⟩,
    ⟨4, 1, (.octets 10), .ro, (.o (List.replicate 10 0)), .any⟩,
    ⟨5, 1, .bool, .ro, (.u 0), .any⟩,
    ⟨6, 1, .f32, .ro, (.f 0), .any⟩]⟩,
  ⟨0x7310, 1, 8, 0, true, [
    ⟨0, 1, (.block 8192), .ro, (.o []), .any⟩]⟩,
  ⟨0x7311, 1, 1, 0, true, [
    ⟨0, 1, .u8, .cmd, (.u 0), (.oneOf [1])⟩]⟩]

/-- The objects of the chapter in spec/17_*.md. -/
def objects17 : List ObjRow := [
  ⟨0x2030, 1, 112, 4, false, [
    ⟨1, 1, .u8, .ro, (.u 0), .any⟩,
    ⟨2, 1, .bool, .rw, (.u 1), .any⟩,
    ⟨3, 1, .u32, .ro, (.u 0), .any⟩,
    ⟨4, 1, .u32, .ro, (.u 0), .any⟩]⟩,
  ⟨0x2031, 1, 112, 0, true, [
    ⟨0, 1, .u8, .cmd, (.u 0), (.oneOf [1, 2])⟩]⟩,
  ⟨0x2200, 1, 1, 6, false, [
    ⟨1, 1, .u16, .ro, (.u 0), .any⟩,
    ⟨2, 1, .u8, .ro, (.u 0), .any⟩,
    ⟨3, 1, .u32, .ro, (.u 0), .any⟩,
    ⟨4, 1, .u16, .ro, (.u 0), .any⟩,
    ⟨5, 1, .u32, .ro, (.u 1), .any⟩,
    ⟨6, 1, .u32, .ro, (.u 0), .any⟩]⟩,
  ⟨0x2201, 1, 1, 0, true, [
    ⟨0, 1, (.block 163840), .ro, (.o []), .any⟩]⟩,
  ⟨0x2202, 1, 1, 2, false, [
    ⟨1, 1, .u16, .rw, (.u 0), (.ivlOr 0 0x9FFF 65534)⟩,
    ⟨2, 1, .u32, .rw, (.u 0), (.ivl 0 262143 1)⟩]⟩,
  ⟨0x2203, 1, 1, 0, true, [
    ⟨0, 1, .u8, .cmd, (.u 0), (.ivl 1 3 1)⟩]⟩,
  ⟨0x2210, 1, 40960, 4, false, [
    ⟨1, 1, .u8, .ro, (.u 0), .any⟩,
    ⟨2, 1, .bool, .ro, (.u 0), .any⟩,
    ⟨3, 1, .u32, .ro, (.u 0), .any⟩,
    ⟨4, 1, .bool, .ro, (.u 0), .any⟩]⟩,
  ⟨0x2211, 1, 262144, 4, false, [
    ⟨1, 4, .u8, .ro, (.u 0), .any⟩]⟩,
  ⟨0x2220, 1, 8, 10, false, [
    ⟨1, 1, .u16, .rw, (.u 0), (.ivlOr 0 0x9FFF 65534)⟩,
    ⟨2, 1, .u32, .rw, (.u 0), (.ivl 0 262143 1)⟩,
    ⟨3, 1, .u8, .rw, (.u 1), (.ivl 1 3 1)⟩,
    ⟨4, 1, .u8, .rw, (.u 0), (.ivl 0 1 1)⟩,
    ⟨5, 1, .u32, .rw, (.u 1000), (.ivl 1 10000000 1)⟩,
    ⟨6, 1, .u32, .rw, (.u 100), (.ivl 1 3600000 1)⟩,
    ⟨7, 1, .u32, .rw, (.u 1), (.ivl 1 4294967295 1)⟩,
    ⟨8, 1, .u32, .rw, (.u 0), .any⟩,
    ⟨9, 1, .u8, .ro, (.u 0), .any⟩,
    ⟨10, 1, .u32, .ro, (.u 0), .any⟩]⟩,
  ⟨0x2221, 1, 8, 0, true, [
    ⟨0, 1, .u8, .cmd, (.u 0), (.oneOf [1, 2])⟩]⟩]

/-- Every object of the dictionary (R506). -/
def objectTable : List ObjRow := objects01 ++ objects02 ++ objects03 ++ objects04 ++ objects05 ++ objects06 ++ objects07 ++ objects08 ++ objects09 ++ objects10 ++ objects11 ++ objects12 ++ objects13 ++ objects14 ++ objects15 ++ objects16 ++ objects17

end Sys2Proof.Machine
end

