-- ==== Sys2Proof/Machine/ObjNames.lean ====
section
/-! DEFINITION. The names of the dictionary's objects: one key per sub, as the object tables of the spec name them. -/

namespace Sys2Proof.Machine

/-- `TxFill`, 2040h[x].1 (U32, RO; R40). -/
def Od.txFill (x : Nat) : Nat := odKey 0x2040 x 1
/-- `TxHighWater`, 2040h[x].2 (U32, RO; R40). -/
def Od.txHighWater (x : Nat) : Nat := odKey 0x2040 x 2
/-- `TxUnderruns`, 2040h[x].3 (U32, RO; R40). -/
def Od.txUnderruns (x : Nat) : Nat := odKey 0x2040 x 3
/-- `RxFill`, 2040h[x].4 (U32, RO; R40). -/
def Od.rxFill (x : Nat) : Nat := odKey 0x2040 x 4
/-- `RxHighWater`, 2040h[x].5 (U32, RO; R40). -/
def Od.rxHighWater (x : Nat) : Nat := odKey 0x2040 x 5
/-- `RxOverruns`, 2040h[x].6 (U32, RO; R40). -/
def Od.rxOverruns (x : Nat) : Nat := odKey 0x2040 x 6
/-- `IngressFill`, 2041h[x].1 (U32, RO; R40). -/
def Od.ingressFill (x : Nat) : Nat := odKey 0x2041 x 1
/-- `IngressHighWater`, 2041h[x].2 (U32, RO; R40). -/
def Od.ingressHighWater (x : Nat) : Nat := odKey 0x2041 x 2
/-- `IngressSlips`, 2041h[x].3 (U32, RO; R40). -/
def Od.ingressSlips (x : Nat) : Nat := odKey 0x2041 x 3
/-- `EgressFill`, 2041h[x].4 (U32, RO; R40). -/
def Od.egressFill (x : Nat) : Nat := odKey 0x2041 x 4
/-- `EgressHighWater`, 2041h[x].5 (U32, RO; R40). -/
def Od.egressHighWater (x : Nat) : Nat := odKey 0x2041 x 5
/-- `EgressSlips`, 2041h[x].6 (U32, RO; R40). -/
def Od.egressSlips (x : Nat) : Nat := odKey 0x2041 x 6
/-- `LatencyCycles`, 2042h.1 (U16, RO; R40). -/
def Od.latencyCycles : Nat := odKey 0x2042 0 1
/-- `CorrectedWords`, 2042h.2 (U64, RO; R40). -/
def Od.correctedWords : Nat := odKey 0x2042 0 2
/-- `UncorrectedWords`, 2042h.3 (U64, RO; R40). -/
def Od.uncorrectedWords : Nat := odKey 0x2042 0 3
/-- `RequestFill`, 2043h[x].1 (U16, RO; R40). -/
def Od.requestFill (x : Nat) : Nat := odKey 0x2043 x 1
/-- `RequestHighWater`, 2043h[x].2 (U16, RO; R40). -/
def Od.requestHighWater (x : Nat) : Nat := odKey 0x2043 x 2
/-- `ReadLatencyMean`, 2043h[x].3 (U32, RO; R40). -/
def Od.readLatencyMean (x : Nat) : Nat := odKey 0x2043 x 3
/-- `ReadLatencyMax`, 2043h[x].4 (U32, RO; R40). -/
def Od.readLatencyMax (x : Nat) : Nat := odKey 0x2043 x 4
/-- `ClearCrossingMarks`, 2044h (U8, CMD; R40). -/
def Od.clearCrossingMarks : Nat := odKey 0x2044 0 0
/-- `VinVolts`, 2010h.1 (F32, RO; R70). -/
def Od.vinVolts : Nat := odKey 0x2010 0 1
/-- `VinAmps`, 2010h.2 (F32, RO; R70). -/
def Od.vinAmps : Nat := odKey 0x2010 0 2
/-- `VinWatts`, 2010h.3 (F32, RO; R70). -/
def Od.vinWatts : Nat := odKey 0x2010 0 3
/-- `VinPeakWatts`, 2010h.4 (F32, RO; R70). -/
def Od.vinPeakWatts : Nat := odKey 0x2010 0 4
/-- `AuxVolts`, 2010h.5 (F32, RO; R70). -/
def Od.auxVolts : Nat := odKey 0x2010 0 5
/-- `AuxWatts`, 2010h.6 (F32, RO; R70). -/
def Od.auxWatts : Nat := odKey 0x2010 0 6
/-- `LoadWatts`, 2011h[x].1 (F32, RO; R70). -/
def Od.loadWatts (x : Nat) : Nat := odKey 0x2011 x 1
/-- `PeakWatts`, 2011h[x].2 (F32, RO; R70). -/
def Od.peakWatts (x : Nat) : Nat := odKey 0x2011 x 2
/-- `JunctionNow`, 2020h[x].1 (F32, RO; R70). -/
def Od.junctionNow (x : Nat) : Nat := odKey 0x2020 x 1
/-- `JunctionPeak`, 2020h[x].2 (F32, RO; R70). -/
def Od.junctionPeak (x : Nat) : Nat := odKey 0x2020 x 2
/-- `LidSensor1–4`, 2021h.1–4 (F32, RO; R70). -/
def Od.lidSensor (j : Nat) : Nat := odKey 0x2021 0 (1 + j)
/-- `CaseNow`, 2021h.5 (F32, RO; R70). -/
def Od.caseNow : Nat := odKey 0x2021 0 5
/-- `CasePeak`, 2021h.6 (F32, RO; R70). -/
def Od.casePeak : Nat := odKey 0x2021 0 6
/-- `WarnJunction`, 2022h.1 (U8, RW; R70). -/
def Od.warnJunction : Nat := odKey 0x2022 0 1
/-- `SafeJunction`, 2022h.2 (U8, RW; R70). -/
def Od.safeJunction : Nat := odKey 0x2022 0 2
/-- `SafeCase`, 2022h.3 (U8, RW; R70). -/
def Od.safeCase : Nat := odKey 0x2022 0 3
/-- `PowerLimit`, 2022h.4 (U16, RW; R70). -/
def Od.powerLimit : Nat := odKey 0x2022 0 4
/-- `Hysteresis`, 2022h.5 (U8, RW; R70). -/
def Od.hysteresis : Nat := odKey 0x2022 0 5
/-- `GraceTime`, 2022h.6 (U32, RW; R70). -/
def Od.graceTime : Nat := odKey 0x2022 0 6
/-- `ShedInterval`, 2022h.7 (U16, RW; R70). -/
def Od.shedInterval : Nat := odKey 0x2022 0 7
/-- `ExitHold`, 2022h.8 (U32, RW; R70). -/
def Od.exitHold : Nat := odKey 0x2022 0 8
/-- `ShedEntry1–64`, 2023h.1–64 (U8, RW; R70). -/
def Od.shedEntry (j : Nat) : Nat := odKey 0x2023 0 (1 + j)
/-- `SafeCauses`, 2024h.1 (U8, RO; R70). -/
def Od.safeCauses : Nat := odKey 0x2024 0 1
/-- `GraceElapsed`, 2024h.2 (U32, RO; R70). -/
def Od.graceElapsed : Nat := odKey 0x2024 0 2
/-- `ShedCount`, 2024h.3 (U8, RO; R70). -/
def Od.shedCount : Nat := odKey 0x2024 0 3
/-- `SafeEntries`, 2024h.4 (U32, RO; R70). -/
def Od.safeEntries : Nat := odKey 0x2024 0 4
/-- `ClearThermalPeaks`, 2025h (U8, CMD; R70). -/
def Od.clearThermalPeaks : Nat := odKey 0x2025 0 0
/-- `ModuleState`, 2000h.1 (U8, RO; R91). -/
def Od.moduleState : Nat := odKey 0x2000 0 1
/-- `StateBeforeSafe`, 2000h.2 (U8, RO; R91). -/
def Od.stateBeforeSafe : Nat := odKey 0x2000 0 2
/-- `StateMillis`, 2000h.3 (U32, RO; R91). -/
def Od.stateMillis : Nat := odKey 0x2000 0 3
/-- `ResetCommand`, 2001h (U8, CMD; R91). -/
def Od.resetCommand : Nat := odKey 0x2001 0 0
/-- `EngineReset`, 2002h[x] (U8, CMD; R91). -/
def Od.engineReset (x : Nat) : Nat := odKey 0x2002 x 0
/-- `LaneGroupReset`, 2003h[x] (U8, CMD; R91). -/
def Od.laneGroupReset (x : Nat) : Nat := odKey 0x2003 x 0
/-- `LastResetCause`, 2004h.1 (U8, RO; R91). -/
def Od.lastResetCause : Nat := odKey 0x2004 0 1
/-- `LastResetTime`, 2004h.2 (OCTETS, RO; R91). -/
def Od.lastResetTime : Nat := odKey 0x2004 0 2
/-- `BootCount`, 2004h.3 (U32, RO; R91). -/
def Od.bootCount : Nat := odKey 0x2004 0 3
/-- `MgmtResets`, 2004h.4 (U32, RO; R91). -/
def Od.mgmtResets : Nat := odKey 0x2004 0 4
/-- `RunningSlot`, 2005h.1 (U8, RO; R91). -/
def Od.runningSlot : Nat := odKey 0x2005 0 1
/-- `BootResult`, 2005h.2 (U8, RO; R91). -/
def Od.bootResult : Nat := odKey 0x2005 0 2
/-- `BootMillis`, 2005h.3 (U32, RO; R91). -/
def Od.bootMillis : Nat := odKey 0x2005 0 3
/-- `CalibrateMillis`, 2005h.4 (U32, RO; R91). -/
def Od.calibrateMillis : Nat := odKey 0x2005 0 4
/-- `CalState`, 2006h[x].1 (U8, RO; R91). -/
def Od.calState (x : Nat) : Nat := odKey 0x2006 x 1
/-- `CalFailStep`, 2006h[x].2 (U8, RO; R91). -/
def Od.calFailStep (x : Nat) : Nat := odKey 0x2006 x 2
/-- `Recalibrate`, 2007h[x] (U8, CMD; R91). -/
def Od.recalibrate (x : Nat) : Nat := odKey 0x2007 x 0
/-- `ConfigCommand`, 2008h (U8, CMD; R91). -/
def Od.configCommand : Nat := odKey 0x2008 0 0
/-- `ConfigSaved`, 2009h.1 (BOOL, RO; R91). -/
def Od.configSaved : Nat := odKey 0x2009 0 1
/-- `ConfigGeneration`, 2009h.2 (U32, RO; R91). -/
def Od.configGeneration : Nat := odKey 0x2009 0 2
/-- `ConfigRejects`, 2009h.3 (OCTETS, RO; R91). -/
def Od.configRejects : Nat := odKey 0x2009 0 3
/-- `ImageBlock`, 7F00h (BLOCK, WO; R91). -/
def Od.imageBlock : Nat := odKey 0x7F00 0 0
/-- `Version`, 7F01h[x].1 (STR, RO; R91). -/
def Od.version (x : Nat) : Nat := odKey 0x7F01 x 1
/-- `SlotState`, 7F01h[x].2 (U8, RO; R91). -/
def Od.firmwareSlotSlotState (x : Nat) : Nat := odKey 0x7F01 x 2
/-- `SecurityVersion`, 7F01h[x].3 (U32, RO; R91). -/
def Od.securityVersion (x : Nat) : Nat := odKey 0x7F01 x 3
/-- `Preferred`, 7F01h[x].4 (BOOL, RO; R91). -/
def Od.preferred (x : Nat) : Nat := odKey 0x7F01 x 4
/-- `DatapathPending`, 7F01h[x].5 (BOOL, RO; R91). -/
def Od.datapathPending (x : Nat) : Nat := odKey 0x7F01 x 5
/-- `FirmwareCommand`, 7F02h (U8, CMD; R91). -/
def Od.firmwareCommand : Nat := odKey 0x7F02 0 0
/-- `TrialTimeout`, 7F03h (U32, RW; R91). -/
def Od.trialTimeout : Nat := odKey 0x7F03 0 0
/-- `DeviceType`, 1000h (U32, RO; R94). -/
def Od.deviceType : Nat := odKey 0x1000 0 0
/-- `DeviceName`, 1008h (STR, RO; R94). -/
def Od.deviceName : Nat := odKey 0x1008 0 0
/-- `HardwareVersion`, 1009h (STR, RO; R94). -/
def Od.hardwareVersion : Nat := odKey 0x1009 0 0
/-- `SoftwareVersion`, 100Ah (STR, RO; R94). -/
def Od.softwareVersion : Nat := odKey 0x100A 0 0
/-- `VendorId`, 1018h.1 (U32, RO; R94). -/
def Od.vendorId : Nat := odKey 0x1018 0 1
/-- `ProductCode`, 1018h.2 (U32, RO; R94). -/
def Od.productCode : Nat := odKey 0x1018 0 2
/-- `RevisionNumber`, 1018h.3 (U32, RO; R94). -/
def Od.revisionNumber : Nat := odKey 0x1018 0 3
/-- `SerialNumber`, 1018h.4 (U32, RO; R94). -/
def Od.serialNumber : Nat := odKey 0x1018 0 4
/-- `SlotState`, 2100h[x].1 (U8, RO; R120). -/
def Od.sessionSlotState (x : Nat) : Nat := odKey 0x2100 x 1
/-- `Transport`, 2100h[x].2 (U8, RO; R120). -/
def Od.transport (x : Nat) : Nat := odKey 0x2100 x 2
/-- `Role`, 2100h[x].3 (U8, RO; R120). -/
def Od.sessionRole (x : Nat) : Nat := odKey 0x2100 x 3
/-- `IdentityIndex`, 2100h[x].4 (U8, RO; R120). -/
def Od.identityIndex (x : Nat) : Nat := odKey 0x2100 x 4
/-- `OpenedAt`, 2100h[x].5 (OCTETS, RO; R120). -/
def Od.openedAt (x : Nat) : Nat := odKey 0x2100 x 5
/-- `ClaimCount`, 2100h[x].6 (U16, RO; R120). -/
def Od.claimCount (x : Nat) : Nat := odKey 0x2100 x 6
/-- `LastStatus`, 2100h[x].7 (U8, RO; R120). -/
def Od.lastStatus (x : Nat) : Nat := odKey 0x2100 x 7
/-- `SessionSelf`, 2101h (U8, RO; R120). -/
def Od.sessionSelf : Nat := odKey 0x2101 0 0
/-- `CloseSession`, 2102h[x] (U8, CMD; R120). -/
def Od.closeSession (x : Nat) : Nat := odKey 0x2102 x 0
/-- `IdleTimeout`, 2103h.1 (U16, RW; R120). -/
def Od.idleTimeout : Nat := odKey 0x2103 0 1
/-- `Commissioning`, 2103h.2 (BOOL, RO; R120). -/
def Od.commissioning : Nat := odKey 0x2103 0 2
/-- `KeyHash`, 2104h[x].1 (OCTETS, RW; R120). -/
def Od.keyHash (x : Nat) : Nat := odKey 0x2104 x 1
/-- `AllowedRoles`, 2104h[x].2 (U8, RW; R120). -/
def Od.allowedRoles (x : Nat) : Nat := odKey 0x2104 x 2
/-- `Label`, 2104h[x].3 (STR, RW; R120). -/
def Od.label (x : Nat) : Nat := odKey 0x2104 x 3
/-- `Enabled`, 2104h[x].4 (BOOL, RW; R120). -/
def Od.identityEntryEnabled (x : Nat) : Nat := odKey 0x2104 x 4
/-- `Enabled`, 2105h[x].1 (BOOL, RW; R120). -/
def Od.canSessionEnabled (x : Nat) : Nat := odKey 0x2105 x 1
/-- `NodeId`, 2105h[x].2 (U8, RW; R120). -/
def Od.nodeId (x : Nat) : Nat := odKey 0x2105 x 2
/-- `Role`, 2105h[x].3 (U8, RW; R120). -/
def Od.canSessionRole (x : Nat) : Nat := odKey 0x2105 x 3
/-- `DeviceCertificate`, 2106h (BLOCK, RO; R120). -/
def Od.deviceCertificate : Nat := odKey 0x2106 0 0
/-- `IdentityCommand`, 2107h (U8, CMD; R120). -/
def Od.identityCommand : Nat := odKey 0x2107 0 0
/-- `Owner`, 2110h[x].1 (U8, RO; R120). -/
def Od.owner (x : Nat) : Nat := odKey 0x2110 x 1
/-- `OwnershipCommand`, 2111h[x] (U8, CMD; R120). -/
def Od.ownershipCommand (x : Nat) : Nat := odKey 0x2111 x 0
/-- `ReleaseMine`, 2112h (U8, CMD; R120). -/
def Od.releaseMine : Nat := odKey 0x2112 0 0
/-- `State`, 2120h[x].1 (U8, RO; R120). -/
def Od.commitStatusState (x : Nat) : Nat := odKey 0x2120 x 1
/-- `Result`, 2120h[x].2 (U8, RO; R120). -/
def Od.commitStatusResult (x : Nat) : Nat := odKey 0x2120 x 2
/-- `ArmedBy`, 2120h[x].3 (U8, RO; R120). -/
def Od.armedBy (x : Nat) : Nat := odKey 0x2120 x 3
/-- `Lead`, 2120h[x].4 (U32, RW; R120). -/
def Od.lead (x : Nat) : Nat := odKey 0x2120 x 4
/-- `TargetBlock`, 2120h[x].5 (U64, RO; R120). -/
def Od.targetBlock (x : Nat) : Nat := odKey 0x2120 x 5
/-- `ShadowGeneration`, 2120h[x].6 (U32, RO; R120). -/
def Od.shadowGeneration (x : Nat) : Nat := odKey 0x2120 x 6
/-- `ShadowDirty`, 2120h[x].7 (U32, RO; R120). -/
def Od.shadowDirty (x : Nat) : Nat := odKey 0x2120 x 7
/-- `PeerNeeded`, 2120h[x].8 (BOOL, RO; R120). -/
def Od.peerNeeded (x : Nat) : Nat := odKey 0x2120 x 8
/-- `PeerTimeout`, 2120h[x].9 (U16, RW; R120). -/
def Od.peerTimeout (x : Nat) : Nat := odKey 0x2120 x 9
/-- `CommitCommand`, 2121h[x] (U8, CMD; R120). -/
def Od.commitCommand (x : Nat) : Nat := odKey 0x2121 x 0
/-- `ScopeMask`, 2122h.1 (U64, RW; R120). -/
def Od.scopeMask : Nat := odKey 0x2122 0 1
/-- `IncludeModule`, 2122h.2 (BOOL, RW; R120). -/
def Od.includeModule : Nat := odKey 0x2122 0 2
/-- `TargetTime`, 2122h.3 (OCTETS, RW; R120). -/
def Od.targetTime : Nat := odKey 0x2122 0 3
/-- `GroupState`, 2122h.4 (U8, RO; R120). -/
def Od.groupState : Nat := odKey 0x2122 0 4
/-- `GroupResult`, 2122h.5 (U8, RO; R120). -/
def Od.groupResult : Nat := odKey 0x2122 0 5
/-- `GroupCommand`, 2123h (U8, CMD; R120). -/
def Od.groupCommand : Nat := odKey 0x2123 0 0
/-- `ChangeJournal`, 2130h (BLOCK, RO; R120). -/
def Od.changeJournal : Nat := odKey 0x2130 0 0
/-- `NextSequence`, 2131h.1 (U64, RO; R120). -/
def Od.nextSequence : Nat := odKey 0x2131 0 1
/-- `OldestSequence`, 2131h.2 (U64, RO; R120). -/
def Od.oldestSequence : Nat := odKey 0x2131 0 2
/-- `ErrorRegister`, 1001h (U8, RO; R149). -/
def Od.errorRegister : Nat := odKey 0x1001 0 0
/-- `InhibitTimeEmcy`, 1015h (U16, RW; R149). -/
def Od.inhibitTimeEmcy : Nat := odKey 0x1015 0 0
/-- `ProducerHeartbeatTime`, 1017h (U16, RW; R149). -/
def Od.producerHeartbeatTime : Nat := odKey 0x1017 0 0
/-- `Mode`, 1100h[x].1 (U8, RW; R149). -/
def Od.mgmtPortMode (x : Nat) : Nat := odKey 0x1100 x 1
/-- `LinkUp`, 1100h[x].2 (BOOL, RO; R149). -/
def Od.linkUp (x : Nat) : Nat := odKey 0x1100 x 2
/-- `MacAddress`, 1100h[x].3 (OCTETS, RO; R149). -/
def Od.macAddress (x : Nat) : Nat := odKey 0x1100 x 3
/-- `Ipv6Address`, 1100h[x].4 (OCTETS, RW; R149). -/
def Od.ipv6Address (x : Nat) : Nat := odKey 0x1100 x 4
/-- `Ipv6PrefixLength`, 1100h[x].5 (U8, RW; R149). -/
def Od.ipv6PrefixLength (x : Nat) : Nat := odKey 0x1100 x 5
/-- `Ipv4Address`, 1100h[x].6 (OCTETS, RW; R149). -/
def Od.ipv4Address (x : Nat) : Nat := odKey 0x1100 x 6
/-- `Ipv4PrefixLength`, 1100h[x].7 (U8, RW; R149). -/
def Od.ipv4PrefixLength (x : Nat) : Nat := odKey 0x1100 x 7
/-- `Ipv6Gateway`, 1100h[x].8 (OCTETS, RW; R149). -/
def Od.ipv6Gateway (x : Nat) : Nat := odKey 0x1100 x 8
/-- `Ipv4Gateway`, 1100h[x].9 (OCTETS, RW; R149). -/
def Od.ipv4Gateway (x : Nat) : Nat := odKey 0x1100 x 9
/-- `DiscardedDatagrams`, 1100h[x].10 (U32, RO; R149). -/
def Od.discardedDatagrams (x : Nat) : Nat := odKey 0x1100 x 10
/-- `UdpPort`, 1110h.1 (U16, RW; R149). -/
def Od.udpPort : Nat := odKey 0x1110 0 1
/-- `BlockTimeout`, 1110h.2 (U16, RW; R149). -/
def Od.blockTimeout : Nat := odKey 0x1110 0 2
/-- `NotifyRate`, 1110h.3 (U16, RW; R149). -/
def Od.notifyRate : Nat := odKey 0x1110 0 3
/-- `CobId`, 1800h + e[x].1 (U32, RW; R149). -/
def Od.cobId (e x : Nat) : Nat := odKey (0x1800 + e) x 1
/-- `TransmissionType`, 1800h + e[x].2 (U8, RW; R149). -/
def Od.transmissionType (e x : Nat) : Nat := odKey (0x1800 + e) x 2
/-- `InhibitTime`, 1800h + e[x].3 (U16, RW; R149). -/
def Od.inhibitTime (e x : Nat) : Nat := odKey (0x1800 + e) x 3
/-- `EventTimer`, 1800h + e[x].5 (U16, RW; R149). -/
def Od.eventTimer (e x : Nat) : Nat := odKey (0x1800 + e) x 5
/-- `Count`, 1A00h + e[x].1 (U8, RW; R149). -/
def Od.tpdoMapCount (e x : Nat) : Nat := odKey (0x1A00 + e) x 1
/-- `Entry1–16`, 1A00h + e[x].2–17 (U64, RW; R149). -/
def Od.tpdoEntry (e x j : Nat) : Nat := odKey (0x1A00 + e) x (2 + j)
/-- `Instance`, 1F10h.1 (U32, RW; R149). -/
def Od.canInstance : Nat := odKey 0x1F10 0 1
/-- `ShadowView`, 1F10h.2 (BOOL, RW; R149). -/
def Od.shadowView : Nat := odKey 0x1F10 0 2
/-- `AlarmMask`, 1F20h[x].1 (U8, RW; R149). -/
def Od.alarmMask (x : Nat) : Nat := odKey 0x1F20 x 1
/-- `InjectToAlarm`, 1F20h[x].2 (BOOL, RW; R149). -/
def Od.injectToAlarm (x : Nat) : Nat := odKey 0x1F20 x 2
/-- `AlarmActive`, 1F20h[x].3 (BOOL, RO; R149). -/
def Od.alarmActive (x : Nat) : Nat := odKey 0x1F20 x 3
/-- `TestPattern`, 1F20h[x].4 (U8, RW; R149). -/
def Od.testPattern (x : Nat) : Nat := odKey 0x1F20 x 4
/-- `EventHold`, 1F21h (U16, RW; R149). -/
def Od.eventHold : Nat := odKey 0x1F21 0 0
/-- `BusOffs`, 1F30h[x].1 (U32, RO; R149). -/
def Od.busOffs (x : Nat) : Nat := odKey 0x1F30 x 1
/-- `ErrorPassiveEntries`, 1F30h[x].2 (U32, RO; R149). -/
def Od.errorPassiveEntries (x : Nat) : Nat := odKey 0x1F30 x 2
/-- `EmcyDropped`, 1F30h[x].3 (U32, RO; R149). -/
def Od.emcyDropped (x : Nat) : Nat := odKey 0x1F30 x 3
/-- `SdoAborts`, 1F30h[x].4 (U32, RO; R149). -/
def Od.sdoAborts (x : Nat) : Nat := odKey 0x1F30 x 4
/-- `LightSource`, 3000h[x].1 (U8, RW; R177). -/
def Od.lightSource (x : Nat) : Nat := odKey 0x3000 x 1
/-- `AnchorIndex`, 3000h[x].2 (I16, RW; R177). -/
def Od.anchorIndex (x : Nat) : Nat := odKey 0x3000 x 2
/-- `SpacingIndex`, 3000h[x].3 (U8, RW; R177). -/
def Od.spacingIndex (x : Nat) : Nat := odKey 0x3000 x 3
/-- `LinesUsable`, 3000h[x].4 (U8, RO; R177). -/
def Od.linesUsable (x : Nat) : Nat := odKey 0x3000 x 4
/-- `CombInputPower`, 3000h[x].5 (F32, RO; R177). -/
def Od.combInputPower (x : Nat) : Nat := odKey 0x3000 x 5
/-- `RxInputPower`, 3000h[x].6 (F32, RO; R177). -/
def Od.rxInputPower (x : Nat) : Nat := odKey 0x3000 x 6
/-- `LaunchRamp`, 3000h[x].7 (U16, RW; R177). -/
def Od.launchRamp (x : Nat) : Nat := odKey 0x3000 x 7
/-- `TurnOnTime`, 3000h[x].8 (U32, RW; R177). -/
def Od.turnOnTime (x : Nat) : Nat := odKey 0x3000 x 8
/-- `GainEntry0–47`, 3002h[x].1–48 (I16, RO; R177). -/
def Od.gainEntry (x j : Nat) : Nat := odKey 0x3002 x (1 + j)
/-- `CarrierEnable`, 3010h[x].1 (BOOL, RW; R177). -/
def Od.carrierEnable (x : Nat) : Nat := odKey 0x3010 x 1
/-- `TxState`, 3010h[x].2 (U8, RO; R177). -/
def Od.txState (x : Nat) : Nat := odKey 0x3010 x 2
/-- `LaunchPower`, 3010h[x].3 (I16, RWS; R177). -/
def Od.launchPower (x : Nat) : Nat := odKey 0x3010 x 3
/-- `LaunchPowerNow`, 3010h[x].4 (F32, RO; R177). -/
def Od.launchPowerNow (x : Nat) : Nat := odKey 0x3010 x 4
/-- `LineOffset`, 3010h[x].5 (I32, RO; R177). -/
def Od.lineOffset (x : Nat) : Nat := odKey 0x3010 x 5
/-- `LinePower`, 3010h[x].6 (F32, RO; R177). -/
def Od.linePower (x : Nat) : Nat := odKey 0x3010 x 6
/-- `LineState`, 3010h[x].7 (U8, RO; R177). -/
def Od.lineState (x : Nat) : Nat := odKey 0x3010 x 7
/-- `RxPower`, 3010h[x].8 (F32, RO; R177). -/
def Od.rxPower (x : Nat) : Nat := odKey 0x3010 x 8
/-- `LosThreshold`, 3010h[x].9 (I16, RW; R177). -/
def Od.losThreshold (x : Nat) : Nat := odKey 0x3010 x 9
/-- `LineLosses`, 3010h[x].10 (U32, RO; R177). -/
def Od.lineLosses (x : Nat) : Nat := odKey 0x3010 x 10
/-- `BiasMode`, 3011h[x].1 (U8, RW; R177). -/
def Od.biasMode (x : Nat) : Nat := odKey 0x3011 x 1
/-- `BiasLocked`, 3011h[x].2 (BOOL, RO; R177). -/
def Od.biasLocked (x : Nat) : Nat := odKey 0x3011 x 2
/-- `BiasXI, BiasXQ, BiasXP, BiasYI, BiasYQ, BiasYP`, 3011h[x].3–8 (I16, RO; R177). -/
def Od.bias (x j : Nat) : Nat := odKey 0x3011 x (3 + j)
/-- `DitherAmplitude`, 3011h[x].9 (U16, RW; R177). -/
def Od.ditherAmplitude (x : Nat) : Nat := odKey 0x3011 x 9
/-- `BiasRelocks`, 3011h[x].10 (U32, RO; R177). -/
def Od.biasRelocks (x : Nat) : Nat := odKey 0x3011 x 10
/-- `TxFilterHeater`, 3012h[x].1 (F32, RO; R177). -/
def Od.txFilterHeater (x : Nat) : Nat := odKey 0x3012 x 1
/-- `LoFilterHeater`, 3012h[x].2 (F32, RO; R177). -/
def Od.loFilterHeater (x : Nat) : Nat := odKey 0x3012 x 2
/-- `TxFilterOffset`, 3012h[x].3 (I32, RO; R177). -/
def Od.txFilterOffset (x : Nat) : Nat := odKey 0x3012 x 3
/-- `LoFilterOffset`, 3012h[x].4 (I32, RO; R177). -/
def Od.loFilterOffset (x : Nat) : Nat := odKey 0x3012 x 4
/-- `HeaterMode`, 3012h[x].5 (U8, RW; R177). -/
def Od.heaterMode (x : Nat) : Nat := odKey 0x3012 x 5
/-- `SampleRate`, 3020h[x].1 (F32, RO; R177). -/
def Od.sampleRate (x : Nat) : Nat := odKey 0x3020 x 1
/-- `DacClips`, 3020h[x].2 (U32, RO; R177). -/
def Od.dacClips (x : Nat) : Nat := odKey 0x3020 x 2
/-- `InterleaveSpur`, 3020h[x].3 (F32, RO; R177). -/
def Od.interleaveSpur (x : Nat) : Nat := odKey 0x3020 x 3
/-- `SkewCalXI–YQ`, 3040h[x].1–4 (I16, RO; R177). -/
def Od.skewCal (x j : Nat) : Nat := odKey 0x3040 x (1 + j)
/-- `SkewTrimXI–YQ`, 3040h[x].5–8 (I16, RWS; R177). -/
def Od.skewTrim (x j : Nat) : Nat := odKey 0x3040 x (5 + j)
/-- `FadeBlocks`, 3040h[x].9 (U16, RW; R177). -/
def Od.fadeBlocks (x : Nat) : Nat := odKey 0x3040 x 9
/-- `FadeRemaining`, 3040h[x].10 (U16, RO; R177). -/
def Od.fadeRemaining (x : Nat) : Nat := odKey 0x3040 x 10
/-- `ResponseMode`, 3041h[x].1 (U8, RWS; R177). -/
def Od.responseMode (x : Nat) : Nat := odKey 0x3041 x 1
/-- `ResponseTapsXI–YQ`, 3041h[x].2–5 (OCTETS, RO; R177). -/
def Od.responseTaps (x j : Nat) : Nat := odKey 0x3041 x (2 + j)
/-- `DcShift`, 3042h[x].1 (U8, RW; R177). -/
def Od.dcShift (x : Nat) : Nat := odKey 0x3042 x 1
/-- `DcFreeze`, 3042h[x].2 (U8, RW; R177). -/
def Od.dcFreeze (x : Nat) : Nat := odKey 0x3042 x 2
/-- `DcFrozen`, 3042h[x].3 (BOOL, RO; R177). -/
def Od.dcFrozen (x : Nat) : Nat := odKey 0x3042 x 3
/-- `DcOffsetXI–YQ`, 3042h[x].4–7 (I16, RO; R177). -/
def Od.dcOffset (x j : Nat) : Nat := odKey 0x3042 x (4 + j)
/-- `AgcMode`, 3043h[x].1 (U8, RW; R177). -/
def Od.agcMode (x : Nat) : Nat := odKey 0x3043 x 1
/-- `AgcTarget`, 3043h[x].2 (U16, RW; R177). -/
def Od.agcTarget (x : Nat) : Nat := odKey 0x3043 x 2
/-- `AgcWindow`, 3043h[x].3 (U16, RW; R177). -/
def Od.agcWindow (x : Nat) : Nat := odKey 0x3043 x 3
/-- `GainIndexXI–YQ`, 3043h[x].4–7 (U8, RO; R177). -/
def Od.gainIndex (x j : Nat) : Nat := odKey 0x3043 x (4 + j)
/-- `DigitalGainXI–YQ`, 3043h[x].8–11 (U16, RO; R177). -/
def Od.digitalGain (x j : Nat) : Nat := odKey 0x3043 x (8 + j)
/-- `ManualIndexXI–YQ`, 3043h[x].12–15 (U8, RW; R177). -/
def Od.manualIndex (x j : Nat) : Nat := odKey 0x3043 x (12 + j)
/-- `ManualDigitalGain`, 3043h[x].16 (U16, RW; R177). -/
def Od.manualDigitalGain (x : Nat) : Nat := odKey 0x3043 x 16
/-- `AgcSteps`, 3043h[x].17 (U32, RO; R177). -/
def Od.agcSteps (x : Nat) : Nat := odKey 0x3043 x 17
/-- `MonitorTap`, 3044h[x].1 (U8, RW; R177). -/
def Od.monitorTap (x : Nat) : Nat := odKey 0x3044 x 1
/-- `MonitorDecimation`, 3044h[x].2 (U8, RW; R177). -/
def Od.monitorDecimation (x : Nat) : Nat := odKey 0x3044 x 2
/-- `MonitorEnable`, 3044h[x].3 (BOOL, RW; R177). -/
def Od.monitorEnable (x : Nat) : Nat := odKey 0x3044 x 3
/-- `ChannelRmsXI–YQ`, 3044h[x].4–7 (F32, RO; R177). -/
def Od.channelRms (x j : Nat) : Nat := odKey 0x3044 x (4 + j)
/-- `AdcClipsXI–YQ`, 3044h[x].8–11 (U32, RO; R177). -/
def Od.adcClips (x j : Nat) : Nat := odKey 0x3044 x (8 + j)
/-- `MonitorRate`, 3044h[x].12 (F32, RO; R177). -/
def Od.monitorRate (x : Nat) : Nat := odKey 0x3044 x 12
/-- `RxState`, 3100h[x].1 (U8, RO; R229). -/
def Od.rxState (x : Nat) : Nat := odKey 0x3100 x 1
/-- `LastLossCause`, 3100h[x].2 (U8, RO; R229). -/
def Od.lastLossCause (x : Nat) : Nat := odKey 0x3100 x 2
/-- `WarmHoldTime`, 3100h[x].3 (U32, RW; R229). -/
def Od.warmHoldTime (x : Nat) : Nat := odKey 0x3100 x 3
/-- `WarmAttempts`, 3100h[x].4 (U8, RW; R229). -/
def Od.warmAttempts (x : Nat) : Nat := odKey 0x3100 x 4
/-- `LastAcquireMicros`, 3100h[x].5 (U32, RO; R229). -/
def Od.lastAcquireMicros (x : Nat) : Nat := odKey 0x3100 x 5
/-- `ColdAcquisitions`, 3100h[x].6 (U32, RO; R229). -/
def Od.coldAcquisitions (x : Nat) : Nat := odKey 0x3100 x 6
/-- `WarmAcquisitions`, 3100h[x].7 (U32, RO; R229). -/
def Od.warmAcquisitions (x : Nat) : Nat := odKey 0x3100 x 7
/-- `TrackLosses`, 3100h[x].8 (U32, RO; R229). -/
def Od.trackLosses (x : Nat) : Nat := odKey 0x3100 x 8
/-- `AcquireFailures`, 3100h[x].9 (U32, RO; R229). -/
def Od.acquireFailures (x : Nat) : Nat := odKey 0x3100 x 9
/-- `MeasuresValid`, 3100h[x].10 (BOOL, RO; R229). -/
def Od.measuresValid (x : Nat) : Nat := odKey 0x3100 x 10
/-- `AcquireKind`, 3100h[x].11 (U8, RO; R229). -/
def Od.acquireKind (x : Nat) : Nat := odKey 0x3100 x 11
/-- `Reacquire`, 3101h[x] (U8, CMD; R229). -/
def Od.reacquire (x : Nat) : Nat := odKey 0x3101 x 0
/-- `ClearRxCounters`, 3102h (U8, CMD; R229). -/
def Od.clearRxCounters : Nat := odKey 0x3102 0 0
/-- `LadleMode`, 3110h[x].1 (U8, RW; R229). -/
def Od.ladleMode (x : Nat) : Nat := odKey 0x3110 x 1
/-- `DispersionSet`, 3110h[x].2 (I32, RWS; R229). -/
def Od.dispersionSet (x : Nat) : Nat := odKey 0x3110 x 2
/-- `SearchMin`, 3110h[x].3 (I32, RW; R229). -/
def Od.searchMin (x : Nat) : Nat := odKey 0x3110 x 3
/-- `SearchMax`, 3110h[x].4 (I32, RW; R229). -/
def Od.searchMax (x : Nat) : Nat := odKey 0x3110 x 4
/-- `LadleTrack`, 3110h[x].5 (BOOL, RW; R229). -/
def Od.ladleTrack (x : Nat) : Nat := odKey 0x3110 x 5
/-- `TrackStep`, 3110h[x].6 (U16, RW; R229). -/
def Od.trackStep (x : Nat) : Nat := odKey 0x3110 x 6
/-- `LadleFadeBlocks`, 3110h[x].7 (U16, RW; R229). -/
def Od.ladleFadeBlocks (x : Nat) : Nat := odKey 0x3110 x 7
/-- `DispersionNow`, 3110h[x].8 (I32, RO; R229). -/
def Od.dispersionNow (x : Nat) : Nat := odKey 0x3110 x 8
/-- `FftSize`, 3110h[x].9 (U32, RO; R229). -/
def Od.fftSize (x : Nat) : Nat := odKey 0x3110 x 9
/-- `LadleLatency`, 3110h[x].10 (F32, RO; R229). -/
def Od.ladleLatency (x : Nat) : Nat := odKey 0x3110 x 10
/-- `LadleFadeRemaining`, 3110h[x].11 (U16, RO; R229). -/
def Od.ladleFadeRemaining (x : Nat) : Nat := odKey 0x3110 x 11
/-- `TrackUpdates`, 3110h[x].12 (U32, RO; R229). -/
def Od.trackUpdates (x : Nat) : Nat := odKey 0x3110 x 12
/-- `WhiskMode`, 3120h[x].1 (U8, RW; R229). -/
def Od.whiskMode (x : Nat) : Nat := odKey 0x3120 x 1
/-- `WhiskTaps`, 3120h[x].2 (U8, RWS; R229). -/
def Od.whiskTaps (x : Nat) : Nat := odKey 0x3120 x 2
/-- `WhiskStepShift`, 3120h[x].3 (U8, RW; R229). -/
def Od.whiskStepShift (x : Nat) : Nat := odKey 0x3120 x 3
/-- `TapGating`, 3120h[x].4 (BOOL, RW; R229). -/
def Od.tapGating (x : Nat) : Nat := odKey 0x3120 x 4
/-- `TapsActive`, 3120h[x].5 (U8, RO; R229). -/
def Od.tapsActive (x : Nat) : Nat := odKey 0x3120 x 5
/-- `DgdEstimate`, 3120h[x].6 (F32, RO; R229). -/
def Od.dgdEstimate (x : Nat) : Nat := odKey 0x3120 x 6
/-- `PdlEstimate`, 3120h[x].7 (F32, RO; R229). -/
def Od.pdlEstimate (x : Nat) : Nat := odKey 0x3120 x 7
/-- `SopRate`, 3120h[x].8 (F32, RO; R229). -/
def Od.sopRate (x : Nat) : Nat := odKey 0x3120 x 8
/-- `SopRatePeak`, 3120h[x].9 (F32, RO; R229). -/
def Od.sopRatePeak (x : Nat) : Nat := odKey 0x3120 x 9
/-- `Singularities`, 3120h[x].10 (U32, RO; R229). -/
def Od.singularities (x : Nat) : Nat := odKey 0x3120 x 10
/-- `PolSwapped`, 3120h[x].11 (BOOL, RO; R229). -/
def Od.polSwapped (x : Nat) : Nat := odKey 0x3120 x 11
/-- `WhiskTapSnapshot`, 3121h[x] (BLOCK, RO; R229). -/
def Od.whiskTapSnapshot (x : Nat) : Nat := odKey 0x3121 x 0
/-- `TimingBandwidth`, 3125h[x].1 (U16, RW; R229). -/
def Od.timingBandwidth (x : Nat) : Nat := odKey 0x3125 x 1
/-- `ClockOffset`, 3125h[x].2 (F32, RO; R229). -/
def Od.clockOffset (x : Nat) : Nat := odKey 0x3125 x 2
/-- `TimingLocked`, 3125h[x].3 (BOOL, RO; R229). -/
def Od.timingLocked (x : Nat) : Nat := odKey 0x3125 x 3
/-- `TapCentroid`, 3125h[x].4 (F32, RO; R229). -/
def Od.tapCentroid (x : Nat) : Nat := odKey 0x3125 x 4
/-- `TimingSlips`, 3125h[x].5 (U32, RO; R229). -/
def Od.timingSlips (x : Nat) : Nat := odKey 0x3125 x 5
/-- `FreqOffset`, 3130h[x].1 (F32, RO; R229). -/
def Od.carrierRecoveryFreqOffset (x : Nat) : Nat := odKey 0x3130 x 1
/-- `FreqOffsetPercent`, 3130h[x].2 (F32, RO; R229). -/
def Od.freqOffsetPercent (x : Nat) : Nat := odKey 0x3130 x 2
/-- `FreqDrift`, 3130h[x].3 (F32, RO; R229). -/
def Od.freqDrift (x : Nat) : Nat := odKey 0x3130 x 3
/-- `PhaseAverage`, 3130h[x].4 (U16, RW; R229). -/
def Od.phaseAverage (x : Nat) : Nat := odKey 0x3130 x 4
/-- `CycleSlips`, 3130h[x].5 (U32, RO; R229). -/
def Od.cycleSlips (x : Nat) : Nat := odKey 0x3130 x 5
/-- `PhaseMode`, 3130h[x].6 (U8, RO; R229). -/
def Od.phaseMode (x : Nat) : Nat := odKey 0x3130 x 6
/-- `JointResidual`, 3130h[x].7 (F32, RO; R229). -/
def Od.jointResidual (x : Nat) : Nat := odKey 0x3130 x 7
/-- `PilotSyncLosses`, 3130h[x].8 (U32, RO; R229). -/
def Od.pilotSyncLosses (x : Nat) : Nat := odKey 0x3130 x 8
/-- `JointEnable`, 3131h[x].1 (BOOL, RW; R229). -/
def Od.jointEnable (x : Nat) : Nat := odKey 0x3131 x 1
/-- `ResidualLimit`, 3131h[x].2 (U16, RW; R229). -/
def Od.residualLimit (x : Nat) : Nat := odKey 0x3131 x 2
/-- `QualifyTime`, 3131h[x].3 (U16, RW; R229). -/
def Od.jointRecoveryQualifyTime (x : Nat) : Nat := odKey 0x3131 x 3
/-- `MemberMask`, 3131h[x].4 (U8, RO; R229). -/
def Od.memberMask (x : Nat) : Nat := odKey 0x3131 x 4
/-- `Fallbacks`, 3131h[x].5 (U32, RO; R229). -/
def Od.fallbacks (x : Nat) : Nat := odKey 0x3131 x 5
/-- `JointActive`, 3131h[x].6 (BOOL, RO; R229). -/
def Od.jointActive (x : Nat) : Nat := odKey 0x3131 x 6
/-- `QualityWindow`, 3150h[x].1 (U16, RW; R229). -/
def Od.qualityWindow (x : Nat) : Nat := odKey 0x3150 x 1
/-- `SnrNow`, 3150h[x].2 (F32, RO; R229). -/
def Od.carrierQualitySnrNow (x : Nat) : Nat := odKey 0x3150 x 2
/-- `SnrInterval`, 3150h[x].3 (F32, RO; R229). -/
def Od.carrierQualitySnrInterval (x : Nat) : Nat := odKey 0x3150 x 3
/-- `EvmNow`, 3150h[x].4 (F32, RO; R229). -/
def Od.carrierQualityEvmNow (x : Nat) : Nat := odKey 0x3150 x 4
/-- `EvmInterval`, 3150h[x].5 (F32, RO; R229). -/
def Od.carrierQualityEvmInterval (x : Nat) : Nat := odKey 0x3150 x 5
/-- `BerNow`, 3150h[x].6 (F32, RO; R229). -/
def Od.carrierQualityBerNow (x : Nat) : Nat := odKey 0x3150 x 6
/-- `BerInterval`, 3150h[x].7 (F32, RO; R229). -/
def Od.carrierQualityBerInterval (x : Nat) : Nat := odKey 0x3150 x 7
/-- `BitErrorsInterval`, 3150h[x].8 (U64, RO; R229). -/
def Od.bitErrorsInterval (x : Nat) : Nat := odKey 0x3150 x 8
/-- `BitsInterval`, 3150h[x].9 (U64, RO; R229). -/
def Od.bitsInterval (x : Nat) : Nat := odKey 0x3150 x 9
/-- `GmiNow`, 3150h[x].10 (F32, RO; R229). -/
def Od.carrierQualityGmiNow (x : Nat) : Nat := odKey 0x3150 x 10
/-- `GmiInterval`, 3150h[x].11 (F32, RO; R229). -/
def Od.carrierQualityGmiInterval (x : Nat) : Nat := odKey 0x3150 x 11
/-- `OsnrEstimate`, 3150h[x].12 (F32, RO; R229). -/
def Od.osnrEstimate (x : Nat) : Nat := odKey 0x3150 x 12
/-- `QMarginNow`, 3150h[x].13 (F32, RO; R229). -/
def Od.qMarginNow (x : Nat) : Nat := odKey 0x3150 x 13
/-- `QMarginInterval`, 3150h[x].14 (F32, RO; R229). -/
def Od.qMarginInterval (x : Nat) : Nat := odKey 0x3150 x 14
/-- `QMarginMinInterval`, 3150h[x].15 (F32, RO; R229). -/
def Od.qMarginMinInterval (x : Nat) : Nat := odKey 0x3150 x 15
/-- `TransceiverSnr`, 3150h[x].16 (F32, RO; R229). -/
def Od.transceiverSnr (x : Nat) : Nat := odKey 0x3150 x 16
/-- `TrackMillisInterval`, 3150h[x].17 (U16, RO; R229). -/
def Od.trackMillisInterval (x : Nat) : Nat := odKey 0x3150 x 17
/-- `QMarginAlarm`, 3150h[x].18 (I16, RW; R229). -/
def Od.qMarginAlarm (x : Nat) : Nat := odKey 0x3150 x 18
/-- `SnrNow`, 3151h[x].1 (F32, RO; R229). -/
def Od.subcarrierQualitySnrNow (x : Nat) : Nat := odKey 0x3151 x 1
/-- `SnrInterval`, 3151h[x].2 (F32, RO; R229). -/
def Od.subcarrierQualitySnrInterval (x : Nat) : Nat := odKey 0x3151 x 2
/-- `SnrMinInterval`, 3151h[x].3 (F32, RO; R229). -/
def Od.snrMinInterval (x : Nat) : Nat := odKey 0x3151 x 3
/-- `EvmNow`, 3151h[x].4 (F32, RO; R229). -/
def Od.subcarrierQualityEvmNow (x : Nat) : Nat := odKey 0x3151 x 4
/-- `EvmInterval`, 3151h[x].5 (F32, RO; R229). -/
def Od.subcarrierQualityEvmInterval (x : Nat) : Nat := odKey 0x3151 x 5
/-- `GmiNow`, 3151h[x].6 (F32, RO; R229). -/
def Od.subcarrierQualityGmiNow (x : Nat) : Nat := odKey 0x3151 x 6
/-- `GmiInterval`, 3151h[x].7 (F32, RO; R229). -/
def Od.subcarrierQualityGmiInterval (x : Nat) : Nat := odKey 0x3151 x 7
/-- `BerNow`, 3151h[x].8 (F32, RO; R229). -/
def Od.subcarrierQualityBerNow (x : Nat) : Nat := odKey 0x3151 x 8
/-- `BerInterval`, 3151h[x].9 (F32, RO; R229). -/
def Od.subcarrierQualityBerInterval (x : Nat) : Nat := odKey 0x3151 x 9
/-- `SymbolRate`, 3200h[x].1 (U32, RW; R266). -/
def Od.symbolRate (x : Nat) : Nat := odKey 0x3200 x 1
/-- `SubcarrierCount`, 3200h[x].2 (U8, RW; R266). -/
def Od.subcarrierCount (x : Nat) : Nat := odKey 0x3200 x 2
/-- `RollOff`, 3200h[x].3 (U8, RW; R266). -/
def Od.rollOff (x : Nat) : Nat := odKey 0x3200 x 3
/-- `PilotRate`, 3200h[x].4 (U8, RW; R266). -/
def Od.pilotRate (x : Nat) : Nat := odKey 0x3200 x 4
/-- `NetRate`, 3200h[x].5 (F32, RO; R266). -/
def Od.netRate (x : Nat) : Nat := odKey 0x3200 x 5
/-- `SlotCapacity`, 3200h[x].6 (U16, RO; R266). -/
def Od.slotCapacity (x : Nat) : Nat := odKey 0x3200 x 6
/-- `SlotsInUse`, 3200h[x].7 (U16, RO; R266). -/
def Od.slotsInUse (x : Nat) : Nat := odKey 0x3200 x 7
/-- `LayoutTag`, 3200h[x].8 (U8, RO; R266). -/
def Od.layoutTag (x : Nat) : Nat := odKey 0x3200 x 8
/-- `SubcarrierSpacing`, 3200h[x].9 (F32, RO; R266). -/
def Od.subcarrierSpacing (x : Nat) : Nat := odKey 0x3200 x 9
/-- `Entropy`, 3201h[x].1 (U8, RWS; R266). -/
def Od.entropy (x : Nat) : Nat := odKey 0x3201 x 1
/-- `PowerOffset`, 3201h[x].2 (I16, RWS; R266). -/
def Od.powerOffset (x : Nat) : Nat := odKey 0x3201 x 2
/-- `BaseBits`, 3201h[x].3 (U8, RO; R266). -/
def Od.baseBits (x : Nat) : Nat := odKey 0x3201 x 3
/-- `SubcarrierNetRate`, 3201h[x].4 (F32, RO; R266). -/
def Od.subcarrierNetRate (x : Nat) : Nat := odKey 0x3201 x 4
/-- `CentreOffset`, 3201h[x].5 (F32, RO; R266). -/
def Od.centreOffset (x : Nat) : Nat := odKey 0x3201 x 5
/-- `TxSkewTrimXI–YQ`, 3203h[x].1–4 (I16, RWS; R266). -/
def Od.txSkewTrim (x j : Nat) : Nat := odKey 0x3203 x (1 + j)
/-- `TxResponseMode`, 3203h[x].5 (U8, RWS; R266). -/
def Od.txResponseMode (x : Nat) : Nat := odKey 0x3203 x 5
/-- `Predistortion`, 3203h[x].6 (BOOL, RW; R266). -/
def Od.predistortion (x : Nat) : Nat := odKey 0x3203 x 6
/-- `PreDispersion`, 3203h[x].7 (I32, RW; R266). -/
def Od.preDispersion (x : Nat) : Nat := odKey 0x3203 x 7
/-- `ClipRatio`, 3203h[x].8 (U8, RW; R266). -/
def Od.clipRatio (x : Nat) : Nat := odKey 0x3203 x 8
/-- `DacRmsTarget`, 3203h[x].9 (U16, RW; R266). -/
def Od.dacRmsTarget (x : Nat) : Nat := odKey 0x3203 x 9
/-- `TxFadeBlocks`, 3203h[x].10 (U16, RW; R266). -/
def Od.txFadeBlocks (x : Nat) : Nat := odKey 0x3203 x 10
/-- `TxSkewCalXI–YQ`, 3203h[x].11–14 (I16, RO; R266). -/
def Od.txSkewCal (x j : Nat) : Nat := odKey 0x3203 x (11 + j)
/-- `TuneMode`, 3400h[x].1 (U8, RW; R266). -/
def Od.tuneMode (x : Nat) : Nat := odKey 0x3400 x 1
/-- `ReportEnable`, 3400h[x].2 (BOOL, RW; R266). -/
def Od.reportEnable (x : Nat) : Nat := odKey 0x3400 x 2
/-- `TargetMargin`, 3400h[x].3 (U8, RW; R266). -/
def Od.targetMargin (x : Nat) : Nat := odKey 0x3400 x 3
/-- `UpHysteresis`, 3400h[x].4 (U8, RW; R266). -/
def Od.upHysteresis (x : Nat) : Nat := odKey 0x3400 x 4
/-- `DownTolerance`, 3400h[x].5 (U8, RW; R266). -/
def Od.downTolerance (x : Nat) : Nat := odKey 0x3400 x 5
/-- `UpWindow`, 3400h[x].6 (U16, RW; R266). -/
def Od.upWindow (x : Nat) : Nat := odKey 0x3400 x 6
/-- `MaxUpStep`, 3400h[x].7 (U8, RW; R266). -/
def Od.maxUpStep (x : Nat) : Nat := odKey 0x3400 x 7
/-- `MinChangeInterval`, 3400h[x].8 (U16, RW; R266). -/
def Od.minChangeInterval (x : Nat) : Nat := odKey 0x3400 x 8
/-- `BcTimeout`, 3400h[x].9 (U16, RW; R266). -/
def Od.bcTimeout (x : Nat) : Nat := odKey 0x3400 x 9
/-- `RescueEntropy`, 3400h[x].10 (U8, RW; R266). -/
def Od.rescueEntropy (x : Nat) : Nat := odKey 0x3400 x 10
/-- `RescueTime`, 3400h[x].11 (U16, RW; R266). -/
def Od.rescueTime (x : Nat) : Nat := odKey 0x3400 x 11
/-- `BcState`, 3400h[x].12 (U8, RO; R266). -/
def Od.bcState (x : Nat) : Nat := odKey 0x3400 x 12
/-- `FarRxState`, 3400h[x].13 (U8, RO; R266). -/
def Od.farRxState (x : Nat) : Nat := odKey 0x3400 x 13
/-- `AutoChanges`, 3400h[x].14 (U32, RO; R266). -/
def Od.autoChanges (x : Nat) : Nat := odKey 0x3400 x 14
/-- `AutoAbandoned`, 3400h[x].15 (U32, RO; R266). -/
def Od.autoAbandoned (x : Nat) : Nat := odKey 0x3400 x 15
/-- `LastAutoResult`, 3400h[x].16 (U8, RO; R266). -/
def Od.lastAutoResult (x : Nat) : Nat := odKey 0x3400 x 16
/-- `CellErrors`, 3400h[x].17 (U32, RO; R266). -/
def Od.cellErrors (x : Nat) : Nat := odKey 0x3400 x 17
/-- `RescueCount`, 3400h[x].18 (U32, RO; R266). -/
def Od.rescueCount (x : Nat) : Nat := odKey 0x3400 x 18
/-- `EntropyMin`, 3401h[x].1 (U8, RW; R266). -/
def Od.entropyMin (x : Nat) : Nat := odKey 0x3401 x 1
/-- `EntropyMax`, 3401h[x].2 (U8, RW; R266). -/
def Od.entropyMax (x : Nat) : Nat := odKey 0x3401 x 2
/-- `LocalRecommendation`, 3401h[x].3 (U8, RO; R266). -/
def Od.localRecommendation (x : Nat) : Nat := odKey 0x3401 x 3
/-- `FarRecommendation`, 3401h[x].4 (U8, RO; R266). -/
def Od.farRecommendation (x : Nat) : Nat := odKey 0x3401 x 4
/-- `FarSnr`, 3401h[x].5 (F32, RO; R266). -/
def Od.farSnr (x : Nat) : Nat := odKey 0x3401 x 5
/-- `RequiredSnr`, 3401h[x].6 (F32, RO; R266). -/
def Od.requiredSnr (x : Nat) : Nat := odKey 0x3401 x 6
/-- `GapQpsk`, 3402h.1 (U8, RW; R266). -/
def Od.gapQpsk : Nat := odKey 0x3402 0 1
/-- `Gap16qam`, 3402h.2 (U8, RW; R266). -/
def Od.gap16qam : Nat := odKey 0x3402 0 2
/-- `Gap64qam`, 3402h.3 (U8, RW; R266). -/
def Od.gap64qam : Nat := odKey 0x3402 0 3
/-- `ClearTuneCounters`, 3403h (U8, CMD; R266). -/
def Od.clearTuneCounters : Nat := odKey 0x3403 0 0
/-- `LineProfile`, 3300h[x].1 (U8, RW; R298). -/
def Od.lineProfile (x : Nat) : Nat := odKey 0x3300 x 1
/-- `FecOverhead`, 3300h[x].2 (U8, RW; R298). -/
def Od.fecOverhead (x : Nat) : Nat := odKey 0x3300 x 2
/-- `InfoBitsNominal`, 3300h[x].3 (F32, RO; R298). -/
def Od.infoBitsNominal (x : Nat) : Nat := odKey 0x3300 x 3
/-- `CodedBitsPerBlock`, 3300h[x].4 (U32, RO; R298). -/
def Od.codedBitsPerBlock (x : Nat) : Nat := odKey 0x3300 x 4
/-- `OverheadBitsMin`, 3300h[x].5 (U32, RO; R298). -/
def Od.overheadBitsMin (x : Nat) : Nat := odKey 0x3300 x 5
/-- `SealEntries`, 3300h[x].6 (U8, RO; R298). -/
def Od.sealEntries (x : Nat) : Nat := odKey 0x3300 x 6
/-- `BlockDuration`, 3300h[x].7 (F32, RO; R298). -/
def Od.blockDuration (x : Nat) : Nat := odKey 0x3300 x 7
/-- `TxBlockCounter`, 3300h[x].8 (U64, RO; R298). -/
def Od.txBlockCounter (x : Nat) : Nat := odKey 0x3300 x 8
/-- `FecThreshold`, 3300h[x].9 (F32, RO; R298). -/
def Od.fecThreshold (x : Nat) : Nat := odKey 0x3300 x 9
/-- `DecodeLatency`, 3300h[x].10 (F32, RO; R298). -/
def Od.decodeLatency (x : Nat) : Nat := odKey 0x3300 x 10
/-- `AlignState`, 3301h[x].1 (U8, RO; R298). -/
def Od.alignState (x : Nat) : Nat := odKey 0x3301 x 1
/-- `RxBlockCounter`, 3301h[x].2 (U64, RO; R298). -/
def Od.rxBlockCounter (x : Nat) : Nat := odKey 0x3301 x 2
/-- `LofEntries`, 3301h[x].3 (U32, RO; R298). -/
def Od.lofEntries (x : Nat) : Nat := odKey 0x3301 x 3
/-- `OverheadCrcErrors`, 3301h[x].4 (U32, RO; R298). -/
def Od.overheadCrcErrors (x : Nat) : Nat := odKey 0x3301 x 4
/-- `HeaderResyncs`, 3301h[x].5 (U32, RO; R298). -/
def Od.headerResyncs (x : Nat) : Nat := odKey 0x3301 x 5
/-- `TrayMapMismatch`, 3301h[x].6 (BOOL, RO; R298). -/
def Od.trayMapMismatch (x : Nat) : Nat := odKey 0x3301 x 6
/-- `RxPendingTag`, 3302h[x].1 (U8, RO; R298). -/
def Od.rxPendingTag (x : Nat) : Nat := odKey 0x3302 x 1
/-- `RxTargetBlock`, 3302h[x].2 (U64, RO; R298). -/
def Od.rxTargetBlock (x : Nat) : Nat := odKey 0x3302 x 2
/-- `RequestsReceived`, 3302h[x].3 (U32, RO; R298). -/
def Od.requestsReceived (x : Nat) : Nat := odKey 0x3302 x 3
/-- `RequestsConfirmed`, 3302h[x].4 (U32, RO; R298). -/
def Od.requestsConfirmed (x : Nat) : Nat := odKey 0x3302 x 4
/-- `RequestsDeclined`, 3302h[x].5 (U32, RO; R298). -/
def Od.requestsDeclined (x : Nat) : Nat := odKey 0x3302 x 5
/-- `CountdownsAbandoned`, 3302h[x].6 (U32, RO; R298). -/
def Od.countdownsAbandoned (x : Nat) : Nat := odKey 0x3302 x 6
/-- `AnnounceErrors`, 3302h[x].7 (U32, RO; R298). -/
def Od.announceErrors (x : Nat) : Nat := odKey 0x3302 x 7
/-- `LastRequestId`, 3302h[x].8 (U8, RO; R298). -/
def Od.lastRequestId (x : Nat) : Nat := odKey 0x3302 x 8
/-- `SieveWindow`, 3310h[x].1 (U8, RW; R298). -/
def Od.sieveWindow (x : Nat) : Nat := odKey 0x3310 x 1
/-- `SieveIterations`, 3310h[x].2 (U8, RW; R298). -/
def Od.sieveIterations (x : Nat) : Nat := odKey 0x3310 x 2
/-- `EarlyStop`, 3310h[x].3 (BOOL, RW; R298). -/
def Od.earlyStop (x : Nat) : Nat := odKey 0x3310 x 3
/-- `BlocksInFlightPeak`, 3310h[x].4 (U16, RO; R298). -/
def Od.blocksInFlightPeak (x : Nat) : Nat := odKey 0x3310 x 4
/-- `DecodedBlocks`, 3311h[x].1 (U64, RO; R298). -/
def Od.decodedBlocks (x : Nat) : Nat := odKey 0x3311 x 1
/-- `CorrectedBlocks`, 3311h[x].2 (U64, RO; R298). -/
def Od.correctedBlocks (x : Nat) : Nat := odKey 0x3311 x 2
/-- `UncorrectedBlocks`, 3311h[x].3 (U64, RO; R298). -/
def Od.uncorrectedBlocks (x : Nat) : Nat := odKey 0x3311 x 3
/-- `CorrectedBits`, 3311h[x].4 (U64, RO; R298). -/
def Od.fecStatsCorrectedBits (x : Nat) : Nat := odKey 0x3311 x 4
/-- `CorrectedOnes`, 3311h[x].5 (U64, RO; R298). -/
def Od.correctedOnes (x : Nat) : Nat := odKey 0x3311 x 5
/-- `CorrectedZeros`, 3311h[x].6 (U64, RO; R298). -/
def Od.correctedZeros (x : Nat) : Nat := odKey 0x3311 x 6
/-- `MeanIterations`, 3311h[x].7 (F32, RO; R298). -/
def Od.meanIterations (x : Nat) : Nat := odKey 0x3311 x 7
/-- `IterationLimitHits`, 3311h[x].8 (U64, RO; R298). -/
def Od.iterationLimitHits (x : Nat) : Nat := odKey 0x3311 x 8
/-- `UncorrectedInterval`, 3311h[x].9 (U32, RO; R298). -/
def Od.uncorrectedInterval (x : Nat) : Nat := odKey 0x3311 x 9
/-- `CorrectedBitsInterval`, 3311h[x].10 (U64, RO; R298). -/
def Od.correctedBitsInterval (x : Nat) : Nat := odKey 0x3311 x 10
/-- `UncorrectedAlarm`, 3311h[x].11 (U32, RW; R298). -/
def Od.uncorrectedAlarm (x : Nat) : Nat := odKey 0x3311 x 11
/-- `ClearFecCounters`, 3312h (U8, CMD; R298). -/
def Od.clearFecCounters : Nat := odKey 0x3312 0 0
/-- `LaneEnable`, 4000h[x].1 (BOOL, RW; R323). -/
def Od.laneEnable (x : Nat) : Nat := odKey 0x4000 x 1
/-- `ModeSelect`, 4000h[x].2 (U8, RW; R323). -/
def Od.modeSelect (x : Nat) : Nat := odKey 0x4000 x 2
/-- `AnEnable`, 4000h[x].3 (BOOL, RW; R323). -/
def Od.anEnable (x : Nat) : Nat := odKey 0x4000 x 3
/-- `TrainEnable`, 4000h[x].4 (BOOL, RW; R323). -/
def Od.trainEnable (x : Nat) : Nat := odKey 0x4000 x 4
/-- `ExchangeMode`, 4000h[x].5 (U8, RW; R323). -/
def Od.exchangeMode (x : Nat) : Nat := odKey 0x4000 x 5
/-- `TxPreset`, 4000h[x].6 (U8, RW; R323). -/
def Od.txPreset (x : Nat) : Nat := odKey 0x4000 x 6
/-- `AdaptMode`, 4000h[x].7 (U8, RW; R323). -/
def Od.adaptMode (x : Nat) : Nat := odKey 0x4000 x 7
/-- `PolarityInvert`, 4000h[x].8 (U8, RW; R323). -/
def Od.polarityInvert (x : Nat) : Nat := odKey 0x4000 x 8
/-- `LaneState`, 4001h[x].1 (U8, RO; R323). -/
def Od.laneState (x : Nat) : Nat := odKey 0x4001 x 1
/-- `ActiveMode`, 4001h[x].2 (U8, RO; R323). -/
def Od.activeMode (x : Nat) : Nat := odKey 0x4001 x 2
/-- `LastRestartCause`, 4001h[x].3 (U8, RO; R323). -/
def Od.lastRestartCause (x : Nat) : Nat := odKey 0x4001 x 3
/-- `BringUpMillis`, 4001h[x].4 (U32, RO; R323). -/
def Od.bringUpMillis (x : Nat) : Nat := odKey 0x4001 x 4
/-- `Restarts`, 4001h[x].5 (U32, RO; R323). -/
def Od.restarts (x : Nat) : Nat := odKey 0x4001 x 5
/-- `NegotiateResult`, 4001h[x].6 (U8, RO; R323). -/
def Od.negotiateResult (x : Nat) : Nat := odKey 0x4001 x 6
/-- `TrainResult`, 4001h[x].7 (U8, RO; R323). -/
def Od.trainResult (x : Nat) : Nat := odKey 0x4001 x 7
/-- `ExchangeResult`, 4001h[x].8 (U8, RO; R323). -/
def Od.exchangeResult (x : Nat) : Nat := odKey 0x4001 x 8
/-- `FarFrame`, 4001h[x].9 (OCTETS, RO; R323). -/
def Od.farFrame (x : Nat) : Nat := odKey 0x4001 x 9
/-- `IdMismatch`, 4001h[x].10 (BOOL, RO; R323). -/
def Od.idMismatch (x : Nat) : Nat := odKey 0x4001 x 10
/-- `FomNow`, 4002h[x].1 (F32, RO; R323). -/
def Od.fomNow (x : Nat) : Nat := odKey 0x4002 x 1
/-- `FomMinInterval`, 4002h[x].2 (F32, RO; R323). -/
def Od.fomMinInterval (x : Nat) : Nat := odKey 0x4002 x 2
/-- `ChannelLoss`, 4002h[x].3 (F32, RO; R323). -/
def Od.channelLoss (x : Nat) : Nat := odKey 0x4002 x 3
/-- `FreqOffset`, 4002h[x].4 (F32, RO; R323). -/
def Od.laneQualityFreqOffset (x : Nat) : Nat := odKey 0x4002 x 4
/-- `TxTaps`, 4002h[x].5 (OCTETS, RO; R323). -/
def Od.txTaps (x : Nat) : Nat := odKey 0x4002 x 5
/-- `LosEntries`, 4002h[x].6 (U32, RO; R323). -/
def Od.losEntries (x : Nat) : Nat := odKey 0x4002 x 6
/-- `GenPattern`, 4003h[x].1 (U8, RW; R323). -/
def Od.genPattern (x : Nat) : Nat := odKey 0x4003 x 1
/-- `CheckPattern`, 4003h[x].2 (U8, RW; R323). -/
def Od.checkPattern (x : Nat) : Nat := odKey 0x4003 x 2
/-- `CheckLocked`, 4003h[x].3 (BOOL, RO; R323). -/
def Od.checkLocked (x : Nat) : Nat := odKey 0x4003 x 3
/-- `CheckErrors`, 4003h[x].4 (U64, RO; R323). -/
def Od.checkErrors (x : Nat) : Nat := odKey 0x4003 x 4
/-- `CheckBits`, 4003h[x].5 (U64, RO; R323). -/
def Od.checkBits (x : Nat) : Nat := odKey 0x4003 x 5
/-- `InjectMode`, 4003h[x].6 (U8, RW; R323). -/
def Od.lanePrbsInjectMode (x : Nat) : Nat := odKey 0x4003 x 6
/-- `InjectCount`, 4003h[x].7 (U32, RW; R323). -/
def Od.lanePrbsInjectCount (x : Nat) : Nat := odKey 0x4003 x 7
/-- `InjectRateExp`, 4003h[x].8 (U8, RW; R323). -/
def Od.injectRateExp (x : Nat) : Nat := odKey 0x4003 x 8
/-- `InjectedErrors`, 4003h[x].9 (U64, RO; R323). -/
def Od.injectedErrors (x : Nat) : Nat := odKey 0x4003 x 9
/-- `LaneCommand`, 4004h[x] (U8, CMD; R323). -/
def Od.laneCommand (x : Nat) : Nat := odKey 0x4004 x 0
/-- `TxTimingGenerator`, 4010h[x].1 (U8, RW; R323). -/
def Od.txTimingGenerator (x : Nat) : Nat := odKey 0x4010 x 1
/-- `LanesActive`, 4010h[x].2 (U8, RO; R323). -/
def Od.lanesActive (x : Nat) : Nat := odKey 0x4010 x 2
/-- `LocalCardId`, 4012h.1 (U32, RW; R323). -/
def Od.localCardId : Nat := odKey 0x4012 0 1
/-- `AnTimeout`, 4012h.2 (U16, RW; R323). -/
def Od.anTimeout : Nat := odKey 0x4012 0 2
/-- `TrainTimeout`, 4012h.3 (U16, RW; R323). -/
def Od.trainTimeout : Nat := odKey 0x4012 0 3
/-- `LockTimeout`, 4012h.4 (U16, RW; R323). -/
def Od.lockTimeout : Nat := odKey 0x4012 0 4
/-- `ExchangeTimeout`, 4012h.5 (U16, RW; R323). -/
def Od.exchangeTimeout : Nat := odKey 0x4012 0 5
/-- `BringUpAlarm`, 4012h.6 (U16, RW; R323). -/
def Od.bringUpAlarm : Nat := odKey 0x4012 0 6
/-- `FomLockNrz`, 4012h.7 (I16, RW; R323). -/
def Od.fomLockNrz : Nat := odKey 0x4012 0 7
/-- `FomLockPam4`, 4012h.8 (I16, RW; R323). -/
def Od.fomLockPam4 : Nat := odKey 0x4012 0 8
/-- `ClientType`, 4040h[x].1 (U8, RW; R323). -/
def Od.clientType (x : Nat) : Nat := odKey 0x4040 x 1
/-- `FirstLane`, 4040h[x].2 (U16, RW; R323). -/
def Od.firstLane (x : Nat) : Nat := odKey 0x4040 x 2
/-- `AllowedTypes`, 4040h[x].3 (U32, RW; R323). -/
def Od.allowedTypes (x : Nat) : Nat := odKey 0x4040 x 3
/-- `CbrRate`, 4040h[x].4 (U32, RW; R323). -/
def Od.cbrRate (x : Nat) : Nat := odKey 0x4040 x 4
/-- `FecMode`, 4040h[x].5 (U8, RW; R323). -/
def Od.fecMode (x : Nat) : Nat := odKey 0x4040 x 5
/-- `MappingKind`, 4040h[x].6 (U8, RW; R323). -/
def Od.mappingKind (x : Nat) : Nat := odKey 0x4040 x 6
/-- `AggregateTray`, 4040h[x].7 (U16, RW; R323). -/
def Od.aggregateTray (x : Nat) : Nat := odKey 0x4040 x 7
/-- `ExpectedFarCard`, 4040h[x].8 (U32, RW; R323). -/
def Od.expectedFarCard (x : Nat) : Nat := odKey 0x4040 x 8
/-- `ActiveType`, 4040h[x].9 (U8, RO; R323). -/
def Od.activeType (x : Nat) : Nat := odKey 0x4040 x 9
/-- `PcsState`, 4040h[x].10 (U8, RO; R323). -/
def Od.pcsState (x : Nat) : Nat := odKey 0x4040 x 10
/-- `FecCorrected`, 4040h[x].11 (U64, RO; R323). -/
def Od.fecCorrected (x : Nat) : Nat := odKey 0x4040 x 11
/-- `FecUncorrected`, 4040h[x].12 (U64, RO; R323). -/
def Od.fecUncorrected (x : Nat) : Nat := odKey 0x4040 x 12
/-- `PreFecBerInterval`, 4040h[x].13 (F32, RO; R323). -/
def Od.preFecBerInterval (x : Nat) : Nat := odKey 0x4040 x 13
/-- `SmBipErrors`, 4040h[x].14 (U64, RO; R323). -/
def Od.smBipErrors (x : Nat) : Nat := odKey 0x4040 x 14
/-- `LosslessMask`, 4050h[x].1 (U8, RW; R323). -/
def Od.losslessMask (x : Nat) : Nat := odKey 0x4050 x 1
/-- `LinkDelay`, 4050h[x].2 (U32, RW; R323). -/
def Od.linkDelay (x : Nat) : Nat := odKey 0x4050 x 2
/-- `PartnerResponse`, 4050h[x].3 (U32, RW; R323). -/
def Od.partnerResponse (x : Nat) : Nat := odKey 0x4050 x 3
/-- `MaxFrame`, 4050h[x].4 (U16, RW; R323). -/
def Od.maxFrame (x : Nat) : Nat := odKey 0x4050 x 4
/-- `XoffBytes`, 4050h[x].5 (U32, RW; R323). -/
def Od.xoffBytes (x : Nat) : Nat := odKey 0x4050 x 5
/-- `XonBytes`, 4050h[x].6 (U32, RW; R323). -/
def Od.xonBytes (x : Nat) : Nat := odKey 0x4050 x 6
/-- `HeadroomRequired`, 4050h[x].7 (U32, RO; R323). -/
def Od.headroomRequired (x : Nat) : Nat := odKey 0x4050 x 7
/-- `QueuePeak0–7`, 4051h[x].1–8 (U32, RO; R323). -/
def Od.queuePeak (x j : Nat) : Nat := odKey 0x4051 x (1 + j)
/-- `Drops0–7`, 4051h[x].9–16 (U64, RO; R323). -/
def Od.drops (x j : Nat) : Nat := odKey 0x4051 x (9 + j)
/-- `XoffSent`, 4051h[x].17 (U64, RO; R323). -/
def Od.xoffSent (x : Nat) : Nat := odKey 0x4051 x 17
/-- `PauseReceived`, 4051h[x].18 (U64, RO; R323). -/
def Od.pauseReceived (x : Nat) : Nat := odKey 0x4051 x 18
/-- `EgressPauseDrops`, 4051h[x].19 (U64, RO; R323). -/
def Od.egressPauseDrops (x : Nat) : Nat := odKey 0x4051 x 19
/-- `PoolBytes`, 4060h[x].1 (U32, RO; R323). -/
def Od.poolBytes (x : Nat) : Nat := odKey 0x4060 x 1
/-- `Allocated`, 4060h[x].2 (U32, RO; R323). -/
def Od.allocated (x : Nat) : Nat := odKey 0x4060 x 2
/-- `PeakUsed`, 4060h[x].3 (U32, RO; R323). -/
def Od.peakUsed (x : Nat) : Nat := odKey 0x4060 x 3
/-- `ClearLaneCounters`, 4070h (U8, CMD; R323). -/
def Od.clearLaneCounters : Nat := odKey 0x4070 0 0
/-- `WorkCarrier`, 4100h[x].1 (U8, RWS; R344). -/
def Od.workCarrier (x : Nat) : Nat := odKey 0x4100 x 1
/-- `WorkFirstSlot`, 4100h[x].2 (U16, RWS; R344). -/
def Od.workFirstSlot (x : Nat) : Nat := odKey 0x4100 x 2
/-- `SlotCount`, 4100h[x].3 (U16, RWS; R344). -/
def Od.slotCount (x : Nat) : Nat := odKey 0x4100 x 3
/-- `ProtCarrier`, 4100h[x].4 (U8, RWS; R344). -/
def Od.protCarrier (x : Nat) : Nat := odKey 0x4100 x 4
/-- `ProtFirstSlot`, 4100h[x].5 (U16, RWS; R344). -/
def Od.protFirstSlot (x : Nat) : Nat := odKey 0x4100 x 5
/-- `EthernetMapping`, 4100h[x].6 (U8, RWS; R344). -/
def Od.ethernetMapping (x : Nat) : Nat := odKey 0x4100 x 6
/-- `RequiredSlots`, 4100h[x].7 (U16, RO; R344). -/
def Od.requiredSlots (x : Nat) : Nat := odKey 0x4100 x 7
/-- `TrayKind`, 4100h[x].8 (U8, RO; R344). -/
def Od.trayKind (x : Nat) : Nat := odKey 0x4100 x 8
/-- `TrayState`, 4101h[x].1 (U8, RO; R344). -/
def Od.trayState (x : Nat) : Nat := odKey 0x4101 x 1
/-- `FarStatus`, 4101h[x].2 (U8, RO; R344). -/
def Od.farStatus (x : Nat) : Nat := odKey 0x4101 x 2
/-- `OverheadErrors`, 4101h[x].3 (U32, RO; R344). -/
def Od.overheadErrors (x : Nat) : Nat := odKey 0x4101 x 3
/-- `ReplacedBlocks`, 4101h[x].4 (U64, RO; R344). -/
def Od.replacedBlocks (x : Nat) : Nat := odKey 0x4101 x 4
/-- `DroppedFrames`, 4101h[x].5 (U64, RO; R344). -/
def Od.droppedFrames (x : Nat) : Nat := odKey 0x4101 x 5
/-- `FillMicrosInterval`, 4101h[x].6 (U32, RO; R344). -/
def Od.fillMicrosInterval (x : Nat) : Nat := odKey 0x4101 x 6
/-- `Revertive`, 4200h[x].1 (BOOL, RW; R344). -/
def Od.protectionRevertive (x : Nat) : Nat := odKey 0x4200 x 1
/-- `HoldOff`, 4200h[x].2 (U16, RW; R344). -/
def Od.holdOff (x : Nat) : Nat := odKey 0x4200 x 2
/-- `WaitToRestore`, 4200h[x].3 (U16, RW; R344). -/
def Od.protectionWaitToRestore (x : Nat) : Nat := odKey 0x4200 x 3
/-- `MaxDiffDelay`, 4200h[x].4 (U16, RWS; R344). -/
def Od.maxDiffDelay (x : Nat) : Nat := odKey 0x4200 x 4
/-- `SdThreshold`, 4200h[x].5 (U16, RW; R344). -/
def Od.sdThreshold (x : Nat) : Nat := odKey 0x4200 x 5
/-- `RealignPolicy`, 4200h[x].6 (U8, RW; R344). -/
def Od.realignPolicy (x : Nat) : Nat := odKey 0x4200 x 6
/-- `Selected`, 4201h[x].1 (U8, RO; R344). -/
def Od.selected (x : Nat) : Nat := odKey 0x4201 x 1
/-- `ActiveRequest`, 4201h[x].2 (U8, RO; R344). -/
def Od.activeRequest (x : Nat) : Nat := odKey 0x4201 x 2
/-- `WorkingCondition`, 4201h[x].3 (U8, RO; R344). -/
def Od.workingCondition (x : Nat) : Nat := odKey 0x4201 x 3
/-- `ProtectionCondition`, 4201h[x].4 (U8, RO; R344). -/
def Od.protectionCondition (x : Nat) : Nat := odKey 0x4201 x 4
/-- `DiffDelay`, 4201h[x].5 (I32, RO; R344). -/
def Od.diffDelay (x : Nat) : Nat := odKey 0x4201 x 5
/-- `Equalised`, 4201h[x].6 (BOOL, RO; R344). -/
def Od.equalised (x : Nat) : Nat := odKey 0x4201 x 6
/-- `Switches`, 4201h[x].7 (U32, RO; R344). -/
def Od.protStatusSwitches (x : Nat) : Nat := odKey 0x4201 x 7
/-- `Realignments`, 4201h[x].8 (U32, RO; R344). -/
def Od.realignments (x : Nat) : Nat := odKey 0x4201 x 8
/-- `DelayPages`, 4201h[x].9 (U32, RO; R344). -/
def Od.delayPages (x : Nat) : Nat := odKey 0x4201 x 9
/-- `ProtCommand`, 4202h[x] (U8, CMD; R344). -/
def Od.protCommand (x : Nat) : Nat := odKey 0x4202 x 0
/-- `ClearTrayCounters`, 4210h (U8, CMD; R344). -/
def Od.clearTrayCounters : Nat := odKey 0x4210 0 0
/-- `SealEnable`, 4300h[x].1 (BOOL, RWS; R373). -/
def Od.sealEnable (x : Nat) : Nat := odKey 0x4300 x 1
/-- `SealMode`, 4300h[x].2 (U8, RWS; R373). -/
def Od.sealMode (x : Nat) : Nat := odKey 0x4300 x 2
/-- `SealSide`, 4300h[x].3 (U8, RW; R373). -/
def Od.sealSide (x : Nat) : Nat := odKey 0x4300 x 3
/-- `RolloverLead`, 4300h[x].4 (U8, RW; R373). -/
def Od.rolloverLead (x : Nat) : Nat := odKey 0x4300 x 4
/-- `TxKeySelect`, 4301h[x].1 (U8, RO; R373). -/
def Od.txKeySelect (x : Nat) : Nat := odKey 0x4301 x 1
/-- `RolloverState`, 4301h[x].2 (U8, RO; R373). -/
def Od.rolloverState (x : Nat) : Nat := odKey 0x4301 x 2
/-- `WorkTxPhase`, 4301h[x].3 (U8, RO; R373). -/
def Od.workTxPhase (x : Nat) : Nat := odKey 0x4301 x 3
/-- `ProtTxPhase`, 4301h[x].4 (U8, RO; R373). -/
def Od.protTxPhase (x : Nat) : Nat := odKey 0x4301 x 4
/-- `WorkRxState`, 4301h[x].5 (U8, RO; R373). -/
def Od.workRxState (x : Nat) : Nat := odKey 0x4301 x 5
/-- `ProtRxState`, 4301h[x].6 (U8, RO; R373). -/
def Od.protRxState (x : Nat) : Nat := odKey 0x4301 x 6
/-- `RxKeySelect`, 4301h[x].7 (U8, RO; R373). -/
def Od.rxKeySelect (x : Nat) : Nat := odKey 0x4301 x 7
/-- `SpansVerified`, 4301h[x].8 (U64, RO; R373). -/
def Od.spansVerified (x : Nat) : Nat := odKey 0x4301 x 8
/-- `SealFailures`, 4301h[x].9 (U64, RO; R373). -/
def Od.sealFailures (x : Nat) : Nat := odKey 0x4301 x 9
/-- `TagsMissing`, 4301h[x].10 (U64, RO; R373). -/
def Od.tagsMissing (x : Nat) : Nat := odKey 0x4301 x 10
/-- `SealLatency`, 4301h[x].11 (F32, RO; R373). -/
def Od.sealLatency (x : Nat) : Nat := odKey 0x4301 x 11
/-- `SealCommand`, 4302h[x] (U8, CMD; R373). -/
def Od.sealCommand (x : Nat) : Nat := odKey 0x4302 x 0
/-- `TrayKeyLoad`, 4310h[x] (OCTETS, KEY; R373). -/
def Od.trayKeyLoad (x : Nat) : Nat := odKey 0x4310 x 0
/-- `SlotState`, 4311h[x].1 (U8, RO; R373). -/
def Od.trayKeySlotSlotState (x : Nat) : Nat := odKey 0x4311 x 1
/-- `KeyCheck`, 4311h[x].2 (OCTETS, RO; R373). -/
def Od.trayKeySlotKeyCheck (x : Nat) : Nat := odKey 0x4311 x 2
/-- `EpochNext`, 4311h[x].3 (U32, RO; R373). -/
def Od.epochNext (x : Nat) : Nat := odKey 0x4311 x 3
/-- `LoadedAt`, 4311h[x].4 (OCTETS, RO; R373). -/
def Od.loadedAt (x : Nat) : Nat := odKey 0x4311 x 4
/-- `Origin`, 4311h[x].5 (U8, RO; R373). -/
def Od.origin (x : Nat) : Nat := odKey 0x4311 x 5
/-- `KeySlotCommand`, 4312h[x] (U8, CMD; R373). -/
def Od.keySlotCommand (x : Nat) : Nat := odKey 0x4312 x 0
/-- `UtilityKeyLoad`, 4318h[x] (OCTETS, KEY; R373). -/
def Od.utilityKeyLoad (x : Nat) : Nat := odKey 0x4318 x 0
/-- `SlotState`, 4319h[x].1 (U8, RO; R373). -/
def Od.utilityKeySlotSlotState (x : Nat) : Nat := odKey 0x4319 x 1
/-- `KeyCheck`, 4319h[x].2 (OCTETS, RO; R373). -/
def Od.utilityKeySlotKeyCheck (x : Nat) : Nat := odKey 0x4319 x 2
/-- `UseMask`, 4319h[x].3 (U8, RW; R373). -/
def Od.useMask (x : Nat) : Nat := odKey 0x4319 x 3
/-- `UtilityKeyCommand`, 431Ah[x] (U8, CMD; R373). -/
def Od.utilityKeyCommand (x : Nat) : Nat := odKey 0x431A x 0
/-- `WrapPublicKey`, 4320h.1 (OCTETS, RO; R373). -/
def Od.wrapPublicKey : Nat := odKey 0x4320 0 1
/-- `KekPeerKey`, 4320h.2 (OCTETS, RW; R373). -/
def Od.kekPeerKey : Nat := odKey 0x4320 0 2
/-- `KekId`, 4320h.3 (OCTETS, RO; R373). -/
def Od.kekId : Nat := odKey 0x4320 0 3
/-- `AgreementPublicKey`, 4320h.4 (OCTETS, RO; R373). -/
def Od.agreementPublicKey : Nat := odKey 0x4320 0 4
/-- `KeyLoadFailures`, 4320h.5 (U32, RO; R373). -/
def Od.keyLoadFailures : Nat := odKey 0x4320 0 5
/-- `PeerAgreementKey`, 4321h[x].1 (OCTETS, RW; R373). -/
def Od.peerAgreementKey (x : Nat) : Nat := odKey 0x4321 x 1
/-- `AgreeState`, 4321h[x].2 (U8, RO; R373). -/
def Od.agreeState (x : Nat) : Nat := odKey 0x4321 x 2
/-- `AgreeResult`, 4321h[x].3 (U8, RO; R373). -/
def Od.agreeResult (x : Nat) : Nat := odKey 0x4321 x 3
/-- `AgreeTimeout`, 4321h[x].4 (U16, RW; R373). -/
def Od.agreeTimeout (x : Nat) : Nat := odKey 0x4321 x 4
/-- `AgreeCommand`, 4322h[x] (U8, CMD; R373). -/
def Od.agreeCommand (x : Nat) : Nat := odKey 0x4322 x 0
/-- `LockHolder`, 4340h.1 (U8, RO; R373). -/
def Od.lockHolder : Nat := odKey 0x4340 0 1
/-- `LidKeySlot`, 4340h.2 (U8, RW; R373). -/
def Od.lidKeySlot : Nat := odKey 0x4340 0 2
/-- `LidDirection`, 4340h.3 (U8, RW; R373). -/
def Od.lidDirection : Nat := odKey 0x4340 0 3
/-- `LidBlock`, 4340h.4 (OCTETS, RW; R373). -/
def Od.lidBlock : Nat := odKey 0x4340 0 4
/-- `LidLease`, 4340h.5 (U16, RW; R373). -/
def Od.lidLease : Nat := odKey 0x4340 0 5
/-- `LidOperations`, 4340h.6 (U64, RO; R373). -/
def Od.lidOperations : Nat := odKey 0x4340 0 6
/-- `LidLeaseExpiries`, 4340h.7 (U32, RO; R373). -/
def Od.lidLeaseExpiries : Nat := odKey 0x4340 0 7
/-- `LidLock`, 4341h (U8, CMD; R373). -/
def Od.lidLock : Nat := odKey 0x4341 0 0
/-- `ClearSealCounters`, 4350h (U8, CMD; R373). -/
def Od.clearSealCounters : Nat := odKey 0x4350 0 0
/-- `HubActive`, 5000h[x].1 (BOOL, RWS; R414). -/
def Od.hubActive (x : Nat) : Nat := odKey 0x5000 x 1
/-- `DownSlots`, 5000h[x].2 (U16, RWS; R414). -/
def Od.downSlots (x : Nat) : Nat := odKey 0x5000 x 2
/-- `DiscoveryEnable`, 5000h[x].3 (BOOL, RW; R414). -/
def Od.discoveryEnable (x : Nat) : Nat := odKey 0x5000 x 3
/-- `DiscoveryPhase`, 5000h[x].4 (U8, RW; R414). -/
def Od.discoveryPhase (x : Nat) : Nat := odKey 0x5000 x 4
/-- `Spread`, 5000h[x].5 (U16, RW; R414). -/
def Od.spread (x : Nat) : Nat := odKey 0x5000 x 5
/-- `CaptureDiscovery`, 5000h[x].6 (BOOL, RW; R414). -/
def Od.captureDiscovery (x : Nat) : Nat := odKey 0x5000 x 6
/-- `CaptureGrants`, 5000h[x].7 (BOOL, RW; R414). -/
def Od.captureGrants (x : Nat) : Nat := odKey 0x5000 x 7
/-- `CaptureMargin`, 5000h[x].8 (U8, RW; R414). -/
def Od.captureMargin (x : Nat) : Nat := odKey 0x5000 x 8
/-- `PreambleThreshold`, 5000h[x].9 (U16, RW; R414). -/
def Od.preambleThreshold (x : Nat) : Nat := odKey 0x5000 x 9
/-- `SyncErrors`, 5000h[x].10 (U8, RW; R414). -/
def Od.syncErrors (x : Nat) : Nat := odKey 0x5000 x 10
/-- `PollInterval`, 5000h[x].11 (U8, RW; R414). -/
def Od.pollInterval (x : Nat) : Nat := odKey 0x5000 x 11
/-- `DormantPoll`, 5000h[x].12 (U16, RW; R414). -/
def Od.dormantPoll (x : Nat) : Nat := odKey 0x5000 x 12
/-- `HubSeal`, 5000h[x].13 (BOOL, RWS; R414). -/
def Od.hubSeal (x : Nat) : Nat := odKey 0x5000 x 13
/-- `DefaultDispersion`, 5000h[x].14 (I32, RW; R414). -/
def Od.defaultDispersion (x : Nat) : Nat := odKey 0x5000 x 14
/-- `RegisteredLeaves`, 5000h[x].15 (U16, RO; R414). -/
def Od.registeredLeaves (x : Nat) : Nat := odKey 0x5000 x 15
/-- `FrameUnits`, 5000h[x].16 (U32, RO; R414). -/
def Od.frameUnits (x : Nat) : Nat := odKey 0x5000 x 16
/-- `HubRolloverFrames`, 5000h[x].17 (U16, RW; R414). -/
def Od.hubRolloverFrames (x : Nat) : Nat := odKey 0x5000 x 17
/-- `RangeTolerance`, 5000h[x].18 (U8, RW; R414). -/
def Od.rangeTolerance (x : Nat) : Nat := odKey 0x5000 x 18
/-- `RangingAttempts`, 5000h[x].19 (U8, RW; R414). -/
def Od.rangingAttempts (x : Nat) : Nat := odKey 0x5000 x 19
/-- `LostBursts`, 5000h[x].20 (U8, RW; R414). -/
def Od.lostBursts (x : Nat) : Nat := odKey 0x5000 x 20
/-- `GrantMapStale`, 5001h[x].1 (U32, RO; R414). -/
def Od.grantMapStale (x : Nat) : Nat := odKey 0x5001 x 1
/-- `BurstsReceived`, 5001h[x].2 (U64, RO; R414). -/
def Od.burstsReceived (x : Nat) : Nat := odKey 0x5001 x 2
/-- `BurstFalseDetect`, 5001h[x].3 (U32, RO; R414). -/
def Od.burstFalseDetect (x : Nat) : Nat := odKey 0x5001 x 3
/-- `BurstCapturedAway`, 5001h[x].4 (U32, RO; R414). -/
def Od.burstCapturedAway (x : Nat) : Nat := odKey 0x5001 x 4
/-- `BurstOverlaps`, 5001h[x].5 (U32, RO; R414). -/
def Od.burstOverlaps (x : Nat) : Nat := odKey 0x5001 x 5
/-- `ContextMiss`, 5001h[x].6 (U32, RO; R414). -/
def Od.contextMiss (x : Nat) : Nat := odKey 0x5001 x 6
/-- `HeaderErrors`, 5001h[x].7 (U32, RO; R414). -/
def Od.headerErrors (x : Nat) : Nat := odKey 0x5001 x 7
/-- `UngrantedBursts`, 5001h[x].8 (U32, RO; R414). -/
def Od.ungrantedBursts (x : Nat) : Nat := odKey 0x5001 x 8
/-- `DiscoveryBursts`, 5001h[x].9 (U32, RO; R414). -/
def Od.discoveryBursts (x : Nat) : Nat := odKey 0x5001 x 9
/-- `UnknownSerials`, 5001h[x].10 (U32, RO; R414). -/
def Od.unknownSerials (x : Nat) : Nat := odKey 0x5001 x 10
/-- `Redirects`, 5001h[x].11 (U32, RO; R414). -/
def Od.redirects (x : Nat) : Nat := odKey 0x5001 x 11
/-- `RangeOutOfWindow`, 5001h[x].12 (U32, RO; R414). -/
def Od.rangeOutOfWindow (x : Nat) : Nat := odKey 0x5001 x 12
/-- `RegistrationsRefused`, 5001h[x].13 (U32, RO; R414). -/
def Od.registrationsRefused (x : Nat) : Nat := odKey 0x5001 x 13
/-- `PayloadBlocksUncorrected`, 5001h[x].14 (U64, RO; R414). -/
def Od.payloadBlocksUncorrected (x : Nat) : Nat := odKey 0x5001 x 14
/-- `PayloadBlocks`, 5001h[x].15 (U64, RO; R414). -/
def Od.payloadBlocks (x : Nat) : Nat := odKey 0x5001 x 15
/-- `UpDroppedFrames`, 5001h[x].16 (U64, RO; R414). -/
def Od.upDroppedFrames (x : Nat) : Nat := odKey 0x5001 x 16
/-- `HubKeyCommand`, 5002h[x] (U8, CMD; R414). -/
def Od.hubKeyCommand (x : Nat) : Nat := odKey 0x5002 x 0
/-- `HubKeySelect`, 5003h[x].1 (U8, RO; R414). -/
def Od.hubKeySelect (x : Nat) : Nat := odKey 0x5003 x 1
/-- `HubEpoch`, 5003h[x].2 (U32, RO; R414). -/
def Od.hubEpoch (x : Nat) : Nat := odKey 0x5003 x 2
/-- `RolloverFrame`, 5003h[x].3 (U64, RO; R414). -/
def Od.rolloverFrame (x : Nat) : Nat := odKey 0x5003 x 3
/-- `HubMode`, 5010h[x].1 (BOOL, RW; R414). -/
def Od.hubMode (x : Nat) : Nat := odKey 0x5010 x 1
/-- `EqualisedDelay`, 5010h[x].2 (U16, RW; R414). -/
def Od.equalisedDelay (x : Nat) : Nat := odKey 0x5010 x 2
/-- `ReachMin`, 5010h[x].3 (U16, RW; R414). -/
def Od.reachMin (x : Nat) : Nat := odKey 0x5010 x 3
/-- `ReachMax`, 5010h[x].4 (U16, RW; R414). -/
def Od.reachMax (x : Nat) : Nat := odKey 0x5010 x 4
/-- `SourceTray`, 5020h[x].1 (U16, RW; R414). -/
def Od.sourceTray (x : Nat) : Nat := odKey 0x5020 x 1
/-- `UnclassifiedDrops`, 5020h[x].2 (U64, RO; R414). -/
def Od.unclassifiedDrops (x : Nat) : Nat := odKey 0x5020 x 2
/-- `SourceEgressDrops`, 5020h[x].3 (U64, RO; R414). -/
def Od.sourceEgressDrops (x : Nat) : Nat := odKey 0x5020 x 3
/-- `HubFrame`, 5030h.1 (U64, RO; R414). -/
def Od.hubFrame : Nat := odKey 0x5030 0 1
/-- `HubCarriers`, 5030h.2 (U8, RO; R414). -/
def Od.hubCarriers : Nat := odKey 0x5030 0 2
/-- `HotContexts`, 5030h.3 (U16, RO; R414). -/
def Od.hotContexts : Nat := odKey 0x5030 0 3
/-- `LeavesPerFramePeak`, 5030h.4 (U16, RO; R414). -/
def Od.leavesPerFramePeak : Nat := odKey 0x5030 0 4
/-- `BuildMicrosPeak`, 5030h.5 (F32, RO; R414). -/
def Od.buildMicrosPeak : Nat := odKey 0x5030 0 5
/-- `MaxLeavesPerFrame`, 5030h.6 (U16, RW; R414). -/
def Od.maxLeavesPerFrame : Nat := odKey 0x5030 0 6
/-- `ContextPoisoned`, 5030h.7 (U32, RO; R414). -/
def Od.contextPoisoned : Nat := odKey 0x5030 0 7
/-- `ClearHubCounters`, 5031h (U8, CMD; R414). -/
def Od.clearHubCounters : Nat := odKey 0x5031 0 0
/-- `LeafEnable`, 5100h[x].1 (BOOL, RW; R414). -/
def Od.leafEnable (x : Nat) : Nat := odKey 0x5100 x 1
/-- `LeafSerial`, 5100h[x].2 (OCTETS, RW; R414). -/
def Od.leafSerial (x : Nat) : Nat := odKey 0x5100 x 2
/-- `LeafHome`, 5100h[x].3 (U16, RW; R414). -/
def Od.leafHome (x : Nat) : Nat := odKey 0x5100 x 3
/-- `LeafTags`, 5100h[x].4 (U32, RW; R414). -/
def Od.leafTags (x : Nat) : Nat := odKey 0x5100 x 4
/-- `LeafSource`, 5100h[x].5 (U8, RW; R414). -/
def Od.leafSource (x : Nat) : Nat := odKey 0x5100 x 5
/-- `UpWeight`, 5100h[x].6 (U8, RW; R414). -/
def Od.upWeight (x : Nat) : Nat := odKey 0x5100 x 6
/-- `UpMinBlocks`, 5100h[x].7 (U16, RW; R414). -/
def Od.upMinBlocks (x : Nat) : Nat := odKey 0x5100 x 7
/-- `UpMaxBlocks`, 5100h[x].8 (U16, RW; R414). -/
def Od.upMaxBlocks (x : Nat) : Nat := odKey 0x5100 x 8
/-- `DownWeight`, 5100h[x].9 (U8, RW; R414). -/
def Od.downWeight (x : Nat) : Nat := odKey 0x5100 x 9
/-- `DownRateMax`, 5100h[x].10 (U32, RW; R414). -/
def Od.downRateMax (x : Nat) : Nat := odKey 0x5100 x 10
/-- `UpFormat`, 5100h[x].11 (U8, RW; R414). -/
def Od.upFormat (x : Nat) : Nat := odKey 0x5100 x 11
/-- `LeafState`, 5100h[x].12 (U8, RO; R414). -/
def Od.leafState (x : Nat) : Nat := odKey 0x5100 x 12
/-- `RangingDelay`, 5100h[x].13 (I32, RO; R414). -/
def Od.rangingDelay (x : Nat) : Nat := odKey 0x5100 x 13
/-- `ArrivalError`, 5100h[x].14 (F32, RO; R414). -/
def Od.arrivalError (x : Nat) : Nat := odKey 0x5100 x 14
/-- `LastDemand`, 5100h[x].15 (U32, RO; R414). -/
def Od.lastDemand (x : Nat) : Nat := odKey 0x5100 x 15
/-- `LeafBursts`, 5100h[x].16 (U64, RO; R414). -/
def Od.leafBursts (x : Nat) : Nat := odKey 0x5100 x 16
/-- `MissedGrants`, 5100h[x].17 (U32, RO; R414). -/
def Od.missedGrants (x : Nat) : Nat := odKey 0x5100 x 17
/-- `LeafSealFailures`, 5100h[x].18 (U32, RO; R414). -/
def Od.leafSealFailures (x : Nat) : Nat := odKey 0x5100 x 18
/-- `UpFrames`, 5100h[x].19 (U64, RO; R414). -/
def Od.upFrames (x : Nat) : Nat := odKey 0x5100 x 19
/-- `UpTagDrops`, 5100h[x].20 (U32, RO; R414). -/
def Od.upTagDrops (x : Nat) : Nat := odKey 0x5100 x 20
/-- `UpErrorDrops`, 5100h[x].21 (U32, RO; R414). -/
def Od.upErrorDrops (x : Nat) : Nat := odKey 0x5100 x 21
/-- `LeafContext`, 5101h[x] (BLOCK, RO; R414). -/
def Od.leafContext (x : Nat) : Nat := odKey 0x5101 x 0
/-- `SeedProfile`, 5102h[x] (BLOCK, RW; R414). -/
def Od.seedProfile (x : Nat) : Nat := odKey 0x5102 x 0
/-- `LeafCommand`, 5103h[x] (U8, CMD; R414). -/
def Od.leafCommand (x : Nat) : Nat := odKey 0x5103 x 0
/-- `QueueLimit`, 5200h[x].1 (U32, RW; R414). -/
def Od.queueLimit (x : Nat) : Nat := odKey 0x5200 x 1
/-- `QueueBytes`, 5200h[x].2 (U32, RO; R414). -/
def Od.queueBytes (x : Nat) : Nat := odKey 0x5200 x 2
/-- `QueueFrames`, 5200h[x].3 (U32, RO; R414). -/
def Od.queueFrames (x : Nat) : Nat := odKey 0x5200 x 3
/-- `QueueDrops`, 5200h[x].4 (U64, RO; R414). -/
def Od.queueDrops (x : Nat) : Nat := odKey 0x5200 x 4
/-- `NoLeafDrops`, 5200h[x].5 (U64, RO; R414). -/
def Od.noLeafDrops (x : Nat) : Nat := odKey 0x5200 x 5
/-- `Rewinds`, 5200h[x].6 (U32, RO; R414). -/
def Od.rewinds (x : Nat) : Nat := odKey 0x5200 x 6
/-- `Flushes`, 5200h[x].7 (U32, RO; R414). -/
def Od.flushes (x : Nat) : Nat := odKey 0x5200 x 7
/-- `FlushedFrames`, 5200h[x].8 (U64, RO; R414). -/
def Od.flushedFrames (x : Nat) : Nat := odKey 0x5200 x 8
/-- `DownFramesSent`, 5200h[x].9 (U64, RO; R414). -/
def Od.downFramesSent (x : Nat) : Nat := odKey 0x5200 x 9
/-- `QueueCommand`, 5201h[x] (U8, CMD; R414). -/
def Od.queueCommand (x : Nat) : Nat := odKey 0x5201 x 0
/-- `RegionPages`, 5210h.1 (U32, RO; R414). -/
def Od.queueRegionRegionPages : Nat := odKey 0x5210 0 1
/-- `PagesUsed`, 5210h.2 (U32, RO; R414). -/
def Od.pagesUsed : Nat := odKey 0x5210 0 2
/-- `PagesPeak`, 5210h.3 (U32, RO; R414). -/
def Od.pagesPeak : Nat := odKey 0x5210 0 3
/-- `PageErrorDrops`, 5210h.4 (U64, RO; R414). -/
def Od.pageErrorDrops : Nat := odKey 0x5210 0 4
/-- `CorrectionStrength`, 6000h.1 (U8, RW; R442). -/
def Od.correctionStrength : Nat := odKey 0x6000 0 1
/-- `ActiveStrength`, 6000h.2 (U8, RO; R442). -/
def Od.activeStrength : Nat := odKey 0x6000 0 2
/-- `ScrubPeriod`, 6000h.3 (U16, RW; R442). -/
def Od.scrubPeriod : Nat := odKey 0x6000 0 3
/-- `PersistentThreshold`, 6000h.4 (U8, RW; R442). -/
def Od.persistentThreshold : Nat := odKey 0x6000 0 4
/-- `StockpotUnwrittenReads`, 6000h.5 (U64, RO; R442). -/
def Od.stockpotUnwrittenReads : Nat := odKey 0x6000 0 5
/-- `CorrectedReads`, 6000h.6 (U64, RO; R442). -/
def Od.correctedReads : Nat := odKey 0x6000 0 6
/-- `CorrectedBits`, 6000h.7 (U64, RO; R442). -/
def Od.stockpotControlCorrectedBits : Nat := odKey 0x6000 0 7
/-- `NearLimitReads`, 6000h.8 (U32, RO; R442). -/
def Od.nearLimitReads : Nat := odKey 0x6000 0 8
/-- `PersistentPages`, 6000h.9 (U32, RO; R442). -/
def Od.persistentPages : Nat := odKey 0x6000 0 9
/-- `PoisonedPages`, 6000h.10 (U32, RO; R442). -/
def Od.poisonedPages : Nat := odKey 0x6000 0 10
/-- `PoisonedReads`, 6000h.11 (U64, RO; R442). -/
def Od.poisonedReads : Nat := odKey 0x6000 0 11
/-- `ScrubPasses`, 6000h.12 (U32, RO; R442). -/
def Od.scrubPasses : Nat := odKey 0x6000 0 12
/-- `QueuePages`, 6001h[x].1 (U32, RW; R442). -/
def Od.queuePages (x : Nat) : Nat := odKey 0x6001 x 1
/-- `FreePages`, 6001h[x].2 (U32, RO; R442). -/
def Od.freePages (x : Nat) : Nat := odKey 0x6001 x 2
/-- `SparesFree`, 6001h[x].3 (U32, RO; R442). -/
def Od.sparesFree (x : Nat) : Nat := odKey 0x6001 x 3
/-- `RetiredPages`, 6001h[x].4 (U32, RO; R442). -/
def Od.retiredPages (x : Nat) : Nat := odKey 0x6001 x 4
/-- `StackState`, 6001h[x].5 (U8, RO; R442). -/
def Od.stackState (x : Nat) : Nat := odKey 0x6001 x 5
/-- `ScrubPosition`, 6001h[x].6 (U32, RO; R442). -/
def Od.scrubPosition (x : Nat) : Nat := odKey 0x6001 x 6
/-- `LastSweepSeconds`, 6001h[x].7 (F32, RO; R442). -/
def Od.lastSweepSeconds (x : Nat) : Nat := odKey 0x6001 x 7
/-- `StockpotLog`, 6002h (BLOCK, RO; R442). -/
def Od.stockpotLog : Nat := odKey 0x6002 0 0
/-- `LogEntries`, 6003h.1 (U16, RO; R442). -/
def Od.logEntries : Nat := odKey 0x6003 0 1
/-- `LogOverwritten`, 6003h.2 (U32, RO; R442). -/
def Od.logOverwritten : Nat := odKey 0x6003 0 2
/-- `PageAddress`, 6004h.1 (U32, RW; R442). -/
def Od.pageAddress : Nat := odKey 0x6004 0 1
/-- `TargetRegion`, 6004h.2 (U8, RW; R442). -/
def Od.targetRegion : Nat := odKey 0x6004 0 2
/-- `StockpotCommand`, 6005h (U8, CMD; R442). -/
def Od.stockpotCommand : Nat := odKey 0x6005 0 0
/-- `RetirementList`, 6006h (BLOCK, RO; R442). -/
def Od.retirementList : Nat := odKey 0x6006 0 0
/-- `RegionKind`, 6010h[x].1 (U8, RO; R442). -/
def Od.regionKind (x : Nat) : Nat := odKey 0x6010 x 1
/-- `RegionStack`, 6010h[x].2 (U8, RW; R442). -/
def Od.regionStack (x : Nat) : Nat := odKey 0x6010 x 2
/-- `RegionPages`, 6010h[x].3 (U32, RW; R442). -/
def Od.stockpotRegionRegionPages (x : Nat) : Nat := odKey 0x6010 x 3
/-- `Strict`, 6010h[x].4 (BOOL, RW; R442). -/
def Od.strict (x : Nat) : Nat := odKey 0x6010 x 4
/-- `FillOnes`, 6010h[x].5 (BOOL, RO; R442). -/
def Od.fillOnes (x : Nat) : Nat := odKey 0x6010 x 5
/-- `UnwrittenReads`, 6010h[x].6 (U64, RO; R442). -/
def Od.unwrittenReads (x : Nat) : Nat := odKey 0x6010 x 6
/-- `RegionPoisonedReads`, 6010h[x].7 (U64, RO; R442). -/
def Od.regionPoisonedReads (x : Nat) : Nat := odKey 0x6010 x 7
/-- `PagesInUse`, 6010h[x].8 (U32, RO; R442). -/
def Od.pagesInUse (x : Nat) : Nat := odKey 0x6010 x 8
/-- `CaptureData`, 6011h[x] (BLOCK, RO; R442). -/
def Od.captureData (x : Nat) : Nat := odKey 0x6011 x 0
/-- `InspectAddress`, 6012h.1 (U32, RW; R442). -/
def Od.inspectAddress : Nat := odKey 0x6012 0 1
/-- `InspectStatus`, 6012h.2 (U8, RO; R442). -/
def Od.inspectStatus : Nat := odKey 0x6012 0 2
/-- `InspectTag`, 6012h.3 (U8, RO; R442). -/
def Od.inspectTag : Nat := odKey 0x6012 0 3
/-- `InspectCorrected`, 6012h.4 (U8, RO; R442). -/
def Od.inspectCorrected : Nat := odKey 0x6012 0 4
/-- `InspectData`, 6013h (BLOCK, RO; R442). -/
def Od.inspectData : Nat := odKey 0x6013 0 0
/-- `SourceKind`, 6100h[x].1 (U8, RW; R442). -/
def Od.sourceKind (x : Nat) : Nat := odKey 0x6100 x 1
/-- `SourceInstance`, 6100h[x].2 (U16, RW; R442). -/
def Od.sourceInstance (x : Nat) : Nat := odKey 0x6100 x 2
/-- `SourceParam`, 6100h[x].3 (U32, RW; R442). -/
def Od.sourceParam (x : Nat) : Nat := odKey 0x6100 x 3
/-- `SourceOffset`, 6100h[x].4 (U32, RW; R442). -/
def Od.sourceOffset (x : Nat) : Nat := odKey 0x6100 x 4
/-- `DestRegion`, 6100h[x].5 (U8, RW; R442). -/
def Od.destRegion (x : Nat) : Nat := odKey 0x6100 x 5
/-- `DestOffset`, 6100h[x].6 (U32, RW; R442). -/
def Od.destOffset (x : Nat) : Nat := odKey 0x6100 x 6
/-- `Length`, 6100h[x].7 (U32, RW; R442). -/
def Od.dmaLength (x : Nat) : Nat := odKey 0x6100 x 7
/-- `Mode`, 6100h[x].8 (U8, RW; R442). -/
def Od.dmaDescriptorMode (x : Nat) : Nat := odKey 0x6100 x 8
/-- `Pacing`, 6100h[x].9 (U8, RW; R442). -/
def Od.pacing (x : Nat) : Nat := odKey 0x6100 x 9
/-- `EventKind`, 6100h[x].10 (U8, RW; R442). -/
def Od.eventKind (x : Nat) : Nat := odKey 0x6100 x 10
/-- `EventArg`, 6100h[x].11 (U16, RW; R442). -/
def Od.eventArg (x : Nat) : Nat := odKey 0x6100 x 11
/-- `BurstsPerEvent`, 6100h[x].12 (U16, RW; R442). -/
def Od.burstsPerEvent (x : Nat) : Nat := odKey 0x6100 x 12
/-- `RingPages`, 6100h[x].13 (U16, RW; R442). -/
def Od.ringPages (x : Nat) : Nat := odKey 0x6100 x 13
/-- `DmaState`, 6101h[x].1 (U8, RO; R442). -/
def Od.dmaState (x : Nat) : Nat := odKey 0x6101 x 1
/-- `LastError`, 6101h[x].2 (U8, RO; R442). -/
def Od.lastError (x : Nat) : Nat := odKey 0x6101 x 2
/-- `BytesDone`, 6101h[x].3 (U64, RO; R442). -/
def Od.bytesDone (x : Nat) : Nat := odKey 0x6101 x 3
/-- `NextDestOffset`, 6101h[x].4 (U32, RO; R442). -/
def Od.nextDestOffset (x : Nat) : Nat := odKey 0x6101 x 4
/-- `Bursts`, 6101h[x].5 (U64, RO; R442). -/
def Od.bursts (x : Nat) : Nat := odKey 0x6101 x 5
/-- `Wraps`, 6101h[x].6 (U32, RO; R442). -/
def Od.wraps (x : Nat) : Nat := odKey 0x6101 x 6
/-- `SourceOverruns`, 6101h[x].7 (U64, RO; R442). -/
def Od.sourceOverruns (x : Nat) : Nat := odKey 0x6101 x 7
/-- `BurstsPending`, 6101h[x].8 (U32, RO; R442). -/
def Od.burstsPending (x : Nat) : Nat := odKey 0x6101 x 8
/-- `DmaCommand`, 6102h[x] (U8, CMD; R442). -/
def Od.dmaCommand (x : Nat) : Nat := odKey 0x6102 x 0
/-- `Revertive`, 7000h[x].1 (BOOL, RW; R468). -/
def Od.timingGeneratorRevertive (x : Nat) : Nat := odKey 0x7000 x 1
/-- `WaitToRestore`, 7000h[x].2 (U16, RW; R468). -/
def Od.timingGeneratorWaitToRestore (x : Nat) : Nat := odKey 0x7000 x 2
/-- `QualifyTime`, 7000h[x].3 (U16, RW; R468). -/
def Od.timingGeneratorQualifyTime (x : Nat) : Nat := odKey 0x7000 x 3
/-- `AgreementWindow`, 7000h[x].4 (U32, RW; R468). -/
def Od.agreementWindow (x : Nat) : Nat := odKey 0x7000 x 4
/-- `LoopBandwidth`, 7000h[x].5 (U16, RW; R468). -/
def Od.loopBandwidth (x : Nat) : Nat := odKey 0x7000 x 5
/-- `FreqSlewLimit`, 7000h[x].6 (U16, RW; R468). -/
def Od.freqSlewLimit (x : Nat) : Nat := odKey 0x7000 x 6
/-- `HoldoverLimit`, 7000h[x].7 (U32, RW; R468). -/
def Od.holdoverLimit (x : Nat) : Nat := odKey 0x7000 x 7
/-- `LoopOpen`, 7000h[x].8 (BOOL, RW; R468). -/
def Od.loopOpen (x : Nat) : Nat := odKey 0x7000 x 8
/-- `SteerOffset`, 7000h[x].9 (I32, RW; R468). -/
def Od.steerOffset (x : Nat) : Nat := odKey 0x7000 x 9
/-- `TgState`, 7001h[x].1 (U8, RO; R468). -/
def Od.tgState (x : Nat) : Nat := odKey 0x7001 x 1
/-- `SelectedEntry`, 7001h[x].2 (U8, RO; R468). -/
def Od.selectedEntry (x : Nat) : Nat := odKey 0x7001 x 2
/-- `OutputOffset`, 7001h[x].3 (I32, RO; R468). -/
def Od.outputOffset (x : Nat) : Nat := odKey 0x7001 x 3
/-- `HistoryOffset`, 7001h[x].4 (I32, RO; R468). -/
def Od.historyOffset (x : Nat) : Nat := odKey 0x7001 x 4
/-- `HistorySeconds`, 7001h[x].5 (U16, RO; R468). -/
def Od.historySeconds (x : Nat) : Nat := odKey 0x7001 x 5
/-- `HistoryFrozen`, 7001h[x].6 (BOOL, RO; R468). -/
def Od.historyFrozen (x : Nat) : Nat := odKey 0x7001 x 6
/-- `HoldoverSeconds`, 7001h[x].7 (U32, RO; R468). -/
def Od.holdoverSeconds (x : Nat) : Nat := odKey 0x7001 x 7
/-- `Switches`, 7001h[x].8 (U32, RO; R468). -/
def Od.tgStatusSwitches (x : Nat) : Nat := odKey 0x7001 x 8
/-- `HoldoverEntries`, 7001h[x].9 (U32, RO; R468). -/
def Od.holdoverEntries (x : Nat) : Nat := odKey 0x7001 x 9
/-- `LastSwitchCause`, 7001h[x].10 (U8, RO; R468). -/
def Od.lastSwitchCause (x : Nat) : Nat := odKey 0x7001 x 10
/-- `PhaseToModule`, 7001h[x].11 (I32, RO; R468). -/
def Od.phaseToModule (x : Nat) : Nat := odKey 0x7001 x 11
/-- `TgCommand`, 7002h[x] (U8, CMD; R468). -/
def Od.tgCommand (x : Nat) : Nat := odKey 0x7002 x 0
/-- `Candidate`, 7010h + e[x].1 (U16, RW; R468). -/
def Od.candidate (e x : Nat) : Nat := odKey (0x7010 + e) x 1
/-- `Rank`, 7010h + e[x].2 (U8, RW; R468). -/
def Od.rank (e x : Nat) : Nat := odKey (0x7010 + e) x 2
/-- `SoftLimit`, 7010h + e[x].3 (U32, RW; R468). -/
def Od.softLimit (e x : Nat) : Nat := odKey (0x7010 + e) x 3
/-- `HardLimit`, 7010h + e[x].4 (U32, RW; R468). -/
def Od.hardLimit (e x : Nat) : Nat := odKey (0x7010 + e) x 4
/-- `EntryState`, 7010h + e[x].5 (U8, RO; R468). -/
def Od.entryState (e x : Nat) : Nat := odKey (0x7010 + e) x 5
/-- `DisqReason`, 7010h + e[x].6 (U8, RO; R468). -/
def Od.disqReason (e x : Nat) : Nat := odKey (0x7010 + e) x 6
/-- `Offset1s`, 7010h + e[x].7 (I32, RO; R468). -/
def Od.offset1s (e x : Nat) : Nat := odKey (0x7010 + e) x 7
/-- `Offset100s`, 7010h + e[x].8 (I32, RO; R468). -/
def Od.offset100s (e x : Nat) : Nat := odKey (0x7010 + e) x 8
/-- `DriftState`, 7010h + e[x].9 (U8, RO; R468). -/
def Od.driftState (e x : Nat) : Nat := odKey (0x7010 + e) x 9
/-- `Outvotes`, 7010h + e[x].10 (U32, RO; R468). -/
def Od.outvotes (e x : Nat) : Nat := odKey (0x7010 + e) x 10
/-- `RefNominal`, 7020h[x].1 (U32, RW; R468). -/
def Od.refNominal (x : Nat) : Nat := odKey 0x7020 x 1
/-- `RefActive`, 7020h[x].2 (BOOL, RO; R468). -/
def Od.refActive (x : Nat) : Nat := odKey 0x7020 x 2
/-- `RefOffset`, 7020h[x].3 (I32, RO; R468). -/
def Od.refOffset (x : Nat) : Nat := odKey 0x7020 x 3
/-- `OscinPresent`, 7021h.1 (BOOL, RO; R468). -/
def Od.oscinPresent : Nat := odKey 0x7021 0 1
/-- `OscinLosses`, 7021h.2 (U32, RO; R468). -/
def Od.oscinLosses : Nat := odKey 0x7021 0 2
/-- `PortGenerator`, 7030h[x].1 (U8, RW; R468). -/
def Od.portGenerator (x : Nat) : Nat := odKey 0x7030 x 1
/-- `ModuleTime`, 7040h.1 (OCTETS, RO; R468). -/
def Od.moduleTime : Nat := odKey 0x7040 0 1
/-- `TimeSet`, 7040h.2 (OCTETS, RW; R468). -/
def Od.timeSet : Nat := odKey 0x7040 0 2
/-- `TimeAdjust`, 7040h.3 (I32, RW; R468). -/
def Od.timeAdjust : Nat := odKey 0x7040 0 3
/-- `TimeSlewRate`, 7040h.4 (U16, RW; R468). -/
def Od.timeSlewRate : Nat := odKey 0x7040 0 4
/-- `TimeSteps`, 7040h.5 (U32, RO; R468). -/
def Od.timeSteps : Nat := odKey 0x7040 0 5
/-- `AdjustRemaining`, 7040h.6 (I32, RO; R468). -/
def Od.adjustRemaining : Nat := odKey 0x7040 0 6
/-- `PpsAlign`, 7040h.7 (BOOL, RW; R468). -/
def Od.ppsAlign : Nat := odKey 0x7040 0 7
/-- `PpsError`, 7040h.8 (I32, RO; R468). -/
def Od.ppsError : Nat := odKey 0x7040 0 8
/-- `PpsOffset`, 7040h.9 (I32, RW; R468). -/
def Od.ppsOffset : Nat := odKey 0x7040 0 9
/-- `TimeCommand`, 7041h (U8, CMD; R468). -/
def Od.timeCommand : Nat := odKey 0x7041 0 0
/-- `FpoEnable`, 7050h[x].1 (BOOL, RW; R468). -/
def Od.fpoEnable (x : Nat) : Nat := odKey 0x7050 x 1
/-- `FpoSource`, 7050h[x].2 (U8, RW; R468). -/
def Od.fpoSource (x : Nat) : Nat := odKey 0x7050 x 2
/-- `FpoPeriod`, 7050h[x].3 (U32, RW; R468). -/
def Od.fpoPeriod (x : Nat) : Nat := odKey 0x7050 x 3
/-- `FpoOffset`, 7050h[x].4 (U32, RW; R468). -/
def Od.fpoOffset (x : Nat) : Nat := odKey 0x7050 x 4
/-- `FpoWidth`, 7050h[x].5 (U32, RW; R468). -/
def Od.fpoWidth (x : Nat) : Nat := odKey 0x7050 x 5
/-- `FpoSlewRate`, 7050h[x].6 (U8, RW; R468). -/
def Od.fpoSlewRate (x : Nat) : Nat := odKey 0x7050 x 6
/-- `FpoError`, 7050h[x].7 (I32, RO; R468). -/
def Od.fpoError (x : Nat) : Nat := odKey 0x7050 x 7
/-- `FpoAligned`, 7050h[x].8 (BOOL, RO; R468). -/
def Od.fpoAligned (x : Nat) : Nat := odKey 0x7050 x 8
/-- `FpoCommand`, 7051h[x] (U8, CMD; R468). -/
def Od.fpoCommand (x : Nat) : Nat := odKey 0x7051 x 0
/-- `ClearTimingCounters`, 7060h (U8, CMD; R468). -/
def Od.clearTimingCounters : Nat := odKey 0x7060 0 0
/-- `SequenceLength`, 7100h[x].1 (U8, RW; R488). -/
def Od.sequenceLength (x : Nat) : Nat := odKey 0x7100 x 1
/-- `PassMicros`, 7100h[x].2 (F32, RO; R488). -/
def Od.passMicros (x : Nat) : Nat := odKey 0x7100 x 2
/-- `Passes`, 7100h[x].3 (U32, RO; R488). -/
def Od.passes (x : Nat) : Nat := odKey 0x7100 x 3
/-- `Suspended`, 7100h[x].4 (BOOL, RO; R488). -/
def Od.suspended (x : Nat) : Nat := odKey 0x7100 x 4
/-- `RefFault`, 7100h[x].5 (BOOL, RO; R488). -/
def Od.refFault (x : Nat) : Nat := odKey 0x7100 x 5
/-- `Channel`, 7101h[x].1 (U8, RW; R488). -/
def Od.monitorChannel (x : Nat) : Nat := odKey 0x7101 x 1
/-- `SampleTime`, 7101h[x].2 (U8, RW; R488). -/
def Od.sampleTime (x : Nat) : Nat := odKey 0x7101 x 2
/-- `Gain`, 7101h[x].3 (U8, RW; R488). -/
def Od.monitorGain (x : Nat) : Nat := odKey 0x7101 x 3
/-- `LastCode`, 7101h[x].4 (U16, RO; R488). -/
def Od.lastCode (x : Nat) : Nat := odKey 0x7101 x 4
/-- `LastValue`, 7101h[x].5 (F32, RO; R488). -/
def Od.lastValue (x : Nat) : Nat := odKey 0x7101 x 5
/-- `MinValue`, 7101h[x].6 (F32, RO; R488). -/
def Od.minValue (x : Nat) : Nat := odKey 0x7101 x 6
/-- `MaxValue`, 7101h[x].7 (F32, RO; R488). -/
def Od.maxValue (x : Nat) : Nat := odKey 0x7101 x 7
/-- `LastTime`, 7101h[x].8 (OCTETS, RO; R488). -/
def Od.lastTime (x : Nat) : Nat := odKey 0x7101 x 8
/-- `UrgentChannel`, 7102h[x].1 (U8, RW; R488). -/
def Od.urgentChannel (x : Nat) : Nat := odKey 0x7102 x 1
/-- `UrgentSampleTime`, 7102h[x].2 (U8, RW; R488). -/
def Od.urgentSampleTime (x : Nat) : Nat := odKey 0x7102 x 2
/-- `UrgentGain`, 7102h[x].3 (U8, RW; R488). -/
def Od.urgentGain (x : Nat) : Nat := odKey 0x7102 x 3
/-- `UrgentCode`, 7102h[x].4 (U16, RO; R488). -/
def Od.urgentCode (x : Nat) : Nat := odKey 0x7102 x 4
/-- `UrgentValue`, 7102h[x].5 (F32, RO; R488). -/
def Od.urgentValue (x : Nat) : Nat := odKey 0x7102 x 5
/-- `UrgentTime`, 7102h[x].6 (OCTETS, RO; R488). -/
def Od.urgentTime (x : Nat) : Nat := odKey 0x7102 x 6
/-- `UrgentDone`, 7102h[x].7 (U32, RO; R488). -/
def Od.urgentDone (x : Nat) : Nat := odKey 0x7102 x 7
/-- `UrgentCommand`, 7103h[x] (U8, CMD; R488). -/
def Od.urgentCommand (x : Nat) : Nat := odKey 0x7103 x 0
/-- `ClearMonitorPeaks`, 7104h (U8, CMD; R488). -/
def Od.clearMonitorPeaks : Nat := odKey 0x7104 0 0
/-- `EventSelect`, 7200h[x].1 (U32, RW; R488). -/
def Od.eventSelect (x : Nat) : Nat := odKey 0x7200 x 1
/-- `Threshold`, 7200h[x].2 (U32, RW; R488). -/
def Od.counterThreshold (x : Nat) : Nat := odKey 0x7200 x 2
/-- `Current`, 7200h[x].3 (U64, RO; R488). -/
def Od.counterCurrent (x : Nat) : Nat := odKey 0x7200 x 3
/-- `Interval`, 7200h[x].4 (U64, RO; R488). -/
def Od.counterInterval (x : Nat) : Nat := odKey 0x7200 x 4
/-- `Snapshot`, 7200h[x].5 (U64, RO; R488). -/
def Od.counterSnapshot (x : Nat) : Nat := odKey 0x7200 x 5
/-- `Injected`, 7200h[x].6 (BOOL, RO; R488). -/
def Od.injected (x : Nat) : Nat := odKey 0x7200 x 6
/-- `Partial`, 7200h[x].7 (BOOL, RO; R488). -/
def Od.counterPartial (x : Nat) : Nat := odKey 0x7200 x 7
/-- `CounterCommand`, 7201h (U8, CMD; R488). -/
def Od.counterCommand : Nat := odKey 0x7201 0 0
/-- `Frozen`, 7202h.1 (BOOL, RO; R488). -/
def Od.countersFrozen : Nat := odKey 0x7202 0 1
/-- `SnapshotTime`, 7202h.2 (OCTETS, RO; R488). -/
def Od.snapshotTime : Nat := odKey 0x7202 0 2
/-- `FrozenMicrosInterval`, 7202h.3 (U32, RO; R488). -/
def Od.frozenMicrosInterval : Nat := odKey 0x7202 0 3
/-- `IntervalNumber`, 7202h.4 (U64, RO; R488). -/
def Od.intervalNumber : Nat := odKey 0x7202 0 4
/-- `CountersInUse`, 7202h.5 (U16, RO; R488). -/
def Od.countersInUse : Nat := odKey 0x7202 0 5
/-- `IntervalBlock`, 7203h (BLOCK, RO; R488). -/
def Od.intervalBlock : Nat := odKey 0x7203 0 0
/-- `SnapshotBlock`, 7204h (BLOCK, RO; R488). -/
def Od.snapshotBlock : Nat := odKey 0x7204 0 0
/-- `Target`, 7210h[x].1 (U32, RW; R488). -/
def Od.bandwidthWindowTarget (x : Nat) : Nat := odKey 0x7210 x 1
/-- `WindowMillis`, 7210h[x].2 (U16, RW; R488). -/
def Od.windowMillis (x : Nat) : Nat := odKey 0x7210 x 2
/-- `RateNow`, 7210h[x].3 (F32, RO; R488). -/
def Od.rateNow (x : Nat) : Nat := odKey 0x7210 x 3
/-- `RateInterval`, 7210h[x].4 (F32, RO; R488). -/
def Od.rateInterval (x : Nat) : Nat := odKey 0x7210 x 4
/-- `RatePeakInterval`, 7210h[x].5 (F32, RO; R488). -/
def Od.ratePeakInterval (x : Nat) : Nat := odKey 0x7210 x 5
/-- `ProbeEnable`, 7300h[x].1 (BOOL, RW; R488). -/
def Od.probeEnable (x : Nat) : Nat := odKey 0x7300 x 1
/-- `ProbeCarriers`, 7300h[x].2 (U8, RW; R488). -/
def Od.probeCarriers (x : Nat) : Nat := odKey 0x7300 x 2
/-- `ProbeInterval`, 7300h[x].3 (U8, RW; R488). -/
def Od.probeInterval (x : Nat) : Nat := odKey 0x7300 x 3
/-- `EventThreshold`, 7300h[x].4 (U32, RW; R488). -/
def Od.eventThreshold (x : Nat) : Nat := odKey 0x7300 x 4
/-- `EventHold`, 7300h[x].5 (U16, RW; R488). -/
def Od.probeEventHold (x : Nat) : Nat := odKey 0x7300 x 5
/-- `MinCarriers`, 7300h[x].6 (U8, RW; R488). -/
def Od.minCarriers (x : Nat) : Nat := odKey 0x7300 x 6
/-- `AlarmCount`, 7300h[x].7 (U16, RW; R488). -/
def Od.alarmCount (x : Nat) : Nat := odKey 0x7300 x 7
/-- `AlarmWindow`, 7300h[x].8 (U16, RW; R488). -/
def Od.alarmWindow (x : Nat) : Nat := odKey 0x7300 x 8
/-- `AlarmClear`, 7300h[x].9 (U32, RW; R488). -/
def Od.alarmClear (x : Nat) : Nat := odKey 0x7300 x 9
/-- `ProbeMembers`, 7301h[x].1 (U8, RO; R488). -/
def Od.probeMembers (x : Nat) : Nat := odKey 0x7301 x 1
/-- `EventsInterval`, 7301h[x].2 (U32, RO; R488). -/
def Od.eventsInterval (x : Nat) : Nat := odKey 0x7301 x 2
/-- `EventsTotal`, 7301h[x].3 (U64, RO; R488). -/
def Od.eventsTotal (x : Nat) : Nat := odKey 0x7301 x 3
/-- `LastEventTime`, 7301h[x].4 (OCTETS, RO; R488). -/
def Od.lastEventTime (x : Nat) : Nat := odKey 0x7301 x 4
/-- `EventActive`, 7301h[x].5 (BOOL, RO; R488). -/
def Od.eventActive (x : Nat) : Nat := odKey 0x7301 x 5
/-- `PeakSopRateInterval`, 7301h[x].6 (F32, RO; R488). -/
def Od.peakSopRateInterval (x : Nat) : Nat := odKey 0x7301 x 6
/-- `ProbeEventLog`, 7310h[x] (BLOCK, RO; R488). -/
def Od.probeEventLog (x : Nat) : Nat := odKey 0x7310 x 0
/-- `ClearProbe`, 7311h (U8, CMD; R488). -/
def Od.clearProbe : Nat := odKey 0x7311 0 0
/-- `PowerState`, 2030h[x].1 (U8, RO; R505). -/
def Od.powerState (x : Nat) : Nat := odKey 0x2030 x 1
/-- `PowerAtBoot`, 2030h[x].2 (BOOL, RW; R505). -/
def Od.powerAtBoot (x : Nat) : Nat := odKey 0x2030 x 2
/-- `PowerDowns`, 2030h[x].3 (U32, RO; R505). -/
def Od.powerDowns (x : Nat) : Nat := odKey 0x2030 x 3
/-- `LastPowerMicros`, 2030h[x].4 (U32, RO; R505). -/
def Od.lastPowerMicros (x : Nat) : Nat := odKey 0x2030 x 4
/-- `PowerCommand`, 2031h[x] (U8, CMD; R505). -/
def Od.powerCommand (x : Nat) : Nat := odKey 0x2031 x 0
/-- `QueueEntries`, 2200h.1 (U16, RO; R505). -/
def Od.queueEntries : Nat := odKey 0x2200 0 1
/-- `CriticalEntries`, 2200h.2 (U8, RO; R505). -/
def Od.criticalEntries : Nat := odKey 0x2200 0 2
/-- `EventsLost`, 2200h.3 (U32, RO; R505). -/
def Od.eventsLost : Nat := odKey 0x2200 0 3
/-- `EntriesHighWater`, 2200h.4 (U16, RO; R505). -/
def Od.entriesHighWater : Nat := odKey 0x2200 0 4
/-- `NextEntrySeq`, 2200h.5 (U32, RO; R505). -/
def Od.nextEntrySeq : Nat := odKey 0x2200 0 5
/-- `OpenSources`, 2200h.6 (U32, RO; R505). -/
def Od.openSources : Nat := odKey 0x2200 0 6
/-- `EventQueue`, 2201h (BLOCK, RO; R505). -/
def Od.eventQueue : Nat := odKey 0x2201 0 0
/-- `AckSource`, 2202h.1 (U16, RW; R505). -/
def Od.ackSource : Nat := odKey 0x2202 0 1
/-- `AckUnit`, 2202h.2 (U32, RW; R505). -/
def Od.ackUnit : Nat := odKey 0x2202 0 2
/-- `EventCommand`, 2203h (U8, CMD; R505). -/
def Od.eventCommand : Nat := odKey 0x2203 0 0
/-- `SourceState`, 2210h[x].1 (U8, RO; R505). -/
def Od.sourceState (x : Nat) : Nat := odKey 0x2210 x 1
/-- `ConditionPresent`, 2210h[x].2 (BOOL, RO; R505). -/
def Od.conditionPresent (x : Nat) : Nat := odKey 0x2210 x 2
/-- `Occurrences`, 2210h[x].3 (U32, RO; R505). -/
def Od.occurrences (x : Nat) : Nat := odKey 0x2210 x 3
/-- `Injecting`, 2210h[x].4 (BOOL, RO; R505). -/
def Od.injecting (x : Nat) : Nat := odKey 0x2210 x 4
/-- `LeafSourceState0–3`, 2211h[x].1–4 (U8, RO; R505). -/
def Od.leafSourceState (x j : Nat) : Nat := odKey 0x2211 x (1 + j)
/-- `InjectSource`, 2220h[x].1 (U16, RW; R505). -/
def Od.injectSource (x : Nat) : Nat := odKey 0x2220 x 1
/-- `InjectUnit`, 2220h[x].2 (U32, RW; R505). -/
def Od.injectUnit (x : Nat) : Nat := odKey 0x2220 x 2
/-- `InjectMode`, 2220h[x].3 (U8, RW; R505). -/
def Od.injectorInjectMode (x : Nat) : Nat := odKey 0x2220 x 3
/-- `InjectScope`, 2220h[x].4 (U8, RW; R505). -/
def Od.injectScope (x : Nat) : Nat := odKey 0x2220 x 4
/-- `InjectDuration`, 2220h[x].5 (U32, RW; R505). -/
def Od.injectDuration (x : Nat) : Nat := odKey 0x2220 x 5
/-- `InjectGap`, 2220h[x].6 (U32, RW; R505). -/
def Od.injectGap (x : Nat) : Nat := odKey 0x2220 x 6
/-- `InjectCount`, 2220h[x].7 (U32, RW; R505). -/
def Od.injectorInjectCount (x : Nat) : Nat := odKey 0x2220 x 7
/-- `InjectParam`, 2220h[x].8 (U32, RW; R505). -/
def Od.injectParam (x : Nat) : Nat := odKey 0x2220 x 8
/-- `InjectState`, 2220h[x].9 (U8, RO; R505). -/
def Od.injectState (x : Nat) : Nat := odKey 0x2220 x 9
/-- `InjectedOccurrences`, 2220h[x].10 (U32, RO; R505). -/
def Od.injectedOccurrences (x : Nat) : Nat := odKey 0x2220 x 10
/-- `InjectCommand`, 2221h[x] (U8, CMD; R505). -/
def Od.injectCommand (x : Nat) : Nat := odKey 0x2221 x 0

end Sys2Proof.Machine
end

