-- ==== Sys2Proof/Machine/Tbl.lean ====
section
/-! DEFINITION. Tables keyed by a number, in ascending order, that list only the keys whose value differs from a default; and
sorting. -/

namespace Sys2Proof.Machine

/-- The value at key `i`: the listed one, else the default. -/
def Tbl.get {α : Type} (d : Nat → α) : List (Nat × α) → Nat → α
  | [], i => d i
  | (k, v) :: t, i => if k = i then v else Tbl.get d t i

/-- `x` listed at key `i`, in place of what was listed there. -/
def Tbl.ins {α : Type} : List (Nat × α) → Nat → α → List (Nat × α)
  | [], i, x => [(i, x)]
  | (k, v) :: t, i, x => if i < k then (i, x) :: (k, v) :: t else if i = k then (i, x) :: t else (k, v) :: Tbl.ins t i x

/-- The table without key `i`. -/
def Tbl.drop {α : Type} (t : List (Nat × α)) (i : Nat) : List (Nat × α) := t.filter fun p => p.1 != i

/-- Set key `i` to `x`; a key set to its default is no longer listed. -/
def Tbl.put {α : Type} [DecidableEq α] (d : Nat → α) (t : List (Nat × α)) (i : Nat) (x : α) : List (Nat × α) :=
  if x = d i then Tbl.drop t i else Tbl.ins t i x

/-- Drop every key that satisfies `p`: those keys return to their defaults. -/
def Tbl.clear {α : Type} (p : Nat → Bool) (t : List (Nat × α)) : List (Nat × α) := t.filter fun q => !p q.1

/-- Keys strictly ascending. -/
def Tbl.sorted {α : Type} : List (Nat × α) → Bool
  | [] => true
  | [_] => true
  | (k, _) :: (k', v') :: t => decide (k < k') && Tbl.sorted ((k', v') :: t)

/-- The canonical form: keys ascending, and no entry equal to its default. -/
def Tbl.wf {α : Type} [DecidableEq α] (d : Nat → α) (t : List (Nat × α)) : Bool :=
  Tbl.sorted t && t.all fun p => decide (p.2 ≠ d p.1)

/-- Put `x` before the first element that it may precede. -/
def insertBy {α : Type} (le : α → α → Bool) (x : α) : List α → List α
  | [] => [x]
  | y :: t => if le x y then x :: y :: t else y :: insertBy le x t

/-- The list in the order of `le`; elements that are equal in it keep their places. -/
def sortBy {α : Type} (le : α → α → Bool) (l : List α) : List α := l.foldr (insertBy le) []

end Sys2Proof.Machine
end

