-- ==== Sys2Proof/Machine/Dict.lean ====
section
/-! DEFINITION. Reading the object table: which objects exist, their defaults, and the octet forms of their values. -/

namespace Sys2Proof.Machine

/-- A number from its octets, least significant first (R10). -/
def leNat : Bytes → Nat
  | [] => 0
  | b :: t => b.toNat + 256 * leNat t

/-- `n` octets of a number, least significant first (R10); higher octets are dropped. -/
def leBytes : Nat → Nat → Bytes
  | 0, _ => []
  | n + 1, v => BitVec.ofNat 8 v :: leBytes n (v / 256)

/-- A number from its octets, most significant first (R22: on the fibre and in frames). -/
def beNat (bs : Bytes) : Nat := bs.foldl (fun a b => a * 256 + b.toNat) 0

/-- `n` octets of a number, most significant first. -/
def beBytes (n v : Nat) : Bytes := (leBytes n v).reverse

/-- A time stamp of R20 as it stands in an `OCTETS` object (R91): 48 bits of seconds then 32 bits of nanoseconds, each
least-significant octet first. `t` is in nanoseconds. -/
def stamp (t : Nat) : Bytes := leBytes 6 (t / 1000000000) ++ leBytes 4 (t % 1000000000)

/-- The nanoseconds of a time stamp of R20. -/
def unstamp (b : Bytes) : Nat := leNat (b.take 6) * 1000000000 + leNat ((b.drop 6).take 4)

/-- The row of an index (R506). -/
def findObj : List ObjRow → Nat → Option ObjRow
  | [], _ => none
  | r :: t, idx => if r.idx ≤ idx ∧ idx < r.idx + r.span then some r else findObj t idx

/-- The line of a sub. -/
def findSub : List SubRow → Nat → Option SubRow
  | [], _ => none
  | r :: t, sub => if r.sub ≤ sub ∧ sub < r.sub + r.count then some r else findSub t sub

def objRow (idx : Nat) : Option ObjRow := findObj objectTable idx

/-- The object-table line of an address; `none` for sub 0 of a multi-sub object, a reserved sub, and what does not exist. -/
def subRow (idx sub : Nat) : Option SubRow :=
  match objRow idx with
  | none => none
  | some r => findSub r.subs sub

/-- The value of an object that holds its default (R21). Five defaults depend on the unit or the sub: `NodeId`, `ShedEntry`,
`AlarmMask`, `Channel`, and `CobId`, whose stored value 0xFFFF_FFFF stands for the default that follows `NodeId` (R149). Optical
powers read −60.0 while nothing is measured (R177); the gain in use before the first measurement is the model's (assumption 4). -/
def odDefault (k : Nat) : Val :=
  let idx := keyIdx k
  let sub := keySub k
  if idx = 0x2105 ∧ sub = 2 then .u (32 + keyInst k)
  else if idx = 0x2023 ∧ 1 ≤ sub then .u (64 - sub)
  else if idx = 0x1F20 ∧ sub = 1 then .u (if keyInst k = 0 then 0x07 else 0x19)
  else if idx = 0x7101 ∧ sub = 1 then .u (if keyInst k % 16 < 3 then keyInst k % 16 else 0)
  else if 0x1800 ≤ idx ∧ idx ≤ 0x1803 ∧ sub = 1 then .u 0xFFFFFFFF
  else if (idx = 0x3000 ∧ (sub = 5 ∨ sub = 6)) ∨ (idx = 0x3010 ∧ (sub = 4 ∨ sub = 6 ∨ sub = 8)) then .f 0xC2700000
  else if idx = 0x3043 ∧ 4 ≤ sub ∧ sub ≤ 7 then .u 24
  else if idx = 0x3043 ∧ 8 ≤ sub ∧ sub ≤ 11 then .u 4096
  else match subRow idx sub with
    | some r => r.dflt
    | none => .u 0

/-- The size in octets of a fixed-size type (R10). -/
def Ty.size : Ty → Option Nat
  | .bool => some 1 | .u8 => some 1 | .u16 => some 2 | .u32 => some 4 | .u64 => some 8
  | .i16 => some 2 | .i32 => some 4 | .f32 => some 4
  | _ => none

/-- The largest value of an unsigned type; where a counter of the type saturates (R15). -/
def Ty.maxNat : Ty → Nat
  | .bool => 1 | .u8 => 255 | .u16 => 65535 | .u32 => 4294967295 | .u64 => 18446744073709551615
  | _ => 0

/-- A two's complement number of `w` bits. -/
def signedOf (w n : Nat) : Int := if n < 2 ^ (w - 1) then (n : Int) else (n : Int) - 2 ^ w

/-- The `w`-bit two's complement code of a number. -/
def unsignedOf (w : Nat) (z : Int) : Nat := (z % (2 ^ w : Nat)).toNat

/-- The value that the written octets give, or the status that refuses them by length or form (R10, R97): a `STR` or `OCTETS` takes
every length up to its maximum. The spec states no refusal for a `STR` that is not valid UTF-8, and it is stored as written
(DESIGN CHOICE, assumption 85). -/
def decodeVal (t : Ty) (b : Bytes) : Status × Val :=
  match t with
  | .str m => if b.length ≤ m then (.ok, .o b) else (.badType, .o b)
  | .octets m => if b.length ≤ m then (.ok, .o b) else (.badType, .o b)
  | .block _ => (.badType, .o b)
  | .f32 => if b.length = 4 then
      (if f32Finite (BitVec.ofNat 32 (leNat b)) then .ok else .range, .f (BitVec.ofNat 32 (leNat b)))
      else (.badType, .f 0)
  | .i16 => if b.length = 2 then (.ok, .i (signedOf 16 (leNat b))) else (.badType, .i 0)
  | .i32 => if b.length = 4 then (.ok, .i (signedOf 32 (leNat b))) else (.badType, .i 0)
  | .bool => if b.length = 1 then (if leNat b ≤ 1 then .ok else .range, .u (leNat b)) else (.badType, .u 0)
  | .u8 => if b.length = 1 then (.ok, .u (leNat b)) else (.badType, .u 0)
  | .u16 => if b.length = 2 then (.ok, .u (leNat b)) else (.badType, .u 0)
  | .u32 => if b.length = 4 then (.ok, .u (leNat b)) else (.badType, .u 0)
  | .u64 => if b.length = 8 then (.ok, .u (leNat b)) else (.badType, .u 0)

/-- The octets of a value of a type, as every management transport carries it (R10). -/
def encodeVal (t : Ty) (v : Val) : Bytes :=
  match v with
  | .o b => b
  | .u n => leBytes ((Ty.size t).getD 4) n
  | .i z => leBytes ((Ty.size t).getD 4) (unsignedOf (8 * (Ty.size t).getD 4) z)
  | .f x => leBytes 4 x.toNat

/-- The number that a written value is compared by (R13). -/
def Val.num : Val → Int
  | .u n => n
  | .i z => z
  | _ => 0

/-- The range check of R11 and R13: no value is clamped or rounded into range. -/
def rngOk (r : Rng) (v : Val) : Bool :=
  let z := Val.num v
  match r with
  | .any => true
  | .ivl lo hi step => decide (lo ≤ z ∧ z ≤ hi) && decide ((z - lo) % (step : Int) = 0)
  | .ivlOr lo hi e => decide (lo ≤ z ∧ z ≤ hi) || decide (z = e)
  | .oneOf vs => vs.any fun x => decide (x = z)
  | .mask bits => decide (z.toNat &&& bits = z.toNat)

end Sys2Proof.Machine
end

