-- ==== Sys2Proof/Machine/Ops.lean ====
section
/-! DEFINITION. The named operations on the state that every meaning is made of: reading and writing objects and unit
tables, counters that saturate, time, free values, the journal, notifications, EMCY, and the fault manager's source states. -/

namespace Sys2Proof.Machine

/-- The outcome of a step. -/
abbrev Out := Host.Outcome State Fault Refusal

/-- Run an effect on a unit that exists; a command that names no unit of the module is no command of it (R3). -/
def onUnit (inRange : Bool) (s : State) (f : State → State) : Out :=
  if inRange then .next (f s) else .fault .noSuchUnit

/-! ### Objects -/

/-- The stored value of an object: what was last written to it by a host or by the module, else its default. -/
def State.val (s : State) (k : Nat) : Val := Tbl.get odDefault s.od k

/-- Store a value. -/
def State.setVal (s : State) (k : Nat) (v : Val) : State := { s with od := Tbl.put odDefault s.od k v }

def Val.nat : Val → Nat
  | .u n => n
  | .i z => z.toNat
  | .f b => b.toNat
  | .o b => leNat b
def Val.int : Val → Int
  | .u n => n
  | .i z => z
  | .f b => f32Int b
  | .o _ => 0
def Val.f32 : Val → F32
  | .f b => b
  | _ => 0
def Val.bytes : Val → Bytes
  | .o b => b
  | _ => []

def State.nat (s : State) (k : Nat) : Nat := (s.val k).nat
def State.int (s : State) (k : Nat) : Int := (s.val k).int
def State.f32 (s : State) (k : Nat) : F32 := (s.val k).f32
def State.bytes (s : State) (k : Nat) : Bytes := (s.val k).bytes
def State.flag (s : State) (k : Nat) : Bool := (s.val k).nat != 0

def State.setN (s : State) (k n : Nat) : State := s.setVal k (.u n)
def State.setI (s : State) (k : Nat) (z : Int) : State := s.setVal k (.i z)
def State.setF (s : State) (k : Nat) (x : F32) : State := s.setVal k (.f x)
def State.setO (s : State) (k : Nat) (b : Bytes) : State := s.setVal k (.o b)
def State.setB (s : State) (k : Nat) (b : Bool) : State := s.setVal k (.u (if b then 1 else 0))

/-- The largest value of a counter object: its type's (R15). -/
def counterMax (k : Nat) : Nat :=
  match subRow (keyIdx k) (keySub k) with
  | some r => r.ty.maxNat
  | none => 0

/-- Add to a counter object; it saturates at the largest value of its type (R15). -/
def State.bumpBy (s : State) (k n : Nat) : State := s.setN k (min (s.nat k + n) (counterMax k))
def State.bump (s : State) (k : Nat) : State := s.bumpBy k 1

/-- Raise a peak or high-water mark. -/
def State.peak (s : State) (k n : Nat) : State := if s.nat k < n then s.setN k n else s
def State.peakF (s : State) (k : Nat) (x : F32) : State := s.setF k (f32Max (s.f32 k) x)

/-- Return every object whose key satisfies `p` to its default. -/
def State.clearObjs (s : State) (p : Nat → Bool) : State := { s with od := Tbl.clear p s.od }

/-! ### Unit tables -/

def State.session (s : State) (k : Nat) : Session := Tbl.get (fun _ => {}) s.sessions k
def State.setSession (s : State) (k : Nat) (x : Session) : State := { s with sessions := Tbl.put (fun _ => {}) s.sessions k x }
def State.canPort (s : State) (p : Nat) : CanPort := Tbl.get (fun _ => {}) s.can p
def State.setCanPort (s : State) (p : Nat) (x : CanPort) : State := { s with can := Tbl.put (fun _ => {}) s.can p x }
def State.mgmtPort (s : State) (p : Nat) : MgmtPort := Tbl.get (fun _ => {}) s.mgmtPorts p
def State.setMgmtPort (s : State) (p : Nat) (x : MgmtPort) : State := { s with mgmtPorts := Tbl.put (fun _ => {}) s.mgmtPorts p x }
def State.scope (s : State) (n : Nat) : Scope := Tbl.get (fun _ => {}) s.scopes n
def State.setScope (s : State) (n : Nat) (x : Scope) : State := { s with scopes := Tbl.put (fun _ => {}) s.scopes n x }
def State.source (s : State) (n : Nat) : Source := Tbl.get (fun _ => {}) s.sources n
def State.setSource (s : State) (n : Nat) (x : Source) : State := { s with sources := Tbl.put (fun _ => {}) s.sources n x }
def State.injector (s : State) (n : Nat) : Injector := Tbl.get (fun _ => {}) s.injectors n
def State.setInjector (s : State) (n : Nat) (x : Injector) : State := { s with injectors := Tbl.put (fun _ => {}) s.injectors n x }
def State.domain (s : State) (n : Nat) : Domain := Tbl.get (fun _ => {}) s.domains n
def State.setDomain (s : State) (n : Nat) (x : Domain) : State := { s with domains := Tbl.put (fun _ => {}) s.domains n x }

/-- Fold an effect over units 0 to n − 1, in order. -/
def forUnits : Nat → (Nat → State → State) → State → State
  | 0, _, s => s
  | n + 1, f, s => f n (forUnits n f s)

/-! ### Time, free values, output -/

/-- Module time, in nanoseconds (R20, R461). -/
def State.now (s : State) : Nat := s.moduleTime

/-- The present time stamp of R20. -/
def State.stampNow (s : State) : Bytes := stamp s.moduleTime

/-- Take the next free value. -/
def State.freeNat (s : State) : Nat × State := (Config.freeNat s.freeCount, { s with freeCount := s.freeCount + 1 })

/-- Send a message. -/
def State.send (s : State) (m : Msg) : State := { s with outbox := m :: s.outbox }

/-! ### Module states and power domains (R72, R499) -/

/-- The code of `ModuleState` (R72); `OFF` has none and reads 0. -/
def ModState.code : ModState → Nat
  | .off => 0 | .standby => 1 | .boot => 2 | .calibrate => 3 | .ready => 4 | .traffic => 5 | .safe => 6

/-- Enter a module state; `StateMillis` counts from here (R91). -/
def State.enter (s : State) (m : ModState) : State := { s with boot := { s.boot with st := m, enteredAt := s.uptime } }

/-- `READY`, `TRAFFIC` or `SAFE`: every powered domain runs (R72). -/
def State.running (s : State) : Bool := s.boot.st = .ready || s.boot.st = .traffic || s.boot.st = .safe

/-- The domain numbers of R499. -/
def domEngine (n : Nat) : Nat := n
def domPort (p : Nat) : Nat := 64 + p
def domLaneGroup (g : Nat) : Nat := 72 + g
def domHalf (h : Nat) : Nat := 104 + h
def domStack (x : Nat) : Nat := 108 + x

/-- A domain is up: `PowerState` reads 2 (R505). -/
def State.domUp (s : State) (d : Nat) : Bool := s.nat (Od.powerState d) = 2

/-- A carrier engine runs: its domain is up. -/
def State.engineUp (s : State) (n : Nat) : Bool := s.domUp (domEngine n)

/-! ### Performance counter events (R475–R477) -/

/-- The `EventSelect` value of an event (R475). -/
def eventSel (cls inst ev : Nat) : Nat := cls * 268435456 + inst * 65536 + ev * 256

/-- No event and no sample is counted now: the freeze has begun, or counting has yet to resume (R478). -/
def State.countingHeld (s : State) : Bool :=
  (s.flag Od.countersFrozen && decide (s.perf.frozenFrom ≤ s.moduleTime)) || decide (s.moduleTime < s.perf.thawAt)

/-- Count a quantity of an event on every counter that selects it; counts saturate at 2⁴⁸ − 1, and nothing counts during a
freeze (R477, R478). -/
def State.countEv (s : State) (cls inst ev n : Nat) (injected : Bool := false) : State :=
  if s.countingHeld || n = 0 then s else
  (s.od.filterMap fun p =>
      if keyIdx p.1 = 0x7200 ∧ keySub p.1 = 1 ∧ p.2 = .u (eventSel cls inst ev) then some (keyInst p.1) else none).foldl
    (fun s c =>
      let s := s.setN (Od.counterCurrent c) (min (s.nat (Od.counterCurrent c) + n) 281474976710655)
      if injected then { s with perfInjected := if s.perfInjected.contains c then s.perfInjected else c :: s.perfInjected } else s) s

/-- The counts that every counter of an event has in this interval include one that arose from injection (R477, R498). -/
def State.noteInjected (s : State) (cls inst ev : Nat) : State :=
  (s.od.filterMap fun p =>
      if keyIdx p.1 = 0x7200 ∧ keySub p.1 = 1 ∧ p.2 = .u (eventSel cls inst ev) then some (keyInst p.1) else none).foldl
    (fun s c => { s with perfInjected := if s.perfInjected.contains c then s.perfInjected else c :: s.perfInjected }) s

/-! ### Journal and notifications (R118, R132, R133) -/

/-- The 32 octets of a journal entry (R118). -/
def JournalEntry.encode (e : JournalEntry) : Bytes :=
  leBytes 8 e.seq ++ e.time ++ leBytes 1 e.slot ++ leBytes 1 e.kind ++ leBytes 2 e.idx ++ leBytes 4 e.inst ++ leBytes 1 e.sub
    ++ leBytes 1 e.role ++ leBytes 4 e.gen

/-- A Sehal header (R126). -/
def sehalHeader (type seq opcode status flags count : Nat) : Bytes :=
  leBytes 1 1 ++ leBytes 1 type ++ leBytes 2 seq ++ leBytes 1 opcode ++ leBytes 1 status ++ leBytes 1 flags ++ leBytes 1 count

/-- Notify one session of one entry, within `NotifyRate`; a dropped notification still uses its sequence number (R132, R133).
Answers whether it was sent. -/
def State.notify (s : State) (k kind : Nat) (content : Bytes) : Bool × State :=
  let x := s.session k
  let sec := s.uptime / 1000000
  let cnt := if x.notifySecond = sec then x.notifyCount else 0
  let seq := (x.notifySeq + 1) % 65536
  if cnt < s.nat Od.notifyRate then
    let s := s.setSession k { x with notifySeq := seq, notifySecond := sec, notifyCount := cnt + 1 }
    (true, s.send (.sehal k (sehalHeader 3 0 0x0A 0 0 0 ++ leBytes 2 seq ++ leBytes 1 kind ++ leBytes 2 content.length ++ content)))
  else
    (false, s.setSession k { x with notifySeq := seq, notifySecond := sec, notifyCount := cnt })

/-- Notify every open Ethernet session that subscribed to `kind` (bit 0 fault events, bit 1 journal entries). -/
def State.notifyAll (s : State) (bit kind : Nat) (content : Bytes) : Bool × State :=
  (List.range 8).foldl (fun (r : Bool × State) k =>
    let x := r.2.session k
    if x.isOpen && (x.subs / 2 ^ bit % 2 = 1) && r.2.boot.fwReady then
      let q := r.2.notify k kind content
      (r.1 || q.1, q.2)
    else r) (false, s)

/-- Record one journal entry; the journal keeps the latest 1,024, newest first (R118). -/
def State.journalAdd (s : State) (slot kind idx inst sub role gen : Nat) : State :=
  let e : JournalEntry := ⟨s.journalNext, s.stampNow, slot, kind, idx, inst, sub, role, gen⟩
  let s := { s with journal := (e :: s.journal).take 1024, journalNext := s.journalNext + 1 }
  (s.notifyAll 1 1 e.encode).2

/-- A journal entry for a change that session `k` made. -/
def State.journalBy (s : State) (k kind idx inst sub : Nat) (gen : Nat := 0) : State :=
  s.journalAdd k kind idx inst sub (s.session k).role gen

/-! ### Fault sources (R489, R490) -/

/-- The keys of the fault sources: the source number, or 0x1_0000 + 4 × leaf + kind for a leaf source. -/
def srcCarrier (n i : Nat) : Nat := 0x0800 + 32 * n + i
def srcLane (k i : Nat) : Nat := 0x1000 + 4 * k + i
def srcTray (t i : Nat) : Nat := 0x2000 + 16 * t + i
def srcPort (p i : Nat) : Nat := 0x0200 + 32 * p + i
def srcGen (g i : Nat) : Nat := 0x0300 + 64 * g + i
def srcLeaf (l i : Nat) : Nat := 0x10000 + 4 * l + i

/-- A source number that the table of R489 assigns. -/
def srcAssigned (x : Nat) : Bool :=
  decide (x ≤ 0x12) || decide (0x20 ≤ x ∧ x < 0x40) || decide (0x40 ≤ x ∧ x < 0x40 + 27) || decide (0x60 ≤ x ∧ x < 0x60 + 27)
  || decide (0x80 ≤ x ∧ x < 0x80 + 27) || decide (0xA0 ≤ x ∧ x < 0xC0) || decide (0xC0 ≤ x ∧ x < 0xC9)
  || (decide (0x200 ≤ x ∧ x < 0x300) && decide ((x - 0x200) % 32 < 2))
  || (decide (0x300 ≤ x ∧ x < 0x400) && decide ((x - 0x300) % 64 < 19))
  || (decide (0x800 ≤ x ∧ x < 0x1000) && decide ((x - 0x800) % 32 < 19))
  || (decide (0x1000 ≤ x ∧ x < 0x2000) && decide ((x - 0x1000) % 4 < 3))
  || (decide (0x2000 ≤ x ∧ x < 0xA000) && decide ((x - 0x2000) % 16 < 10))

/-- A key that stands for a source: an assigned number, or a leaf source. -/
def srcExists (x : Nat) : Bool := srcAssigned x || decide (0x10000 ≤ x ∧ x < 0x10000 + 4 * 262144)

/-- The source number that records carry: 0xFFFE for every leaf source (R489). -/
def srcNumber (x : Nat) : Nat := if 0x10000 ≤ x then 0xFFFE else x

/-- The event code of a source (R489). -/
def eventCode (x : Nat) : Nat :=
  if 0x10000 ≤ x then 0x0700 + (x - 0x10000) % 4
  else if x = 0 then 0x0100
  else if x ≤ 0x12 then 0x0100 + x
  else if x < 0x40 then 0x0113
  else if x < 0x60 then 0x0114
  else if x < 0x80 then 0x0115
  else if x < 0xA0 then 0x0116
  else if x < 0xC0 then 0x0117
  else if x < 0x200 then 0x0118
  else if x < 0x300 then 0x0200 + (x - 0x200) % 32
  else if x < 0x800 then (if (x - 0x300) % 64 < 16 then 0x0300 else 0x0310 + (x - 0x300) % 64 - 16)
  else if x < 0x1000 then 0x0400 + (x - 0x800) % 32
  else if x < 0x2000 then 0x0500 + (x - 0x1000) % 4
  else 0x0600 + (x - 0x2000) % 16

/-- The Unit field of a source whose unit is fixed by its number (R489); the four Stockpot sources carry a page address. -/
def srcUnit (x : Nat) : Nat :=
  if 0x10000 ≤ x then (x - 0x10000) / 4
  else if x = 0x11 then 64
  else if x ≤ 0x12 then 0
  else if x < 0x40 then x - 0x20
  else if x < 0x60 then x - 0x40
  else if x < 0x80 then x - 0x60
  else if x < 0xA0 then x - 0x80
  else if x < 0xC0 then x - 0xA0
  else if x < 0x200 then x - 0xC0
  else if x < 0x300 then (x - 0x200) / 32
  else if x < 0x800 then (x - 0x300) / 64
  else if x < 0x1000 then (x - 0x800) / 32
  else if x < 0x2000 then (x - 0x1000) / 4
  else (x - 0x2000) / 16

/-- The 62 critical sources (R489). -/
def srcCritical (x : Nat) : Bool := decide (x ≤ 7) || decide (0x60 ≤ x ∧ x < 0xA0)

/-- The momentary sources (R490). -/
def srcMomentary (x : Nat) : Bool :=
  decide (1 ≤ x ∧ x ≤ 3) || decide (8 ≤ x ∧ x ≤ 0x12) || decide (0x20 ≤ x ∧ x < 0x60) || decide (0xA0 ≤ x ∧ x < 0xC0)
  || (decide (0x800 ≤ x ∧ x < 0x1000) && decide ((x - 0x800) % 32 = 18))

/-- The EMCY error code of a source that is raised (R141). -/
def emcyCode (x : Nat) : Nat :=
  if 1 ≤ x ∧ x ≤ 3 then 0x3100
  else if (4 ≤ x ∧ x ≤ 6) ∨ (0x60 ≤ x ∧ x < 0xA0) then 0x4200
  else if x = 0x12 ∨ (0x40 ≤ x ∧ x < 0x60) then 0x5000
  else 0xFF00

/-- The condition of a source is present: real, or held by an injector (R498). -/
def Source.present (x : Source) : Bool := x.real || x.inj

/-- A source that is `RAISED` or `NOTIFIED`. -/
def Source.openAlarm (x : Source) : Bool := x.st = 1 || x.st = 2

/-- `ErrorRegister` 1001h (R149). -/
def State.errorRegister (s : State) : Nat :=
  let alarm := s.sources.filter fun p => p.2.openAlarm
  let has (f : Nat → Bool) : Nat := if alarm.any (fun p => f p.1) then 1 else 0
  has (fun _ => true) + 4 * has (fun x => emcyCode x = 0x3100) + 8 * has (fun x => emcyCode x = 0x4200)
    + 128 * has (fun x => emcyCode x = 0x5000 || emcyCode x = 0xFF00)

/-- The Flags octet of an event record (R494). -/
def Source.flags (x : Source) (key : Nat) : Nat :=
  let e : Bool × Bool := match x.entry with
    | some e => (e.injLatest, e.injAny && e.realAny)
    | none => (x.injAny && !x.realAny, x.injAny && x.realAny)
  (if e.1 then 1 else 0) + (if srcCritical key then 2 else 0) + (if e.2 then 4 else 0) + (if x.present then 8 else 0)
    + (if srcMomentary key then 16 else 0)

/-- The 40 octets of an event record (R494). -/
def eventRecord (key : Nat) (x : Source) : Bytes :=
  match x.entry with
  | none => []
  | some e => leBytes 4 e.seq ++ leBytes 2 (srcNumber key) ++ leBytes 2 (eventCode key) ++ leBytes 4 e.unit ++ leBytes 1 x.st
      ++ leBytes 1 (x.flags key) ++ e.first ++ e.last ++ leBytes 4 e.count ++ leBytes 1 e.ackedBy ++ leBytes 1 0

/-- A `RAISED` source that a path has delivered becomes `NOTIFIED` (R492). -/
def State.delivered (s : State) (key : Nat) : State :=
  let x := s.source key
  if x.st = 1 then s.setSource key { x with st := 2 } else s

/-- Send an EMCY message of a port: at once when the inhibit time is over, else it waits; beyond 16 it is dropped (R141). `flags` are those
of the occurrence that it reports, or that has cleared. -/
def State.emcyPort (s : State) (p key : Nat) (raised : Bool) (flags : Nat) : State :=
  let c := s.canPort p
  if !c.started || !s.boot.fwReady then s else
  let m := leBytes 2 (if raised then emcyCode key else 0) ++ leBytes 1 s.errorRegister ++ leBytes 2 (srcNumber key)
    ++ leBytes 2 (eventCode key) ++ leBytes 1 (flags % 4)
  if c.emcyInhibit then
    (if c.emcy.length < 16 then s.setCanPort p { c with emcy := c.emcy ++ [(key, raised, m)] } else s.bump (Od.emcyDropped p))
  else
    let s := (s.send (.can p (0x080 + s.nat (Od.nodeId p)) false m)).setCanPort p { c with emcyInhibit := s.nat Od.inhibitTimeEmcy != 0 }
    if raised then s.delivered key else s

/-- Report a change of a source to `RAISED` or `CLEAR` on both CAN ports (R141). -/
def State.emcy (s : State) (key : Nat) (raised : Bool) (flags : Nat) : State := (s.emcyPort 0 key raised flags).emcyPort 1 key raised flags

/-- Entries present, of the critical or of the other sources (R493). -/
def State.entriesOf (s : State) (critical : Bool) : Nat :=
  (s.sources.filter fun p => p.2.entry.isSome && (srcCritical p.1 == critical)).length

def State.queueLen (s : State) : Nat := (s.sources.filter fun p => p.2.entry.isSome).length

/-- The source enters `RAISED`, with a new entry where a slot is free (R492, R493). -/
def State.raiseEntry (s : State) (key unit : Nat) (injected : Bool) : State :=
  let x := s.source key
  let full := !srcCritical key && decide (4032 ≤ s.entriesOf false)
  let seq := s.nat Od.nextEntrySeq
  let e : Option QEntry := if full then none else
    some { seq := seq, first := s.stampNow, last := s.stampNow, count := 1, injLatest := injected, injAny := injected,
           realAny := !injected, unit := unit }
  let s := s.setSource key { x with st := 1, entry := e, occurrences := min (x.occurrences + 1) 4294967295,
                                    injAny := injected, realAny := !injected }
  let s := if full then (s.bump Od.eventsLost).countEv 7 0 2 1 injected
    else ((s.setN Od.nextEntrySeq (seq + 1)).peak Od.entriesHighWater (s.queueLen)).countEv 7 0 1 1 injected
  let s := if full then s else
    let r := s.notifyAll 0 2 (eventRecord key (s.source key))
    if r.1 then r.2.delivered key else r.2
  s.emcy key true ((s.source key).flags key)

/-- A further occurrence of a source that is `RAISED` or `NOTIFIED`: its entry is updated and none is added (R492). -/
def State.raiseAgain (s : State) (key unit : Nat) (injected : Bool) : State :=
  let x := s.source key
  let e := x.entry.map fun e => { e with count := min (e.count + 1) 4294967295, last := s.stampNow, injLatest := injected,
                                         injAny := e.injAny || injected, realAny := e.realAny || !injected, unit := unit }
  s.setSource key { x with entry := e, occurrences := min (x.occurrences + 1) 4294967295, injAny := x.injAny || injected,
                           realAny := x.realAny || !injected }

/-- An occurrence of a source (R492): a momentary event, or a condition that arises. A condition that is already present takes
no further occurrence; the other cause of it is only noted (R498). -/
def State.occur (s : State) (key unit : Nat) (injected : Bool) : State :=
  let x := s.source key
  let was := x.present
  let x' := if srcMomentary key then x else if injected then { x with inj := true } else { x with real := true }
  let s := s.setSource key x'
  if was && !srcMomentary key then s
  else if x.st = 0 then
    let s' := s.raiseEntry key unit injected
    -- a non-critical source that found no slot raises EVQ_OVERFLOW, which takes a reserved slot (R493)
    if !srcCritical key && decide (4032 ≤ s.entriesOf false) then
      let o := s'.source 0
      if o.present then s'
      else
        let s' := s'.setSource 0 { o with real := true }
        if o.st = 0 then s'.raiseEntry 0 0 false else s'.raiseAgain 0 0 false
    else s'
  else s.raiseAgain key unit injected

/-- A real occurrence of a source whose unit is fixed by its number. -/
def State.raise (s : State) (key : Nat) : State := s.occur key (srcUnit key) false

/-- A source returns to `CLEAR`: its entry is removed and the clearing EMCY is sent (R492). -/
def State.toClear (s : State) (key : Nat) : State :=
  let x := s.source key
  (s.setSource key { x with st := 0, entry := none, injAny := false, realAny := false }).emcy key false (x.flags key)

/-- A condition ends: the real one, or the injected one (R492, R498). -/
def State.endCond (s : State) (key : Nat) (injected : Bool) : State :=
  let x := s.source key
  let x' := if injected then { x with inj := false } else { x with real := false }
  let s := s.setSource key x'
  if x.present && !x'.present && x.st = 3 then s.toClear key else s

/-- `EVQ_OVERFLOW` ends once non-critical occupancy is 3,840 entries or below (R493). -/
def State.overflowCheck (s : State) : State :=
  if (s.source 0).real && decide (s.entriesOf false ≤ 3840) then s.endCond 0 false else s

/-- The real condition of a source ends. -/
def State.clearCond (s : State) (key : Nat) : State := (s.endCond key false).overflowCheck

/-- Raise or end a real condition as a test says. -/
def State.setCond (s : State) (key : Nat) (present : Bool) : State :=
  if present then (if (s.source key).real then s else s.raise key)
  else (if (s.source key).real then s.clearCond key else s)

/-- A host acknowledges a source (R492, R495). -/
def State.ack (s : State) (slot key : Nat) : State :=
  let x := s.source key
  if x.openAlarm then
    if x.present && !srcMomentary key then
      s.setSource key { x with st := 3, entry := x.entry.map fun e => { e with ackedBy := slot } }
    else (s.toClear key).overflowCheck
  else s

/-- An injector whose scope is 1 holds the condition of a source (R497). -/
def injActs (s : State) (key : Nat) : Bool :=
  s.injectors.any fun p => p.2.holding && p.2.src = key && s.nat (Od.injectScope p.1) = 1

/-- A source's condition acts on the module: it is real, or injected to act. -/
def acting (s : State) (key : Nat) : Bool := (s.source key).real || injActs s key

/-! ### Fast status hold bits (R146) -/

/-- The addresses of the status RAM (R144). -/
def fsCarrier (n : Nat) : Nat := 0x1000 + n
def fsTray (t : Nat) : Nat := 0x2000 + t
def fsHub (i : Nat) : Nat := 0x3000 + i
def fsLeaf (l : Nat) : Nat := 0x40000 + l

/-- An event sets a hold bit. -/
def State.hold (s : State) (addr bit : Nat) : State :=
  let k := addr * 8 + bit
  { s with holds := if s.holds.contains k then s.holds else k :: s.holds }

def State.held (s : State) (addr bit : Nat) : Bool := s.holds.contains (addr * 8 + bit)

end Sys2Proof.Machine
end

