-- ==== Sys2Proof/Machine/Access.lean ====
section
/-! DEFINITION. Who may do what to which object: roles, object groups, commit scopes, the checks that every request passes,
and the end of a session (chapter 04). -/

namespace Sys2Proof.Machine

/-- The codes of R97. -/
def Status.code : Status → Nat
  | .ok => 0 | .noObject => 1 | .noSub => 2 | .readOnly => 3 | .writeOnly => 4 | .badType => 5 | .range => 6
  | .inconsistent => 7 | .role => 8 | .owned => 9 | .locked => 10 | .shadowBusy => 11 | .busy => 12 | .state => 13
  | .resource => 14 | .noData => 15 | .hardware => 16 | .timeout => 17 | .general => 18

/-- The CiA 301 abort code of a status (R97). -/
def Status.abort : Status → Nat
  | .ok => 0 | .noObject => 0x06020000 | .noSub => 0x06090011 | .readOnly => 0x06010002 | .writeOnly => 0x06010001
  | .badType => 0x06070010 | .range => 0x06090030 | .inconsistent => 0x06040043 | .role => 0x06010000 | .owned => 0x08000021
  | .locked => 0x08000021 | .shadowBusy => 0x08000020 | .busy => 0x08000020 | .state => 0x08000022 | .resource => 0x05040005
  | .noData => 0x08000024 | .hardware => 0x06060000 | .timeout => 0x05040000 | .general => 0x08000000

/-- What a write or command needs (R95, R96): an Operator, a Maintainer, a Key Officer, an Operator or Key Officer (R369), or
any role (R138). -/
inductive Need where
  | operator | maintainer | keyOfficer | operatorOrKey | anyone
  deriving DecidableEq, Repr

/-- The mark of each writable object or command, from the Roles bullet of its chapter (R91, R120, R149, R177, R229, R266,
R298, R323, R369, R373, R414, R442, R468, R488, R505). -/
def needOf (idx sub code : Nat) : Need :=
  if idx = 0x1F10 then .anyone
  else if idx = 0x1100 ∨ idx = 0x1110 ∨ idx = 0x1F21 then .maintainer
  else if idx = 0x2001 ∨ idx = 0x2007 ∨ idx = 0x2008 ∨ idx = 0x7F02 then .maintainer
  else if (idx = 0x2030 ∧ sub = 2) ∨ idx = 0x2031 then .maintainer
  else if idx = 0x2103 ∨ idx = 0x2105 then .maintainer
  else if idx = 0x2104 ∨ idx = 0x2107 then .keyOfficer
  else if idx = 0x2102 then .anyone
  else if idx = 0x2111 ∧ code = 3 then .maintainer
  else if idx = 0x2220 ∨ idx = 0x2221 then .maintainer
  else if idx = 0x3011 ∧ sub = 1 then .maintainer
  else if idx = 0x3041 ∧ sub = 1 then .maintainer
  else if (idx = 0x3110 ∧ sub = 1) ∨ (idx = 0x3120 ∧ (sub = 1 ∨ sub = 3 ∨ sub = 4)) ∨ (idx = 0x3125 ∧ sub = 1)
      ∨ (idx = 0x3130 ∧ sub = 4) ∨ (idx = 0x3131 ∧ 1 ≤ sub ∧ sub ≤ 3) then .maintainer
  else if (idx = 0x3203 ∧ 5 ≤ sub ∧ sub ≤ 9) ∨ idx = 0x3402 then .maintainer
  else if idx = 0x3310 then .maintainer
  else if idx = 0x4003 ∨ idx = 0x4010 ∨ idx = 0x4012 ∨ (idx = 0x4004 ∧ (code = 2 ∨ code = 3)) then .maintainer
  else if idx = 0x4302 ∨ idx = 0x4310 ∨ idx = 0x4312 ∨ idx = 0x4318 ∨ idx = 0x431A ∨ (idx = 0x4320 ∧ sub = 2)
      ∨ (idx = 0x4319 ∧ sub = 3) ∨ (idx = 0x4321 ∧ sub = 1) ∨ idx = 0x4322 then .keyOfficer
  else if idx = 0x4340 then .operatorOrKey
  else if idx = 0x4341 then (if code = 3 then .maintainer else .operatorOrKey)
  else if idx = 0x5002 then .keyOfficer
  else if (idx = 0x6000 ∧ (sub = 1 ∨ sub = 3 ∨ sub = 4)) ∨ idx = 0x6001 ∨ idx = 0x6004 ∨ idx = 0x6005 ∨ idx = 0x6006
      ∨ idx = 0x6012 ∨ idx = 0x6013 then .maintainer
  else if 0x7000 ≤ idx ∧ idx ≤ 0x7060 then .maintainer
  else .operator

/-- A role (1 Observer, 2 Operator, 3 Maintainer, 4 Key Officer) has the right that is needed (R95). -/
def roleHas (role : Nat) : Need → Bool
  | .operator => role = 2 || role = 3
  | .maintainer => role = 3
  | .keyOfficer => role = 4
  | .operatorOrKey => role = 2 || role = 3 || role = 4
  | .anyone => role ≠ 0

/-- The object group of an address (R93, R105); `none` for an object of no group. -/
def groupOf (idx inst : Nat) : Option Nat :=
  if idx = 0x2002 ∨ idx = 0x2007 then some inst
  else if (idx = 0x2120 ∨ idx = 0x2121) ∧ inst ≤ 63 then some inst
  else if idx = 0x3151 ∨ idx = 0x3201 ∨ idx = 0x3401 then some (inst / 32)
  else if idx = 0x3000 ∨ idx = 0x3002 ∨ idx = 0x3102 ∨ idx = 0x3131 ∨ idx = 0x3310 ∨ idx = 0x3312 ∨ idx = 0x3402 ∨ idx = 0x3403 then none
  else if 0x3000 ≤ idx ∧ idx ≤ 0x34FF then some inst
  else if idx = 0x4210 then none
  else if 0x4100 ≤ idx ∧ idx ≤ 0x42FF then some (64 + inst)
  else if idx = 0x4300 ∨ idx = 0x4301 ∨ idx = 0x4302 ∨ idx = 0x4321 ∨ idx = 0x4322 then some (64 + inst)
  else if 0x5000 ≤ idx ∧ idx ≤ 0x5003 then some (2116 + inst)
  else if 0x7000 ≤ idx ∧ idx ≤ 0x701F then some (2112 + inst)
  else none

/-- An object whose unit is a fibre port (R106). -/
def portObject (idx : Nat) : Bool := idx = 0x3000 || idx = 0x3002 || idx = 0x3131 || idx = 0x3310 || idx = 0x7030 || idx = 0x7300

/-- Another session than `k` owns group `g` (R108). -/
def State.ownedByOther (s : State) (k g : Nat) : Bool := s.nat (Od.owner g) != 255 && s.nat (Od.owner g) != k

/-- The ownership check of R106 and R108; `KEY` objects and Key Officer commands are exempt (R96). -/
def ownedOut (s : State) (k idx inst : Nat) (acc : Acc) (need : Need) : Bool :=
  if acc = .key ∨ (acc = .cmd ∧ need = .keyOfficer) then false
  else if portObject idx then (List.range 8).any fun j => s.ownedByOther k (8 * inst + j)
  else if idx = 0x5010 then s.ownedByOther k inst
  else match groupOf idx inst with
    | some g => s.ownedByOther k g
    | none => false

/-- The objects that work only from `CALIBRATE` onwards (R119). -/
def gated (idx : Nat) : Bool := decide (0x3000 ≤ idx ∧ idx ≤ 0x61FF)

/-- `OFF`, `STANDBY` or `BOOT`. -/
def State.beforeCalibrate (s : State) : Bool := s.boot.st = .off || s.boot.st = .standby || s.boot.st = .boot

/-- In the recovery condition only the identity and firmware objects are served (R77, R94). -/
def servedInRecovery (idx : Nat) : Bool :=
  idx = 0x1000 || idx = 0x1008 || idx = 0x1009 || idx = 0x100A || idx = 0x1018 || decide (0x7F00 ≤ idx ∧ idx ≤ 0x7F03)

/-- Does the address exist (R7–R9, R505–R507): the object, the unit, and the sub. -/
def addrStatus (idx inst sub : Nat) : Status :=
  match objRow idx with
  | none => .noObject
  | some r =>
    if inst ≥ r.units then .noObject
    else if idx = 0x2210 ∧ !srcAssigned inst then .noObject
    else if sub > r.top then .noSub
    else .ok

/-! ### Shadows and scopes (R109–R110) -/

/-- The shadow view of an object: its pending value, else its active value (R110). -/
def State.shadowVal (s : State) (k : Nat) : Val := Tbl.get s.val s.shadow k
def State.shNat (s : State) (k : Nat) : Nat := (s.shadowVal k).nat
def State.shInt (s : State) (k : Nat) : Int := (s.shadowVal k).int
def State.shFlag (s : State) (k : Nat) : Bool := (s.shadowVal k).nat != 0

/-- Write a shadow; a shadow equal to its active value is not pending. -/
def State.setShadow (s : State) (k : Nat) (v : Val) : State := { s with shadow := Tbl.put s.val s.shadow k v }

/-- The carriers on which a tray is active, and those on which a pending change places it (R109). -/
def activeCarriers (s : State) (t : Nat) : List Nat := ([s.nat (Od.workCarrier t), s.nat (Od.protCarrier t)].filter (· < 64)).eraseDups
def placedCarriers (s : State) (t : Nat) : List Nat :=
  (activeCarriers s t ++ [s.shNat (Od.workCarrier t), s.shNat (Od.protCarrier t)].filter (· < 64)).eraseDups

/-- The scopes of carriers; scope 64 where there is none. -/
def scopesAt (cs : List Nat) : List Nat := if cs.isEmpty then [64] else cs

/-- An object that places a tray: subs 1 to 5 of 4100h (R331). -/
def placementObject (k : Nat) : Bool := keyIdx k = 0x4100 && decide (keySub k ≤ 5)

/-- The commit scopes in which an `RWS` object lies (R109): the placement of a tray lies in the scopes of the carriers that it leaves,
keeps and goes to; the tray's other objects lie in the scopes of the carriers on which it is active. -/
def scopesOf (s : State) (k : Nat) : List Nat :=
  match groupOf (keyIdx k) (keyInst k) with
  | none => [64]
  | some g =>
    if g < 64 then [g]
    else if g < 2112 then scopesAt (if placementObject k then placedCarriers s (g - 64) else activeCarriers s (g - 64))
    else if g ≥ 2116 then [(g - 2116) / 32]
    else [64]

/-- The commit scopes of a group: the scopes in which its members lie. -/
def groupScopes (s : State) (g : Nat) : List Nat :=
  if g < 64 then [g]
  else if g < 2112 then (scopesAt (placedCarriers s (g - 64)) ++ scopesAt (activeCarriers s (g - 64))).eraseDups
  else if g ≥ 2116 then [(g - 2116) / 32]
  else [64]

/-- A scope is armed: from the acceptance of the arm until it returns to `IDLE` (R111). -/
def State.armed (s : State) (n : Nat) : Bool := s.nat (Od.commitStatusState n) != 0

/-- The pending shadow values of a scope. -/
def pendingIn (s : State) (n : Nat) : List (Nat × Val) :=
  s.shadow.filter fun p => (scopesOf s p.1).contains n && decide (p.2 ≠ s.val p.1)

/-! ### Requests -/

/-- A session that can make a request now: it is open and a transport answers it (R508). -/
def State.answers (s : State) (k : Nat) : Bool := decide (k < 8) && (s.session k).isOpen && (s.boot.fwReady || s.boot.recovery)

/-- A refused request leaves only the session's `LastStatus` (R98). -/
def State.refuse (s : State) (k : Nat) (st : Status) : State := s.setSession k { s.session k with lastStatus := st.code }

/-- The checks that every write or command passes before its chapter judges it (R96, R97, R108, R119): the address, the
access class, the role, the module state, and ownership. -/
def writeGate (s : State) (k idx inst sub code : Nat) : Status :=
  match addrStatus idx inst sub with
  | .ok =>
    match objRow idx with
    | none => .noObject
    | some r =>
      if sub = 0 ∧ !r.single then .readOnly
      else match findSub r.subs sub with
      | none => .noSub
      | some line =>
        let need := needOf idx sub code
        if line.acc = .ro then .readOnly
        else if !roleHas (s.session k).role need then .role
        else if line.acc = .key ∧ (s.session k).transport > 2 then .role
        else if s.boot.recovery ∧ !servedInRecovery idx then .state
        else if gated idx && s.beforeCalibrate then .state
        else if ownedOut s k idx inst line.acc need then .owned
        else .ok
  | st => st

/-- One command written by session `k`: the common checks, the range of its code, one journal entry (R118), then the effect.
An effect that refuses leaves what its own chapter says a refusal leaves (R98). -/
def hostCmd (s : State) (k key code : Nat) (effect : State → Status × State) : State :=
  if !s.answers k then s else
  match writeGate s k (keyIdx key) (keyInst key) (keySub key) code with
  | .ok =>
    let r := effect (s.journalBy k 3 (keyIdx key) (keyInst key) (keySub key))
    if r.1 = .ok then r.2 else ((effect s).2).refuse k r.1
  | st => s.refuse k st

/-- A command whose journal entries are of kinds 6 to 8 only (R118). -/
def hostCmdQuiet (s : State) (k key code : Nat) (effect : State → Status × State) : State :=
  if !s.answers k then s else
  match writeGate s k (keyIdx key) (keyInst key) (keySub key) code with
  | .ok =>
    let r := effect s
    if r.1 = .ok then r.2 else s.refuse k r.1
  | st => s.refuse k st

/-! ### Sessions and their end (R103, R104) -/

/-- No identity entry is enabled (R103). -/
def State.isCommissioning (s : State) : Bool := (List.range 32).all fun i => !s.flag (Od.identityEntryEnabled i)

/-- The groups that a slot owns. -/
def claimsOf (s : State) (k : Nat) : List Nat :=
  s.od.filterMap fun p => if keyIdx p.1 = 0x2110 ∧ keySub p.1 = 1 ∧ p.2.nat = k then some (keyInst p.1) else none

/-- Release one group, with its journal entry of kind 7 (R118). -/
def releaseGroup (s : State) (k g : Nat) : State := (s.setN (Od.owner g) 255).journalBy k 7 0 g 0

def releaseAll (s : State) (k : Nat) : State := (claimsOf s k).foldl (fun s g => releaseGroup s k g) s

/-- The Lid lock is released and the output zeroised (R369). -/
def lidFree (s : State) : State := (s.setN Od.lockHolder 255).setO Od.lidBlock (List.replicate 16 0)

/-- A block transfer is abandoned; an image that was being written stays `INVALID` (R130, R131). -/
def blockDropped (s : State) (k : Nat) : State :=
  let x := s.session k
  let image : Bool := match x.block with | some b => b.writing && b.idx = 0x7F00 | none => false
  { s.setSession k { x with block := none } with boot := { s.boot with imageWriting := s.boot.imageWriting && !image } }

/-- A session ends: claims and locks are released, its block transfer is abandoned, and its slot becomes free (R104). A
commit that it armed runs on. -/
def endSession (s : State) (k : Nat) : State :=
  if !(s.session k).isOpen then s else
  let s := releaseAll s k
  let s := if s.nat Od.lockHolder = k then lidFree s else s
  let s := s.journalBy k 10 0 0 0
  let scopes := s.scopes.foldl (fun t p => if p.2.armSlot = k then Tbl.put (fun _ => {}) t p.1 { p.2 with armSlot := 255 } else t) s.scopes
  let s := { s with conns := s.conns.filter fun c => c.slot != k, scopes := scopes }
  blockDropped s k |>.setSession k {}

end Sys2Proof.Machine
end

