-- ==== Sys2Proof/Machine/Timing.lean ====
section
/-! DEFINITION. Timing generators, references, holdover, module time and the frame-pulse outputs (chapter 15). Offsets are in
0.001 ppb against OSCIN, as the objects carry them; fine time is in 10⁻⁹ ns. -/

namespace Sys2Proof.Machine

def State.tgEntry (s : State) (g e : Nat) : TgEntry := Tbl.get (fun _ => {}) s.tgEntries (16 * g + e)
def State.setTgEntry (s : State) (g e : Nat) (x : TgEntry) : State :=
  { s with tgEntries := Tbl.put (fun _ => {}) s.tgEntries (16 * g + e) x }
def State.tg (s : State) (g : Nat) : Tg := Tbl.get (fun _ => {}) s.tgs g
def State.setTg (s : State) (g : Nat) (x : Tg) : State := { s with tgs := Tbl.put (fun _ => {}) s.tgs g x }
def State.fpo (s : State) (f : Nat) : Fpo := Tbl.get (fun _ => {}) s.fpos f
def State.setFpo (s : State) (f : Nat) (x : Fpo) : State := { s with fpos := Tbl.put (fun _ => {}) s.fpos f x }

/-- The bound of R458: ±95 ppm. -/
def tgBound (z : Int) : Int := max (-95000000) (min 95000000 z)

/-- The mean of the history without its latest 10 samples (R453). -/
def historyMean (h : List Int) : Int :=
  let old := h.drop 10
  if old.isEmpty then 0 else old.foldl (· + ·) 0 / (old.length : Int)

/-- The history is valid with 60 samples or more (R453). -/
def Tg.valid (x : Tg) : Bool := 60 ≤ x.history.length

/-- Is the source of a candidate available (R447). -/
def candAvailable (s : State) (c : Nat) : Bool :=
  let n := c % 1024
  match c / 4096 with
  | 1 => !s.timeCtl.oscinLost
  | 2 => s.flag (Od.refActive n)
  | 3 => s.nat (Od.rxState n) = 3
  | 4 => s.nat (Od.laneState n) = 6
  | _ => false

/-- A candidate code that R446 allows. -/
def candOk (c : Nat) : Bool :=
  let n := c % 1024
  decide (c / 1024 % 4 = 0) &&
  match c / 4096 with
  | 0 => n = 0
  | 1 => n = 0
  | 2 => n < 4
  | 3 => n < 64
  | 4 => true
  | _ => false

def qualified (s : State) (g e : Nat) : Bool := s.nat (Od.entryState e g) = 3 && (s.tgEntry g e).rank != 0

/-- The best rank among the qualified entries; 16 for none (R450). -/
def bestRank (s : State) (g : Nat) : Nat :=
  (List.range 16).foldl (fun r e => if qualified s g e then min r (s.tgEntry g e).rank else r) 16

/-- The lowest-numbered qualified entry of the best rank. -/
def bestEntry (s : State) (g : Nat) : Option Nat :=
  (List.range 16).find? fun e => qualified s g e && decide ((s.tgEntry g e).rank = bestRank s g)

/-- `ACQUIRING` is entered (R456). -/
def tgAcquire (s : State) (g : Nat) : State := s.setN (Od.tgState g) 1

/-- `LOCKED` is entered: both alarms of R456 clear, and the history unfreezes on an entry within its `SoftLimit` (R454). -/
def tgLocked (s : State) (g : Nat) : State :=
  let e := s.nat (Od.selectedEntry g)
  let s := ((s.setN (Od.tgState g) 2).clearCond (srcGen g 17)).clearCond (srcGen g 18)
  if decide ((s.int (Od.offset100s e g)).natAbs ≤ 1000 * (s.tgEntry g e).soft) then s.setB (Od.historyFrozen g) false else s

/-- `LOST` is entered: the last output frequency is held (R455, R456). -/
def tgLost (s : State) (g : Nat) : State := (s.setN (Od.tgState g) 4).setCond (srcGen g 18) true

/-- `HOLDOVER` with a valid history, else `LOST` (R453, R456). -/
def tgHold (s : State) (g : Nat) : State :=
  if (s.tg g).valid then
    (((s.setN (Od.tgState g) 3).setI (Od.outputOffset g) (tgBound (s.int (Od.historyOffset g)))).setCond (srcGen g 17) true).bump
      (Od.holdoverEntries g)
  else tgLost s g

/-- Select entry `e` (R450, R457). With the loop open the output stays steered (R460). -/
def tgSelect (s : State) (g e cause : Nat) : State :=
  let s := ((s.setN (Od.selectedEntry g) e).bump (Od.tgStatusSwitches g)).setN (Od.lastSwitchCause g) cause
  let s := s.setTg g { s.tg g with cause := 0 }
  if s.flag (Od.loopOpen g) then s else tgAcquire s g

/-- Nothing is selected any more; the next selection records `cause`. -/
def tgDeselect (s : State) (g cause : Nat) : State :=
  (s.setN (Od.selectedEntry g) 255).setTg g { s.tg g with cause := cause }

/-- Run the selection of R450 with nothing selected: take the best entry, else the states of R456 apply. -/
def tgRunSelection (s : State) (g : Nat) : State :=
  if (s.tg g).forced then s else
  match bestEntry s g with
  | some e => tgSelect s g e (s.tg g).cause
  | none =>
    let st := s.nat (Od.tgState g)
    if s.flag (Od.loopOpen g) then s
    else if st = 1 || st = 2 then tgHold s g else s

/-- Disqualify an entry (R449). `REF_DRIFT` clears with it (R454). -/
def disqualify (s : State) (g e reason : Nat) : State :=
  let s := (s.setN (Od.entryState e g) 1).setN (Od.disqReason e g) reason
  (s.setN (Od.driftState e g) 0).setCond (srcGen g e) false

/-- The voters of R452: OSCIN at offset 0 as voter 16, and every qualified entry that is not OSCIN. -/
def voters (s : State) (g : Nat) : List (Nat × Int) :=
  (16, 0) :: (List.range 16).filterMap fun e =>
    if qualified s g e && (s.tgEntry g e).cand / 4096 != 1 then some (e, s.int (Od.offset100s e g)) else none

/-- Entry `e` has a majority (R452). -/
def hasMajority (s : State) (g e : Nat) : Bool :=
  let vs := voters s g
  let me := if (s.tgEntry g e).cand / 4096 = 1 then 16 else e
  let o := s.int (Od.offset100s e g)
  let a := 1 + (vs.filter fun v => v.1 != me && decide ((v.2 - o).natAbs ≤ 1000 * s.nat (Od.agreementWindow g))).length
  decide (vs.length < 2 * a)

/-- The vote of R452. -/
def evalVote (s : State) (g : Nat) : State :=
  let best := (List.range 16).filter fun e => qualified s g e && decide ((s.tgEntry g e).rank = bestRank s g)
  let offs := best.map fun e => s.int (Od.offset100s e g)
  let apart := offs.any fun a => offs.any fun b => decide ((a - b).natAbs > 1000 * s.nat (Od.agreementWindow g))
  if decide (best.length < 2) || !apart then s.setCond (srcGen g 16) false else
  let win := best.filter (hasMajority s g)
  let lose := best.filter fun e => !hasMajority s g e
  if win.isEmpty || lose.isEmpty then s.setCond (srcGen g 16) true
  else
    let s := s.setCond (srcGen g 16) false
    lose.foldl (fun s e =>
      let s := (disqualify s g e 4).bump (Od.outvotes e g)
      let s := s.setTgEntry g e { s.tgEntry g e with agreeRun := 0 }
      if s.nat (Od.selectedEntry g) = e then tgDeselect s g 3 else s) s

/-- Disqualify an entry and, if it was selected, select again at once, after a vote among those that are best now (R450, R457). -/
def disqualifyNow (s : State) (g e reason cause : Nat) : State :=
  let s := disqualify s g e reason
  if s.nat (Od.selectedEntry g) = e then tgRunSelection (evalVote (tgDeselect s g cause) g) g else s

/-- A candidate's source ends: its entries are disqualified in every table (R449), and the means restart (R448). -/
def timingSourceLost (s : State) (code reason : Nat) : State :=
  (List.range 4).foldl (fun s g => (List.range 16).foldl (fun s e =>
    let x := s.tgEntry g e
    if x.rank = 0 || x.cand != code then s else
    let s := s.setTgEntry g e { x with means := [], softRun := 0, agreeRun := 0 }
    if s.nat (Od.entryState e g) = 1 && decide (3 < s.nat (Od.disqReason e g)) then s
    else disqualifyNow s g e reason 2) s) s

/-- A carrier leaves `TRACK`, or a lane leaves `ACTIVE` (R447, R449). -/
def carrierClockLost (s : State) (n : Nat) : State := timingSourceLost s (0x3000 + n) 2
def laneClockLost (s : State) (k : Nat) : State := timingSourceLost s (0x4000 + k) 2

/-- The reference offset that an entry must agree with to leave reasons 4 and 5 (R449): the selected one, or zero. -/
def agreementTarget (s : State) (g : Nat) : Int :=
  let e := s.nat (Od.selectedEntry g)
  if e < 16 then s.int (Od.offset100s e g) else 0

/-! ### The 1 s evaluation (R448–R454) -/

/-- Take the table values of one entry (R451). -/
def evalTable (s : State) (g e : Nat) : State :=
  let x := s.tgEntry g e
  let cand := s.nat (Od.candidate e g)
  let rank := s.nat (Od.rank e g)
  let y : TgEntry := { x with cand := cand, rank := rank, soft := s.nat (Od.softLimit e g), hard := s.nat (Od.hardLimit e g) }
  let changed := x.cand != cand
  let y := if changed || rank = 0 then { y with means := [], softRun := 0, agreeRun := 0 } else y
  let s' := s.setTgEntry g e y
  let s' := if rank = 0 then ((disqualify s' g e 0).setN (Od.entryState e g) 0)
    else if changed || x.rank = 0 then (((s'.setN (Od.entryState e g) 2).setN (Od.disqReason e g) 0).setN (Od.driftState e g) 0).setCond (srcGen g e) false
    else s'
  if s.nat (Od.selectedEntry g) = e && (changed || rank = 0) then tgDeselect s' g 4 else s'

/-- Take the 1 s mean of one entry and judge activity, availability, the limits and the runs of R449. -/
def evalEntry (means : List (Nat × Int)) (s : State) (g e : Nat) : State :=
  let x := s.tgEntry g e
  if x.rank = 0 then s else
  let st := s.nat (Od.entryState e g)
  let why := s.nat (Od.disqReason e g)
  if !candAvailable s x.cand then
    let s := s.setTgEntry g e { x with means := [], softRun := 0, agreeRun := 0 }
    if st = 1 then s else disqualify s g e (if x.cand / 4096 = 2 then 1 else 2)
  else
    let x := match means.lookup x.cand with
      | some z => { x with means := (z :: x.means).take 100 }
      | none => x
    let o1 := x.means.headD 0
    let o100 := if x.means.isEmpty then 0 else x.means.foldl (· + ·) 0 / (x.means.length : Int)
    let s := (s.setI (Od.offset1s e g) o1).setI (Od.offset100s e g) o100
    let beyond : Bool := decide (o100.natAbs > 1000 * x.hard) || decide (o1.natAbs > 1000 * x.hard + 10000000)
    let x := { x with softRun := if o100.natAbs ≤ 1000 * x.soft then x.softRun + 1 else 0,
                      agreeRun := if (o100 - agreementTarget s g).natAbs ≤ 1000 * s.nat (Od.agreementWindow g) then x.agreeRun + 1 else 0 }
    let s := s.setTgEntry g e x
    -- drift, R454
    let s := if o100.natAbs > 1000 * x.soft && s.nat (Od.driftState e g) = 0 && st != 1 then
        (s.setN (Od.driftState e g) 1).setCond (srcGen g e) true
      else if s.nat (Od.driftState e g) = 1 && decide (o100.natAbs * 10 < 9000 * x.soft) then
        (s.setN (Od.driftState e g) 0).setCond (srcGen g e) false
      else s
    let s := if s.nat (Od.selectedEntry g) = e && decide (o100.natAbs > 1000 * x.soft) then s.setB (Od.historyFrozen g) true else s
    -- condition, R449
    let q := s.nat (Od.timingGeneratorQualifyTime g)
    if beyond then (if st = 1 && decide (3 < why) then s else disqualify s g e 3)
    else if st = 1 && decide (3 < why) && decide (x.agreeRun < q) then s
    else
      let s := s.setN (Od.disqReason e g) 0
      s.setN (Od.entryState e g) (if st = 3 || decide (q ≤ x.softRun) then 3 else 2)

/-- The history sample of R453. -/
def evalHistory (s : State) (g : Nat) : State :=
  if s.nat (Od.tgState g) = 2 && !s.flag (Od.loopOpen g) then
    let e := s.nat (Od.selectedEntry g)
    let s := if s.flag (Od.historyFrozen g) && decide (e < 16) && decide ((s.int (Od.offset100s e g)).natAbs ≤ 1000 * (s.tgEntry g e).soft)
      then s.setB (Od.historyFrozen g) false else s
    if s.flag (Od.historyFrozen g) then s else
      let h := (s.int (Od.outputOffset g) :: (s.tg g).history).take 900
      (s.setTg g { s.tg g with history := h }).setI (Od.historyOffset g) (historyMean h)
  else s

/-- The loop's output of this second (R455, R457, R458): in `ACQUIRING` it moves at no more than `FreqSlewLimit`. Without OSCIN it is
held (R444). -/
def evalOutput (s : State) (g : Nat) (out : Int) : State :=
  let st := s.nat (Od.tgState g)
  let was := s.int (Od.outputOffset g)
  let lim : Int := 10000 * s.nat (Od.freqSlewLimit g)
  if s.flag (Od.loopOpen g) || s.timeCtl.oscinLost then s
  else if st = 1 then s.setI (Od.outputOffset g) (tgBound (max (was - lim) (min (was + lim) out)))
  else if st = 2 then s.setI (Od.outputOffset g) (tgBound out)
  else s

/-- The evaluation of generator `g`: `means` gives the 1 s mean of every candidate measured, and `out` what the loop filter
puts out (R448–R456). -/
def timingEvaluate (s : State) (g : Nat) (means : List (Nat × Int)) (out : Int) : State :=
  let s := (List.range 16).foldl (fun s e => evalTable s g e) s
  let s := (List.range 4).foldl (fun s x => match means.lookup (0x2000 + x) with
    | some z => if s.flag (Od.refActive x) then s.setI (Od.refOffset x) z else s
    | none => s) s
  let s := evalOutput s g out
  let s := (List.range 16).foldl (fun s e => evalEntry means s g e) s
  let s := evalVote s g
  let sel := s.nat (Od.selectedEntry g)
  let s := if decide (sel < 16) && !qualified s g sel then tgDeselect s g 2 else s
  let s := evalHistory s g
  let s := if s.nat (Od.tgState g) = 3 then s.bump (Od.holdoverSeconds g) else s
  if s.nat (Od.selectedEntry g) < 16 then s else tgRunSelection s g

def execTimingEvaluation (g : Nat) (means : List (Nat × Int)) (out : Int) (s : State) : Out :=
  onUnit (g < 4) s fun s => timingEvaluate s g means out

/-! ### Reference inputs and OSCIN (R444, R445) -/

def execRefActivityLoss (x : Nat) (s : State) : Out :=
  onUnit (x < 4) s fun s => timingSourceLost (s.setB (Od.refActive x) false) (0x2000 + x) 1

def execRefActivityReturn (x : Nat) (s : State) : Out :=
  onUnit (x < 4) s fun s =>
    let s := s.setB (Od.refActive x) true
    (List.range 4).foldl (fun s g => (List.range 16).foldl (fun s e =>
      let y := s.tgEntry g e
      if y.rank != 0 && y.cand = 0x2000 + x && s.nat (Od.entryState e g) = 1 && s.nat (Od.disqReason e g) = 1 then
        (s.setN (Od.entryState e g) 2).setN (Od.disqReason e g) 0
      else s) s) s

/-- No OSCIN edge for 1 µs: the event is counted, every generator holds its output, and OSCIN candidates are lost (R444). -/
def execOscinLoss (s : State) : Out :=
  .next <| if s.timeCtl.oscinLost then s else
    timingSourceLost (({ s with timeCtl := { s.timeCtl with oscinLost := true } }.bump Od.oscinLosses).setCond 7 true) 0x1000 2

def execOscinReturn (s : State) : Out := .next { s with timeCtl := { s.timeCtl with oscinLost := false } }

def execOscinAlarmClear (s : State) : Out := .next (if s.timeCtl.oscinLost then s else s.setCond 7 false)

/-! ### Generator states (R456) -/

def execGeneratorLock (g : Nat) (s : State) : Out :=
  onUnit (g < 4) s fun s => if s.nat (Od.tgState g) = 1 then tgLocked s g else s

def execGeneratorLockTimeout (g : Nat) (s : State) : Out :=
  onUnit (g < 4) s fun s =>
    let e := s.nat (Od.selectedEntry g)
    if s.nat (Od.tgState g) = 1 && decide (e < 16) then
      disqualifyNow (s.setTgEntry g e { s.tgEntry g e with agreeRun := 0 }) g e 5 2
    else s

def execHoldoverLimit (g : Nat) (s : State) : Out :=
  onUnit (g < 4) s fun s => if s.nat (Od.tgState g) = 3 && !s.flag (Od.loopOpen g) then tgLost s g else s

/-- A better-ranked entry has waited out `WaitToRestore` (R450). -/
def execTgWaitToRestore (g : Nat) (s : State) : Out :=
  onUnit (g < 4) s fun s =>
    let e := s.nat (Od.selectedEntry g)
    if s.flag (Od.timingGeneratorRevertive g) && !(s.tg g).forced && decide (e < 16)
        && decide (bestRank s g < (s.tgEntry g e).rank) then
      match bestEntry s g with
      | some b => tgSelect s g b 1
      | none => s
    else s

/-- `TgCommand` code 1: select now; a revertive wait ends (R450). -/
def tgReselect (g : Nat) (s : State) : Status × State :=
  let e := s.nat (Od.selectedEntry g)
  if (s.tg g).forced then (.ok, s)
  else if decide (e < 16) && qualified s g e && decide ((s.tgEntry g e).rank = bestRank s g) then (.ok, s)
  else match bestEntry s g with
    | some b => (.ok, tgSelect s g b 5)
    | none => (.ok, s)

/-- `TgCommand` code 2: forced holdover (R456, R466). -/
def tgForceHoldover (g : Nat) (s : State) : Status × State :=
  let st := s.nat (Od.tgState g)
  let s := tgDeselect s g 5
  let s := s.setTg g { s.tg g with forced := true }
  if s.flag (Od.loopOpen g) || st = 3 && (s.tg g).valid || st = 4 && !(s.tg g).valid then (.ok, s)
  else if st = 0 then (.ok, tgLost s g) else (.ok, tgHold s g)

/-- `TgCommand` code 3: the forced holdover ends and selection resumes (R456). -/
def tgReleaseHoldover (g : Nat) (s : State) : Status × State :=
  if (s.tg g).forced then (.ok, tgRunSelection (s.setTg g { s.tg g with forced := false, cause := 5 }) g) else (.ok, s)

def execTgReselect (k g : Nat) (s : State) : Out := .next (hostCmd s k (Od.tgCommand g) 1 (tgReselect g))
def execTgForceHoldover (k g : Nat) (s : State) : Out := .next (hostCmd s k (Od.tgCommand g) 2 (tgForceHoldover g))
def execTgReleaseHoldover (k g : Nat) (s : State) : Out := .next (hostCmd s k (Od.tgCommand g) 3 (tgReleaseHoldover g))

/-- The effect of a write of `LoopOpen` (R460): opening copies the output offset, closing acquires the selected entry. -/
def loopWritten (old s : State) (g : Nat) : State :=
  let was := old.flag (Od.loopOpen g)
  let now := s.flag (Od.loopOpen g)
  if !was && now then (s.setI (Od.steerOffset g) (s.int (Od.outputOffset g))).setN (Od.tgState g) 3
  else if was && !now then
    let e := s.nat (Od.selectedEntry g)
    if decide (e < 16) && qualified s g e then (tgAcquire s g).setN (Od.lastSwitchCause g) 6
    else tgHold s g
  else s

/-- The effect of a write of `SteerOffset` (R458, R460). -/
def steerWritten (s : State) (g : Nat) : State :=
  if s.flag (Od.loopOpen g) then s.setI (Od.outputOffset g) (tgBound (s.int (Od.steerOffset g))) else s

/-! ### Module time (R461–R463) -/

/-- Generator time minus module time changes for TG1 to TG3 when module time moves by `d` (10⁻⁹ ns), and the targets of
outputs on TG0 move against their edges (R464, R465). -/
def timeMoved (s : State) (d : Int) : State :=
  let s := (List.range 4).foldl (fun s g => if g = 0 then s else s.setTg g { s.tg g with phase := (s.tg g).phase - d }) s
  (List.range 8).foldl (fun s f =>
    if s.flag (Od.fpoEnable f) && s.nat (Od.fpoSource f) = 0 then s.setFpo f { s.fpo f with err := (s.fpo f).err + d } else s) s

/-- Move module time by `d` (10⁻⁹ ns), keeping the fraction. -/
def advance (s : State) (d : Int) : State :=
  let t := s.timeCtl.frac + d
  { s with moduleTime := ((s.moduleTime : Int) + t / 1000000000).toNat, timeCtl := { s.timeCtl with frac := t % 1000000000 } }

/-- What is left of a slew, in whole nanoseconds (`AdjustRemaining`). -/
def slewRemaining (s : State) : Int := s.timeCtl.slewLeft / 1000000000

/-- Start a slew by `ns`; a slew already running is replaced (R462). -/
def startSlew (s : State) (ns : Int) : State := { s with timeCtl := { s.timeCtl with slewLeft := ns * 1000000000 } }

/-- `TimeCommand` code 1 (R462). The command runs until the step. -/
def timeStep (s : State) : Status × State :=
  if (List.range 64).any fun n => s.flag (Od.hubMode n) then (.state, s)
  else if s.nat Od.groupState != 0 then (.shadowBusy, s)
  else if s.nat Od.timeCommand != 0 then (.busy, s)
  else (.ok, ({ s with timeCtl := { s.timeCtl with stepping := true } }).setN Od.timeCommand 1)

/-- A waiting PPS correction starts (R463, R466). -/
def ppsStart (s : State) : State :=
  if s.timeCtl.ppsWaiting then
    startSlew { s with timeCtl := { s.timeCtl with ppsWaiting := false } } (- s.int Od.ppsError)
  else s

/-- A slew has ended, and with it the command under which it ran; a waiting PPS correction starts. -/
def slewEnded (s : State) : State := ppsStart (s.setN Od.timeCommand 0)

/-- `TimeCommand` code 2 (R462): the command runs until its slew ends (R14). -/
def timeSlew (s : State) : Status × State :=
  if s.timeCtl.stepping then (.busy, s)
  else
    let ns := s.int Od.timeAdjust
    (.ok, (startSlew s ns).setN Od.timeCommand (if ns = 0 then 0 else 2))

/-- `TimeCommand` code 3 (R462). -/
def timeSlewCancel (s : State) : Status × State :=
  if s.timeCtl.stepping then (.busy, s) else (.ok, slewEnded (startSlew s 0))

def execTimeStep (k : Nat) (s : State) : Out := .next (hostCmd s k Od.timeCommand 1 timeStep)
def execTimeSlew (k : Nat) (s : State) : Out := .next (hostCmd s k Od.timeCommand 2 timeSlew)
def execTimeSlewCancel (k : Nat) (s : State) : Out := .next (hostCmd s k Od.timeCommand 3 timeSlewCancel)

/-- A running slew completes: what is left of it is applied (R462), and a waiting PPS correction may start. -/
def execSlewDone (s : State) : Out :=
  let d := s.timeCtl.slewLeft
  .next (if d = 0 then s else slewEnded (timeMoved (advance (startSlew s 0) d) d))

/-- A PPS edge that arrives at module time `t` (ns) while R463's conditions hold. -/
def execPpsEdge (t : Nat) (s : State) : Out :=
  let e := s.nat (Od.selectedEntry 0)
  let c := (s.tgEntry 0 e).cand
  .next <| if s.flag Od.ppsAlign && s.nat (Od.tgState 0) = 2 && decide (e < 16) && c / 4096 = 2 && s.nat (Od.refNominal (c % 4096)) = 1 then
    let sec := (t + 500000000) / 1000000000
    let err : Int := (t : Int) - (sec * 1000000000 : Nat) - s.int Od.ppsOffset
    let s := s.setI Od.ppsError err
    if err.natAbs ≤ 100 then s
    else if s.timeCtl.slewLeft != 0 then
      (if s.nat Od.timeCommand = 2 then { s with timeCtl := { s.timeCtl with ppsWaiting := true } } else s)
    else startSlew s (-err)
  else s

/-! ### Frame-pulse outputs (R464, R465) -/

/-- A period of `n` × 125 µs, in ns. -/
def fpoPeriodNs (n : Nat) : Nat := 125000 * max n 1

/-- Generator time in ns (R464). -/
def genTime (s : State) (g : Nat) : Int :=
  (s.moduleTime : Int) + (if g = 0 then 0 else (s.timeCtl.frac + (s.tg g).phase) / 1000000000)

/-- The first instant at or after `now` that is `off` modulo `p`. -/
def nextEdge (now off : Int) (p : Nat) : Int := now + (off - now) % (p : Int)

/-- `d` modulo `p`, in −p/2 to p/2. -/
def centred (d : Int) (p : Nat) : Int :=
  let r := d % (p : Int)
  if 2 * r > (p : Int) then r - p else r

/-- The next target edge of an output. -/
def fpoNextTarget (s : State) (f : Nat) : Int :=
  nextEdge (genTime s (s.nat (Od.fpoSource f))) (s.nat (Od.fpoOffset f)) (fpoPeriodNs (s.nat (Od.fpoPeriod f)))

/-- `FpoEnable` written (R465): the first pulse falls on the next target edge, exactly; disabled, the output is low. -/
def fpoEnabled (old s : State) (f : Nat) : State :=
  if s.flag (Od.fpoEnable f) && !old.flag (Od.fpoEnable f) then
    s.setFpo f { period := s.nat (Od.fpoPeriod f), err := 0, firstAt := (fpoNextTarget s f).toNat }
  else if s.flag (Od.fpoEnable f) then s
  else (s.setFpo f {}).setN (Od.fpoCommand f) 0

/-- `FpoOffset`, `FpoPeriod` or `FpoSource` written while the output runs: the target moves (R465). -/
def fpoMoved (old s : State) (f : Nat) : State :=
  if !s.flag (Od.fpoEnable f) then s else
  let x := s.fpo f
  let p := fpoPeriodNs x.period
  let go := old.nat (Od.fpoSource f)
  let gn := s.nat (Od.fpoSource f)
  let dsrc : Int := (if gn = 0 then 0 else (s.tg gn).phase) - (if go = 0 then 0 else (s.tg go).phase)
  let doff : Int := ((s.nat (Od.fpoOffset f) : Int) - old.nat (Od.fpoOffset f)) * 1000000000
  let err := centred (x.err + dsrc - doff) (p * 1000000000)
  let edge := nextEdge (genTime s gn) (s.nat (Od.fpoOffset f) + err / 1000000000) p
  let at' := if s.nat (Od.fpoPeriod f) != x.period then some edge.toNat else none
  s.setFpo f { x with err := err, periodAt := at' }

/-- An awaited change of period takes effect at an output edge, and the target follows from that edge (R465). -/
def fpoNewPeriod (s : State) (f : Nat) (edge : Nat) : State :=
  let p := s.nat (Od.fpoPeriod f)
  let err := centred (((edge : Int) - s.nat (Od.fpoOffset f)) * 1000000000) (fpoPeriodNs p * 1000000000)
  s.setFpo f { s.fpo f with period := p, err := err, periodAt := none }

/-- `FpoCommand` code 1 (R465): the command runs until the next target edge. -/
def fpoAlign (f : Nat) (s : State) : Status × State :=
  if s.nat (Od.fpoCommand f) != 0 then (.busy, s)
  else if !s.flag (Od.fpoEnable f) then (.ok, s)
  else (.ok, (s.setFpo f { s.fpo f with jumpAt := some (fpoNextTarget s f).toNat }).setN (Od.fpoCommand f) 1)

def execFpoAlign (k f : Nat) (s : State) : Out :=
  .next (hostCmd s k (Od.fpoCommand f) 1 (fpoAlign f))

/-- One microsecond of an output: edges slew towards the target, and awaited edges arrive (R465). -/
def fpoTick (s : State) (f : Nat) : State :=
  if !s.flag (Od.fpoEnable f) then s else
  let now := genTime s (s.nat (Od.fpoSource f))
  let s := match (s.fpo f).periodAt with
    | some t => if (t : Int) ≤ now then fpoNewPeriod s f t else s
    | none => s
  let x := s.fpo f
  let step : Int := 1000 * s.nat (Od.fpoSlewRate f)
  let err := if x.err.natAbs ≤ step.toNat then 0 else if x.err > 0 then x.err - step else x.err + step
  match x.jumpAt with
  | some t => if (t : Int) ≤ now then (s.setFpo f { x with err := 0, jumpAt := none }).setN (Od.fpoCommand f) 0
      else s.setFpo f { x with err := err }
  | none => s.setFpo f { x with err := err }

/-- The level of FPOf (R464): each pulse is high for `FpoWidth`; a disabled output is low. -/
def fpoLevel (s : State) (f : Nat) : Bool :=
  let x := s.fpo f
  let now := genTime s (s.nat (Od.fpoSource f))
  s.flag (Od.fpoEnable f) && decide ((x.firstAt : Int) ≤ now)
    && decide ((now - s.nat (Od.fpoOffset f) - x.err / 1000000000) % (fpoPeriodNs x.period : Int) < s.nat (Od.fpoWidth f))

/-- How far MG's internal oscillator is off while OSCIN is absent, within ±50 ppm (R444). -/
def internalOffset (s : State) : Int :=
  if s.timeCtl.oscinLost then max (-50000000) (min 50000000 (Config.internalOffset s.uptime)) else 0

/-- One microsecond of module time (R461, R462): the counter advances at TG0's output rate, on OSCIN or else on MG's internal
oscillator, generator times advance at theirs, and a slew moves at `TimeSlewRate`. -/
def timeTick (s : State) : State :=
  let o0 := s.int (Od.outputOffset 0)
  let s := advance s (1000000000000 + o0 + internalOffset s)
  let s := (List.range 4).foldl (fun s g => if g = 0 then s else
    s.setTg g { s.tg g with phase := (s.tg g).phase + (s.int (Od.outputOffset g) - o0) }) s
  let rate : Int := 1000 * s.nat Od.timeSlewRate
  let l := s.timeCtl.slewLeft
  let d := if l.natAbs ≤ rate.toNat then l else if l > 0 then rate else -rate
  let s := if l = 0 then s else
    timeMoved (advance { s with timeCtl := { s.timeCtl with slewLeft := l - d } } d) d
  let s := if l != 0 && s.timeCtl.slewLeft = 0 then slewEnded s else s
  (List.range 8).foldl fpoTick s

/-! ### Objects of the chapter (R468) -/

/-- `ClearTimingCounters`. -/
def clearTimingCounters (s : State) : Status × State :=
  (.ok, s.clearObjs fun k =>
    let i := keyIdx k
    let j := keySub k
    (i = 0x7001 && (j = 7 || j = 8 || j = 9)) || (decide (0x7010 ≤ i ∧ i ≤ 0x701F) && j = 10) || (i = 0x7021 && j = 2) || (i = 0x7040 && j = 5))

def execClearTimingCounters (k : Nat) (s : State) : Out := .next (hostCmd s k Od.clearTimingCounters 1 clearTimingCounters)

/-- The refusals of writes to objects of this chapter (R446, R451, R459, R464). -/
def timingCheck (s c : State) (key : Nat) : Status :=
  let idx := keyIdx key
  let x := keyInst key
  let sub := keySub key
  if 0x7010 ≤ idx ∧ idx ≤ 0x701F then
    let e := idx - 0x7010
    if sub = 1 && !candOk (c.nat (Od.candidate e x)) then .range
    else if sub = 1 && c.nat (Od.candidate e x) != 0
        && (List.range 16).any (fun f => f != e && c.nat (Od.candidate f x) = c.nat (Od.candidate e x)) then .inconsistent
    else if c.nat (Od.softLimit e x) > c.nat (Od.hardLimit e x) then .inconsistent
    else .ok
  else if idx = 0x7030 then
    (if s.nat key != c.nat key && (List.range 8).any fun j => c.flag (Od.carrierEnable (8 * x + j)) then .state else .ok)
  else if idx = 0x7040 ∧ sub = 2 then (if leNat ((c.bytes key).drop 6) < 1000000000 then .ok else .range)
  else if idx = 0x7050 then
    (let p := c.nat (Od.fpoPeriod x)
     if 8000 % max p 1 != 0 then .inconsistent
     else if c.nat (Od.fpoOffset x) ≥ fpoPeriodNs p then .inconsistent
     else if 2 * c.nat (Od.fpoWidth x) > fpoPeriodNs p then .inconsistent
     else .ok)
  else .ok

/-- The effect of an accepted write (R460, R464, R465). -/
def timingAfter (old s : State) (key : Nat) : State :=
  let idx := keyIdx key
  let x := keyInst key
  let sub := keySub key
  if idx = 0x7000 ∧ sub = 8 then loopWritten old s x
  else if idx = 0x7000 ∧ sub = 9 then steerWritten s x
  else if idx = 0x7050 ∧ sub = 1 then fpoEnabled old s x
  else if idx = 0x7050 ∧ (sub = 2 ∨ sub = 3 ∨ sub = 4) then (if old.flag (Od.fpoEnable x) then fpoMoved old s x else s)
  else s

/-- Objects that are read from the running hardware (R464, R465, R453). -/
def timingRead (s : State) (key : Nat) : Option Val :=
  let idx := keyIdx key
  let x := keyInst key
  let sub := keySub key
  if idx = 0x7001 ∧ sub = 5 then some (.u (s.tg x).history.length)
  else if idx = 0x7001 ∧ sub = 11 then some (.i (if x = 0 then 0 else (s.tg x).phase / 1000000000))
  else if idx = 0x7021 ∧ sub = 1 then some (.u (if s.timeCtl.oscinLost then 0 else 1))
  else if idx = 0x7040 ∧ sub = 1 then some (.o s.stampNow)
  else if idx = 0x7040 ∧ sub = 6 then some (.i (slewRemaining s))
  else if idx = 0x7050 ∧ sub = 7 then some (.i ((s.fpo x).err / 1000000000))
  else if idx = 0x7050 ∧ sub = 8 then some (.u (if s.flag (Od.fpoEnable x) && decide ((s.fpo x).err.natAbs ≤ 1000000000) then 1 else 0))
  else none

end Sys2Proof.Machine
end

