-- ==== Sys2Proof/Machine/Monitor.lean ====
section
/-! DEFINITION. Monitor converters, performance counters and bandwidth windows (chapter 16). -/

namespace Sys2Proof.Machine

def State.monitor (s : State) (m : Nat) : Monitor := Tbl.get (fun _ => {}) s.monitors m
def State.setMonitor (s : State) (m : Nat) (x : Monitor) : State := { s with monitors := Tbl.put (fun _ => {}) s.monitors m x }
def State.window (s : State) (w : Nat) : Window := Tbl.get (fun _ => {}) s.windows w
def State.setWindow (s : State) (w : Nat) (x : Window) : State := { s with windows := Tbl.put (fun _ => {}) s.windows w x }

/-! ### Converters (R469–R474) -/

/-- A channel that a converter reads (R470). -/
def channelOk (m c : Nat) : Bool :=
  decide (c ≤ 2) || (decide (m < 8) && decide (0x10 ≤ c ∧ c < 0x50) && !decide (0x28 ≤ c ∧ c < 0x30))

/-- The value that a code stands for (R470), with Vin = (2 code + 1) × 12 ÷ (81,920 × gain) V. -/
def channelValue (c code gain : Nat) : F32 :=
  let num : Int := ((2 * code + 1) * 12 : Nat)
  let den := 81920 * 2 ^ gain
  if c = 0 then f32OfRat num den
  else if c = 1 then f32OfRat (2 * num) den
  else if c = 2 then f32OfRat (375 * den - 500 * num) den
  else if c < 0x28 then f32OfRat (1000 * num) den
  else if c < 0x40 then f32OfRat (4 * num) den
  else f32OfRat (100 * num) den

/-- Vin lies in 0.594 to 0.606 V (R474). -/
def refInBand (code gain : Nat) : Bool :=
  let num := (2 * code + 1) * 12 * 1000
  let den := 81920 * 2 ^ gain
  decide (594 * den ≤ num ∧ num ≤ 606 * den)

/-- The sequence as the objects set it now; a pass takes it at its start (R471). -/
def sequenceNow (s : State) (m : Nat) : List (Nat × Nat × Nat) :=
  (List.range (s.nat (Od.sequenceLength m))).map fun e =>
    let i := 16 * m + e
    (s.nat (Od.monitorChannel i), s.nat (Od.sampleTime i), s.nat (Od.monitorGain i))

/-- The converter starts a pass at entry 0 (R471, R473). -/
def monitorStart (s : State) (m : Nat) : State := s.setMonitor m { s.monitor m with pass := sequenceNow s m, pos := 0 }

/-- The converter stops with its domain: an urgent command ends and its results stay (R486). -/
def monitorStop (s : State) (m : Nat) : State :=
  ((s.setMonitor m { s.monitor m with pass := [], pos := 0, urgent := none, finishing := false }).setN (Od.urgentCommand m) 0).setB (Od.suspended m) false

/-- A calibration takes the converter at the end of the conversion in progress (R473). -/
def monitorSuspend (s : State) (m : Nat) : State :=
  if s.flag (Od.suspended m) then s else
  let x := s.monitor m
  (s.setMonitor m { x with finishing := if x.urgent.isSome then x.finishing else !x.pass.isEmpty }).setB (Od.suspended m) true

/-- The sequence resumes at the entry it would have run next (R473). -/
def monitorResume (s : State) (m : Nat) : State :=
  if !s.flag (Od.suspended m) then s else
  (s.setMonitor m { s.monitor m with finishing := false }).setB (Od.suspended m) false

/-- The check of channel 0x00 (R474). -/
def monitorRef (s : State) (m code gain : Nat) : State :=
  let x := s.monitor m
  let ok := refInBand code gain
  let x := { x with badRun := if ok then 0 else x.badRun + 1, goodRun := if ok then x.goodRun + 1 else 0 }
  let s := s.setMonitor m x
  if x.badRun ≥ 3 then (s.setB (Od.refFault m) true).setCond (0xC0 + m) true
  else if x.goodRun ≥ 3 then (s.setB (Od.refFault m) false).setCond (0xC0 + m) false
  else s

/-- The time stamp of the end of sampling: 0.5 µs before the end of the conversion (R469, R471). -/
def sampledAt (s : State) : Bytes := stamp (s.moduleTime - 500)

/-- The running entry's conversion ends with `code` (R471). While the converter is taken, by an urgent conversion or by a calibration,
only a conversion that was under way completes (R472, R473). -/
def execMonitorConversionDone (m code : Nat) (s : State) : Out :=
  onUnit (m < 9) s fun s =>
    let x := s.monitor m
    if (s.flag (Od.suspended m) || x.urgent.isSome) && !x.finishing then s else
    match x.pass[x.pos]? with
    | none => s
    | some (ch, _, g) =>
      let code := code % 4096
      let i := 16 * m + x.pos
      let v := channelValue ch code g
      let s := (((s.setN (Od.lastCode i) code).setF (Od.lastValue i) v).setO (Od.lastTime i) (sampledAt s))
      let first := !x.seen.contains x.pos
      let s := (s.setF (Od.minValue i) (if first then v else f32Min (s.f32 (Od.minValue i)) v)).setF (Od.maxValue i)
        (if first then v else f32Max (s.f32 (Od.maxValue i)) v)
      let s := s.setMonitor m { x with seen := if first then x.pos :: x.seen else x.seen, finishing := false }
      let s := if ch = 0 then monitorRef s m code g else s
      if x.pos + 1 < x.pass.length then s.setMonitor m { s.monitor m with pos := x.pos + 1 }
      else monitorStart (s.bump (Od.passes m)) m

/-- `UrgentCommand` (R472): an entry whose sampling is abandoned is repeated in full; one in its conversion phase completes first. -/
def urgentStart (m : Nat) (s : State) : Status × State :=
  if s.nat (Od.urgentCommand m) != 0 then (.busy, s)
  else if s.flag (Od.suspended m) || (decide (m < 8) && !s.domUp (domPort m)) then (.state, s)
  else (.ok, (s.setMonitor m { s.monitor m with
    finishing := !(s.monitor m).pass.isEmpty,
    urgent := some (s.nat (Od.urgentChannel m), s.nat (Od.urgentSampleTime m), s.nat (Od.urgentGain m)) }).setN (Od.urgentCommand m) 1)

def execUrgentConversion (k m : Nat) (s : State) : Out := .next (hostCmd s k (Od.urgentCommand m) 1 (urgentStart m))

def execUrgentConversionDone (m code : Nat) (s : State) : Out :=
  onUnit (m < 9) s fun s =>
    match (s.monitor m).urgent with
    | none => s
    | some (ch, _, g) =>
      let code := code % 4096
      let s := ((s.setN (Od.urgentCode m) code).setF (Od.urgentValue m) (channelValue ch code g)).setO (Od.urgentTime m) (sampledAt s)
      ((s.setMonitor m { s.monitor m with urgent := none, finishing := false }).bump (Od.urgentDone m)).setN (Od.urgentCommand m) 0

/-- `ClearMonitorPeaks`. -/
def clearMonitorPeaks (s : State) : Status × State :=
  let s := s.clearObjs fun k => (keyIdx k = 0x7100 && keySub k = 3) || (keyIdx k = 0x7101 && (keySub k = 6 || keySub k = 7))
  (.ok, (List.range 9).foldl (fun s m => s.setMonitor m { s.monitor m with seen := [] }) s)

def execClearMonitorPeaks (k : Nat) (s : State) : Out := .next (hostCmd s k Od.clearMonitorPeaks 1 clearMonitorPeaks)

/-- `PassMicros`: the duration of one pass (R469, R471). -/
def passMicros (s : State) (m : Nat) : F32 := f32OfRat ((((s.monitor m).pass.map fun e => e.2.1 + 1).foldl (· + ·) 0 : Nat) : Int) 2

/-! ### Performance counters (R475–R478) -/

/-- An `EventSelect` value that R475 and R476 list. -/
def eventSelectOk (v : Nat) : Bool :=
  let cls := v / 268435456
  let inst := v / 65536 % 4096
  let ev := v / 256 % 256
  decide (v % 256 = 0) &&
  match cls with
  | 0 => v = 0
  | 1 => inst < 64 && (decide (1 ≤ ev ∧ ev ≤ 7) || decide (0x80 ≤ ev ∧ ev ≤ 0x82))
  | 2 => inst < 2048 && (decide (1 ≤ ev ∧ ev ≤ 6) || decide (0x80 ≤ ev ∧ ev ≤ 0x81))
  | 3 => inst < 1024 && decide (1 ≤ ev ∧ ev ≤ 3)
  | 4 => inst < 2048 && (decide (1 ≤ ev ∧ ev ≤ 6) || ev = 0x80)
  | 5 => inst < 4 && (decide (1 ≤ ev ∧ ev ≤ 4) || ev = 0x80)
  | 6 => inst < 32 && (decide (1 ≤ ev ∧ ev ≤ 2) || ev = 0x80)
  | 7 => inst = 0 && (decide (1 ≤ ev ∧ ev ≤ 3) || decide (0x80 ≤ ev ∧ ev ≤ 0x81))
  | _ => false

/-- The counters that select an event. -/
def countersInUse (s : State) : List Nat :=
  s.od.filterMap fun p => if keyIdx p.1 = 0x7200 ∧ keySub p.1 = 1 then some (keyInst p.1) else none

/-- The counters that hold any value beside their default. -/
def countersTouched (s : State) : List Nat :=
  (s.od.filterMap fun p => if keyIdx p.1 = 0x7200 then some (keyInst p.1) else none).eraseDups

/-- A counter restarts at 0 and its running interval is not whole (R477). -/
def counterRestart (s : State) (c : Nat) : State :=
  { s.setN (Od.counterCurrent c) 0 with
    perf := { s.perf with partialNow := if s.perf.partialNow.contains c then s.perf.partialNow else c :: s.perf.partialNow },
    perfInjected := s.perfInjected.filter (· != c) }

/-- Counters of the classes 1 to 6 restart (R486: main-rail restart). -/
def countersRestartDatapath (s : State) : State :=
  (countersInUse s).foldl (fun s c => if s.nat (Od.eventSelect c) / 268435456 < 7 then counterRestart s c else s) s

/-- The awaited snapshot is taken (R478). -/
def takeSnapshot (s : State) : State :=
  if s.perf.snapAt.isSome then
    let s := { s with perf := { s.perf with snapAt := none } }
    (countersTouched s).foldl (fun s c => s.setN (Od.counterSnapshot c) (s.nat (Od.counterCurrent c))) s
  else s

/-- The first whole microsecond of module time after now (R478). -/
def nextMicro (s : State) : Nat := (s.moduleTime / 1000 + 1) * 1000

/-- `CounterCommand` code 1: Ts is the first whole microsecond after acceptance; the command runs until the copy (R478). -/
def counterSnapshot (s : State) : Status × State :=
  if s.nat Od.counterCommand != 0 then (.busy, s) else
  let ts := nextMicro s
  (.ok, (({ s with perf := { s.perf with snapAt := some ts } }).setO Od.snapshotTime (stamp ts)).setN Od.counterCommand 1)

/-- `CounterCommand` code 2. -/
def counterFreeze (s : State) : Status × State :=
  if s.nat Od.counterCommand != 0 then (.busy, s)
  else if s.flag Od.countersFrozen then (.ok, s)
  else (.ok, { s with perf := { s.perf with frozenFrom := nextMicro s } }.setB Od.countersFrozen true)

/-- Frozen time of the running interval, up to now. -/
def frozenNs (s : State) : Nat :=
  s.perf.frozenNs + (if s.flag Od.countersFrozen then s.moduleTime - s.perf.frozenFrom else 0)

/-- `CounterCommand` code 3. -/
def counterUnfreeze (s : State) : Status × State :=
  if s.nat Od.counterCommand != 0 then (.busy, s)
  else if !s.flag Od.countersFrozen then (.ok, s)
  else (.ok, { s with perf := { s.perf with frozenNs := s.perf.frozenNs + (nextMicro s - s.perf.frozenFrom), thawAt := nextMicro s } }.setB
    Od.countersFrozen false)

/-- `CounterCommand` code 4: every `EventSelect` becomes 0, as a write of each would make it. -/
def counterDeselect (s : State) : Status × State :=
  if s.nat Od.counterCommand != 0 then (.busy, s)
  else (.ok, (countersInUse s).foldl (fun s c => counterRestart (s.setN (Od.eventSelect c) 0) c) s)

def execCounterSnapshot (k : Nat) (s : State) : Out := .next (hostCmd s k Od.counterCommand 1 counterSnapshot)
def execCounterFreeze (k : Nat) (s : State) : Out := .next (hostCmd s k Od.counterCommand 2 counterFreeze)
def execCounterUnfreeze (k : Nat) (s : State) : Out := .next (hostCmd s k Od.counterCommand 3 counterUnfreeze)
def execCounterDeselectAll (k : Nat) (s : State) : Out := .next (hostCmd s k Od.counterCommand 4 counterDeselect)

/-- The copy is complete and the command ends (R478). -/
def execSnapshotCopyDone (s : State) : Out :=
  .next (if s.nat Od.counterCommand = 1 then (takeSnapshot s).setN Od.counterCommand 0 else s)

/-- The counters' part of a 1 s boundary (R477, R478). -/
def countersLatch (s : State) : State :=
  let s := takeSnapshot s
  let fz := frozenNs s
  let s := (countersTouched s).foldl (fun s c =>
    let s := (s.setN (Od.counterInterval c) (s.nat (Od.counterCurrent c))).setN (Od.counterCurrent c) 0
    (s.setB (Od.injected c) (s.perfInjected.contains c)).setB (Od.counterPartial c) (s.perf.partialNow.contains c)) s
  let s := s.setN Od.frozenMicrosInterval (min (fz / 1000) 1000000)
  let s := s.bump Od.intervalNumber
  { s with perfInjected := [],
           perf := { s.perf with partialNow := [], allPartialLast := decide (0 < fz), frozenNs := 0,
                                 frozenFrom := max s.perf.frozenFrom s.moduleTime } }

/-! ### Bandwidth windows (R479) -/

/-- A `Target` value that R479 lists. -/
def targetOk (v : Nat) : Bool :=
  let inst := v / 65536 % 4096
  decide (v % 65536 < 2) &&
  match v / 268435456 with
  | 0 => v = 0
  | 1 => inst < 64
  | 2 => inst < 2048
  | 3 => inst < 1024
  | _ => false

/-- Count bits, in eighths, on every window with a target (R479). -/
def windowCount (s : State) (cls inst dir eighths : Nat) : State :=
  if eighths = 0 then s else
  (List.range 64).foldl (fun s w =>
    if s.nat (Od.bandwidthWindowTarget w) = cls * 268435456 + inst * 65536 + dir then
      s.setWindow w { s.window w with acc := (s.window w).acc + eighths, interval := (s.window w).interval + eighths }
    else s) s

/-- A rate in Gbit/s: eighths of a bit over milliseconds. -/
def rateOf (eighths millis : Nat) : F32 := f32OfRat (eighths : Int) (8000000 * max millis 1)

/-- A window ends (R479). -/
def execBandwidthWindowEnd (w : Nat) (s : State) : Out :=
  onUnit (w < 64) s fun s =>
    let x := s.window w
    let ms := s.nat (Od.windowMillis w)
    let s := s.setF (Od.rateNow w) (rateOf x.acc ms)
    let higher := x.peakBits * ms < x.acc * x.peakMillis
    s.setWindow w { x with acc := 0, peakBits := if higher then x.acc else x.peakBits, peakMillis := if higher then ms else x.peakMillis }

/-- The windows' part of a 1 s boundary: the interval's bits divided by 1 s. -/
def windowsLatch (s : State) : State :=
  (List.range 64).foldl (fun s w =>
    let x := s.window w
    if s.nat (Od.bandwidthWindowTarget w) = 0 then s.setWindow w {} else
    ((s.setF (Od.rateInterval w) (rateOf x.interval 1000)).setF (Od.ratePeakInterval w) (rateOf x.peakBits x.peakMillis)).setWindow w
      { x with interval := 0, peakBits := 0, peakMillis := 1 }) s

/-- Windows restart at a time step (R486). -/
def windowsRestart (s : State) : State := (List.range 64).foldl (fun s w => s.setWindow w { s.window w with acc := 0 }) s

/-! ### Objects -/

/-- The refusals of writes (R470, R475, R479). -/
def monitorCheck (c : State) (key : Nat) : Status :=
  let idx := keyIdx key
  let x := keyInst key
  let sub := keySub key
  if idx = 0x7101 ∧ sub = 1 then (if channelOk (x / 16) (c.nat key) then .ok else .range)
  else if idx = 0x7102 ∧ sub = 1 then (if channelOk x (c.nat key) then .ok else .range)
  else if idx = 0x7200 ∧ sub = 1 then (if eventSelectOk (c.nat key) then .ok else .range)
  else if idx = 0x7210 ∧ sub = 1 then (if targetOk (c.nat key) then .ok else .range)
  else if idx = 0x7210 ∧ sub = 2 then (if 1000 % max (c.nat key) 1 = 0 then .ok else .inconsistent)
  else .ok

/-- The effect of an accepted write (R471, R477). -/
def monitorAfter (s : State) (key : Nat) : State :=
  let idx := keyIdx key
  let x := keyInst key
  let sub := keySub key
  if idx = 0x7100 ∧ sub = 1 then
    (if (s.monitor x).pass.isEmpty && (x = 8 || s.domUp (domPort x)) then monitorStart s x else s)
  else if idx = 0x7200 ∧ (sub = 1 ∨ sub = 2) then counterRestart s x
  else if idx = 0x7210 then s.setWindow x {}
  else s

/-- 6-octet values of all 8,192 counters (R477, R478). -/
def counterBlock (s : State) (key : Nat → Nat) : Bytes := (List.range 8192).flatMap fun c => leBytes 6 (s.nat (key c))

/-- Objects that are read from the running hardware. -/
def monitorRead (s : State) (key : Nat) : Option Val :=
  let idx := keyIdx key
  let x := keyInst key
  let sub := keySub key
  if idx = 0x7100 ∧ sub = 2 then some (.f (passMicros s x))
  else if idx = 0x7200 ∧ sub = 7 then some (.u (if s.perf.allPartialLast then 1 else s.nat key))
  else if idx = 0x7202 ∧ sub = 5 then some (.u (countersInUse s).length)
  else if idx = 0x7203 then some (.o (counterBlock s Od.counterInterval))
  else if idx = 0x7204 then some (.o (counterBlock s Od.counterSnapshot))
  else none

end Sys2Proof.Machine
end

