-- ==== Sys2Proof/Machine/Probe.lean ====
section
/-! DEFINITION. The Probe: members, stream records, port events and `FIBRE_DISTURBANCE` (R480–R485). -/

namespace Sys2Proof.Machine

def State.engine (s : State) (n : Nat) : Engine := Tbl.get (fun _ => {}) s.engines n
def State.setEngine (s : State) (n : Nat) (x : Engine) : State := { s with engines := Tbl.put (fun _ => {}) s.engines n x }
def State.probe (s : State) (p : Nat) : ProbePort := Tbl.get (fun _ => {}) s.probes p
def State.setProbe (s : State) (p : Nat) (x : ProbePort) : State := { s with probes := Tbl.put (fun _ => {}) s.probes p x }

def ProbePort.slot (x : ProbePort) (j : Nat) : ProbeSlot := Tbl.get (fun _ => {}) x.slots j
def ProbePort.setSlot (x : ProbePort) (j : Nat) (y : ProbeSlot) : ProbePort := { x with slots := Tbl.put (fun _ => {}) x.slots j y }

/-- A binary32 value times `k`, to the nearest whole number. -/
def f32Scaled (x : F32) (k : Nat) : Int := (2 * f32Int x * k + 2 ^ 149) / 2 ^ 150

/-- Slot `j` of port `p` is a Probe member (R480). -/
def probeMember (s : State) (p j : Nat) : Bool :=
  let n := 8 * p + j
  s.flag (Od.probeEnable p) && decide (s.nat (Od.probeCarriers p) / 2 ^ j % 2 = 1) && s.nat (Od.rxState n) = 3
  && (match (s.engine n).trackSince with
      | some t => decide (t + 1000 ≤ s.uptime)
      | none => false)
  && s.nat (Od.whiskMode n) != 1 && !s.flag (Od.hubMode n)

/-- `ProbeMembers`. -/
def probeMembers (s : State) (p : Nat) : Nat := ((List.range 8).map fun j => if probeMember s p j then 2 ^ j else 0).foldl (· + ·) 0

/-- A source channel of kind 5 runs for the port (R482). -/
def probeStreamed (s : State) (p : Nat) : Bool :=
  (List.range 32).any fun c => s.nat (Od.dmaState c) = 1 && s.nat (Od.sourceKind c) = 5 && s.nat (Od.sourceInstance c) = p

/-- 16-bit and 32-bit two's complement fields. -/
def leInt16 (z : Int) : Bytes := leBytes 2 (unsignedOf 16 z)
def leInt32 (z : Int) : Bytes := leBytes 4 (unsignedOf 32 z)

/-- A rotation rate in units of 200 rad/s, limited to 0xFFFF (R482). -/
def rateUnits (r : Nat) : Nat := min (r / 200) 65535

/-- A component of a Stokes vector in the units of a record, 2⁻¹⁵, within 16 bits. -/
def stokesField (z : Int) : Int := max (-32768) (min 32767 (z / 32768))

/-- Octets 4 to 31 of a stream record of slot `j` (R482), whose interval ends with the Stokes vector `v`. -/
def probeRecord (s : State) (p j : Nat) (y : ProbeSlot) (v : Int × Int × Int) : Bytes :=
  let n := 8 * p + j
  let ev := (s.probe p).event
  leBytes 1 j
    ++ leBytes 1 ((if ev.isSome then 1 else 0) + (if (ev.map (·.injected)).getD false then 2 else 0))
    ++ leBytes 2 (rateUnits y.rate) ++ leInt16 (stokesField v.1) ++ leInt16 (stokesField v.2.1) ++ leInt16 (stokesField v.2.2)
    ++ leBytes 2 (f32Scaled (s.f32 (Od.dgdEstimate n)) 100).toNat ++ leBytes 2 (f32Scaled (s.f32 (Od.pdlEstimate n)) 100).toNat
    ++ leInt32 y.disp ++ leBytes 2 (min y.exc 65535) ++ List.replicate 8 0

/-- The octets of a log entry (R484); `stop` is the end of the event. -/
def probeLogEntry (x : ProbePort) (e : ProbeEvent) (stop : Nat) : Bytes :=
  let us := (stop - e.start) / 1000
  let earlier := (x.starts.filter fun t => decide (t < e.start ∧ e.start ≤ t + 10000000000)).length
  let cls := (if us ≤ 2000 then 1 else 2) + (if earlier ≥ 2 then 4 else 0)
  let change := e.changes.foldl (fun a b => if a.natAbs < b.natAbs then b else a) 0
  stamp e.start ++ leBytes 4 (min us 4294967295) ++ leBytes 2 (rateUnits e.peakRate) ++ leBytes 2 (min e.peakExc 65535)
    ++ leBytes 1 e.mask ++ leBytes 1 cls ++ leInt32 change ++ leBytes 4 e.number
    ++ leBytes 1 ((if e.injected then 1 else 0) + (if e.left then 2 else 0)) ++ List.replicate 3 0

/-- The event in progress ends: it is logged, and `PROBE_EVENT` clears (R483, R484, R487). -/
def probeEnd (s : State) (p : Nat) : State :=
  let x := s.probe p
  match x.event with
  | none => s
  | some e =>
    let changes := e.disp.map fun d => (x.slot d.1).disp - d.2
    let entry := probeLogEntry x { e with changes := changes ++ e.changes } s.moduleTime
    let log := x.log ++ [entry]
    let s := s.setProbe p { x with event := none, log := log.drop (log.length - 256) }
    (s.setB (Od.eventActive p) false).setCond (srcPort p 0) false

/-- A port event starts at `start` with the given slots (R483), and `FIBRE_DISTURBANCE` is judged (R485). -/
def probeBegin (s : State) (p start : Nat) (slots : List Nat) (injected : Bool) : State :=
  let s := (s.bump (Od.eventsTotal p)).setO (Od.lastEventTime p) (stamp start)
  let x := s.probe p
  let e : ProbeEvent := { start := start, number := s.nat (Od.eventsTotal p), hold := s.nat (Od.probeEventHold p),
                          threshold := s.nat (Od.eventThreshold p), mask := (slots.map (2 ^ ·)).foldl (· + ·) 0,
                          peakRate := (slots.map fun j => (x.slot j).speed).foldl max 0, peakExc := 0,
                          disp := slots.map fun j => (j, (x.slot j).disp),
                          vecs := slots.map fun j => (j, (x.slot j).last.toList), injected := injected }
  let s := s.setProbe p { x with event := some e, starts := start :: x.starts.take 1000, count := x.count + 1 }
  let s := s.setB (Od.eventActive p) true
  let s := if injected then s else s.setCond (srcPort p 0) true
  let win := s.nat (Od.alarmWindow p) * 1000000000
  let recent := ((s.probe p).starts.filter fun t => decide (start ≤ t + win)).length
  if s.nat (Od.alarmCount p) ≤ recent then s.setCond (srcPort p 1) true else s

/-- What one member's 10 µs give to the event in progress: a slot that starts an excursion takes part from here, and a slot that takes
part adds its rate and its Stokes vector. -/
def eventTakes (e : ProbeEvent) (j : Nat) (starts : Bool) (y : ProbeSlot) (v : Int × Int × Int) : ProbeEvent :=
  let part := decide (e.mask / 2 ^ j % 2 = 1)
  let e := if starts && !part then { e with mask := e.mask + 2 ^ j, disp := (j, y.disp) :: e.disp } else e
  let had := (e.vecs.lookup j).getD []
  if !(starts || part) then e else
    { e with peakRate := max e.peakRate y.speed, peakExc := max e.peakExc (sopReach v had),
             vecs := (j, v :: had) :: e.vecs.filter fun q => q.1 != j }

/-- What a slot holds after one more 10 µs window that gives the Stokes vector `v` (R481–R483). -/
def slotTakes (y : ProbeSlot) (v : Int × Int × Int) (disp : Int) (threshold now : Nat) : ProbeSlot :=
  let speed := match y.last with
    | some u => sopAngle u v * 100000 / 1073741824
    | none => 0
  let above := decide (threshold ≤ speed)
  { member := true, above := above, started := if above && !y.above && y.member then some now else y.started, disp := disp, speed := speed,
    last := some v, rate := max y.rate speed, exc := max y.exc (sopReach v y.vecs), vecs := v :: y.vecs }

/-- One member's 10 µs values, with the residual dispersion that its taps give. -/
def probeOne (p : Nat) (residuals : List (Nat × Int)) (s : State) (j : Nat) : State :=
  if !probeMember s p j then s else
  let x := s.probe p
  let v := stokesOf (s.engine (8 * p + j)).dsp.taps
  let disp := f32Scaled (s.f32 (Od.dispersionNow (8 * p + j))) 10 + (residuals.lookup j).getD 0
  let y := slotTakes (x.slot j) v disp ((x.event.map (·.threshold)).getD (s.nat (Od.eventThreshold p))) s.moduleTime
  let starts := y.above && !(x.slot j).above && (x.slot j).member
  s.setProbe p { x.setSlot j y with event := x.event.map fun e => eventTakes e j starts y v, peak := max x.peak y.speed }

/-- Members that left the set stop counting towards the end of an event; with none left it ends at once (R483). -/
def probeLeave (p : Nat) (s : State) : State :=
  let x := s.probe p
  let gone := (List.range 8).filter fun j => (x.slot j).member && !probeMember s p j
  let x := gone.foldl (fun x j => x.setSlot j {}) x
  let ev := x.event.map fun e => if gone.any fun j => e.mask / 2 ^ j % 2 = 1 then { e with left := true } else e
  let s := s.setProbe p { x with event := ev }
  if (ev.map fun e => !e.injected).getD false && probeMembers s p = 0 && !gone.isEmpty then probeEnd s p else s

/-- A port event starts when enough members started an excursion within 100 µs of one another (R483). -/
def probeDetect (p : Nat) (s : State) : State :=
  let x := s.probe p
  if x.event.isSome then s else
  let members := (List.range 8).filter fun j => probeMember s p j
  let recent := members.filterMap fun j => match (x.slot j).started with
    | some t => if s.moduleTime ≤ t + 100000 then some (j, t) else none
    | none => none
  let need := min (s.nat (Od.minCarriers p)) members.length
  if need = 0 || decide (recent.length < need) then s else
    probeBegin s p (recent.foldl (fun a r => min a r.2) s.moduleTime) (recent.map (·.1)) false

/-- The stream interval advances, and its end gives one record per member in ascending slot (R482). -/
def probeStream (p : Nat) (s : State) : State :=
  let x := s.probe p
  let k := x.samples + 1
  if k < 2 ^ s.nat (Od.probeInterval p) then s.setProbe p { x with samples := k } else
    let recs := (List.range 8).filterMap fun j =>
      if probeMember s p j then (x.slot j).last.map fun v => (s.moduleTime, probeRecord s p j (x.slot j) v) else none
    let x' := { x with samples := 0, slots := x.slots.map fun q => (q.1, { q.2 with rate := 0, exc := 0, vecs := [] }),
                       records := if probeStreamed s p then x.records ++ recs else [] }
    s.setProbe p x'

/-- Every 10 µs on port `p`. -/
def execProbeSample (p : Nat) (residuals : List (Nat × Int)) (s : State) : Out :=
  onUnit (p < 8) s fun s =>
    let s := probeLeave p s
    let s := (List.range 8).foldl (probeOne p residuals) s
    let s := probeDetect p s
    let s := s.setN (Od.probeMembers p) (probeMembers s p)
    if s.flag (Od.probeEnable p) then probeStream p s else s

/-- Every member's rate has stayed below half the threshold for `EventHold` (R483). -/
def execProbeEventEnd (p : Nat) (s : State) : Out :=
  onUnit (p < 8) s fun s => if ((s.probe p).event.map (·.injected)).getD false then s else probeEnd s p

def execFibreDisturbanceClear (p : Nat) (s : State) : Out := onUnit (p < 8) s fun s => s.setCond (srcPort p 1) false

/-- An injected Probe event that acts starts (R487, R497); it ends, and is logged with Flags bit 0, when its injection does. -/
def probeInject (s : State) (p : Nat) : State :=
  if (s.probe p).event.isSome then s else probeBegin s p s.moduleTime [] true

/-- The event in progress was injected. -/
def probeInjected (s : State) (p : Nat) : Bool := ((s.probe p).event.map (·.injected)).getD false

/-- `ClearProbe`. -/
def clearProbe (s : State) : Status × State :=
  let s := s.clearObjs fun k => keyIdx k = 0x7301 && keySub k = 3
  (.ok, (List.range 8).foldl (fun s p => s.setProbe p { s.probe p with log := [] }) s)

def execClearProbe (k : Nat) (s : State) : Out := .next (hostCmd s k Od.clearProbe 1 clearProbe)

/-- The Probe's part of a 1 s boundary. -/
def probeLatch (s : State) : State :=
  (List.range 8).foldl (fun s p =>
    let x := s.probe p
    ((s.setN (Od.eventsInterval p) x.count).setF (Od.peakSopRateInterval p) (f32OfInt x.peak)).setProbe p { x with count := 0, peak := 0 }) s

/-- One source page of the stream (R482): up to 126 records; TimeOffset counts from the end time of the first. Answers the page's
time stamp, its data and the records left. -/
def probePage (x : ProbePort) : Nat × Bytes × List (Nat × Bytes) :=
  let now := x.records.take 126
  let t := match now with
    | r :: _ => r.1
    | [] => 0
  (t, now.flatMap (fun r => leBytes 4 (r.1 - t) ++ r.2), x.records.drop 126)

/-- `ProbeEventLog`: 256 entries, oldest first, unused entries zero (R484). -/
def probeLogBlock (s : State) (p : Nat) : Bytes :=
  let l := (s.probe p).log
  l.flatMap id ++ List.replicate (32 * (256 - l.length)) 0

def probeRead (s : State) (key : Nat) : Option Val :=
  if keyIdx key = 0x7301 ∧ keySub key = 1 then some (.u (probeMembers s (keyInst key)))
  else if keyIdx key = 0x7310 then some (.o (probeLogBlock s (keyInst key)))
  else none

end Sys2Proof.Machine
end

