-- ==== Sys2Proof/Machine/Lanes.lean ====
section
/-! DEFINITION. Host lanes, client types, bring-up, the capability exchange, client PCS states, PRBS, and the headroom buffers
with priority flow control (chapter 10). -/

namespace Sys2Proof.Machine

def State.lane (s : State) (k : Nat) : Lane := Tbl.get (fun _ => {}) s.lanes k
def State.setLane (s : State) (k : Nat) (x : Lane) : State := { s with lanes := Tbl.put (fun _ => {}) s.lanes k x }
def State.member (s : State) (t : Nat) : Member := Tbl.get (fun _ => {}) s.members t
def State.setMember (s : State) (t : Nat) (x : Member) : State := { s with members := Tbl.put (fun _ => {}) s.members t x }

/-! ### Client types (R312) -/

/-- The kinds of client: 1 Ethernet, 2 OTN, 3 CBR; 0 none. -/
def clientKind (ty : Nat) : Nat := if ty = 0 then 0 else if ty ≤ 14 then 1 else if ty ≤ 16 then 2 else 3

/-- Lanes of a type. -/
def typeLanes (ty : Nat) : Nat :=
  match ty with
  | 0 => 0 | 1 => 1 | 2 => 1 | 3 => 4 | 4 => 2 | 5 => 1 | 6 => 4 | 7 => 2 | 8 => 1 | 9 => 8 | 10 => 4 | 11 => 2 | 12 => 8 | 13 => 4
  | 14 => 8 | 15 => 1 | 16 => 4 | _ => 1

/-- The mode that holds a CBR rate, in kbit/s (R300). -/
def cbrMode (kbps : Nat) : Nat :=
  if kbps ≤ 12500000 then 1 else if kbps ≤ 28200000 then 2 else if kbps ≤ 56500000 then 3 else if kbps ≤ 113000000 then 4 else 5

/-- Lane mode of a type. -/
def typeMode (ty cbr : Nat) : Nat :=
  match ty with
  | 0 => 0 | 1 => 1 | 2 => 2 | 3 => 2 | 4 => 3 | 5 => 4 | 6 => 3 | 7 => 4 | 8 => 5 | 9 => 3 | 10 => 4 | 11 => 5 | 12 => 4 | 13 => 5
  | 14 => 5 | 15 => 1 | 16 => 2 | _ => cbrMode cbr

/-- Client rate in Gbit/s of the Ethernet types. -/
def typeGbps (ty : Nat) : Nat :=
  match ty with
  | 1 => 10 | 2 => 25 | 3 => 100 | 4 => 100 | 5 => 100 | 6 => 200 | 7 => 200 | 8 => 200 | 9 => 400 | 10 => 400 | 11 => 400
  | 12 => 800 | 13 => 800 | 14 => 1600 | _ => 0

/-- The type has a Clause 73 ability. -/
def hasClause73 (ty : Nat) : Bool := decide (1 ≤ ty ∧ ty ≤ 14) && ty != 9

/-- Clause 73's priority order, highest first. PRESUMED: IEEE 802.3 orders by rate and then by fewer lanes. -/
def clause73Order : List Nat := [14, 13, 12, 11, 10, 8, 7, 6, 5, 4, 3, 2, 1]

/-- Types in descending order of client rate (R306). -/
def rateOrder : List Nat := [14, 13, 12, 11, 10, 9, 8, 7, 6, 5, 4, 3, 2, 1]

/-- The client may resolve to a type: its own, or one that `AllowedTypes` admits. -/
def typeAllowed (s : State) (t ty : Nat) : Bool :=
  ty = s.nat (Od.clientType t) || decide (s.nat (Od.allowedTypes t) / 2 ^ ty % 2 = 1)

/-- The types of a client. -/
def clientTypes (s : State) (t : Nat) : List Nat := (List.range 18).filter fun ty => ty != 0 && typeAllowed s t ty

/-- The lane span of a client (R312). -/
def clientSpan (s : State) (t : Nat) : Nat := (clientTypes s t).foldl (fun a ty => max a (typeLanes ty)) 0

/-- The trays that hold a client. -/
def clientTrays (s : State) : List Nat :=
  s.od.filterMap fun p => if keyIdx p.1 = 0x4040 ∧ keySub p.1 = 1 then some (keyInst p.1) else none

def inSpan (s : State) (t k : Nat) : Bool :=
  let f := s.nat (Od.firstLane t)
  decide (f ≤ k ∧ k < f + clientSpan s t)

/-- The client that a lane is bound to (R304). -/
def clientOf (s : State) (k : Nat) : Option Nat := (clientTrays s).find? fun t => inSpan s t k

def spanLanes (s : State) (t : Nat) : List Nat := (List.range (clientSpan s t)).map (s.nat (Od.firstLane t) + ·)

/-- The lanes that a type of the client uses. -/
def usedLanes (s : State) (t ty : Nat) : List Nat := (List.range (typeLanes ty)).map (s.nat (Od.firstLane t) + ·)

/-! ### Clients (R313–R315) -/

/-- The client's ingress has failed (R315). -/
def clientDown (s : State) (t : Nat) : Bool :=
  let a := s.nat (Od.activeType t)
  s.nat (Od.clientType t) != 0 &&
  (a = 0 || (usedLanes s t a).any (fun k => s.nat (Od.laneState k) != 6) || !(s.nat (Od.pcsState t) = 2 || s.nat (Od.pcsState t) = 3))

/-- The ingress of a client has failed, or an injected condition acts as if it had (R497). -/
def clientFailed (s : State) (t : Nat) : Bool := clientDown s t || (s.nat (Od.clientType t) != 0 && injActs s (srcTray t 0))

/-- What follows from the ingress condition of a client (R315): the alarms, and a failed member's pause state. The alarm clears
by its own timer. -/
def clientJudge (s : State) (t : Nat) : State :=
  let s := if clientDown s t then s.setCond (srcTray t 0) true else s
  let s := if clientFailed s t && s.nat (Od.mappingKind t) = 1 then s.setMember t { s.member t with pausedUntil := [], xoff := [] } else s
  s.setCond (srcTray t 1) (s.nat (Od.clientType t) != 0 && s.nat (Od.pcsState t) = 3)

/-- The lanes of a client have changed: `PcsState` goes down with a lane, and starts again once every used lane is `ACTIVE` (R313,
R314). -/
def clientLanes (s : State) (t : Nat) : State :=
  let a := s.nat (Od.activeType t)
  let up := a != 0 && (usedLanes s t a).all fun k => s.nat (Od.laneState k) = 6
  let was := s.nat (Od.pcsState t)
  let s := s.setN (Od.pcsState t) (if !up then 0 else if clientKind a = 3 then 2 else if was = 0 then 1 else was)
  clientJudge s t

/-- A client PCS reaches or loses alignment: `st` is its new state (R313, R314). -/
def execPcsAligned (t st : Nat) (s : State) : Out :=
  onUnit (t < 2048) s fun s =>
    let a := s.nat (Od.activeType t)
    let up := a != 0 && (usedLanes s t a).all fun k => s.nat (Od.laneState k) = 6
    let ok := match clientKind a with
      | 1 => decide (1 ≤ st ∧ st ≤ 4)
      | 2 => st = 1 || st = 2 || st = 5
      | _ => false
    if up && ok then clientJudge (s.setN (Od.pcsState t) st) t else s

def execClientFailClearTimer (t : Nat) (s : State) : Out :=
  onUnit (t < 2048) s fun s => if clientDown s t then s else s.setCond (srcTray t 0) false

/-! ### Lane states (R303–R307) -/

/-- A lane leaves `ACTIVE` or `TEST`, or changes state: its recovered clock, its client and its PRBS follow. -/
def laneEnter (s : State) (k st : Nat) : State :=
  let was := s.nat (Od.laneState k)
  let s := s.setN (Od.laneState k) st
  let s := if was = 6 && st != 6 then laneClockLost s k else s
  let s := if was = 7 && st != 7 then (s.setB (Od.checkLocked k) false).setLane k { s.lane k with checker := {} } else s
  let s := if st != 6 && st != 7 then s.setLane k { s.lane k with injecting := false, injectLeft := 0 } else s
  let s := if st = 0 || st = 6 || st = 7 then s.setLane k { s.lane k with injDown := false } else s
  if was = 6 || st = 6 then (match clientOf s k with | some t => clientLanes s t | none => s) else s

/-- The lane goes to `LANE_OFF`. -/
def laneOff (s : State) (k : Nat) : State :=
  let s := laneEnter s k 0
  ((s.setLane k { s.lane k with parallel := false, lastFrame := none, accepted := false, complete := false, fresh := false, txTaps := [] }).setN
    (Od.activeMode k) 0)

/-- Nothing is resolved any more for lane `k`, and its transmitter has no taps in force (R306, R309). -/
def laneUnresolved (s : State) (k : Nat) : State :=
  let s := s.setLane k { s.lane k with parallel := false, lastFrame := none, accepted := false, complete := false, txTaps := [] }
  (((s.setN (Od.activeMode k) 0).setN (Od.negotiateResult k) 0).setN (Od.trainResult k) 0).setN (Od.exchangeResult k) 0

/-- The lane may run: its group is powered, it is enabled, and it is bound or has a fixed mode (R305). -/
def laneMayRun (s : State) (k : Nat) : Bool :=
  s.domUp (domLaneGroup (k / 32)) && s.flag (Od.laneEnable k) && ((clientOf s k).isSome || s.nat (Od.modeSelect k) != 0)

/-- The lane enters `DETECT` for a cause of R305, taking its configuration (R323), or `LANE_OFF` where it may not run. -/
def laneDetect (s : State) (k cause : Nat) : State :=
  if !laneMayRun s k then laneOff s k else
  let was := s.nat (Od.laneState k)
  let s := if was > 1 then ((s.bump (Od.restarts k)).setN (Od.lastRestartCause k) cause).countEv 3 k 2 1 else s
  let s := laneEnter s k 1
  let x := s.lane k
  let s := s.setLane k { x with modeSelect := s.nat (Od.modeSelect k), anEnable := s.flag (Od.anEnable k), trainEnable := s.flag (Od.trainEnable k),
                                exchangeMode := s.nat (Od.exchangeMode k), txPreset := s.nat (Od.txPreset k), adaptMode := s.nat (Od.adaptMode k),
                                detectAt := s.uptime, farTermination := false, fresh := true, injecting := false,
                                ctle := 0, ffe := [], dfe := 0 }
  laneUnresolved s k

/-- The transmitter takes the coefficients of its preset (R305, R307). -/
def lanePreset (s : State) (k : Nat) : State :=
  s.setLane k { s.lane k with txTaps := Config.txPreset (s.nat (Od.activeMode k)) (s.lane k).txPreset }

/-- The lane enters `LOCK`, with what came of its training; an untrained transmitter stands at its preset. -/
def laneLock (s : State) (k train : Nat) : State :=
  (laneEnter (if train = 1 then s else lanePreset s k) k 4).setN (Od.trainResult k) train

/-- The lane enters `ACTIVE`, or `TEST` if unbound; the lane alarms clear (R304, R305, R322). `BringUpMillis` records a run from
`DETECT`. -/
def laneActive (s : State) (k exch : Nat) : State :=
  let s := s.setN (Od.exchangeResult k) exch
  let x := s.lane k
  let s := if x.fresh then (s.setN (Od.bringUpMillis k) ((s.uptime - x.detectAt) / 1000)).setLane k { x with fresh := false } else s
  let s := laneEnter s k (if (clientOf s k).isSome then 6 else 7)
  (s.setCond (srcLane k 0) false).setCond (srcLane k 1) false

/-- A client of type `ty` resolves: its lanes take the type's mode. -/
def clientResolve (s : State) (t ty how : Nat) : State :=
  let s := s.setN (Od.activeType t) ty
  (usedLanes s t ty).foldl (fun s k => (s.setN (Od.activeMode k) (typeMode ty (s.nat (Od.cbrRate t)))).setN (Od.negotiateResult k) how) s

/-- A lane that has a resolved type trains, or applies its preset (R305). -/
def laneTrain (s : State) (k : Nat) : State :=
  let s := laneEnter (lanePreset s k) k 3
  if (s.lane k).trainEnable then s else laneLock s k 2

/-- Lane `k` returns alone to a client whose first lane has resolved its type and stands beyond `NEGOTIATE` (R321). -/
def laneRejoins (s : State) (k t : Nat) : Bool :=
  let f := s.nat (Od.firstLane t)
  k != f && decide (2 < s.nat (Od.laneState f)) && s.nat (Od.negotiateResult f) != 0 && (usedLanes s t (s.nat (Od.activeType t))).contains k

/-- It takes the type that the client has resolved (R306). -/
def laneRejoin (s : State) (k t : Nat) : State :=
  let how := s.nat (Od.negotiateResult (s.nat (Od.firstLane t)))
  let s := (s.setN (Od.activeMode k) (typeMode (s.nat (Od.activeType t)) (s.nat (Od.cbrRate t)))).setN (Od.negotiateResult k) how
  if how = 1 then laneTrain s k else laneLock s k 2

/-- A far-end termination is detected on the transmit pair: `NEGOTIATE`; a fixed mode, and an OTN or CBR client, go straight on to
`LOCK` (R304, R305, R307). Parallel detection follows at once where nothing can be negotiated. -/
def execFarTerminationDetected (k : Nat) (s : State) : Out :=
  onUnit (k < 1024) s fun s =>
    if s.nat (Od.laneState k) != 1 then s else
    let s := laneEnter (s.setLane k { s.lane k with farTermination := true }) k 2
    match clientOf s k with
    | none => laneLock ((s.setN (Od.activeMode k) (s.lane k).modeSelect).setN (Od.negotiateResult k) 3) k 0
    | some t =>
      let ty := s.nat (Od.clientType t)
      if clientKind ty = 1 then
        (if laneRejoins s k t then laneRejoin s k t
         else if (s.lane (s.nat (Od.firstLane t))).anEnable && (clientTypes s t).any hasClause73 then s
         else s.setLane k { s.lane k with parallel := true })
      else laneLock ((s.setN (Od.activeType t) ty).setN (Od.activeMode k) (typeMode ty (s.nat (Od.cbrRate t)))) k 0

/-- Clause 73 pages arrive on lane `k`, with the far end's abilities as a mask of type codes (R305, R306, R321). -/
def execDmePagesReceived (k abilities : Nat) (s : State) : Out :=
  onUnit (k < 1024) s fun s =>
    let st := s.nat (Od.laneState k)
    match clientOf s k with
    | none =>
      if st = 7 then laneLock ((((laneUnresolved (laneEnter s k 2) k).setN (Od.activeMode k) (s.lane k).modeSelect)).setN (Od.negotiateResult k) 3) k 0
      else s
    | some t =>
      if s.nat (Od.firstLane t) != k then s
      else if st = 6 then
        (spanLanes s t).foldl (fun s j => if s.nat (Od.laneState j) > 2 then laneUnresolved (laneEnter s j 2) j else s) s
      else if st = 2 && (s.lane k).anEnable then
        match clause73Order.find? fun ty => typeAllowed s t ty && decide (abilities / 2 ^ ty % 2 = 1) with
        | none => s
        | some ty => (usedLanes s t ty).foldl (fun s j => if s.nat (Od.laneState j) = 2 then laneTrain s j else s) (clientResolve s t ty 1)
      else s

/-- No page within `AnTimeout`: parallel detection runs for the lane's client. -/
def execAnTimeout (k : Nat) (s : State) : Out :=
  onUnit (k < 1024) s fun s => if s.nat (Od.laneState k) = 2 then s.setLane k { s.lane k with parallel := true } else s

/-- Parallel detection of client `t` ends: it accepts type `ty`, or none (`ty` not an allowed type) (R306). -/
def execParallelDetectDone (t ty : Nat) (s : State) : Out :=
  onUnit (t < 2048) s fun s =>
    let waiting := (spanLanes s t).filter fun k => s.nat (Od.laneState k) = 2
    if !(waiting.any fun k => (s.lane k).parallel) then s
    else if ty != 0 && rateOrder.contains ty && typeAllowed s t ty then
      (usedLanes s t ty).foldl (fun s k => if waiting.contains k then laneLock s k 2 else s) (clientResolve s t ty 2)
    else waiting.foldl (fun s k => laneDetect s k 5) s

/-- Training completes; `taps` are the transmit coefficients that the far end's requests have set. -/
def execTrainingDone (k : Nat) (taps : List Int) (s : State) : Out :=
  onUnit (k < 1024) s fun s => if s.nat (Od.laneState k) = 3 then laneLock (s.setLane k { s.lane k with txTaps := taps }) k 1 else s

/-- `TrainTimeout` passes; `started` tells whether a training frame from the far end was seen. -/
def execTrainTimeout (k : Nat) (started : Bool) (s : State) : Out :=
  onUnit (k < 1024) s fun s =>
    if s.nat (Od.laneState k) != 3 then s
    else if started then (laneDetect s k 2).setN (Od.trainResult k) 3 else laneLock s k 2

/-- PAM4 modes (R300). -/
def pam4 (mode : Nat) : Bool := decide (3 ≤ mode)

/-- The lock threshold in 0.1 dB (R308). -/
def lockThreshold (s : State) (k : Nat) : Int :=
  if pam4 (s.nat (Od.activeMode k)) then s.int Od.fomLockPam4 else s.int Od.fomLockNrz

/-- An update of `FomNow` (R308). -/
def fomUpdate (s : State) (k : Nat) (fom : F32) : State :=
  let x := s.lane k
  (s.setLane k { x with fomMin := some (match x.fomMin with | some m => f32Min m fom | none => fom) }).setF (Od.fomNow k) fom

/-- The receiver adapts: its clock recovery runs, and `AdaptMode` does not hold its equalisers (R309). -/
def laneAdapts (s : State) (k : Nat) : Bool :=
  let st := s.nat (Od.laneState k)
  st = 4 || st = 5 || ((st = 6 || st = 7) && (s.lane k).adaptMode = 0)

/-- What a receiver in `LOCK` or beyond measures (R308, R309): the SNR and the far-end rate, and while it adapts its equalisers, the loss
that they tell of, and the taps that such a channel needs. -/
def laneMeasured (s : State) (k : Nat) (r : LaneReport) : State :=
  if s.nat (Od.laneState k) < 4 then s else
  let s := fomUpdate s k r.fom
  let s := s.setLane k { s.lane k with farRate := r.rate }
  if !laneAdapts s k then s else
  let mask := Config.ffeMask (s.nat (Od.activeMode k)) r.loss
  let ffe := ((r.ffe.take 32).zipIdx).map fun c => if mask / 2 ^ c.2 % 2 = 1 then c.1 else 0
  (s.setLane k { s.lane k with ctle := r.ctle, ffe := ffe, dfe := r.dfe }).setF (Od.channelLoss k) r.loss

/-- Clock recovery is locked and `FomNow` has held at the lock threshold for 1 ms. -/
def execLockQualified (k : Nat) (r : LaneReport) (s : State) : Out :=
  onUnit (k < 1024) s fun s =>
    let s := laneMeasured s k r
    if s.nat (Od.laneState k) != 4 || !f32GeRat r.fom (lockThreshold s k) 10 then s
    else if (s.lane k).exchangeMode = 0 then laneActive s k 3
    else laneEnter (s.setLane k { s.lane k with lastFrame := none, accepted := false, complete := false }) k 5

def execLockTimeout (k : Nat) (s : State) : Out :=
  onUnit (k < 1024) s fun s => if s.nat (Od.laneState k) = 4 then laneDetect s k 3 else s

/-! ### Capability exchange (R310, R311) -/

/-- Bits [hi:lo] of a number. -/
def bits (v hi lo : Nat) : Nat := v / 2 ^ lo % 2 ^ (hi + 1 - lo)

/-- A frame without its Ack, FomReport and Crc: what two consecutive frames must share. -/
def frameCore (f : Nat) : Nat := f - bits f 69 62 * 2 ^ 62 - bits f 31 31 * 2 ^ 31 - bits f 15 0

/-- The capability frame that lane `k` sends (R310). -/
def capabilityFrame (s : State) (k : Nat) : Nat :=
  let t := clientOf s k
  let index := match t with | some t => (k - s.nat (Od.firstLane t)) % 8 | none => 0
  let ty := match t with | some t => s.nat (Od.activeType t) | none => 0
  let fom := min (f32Scaled4 (s.f32 (Od.fomNow k))) 255
  let body := 0xC3A55A3C * 2 ^ 80 + 0x01 * 2 ^ 72 + k * 2 ^ 62 + index * 2 ^ 59 + ty * 2 ^ 54 + fom * 2 ^ 46
    + s.nat Od.localCardId % 2 ^ 30 * 2 ^ 16 + (if (s.lane k).accepted then 2 ^ 15 else 0)
  body * 2 ^ 16 + crc16 112 body
where
  /-- dB to units of 0.25 dB -/
  f32Scaled4 (x : F32) : Nat := ((f32Int x * 4 + 2 ^ 148) / 2 ^ 149).toNat

/-- The receive pair is crossed (R301). -/
def rxInverted (s : State) (k : Nat) : Bool := s.nat (Od.polarityInvert k) / 2 % 2 = 1
/-- The transmit pair is crossed. -/
def txInverted (s : State) (k : Nat) : Bool := s.nat (Od.polarityInvert k) % 2 = 1

/-- A capability frame, 128 bits as the receive pair carries them, arrives on a lane in `EXCHANGE`. -/
def execCapabilityFrameReceived (k frame : Nat) (s : State) : Out :=
  onUnit (k < 1024) s fun s =>
    let f := if rxInverted s k then 2 ^ 128 - 1 - frame % 2 ^ 128 else frame % 2 ^ 128
    let x := s.lane k
    if s.nat (Od.laneState k) != 5 then s
    else if bits f 127 96 != 0xC3A55A3C || crc16 112 (f / 2 ^ 16) != bits f 15 0 then s.setLane k { x with lastFrame := none }
    else if bits f 95 88 != 1 then s
    else
      let s := s.setO (Od.farFrame k) (beBytes 16 f)
      let same := match x.lastFrame with
        | some g => decide (frameCore g = frameCore f)
        | none => false
      let newly := same && !x.accepted
      let acc := x.accepted || same
      let s := s.setLane k { x with lastFrame := some f, accepted := acc, complete := x.complete || (acc && bits f 31 31 = 1) }
      if !newly then s else
      match clientOf s k with
      | none => s
      | some t =>
        let want := s.nat (Od.expectedFarCard t)
        let bad := want != 0 && want % 2 ^ 30 != bits f 61 32
        (s.setB (Od.idMismatch k) bad).setCond (srcLane k 2) bad

/-- The sixteenth further frame has been sent. -/
def execExchangeDone (k : Nat) (s : State) : Out :=
  onUnit (k < 1024) s fun s => if s.nat (Od.laneState k) = 5 && (s.lane k).complete then laneActive s k 1 else s

def execExchangeTimeout (k : Nat) (s : State) : Out :=
  onUnit (k < 1024) s fun s =>
    if s.nat (Od.laneState k) != 5 || (s.lane k).complete then s
    else if (s.lane k).exchangeMode = 2 then (laneDetect s k 4).setN (Od.exchangeResult k) 2
    else laneActive s k 2

/-! ### Losses, alarms and commands -/

/-- No receive signal for 10 µs (R305, R322). -/
def execLaneSignalLoss (k : Nat) (s : State) : Out :=
  onUnit (k < 1024) s fun s =>
    let st := s.nat (Od.laneState k)
    if st != 6 && st != 7 then s else
    (((laneDetect s k 1).bump (Od.losEntries k)).countEv 3 k 3 1).setCond (srcLane k 0) true

/-- Clock recovery lost, or `FomNow` below the fail threshold, 1.5 dB under the lock threshold, for 1 ms, with signal present (R305,
R308). -/
def execLaneFomFail (k : Nat) (r : LaneReport) (clockLost : Bool) (s : State) : Out :=
  onUnit (k < 1024) s fun s =>
    let st := s.nat (Od.laneState k)
    let s := laneMeasured s k r
    if (st = 6 || st = 7) && (clockLost || f32LtRat r.fom (lockThreshold s k - 15) 10) then laneEnter s k 4 else s

def execBringupAlarmTimer (k : Nat) (s : State) : Out :=
  onUnit (k < 1024) s fun s =>
    let st := s.nat (Od.laneState k)
    if s.flag (Od.laneEnable k) && (s.lane k).farTermination && st != 6 && st != 7 then s.setCond (srcLane k 1) true else s

/-- Count injected errors; they are marked in the module's own counters only (R317). -/
def laneInject (s : State) (k n : Nat) : State := s.bumpBy (Od.injectedErrors k) n

/-- `LaneCommand` code 1. -/
def laneRestart (k : Nat) (s : State) : Status × State := if (s.lane k).injecting then (.busy, s) else (.ok, laneDetect s k 6)

/-- `LaneCommand` code 2: one error, `InjectCount` errors at least 1,000 symbols apart, or continuous errors (R317). -/
def laneInjectStart (k : Nat) (s : State) : Status × State :=
  let st := s.nat (Od.laneState k)
  let x := s.lane k
  if x.injecting then (.busy, s)
  else if st != 6 && st != 7 then (.ok, s) else
  match s.nat (Od.lanePrbsInjectMode k) with
  | 1 => (.ok, laneInject s k 1)
  | 2 => (.ok, s.setLane k { x with injecting := true, injectLeft := s.nat (Od.lanePrbsInjectCount k), injectBits := 0 })
  | 3 => (.ok, s.setLane k { x with injecting := true, injectLeft := 0, injectBits := 0 })
  | _ => (.ok, s)

/-- `LaneCommand` code 3. -/
def laneInjectStop (k : Nat) (s : State) : Status × State := (.ok, s.setLane k { s.lane k with injecting := false, injectLeft := 0 })

/-- `LaneCommand` code 4. -/
def laneClearCounters (k : Nat) (s : State) : Status × State :=
  if (s.lane k).injecting then (.busy, s)
  else (.ok, ((s.setN (Od.checkErrors k) 0).setN (Od.checkBits k) 0).setN (Od.injectedErrors k) 0)

def execLaneRestart (k l : Nat) (s : State) : Out := .next (hostCmd s k (Od.laneCommand l) 1 (laneRestart l))
def execLaneInjectStart (k l : Nat) (s : State) : Out := .next (hostCmd s k (Od.laneCommand l) 2 (laneInjectStart l))
def execLaneInjectStop (k l : Nat) (s : State) : Out := .next (hostCmd s k (Od.laneCommand l) 3 (laneInjectStop l))
def execLaneClearCounters (k l : Nat) (s : State) : Out := .next (hostCmd s k (Od.laneCommand l) 4 (laneClearCounters l))

/-- Nominal lane rate in kbit/s of a mode, and of a bound lane's type (R300). -/
def modeKbps (mode : Nat) : Nat :=
  match mode with | 1 => 10312500 | 2 => 25781250 | 3 => 53125000 | 4 => 106250000 | 5 => 212500000 | _ => 0
def laneKbps (s : State) (k : Nat) : Nat :=
  match clientOf s k with
  | some t =>
    let a := s.nat (Od.activeType t)
    if a = 15 then 10709225 else if a = 16 then 27952493 else if a = 17 then s.nat (Od.cbrRate t) else modeKbps (s.nat (Od.activeMode k))
  | none => modeKbps (s.nat (Od.activeMode k))

/-- One microsecond of a lane with injection: in mode 2 an error in 1,000 symbols until `InjectCount` of them have gone, in mode 3 one in
10^`InjectRateExp` bits (R317). -/
def laneTick (s : State) (k : Nat) : State :=
  let x := s.lane k
  if !x.injecting then s
  else if x.injectLeft = 0 then
    let b := x.injectBits + laneKbps s k
    let unit := 1000 * 10 ^ s.nat (Od.injectRateExp k)
    laneInject (s.setLane k { x with injectBits := b % unit }) k (b / unit)
  else
    let b := x.injectBits + laneKbps s k / (if pam4 (s.nat (Od.activeMode k)) then 2 else 1)
    let n := min x.injectLeft (b / 1000000)
    laneInject (s.setLane k { x with injectBits := b % 1000000, injectLeft := x.injectLeft - n, injecting := decide (n < x.injectLeft) }) k n

def lanesTick (s : State) : State := (s.lanes.map (·.1)).foldl laneTick s

/-! ### PRBS (R316) -/

/-- The next bit of a pattern after `hist`, newest bit first (ITU-T O.150; PRESUMED). -/
def patternNext (code : Nat) (hist : List Bool) : Bool :=
  let tap (i : Nat) : Bool := hist.getD (i - 1) false
  match code with
  | 1 => tap 7 != tap 6
  | 2 => tap 9 != tap 5
  | 3 => (tap 13 != tap 12) != (tap 2 != tap 1)
  | 4 => tap 15 != tap 14
  | 5 => tap 23 != tap 18
  | 6 => tap 31 != tap 28
  | _ => Config.ssprqNext hist

/-- Sliced bits with a crossed pair put right: every bit in an NRZ mode, in a PAM4 mode the first bit of each Gray-coded symbol (R301). -/
def uncrossed (pam inverted : Bool) (run : List Bool) : List Bool :=
  if !inverted then run else run.zipIdx.map fun b => if pam && b.2 % 2 = 1 then b.1 else !b.1

/-- One bit at a checker that is not locked: 64 consecutive bits that the bits before them predict give lock; an all-zero run predicts
nothing. -/
def checkerSeek (code : Nat) (c : Checker) (b : Bool) : Checker :=
  let good := if c.hist.any id && b == patternNext code c.hist then min (c.good + 1) 64 else 0
  { c with hist := (b :: c.hist).take 31, good := good, errs := [] }

/-- One bit at a locked checker, compared with its own reference. Answers whether it was in error. -/
def checkerTake (code : Nat) (c : Checker) (b : Bool) : Bool × Checker :=
  let want := patternNext code c.hist
  let bad := b != want
  (bad, { c with hist := (want :: c.hist).take 31, errs := (bad :: c.errs).take 64 })

/-- One received bit: the checker locks after 64 error-free bits, and loses lock at 32 errors within 64 bits; while locked it counts
(R316). -/
def checkerBit (s : State) (k : Nat) (b : Bool) : State :=
  let x := s.lane k
  let code := s.nat (Od.checkPattern k)
  if s.flag (Od.checkLocked k) then
    let r := checkerTake code x.checker b
    let s := s.bump (Od.checkBits k)
    let s := if r.1 then (s.bump (Od.checkErrors k)).countEv 3 k 1 1 else s
    if 32 ≤ (r.2.errs.filter id).length then (s.setB (Od.checkLocked k) false).setLane k { x with checker := {} }
    else s.setLane k { x with checker := r.2 }
  else
    let c := checkerSeek code x.checker b
    let s := s.setLane k { x with checker := c }
    if c.good = 64 then s.setB (Od.checkLocked k) true else s

/-- Bits that arrive at the checker of a lane in `TEST`. -/
def checkerRun (s : State) (k : Nat) (run : List Bool) : State :=
  if s.nat (Od.laneState k) != 7 || s.nat (Od.checkPattern k) = 0 then s
  else (uncrossed (pam4 (s.nat (Od.activeMode k))) (rxInverted s k) run).foldl (fun s b => checkerBit s k b) s

/-- A run of received bits in which the checker locks. -/
def execPrbsCheckerLocked (k : Nat) (run : List Bool) (s : State) : Out := onUnit (k < 1024) s fun s => checkerRun s k run

/-- A run of received bits in which the checker loses lock. -/
def execPrbsCheckerLockLost (k : Nat) (run : List Bool) (s : State) : Out := onUnit (k < 1024) s fun s => checkerRun s k run

/-! ### Headroom buffers and PFC (R318–R320) -/

def Member.inQ (x : Member) (q : Nat) : List Bytes := Tbl.get (fun _ => []) x.ingress q
def Member.outQ (x : Member) (q : Nat) : List Bytes := Tbl.get (fun _ => []) x.egress q
def Member.setIn (x : Member) (q : Nat) (l : List Bytes) : Member := { x with ingress := Tbl.put (fun _ => []) x.ingress q l }
def Member.setOut (x : Member) (q : Nat) (l : List Bytes) : Member := { x with egress := Tbl.put (fun _ => []) x.egress q l }

/-- Octets of a queue. -/
def queueBytes (l : List Bytes) : Nat := (l.map (·.length)).foldl (· + ·) 0

/-- The fastest client rate that the client may resolve, in Gbit/s. -/
def fastestGbps (s : State) (t : Nat) : Nat := (clientTypes s t).foldl (fun a ty => max a (typeGbps ty)) 0

/-- Round up to a whole KiB. -/
def kib (n : Nat) : Nat := (n + 1023) / 1024 * 1024

/-- `HeadroomRequired` (R320). -/
def headroomRequired (s : State) (t : Nat) : Nat :=
  if s.nat (Od.clientType t) = 0 then 0 else
  kib ((fastestGbps s t * (2 * s.nat (Od.linkDelay t) + 300 + s.nat (Od.partnerResponse t)) + 7) / 8 + 2 * s.nat (Od.maxFrame t))

def isMember (s : State) (t : Nat) : Bool := s.nat (Od.clientType t) != 0 && s.nat (Od.mappingKind t) = 1

def losslessCount (mask : Nat) : Nat := ((List.range 8).filter fun q => decide (mask / 2 ^ q % 2 = 1)).length

/-- What a member takes from its half's pool (R320). -/
def memberAllocation (s : State) (t : Nat) : Nat :=
  if isMember s t then 8 * s.nat (Od.xoffBytes t) + losslessCount (s.nat (Od.losslessMask t)) * headroomRequired s t else 0

/-- The mapping-die half that serves a client's host IO die (R27). -/
def clientHalf (s : State) (t : Nat) : Nat := s.nat (Od.firstLane t) / 256

/-- `Allocated` of a half. -/
def poolAllocated (s : State) (h : Nat) : Nat :=
  ((clientTrays s).map fun t => if clientHalf s t = h then memberAllocation s t else 0).foldl (· + ·) 0

/-- Octets held in the pool of a half. -/
def poolUsed (s : State) (h : Nat) : Nat :=
  (s.members.map fun m => if clientHalf s m.1 = h then ((m.2.ingress ++ m.2.egress).map fun q => queueBytes q.2).foldl (· + ·) 0 else 0).foldl (· + ·) 0

/-- Send a PFC frame to a client. -/
def sendPfc (s : State) (t q time : Nat) : State :=
  let s := { s with pfcSent := (t, q, time) :: s.pfcSent }
  if time = 0 then s else s.bump (Od.xoffSent t)

/-- The priority of a frame: the PCP of its VLAN tag, or 0 (R318). -/
def framePriority (f : Bytes) : Nat :=
  if beNat ((f.drop 12).take 2) = 0x8100 then beNat ((f.drop 14).take 1) / 32 else 0

/-- The FCS of a frame passes. -/
def fcsOk (f : Bytes) : Bool := decide (4 ≤ f.length) && decide (crc32 (f.take (f.length - 4)) = leNat (f.drop (f.length - 4)))

/-- A MAC control frame: PFC (opcode 0x0101) or Annex 31B PAUSE (opcode 0x0001). -/
def macControl (f : Bytes) : Bool := decide (beNat ((f.drop 12).take 2) = 0x8808)

/-- The member index of a client in its aggregate tray (R329). -/
def membersOf (s : State) (a : Nat) : List Nat := (clientTrays s).filter fun t => isMember s t && s.nat (Od.aggregateTray t) = a

/-- A frame of an aggregated member arrives (R318, R319, R329). -/
def execClientFrameIngress (t : Nat) (frame : Bytes) (s : State) : Out :=
  onUnit (t < 2048) s fun s =>
    if !isMember s t || clientFailed s t || !fcsOk frame || macControl frame then s else
    let a := s.nat (Od.aggregateTray t)
    let q := framePriority frame
    let x := s.member t
    let fill := queueBytes (x.inQ q)
    let lossless := decide (s.nat (Od.losslessMask t) / 2 ^ q % 2 = 1)
    let cap := s.nat (Od.xoffBytes t) + (if lossless then headroomRequired s t else 0)
    let s := s.countEv 2 a 3 1
    if cap < fill + frame.length then
      let s := (s.bump (Od.drops t q)).countEv 2 a 4 1
      if lossless then s.setCond (srcTray t 2) true else s
    else
      let fill := fill + frame.length
      let s := (s.setMember t (x.setIn q (x.inQ q ++ [frame]))).peak (Od.queuePeak t q) fill
      let s := s.peak (Od.peakUsed (clientHalf s t)) (poolUsed s (clientHalf s t))
      if lossless && decide (s.nat (Od.xoffBytes t) ≤ fill) && !x.xoff.contains q then
        let y := s.member t
        sendPfc (s.setMember t { y with xoff := q :: y.xoff }) t q 0xFFFF
      else s

/-- A frame leaves an ingress queue: XOFF is released when the queue falls to `XonBytes` (R319). -/
def memberTake (s : State) (t q : Nat) : Option Bytes × State :=
  let x := s.member t
  match x.inQ q with
  | [] => (none, s)
  | f :: rest =>
    let x := x.setIn q rest
    if x.xoff.contains q && decide (queueBytes rest ≤ s.nat (Od.xonBytes t)) then
      (some f, sendPfc (s.setMember t { x with xoff := x.xoff.filter (· != q) }) t q 0)
    else (some f, s.setMember t x)

/-- Half the pause time has passed with the queue above `XonBytes`: the PFC frame is repeated. -/
def execPfcRefreshTimer (t q : Nat) (s : State) : Out :=
  onUnit (decide (t < 2048) && decide (q < 8)) s fun s =>
    let x := s.member t
    if x.xoff.contains q && decide (s.nat (Od.xonBytes t) < queueBytes (x.inQ q)) then sendPfc s t q 0xFFFF else s

/-- The egress of a priority is paused now. -/
def memberPaused (s : State) (t q : Nat) : Bool := decide (s.uptime < Tbl.get (fun _ => 0) (s.member t).pausedUntil q)

/-- A frame goes to a member's client: sent, held while its priority is paused, or dropped beyond `XoffBytes` (R319). -/
def memberEgress (s : State) (t q : Nat) (frame : Bytes) : State :=
  let x := s.member t
  if memberPaused s t q || !(x.outQ q).isEmpty then
    if s.nat (Od.xoffBytes t) < queueBytes (x.outQ q) + frame.length then (s.bump (Od.egressPauseDrops t)).countEv 2 (s.nat (Od.aggregateTray t)) 4 1
    else
      let s := s.setMember t (x.setOut q (x.outQ q ++ [frame]))
      s.peak (Od.peakUsed (clientHalf s t)) (poolUsed s (clientHalf s t))
  else s.setMember t { x with delivered := x.delivered + frame.length, sent := frame }

/-- The held frames of a priority go out. -/
def memberRelease (s : State) (t q : Nat) : State :=
  let x := s.member t
  s.setMember t ({ x with delivered := x.delivered + queueBytes (x.outQ q), sent := ((x.outQ q).getLast?).getD x.sent }.setOut q [])

/-- Priorities whose pause has run out send again; `pauseTick` runs once per microsecond. -/
def pauseTick (s : State) : State :=
  (s.members.map (·.1)).foldl (fun s t => (List.range 8).foldl (fun s q =>
    if memberPaused s t q || ((s.member t).outQ q).isEmpty then s else memberRelease s t q) s) s

/-- A PFC frame from a member's client: `enables` is its priority mask, `times` its eight pause times in quanta of 512 bit times
(R319). -/
def execPfcFrameReceived (t enables : Nat) (times : List Nat) (s : State) : Out :=
  onUnit (t < 2048) s fun s =>
    if !isMember s t then s else
    let s := s.bump (Od.pauseReceived t)
    let gbps := max (typeGbps (s.nat (Od.activeType t))) 1
    (List.range 8).foldl (fun s q =>
      if enables / 2 ^ q % 2 = 0 then s else
      let time := times.getD q 0
      let x := s.member t
      let s := s.setMember t { x with pausedUntil := Tbl.put (fun _ => 0) x.pausedUntil q (if time = 0 then 0 else s.uptime + (time * 512 + 1000 * gbps - 1) / (1000 * gbps)) }
      if time = 0 then memberRelease s t q else s) s

def execHeadroomOverrunClear (t : Nat) (s : State) : Out := onUnit (t < 2048) s fun s => s.setCond (srcTray t 2) false

/-! ### Groups, power and binding -/

/-- Every lane of a group returns to the start of bring-up (R85, R305). -/
def laneGroupRestart (s : State) (g : Nat) : State := (List.range 32).foldl (fun s i => laneDetect s (32 * g + i) 6) s

/-- A lane group loses power: its lanes go to `LANE_OFF` and their sources' conditions end (R305, R321, R501). -/
def laneGroupDown (s : State) (g : Nat) : State :=
  (List.range 32).foldl (fun s i =>
    let k := 32 * g + i
    (((laneOff s k).clearCond (srcLane k 0)).clearCond (srcLane k 1)).clearCond (srcLane k 2)) s

/-- A lane group is powered: its lanes start bring-up. -/
def laneGroupUp (s : State) (g : Nat) : State := (List.range 32).foldl (fun s i => laneDetect s (32 * g + i) 0) s

/-- A client's binding changed: its type is unresolved, and the lanes of the old and new spans return to `DETECT` (R312). A tray that has
lost its client reads 0 in 2041h (R40). -/
def bindingWritten (old s : State) (t : Nat) : State :=
  let s := (s.setN (Od.activeType t) 0).setN (Od.pcsState t) 0
  let s := (((spanLanes old t) ++ (spanLanes s t)).eraseDups).foldl (fun s k =>
    laneDetect (s.setLane k { s.lane k with injecting := false, injectLeft := 0 }) k 7) s
  if s.nat (Od.clientType t) = 0 then
    let s := s.clearObjs fun k => keyIdx k = 0x2041 && keyInst k = t
    (((s.setMember t {}).setCond (srcTray t 0) false).setCond (srcTray t 1) false).setCond (srcTray t 2) false
  else clientJudge s t

/-- `ClearLaneCounters`. -/
def clearLaneCounters (s : State) : Status × State :=
  (.ok, s.clearObjs fun k =>
    let i := keyIdx k
    let j := keySub k
    (i = 0x4001 && j = 5) || (i = 0x4002 && j = 6) || (i = 0x4003 && (j = 4 || j = 5 || j = 9))
      || (i = 0x4040 && (j = 11 || j = 12 || j = 14)) || i = 0x4051 || (i = 0x4060 && j = 3))

def execClearLaneCounters (k : Nat) (s : State) : Out := .next (hostCmd s k Od.clearLaneCounters 1 clearLaneCounters)

/-- What the PCS of client `t` counted in the last interval (R313, R314). -/
def pcsCounted (s : State) (t : Nat) (c : PcsCount) : State :=
  let a := s.nat (Od.activeType t)
  let kind := clientKind a
  if kind = 0 then s.setF (Od.preFecBerInterval t) 0
  else
    let s := if kind = 2 then s.bumpBy (Od.smBipErrors t) c.bip else s
    if kind = 3 || a = 1 || (a = 2 && s.nat (Od.fecMode t) = 1) then s.setF (Od.preFecBerInterval t) 0
    else ((s.bumpBy (Od.fecCorrected t) c.corrected).bumpBy (Od.fecUncorrected t) c.uncorrected).setF (Od.preFecBerInterval t)
      (if c.bits = 0 then 0 else f32OfRat (c.errors : Int) c.bits)

/-- The clients' part of a 1 s boundary. -/
def clientsCounted (s : State) (clients : List (Nat × PcsCount)) : State :=
  (clientTrays s).foldl (fun s t => pcsCounted s t ((clients.lookup t).getD ⟨0, 0, 0, 0, 0⟩)) s

/-- The lanes' part of a 1 s boundary (R308). -/
def lanesLatch (s : State) : State :=
  let measured := s.od.filterMap fun p => if keyIdx p.1 = 0x4002 ∧ (keySub p.1 = 1 ∨ keySub p.1 = 2) then some (keyInst p.1) else none
  ((s.lanes.map (·.1) ++ measured).eraseDups).foldl (fun s k =>
    let x := s.lane k
    (match x.fomMin with | some m => s.setF (Od.fomMinInterval k) m | none => s.setF (Od.fomMinInterval k) (s.f32 (Od.fomNow k))).setLane k
      { x with fomMin := none }) s

/-! ### Objects -/

/-- The rules of R312 and R318 for one client. -/
def clientConsistent (c : State) (t : Nat) : Bool :=
  let ty := c.nat (Od.clientType t)
  let f := c.nat (Od.firstLane t)
  let n := clientSpan c t
  let kinds := (clientTypes c t).all fun a => clientKind a = clientKind ty
  let cbr := (ty = 17) = (c.nat (Od.cbrRate t) != 0)
  let fec := c.nat (Od.fecMode t) = 0 || ty = 2
  let place := ty = 0 || (decide (f / 32 = (f + n - 1) / 32) && decide (f % max n 1 = 0)
      && (clientTrays c).all fun u => u = t || decide (f + n ≤ c.nat (Od.firstLane u) ∨ c.nat (Od.firstLane u) + clientSpan c u ≤ f))
  let a := c.nat (Od.aggregateTray t)
  let agg := !isMember c t || (clientKind ty = 1 && isMember c a && c.nat (Od.aggregateTray a) = a && decide ((membersOf c a).length ≤ 16))
  let owned := (clientTrays c).all fun u => !(isMember c u && c.nat (Od.aggregateTray u) = t) || (isMember c t && c.nat (Od.aggregateTray t) = t)
  (ty = 0 || kinds) && (ty = 0 || cbr) && (ty != 0 || c.nat (Od.cbrRate t) = 0) && fec && place && agg && owned

/-- The refusals of writes (R302, R312, R316, R318, R320, R332). -/
def lanesCheck (s c : State) (key : Nat) : Status :=
  let idx := keyIdx key
  let x := keyInst key
  let sub := keySub key
  if idx = 0x4003 ∧ (sub = 1 ∨ sub = 2) then
    (if (clientOf s x).isSome then .state
     else if c.nat key = 7 && !pam4 (c.nat (Od.modeSelect x)) then .inconsistent else .ok)
  else if idx = 0x4010 then
    (if (List.range 32).any fun i => decide (1 < s.nat (Od.laneState (32 * x + i))) then .state else .ok)
  else if idx = 0x4040 then
    (if c.nat (Od.clientType x) != 0 && c.flag (Od.hubMode (x / 32)) then .inconsistent
     else if !clientConsistent c x then .inconsistent
     else if c.nat (Od.poolBytes (clientHalf c x)) < poolAllocated c (clientHalf c x) then .resource
     else .ok)
  else if idx = 0x4050 then
    (if c.nat (Od.xoffBytes x) ≤ c.nat (Od.xonBytes x) then .inconsistent
     else if c.nat (Od.poolBytes (clientHalf c x)) < poolAllocated c (clientHalf c x) then .resource
     else .ok)
  else .ok

/-- The effect of an accepted write (R305, R311, R312). -/
def lanesAfter (old s : State) (key : Nat) : State :=
  let idx := keyIdx key
  let x := keyInst key
  let sub := keySub key
  if idx = 0x4000 ∧ sub = 1 then
    (if !s.flag key then laneOff s x else if s.nat (Od.laneState x) = 0 then laneDetect s x 0 else s)
  else if idx = 0x4000 ∧ sub = 2 then
    (if (clientOf s x).isNone && s.nat key != 0 && s.nat (Od.laneState x) = 0 then laneDetect s x 0 else s)
  else if idx = 0x4003 ∧ sub = 2 then (s.setB (Od.checkLocked x) false).setLane x { s.lane x with checker := {} }
  else if idx = 0x4040 ∧ 1 ≤ sub ∧ sub ≤ 5 then bindingWritten old s x
  else if idx = 0x4040 ∧ (sub = 6 ∨ sub = 7) then s.setMember x {}
  else if idx = 0x4040 ∧ sub = 8 then (spanLanes s x).foldl (fun s k => (s.setB (Od.idMismatch k) false).setCond (srcLane k 2) false) s
  else s

/-- Objects that are read from the running hardware. -/
def lanesRead (s : State) (key : Nat) : Option Val :=
  let idx := keyIdx key
  let x := keyInst key
  let sub := keySub key
  if idx = 0x4002 ∧ sub = 5 then
    (let taps := (s.lane x).txTaps
     some (.o (((List.range 6).map fun i => leBytes 2 (unsignedOf 16 (taps.getD i 0))).flatMap id)))
  else if idx = 0x4004 then some (.u (if (s.lane x).injecting then 2 else 0))
  else if idx = 0x4010 ∧ sub = 2 then
    some (.u ((List.range 32).filter fun i => s.nat (Od.laneState (32 * x + i)) = 6 || s.nat (Od.laneState (32 * x + i)) = 7).length)
  else if idx = 0x4050 ∧ sub = 7 then some (.u (if isMember s x then headroomRequired s x else 0))
  else if idx = 0x4060 ∧ sub = 2 then some (.u (poolAllocated s x))
  else none

end Sys2Proof.Machine
end

