-- ==== Sys2Proof/Machine/Carrier.lean ====
section
/-! DEFINITION. A carrier's format, layout and placements as the dictionary gives them, the objects derived from them, and the
limits that every change of them is held to (R232, R233, R243, R277, R291, R298, R331, R376). -/

namespace Sys2Proof.Machine

/-- The format of carrier `n` as written (R299: derived objects follow the written values). -/
def fmtOf (s : State) (n : Nat) : Fmt :=
  ⟨s.nat (Od.symbolRate n), s.nat (Od.subcarrierCount n), s.nat (Od.pilotRate n), s.nat (Od.fecOverhead n)⟩

def profileOf (s : State) (n : Nat) : Nat := s.nat (Od.lineProfile n)
def krytelm (s : State) (n : Nat) : Bool := profileOf s n = 0
def isHub (s : State) (n : Nat) : Bool := s.flag (Od.hubMode n)

/-- The active and the pending entropy codes of a carrier. -/
def codesOf (s : State) (n : Nat) : List Nat := (List.range 32).map fun k => s.nat (Od.entropy (32 * n + k))
def pendingCodes (s : State) (n : Nat) : List Nat := (List.range 32).map fun k => s.shNat (Od.entropy (32 * n + k))

/-- A pending change of any subcarrier's code. -/
def layoutPending (s : State) (n : Nat) : Bool := decide (pendingCodes s n ≠ codesOf s n)

/-- `SlotCapacity` of a layout (R243). -/
def capacityOf (s : State) (n : Nat) (codes : List Nat) : Nat :=
  if krytelm s n then slotCapacity (fmtOf s n) codes else profileCapacity (profileOf s n)

/-- One path of a tray: tray, protection or working, carrier, first slot, slot count. -/
structure Placed where
  tray : Nat
  prot : Bool
  carrier : Nat
  first : Nat
  count : Nat
  deriving DecidableEq, Repr

/-- The trays that have a placement object away from its default, active or pending. -/
def placedTrays (s : State) : List Nat :=
  ((s.od ++ s.shadow).filterMap fun p =>
    if keyIdx p.1 = 0x4100 ∧ (keySub p.1 = 1 ∨ keySub p.1 = 4) then some (keyInst p.1) else none).eraseDups

/-- The paths of client tray `t`, as a view of the objects gives them. -/
def pathsOf (view : Nat → Nat) (t : Nat) : List Placed :=
  let c := view (Od.slotCount t)
  (if view (Od.workCarrier t) < 64 then [⟨t, false, view (Od.workCarrier t), view (Od.workFirstSlot t), c⟩] else [])
    ++ (if view (Od.protCarrier t) < 64 then [⟨t, true, view (Od.protCarrier t), view (Od.protFirstSlot t), c⟩] else [])

/-- The trays of the active hub subcarriers of a hub carrier, in ascending order from slot 0 (R376). -/
def hubPaths (view : Nat → Nat) (subs n : Nat) : List Placed :=
  ((List.range (min subs 32)).foldl (fun (acc : List Placed × Nat) k =>
    let i := 32 * n + k
    if view (Od.hubActive i) = 0 then acc
    else (⟨i, false, n, acc.2, view (Od.downSlots i)⟩ :: acc.1, acc.2 + view (Od.downSlots i))) ([], 0)).1.reverse

/-- Every placement on carrier `n`, as a view gives them. -/
def placementsIn (s : State) (view : Nat → Nat) (n : Nat) : List Placed :=
  if isHub s n then hubPaths view (s.nat (Od.subcarrierCount n)) n
  else ((placedTrays s).flatMap (pathsOf view)).filter fun p => p.carrier = n

def placementsOf (s : State) (n : Nat) : List Placed := placementsIn s s.nat n
def pendingPlacements (s : State) (n : Nat) : List Placed := placementsIn s s.shNat n

def slotsUsed (ps : List Placed) : Nat := (ps.map (·.count)).foldl (· + ·) 0

/-- `SlotsInUse` (R243, R331). -/
def slotsInUse (s : State) (n : Nat) : Nat := slotsUsed (placementsOf s n)

/-- The tray that uses a slot of a carrier in transmission. -/
def trayAtSlot (s : State) (n slot : Nat) : Option Nat :=
  ((placementsOf s n).find? fun p => decide (p.first ≤ slot ∧ slot < p.first + p.count)).map (·.tray)

/-- The entry of a slot in a tray map cell (R282). -/
def slotEntry (s : State) (n slot : Nat) : Nat :=
  if capacityOf s n (codesOf s n) ≤ slot then 0 else
  match trayAtSlot s n slot with
  | some t => 2048 + t
  | none => 0

/-- The port of a carrier engine (R27). -/
def portOf (n : Nat) : Nat := n / 8

/-- The trays with a path on a carrier. -/
def traysOn (s : State) (n : Nat) : List Nat := ((placementsOf s n).map (·.tray)).eraseDups

/-! ### Tray kinds and sizes (R330, chapter 11) -/

/-- `TrayKind` (opening table of chapter 11). -/
def kindOf (s : State) (t : Nat) : Nat :=
  if isHub s (t / 32) && s.flag (Od.hubActive t) && t < 2048 then 4
  else if s.nat (Od.clientType t) = 0 then 0
  else if isMember s t then (if s.nat (Od.aggregateTray t) = t then 3 else 0)
  else if clientKind (s.nat (Od.clientType t)) = 1 && s.nat (Od.ethernetMapping t) = 0 then 2
  else 1

/-- The stream rate of a client type in kbit/s (R330). -/
def streamKbps (ty cbr : Nat) : Nat :=
  if ty = 1 then 10312500 else if ty = 2 then 25781250 else if ty ≤ 5 then 103125000 else if ty ≤ 8 then 206250000
  else if ty ≤ 11 then 412500000 else if ty ≤ 13 then 825000000 else if ty = 14 then 1650000000
  else if ty = 15 then 10037300 else if ty = 16 then 104794500 else cbr

/-- `RequiredSlots` (R330, R376). -/
def requiredOf (s : State) (t : Nat) : Nat :=
  let k := kindOf s t
  if k = 4 then s.nat (Od.downSlots t)
  else if s.nat (Od.clientType t) = 0 then 0
  else if isMember s t then (if k = 3 then 1 else 0)
  else
    let r := (clientTypes s t).foldl (fun a ty => max a (streamKbps ty (s.nat (Od.cbrRate t)))) 0
    (r * 10003 + 5300000000 + 49999999999) / 50000000000

/-! ### Derived objects of chapters 08 and 09 -/

/-- The symbol rate in Hz (R232, R294). -/
def symbolHz (s : State) (n : Nat) : Nat :=
  match profileOf s n with
  | 0 => s.nat (Od.symbolRate n) * 1000000
  | 1 => 59843750000
  | 2 => 30069200000
  | 6 => Config.symbolHz800zr
  | _ => 60138500000

/-- Spacing Δf in Hz, as numerator and denominator (R233); a profile carrier has one subcarrier, of the profile's own bandwidth (R295). -/
def spacingHz (s : State) (n : Nat) : Nat × Nat :=
  if krytelm s n then (s.nat (Od.symbolRate n) * 1000000 * (100 + s.nat (Od.rollOff n)), s.nat (Od.subcarrierCount n) * 100)
  else (Config.profileBandwidth (profileOf s n) * 1000, 1)

/-- The occupied bandwidth in kHz (R233). -/
def occupiedKhz (s : State) (n : Nat) : Nat :=
  if krytelm s n then s.nat (Od.symbolRate n) * 10 * (100 + s.nat (Od.rollOff n)) else Config.profileBandwidth (profileOf s n)

/-- The gap of a code in 0.1 dB (R255). -/
def gapOf (s : State) (e : Nat) : Nat :=
  if e ≤ 16 then s.nat Od.gapQpsk else if e ≤ 64 then s.nat Od.gap16qam else s.nat Od.gap64qam

/-- SNRreq + TargetMargin in dB × 2⁶⁴ (R255). -/
def requiredDb (s : State) (n e : Nat) : Int :=
  snrReq (s.nat (Od.fecOverhead n)) e (gapOf s e) + (s.nat (Od.targetMargin n) : Int) * 2 ^ 64 / 10

/-- `FecThreshold`: the BER threshold of the overhead or profile as a fraction (R269, R294). -/
def thresholdOf (s : State) (n : Nat) : Nat × Nat :=
  if krytelm s n then (fecThreshold (s.nat (Od.fecOverhead n)), 1000) else (profileThreshold (profileOf s n), 10000)

/-- A subcarrier that the carrier has (R266). -/
def subExists (s : State) (i : Nat) : Bool := i % 32 < s.nat (Od.subcarrierCount (i / 32))

/-- A hub subcarrier that is there: its carrier is in hub mode and has it; every other is inactive (R4, R375). -/
def hubSubExists (s : State) (i : Nat) : Bool := isHub s (i / 32) && subExists s i

/-- Objects of 3200h, 3201h, 3300h and 4100h that follow from others. -/
def carrierRead (s : State) (key : Nat) : Option Val :=
  let idx := keyIdx key
  let n := keyInst key
  let sub := keySub key
  if idx = 0x3200 ∧ sub = 5 then
    some (.f (if krytelm s n then (let r := netRate (fmtOf s n) (codesOf s n); f32OfRat (r.1 : Int) (r.2 * 1000))
      else Config.profileNetRate (profileOf s n)))
  else if idx = 0x3200 ∧ sub = 6 then some (.u (capacityOf s n (codesOf s n)))
  else if idx = 0x3200 ∧ sub = 7 then some (.u (slotsInUse s n))
  else if idx = 0x3200 ∧ sub = 9 then some (.f (let r := spacingHz s n; f32OfRat (r.1 : Int) (r.2 * 1000000000)))
  else if idx = 0x3201 then
    let c := n / 32
    let e := s.nat (Od.entropy n)
    if sub = 0 then none
    else if !krytelm s c || !subExists s n then some (match s.val key with | .i _ => .i 0 | .f _ => .f 0 | _ => .u 0)
    else if sub = 3 then some (.u (baseBits e))
    else if sub = 4 then some (.f (if e = codeOff then 0 else subNetRate (fmtOf s c) e))
    else if sub = 5 then some (.f (let r := spacingHz s c
      f32OfRat ((2 * ((n % 32 : Nat) : Int) - (s.nat (Od.subcarrierCount c) - 1)) * r.1) (2 * r.2 * 1000000000)))
    else none
  else if idx = 0x3300 then
    if sub = 3 then some (.f (if krytelm s n then (let r := infoBitsNominal (fmtOf s n) (codesOf s n); f32OfRat (r.1 : Int) r.2) else 0))
    else if sub = 4 then some (.u (if krytelm s n then codedBitsPerBlock (fmtOf s n) (codesOf s n) else 0))
    else if sub = 5 then some (.u (if krytelm s n then overheadBitsMin (fmtOf s n) (codesOf s n) else 0))
    else if sub = 6 then some (.u (if krytelm s n then sealEntries (fmtOf s n) (codesOf s n) else 0))
    else if sub = 7 then some (.f (f32OfRat 65536000000000 (symbolHz s n)))
    else if sub = 9 then some (.f (let r := thresholdOf s n; f32OfRat (r.1 : Int) r.2))
    else if sub = 10 then some (.f (if krytelm s n then
        decodeLatency (fmtOf s n) (codesOf s n) (s.nat (Od.sieveWindow (portOf n))) (s.nat (Od.sieveIterations (portOf n)))
      else Config.profileLatency (profileOf s n)))
    else none
  else if (idx = 0x3302 ∨ idx = 0x3311) ∧ 1 ≤ sub ∧ !krytelm s n then
    some (match s.val key with | .f _ => .f 0 | _ => .u 0)
  else if idx = 0x3401 ∧ 1 ≤ sub ∧ !subExists s n then some (match s.val key with | .f _ => .f 0 | _ => .u 0)
  else if idx = 0x4100 ∧ sub = 7 then some (.u (requiredOf s n))
  else if idx = 0x4100 ∧ sub = 8 then some (.u (kindOf s n))
  else none

/-! ### Limits on changes (R233, R243, R277, R331) -/

/-- The layout of a carrier satisfies the minimum, and its placements fit its capacity. -/
def floorOk (s : State) (n : Nat) (codes : List Nat) (used : Nat) : Bool := decide (used ≤ capacityOf s n codes)
def minimumOk (s : State) (n : Nat) (codes : List Nat) : Bool := !krytelm s n || meetsMinimum (fmtOf s n) codes

/-- A placement rule of R331 that concerns one path, on the capacity `cap` of its carrier. -/
def pathOk (s : State) (view : Nat → Nat) (cap : Nat) (p : Placed) : Bool :=
  let ty := view (Od.clientType p.tray)
  let base := ty != 0 && !(isMember s p.tray && view (Od.aggregateTray p.tray) != p.tray) && !isHub s p.carrier && decide (1 ≤ p.count)
  if krytelm s p.carrier then
    base && decide (p.first + p.count ≤ cap) && (isMember s p.tray || decide (p.count = requiredOf s p.tray))
  else
    let prof := profileOf s p.carrier
    let tyOk : Bool := match prof with
      | 1 => decide (9 ≤ ty ∧ ty ≤ 11)
      | 2 => decide (3 ≤ ty ∧ ty ≤ 5)
      | 3 => decide (3 ≤ ty ∧ ty ≤ 5)
      | 4 => decide (3 ≤ ty ∧ ty ≤ 5)
      | 5 => decide (3 ≤ ty ∧ ty ≤ 5) || (decide (9 ≤ ty ∧ ty ≤ 11) && decide (p.first = 0))
      | _ => decide (12 ≤ ty ∧ ty ≤ 13)
    base && !p.prot && view (Od.protCarrier p.tray) = 255 && decide (p.count = 1) && decide (p.first < cap) && tyOk

/-- The protection rules of R331 for tray `t`. -/
def protectionOk (s : State) (view : Nat → Nat) (t : Nat) : Bool :=
  if view (Od.protCarrier t) = 255 then true
  else
    let ty := view (Od.clientType t)
    view (Od.workCarrier t) != 255 && view (Od.protCarrier t) != view (Od.workCarrier t) && !isMember s t
      && (clientKind ty ≥ 2 || view (Od.ethernetMapping t) = 1)

/-- IP-ZR+ 400G: one 400GBASE-R, or 100GBASE-R clients, not both (R333). -/
def zr400Ok (s : State) (view : Nat → Nat) (n : Nat) (ps : List Placed) : Bool :=
  profileOf s n != 5 || ps.length ≤ 1 || ps.all fun p => decide (view (Od.clientType p.tray) ≤ 5)

def noOverlap (ps : List Placed) : Bool :=
  ps.zipIdx.all fun a => ps.zipIdx.all fun b =>
    decide (a.2 = b.2) || decide (a.1.first + a.1.count ≤ b.1.first) || decide (b.1.first + b.1.count ≤ a.1.first)

/-- Every rule of R331 and R333 for carrier `n`, on a view of the placements and the capacity of a layout. -/
def placementsOk (s : State) (view : Nat → Nat) (n : Nat) (codes : List Nat) : Bool :=
  let ps := placementsIn s view n
  if isHub s n then
    decide (slotsUsed ps ≤ capacityOf s n codes) && ps.all fun p => decide (1 ≤ p.count)
  else
    let cap := capacityOf s n codes
    ps.all (fun p => pathOk s view cap p && protectionOk s view p.tray) && noOverlap ps && zr400Ok s view n ps

end Sys2Proof.Machine
end

