-- ==== Sys2Proof/Machine/Crypto.lean ====
section
/-! DEFINITION. The cryptographic functions that the spec names: SHA-384, HMAC and HKDF with it, AES-256, the key wrap of RFC
3394, GCM of NIST SP 800-38D, and ECDH on P-384 (R347, R360, R361, R367, R384). -/

namespace Sys2Proof.Machine

/-- Exclusive or of two octet strings. -/
def xorBytes (a b : Bytes) : Bytes := List.zipWith (· ^^^ ·) a b

/-- Cut a list into pieces of `n` (the last may be shorter); `fuel` pieces at most. -/
def chunks {α : Type} (n : Nat) : Nat → List α → List (List α)
  | 0, _ => []
  | fuel + 1, l => if l.isEmpty then [] else l.take n :: chunks n fuel (l.drop n)

def chunked {α : Type} (n : Nat) (l : List α) : List (List α) := chunks n (l.length / n + 1) l

/-! ### SHA-384 (FIPS 180-4) -/

/-- Integer roots by bisection: the largest r below 2^n with r^e ≤ v. -/
def rootBits (e v : Nat) : Nat → Nat → Nat
  | 0, r => r
  | n + 1, r => rootBits e v n (if (r + 2 ^ n) ^ e ≤ v then r + 2 ^ n else r)

/-- The first 80 primes. -/
def primes80 : List Nat := ((List.range 410).filter fun n => decide (2 ≤ n) && (List.range n).all fun d => decide (d < 2) || decide (n % d ≠ 0)).take 80

/-- First 64 bits of the fractional part of an `e`-th root. -/
def rootFrac (e p : Nat) : Nat := rootBits e (p * 2 ^ (64 * e)) 80 0 % 2 ^ 64

def shaK : List Nat := primes80.map (rootFrac 3)
def shaInit : List Nat := ((primes80.drop 8).take 8).map (rootFrac 2)

def rotr64 (x n : Nat) : Nat := (x / 2 ^ n) ||| (x * 2 ^ (64 - n) % 2 ^ 64)

/-- The 80 words of a message schedule, newest first. -/
def shaSchedule : Nat → List Nat → List Nat
  | 0, w => w
  | n + 1, w =>
    let w15 := w.getD 14 0
    let w2 := w.getD 1 0
    let s0 := rotr64 w15 1 ^^^ rotr64 w15 8 ^^^ (w15 / 2 ^ 7)
    let s1 := rotr64 w2 19 ^^^ rotr64 w2 61 ^^^ (w2 / 2 ^ 6)
    shaSchedule n ((w.getD 15 0 + s0 + w.getD 6 0 + s1) % 2 ^ 64 :: w)

/-- One round. -/
def shaRound (v : List Nat) (kw : Nat × Nat) : List Nat :=
  match v with
  | [a, b, c, d, e, f, g, h] =>
    let s1 := rotr64 e 14 ^^^ rotr64 e 18 ^^^ rotr64 e 41
    let ch := (e &&& f) ^^^ ((2 ^ 64 - 1 - e) &&& g)
    let t1 := (h + s1 + ch + kw.1 + kw.2) % 2 ^ 64
    let s0 := rotr64 a 28 ^^^ rotr64 a 34 ^^^ rotr64 a 39
    let mj := (a &&& b) ^^^ (a &&& c) ^^^ (b &&& c)
    [(t1 + s0 + mj) % 2 ^ 64, a, b, c, (d + t1) % 2 ^ 64, e, f, g]
  | v => v

/-- Compress one block of 128 octets. -/
def shaBlock (h : List Nat) (blk : Bytes) : List Nat :=
  let w := (shaSchedule 64 ((chunked 8 blk).map beNat).reverse).reverse
  List.zipWith (fun x y => (x + y) % 2 ^ 64) h ((shaK.zip w).foldl shaRound h)

/-- SHA-384. -/
def sha384 (m : Bytes) : Bytes :=
  let pad := (239 - m.length % 128) % 128
  let padded := m ++ [0x80#8] ++ List.replicate pad 0 ++ beBytes 16 (8 * m.length)
  -- the initial value of SHA-384: square roots of the ninth to the sixteenth prime
  (((chunked 128 padded).foldl shaBlock shaInit).take 6).flatMap (beBytes 8)

/-- HMAC with SHA-384 (RFC 2104). -/
def hmac384 (key m : Bytes) : Bytes :=
  let k0 := if key.length ≤ 128 then key else sha384 key
  let k := k0 ++ List.replicate (128 - k0.length) 0
  sha384 (k.map (· ^^^ 0x5C) ++ sha384 (k.map (· ^^^ 0x36) ++ m))

/-- The blocks of HKDF-Expand (RFC 5869). -/
def hkdfBlocks (prk info : Bytes) : Nat → Nat → Bytes → Bytes
  | 0, _, _ => []
  | n + 1, i, prev => let t := hmac384 prk (prev ++ info ++ leBytes 1 i); t ++ hkdfBlocks prk info n (i + 1) t

/-- The first `len` octets of HKDF-SHA-384. -/
def hkdf384 (ikm salt info : Bytes) (len : Nat) : Bytes := (hkdfBlocks (hmac384 salt ikm) info (len / 48 + 1) 1 []).take len

/-! ### AES-256 (FIPS 197) -/

/-- Product in GF(2⁸). -/
def gf8Mul : Nat → Nat → Nat → Nat
  | 0, _, _ => 0
  | n + 1, a, b =>
    let rest := gf8Mul n (let d := 2 * a; if d ≥ 256 then d ^^^ 0x11B else d) (b / 2)
    if b % 2 = 1 then a ^^^ rest else rest

def gmul (a b : Nat) : Nat := gf8Mul 8 a b

/-- The inverse in GF(2⁸), x to the power 254; 0 for 0. -/
def gf8Inv (x : Nat) : Nat :=
  let x2 := gmul x x
  let x3 := gmul x2 x
  let x6 := gmul x3 x3
  let x12 := gmul x6 x6
  let x15 := gmul x12 x3
  let x30 := gmul x15 x15
  let x60 := gmul x30 x30
  let x63 := gmul x60 x3
  let x126 := gmul x63 x63
  let x127 := gmul x126 x
  gmul x127 x127

def rotl8 (x n : Nat) : Nat := (x * 2 ^ n % 256) ||| (x / 2 ^ (8 - n))

def sboxOf (x : Nat) : Nat :=
  let i := gf8Inv x
  i ^^^ rotl8 i 1 ^^^ rotl8 i 2 ^^^ rotl8 i 3 ^^^ rotl8 i 4 ^^^ 0x63

def invSboxOf (y : Nat) : Nat := gf8Inv (rotl8 y 1 ^^^ rotl8 y 3 ^^^ rotl8 y 6 ^^^ 0x05)

/-- The values of `sboxOf`, octet `x` for `x`. -/
def sboxPacked : Nat :=
  0x16bb54b00f2d99416842e6bf0d89a18cdf2855cee9871e9b948ed9691198f8e19e1dc186b95735610ef6034866b53e708a8bbd4b1f74dde8c6b4a61c2e2578ba08ae7a65eaf4566ca94ed58d6d37c8e779e4959162acd3c25c2406490a3a32e0db0b5ede14b8ee4688902a22dc4f816073195d643d7ea7c41744975fec130ccd * 2 ^ 1024
    + 0xd2f3ff1021dab6bcf5389d928f40a351a89f3c507f02f94585334d43fbaaefd0cf584c4a39becb6a5bb1fc20ed00d153842fe329b3d63b52a05a6e1b1a2c830975b227ebe28012079a059618c323c7041531d871f1e5a534ccf73f362693fdb7c072a49cafa2d4adf04759fa7dc982ca76abd7fe2b670130c56f6bf27b777c63
/-- The values of `invSboxOf`, likewise. -/
def invSboxPacked : Nat :=
  0x7d0c2155631469e126d677ba7e042b17619953833cbbebc8b0f52aae4d3be0a0ef9cc9939f7ae52d0d4ab519a97f51605fec8027591012b131c7078833a8dd1ff45acd78fec0db9a2079d2c64b3e56fc1bbe18aa0e62b76f89c5291d711af1476edf751ce837f9e28535ade72274ac9673e6b4f0cecff297eadc674f4111913a * 2 ^ 1024
    + 0x6b8a130103bdafc1020f3fca8f1e2cd00645b3b80558e4f70ad3bc8c00abd890849d8da75746155edab9edfd5048706c92b6655dcc5ca4d41698688664f6f87225d18b6d49a25b76b224d92866a12e084ec3fa420b954cee3d23c2a632947b54cbe9dec444438e3487ff2f9b8239e37cfbd7f3819ea340bf38a53630d56a0952
def sub8 (x : Nat) : Nat := (sboxPacked >>> (8 * x)) % 256
def invSub8 (x : Nat) : Nat := (invSboxPacked >>> (8 * x)) % 256

/-- Key expansion: words of four octets, newest first. -/
def aesExpand : Nat → Nat → Nat → List (List Nat) → List (List Nat)
  | 0, _, _, w => w
  | n + 1, i, rcon, w =>
    let t := w.headD []
    let t' := if i % 8 = 0 then
        (match (t.drop 1 ++ t.take 1).map sub8 with
         | x :: r => (x ^^^ rcon) :: r
         | [] => [])
      else if i % 8 = 4 then t.map sub8 else t
    aesExpand n (i + 1) (if i % 8 = 0 then gmul rcon 2 else rcon) (List.zipWith (· ^^^ ·) (w.getD 7 []) t' :: w)

/-- The 15 round keys of an AES-256 key. -/
def aesKeys (key : Bytes) : List (List Nat) :=
  (chunked 4 (aesExpand 52 8 1 (chunked 4 (key.map BitVec.toNat)).reverse).reverse).map List.flatten

def mixColumn (c : List Nat) (m : List Nat) : List Nat :=
  (List.range 4).map fun r => (List.range 4).foldl (fun a i => a ^^^ gmul (m.getD ((i + 4 - r) % 4) 0) (c.getD i 0)) 0

/-- Row shifts: octet r + 4 c comes from column c + r, or c − r. -/
def shiftRows (b : List Nat) (inverse : Bool) : List Nat :=
  (List.range 16).map fun i => let r := i % 4; let c := i / 4; b.getD (r + 4 * ((c + (if inverse then 4 - r else r)) % 4)) 0

def xorNats (a b : List Nat) : List Nat := List.zipWith (· ^^^ ·) a b

/-- Encrypt one block of 16 octets. -/
def aesEncrypt (key blk : Bytes) : Bytes :=
  let ks := aesKeys key
  let s0 := xorNats (blk.map BitVec.toNat) (ks.headD [])
  let s1 := ((ks.drop 1).take 13).foldl (fun s k =>
    xorNats ((chunked 4 (shiftRows (s.map sub8) false)).flatMap fun c => mixColumn c [2, 3, 1, 1]) k) s0
  (xorNats (shiftRows (s1.map sub8) false) (ks.getD 14 [])).map (BitVec.ofNat 8)

/-- Decrypt one block of 16 octets. -/
def aesDecrypt (key blk : Bytes) : Bytes :=
  let ks := aesKeys key
  let s0 := xorNats (blk.map BitVec.toNat) (ks.getD 14 [])
  let s1 := ((ks.drop 1).take 13).reverse.foldl (fun s k =>
    (chunked 4 (xorNats ((shiftRows s true).map invSub8) k)).flatMap fun c => mixColumn c [14, 11, 13, 9]) s0
  (xorNats ((shiftRows s1 true).map invSub8) (ks.headD [])).map (BitVec.ofNat 8)

/-! ### Key wrap (RFC 3394) -/

/-- One inverse step t of the unwrap of four 64-bit blocks. -/
def unwrapStep (key : Bytes) (st : Bytes × List Bytes) (t : Nat) : Bytes × List Bytes :=
  let i := (t - 1) % 4
  let b := aesDecrypt key (xorBytes st.1 (beBytes 8 t) ++ st.2.getD i [])
  (b.take 8, st.2.set i (b.drop 8))

/-- The key in 40 wrapped octets; `none` when the integrity check fails. -/
def keyUnwrap (kek wrapped : Bytes) : Option Bytes :=
  if wrapped.length ≠ 40 then none else
  let r := ((List.range 24).reverse.map (· + 1)).foldl (unwrapStep kek) (wrapped.take 8, chunked 8 (wrapped.drop 8))
  if r.1 = List.replicate 8 (0xA6#8) then some r.2.flatten else none

/-! ### GCM (NIST SP 800-38D) -/

/-- Product in the field of GCM: 128-bit numbers whose most significant bit is the first. -/
def ghashMul : Nat → Nat → Nat → Nat → Nat
  | 0, _, _, z => z
  | n + 1, x, v, z =>
    ghashMul n x (if v % 2 = 1 then (v / 2) ^^^ (0xE1 * 2 ^ 120) else v / 2) (if x / 2 ^ n % 2 = 1 then z ^^^ v else z)

/-- GHASH over a string of whole blocks. -/
def ghash (h : Nat) (m : Bytes) : Nat :=
  (chunked 16 m).foldl (fun y b => ghashMul 128 (y ^^^ beNat b) h 0) 0

def padTo16 (m : Bytes) : Bytes := m ++ List.replicate ((16 - m.length % 16) % 16) 0

/-- Block `i` of the keystream: counter block 2 is the first. -/
def gcmBlock (key iv : Bytes) (i : Nat) : Bytes := aesEncrypt key (iv ++ beBytes 4 (i + 2))

/-- `len` octets of keystream from the start. -/
def gcmStream (key iv : Bytes) (len : Nat) : Bytes := (((List.range ((len + 15) / 16)).flatMap (gcmBlock key iv))).take len

/-- `len` bits of keystream from bit `off` on. -/
def gcmBits (key iv : Bytes) (off len : Nat) : List Bool :=
  if len = 0 then [] else
  let b0 := off / 128
  let b1 := (off + len - 1) / 128
  let bs := (List.range (b1 + 1 - b0)).flatMap fun i => gcmBlock key iv (b0 + i)
  ((bs.flatMap fun b => (List.range 8).map fun j => b.getMsbD j).drop (off - 128 * b0)).take len

/-- The tag over authenticated data and ciphertext. -/
def gcmTag (key iv aad ct : Bytes) : Bytes :=
  let h := beNat (aesEncrypt key (List.replicate 16 0))
  let s := ghash h (padTo16 aad ++ padTo16 ct ++ beBytes 8 (8 * aad.length) ++ beBytes 8 (8 * ct.length))
  xorBytes (beBytes 16 s) (aesEncrypt key (iv ++ beBytes 4 1))

def gcmSeal (key iv aad pt : Bytes) : Bytes × Bytes :=
  let ct := xorBytes pt (gcmStream key iv pt.length)
  (ct, gcmTag key iv aad ct)

def gcmOpen (key iv aad ct tag : Bytes) : Option Bytes :=
  if gcmTag key iv aad ct = tag then some (xorBytes ct (gcmStream key iv ct.length)) else none

/-! ### P-384 -/

def p384 : Nat := 2 ^ 384 - 2 ^ 128 - 2 ^ 96 + 2 ^ 32 - 1
def p384n : Nat := 0xffffffffffffffffffffffffffffffffffffffffffffffffc7634d81f4372ddf581a0db248b0a77aecec196accc52973
def p384b : Nat := 0xb3312fa7e23ee7e4988e056be3f82d19181d9c6efe8141120314088f5013875ac656398d8a2ed19d2a85c8edd3ec2aef
def p384gx : Nat := 0xaa87ca22be8b05378eb1c71ef320ad746e1d3b628ba79b9859f741e082542a385502f25dbf55296c3a545e3872760ab7
def p384gy : Nat := 0x3617de4a96262c6f5d9e98bf9292dc29f8f41dbd289a147ce9da3113b5f0b8c00a60b1ce1d7e819d7a431d7c90ea0e5f

/-- a^e mod m, `n` bits of e. -/
def powMod (m : Nat) : Nat → Nat → Nat → Nat
  | 0, _, _ => 1
  | n + 1, a, e => let r := powMod m n (a * a % m) (e / 2); if e % 2 = 1 then a * r % m else r

def invMod (m a : Nat) : Nat := powMod m 384 (a % m) (m - 2)

/-- A point in Jacobian coordinates: (X, Y, Z) stands for (X ÷ Z², Y ÷ Z³), and Z = 0 for the point at infinity. -/
abbrev Jac := Nat × Nat × Nat

/-- a − b in the field. -/
def fieldSub (a b : Nat) : Nat := (a + p384 - b % p384) % p384

def jacDouble (q : Jac) : Jac :=
  let (x, y, z) := q
  if z = 0 ∨ y = 0 then (1, 1, 0) else
  let z2 := z * z % p384
  let y2 := y * y % p384
  let s := 4 * x * y2 % p384
  let m := 3 * (x + z2) * fieldSub x z2 % p384
  let x' := fieldSub (m * m) (2 * s)
  (x', fieldSub (m * fieldSub s x') (8 * y2 * y2), 2 * y * z % p384)

def jacAdd (a b : Jac) : Jac :=
  let (x1, y1, z1) := a
  let (x2, y2, z2) := b
  if z1 = 0 then b else if z2 = 0 then a else
  let q1 := z1 * z1 % p384
  let q2 := z2 * z2 % p384
  let u1 := x1 * q2 % p384
  let u2 := x2 * q1 % p384
  let s1 := y1 * q2 * z2 % p384
  let s2 := y2 * q1 * z1 % p384
  if u1 = u2 then (if s1 = s2 then jacDouble a else (1, 1, 0)) else
  let h := fieldSub u2 u1
  let r := fieldSub s2 s1
  let h2 := h * h % p384
  let h3 := h * h2 % p384
  let x' := fieldSub (r * r) (h3 + 2 * u1 * h2)
  (x', fieldSub (r * fieldSub (u1 * h2) x') (s1 * h3), h * z1 * z2 % p384)

/-- k times a point, `n` bits of k. -/
def jacMul : Nat → Nat → Jac → Jac
  | 0, _, _ => (1, 1, 0)
  | n + 1, k, q =>
    if k = 0 then (1, 1, 0) else
    let r := jacMul n (k / 2) (jacDouble q)
    if k % 2 = 1 then jacAdd q r else r

/-- A point with its two coordinates; `none` is the point at infinity. -/
def jacPoint (q : Jac) : Option (Nat × Nat) :=
  let (x, y, z) := q
  if z = 0 then none else
  let i := invMod p384 z
  some (x * i * i % p384, y * (i * i % p384) * i % p384)

/-- k times a point of the curve. -/
def ecMul (k : Nat) (q : Nat × Nat) : Option (Nat × Nat) := jacPoint (jacMul 384 k (q.1, q.2, 1))

def onCurve (x y : Nat) : Bool := decide (x < p384) && decide (y < p384) && decide (y * y % p384 = (x * x * x + (p384 - 3) * x + p384b) % p384)

/-- The point of a SEC 1 string, uncompressed (97 octets) or compressed (49 octets). -/
def pointOf (b : Bytes) : Option (Nat × Nat) :=
  let x := beNat ((b.drop 1).take 48)
  if b.length = 97 ∧ b.head? = some 4 then
    let y := beNat (b.drop 49)
    if onCurve x y then some (x, y) else none
  else if b.length = 49 ∧ (b.head? = some 2 ∨ b.head? = some 3) then
    let y := powMod p384 384 ((x * x * x + (p384 - 3) * x + p384b) % p384) ((p384 + 1) / 4)
    let y' := if y % 2 = (b.headD 0).toNat % 2 then y else p384 - y
    if onCurve x y' then some (x, y') else none
  else none

def uncompressed (q : Option (Nat × Nat)) : Bytes :=
  match q with
  | some (x, y) => (4#8) :: beBytes 48 x ++ beBytes 48 y
  | none => List.replicate 97 0
def compressed (q : Option (Nat × Nat)) : Bytes :=
  match q with
  | some (x, y) => BitVec.ofNat 8 (2 + y % 2) :: beBytes 48 x
  | none => List.replicate 49 0

/-- A private scalar made of any number. -/
def scalarOf (n : Nat) : Nat := n % (p384n - 1) + 1

/-- The public key of a private scalar. -/
def publicOf (d : Nat) : Option (Nat × Nat) := ecMul d (p384gx, p384gy)

/-- The 48-octet x-coordinate of the shared point; `none` for a peer that is no point of the curve. -/
def ecdh (d : Nat) (peer : Bytes) : Option Bytes := ((pointOf peer).bind (ecMul d)).map fun q => beBytes 48 q.1

/-- The signature (r, s) of ecdsa_secp384r1_sha384 over `msg` verifies under the public key `q` (FIPS 186-5). -/
def ecdsaVerify (q : Nat × Nat) (msg : Bytes) (r s : Nat) : Bool :=
  if r = 0 ∨ p384n ≤ r ∨ s = 0 ∨ p384n ≤ s then false else
  let w := invMod p384n s
  let u1 := beNat (sha384 msg) * w % p384n
  let u2 := r * w % p384n
  match jacPoint (jacAdd (jacMul 384 u1 (p384gx, p384gy, 1)) (jacMul 384 u2 (q.1, q.2, 1))) with
  | some v => v.1 % p384n = r
  | none => false

/-- A SubjectPublicKeyInfo of an ECDSA P-384 key up to its point (RFC 5480; PRESUMED, assumption 31). -/
def spkiHeader : Bytes := [0x30, 0x76, 0x30, 0x10, 0x06, 0x07, 0x2A, 0x86, 0x48, 0xCE, 0x3D, 0x02, 0x01, 0x06, 0x05, 0x2B, 0x81, 0x04, 0x00, 0x22,
  0x03, 0x62, 0x00]

/-- The key of a SubjectPublicKeyInfo, where it is one of P-384. -/
def keyOfSpki (b : Bytes) : Option (Nat × Nat) := if b.take 23 = spkiHeader ∧ b.length = 120 then pointOf (b.drop 23) else none

end Sys2Proof.Machine
end

