-- ==== Sys2Proof/Machine/Stockpot.lean ====
section
/-! DEFINITION. The Stockpot: pages, tags, regions, correction, scrubbing, poisoning, the log and retirement (R415–R429). -/

namespace Sys2Proof.Machine

def State.page (s : State) (a : Nat) : Page := Tbl.get (fun _ => {}) s.pages a
def State.setPage (s : State) (a : Nat) (x : Page) : State := { s with pages := Tbl.put (fun _ => {}) s.pages a x }

/-- Pages of a stack, and the first spare (R415). -/
def stackSize : Nat := 4194304
def firstSpare : Nat := 4128768

/-- The stack and the page number of a page address (R415). -/
def pageStack (a : Nat) : Nat := a / stackSize
def pageNumber (a : Nat) : Nat := a % stackSize

/-- The array page that serves a page address: the spare of a retired page (R420, R428); the later list entry supersedes. -/
def physical (s : State) (a : Nat) : Nat := (s.stockpot.remap.foldl (fun r e => if e.1 = a then e.2 else r) a)

/-- The page address that an array page serves; none for a page that a remap has replaced. -/
def logical (s : State) (q : Nat) : Option Nat :=
  let a := (s.stockpot.remap.foldl (fun r e => if e.2 = q then e.1 else r) q)
  if physical s a = q then some a else none

/-- A page is poisoned (R420, R425). -/
def Page.poisoned (x : Page) : Bool := !x.written && x.history = 7

/-! ### Regions (R416, R417) -/

def inRuns (runs : List (Nat × Nat)) (a : Nat) : Bool := runs.any fun r => decide (r.1 ≤ a ∧ a < r.1 + r.2)
def runsLength (runs : List (Nat × Nat)) : Nat := (runs.map (·.2)).foldl (· + ·) 0

def State.runs (s : State) (key : Nat) : List (Nat × Nat) := Tbl.get (fun _ => []) s.stockpot.extents key
def State.setRuns (s : State) (key : Nat) (r : List (Nat × Nat)) : State :=
  { s with stockpot := { s.stockpot with extents := Tbl.put (fun _ => []) s.stockpot.extents key r } }

/-- The region number of an allocation key on a stack (R416). -/
def regionOfKey (key a : Nat) : Nat := if key < 1000 then key / 4 else 2 + pageStack a

/-- The region of a page; 255 for a page of a free pool (R427). -/
def regionOf (s : State) (a : Nat) : Nat :=
  match s.stockpot.extents.find? fun e => inRuns e.2 a with
  | some e => regionOfKey e.1 a
  | none => 255

/-- The pages of region `r`, as runs; a delay pool is its stack's delay regions together (R416). -/
def regionRuns (s : State) (r : Nat) : List (Nat × Nat) :=
  if 2 ≤ r ∧ r ≤ 5 then
    s.stockpot.extents.flatMap fun e => if 1000 ≤ e.1 then e.2.filter fun u => pageStack u.1 = r - 2 else []
  else (List.range 4).flatMap fun x => s.runs (4 * r + x)

/-- The fill of a region: all-ones for queue and delay pages, else all-zeros (R416). -/
def fillOnes (r : Nat) : Bool := decide (1 ≤ r ∧ r ≤ 5)
def regionFill (r : Nat) : Bytes := List.replicate 4096 (if fillOnes r then 255 else 0)

def insertRun (x : Nat × Nat) : List (Nat × Nat) → List (Nat × Nat)
  | [] => [x]
  | y :: t => if x.1 ≤ y.1 then x :: y :: t else y :: insertRun x t

/-- The gaps that sorted runs leave in [lo, hi). -/
def gaps : List (Nat × Nat) → Nat → Nat → List (Nat × Nat)
  | [], lo, hi => if lo < hi then [(lo, hi - lo)] else []
  | (b, n) :: t, lo, hi => (if lo < b then [(lo, min b hi - lo)] else []) ++ gaps t (max lo (b + n)) hi

/-- The pages of a stack's pool that may be allocated, as runs: not allocated and not poisoned (R417). -/
def freeRuns (s : State) (x : Nat) : List (Nat × Nat) :=
  let used := (s.stockpot.extents.flatMap (·.2)).filter fun u => pageStack u.1 = x
  let bad := s.pages.filterMap fun p => if p.2.poisoned then (logical s p.1).bind fun a => if pageStack a = x then some (a, 1) else none else none
  gaps ((used ++ bad).foldr insertRun []) (x * stackSize) (x * stackSize + firstSpare)

/-- `FreePages`: the allocatable pages of a stack. -/
def freePages (s : State) (x : Nat) : Nat := runsLength (freeRuns s x)

/-- The first `n` pages of some runs. -/
def takeRuns : Nat → List (Nat × Nat) → List (Nat × Nat)
  | _, [] => []
  | n, (b, k) :: t => if n = 0 then [] else if k < n then (b, k) :: takeRuns (n - k) t else [(b, n)]

/-- The runs rotated to begin at page `b`. -/
def rotateRuns (b : Nat) (runs : List (Nat × Nat)) : List (Nat × Nat) :=
  (runs.filterMap fun r => if b ≤ r.1 then some r else if b < r.1 + r.2 then some (b, r.1 + r.2 - b) else none)
  ++ (runs.filterMap fun r => if r.1 + r.2 ≤ b then some r else if r.1 < b then some (r.1, b - r.1) else none)

/-- Release a region's pages: written tag and history are cleared, unless a page is poisoned (R417). -/
def releaseRuns (s : State) (key : Nat) : State :=
  let runs := s.runs key
  let s := { s with pages := s.pages.filter fun p => p.2.poisoned || !((logical s p.1).map (inRuns runs)).getD false }
  s.setRuns key []

/-- Allocate `n` pages of stack `x` to a key; `none` when the pool cannot meet it (R417). -/
def allocRuns (s : State) (key x n : Nat) : Option State :=
  if freePages s x < n then none
  else some (s.setRuns key (takeRuns n (rotateRuns (x * stackSize + Config.placement key x % firstSpare) (freeRuns s x))))

/-- Replace a key's pages by `n` new ones. -/
def reallocRuns (s : State) (key x n : Nat) : Option State := allocRuns (releaseRuns s key) key x n

/-! ### The log and page reads (R418, R421–R425, R427) -/

/-- Add a log entry; beyond 4,096 the oldest goes (R427). -/
def stockpotLog (s : State) (a kind errors : Nat) : State :=
  let e := s.stampNow ++ leBytes 3 a ++ leBytes 1 kind ++ leBytes 1 errors ++ leBytes 1 (regionOf s a)
  let full := decide (4096 ≤ s.stockpot.log.length)
  let log := (if full then s.stockpot.log.drop 1 else s.stockpot.log) ++ [e]
  let s := { s with stockpot := { s.stockpot with log := log } }
  if full then s.bump Od.logOverwritten else s

/-- The statuses of R421. -/
inductive PageStatus where
  | ok | corrected | neverWritten | poisoned
  deriving DecidableEq, Repr

/-- A read that returns `POISONED` is counted (R425). -/
def countPoisonedRead (s : State) (a : Nat) : State :=
  let s := s.bump Od.poisonedReads
  let r := regionOf s a
  if r < 38 then s.bump (Od.regionPoisonedReads r) else s

/-- Poison a page (R425); `injected` marks its event (R441). -/
def poisonPage (s : State) (a : Nat) (injected : Bool) : State :=
  let s := s.setPage (physical s a) { history := 7 }
  (stockpotLog s a 3 255).occur 0x10 a injected

/-- One read of page address `a` in which the code finds `errors` bit errors; `scrub` for the scrubber's own (R421–R425). A
corrected page is written back in place and its History incremented (R422). -/
def readPage (s : State) (a errors : Nat) (scrub : Bool) : PageStatus × Bytes × State :=
  let q := physical s a
  let x := s.page q
  let r := regionOf s a
  let fill := regionFill r
  let stack := pageStack a
  let s := s.countEv 5 stack (if scrub then 4 else 1) 1
  if x.poisoned then (.poisoned, fill, countPoisonedRead s a)
  else if !x.written then
    let s := s.bump Od.stockpotUnwrittenReads
    let s := if r < 38 then s.bump (Od.unwrittenReads r) else s
    let s := if decide (r < 38) && s.flag (Od.strict r) then (stockpotLog s a 4 0).occur 0x0D a false else s
    (.neverWritten, fill, s)
  else if errors = 0 then
    (.ok, x.data, if scrub then s.setPage q { x with history := 0, persistent := false } else s)
  else
    let t := s.nat Od.activeStrength
    if t < errors then
      let s := poisonPage s a false
      (.poisoned, fill, countPoisonedRead s a)
    else
      let h := min (x.history + 1) 7
      let s := (s.bump Od.correctedReads).bumpBy Od.stockpotControlCorrectedBits errors
      let s := s.countEv 5 stack 3 1
      let s := s.setPage q { x with history := h }
      let s := if 3 * t < 4 * errors then (((stockpotLog s a 1 errors).bump Od.nearLimitReads).occur 0x0E a false) else s
      let s := if scrub && decide (s.nat Od.persistentThreshold ≤ h) && !x.persistent then
          ((stockpotLog (s.setPage q { x with history := h, persistent := true }) a 2 errors).occur 0x0F a false)
        else s
      (.corrected, x.data, s)

/-- A user's write of a whole page; a poisoned page discards it (R420, R422, R425). -/
def writePage (s : State) (a : Nat) (data : Bytes) : State :=
  let q := physical s a
  let x := s.page q
  let s := s.countEv 5 (pageStack a) 2 1
  if x.poisoned then s else s.setPage q { data := data.take 4096 ++ List.replicate (4096 - data.length) 0, written := true }

/-- A page address of R415. -/
def pageOk (a : Nat) : Bool := decide (a < 4 * stackSize)

/-- Stack `x` is powered and out of retention: its mapping-die half is up too (R41, R439). -/
def stackServes (s : State) (x : Nat) : Bool := s.domUp (domStack x) && s.domUp (domHalf x)

/-- The stack of a page answers. -/
def stackUp (s : State) (a : Nat) : Bool := stackServes s (pageStack a)

def execStockpotPageRead (a errors : Nat) (s : State) : Out :=
  onUnit (pageOk a) s fun s => if stackUp s a then (readPage s a errors false).2.2 else s

def execStockpotPageWrite (a : Nat) (data : Bytes) (s : State) : Out :=
  onUnit (pageOk a) s fun s => if stackUp s a then writePage s a data else s

/-! ### The scrubber (R423, R426) -/

/-- The next page number at or after `pos` that the scrubber reads on a stack: written, a retired page through its spare. -/
def nextScrub (s : State) (x pos : Nat) : Option Nat :=
  s.pages.foldl (fun best p =>
    if p.2.written then
      match logical s p.1 with
      | some a => if pageStack a = x && decide (pos ≤ pageNumber a) && decide (pageNumber a < (best.getD stackSize)) then some (pageNumber a) else best
      | none => best
    else best) none

/-- A sweep of stack `x` ends (R426). -/
def sweepEnd (s : State) (x : Nat) : State :=
  let t0 := (s.stockpot.sweepStart.lookup x).getD 0
  let s := (s.setN (Od.scrubPosition x) 0).setF (Od.lastSweepSeconds x) (f32OfRat ((s.uptime - t0 : Nat) : Int) 1000000)
  let swept := if s.stockpot.swept.contains x then s.stockpot.swept else x :: s.stockpot.swept
  let s := { s with stockpot := { s.stockpot with sweepStart := Tbl.ins s.stockpot.sweepStart x s.uptime, swept := if swept.length = 4 then [] else swept } }
  if swept.length = 4 then s.bump Od.scrubPasses else s

/-- The scrubber's next read on stack `x` (R426). -/
def execScrubRead (x errors : Nat) (s : State) : Out :=
  onUnit (x < 4) s fun s =>
    if !stackServes s x then s else
    match nextScrub s x (s.nat (Od.scrubPosition x)) with
    | none => sweepEnd s x
    | some n =>
      let s := (readPage s (x * stackSize + n) errors true).2.2
      let s := s.setN (Od.scrubPosition x) (n + 1)
      if (nextScrub s x (n + 1)).isNone then sweepEnd s x else s

/-! ### Commands (R426, R428) -/

/-- The spares of stack `x` that the list has used (R429). -/
def sparesUsed (s : State) (x : Nat) : Nat := (s.stockpot.remap.filter fun e => pageStack e.1 = x).length

/-- `StockpotCommand` code 1 (R428). -/
def retirePage (s : State) : Status × State :=
  let a := s.nat Od.pageAddress
  let x := pageStack a
  if !pageOk a || decide (firstSpare ≤ pageNumber a) then (.range, s)
  else if !s.running then (.state, s)
  else if decide (stackSize - firstSpare ≤ sparesUsed s x) || decide (8188 ≤ s.flash.retired.length) then (.resource, s)
  else
    let q := physical s a
    let old := s.page q
    let spare := x * stackSize + firstSpare + sparesUsed s x
    let s := (s.setPage q {}).setPage spare (if old.written then { data := old.data, written := true } else {})
    let s := { s with stockpot := { s.stockpot with remap := s.stockpot.remap ++ [(a, spare)] },
                      flash := { s.flash with retired := s.flash.retired ++ [(a, spare)], listSeq := s.flash.listSeq + 1 } }
    (.ok, stockpotLog s a 5 0)

/-- A delay region exists on stack `x`. -/
def delayRegionOn (s : State) (x : Nat) : Bool :=
  s.stockpot.extents.any fun e => decide (1000 ≤ e.1) && e.2.any fun u => pageStack u.1 = x

/-- Any carrier is in hub mode. -/
def anyHub (s : State) : Bool := (List.range 64).any fun n => s.flag (Od.hubMode n)

/-- A channel in `RUNNING` or `PAUSED` names capture region CRc. -/
def regionInUse (s : State) (c : Nat) : Bool :=
  (List.range 32).any fun d => (s.nat (Od.dmaState d) = 1 || s.nat (Od.dmaState d) = 2)
    && (s.nat (Od.destRegion d) = c || (s.nat (Od.sourceKind d) = 6 && s.nat (Od.sourceInstance d) = c))

/-- The Written and History bits of every page in `runs` are cleared; Retired stays (R426). -/
def clearRuns (s : State) (runs : List (Nat × Nat)) : State :=
  { s with pages := s.pages.filter fun p => !((logical s p.1).map (inRuns runs)).getD false }

/-- `StockpotCommand` code 2, for what a page holds (R426). A delay pool without a delay region is its free pages. -/
def initialiseRegion (s : State) : Status × State :=
  let r := s.nat Od.targetRegion
  if r < 2 then (if anyHub s then (.state, s) else (.ok, clearRuns s (regionRuns s r)))
  else if r < 6 then
    (if delayRegionOn s (r - 2) then (.state, s)
     else
       let base := (r - 2) * stackSize
       (.ok, { s with pages := s.pages.filter fun p => match logical s p.1 with
          | some a => !(pageStack a = r - 2 && regionOf s a = 255 && decide (a < base + firstSpare))
          | none => true }))
  else if regionInUse s (r - 6) then (.state, s)
  else (.ok, clearRuns s (regionRuns s r))

/-- `StockpotCommand` code 3: the counters of 6000h, 6001h, 6010h and 6101h. -/
def stockpotClearCounters (s : State) : Status × State :=
  (.ok, s.clearObjs fun k =>
    let i := keyIdx k
    let j := keySub k
    (i = 0x6000 && (j = 5 || j = 6 || j = 7 || j = 8 || j = 11 || j = 12)) || (i = 0x6010 && (j = 6 || j = 7))
      || (i = 0x6101 && (j = 5 || j = 6 || j = 7)))

/-- `StockpotCommand` code 4. -/
def clearLog (s : State) : Status × State :=
  (.ok, { s.setN Od.logOverwritten 0 with stockpot := { s.stockpot with log := [] } })

/-- `StockpotCommand` code 5: the list is erased from the next `BOOT`; remaps stay in force until then (R428). -/
def eraseRetirementList (s : State) : Status × State := (.ok, { s with flash := { s.flash with retiredErased := true } })

def execRetirePage (k : Nat) (s : State) : Out := .next (hostCmd s k Od.stockpotCommand 1 retirePage)
def execInitialiseRegion (k : Nat) (s : State) : Out := .next (hostCmd s k Od.stockpotCommand 2 initialiseRegion)
def execStockpotClearCounters (k : Nat) (s : State) : Out := .next (hostCmd s k Od.stockpotCommand 3 stockpotClearCounters)
def execClearLog (k : Nat) (s : State) : Out := .next (hostCmd s k Od.stockpotCommand 4 clearLog)
def execEraseRetirementList (k : Nat) (s : State) : Out := .next (hostCmd s k Od.stockpotCommand 5 eraseRetirementList)

/-! ### Start-up (R78) and power -/

/-- Every page is unwritten. -/
def pagesLost (s : State) : State := { s with pages := [] }

/-- Give an owner a place, where there is room. -/
def placeRuns (s : State) (key x n : Nat) : State := (allocRuns s key x n).getD s

/-- Step 8 of the start-up: tags and histories cleared, remaps restored from flash, the configured strength taken, and the fixed
regions placed. -/
def stockpotInitialise (s : State) : State :=
  let retired := if s.flash.retiredErased then [] else s.flash.retired
  let seq := if s.flash.retiredErased then s.flash.listSeq + 1 else s.flash.listSeq
  let starts := (List.range 4).map fun x => (x, s.uptime)
  let s := pagesLost s
  let s := { s with flash := { s.flash with retired := retired, retiredErased := false, listSeq := seq } }
  let s := { s with stockpot := { s.stockpot with extents := [], remap := retired, sweepStart := starts, swept := [] } }
  let s := s.setN Od.activeStrength (s.nat Od.correctionStrength)
  let s := (List.range 4).foldl (fun s x => placeRuns s x x 16384) s
  let s := (List.range 4).foldl (fun s x => placeRuns s (4 + x) x (s.nat (Od.queuePages x))) s
  (List.range 32).foldl (fun s c =>
    let x := s.nat (Od.regionStack (6 + c)) % 4
    placeRuns s (4 * (6 + c) + x) x (s.nat (Od.stockpotRegionRegionPages (6 + c)))) s

/-! ### Objects -/

/-- The refusals of writes (R417). -/
def stockpotCheck (s c : State) (key : Nat) : Status :=
  let idx := keyIdx key
  let x := keyInst key
  let sub := keySub key
  if idx = 0x6001 ∧ sub = 1 then
    (if anyHub s then .state else if (reallocRuns s (4 + x) x (c.nat key)).isNone then .resource else .ok)
  else if idx = 0x6004 ∧ sub = 1 then (if pageOk (c.nat key) then .ok else .range)
  else if idx = 0x6012 ∧ sub = 1 then (if pageOk (c.nat key) then .ok else .range)
  else if idx = 0x6010 ∧ (sub = 2 ∨ sub = 3) then
    (if x < 6 then .readOnly
     else if 3 < c.nat (Od.regionStack x) then .range
     else if regionInUse s (x - 6) || ((List.range 8).any fun k => match (s.session k).block with
          | some b => b.idx = 0x6011 && b.inst = x - 6
          | none => false) then .state
     else
       let freed := (List.range 4).foldl (fun s y => releaseRuns s (4 * x + y)) s
       if (allocRuns freed (4 * x) (c.nat (Od.regionStack x)) (c.nat (Od.stockpotRegionRegionPages x))).isNone then .resource else .ok)
  else .ok

/-- The effect of an accepted write (R417). -/
def stockpotAfter (s : State) (key : Nat) : State :=
  let idx := keyIdx key
  let x := keyInst key
  let sub := keySub key
  if idx = 0x6001 ∧ sub = 1 then (reallocRuns s (4 + x) x (s.nat key)).getD s
  else if idx = 0x6010 ∧ (sub = 2 ∨ sub = 3) then
    let y := s.nat (Od.regionStack x)
    let s := (List.range 4).foldl (fun s z => releaseRuns s (4 * x + z)) s
    (allocRuns s (4 * x + y) y (s.nat (Od.stockpotRegionRegionPages x))).getD s
  else s

/-- `RegionKind` (R416). -/
def regionKind (r : Nat) : Nat := if r = 0 then 1 else if r = 1 then 2 else if r < 6 then 3 else 4

/-- The retirement list copy in use (R429). -/
def retirementListBlock (s : State) : Bytes :=
  let es := s.flash.retired.flatMap fun e => leBytes 4 e.1
  let head := leBytes 4 s.flash.listSeq ++ leBytes 4 s.flash.retired.length
  head ++ leBytes 4 (crc32 (head ++ es)) ++ leBytes 4 0 ++ es

/-- Objects that are read from the running hardware. -/
def stockpotRead (s : State) (key : Nat) : Option Val :=
  let idx := keyIdx key
  let x := keyInst key
  let sub := keySub key
  if idx = 0x6000 ∧ sub = 9 then some (.u (s.pages.filter fun p => p.2.persistent).length)
  else if idx = 0x6000 ∧ sub = 10 then some (.u (s.pages.filter fun p => p.2.poisoned).length)
  else if idx = 0x6001 ∧ sub = 2 then some (.u (freePages s x))
  else if idx = 0x6001 ∧ sub = 3 then some (.u (stackSize - firstSpare - sparesUsed s x))
  else if idx = 0x6001 ∧ sub = 4 then some (.u ((s.stockpot.remap.map (·.1)).filter fun a => pageStack a = x).eraseDups.length)
  else if idx = 0x6001 ∧ sub = 5 then some (.u (if s.domUp (domStack x) then (if s.domUp (domHalf x) then 1 else 2) else if s.boot.railsOn then 2 else 0))
  else if idx = 0x6002 then some (.o (s.stockpot.log.flatMap id))
  else if idx = 0x6003 ∧ sub = 1 then some (.u s.stockpot.log.length)
  else if idx = 0x6010 ∧ sub = 1 then some (.u (regionKind x))
  else if idx = 0x6010 ∧ sub = 2 ∧ x < 6 then some (.u (if x < 2 then 4 else x - 2))
  else if idx = 0x6010 ∧ sub = 3 ∧ x < 6 then some (.u (if 2 ≤ x then freePages s (x - 2) + runsLength (regionRuns s x) else runsLength (regionRuns s x)))
  else if idx = 0x6010 ∧ sub = 5 then some (.u (if fillOnes x then 1 else 0))
  else if idx = 0x6010 ∧ sub = 8 then
    some (.u (s.pages.filter fun p => p.2.written && ((logical s p.1).map fun a => decide (regionOf s a = x)).getD false).length)
  else none

end Sys2Proof.Machine
end

