-- ==== Sys2Proof/Machine/Trays.lean ====
section
/-! DEFINITION. Trays at receive: path conditions, the selector, delay equalisation, and what a tray delivers (chapter 11). -/

namespace Sys2Proof.Machine

def State.tray (s : State) (t : Nat) : Tray := Tbl.get (fun _ => {}) s.trays t
def State.setTray (s : State) (t : Nat) (x : Tray) : State := { s with trays := Tbl.put (fun _ => {}) s.trays t x }

def Tray.path (x : Tray) (prot : Bool) : TrayPath := if prot then x.prot else x.work
def Tray.setPath (x : Tray) (prot : Bool) (p : TrayPath) : Tray := if prot then { x with prot := p } else { x with work := p }
def State.trayPath (s : State) (t : Nat) (prot : Bool) : TrayPath := (s.tray t).path prot
def State.setTrayPath (s : State) (t : Nat) (prot : Bool) (p : TrayPath) : State := s.setTray t ((s.tray t).setPath prot p)

/-- The carrier of a path; 255 when it is not placed. -/
def pathCarrier (s : State) (t : Nat) (prot : Bool) : Nat := if prot then s.nat (Od.protCarrier t) else s.nat (Od.workCarrier t)
def pathFirst (s : State) (t : Nat) (prot : Bool) : Nat := if prot then s.nat (Od.protFirstSlot t) else s.nat (Od.workFirstSlot t)
def pathPlaced (s : State) (t : Nat) (prot : Bool) : Bool := pathCarrier s t prot < 64
def isProtected (s : State) (t : Nat) : Bool := pathPlaced s t false && pathPlaced s t true

/-- The carrier is in `TRACK` and its blocks are aligned (R335, R337). -/
def carrierGood (s : State) (n : Nat) : Bool :=
  s.nat (Od.rxState n) = 3 && s.nat (Od.alignState n) = 2 && !injActs s (srcCarrier n 13)

def rxSealKey (t : Nat) (prot : Bool) : Nat := if prot then Od.protRxState t else Od.workRxState t
def txPhaseKey (t : Nat) (prot : Bool) : Nat := if prot then Od.protTxPhase t else Od.workTxPhase t

/-- A path is in signal fail (R337, R342, R353, R356). -/
def pathSf (s : State) (t : Nat) (prot : Bool) : Bool :=
  let n := pathCarrier s t prot
  let x := s.trayPath t prot
  pathPlaced s t prot && (!carrierGood s n || (krytelm s n && x.sf) || x.rx.bad || injActs s (srcTray t 6) || s.nat (rxSealKey t prot) = 1
    || decide (capacityOf s n (codesOf s n) < pathFirst s t prot + s.nat (Od.slotCount t)))

/-- Blocks of a carrier in 100 ms × 1,000,000, for the fraction of R337. -/
def blocksPer100ms (s : State) (n : Nat) : Nat := symbolHz s n * 100000 / 65536

/-- The signal degrade rule of R337 on the blocks of the last 100 ms. -/
def degradeRule (s : State) (t : Nat) (prot : Bool) : Bool :=
  let x := s.trayPath t prot
  let errs := (x.marked.filter fun u => decide (s.uptime < u + 100000)).length
  let lhs := errs * 1000000 * 1000000
  let rhs := s.nat (Od.sdThreshold t) * blocksPer100ms s (pathCarrier s t prot)
  if x.sd then decide (rhs ≤ 2 * lhs) else decide (rhs ≤ lhs) && decide (0 < errs)

def pathSd (s : State) (t : Nat) (prot : Bool) : Bool := pathPlaced s t prot && (s.trayPath t prot).sd

/-- Bring a path's degrade condition and its held requests up to date: with `HoldOff` 0 a condition counts at once (R337). -/
def pathJudge (s : State) (t : Nat) (prot : Bool) : State :=
  let s := let x := s.trayPath t prot
           s.setTrayPath t prot { x with sd := degradeRule s t prot, marked := x.marked.filter fun u => decide (s.uptime < u + 100000) }
  let x := s.trayPath t prot
  let sf := pathSf s t prot
  let sd := pathSd s t prot
  let now := s.nat (Od.holdOff t) = 0
  s.setTrayPath t prot { x with sfHeld := sf && (now || x.sfHeld), sdHeld := sd && (now || x.sdHeld) }

/-- The highest request present (R336). -/
def requestOf (s : State) (t : Nat) : Nat :=
  let x := s.tray t
  if !isProtected s t then 0
  else if x.command = 2 then 1
  else if x.prot.sfHeld then 2
  else if x.command = 3 ∨ x.command = 4 then 3
  else if x.work.sfHeld then 4
  else if x.work.sdHeld != x.prot.sdHeld then 5
  else if x.command = 5 ∨ x.command = 6 then 6
  else if s.flag (Od.protectionRevertive t) && s.nat (Od.selected t) = 1 && !x.restored then 7
  else 0

/-- The path that the selector is to take: `true` is protection (R336). -/
def wantedPath (s : State) (t : Nat) : Bool :=
  let x := s.tray t
  let here := s.nat (Od.selected t) = 1
  if !isProtected s t then pathPlaced s t true && !pathPlaced s t false
  else if x.work.sfHeld && x.prot.sfHeld then here
  else if x.work.sdHeld && x.prot.sdHeld && decide (requestOf s t = 0 ∨ requestOf s t = 7) then here
  else match requestOf s t with
    | 1 => false
    | 2 => false
    | 3 => x.command = 3
    | 4 => true
    | 5 => x.work.sdHeld
    | 6 => x.command = 5
    | 7 => true
    | _ => if s.flag (Od.protectionRevertive t) then false else here

/-- The tray has a placement. -/
def trayPlaced (s : State) (t : Nat) : Bool := pathPlaced s t false || pathPlaced s t true || kindOf s t = 4

def selectedPath (s : State) (t : Nat) : Bool := s.nat (Od.selected t) = 1

/-- The selected path delivers nothing: signal fail of it, or a seal mismatch (R335, R358). -/
def trayFailed (s : State) (t : Nat) : Bool :=
  trayPlaced s t && kindOf s t != 4 && (pathSf s t (selectedPath s t) || !pathPlaced s t (selectedPath s t) || acting s (srcTray t 7))

/-- The first row of R335 applies. -/
def trayFills (s : State) (t : Nat) : Bool :=
  trayFailed s t || (trayPlaced s t && kindOf s t != 4 && injActs s (srcTray t 3)) || (trayPlaced s t && (s.tray t).realigning)

/-- The first row of R335 by the tray's client: ODUk-AIS, all-ones, local fault, or idle of the members. -/
def fillOf (s : State) (t : Nat) : Fill :=
  if kindOf s t = 3 then .idle else
  match clientKind (s.nat (Od.clientType t)) with
  | 1 => .localFault
  | 2 => .odukAis
  | 3 => .ones
  | _ => .none

/-- Nothing is received for a tray: its egress sends the fill of R335, its 66b blocks and its client clock start afresh. -/
def trayFillOut (s : State) (t : Nat) : State :=
  let x := s.tray t
  s.setTray t { x with out := ⟨fillOf s t, []⟩, clock := (0, 0), work := { x.work with part := [] }, prot := { x.prot with part := [] } }

/-- Bring everything that follows from a tray's conditions up to date (R335–R338, R340, R343, R353). -/
def trayRefresh (s : State) (t : Nat) : State :=
  let s := pathJudge (pathJudge s t false) t true
  let cond (prot : Bool) : Nat := if !pathPlaced s t prot then 3 else if pathSf s t prot then 2 else if pathSd s t prot then 1 else 0
  let s := (s.setN (Od.workingCondition t) (cond false)).setN (Od.protectionCondition t) (cond true)
  -- the wait to restore starts again while working is not clean, and ends with a switch back
  let s := if selectedPath s t && s.nat (Od.workingCondition t) = 0 then s else s.setTray t { s.tray t with restored := false }
  let s := s.setN (Od.activeRequest t) (requestOf s t)
  let s := if isProtected s t && !pathSf s t false && !pathSf s t true then s else s.setB (Od.equalised t) false
  let s := if isProtected s t then s else
    ((s.setI (Od.diffDelay t) 0).setCond (srcTray t 5) false).setTray t { s.tray t with lastD := none, realigning := false, realignLater := false }
  let s := s.setCond (srcTray t 4) (isProtected s t && (let o := !selectedPath s t; pathSf s t o || pathSd s t o))
  let s := if trayFailed s t then s.setCond (srcTray t 3) true else s
  let x := s.tray t
  let s := match trayFills s t, x.fillSince with
    | true, none => s.setTray t { x with fillSince := some s.uptime }
    | false, some u => s.setTray t { x with fillSince := none, fillMicros := x.fillMicros + (s.uptime - u) }
    | _, _ => s
  let s := if trayFills s t then trayFillOut s t else s
  s.setN (Od.trayState t) (if !trayPlaced s t then 0 else if trayFills s t then 3 else if selectedPath s t then 2 else 1)

/-- Refresh every tray with a path on a carrier; a path whose carrier is not aligned starts afresh (R337). -/
def traysRefresh (s : State) (n : Nat) : State :=
  (placementsOf s n).foldl (fun s p =>
    if kindOf s p.tray = 4 then trayRefresh s p.tray else
    let x := s.trayPath p.tray p.prot
    let s := if carrierGood s n then s else s.setTrayPath p.tray p.prot { x with sf := true, fails := 0, passes := 0 }
    trayRefresh s p.tray) s

/-- The overhead of a path passed or failed in a block, whose tray area held an errored mark or not (R335, R337). -/
def pathBlock (s : State) (t : Nat) (prot ok marked : Bool) : State :=
  let x := s.trayPath t prot
  let fails := if ok then 0 else x.fails + 1
  let passes := if ok then x.passes + 1 else 0
  let sf := if x.sf then decide (passes < 3) else decide (3 ≤ fails)
  let s := s.setTrayPath t prot { x with fails := min fails 3, passes := min passes 3, sf := sf,
                                         marked := if marked then s.uptime :: x.marked else x.marked }
  trayRefresh (if ok then s else s.bump (Od.overheadErrors t)) t

def execHoldOffExpired (t : Nat) (prot degrade : Bool) (s : State) : Out :=
  onUnit (t < 2048) s fun s =>
    let x := s.trayPath t prot
    let s := if degrade then s.setTrayPath t prot { x with sdHeld := pathSd s t prot } else s.setTrayPath t prot { x with sfHeld := pathSf s t prot }
    trayRefresh s t

def execWaitToRestoreExpired (t : Nat) (s : State) : Out :=
  onUnit (t < 2048) s fun s =>
    if s.nat (Od.activeRequest t) = 7 && s.nat (Od.workingCondition t) = 0 then
      trayRefresh (s.setTray t { s.tray t with restored := true }) t
    else s

/-! ### Delay equalisation (R340, R341) -/

/-- The delay that the selected copy waits at an arrival difference D: the output follows the later copy. -/
def appliedDelay (d : Int) (prot : Bool) : Int := if prot then max (-d) 0 else max d 0

/-- A realignment is made: the tray fills until the delay region is filled anew (R341). -/
def realign (s : State) (t : Nat) : State :=
  let x := s.tray t
  trayRefresh ((s.bump (Od.realignments t)).setTray t { x with realigning := true, realignLater := false, lastD := none }) t

/-- D is measured while both paths are free of signal fail. -/
def delayMeasured (s : State) (t : Nat) (d : Int) : State :=
  if !isProtected s t || pathSf s t false || pathSf s t true then s else
  let s := s.setI (Od.diffDelay t) d
  let tooFar := decide ((s.nat (Od.maxDiffDelay t) : Int) * 1000 < (d.natAbs : Int))
  let s := s.setCond (srcTray t 5) tooFar
  let s := if tooFar then s.setB (Od.equalised t) false else s
  let x := s.tray t
  match x.lastD with
  | none => s
  | some old =>
    if (d - old).natAbs ≤ 1000 || x.realignLater then s
    else
      let prot := selectedPath s t
      if (appliedDelay d prot - appliedDelay old prot).natAbs ≤ 1000 then s
      else if s.nat (Od.realignPolicy t) = 0 then realign (s.setB (Od.equalised t) false) t
      else (s.setB (Od.equalised t) false).setTray t { x with realignLater := true }

/-- The delay region holds |D| of the earlier copy (R340); a realignment that waits for a switch keeps `Equalised` false. -/
def execDelayEqualised (t : Nat) (s : State) : Out :=
  onUnit (t < 2048) s fun s =>
    let d := s.int (Od.diffDelay t)
    let x := s.tray t
    if !isProtected s t || pathSf s t false || pathSf s t true || x.realignLater
      || decide ((s.nat (Od.maxDiffDelay t) : Int) * 1000 < (d.natAbs : Int)) then s
    else trayRefresh ((s.setB (Od.equalised t) true).setTray t { x with lastD := some d, realigning := false }) t

/-- `DelayPages` (R340). -/
def delayPagesFor (slots maxUs : Nat) : Nat := (slots * 5000 * maxUs + 32767) / 32768 + 16

/-- The stack of a tray's delay region: that of the half that serves its working carrier. -/
def delayStack (workCarrier : Nat) : Nat := workCarrier / 16

/-! ### The Stockpot budget (R35, R340) -/

/-- The dictionary as it will stand once the scopes `ms` and every scope armed already have copied. -/
def armView (s : State) (ms : List Nat) (key : Nat) : Nat :=
  if (scopesOf s key).any fun n => ms.contains n || s.armed n then s.shNat key else s.nat key

/-- The trays that a view protects. -/
def protectedIn (s : State) (view : Nat → Nat) : List Nat :=
  (placedTrays s).filter fun t => decide (view (Od.workCarrier t) < 64) && decide (view (Od.protCarrier t) < 64)

/-- Committed capacity in slots: hub trays, and protected trays by the stack of their delay region (R35, R340, R376). -/
def hubSlots (s : State) (view : Nat → Nat) : Nat :=
  (((List.range 64).filter (isHub s)).map fun n => slotsUsed (placementsIn s view n)).sum
def delaySlots (s : State) (view : Nat → Nat) (x : Nat) : Nat :=
  (((protectedIn s view).filter fun t => delayStack (view (Od.workCarrier t)) = x).map fun t => view (Od.slotCount t)).sum

/-- The budget of R35: a committed slot of 5 Gbit/s costs 10 Gbit/s, of 44.8 Tbit/s in all and 11.2 Tbit/s on each stack; a hub
carrier's queues lie equally on the four stacks. -/
def budgetOk (s : State) (view : Nat → Nat) : Bool :=
  let h := hubSlots s view
  let d := (List.range 4).map (delaySlots s view)
  decide (h + d.sum ≤ 4480) && d.all fun x => decide (h + 4 * x ≤ 4480)

/-- The pages that the delay regions of a view take beyond what their trays hold now fit each stack (R340). -/
def delayPagesOk (s : State) (view : Nat → Nat) : Bool :=
  (List.range 4).all fun x =>
    let want := ((protectedIn s view).filter fun t => delayStack (view (Od.workCarrier t)) = x).map fun t =>
      delayPagesFor (view (Od.slotCount t)) (view (Od.maxDiffDelay t))
    let held := (s.stockpot.extents.filter fun e => decide (1000 ≤ e.1)).map fun e => runsLength (e.2.filter fun r => pageStack r.1 = x)
    decide (want.sum ≤ freePages s x + held.sum)

/-- The delay region of a tray follows its active placement: allocated, enlarged or released (R340). -/
def delayRegionSet (s : State) (t : Nat) : State :=
  let want := if isProtected s t then delayPagesFor (s.nat (Od.slotCount t)) (s.nat (Od.maxDiffDelay t)) else 0
  let stack := delayStack (s.nat (Od.workCarrier t))
  let have' := s.runs (1000 + t)
  let s := if runsLength have' = want && (have'.all fun r => pageStack r.1 = stack) then s
    else if want = 0 then releaseRuns s (1000 + t)
    else ((reallocRuns s (1000 + t) stack want).getD s)
  s.setN (Od.delayPages t) want

/-! ### The switch (R339, R341) -/

/-- The selector takes another path. Without a hitless switch the tray fills across the gap. -/
def selectPath (s : State) (t : Nat) (prot : Bool) : State :=
  let hitless := s.flag (Od.equalised t) && !pathSf s t prot
  let later := (s.tray t).realignLater
  let s := (s.setN (Od.selected t) (if prot then 1 else 0)).bump (Od.protStatusSwitches t)
  let s := if later then (s.bump (Od.realignments t)).setTray t { s.tray t with realignLater := false, lastD := none } else s
  let s := if hitless then s else trayFillOut (s.setCond (srcTray t 3) true) t
  trayRefresh (s.setTray t { s.tray t with restored := false }) t

def execProtectionSwitch (t : Nat) (s : State) : Out :=
  onUnit (t < 2048) s fun s =>
    if isProtected s t && wantedPath s t != selectedPath s t then selectPath s t (wantedPath s t) else s

def execTrayFailClearTimer (t : Nat) (s : State) : Out :=
  onUnit (t < 2048) s fun s => if trayFailed s t then s else s.setCond (srcTray t 3) false

/-! ### Host commands (R336, R341) -/

/-- A host command replaces an older one; a manual switch is accepted only to a path free of signal fail and degrade. On a tray
that is not protected a command names a path that is not there and is cleared at once (R342). -/
def protCommand (t code : Nat) (s : State) : Status × State :=
  let set (c : Nat) : Status × State := (.ok, trayRefresh (s.setTray t { s.tray t with command := c }) t)
  if !isProtected s t then (if code = 5 ∨ code = 6 then (.state, s) else set 0)
  else match code with
    | 1 => set 0
    | 5 => if pathSf s t true || pathSd s t true then (.state, s) else set 5
    | 6 => if pathSf s t false || pathSd s t false then (.state, s) else set 6
    | 7 => (.ok, realign s t)
    | c => set c

def execProtClear (k t : Nat) (s : State) : Out := .next (hostCmd s k (Od.protCommand t) 1 (protCommand t 1))
def execProtLockout (k t : Nat) (s : State) : Out := .next (hostCmd s k (Od.protCommand t) 2 (protCommand t 2))
def execProtForceProtection (k t : Nat) (s : State) : Out := .next (hostCmd s k (Od.protCommand t) 3 (protCommand t 3))
def execProtForceWorking (k t : Nat) (s : State) : Out := .next (hostCmd s k (Od.protCommand t) 4 (protCommand t 4))
def execProtManualProtection (k t : Nat) (s : State) : Out := .next (hostCmd s k (Od.protCommand t) 5 (protCommand t 5))
def execProtManualWorking (k t : Nat) (s : State) : Out := .next (hostCmd s k (Od.protCommand t) 6 (protCommand t 6))
def execProtRealign (k t : Nat) (s : State) : Out := .next (hostCmd s k (Od.protCommand t) 7 (protCommand t 7))

/-! ### Placement (R334, R341, R342) -/

/-- A tray's placement changed from that of `old`: new paths start afresh, a command that names a removed path is cleared, and the
selector keeps the copy whose placement it was taking. -/
def placementChanged (old s : State) (t : Nat) : State :=
  let same (po pn : Bool) : Bool := pathPlaced old t po && pathPlaced s t pn && pathCarrier old t po = pathCarrier s t pn
    && pathFirst old t po = pathFirst s t pn && old.nat (Od.slotCount t) = s.nat (Od.slotCount t)
  let x := old.tray t
  let keep (pn : Bool) : TrayPath := if same false pn then x.work else if same true pn then x.prot else {}
  let sel := selectedPath old t
  let cmd := if pathPlaced s t true && pathPlaced s t false then x.command else 0
  let s := s.setTray t { x with work := keep false, prot := keep true, command := cmd }
  let s := delayRegionSet s t
  let s := if same sel false then s.setN (Od.selected t) 0
    else if same sel true then s.setN (Od.selected t) 1
    else if trayPlaced old t && isProtected s t then selectPath s t (!sel)
    else s.setN (Od.selected t) 0
  trayRefresh s t

/-! ### Objects and counters (R344) -/

def clearTrayCounters (s : State) : Status × State :=
  (.ok, s.clearObjs fun k => let i := keyIdx k; let j := keySub k
    (i = 0x4101 && (j = 3 || j = 4 || j = 5)) || (i = 0x4201 && (j = 7 || j = 8)))

def execClearTrayCounters (k : Nat) (s : State) : Out := .next (hostCmd s k Od.clearTrayCounters 1 clearTrayCounters)

/-- `FillMicrosInterval` latches and restarts. -/
def traysLatch (s : State) : State :=
  (s.trays.map (·.1)).foldl (fun s t =>
    let x := s.tray t
    let us := x.fillMicros + (match x.fillSince with | some u => s.uptime - u | none => 0)
    (s.setN (Od.fillMicrosInterval t) (min us 1000000)).setTray t
      { x with fillMicros := 0, fillSince := x.fillSince.map fun _ => s.uptime }) s

/-- The refusals of writes to 4040h that would change the `RequiredSlots` of a placed tray (R331). -/
def traysCheck (s c : State) (key : Nat) : Status :=
  let t := keyInst key
  if keyIdx key = 0x4040 && requiredOf s t != requiredOf c t
      && (pathPlaced s t false || pathPlaced s t true || decide (s.shNat (Od.workCarrier t) < 64) || decide (s.shNat (Od.protCarrier t) < 64)) then .inconsistent
  else .ok

/-- The effect of writes to 4200h: they apply at once. -/
def traysAfter (s : State) (key : Nat) : State := if keyIdx key = 0x4200 then trayRefresh s (keyInst key) else s

end Sys2Proof.Machine
end

