-- ==== Sys2Proof/Machine/Seal.lean ====
section
/-! DEFINITION. Sealed spans, key slots, rollover, key agreement and the Lid (chapter 12). -/

namespace Sys2Proof.Machine

/-! ### Key slots (R359–R363) -/

def State.keySlot (s : State) (x : Nat) : Key := Tbl.get (fun _ => {}) s.keys x
def State.setKeySlot (s : State) (x : Nat) (k : Key) : State := { s with keys := Tbl.put (fun _ => {}) s.keys x k }

/-- The store's number of a utility slot. -/
def utilSlot (u : Nat) : Nat := 4096 + u

def State.hub (s : State) (i : Nat) : Hub := Tbl.get (fun _ => {}) s.hubs i
def State.setHub (s : State) (i : Nat) (x : Hub) : State := { s with hubs := Tbl.put (fun _ => {}) s.hubs i x }

/-- A path uses slot `b` of its tray: it seals with it, holds a notice that names it, or is to roll over to it (R359). -/
def pathUses (p : TrayPath) (b : Nat) : Bool :=
  (p.tx.on && p.tx.sel == b) || (match p.tx.roll with | some r => r.sel == b | none => false)
    || (match p.rx.cur with | some c => c.sel == b | none => false) || (match p.rx.next with | some c => c.sel == b | none => false)
    || (match p.rx.held with | some c => c.1.sel == b | none => false)

/-- Slot 2t + b is used: by a path of the tray, or by the sealing of its hub subcarrier (R359, R386). -/
def slotUsed (s : State) (t b : Nat) : Bool :=
  let x := s.tray t
  pathUses x.work b || pathUses x.prot b || (s.flag (Od.sealEnable t) && s.nat (Od.txKeySelect t) == b && trayPlaced s t)
    || (isHub s (t / 32) && s.flag (Od.hubActive t) && s.flag (Od.hubSeal t)
        && (s.nat (Od.hubKeySelect t) == b || (s.hub t).rollAt.isSome || (s.hub t).oldUntil.isSome))

/-- `SlotState` of both slots of a tray follows what uses them. -/
def slotsRefresh (s : State) (t : Nat) : State :=
  (List.range 2).foldl (fun s b =>
    let k := s.keySlot (2 * t + b)
    s.setN (Od.trayKeySlotSlotState (2 * t + b)) (if k.key.isEmpty || !k.delivered then 0 else if slotUsed s t b then 2 else 1)) s

/-- The check value of a key. -/
def keyCheckOf (key : Bytes) : Bytes := (aesEncrypt key (List.replicate 16 0)).take 3

/-- A key enters a tray slot: its epoch counter starts at 0, and it awaits delivery (R361, R362, R367). -/
def keyLoaded (s : State) (x : Nat) (key : Bytes) (origin : Nat) : State :=
  let s := s.setKeySlot x { key := key }
  let s := ((s.setN (Od.epochNext x) 0).setN (Od.origin x) origin).setO (Od.trayKeySlotKeyCheck x) (keyCheckOf key)
  slotsRefresh (s.setO (Od.loadedAt x) s.stampNow) (x / 2)

/-- A tray slot is emptied everywhere (R363). -/
def keyZeroised (s : State) (x : Nat) : State :=
  let s := s.setKeySlot x {}
  let s := ((s.setN (Od.epochNext x) 0).setN (Od.origin x) 0).setO (Od.trayKeySlotKeyCheck x) (List.replicate 3 0)
  slotsRefresh (s.setO (Od.loadedAt x) (List.replicate 10 0)) (x / 2)

def utilZeroised (s : State) (u : Nat) : State :=
  let s := (s.setKeySlot (utilSlot u) {}).setN (Od.utilityKeySlotSlotState u) 0
  (s.setO (Od.utilityKeySlotKeyCheck u) (List.replicate 3 0)).setN (Od.useMask u) 0

/-- Every slot is zeroised (R84). -/
def zeroiseAll (s : State) : State :=
  let s := (s.keys.map (·.1)).foldl (fun s x => if x < 4096 then keyZeroised s x else utilZeroised s (x - 4096)) s
  { s with keys := [] }

def peerUnset (s : State) : Bool := (s.bytes Od.kekPeerKey).all fun b => b == 0

/-- A wrapped key under the KEK (R361): a load that fails is counted and raises `KEY_LOAD_FAIL`. -/
def unwrapKey (s : State) (data : Bytes) : Option Bytes := if peerUnset s then none else keyUnwrap s.kek data

def loadFailed (s : State) : State := (s.bump Od.keyLoadFailures).raise 0x0C

/-- What a write to `TrayKeyLoad` or `UtilityKeyLoad` does; octets that are not 40 fail the integrity check. -/
def trayKeyWritten (s : State) (x : Nat) (data : Bytes) : Status × State :=
  if s.nat (Od.trayKeySlotSlotState x) = 2 || s.boot.trialDeferred then (.state, s)
  else match unwrapKey s data with
    | none => (.inconsistent, loadFailed s)
    | some key => (.ok, keyLoaded s x key 1)

def utilityKeyWritten (s : State) (u : Nat) (data : Bytes) : Status × State :=
  if s.boot.trialDeferred then (.state, s) else
  match unwrapKey s data with
  | none => (.inconsistent, loadFailed s)
  | some key =>
    let s := (s.setKeySlot (utilSlot u) { key := key, delivered := true }).setN (Od.utilityKeySlotSlotState u) 1
    (.ok, (s.setO (Od.utilityKeySlotKeyCheck u) (keyCheckOf key)).setN (Od.useMask u) 0)

/-- A number of free octets. -/
def freeBytes : Nat → State → Bytes × State
  | 0, s => ([], s)
  | n + 1, s => let r := s.freeNat; let q := freeBytes n r.2; (BitVec.ofNat 8 r.1 :: q.1, q.2)

/-- The shared secret of a private scalar and a peer key; for octets that are no point of the curve the spec states none, and it
is free. -/
def sharedSecret (s : State) (d : Nat) (peer : Bytes) : Bytes × State :=
  match ecdh d peer with
  | some z => (z, s)
  | none => freeBytes 48 s

/-- "FH-RZ6402 KEK" and "FH-RZ6402 LEAF" in ASCII. -/
def moduleLabel : Bytes := [0x46, 0x48, 0x2D, 0x52, 0x5A, 0x36, 0x34, 0x30, 0x32, 0x20]
def kekLabel : Bytes := moduleLabel ++ [0x4B, 0x45, 0x4B]
def leafLabel : Bytes := moduleLabel ++ [0x4C, 0x45, 0x41, 0x46]

/-- A static public key: an uncompressed point of 97 octets (R360, R366). -/
def fullPoint (p : Bytes) : Bytes := if p.length = 97 then p else []

/-- A new `KekPeerKey` replaces the KEK at once (R360); only a string of 97 octets is an uncompressed point. -/
def kekWritten (s : State) : State :=
  if peerUnset s then { s with kek := [] } else
  let peer := s.bytes Od.kekPeerKey
  let r := sharedSecret s (scalarOf Config.wrapPrivate) (fullPoint peer)
  { r.2 with kek := hkdf384 r.1 (beBytes 4 Config.serialNumber) kekLabel 32 }

/-- A tray key has reached every powered line die (R362). -/
def execKeyDelivered (x : Nat) (s : State) : Out :=
  onUnit (x < 4096) s fun s =>
    let k := s.keySlot x
    if k.key.isEmpty then s else slotsRefresh (s.setKeySlot x { k with delivered := true }) (x / 2)

def keySlotZeroise (x : Nat) (s : State) : Status × State :=
  if s.nat (Od.trayKeySlotSlotState x) = 2 then (.state, s) else (.ok, keyZeroised s x)

def utilityKeyZeroise (u : Nat) (s : State) : Status × State :=
  if s.nat Od.lockHolder != 255 && s.nat Od.lidKeySlot = u then (.locked, s) else (.ok, utilZeroised s u)

def execKeySlotZeroise (k x : Nat) (s : State) : Out := .next (hostCmd s k (Od.keySlotCommand x) 1 (keySlotZeroise x))
def execUtilityKeyZeroise (k u : Nat) (s : State) : Out := .next (hostCmd s k (Od.utilityKeyCommand u) 1 (utilityKeyZeroise u))

/-! ### Epochs, phases and spans at transmit (R346–R350) -/

/-- The next epoch of a slot; none once the counter has reached 2³² − 1 (R349). -/
def drawEpoch (s : State) (x : Nat) : Option Nat × State :=
  let e := s.nat (Od.epochNext x)
  if e = 4294967295 then (none, s) else (some e, s.setN (Od.epochNext x) (e + 1))

/-- Sealed paths of a carrier in each phase, as `SealTx` holds them. -/
def phaseCount (s : State) (n q : Nat) : Nat :=
  ((placementsOf s n).filter fun p => s.nat (txPhaseKey p.tray p.prot) = q).length

/-- The phase with the fewest sealed paths, the lowest on a tie (R346). -/
def choosePhase (s : State) (n : Nat) : Nat :=
  (List.range 16).foldl (fun b q => if phaseCount s n q < phaseCount s n b then q else b) 0

/-- The IV of a span (R348). -/
def sealIv (side tray epoch span : Nat) : Bytes :=
  beBytes 12 ((((side * 2 ^ 11 + tray) * 2 ^ 32 + epoch) * 2 ^ 44 + span % 2 ^ 44) * 2 ^ 8)

/-- Bits packed into octets, first bit most significant; missing bits of the last octet are 0. -/
def packBits (bs : List Bool) : Bytes := (chunked 8 bs).map fun c => BitVec.ofNat 8 (natOfBits (c ++ List.replicate (8 - c.length) false))

/-- The ciphertext octets of a span of bits: missing bits of the last octet are the keystream's (R347). -/
def spanOctets (key iv : Bytes) (ct : List Bool) : Bytes :=
  let miss := (8 - ct.length % 8) % 8
  packBits (ct ++ gcmBits key iv ct.length miss)

/-- `SEAL_EPOCH_EXHAUSTED` is present while a path of the tray has no epoch (R349, R372). -/
def epochJudge (s : State) (t : Nat) : State :=
  let x := s.tray t
  s.setCond (srcTray t 8) (x.work.tx.noEpoch || x.prot.tx.noEpoch)

/-- The span in progress of a path ends: its tag awaits the block in which it is carried. -/
def spanEnd (s : State) (t : Nat) (prot : Bool) : State :=
  let p := s.trayPath t prot
  let x := p.tx
  if x.aad.isEmpty then s else
  let key := (s.keySlot (2 * t + x.sel)).key
  let iv := sealIv (s.nat (Od.sealSide t)) t x.epoch x.span
  let tag := beNat (gcmTag key iv x.aad (spanOctets key iv x.ct))
  s.setTrayPath t prot { p with tx := { x with aad := [], ct := [], tag := some (x.span, tag) } }

/-- Block `c` of a path: a span that begins here is opened under the path's slot and epoch, after the one before has ended; sealing
starts or stops here (R346, R349). -/
def spanBoundary (s : State) (t : Nat) (prot : Bool) (n c : Nat) : State :=
  let phKey := txPhaseKey t prot
  let p0 := s.trayPath t prot
  -- the phase is chosen in the first block at or after the target of the commit that starts sealing
  let s := if s.flag (Od.sealEnable t) && s.nat phKey = 255 && p0.tx.stopAt.isNone && decide (p0.tx.from' ≤ c) then
      s.setN phKey (choosePhase s n) else s
  let q := s.nat phKey
  if q = 255 || c % 16 != q then s else
  let s := spanEnd s t prot
  let p := s.trayPath t prot
  let stop := match p.tx.stopAt with | some b => decide (b ≤ c) | none => false
  if stop then
    slotsRefresh (epochJudge ((s.setTrayPath t prot { p with tx := { tag := p.tx.tag } }).setN phKey 255) t) t
  else
    let x := p.tx
    let x := { x with on := true, span := (c - q) / 16 }
    if x.drawNew || x.noEpoch then
      let sel := if x.drawNew && p0.tx.roll.isNone then s.nat (Od.txKeySelect t) else x.sel
      let r := drawEpoch s (2 * t + sel)
      let x := match r.1 with
        | some e => { x with sel := sel, epoch := e, drawNew := false, noEpoch := false, fresh := 2 }
        | none => { x with sel := sel, drawNew := true, noEpoch := true }
      slotsRefresh (epochJudge (r.2.setTrayPath t prot { p with tx := x }) t) t
    else s.setTrayPath t prot { p with tx := x }

/-- Encrypt the payload area of a path in a block and add the block to the span (R347). -/
def sealArea (s : State) (t : Nat) (prot : Bool) (overhead : Nat) (bits : List Bool) : List Bool × State :=
  let p := s.trayPath t prot
  let x := p.tx
  if !x.on || x.noEpoch then (bits, s) else
  let key := (s.keySlot (2 * t + x.sel)).key
  let iv := sealIv (s.nat (Od.sealSide t)) t x.epoch x.span
  let ct := List.zipWith xor bits (gcmBits key iv x.ct.length bits.length)
  (ct, s.setTrayPath t prot { p with tx := { x with aad := x.aad ++ beBytes 12 overhead, ct := x.ct ++ ct } })

/-- The tags that block `c` carries: those of the spans that ended, in ascending tray order, the highest left out beyond
`SealEntries` (R277, R350). -/
def takeTags (s : State) (n : Nat) (cap : Nat) : List Nat × State :=
  let ps := sortBy (fun a b => decide (a.tray ≤ b.tray)) ((placementsOf s n).filter fun p => (s.trayPath p.tray p.prot).tx.tag.isSome)
  let tags := ps.filterMap fun p => (s.trayPath p.tray p.prot).tx.tag.map fun u => sealEntry p.tray u.1 u.2
  let s := ps.foldl (fun s p => let x := s.trayPath p.tray p.prot; s.setTrayPath p.tray p.prot { x with tx := { x.tx with tag := none } }) s
  (tags.take cap, s)

/-- Every sealed path of a carrier starts a new run: its block counter restarts, or its engine stops (R349, R371). The first span of a
rollover is then fixed anew. -/
def sealRestart (s : State) (n : Nat) : State :=
  (placementsOf s n).foldl (fun s p =>
    let x := s.trayPath p.tray p.prot
    let stop := x.tx.stopAt.map fun _ => 0
    let roll := x.tx.roll.map fun r : Roll => { sel := r.sel }
    let tx := { x.tx with on := false, aad := [], ct := [], tag := none, drawNew := true, from' := 0, stopAt := stop, roll := roll }
    s.setTrayPath p.tray p.prot { x with tx := tx }) s

/-! ### Seal notices and the order of service segments (R351, R352) -/

/-- The 140 bits of a seal notice. -/
def noticeSegment (t : Nat) (x : Notice) (start : Nat) (pending : Bool) : Nat :=
  (((((((1 * 2 ^ 11 + t) * 2 + x.sel) * 2 ^ 32 + x.epoch) * 2 ^ 5 + start % 32) * 2 ^ 4 + x.phase) * 2 + (if pending then 1 else 0)) * 2
    + x.side) * 2 ^ 81

/-- The 140 bits of an agreement message part (R365). -/
def agreeSegment (t msg part side exchange : Nat) (data : Bytes) : Nat :=
  (((((2 * 2 ^ 11 + t) * 4 + msg) * 4 + part) * 2 + side) * 2 ^ 8 + exchange) * 2 ^ 112
    + beNat ((data.drop (14 * part)).take 14 ++ List.replicate (14 - ((data.drop (14 * part)).take 14).length) 0)

/-- The offer and the answer of an agreement, as far as they are known, in parts received. -/
def partsOf (a : Agree) (msg n : Nat) : Option Bytes :=
  let ps := (List.range n).map fun p => (a.parts.find? fun x => x.1 = 4 * msg + p).map (·.2)
  if ps.all Option.isSome then some (ps.filterMap id).flatten else none

/-- The messages that an agreement sends now, part by part: (message, part, data). -/
def agreeSends (side : Nat) (a : Agree) : List (Nat × Nat × Bytes) :=
  let own := compressed (publicOf (scalarOf a.secret))
  let eph := (List.range 4).map fun p => ((if side = 0 then 0 else 1 : Nat), p, own)
  (if a.sendAbort then [(3, 0, [])] else [])
    ++ (if (side = 0 && a.sendOffer) || (side = 1 && a.sendAnswer) then eph else [])
    ++ (if a.sendConfirm then (List.range 2).map fun p => (2, p, a.key) else [])

/-- The paths of a carrier that seal now. -/
def sealedPaths (s : State) (n : Nat) : List Placed := (placementsOf s n).filter fun p => (s.trayPath p.tray p.prot).tx.on

/-- The current notice of a path. -/
def noticeOf (s : State) (t : Nat) (prot : Bool) : Notice :=
  let x := (s.trayPath t prot).tx
  ⟨x.sel, x.epoch, s.nat (txPhaseKey t prot), s.nat (Od.sealSide t)⟩

/-- The trays with an agreement message to send on a carrier. -/
def agreeTrays (s : State) (n : Nat) : List Nat :=
  (s.trays.filterMap fun x => match x.2.agree with
    | some a => if !(agreeSends (s.nat (Od.sealSide x.1)) a).isEmpty
        && (pathCarrier s x.1 false = n || pathCarrier s x.1 true = n) then some x.1 else none
    | none => none)

/-- The service segment that the next free ControlCell of carrier `n` carries, if any (R352); `cursor` turns round the messages and
the current notices. -/
def serviceSegment (s : State) (n c cursor : Nat) : Option Nat × State :=
  match (let l := agreeTrays s n; if l.isEmpty then none else some (l.getD (cursor % l.length) 0)) with
  | some t =>
    match (s.tray t).agree with
    | none => (none, s)
    | some a =>
      let side := s.nat (Od.sealSide t)
      let ms := agreeSends side a
      let m := ms.getD (cursor / (agreeTrays s n).length % ms.length) (3, 0, [])
      let s := if a.sendAbort then s.setTray t { s.tray t with agree := some { a with sendAbort := false } } else s
      (some (agreeSegment t m.1 m.2.1 side a.exchange m.2.2), s)
  | none =>
    let ps := sealedPaths s n
    let rolling := ps.filter fun p => (s.trayPath p.tray p.prot).tx.roll.isSome
    let pick := match rolling.find? fun p => match (s.trayPath p.tray p.prot).tx.roll with | some r => !r.justSent | none => false with
      | some p => some p
      | none => rolling.head?
    match pick with
    | some p =>
      -- the first copy fixes the first span and draws the epoch (R364)
      let x := s.trayPath p.tray p.prot
      match x.tx.roll with
      | none => (none, s)
      | some r =>
        let q := s.nat (txPhaseKey p.tray p.prot)
        let j := (c - q) / 16
        let st := r.start.getD (j + s.nat (Od.rolloverLead p.tray))
        let d := if r.start.isSome then (some r.epoch, s) else drawEpoch s (2 * p.tray + r.sel)
        let e := d.1.getD 4294967296
        let s := if r.justSent then rolling.foldl (fun s o => let y := s.trayPath o.tray o.prot
          s.setTrayPath o.tray o.prot { y with tx := { y.tx with roll := y.tx.roll.map fun z => { z with justSent := false } } }) d.2 else d.2
        let x := s.trayPath p.tray p.prot
        let r' : Roll := { r with start := some st, epoch := e, justSent := true }
        let s := s.setTrayPath p.tray p.prot { x with tx := { x.tx with roll := some r' } }
        (some (noticeSegment p.tray ⟨r.sel, e % 4294967296, q, s.nat (Od.sealSide p.tray)⟩ st true), s)
    | none =>
      match (match ps.find? fun p => decide (0 < (s.trayPath p.tray p.prot).tx.fresh) with
        | some p => some p
        | none => if ps.isEmpty then none else ps[cursor % ps.length]?) with
      | none => (none, s)
      | some p =>
        let x := s.trayPath p.tray p.prot
        (some (noticeSegment p.tray (noticeOf s p.tray p.prot) x.tx.span false),
         s.setTrayPath p.tray p.prot { x with tx := { x.tx with fresh := x.tx.fresh - 1 } })

/-! ### Receipt of notices (R353, R358) -/

/-- `RxKeySelect`: the slot of the selected path, or of the other where that is not synchronised (R353). -/
def rxSelect (s : State) (t : Nat) : State :=
  let sel (prot : Bool) : Option Nat := if s.nat (rxSealKey t prot) = 2 then (s.trayPath t prot).rx.shown else none
  match sel (selectedPath s t), sel (!selectedPath s t) with
  | some b, _ => s.setN (Od.rxKeySelect t) b
  | none, some b => s.setN (Od.rxKeySelect t) b
  | none, none => s

/-- `SEAL_CONFIG_MISMATCH` is raised, and the tray fills. -/
def sealMismatch (s : State) (t : Nat) : State := trayRefresh (s.setCond (srcTray t 7) true) t

/-- A passing seal notice, as the 140 bits of its segment, received on carrier `n`. -/
def execSealNoticeReceived (n seg : Nat) (s : State) : Out :=
  onUnit (n < 64) s fun s =>
    let t := seg / 2 ^ 125 % 2048
    let sel := seg / 2 ^ 124 % 2
    let note : Notice := ⟨sel, seg / 2 ^ 92 % 2 ^ 32, seg / 2 ^ 83 % 16, seg / 2 ^ 81 % 2⟩
    let start := seg / 2 ^ 87 % 32
    let pending := seg / 2 ^ 82 % 2 = 1
    if seg / 2 ^ 136 % 16 != 1 then s else
    match (if pathCarrier s t false = n then some false else if pathCarrier s t true = n then some true else none) with
    | none => s
    | some prot =>
      if !s.flag (Od.sealEnable t) then sealMismatch s t
      else if note.side = s.nat (Od.sealSide t) then sealMismatch s t
      else if s.nat (rxSealKey t prot) = 0 then s
      else
        let x := s.trayPath t prot
        let shown := if s.nat (rxSealKey t prot) = 2 then x.rx.shown else some sel
        let s := if pending then s.setTrayPath t prot { x with rx := { x.rx with held := some (note, start) } }
          else (s.setTrayPath t prot { x with rx := { x.rx with next := if x.rx.cur = some note then none else some note, shown := shown } }).setN
            (rxSealKey t prot) 2
        slotsRefresh (trayRefresh (rxSelect s t) t) t

/-- Sealing starts afresh at the receiver of a path (R353). -/
def rxUnsync (s : State) (t : Nat) (prot : Bool) : State :=
  let x := s.trayPath t prot
  let s := s.setTrayPath t prot { x with rx := {} }
  s.setN (rxSealKey t prot) (if s.flag (Od.sealEnable t) && pathPlaced s t prot then 1 else 0)

/-- A carrier enters `TRACK`: its sealed paths await a notice (R353). -/
def sealTrackEntry (s : State) (n : Nat) : State :=
  (placementsOf s n).foldl (fun s p => if s.flag (Od.sealEnable p.tray) && kindOf s p.tray != 4 then
    slotsRefresh (trayRefresh (rxUnsync s p.tray p.prot) p.tray) p.tray else s) s

/-- A span failed (R356). -/
def spanFailed (s : State) (t : Nat) (prot missing : Bool) : State :=
  let x := s.trayPath t prot
  let s := s.setTrayPath t prot { x with rx := { x.rx with bad := true } }
  let s := (s.bump (Od.sealFailures t)).countEv 2 t 6 1
  let s := if missing then s.bump (Od.tagsMissing t) else s
  trayRefresh ((s.setCond (srcTray t 6) true).hold (fsTray t) 3) t

/-- A span verified. -/
def spanVerified (s : State) (t : Nat) (prot : Bool) : State :=
  let x := s.trayPath t prot
  let s := s.setTrayPath t prot { x with rx := { x.rx with bad := false, shown := (x.rx.cur.map (·.sel)).orElse fun _ => x.rx.shown } }
  trayRefresh (rxSelect ((s.bump (Od.spansVerified t)).countEv 2 t 5 1) t) t

/-- The plaintext bits of a received span, with their marks, when its tag verifies. -/
def openSpan (s : State) (t : Nat) (n : Notice) (sp : Span) (tag : Nat) : Option (List (Bool × Bool)) :=
  let key := (s.keySlot (2 * t + n.sel)).key
  if key.length ≠ 32 then none else
  let iv := sealIv n.side t n.epoch sp.num
  let ct := sp.ct.map (·.1)
  if beNat (gcmTag key iv sp.aad (spanOctets key iv ct)) = tag then
    some (List.zipWith (fun (x : Bool × Bool) k => (xor x.1 k, x.2)) sp.ct (gcmBits key iv 0 ct.length))
  else none

/-- Decrypt bits of a span as they come (cut-through, R355). -/
def openBits (s : State) (t : Nat) (n : Notice) (num off : Nat) (bits : List (Bool × Bool)) : List (Bool × Bool) :=
  let key := (s.keySlot (2 * t + n.sel)).key
  List.zipWith (fun (x : Bool × Bool) k => (xor x.1 k, x.2)) bits (gcmBits key (sealIv n.side t n.epoch num) off bits.length)

/-- `SEAL_FAIL` (kind 0) clears after 10 ms without a failed span, `SEAL_CONFIG_MISMATCH` (kind 1) after 100 ms (R358, R372). -/
def execSealAlarmClearTimer (t kind : Nat) (s : State) : Out :=
  onUnit (decide (t < 2048) && decide (kind < 2)) s fun s =>
    if kind = 0 then s.setCond (srcTray t 6) false else trayRefresh (s.setCond (srcTray t 7) false) t

/-! ### Rollover (R364) -/

def sealRollover (t : Nat) (s : State) : Status × State :=
  let other := 1 - s.nat (Od.txKeySelect t)
  if s.nat (Od.rolloverState t) = 1 ∨ s.nat (Od.agreeState t) = 1 then (.busy, s)
  else if !s.flag (Od.sealEnable t) || s.nat (Od.trayKeySlotSlotState (2 * t + other)) = 0 then (.state, s)
  else
    let s := [false, true].foldl (fun s prot =>
      if pathPlaced s t prot then
        let x := s.trayPath t prot
        s.setTrayPath t prot { x with tx := { x.tx with roll := some { sel := other } } }
      else s) s
    -- a tray without a path has none left to switch
    let s := if trayPlaced s t then s.setN (Od.rolloverState t) 1 else s.setN (Od.txKeySelect t) other
    (.ok, slotsRefresh s t)

def execSealRollover (k t : Nat) (s : State) : Out := .next (hostCmd s k (Od.sealCommand t) 1 (sealRollover t))

/-- At StartSpan a path goes over to the new slot under its fresh epoch; the event falls before the first block of that span. -/
def execRolloverSwitch (t : Nat) (prot : Bool) (s : State) : Out :=
  onUnit (t < 2048) s fun s =>
    let x := s.trayPath t prot
    match x.tx.roll with
    | none => s
    | some r =>
      if r.start.isNone then s else
      let s := spanEnd s t prot
      let x := s.trayPath t prot
      let none' := decide (4294967296 ≤ r.epoch)
      let tx := { x.tx with sel := r.sel, epoch := r.epoch, roll := none, fresh := 2, drawNew := none', noEpoch := none' }
      let s := (s.setTrayPath t prot { x with tx := tx }).setN (Od.txKeySelect t) r.sel
      let y := s.tray t
      let s := if y.work.tx.roll.isNone && y.prot.tx.roll.isNone then s.setN (Od.rolloverState t) 0 else s
      slotsRefresh (epochJudge s t) t

/-! ### Commit hooks (R346, R353, R357) -/

/-- What a copy of `SealEnable`, `SealMode` or a placement means for the sealing of tray `t`; `block` is the target block on a
carrier. -/
def sealCommitted (old s : State) (t : Nat) (block : Nat → Nat) : State :=
  let on := s.flag (Od.sealEnable t)
  let s := [false, true].foldl (fun s prot =>
    let n := pathCarrier s t prot
    let moved := pathCarrier old t prot != n
    let x := s.trayPath t prot
    if !pathPlaced s t prot then ((s.setTrayPath t prot { x with tx := {}, rx := {} }).setN (txPhaseKey t prot) 255).setN (rxSealKey t prot) 0
    else
      let s := if moved && s.nat (txPhaseKey t prot) != 255 then s.setN (txPhaseKey t prot) 255 else s
      let s := if on && (moved || !old.flag (Od.sealEnable t)) then
          s.setTrayPath t prot { x with tx := { roll := x.tx.roll, tag := x.tx.tag, from' := block n } }
        else if !on && old.flag (Od.sealEnable t) then
          s.setTrayPath t prot { x with tx := { x.tx with stopAt := some (block n), roll := none } }
        else s
      if on != old.flag (Od.sealEnable t) || moved then rxUnsync s t prot else s) s
  let s := if !on then (s.setN (Od.rolloverState t) 0) else s
  -- a change of mode moves the receive delay: the tray fills for one span and 0.3 µs (R357)
  let s := if on && old.flag (Od.sealEnable t) && s.nat (Od.sealMode t) != old.nat (Od.sealMode t) then
      let n := pathCarrier s t (selectedPath s t)
      let us := (16 * 65536 / max (s.nat (Od.symbolRate n)) 1) + 1
      trayFillOut ((s.setTray t { s.tray t with fillMicros := (s.tray t).fillMicros + us }).setCond (srcTray t 3) true) t
    else s
  slotsRefresh (epochJudge (trayRefresh s t) t) t

/-- `SealLatency` in ns (R354, R355). -/
def sealLatencyOf (s : State) (t : Nat) : F32 :=
  if !s.flag (Od.sealEnable t) then 0
  else if s.nat (Od.sealMode t) = 1 then f32OfInt 100
  else
    let n := pathCarrier s t (selectedPath s t)
    if n < 64 then (let rs := s.nat (Od.symbolRate n); f32OfRat ((16 * 65536 * 1000 + 400 * rs : Nat) : Int) rs) else f32OfInt 400

/-! ### Agreement (R365–R368) -/

/-- The agreement of a tray ends with a result. -/
def agreeEnd (s : State) (t result : Nat) (abort : Bool) : State :=
  let x := s.tray t
  let a := x.agree.map fun a => { a with sendOffer := false, sendAnswer := false, sendConfirm := false, sendAbort := abort,
                                         confirmKey := [], secret := 0, key := [], parts := [] }
  let s := s.setTray t { x with agree := if abort then a else none }
  let s := (s.setN (Od.agreeState t) (if result = 1 then 2 else 3)).setN (Od.agreeResult t) result
  s.setCond (srcTray t 9) (result != 1)

def onKrytelm (s : State) (t : Nat) : Bool :=
  (pathPlaced s t false && krytelm s (pathCarrier s t false)) || (pathPlaced s t true && krytelm s (pathCarrier s t true))

def agreeStart (t : Nat) (s : State) : Status × State :=
  let inactive := 2 * t + (1 - s.nat (Od.txKeySelect t))
  if s.boot.trialDeferred then (.state, s)
  else if s.nat (Od.rolloverState t) = 1 ∨ s.nat (Od.agreeState t) = 1 then (.busy, s)
  else if (s.bytes (Od.peerAgreementKey t)).all (fun b => b == 0) || s.nat (Od.trayKeySlotSlotState inactive) = 2 || !onKrytelm s t then (.state, s)
  else
    let r := s.freeNat
    let s := r.2
    let x := s.tray t
    let side := s.nat (Od.sealSide t)
    let ex := if side = 0 then x.exchange % 255 + 1 else 0
    let a : Agree := { exchange := ex, secret := r.1, sendOffer := side == 0, started := s.uptime }
    (.ok, ((s.setTray t { x with agree := some a, exchange := if side = 0 then ex else x.exchange }).setN (Od.agreeState t) 1).setN (Od.agreeResult t) 0)

def agreeCancel (t : Nat) (s : State) : Status × State :=
  if s.nat (Od.agreeState t) = 1 then (.ok, agreeEnd s t 6 false) else (.state, s)

def execAgreeStart (k t : Nat) (s : State) : Out := .next (hostCmd s k (Od.agreeCommand t) 1 (agreeStart t))
def execAgreeCancel (k t : Nat) (s : State) : Out := .next (hostCmd s k (Od.agreeCommand t) 2 (agreeCancel t))

/-- Tray key and confirm key (R367): `offer` and `answer` are the two ephemeral keys. -/
def agreeKeys (s : State) (t : Nat) (a : Agree) (offer answer : Bytes) : (Bytes × Bytes) × State :=
  let peer := if s.nat (Od.sealSide t) = 0 then answer else offer
  let ze := sharedSecret s (scalarOf a.secret) peer
  let zs := sharedSecret ze.2 (scalarOf Config.agreementPrivate) (fullPoint (s.bytes (Od.peerAgreementKey t)))
  let okm := hkdf384 (ze.1 ++ zs.1) (leBytes 1 a.exchange ++ beBytes 2 t) (offer ++ answer) 64
  ((okm.take 32, okm.drop 32), zs.2)

def confirmOf (kc : Bytes) (side : Nat) (offer answer : Bytes) : Bytes := (hmac384 kc (leBytes 1 side ++ offer ++ answer)).take 16

/-- Store a received part; a new exchange number starts the parts afresh. -/
def takePart (a : Agree) (msg part : Nat) (data : Bytes) : Agree :=
  { a with parts := (4 * msg + part, data) :: a.parts.filter fun x => x.1 != 4 * msg + part }

/-- What side 0 does with what it holds: verify side 1's confirm, write the key, send its own. -/
def agreeSide0 (s : State) (t : Nat) (a : Agree) : State :=
  match partsOf a 1 4, partsOf a 2 2 with
  | some ans, some conf =>
    let offer := compressed (publicOf (scalarOf a.secret))
    let answer := ans.take 49
    let r := agreeKeys s t a offer answer
    if conf.take 16 = confirmOf r.1.2 1 offer answer then
      let s := keyLoaded r.2 (2 * t + (1 - s.nat (Od.txKeySelect t))) r.1.1 2
      let s := agreeEnd s t 1 false
      s.setTray t { s.tray t with agree := some { exchange := a.exchange, sendConfirm := true, started := a.started,
                                                  key := confirmOf r.1.2 0 offer answer } }
    else agreeEnd r.2 t 3 true
  | _, _ => s.setTray t { s.tray t with agree := some a }

/-- What side 1 does: answer and confirm a complete offer; verify side 0's confirm and write the key. -/
def agreeSide1 (s : State) (t : Nat) (a : Agree) : State :=
  match partsOf a 0 4 with
  | none => s.setTray t { s.tray t with agree := some a }
  | some off =>
    let offer := off.take 49
    let answer := compressed (publicOf (scalarOf a.secret))
    let r := if a.confirmKey.isEmpty then agreeKeys s t a offer answer else ((a.confirmKey.take 32, a.confirmKey.drop 32), s)
    let s := r.2
    match partsOf a 2 2 with
    | some conf =>
      if conf.take 16 = confirmOf r.1.2 0 offer answer then
        agreeEnd (keyLoaded s (2 * t + (1 - s.nat (Od.txKeySelect t))) r.1.1 2) t 1 false
      else agreeEnd s t 3 true
    | none => s.setTray t { s.tray t with agree := some { a with sendAnswer := true, sendConfirm := true, confirmKey := r.1.1 ++ r.1.2,
                                                                 key := confirmOf r.1.2 1 offer answer } }

/-- An agreement message, as the 140 bits of its segment, received on carrier `n` (R365, R366, R368). -/
def execAgreementMessageReceived (n seg : Nat) (s : State) : Out :=
  onUnit (n < 64) s fun s =>
    let t := seg / 2 ^ 125 % 2048
    let msg := seg / 2 ^ 123 % 4
    let part := seg / 2 ^ 121 % 4
    let side := seg / 2 ^ 120 % 2
    let ex := seg / 2 ^ 112 % 256
    let data := beBytes 14 (seg % 2 ^ 112)
    if seg / 2 ^ 136 % 16 != 2 || (pathCarrier s t false != n && pathCarrier s t true != n) then s else
    match (s.tray t).agree with
    | none => s
    | some a =>
      if s.nat (Od.agreeState t) != 1 then s
      else if side = s.nat (Od.sealSide t) then agreeEnd s t 5 false
      else if msg = 3 then (if ex = a.exchange then agreeEnd s t 4 false else s)
      else if s.nat (Od.sealSide t) = 0 then
        (if ex = a.exchange && (msg = 1 || msg = 2) then agreeSide0 s t (takePart a msg part data) else s)
      else if msg = 0 then
        let a := if a.exchange = ex then a else { a with exchange := ex, parts := [], confirmKey := [], sendAnswer := false, sendConfirm := false }
        agreeSide1 s t (takePart a msg part data)
      else if msg = 2 && ex = a.exchange && !a.confirmKey.isEmpty then agreeSide1 s t (takePart a msg part data)
      else s

/-- `AgreeTimeout` has passed since the tray's command: sending stops, and an agreement that has not completed fails. -/
def execAgreeTimeout (t : Nat) (s : State) : Out :=
  onUnit (t < 2048) s fun s =>
    if s.nat (Od.agreeState t) = 1 then agreeEnd s t 2 false else s.setTray t { s.tray t with agree := none }

/-! ### The Lid (R369, R370) -/

def lidAcquire (k : Nat) (s : State) : Status × State :=
  if (s.session k).transport > 2 then (.role, s)
  else if s.nat Od.lockHolder != 255 && s.nat Od.lockHolder != k then (.locked, s)
  else (.ok, s.setN Od.lockHolder k)

def lidRelease (k : Nat) (s : State) : Status × State :=
  if s.nat Od.lockHolder = 255 then (.state, s)
  else if s.nat Od.lockHolder != k then (.locked, s)
  else (.ok, lidFree s)

def lidForce (s : State) : Status × State := (.ok, lidFree s)

def execLidLockAcquire (k : Nat) (s : State) : Out := .next (hostCmd s k Od.lidLock 1 (lidAcquire k))
def execLidLockRelease (k : Nat) (s : State) : Out := .next (hostCmd s k Od.lidLock 2 (lidRelease k))
def execLidLockForceRelease (k : Nat) (s : State) : Out := .next (hostCmd s k Od.lidLock 3 lidForce)

/-- The holder has made no Lid request for `LidLease`. -/
def execLidLeaseExpired (s : State) : Out :=
  .next (if s.nat Od.lockHolder = 255 then s else lidFree (s.bump Od.lidLeaseExpiries))

/-- May session `k` read or write an object of 4340h. -/
def lidGate (s : State) (k key : Nat) : Status :=
  if keyIdx key != 0x4340 || keySub key ≤ 1 then .ok
  else if s.nat Od.lockHolder = 255 then .state
  else if s.nat Od.lockHolder != k then .locked
  else .ok

/-- The refusals of a write to `LidBlock` (R370). -/
def lidCheck (s : State) : Status :=
  let u := s.nat Od.lidKeySlot
  if s.nat (Od.utilityKeySlotSlotState u) = 0 then .state
  else if s.nat (Od.useMask u) / 2 ^ s.nat Od.lidDirection % 2 = 0 then .inconsistent
  else .ok

/-- 16 octets written to `LidBlock` become the output; a shorter string is held as written and runs no operation (assumption 85). -/
def lidRun (s : State) : State :=
  if (s.bytes Od.lidBlock).length != 16 then s else
  let key := (s.keySlot (utilSlot (s.nat Od.lidKeySlot))).key
  let b := s.bytes Od.lidBlock
  (s.setO Od.lidBlock (if s.nat Od.lidDirection = 0 then aesEncrypt key b else aesDecrypt key b)).bump Od.lidOperations

/-! ### Objects -/

def clearSealCounters (s : State) : Status × State :=
  (.ok, s.clearObjs fun k => let i := keyIdx k; let j := keySub k
    (i = 0x4301 && (j = 8 || j = 9 || j = 10)) || (i = 0x4320 && j = 5) || (i = 0x4340 && (j = 6 || j = 7)))

def execClearSealCounters (k : Nat) (s : State) : Out := .next (hostCmd s k Od.clearSealCounters 1 clearSealCounters)

/-- The refusals of writes of this chapter: `SealSide` and the Lid (R358, R370). -/
def sealCheck (s c : State) (key : Nat) : Status :=
  let idx := keyIdx key
  let t := keyInst key
  if idx = 0x4300 ∧ keySub key = 3 then (if s.flag (Od.sealEnable t) || s.shFlag (Od.sealEnable t) then .state else .ok)
  else if idx = 0x4340 ∧ keySub key = 4 then lidCheck c
  else .ok

/-- The effect of an accepted write. -/
def sealAfter (s : State) (key : Nat) : State :=
  if keyIdx key = 0x4320 ∧ keySub key = 2 then kekWritten s
  else if keyIdx key = 0x4340 ∧ keySub key = 4 then lidRun s
  else s

/-- Objects that are computed when they are read. -/
def sealRead (s : State) (key : Nat) : Option Val :=
  let idx := keyIdx key
  let sub := keySub key
  if idx = 0x4320 ∧ sub = 1 then some (.o (uncompressed (publicOf (scalarOf Config.wrapPrivate))))
  else if idx = 0x4320 ∧ sub = 3 then some (.o (if peerUnset s then List.replicate 8 0 else (sha384 (s.bytes Od.kekPeerKey)).take 8))
  else if idx = 0x4320 ∧ sub = 4 then some (.o (uncompressed (publicOf (scalarOf Config.agreementPrivate))))
  else if idx = 0x4301 ∧ sub = 11 then some (.f (sealLatencyOf s (keyInst key)))
  else if idx = 0x4302 then some (.u (s.nat (Od.rolloverState (keyInst key))))
  else if idx = 0x4322 then some (.u (if s.nat (Od.agreeState (keyInst key)) = 1 then 1 else 0))
  else none

end Sys2Proof.Machine
end

