-- ==== Sys2Proof/Machine/Rx.lean ====
section
/-! DEFINITION. The receive path of a carrier: its states, acquisition, the Ladle, the Whisk, joint recovery and the quality
measures (chapter 07). What the loops make of the light is told by the events. -/

namespace Sys2Proof.Machine

/-- A usable signal (R181). -/
def usableSignal (s : State) (n : Nat) : Bool :=
  s.nat (Od.lineState n) = 1 && !acting s (srcCarrier n 1) && !acting s (srcCarrier n 0)

/-! ### The DC block's settings (R168, R169) -/

/-- The DC block is frozen (R169). -/
def dcFrozen (s : State) (n : Nat) : Bool :=
  match s.nat (Od.dcFreeze n) with
  | 1 => true
  | 2 => false
  | _ => acting s (srcCarrier n 0) || acting s (srcCarrier n 1)
      || (isHub s n && (List.range 32).all fun k => (s.hub (32 * n + k)).burst.phase = 0)

/-- The DC block's settings begin afresh with those in force. -/
def dcRestart (s : State) (n : Nat) : State :=
  let e := s.engine n
  s.setEngine n { e with front := { e.front with dcRuns := [(s.nat (Od.dcShift n), dcFrozen s n)] } }

/-- The DC block goes on under the settings now in force: from the next block a change of them starts a run of its own. -/
def dcNote (s : State) (n : Nat) : State :=
  let e := s.engine n
  let now := (s.nat (Od.dcShift n), dcFrozen s n)
  if e.front.dcRuns.getLast? = some now then s
  else s.setEngine n { e with front := { e.front with dcRuns := e.front.dcRuns ++ [now] } }

/-! ### Rates and fades -/

/-- The sample rate in Hz (R33, R294). -/
def sampleHz (s : State) (n : Nat) : Nat := if krytelm s n then symbolHz s n * 9 / 8 else symbolHz s n * 5 / 4

/-- Blocks of 256 samples that a fade has run. -/
def fadeBlock (s : State) (n : Nat) (f : Fade) : Nat := min f.blocks ((s.uptime - f.start) * sampleHz s n / 256000000)

/-- The bank in use in block `k` of a fade: a blend of the banks it goes between (R173, R192). -/
def fadeBlend (f : Fade) (k : Nat) : List (Nat × List Int) :=
  let old := (f.old.map fun w => (w.1 * (f.blocks - k) / max f.blocks 1, w.2)).filter fun w => w.1 != 0
  let left : Nat := 4294967296 - (old.map (·.1)).foldl (· + ·) 0
  if left = 0 then old else old ++ [(left, f.new)]

/-- A fade from the bank in use, which a running fade may be blending (R174, R194). -/
def newFade (s : State) (n : Nat) (running : Option Fade) (present new : List Int) (blocks : Nat) : Fade :=
  let old := match running with
    | some f => fadeBlend f (fadeBlock s n f)
    | none => [(4294967296, present)]
  { old := old, new := new, start := s.uptime, blocks := blocks }

/-- Blocks still to run of a fade. -/
def fadeLeft (s : State) (n : Nat) : Option Fade → Nat
  | some f => f.blocks - fadeBlock s n f
  | none => 0

/-! ### The Ladle's transform (R151, R190) -/

/-- The nominal centre of a carrier's slot, in units of 6.25 GHz (R151). -/
def centreUnits (s : State) (n : Nat) : Int :=
  30896 + s.int (Od.anchorIndex (portOf n)) + ((n % 8 * s.nat (Od.spacingIndex (portOf n)) : Nat) : Int)

/-- `N ≤ half` for a dispersion of magnitude `d` ps/nm: N = d × λ² ÷ c × fs², λ² ÷ c = c ÷ f² (R190). -/
def overlapHeld (s : State) (n d half : Nat) : Bool :=
  let f := centreUnits s n * 6250000000
  decide ((d : Int) * 299792458 * sampleHz s n * sampleHz s n ≤ (half : Int) * 1000 * f * f)

/-- The smallest transform size that holds a dispersion; the largest where none does (R190). -/
def fftSizeFor (s : State) (n d : Nat) : Nat :=
  ((List.range 9).map fun k => 4096 * 2 ^ k).find? (fun z => overlapHeld s n d (z / 2)) |>.getD 1048576

/-- The largest magnitude that the transform in use holds, at most 250,000 ps/nm. -/
def ladleMax (s : State) (n : Nat) : Nat :=
  let f := (centreUnits s n * 6250000000).toNat
  min 250000 (s.nat (Od.fftSize n) / 2 * 1000 * f * f / max 1 (299792458 * sampleHz s n * sampleHz s n))

/-! ### The Whisk's taps -/

/-- One filter at another length: zeros are added, or taps removed, equally at both ends (R201). -/
def padTaps (count : Nat) (f : List (Int × Int)) : List (Int × Int) :=
  if f.length ≤ count then
    let a := (count - f.length) / 2
    List.replicate a (0, 0) ++ f ++ List.replicate (count - f.length - a) (0, 0)
  else (f.drop ((f.length - count) / 2)).take count

def resizeTaps (count : Nat) (taps : List (Int × Int)) : List (Int × Int) := (List.range 4).flatMap fun i => padTaps count (tapsOf taps i)

/-- A unit centre tap on hxx and hyy (R185). -/
def unitTaps (count : Nat) : List (Int × Int) :=
  let unit := padTaps count [(16384, 0)]
  let zero := List.replicate count ((0, 0) : Int × Int)
  unit ++ zero ++ zero ++ unit

/-- hyx and hyy as the orthogonal complement of hxx and hxy (R198). -/
def complementTaps (taps : List (Int × Int)) : List (Int × Int) :=
  let hxx := tapsOf taps 0
  let hxy := tapsOf taps 1
  hxx ++ hxy ++ (hxy.reverse.map fun t => (-t.1, t.2)) ++ (hxx.reverse.map fun t => (t.1, -t.2))

/-! ### State changes (R180–R187, R217) -/

def State.setDsp (s : State) (n : Nat) (x : Rx) : State := s.setEngine n { s.engine n with dsp := x }
def State.dsp (s : State) (n : Nat) : Rx := (s.engine n).dsp

/-- Blocks are no longer decoded: alignment, the recovered clock and the trays follow (R184, R206, R283). A held target stays (R289). -/
def rxSilent (s : State) (n : Nat) : State :=
  let e := s.engine n
  let rx := { e.rx with known := false, passes := 0, fails := 0, lastHeader := none, resync := 0, requestParts := [], matchRun := 0 }
  let s := s.setEngine n { e with rx := rx, sieveStart := 0, inFlight := 0 }
  traysRefresh (carrierClockLost (s.setN (Od.alignState n) 0) n) n

/-- The carrier leaves `TRACK` (R183, R217, R226); `cause` 0 is an exit to `RX_OFF`. The older snapshot becomes the held warm state. -/
def leaveTrack (s : State) (n cause : Nat) : State :=
  if s.nat (Od.rxState n) != 3 then s else
  let s := (s.bump (Od.trackLosses n)).setB (Od.measuresValid n) false
  let s := if cause = 0 then s else s.setN (Od.lastLossCause n) cause
  let s := if cause = 4 then s.bump (Od.pilotSyncLosses n) else s
  let s := if 3 ≤ cause ∧ cause ≤ 6 then s.setCond (srcCarrier n 7) true else s
  let s := s.setCond (srcCarrier n 10) false
  let e := s.engine n
  let x := e.dsp
  let held := match x.snaps with
    | [] => x.held
    | [a] => some a
    | _ :: b :: _ => some b
  let q := { x.quality with trackMicros := x.quality.trackMicros + (s.uptime - x.quality.trackFrom) }
  let s := s.setEngine n { e with trackSince := none, dsp := { x with snaps := [], held := held, quality := q } }
  if s.nat (Od.bcState n) = 1 then s.setN (Od.bcState n) 2 else s

/-- `ACQUIRE` is entered, cold (2) or warm (1): step 1 of R185 or R186. In mode 1 every attempt uses the active `DispersionSet` (R510);
values are loaded without a fade (R192). -/
def acquire (s : State) (n kind : Nat) : State :=
  let s := (s.setN (Od.rxState n) 2).setN (Od.acquireKind n) kind
  let count := s.nat (Od.whiskTaps n)
  let x := { s.dsp n with step := 1, began := s.uptime, gated := 0, fade := none, due := false, phases := [], trims := [] }
  let s := ((s.setN (Od.tapsActive n) count).setB (Od.timingLocked n) false).setB (Od.polSwapped n) false
  let s := match (if kind = 1 then x.held else none) with
    | some w =>
      let d := if x.mode = 1 then s.int (Od.dispersionSet n) else w.ladle
      let s := ((s.setI (Od.dispersionNow n) d).setF (Od.clockOffset n) w.clock).setF (Od.carrierRecoveryFreqOffset n) w.freq
      s.setDsp n { x with taps := resizeTaps count w.taps }
    | none =>
      let mode := s.nat (Od.ladleMode n)
      let lo := s.int (Od.searchMin n)
      let hi := s.int (Od.searchMax n)
      let d := if mode = 0 then max lo.natAbs hi.natAbs else min 250000 ((s.int (Od.dispersionSet n)).natAbs + 2000)
      let size := fftSizeFor s n d
      let s := ((s.setF (Od.clockOffset n) 0).setF (Od.carrierRecoveryFreqOffset n) 0).setF (Od.freqDrift n) 0
      let s := (s.setN (Od.fftSize n) size).setF (Od.ladleLatency n)
        (f32OfRat (((size * 1000000000 + 40 * sampleHz s n : Nat)) : Int) (max 1 (sampleHz s n)))
      (s.setCond (srcCarrier n 8) false).setDsp n { x with mode := mode, searchMin := lo, searchMax := hi, taps := unitTaps count }
  rxSilent s n

/-- The kind of an acquisition that is to be warm: cold where no warm state is held (R219). -/
def warmKind (s : State) (n : Nat) : Nat := if (s.dsp n).held.isSome then 1 else 2

/-- Bring the receive state up to date with the signal (R182). The DC block freezes and is released with the alarms (R169). -/
def rxJudge (s : State) (n : Nat) : State :=
  let s := dcNote s n
  let ok := usableSignal s n
  match s.nat (Od.rxState n) with
  | 1 => if ok then acquire s n 2 else s
  | 2 => if ok then s else rxSilent (s.setN (Od.rxState n) (if (s.dsp n).held.isSome then 4 else 1)) n
  | 3 => if ok then s else
      rxSilent ((leaveTrack s n (if acting s (srcCarrier n 0) || s.nat (Od.lineState n) != 1 then 2 else 1)).setN (Od.rxState n) 4) n
  | 4 => if ok then acquire s n (if s.nat (Od.warmAttempts n) = 0 then 2 else warmKind s n) else s
  | _ => s

/-- The receive path starts on an enabled carrier (R179, R182). -/
def rxStart (s : State) (n : Nat) : State :=
  if s.nat (Od.rxState n) != 0 then s
  else if isHub s n then (s.setN (Od.rxState n) 5).setEngine n { s.engine n with injLost := false }
  else rxJudge ((s.setN (Od.rxState n) 1).setDsp n { s.dsp n with held := none, snaps := [], warmFails := 0 }) n

/-- The receive path stops: `RX_OFF`, and the warm state is discarded (R182). The received layout stays, for the measures that were taken under
it (R218, R229). -/
def rxStop (s : State) (n : Nat) : State :=
  if s.nat (Od.rxState n) = 0 then s else
  let s := leaveTrack s n 0
  let s := (s.setN (Od.rxState n) 0).setDsp n { s.dsp n with held := none, snaps := [], warmFails := 0, step := 0, fade := none }
  let s := rxSilent s n
  let e := s.engine n
  let s := ((s.setEngine n { e with injLost := false, rx := { record := e.rx.record, held := e.rx.held } }).setN (Od.rxTargetBlock n) 0).setN (Od.rxPendingTag n) 0
  ((s.setCond (srcCarrier n 7) false).setCond (srcCarrier n 13) false).setCond (srcCarrier n 8) false

/-- A loss of lock in `TRACK` (R217). Causes 3 to 5 re-acquire warm, cause 6 cold; no warm attempt is made where `WarmAttempts` is 0
or no warm state is held. -/
def lockLost (s : State) (n cause : Nat) : State :=
  if s.nat (Od.rxState n) != 3 then s else
  let s := leaveTrack s n cause
  acquire s n (if cause = 6 ∨ s.nat (Od.warmAttempts n) = 0 then 2 else warmKind s n)

/-- The last step of an acquisition completes (R185, R186). The caller has set the alignment state. A cell of the last `BcTimeout` makes
the back channel received (R254). -/
def trackEntry (s : State) (n : Nat) : State :=
  if s.nat (Od.rxState n) != 2 then s else
  let x := s.dsp n
  let s := (s.setN (Od.rxState n) 3).setN (Od.lastAcquireMicros n) (min (s.uptime - x.began) 4294967295)
  let s := s.bump (if s.nat (Od.acquireKind n) = 1 then Od.warmAcquisitions n else Od.coldAcquisitions n)
  let s := (s.setB (Od.measuresValid n) true).setCond (srcCarrier n 7) false
  let q := { x.quality with recent := [], trackFrom := s.uptime }
  let s := s.setEngine n { s.engine n with injLost := false, trackSince := some s.uptime, dsp := { x with warmFails := 0, held := none, snaps := [], quality := q } }
  let recent := krytelm s n && !isHub s n && (s.engine n).tune.lastCell.any fun t => decide (s.uptime ≤ t + 1000 * s.nat (Od.bcTimeout n))
  let s := if recent then (s.setN (Od.bcState n) 1).setCond (srcCarrier n 11) false else s
  traysRefresh (sealTrackEntry s n) n

/-! ### Acquisition events -/

/-- The step of an acquisition that only block alignment completes: 9 cold, 6 warm. -/
def lastStep (s : State) (n : Nat) : Nat := if s.nat (Od.acquireKind n) = 1 then 6 else 9

/-- Demapping starts (step 8 of R185, step 5 of R186). -/
def demapStart (s : State) (n : Nat) : State := (s.setDsp n { s.dsp n with step := lastStep s n - 1 }).setN (Od.alignState n) 1

/-- The attempt ends, and the next one follows (R182): warm again while fewer than `WarmAttempts` warm attempts in a row have failed. -/
def attemptFailed (s : State) (n : Nat) : State :=
  let x := s.dsp n
  let fails := if s.nat (Od.acquireKind n) = 1 then x.warmFails + 1 else x.warmFails
  acquire (s.setDsp n { x with warmFails := fails }) n (if x.held.isSome && decide (fails < s.nat (Od.warmAttempts n)) then 1 else 2)

/-- The clock tone at the held dispersion is below half of what it was at the snapshot (step 2 of R186). -/
def toneFails (s : State) (n tone : Nat) : Bool := (s.dsp n).held.any fun w => decide (2 * tone < w.tone)

/-- Step 3 or 4 of R185 loads the Ladle: what the scan of the search range found, or what refines it; in mode 1 the active
`DispersionSet`, which nothing refines (R189, R510). -/
def ladleLoad (s : State) (n : Nat) (lo hi found : Int) : State :=
  s.setI (Od.dispersionNow n) (if (s.dsp n).mode = 1 then s.int (Od.dispersionSet n) else max lo (min hi found))

/-- The taps adapt by the gradients gathered for them (R196). -/
def tapsAdapt (s : State) (n : Nat) (grad : List (Int × Int)) : State :=
  s.setDsp n { s.dsp n with taps := adapted (s.nat (Od.whiskStepShift n)) (s.dsp n).taps grad }

/-- The pilots are found: the taps adapt on them, and the frequency offset and the order of the polarisations are known. -/
def pilotStep (s : State) (n : Nat) (a : Acquired) : State :=
  ((tapsAdapt s n a.grad).setF (Od.carrierRecoveryFreqOffset n) a.freq).setB (Od.polSwapped n) a.swapped

/-- One step of an acquisition completes. On a Krytelm carrier the last two are events of their own: the acceptance of a header (R273)
and the alignment of blocks (R284). -/
def execAcquisitionStepDone (n : Nat) (a : Acquired) (s : State) : Out :=
  onUnit (n < 64) s fun s =>
    let x := s.dsp n
    let step := x.step + 1
    let warm := s.nat (Od.acquireKind n) = 1
    if s.nat (Od.rxState n) != 2 || !usableSignal s n || (krytelm s n && decide (lastStep s n ≤ step + 1)) then s
    else if step = lastStep s n then
      (trackEntry ((s.setN (Od.alignState n) 2).setN (Od.rxBlockCounter n) 0) n)
    else if warm && step = 2 && toneFails s n a.tone then attemptFailed s n
    else
      let s := s.setDsp n { x with step := step }
      if warm then
        match step with
        | 2 => s.setB (Od.timingLocked n) true
        | 3 => tapsAdapt s n a.grad
        | 4 => pilotStep s n a
        | _ => demapStart s n
      else
        match step with
        | 2 => s
        | 3 => ladleLoad s n x.searchMin x.searchMax a.dispersion
        | 4 => (ladleLoad (s.setF (Od.clockOffset n) a.clock) n (-250000) 250000 a.dispersion).setB (Od.timingLocked n) true
        | 5 => tapsAdapt s n a.grad
        | 6 => s.setF (Od.carrierRecoveryFreqOffset n) a.freq
        | 7 => pilotStep s n a
        | _ => demapStart s n

/-- A step exceeds its bound (R182, R187). -/
def execAcquisitionStepTimeout (n : Nat) (s : State) : Out :=
  onUnit (n < 64) s fun s =>
    if s.nat (Od.rxState n) != 2 || !usableSignal s n then s else attemptFailed (s.bump (Od.acquireFailures n)) n

def execRxLolTimer (n : Nat) (s : State) : Out :=
  onUnit (n < 64) s fun s => if s.nat (Od.rxState n) = 2 && usableSignal s n then s.setCond (srcCarrier n 7) true else s

def execWarmHoldExpired (n : Nat) (s : State) : Out :=
  onUnit (n < 64) s fun s =>
    if s.nat (Od.rxState n) != 4 then s
    else rxJudge ((s.setN (Od.rxState n) 1).setDsp n { s.dsp n with held := none }) n

/-- Every 10 µs in `TRACK` (R183); `tone` is the clock-tone metric now. -/
def execWarmSnapshot (n tone : Nat) (s : State) : Out :=
  onUnit (n < 64) s fun s =>
    if s.nat (Od.rxState n) != 3 then s else
    let x := s.dsp n
    let w : Warm := ⟨s.int (Od.dispersionNow n), x.taps, s.f32 (Od.clockOffset n), s.f32 (Od.carrierRecoveryFreqOffset n), tone⟩
    s.setDsp n { x with snaps := (w :: x.snaps).take 2 }

/-- `Reacquire` (R219). -/
def reacquire (n code : Nat) (s : State) : Status × State :=
  if code != 1 && code != 2 then (.range, s)
  else if s.nat (Od.rxState n) != 2 && s.nat (Od.rxState n) != 3 then (.state, s)
  else if s.armed n then (.shadowBusy, s)
  else
    let s := leaveTrack s n 7
    (.ok, acquire s n (if code = 1 then warmKind s n else 2))

def execReacquire (k n code : Nat) (s : State) : Out := .next (hostCmd s k (Od.reacquire n) code (reacquire n code))

/-! ### The Ladle in `TRACK` (R191–R194) -/

/-- Move the Ladle through a fade. -/
def ladleFadeTo (s : State) (n : Nat) (d : Int) : State :=
  let x := s.dsp n
  let f := newFade s n x.fade [s.int (Od.dispersionNow n)] [d] (s.nat (Od.ladleFadeBlocks n))
  (s.setDsp n { x with fade := some f }).setI (Od.dispersionNow n) d

/-- A residual in 0.001 ps/nm, rounded to 1 ps/nm (half away from zero) and limited to 50 ps/nm. -/
def ladleMove (r : Int) : Int :=
  let m : Int := min 50 ((r.natAbs + 500) / 1000 : Nat)
  if r < 0 then -m else m

/-- The Ladle tracks in `TRACK`, in mode 0, and the residual asks for an update (R191). -/
def trackDue (s : State) (n : Nat) : Bool :=
  let x := s.dsp n
  s.nat (Od.rxState n) = 3 && x.mode = 0 && s.flag (Od.ladleTrack n) && decide (1000 * s.nat (Od.trackStep n) ≤ x.residual.natAbs)

/-- One tracking update (R191). -/
def ladleTrack (s : State) (n : Nat) : State :=
  let old := s.int (Od.dispersionNow n)
  let want := old + ladleMove (s.dsp n).residual
  if want.natAbs ≤ ladleMax s n then (ladleFadeTo s n want).bump (Od.trackUpdates n)
  else
    let lim : Int := if want < 0 then -(ladleMax s n : Int) else ladleMax s n
    let s := s.setCond (srcCarrier n 8) true
    if lim = old then s else (ladleFadeTo s n lim).bump (Od.trackUpdates n)

/-- Every 1 ms; an update that falls due in a fade waits for its end (R220). -/
def execLadleTrackUpdate (n : Nat) (s : State) : Out :=
  onUnit (n < 64) s fun s =>
    if !trackDue s n then s
    else if (s.dsp n).fade.isSome then s.setDsp n { s.dsp n with due := true }
    else ladleTrack s n

def execLadleFadeDone (n : Nat) (s : State) : Out :=
  onUnit (n < 64) s fun s =>
    let x := s.dsp n
    if x.fade.isNone then s else
    let s := s.setDsp n { x with fade := none, due := false }
    if x.due && trackDue s n then ladleTrack s n else s

/-- A copy of `DispersionSet` (R193). -/
def dispersionCopied (s : State) (n : Nat) : State :=
  let x := s.dsp n
  let d := s.int (Od.dispersionSet n)
  let st := s.nat (Od.rxState n)
  let mode := if st = 0 ∨ st = 1 then s.nat (Od.ladleMode n) else x.mode
  if mode = 0 then s
  else match st with
    | 3 => if d.natAbs ≤ ladleMax s n then ladleFadeTo s n d else acquire (leaveTrack s n 7) n 2
    | 2 =>
      let s := acquire s n 2
      (s.setDsp n { s.dsp n with step := 2 }).setI (Od.dispersionNow n) d
    | 0 => s
    | _ => s.setDsp n { x with held := x.held.map fun w => { w with ladle := d } }

/-- A copy of `WhiskTaps` (R201, R220): in `TRACK` the count changes now, in `HOLD` that of the held taps, elsewhere at the next
initialisation. -/
def whiskCopied (s : State) (n : Nat) : State :=
  let x := s.dsp n
  let count := s.nat (Od.whiskTaps n)
  if s.nat (Od.rxState n) = 4 then s.setDsp n { x with held := x.held.map fun w => { w with taps := resizeTaps count w.taps } }
  else if s.nat (Od.rxState n) != 3 then s else
  let gated := if x.taps.length / 4 ≤ count then 0 else x.gated - (x.taps.length / 4 - count) / 2
  (s.setDsp n { x with taps := resizeTaps count x.taps, gated := gated }).setN (Od.tapsActive n) (count - 2 * gated)

/-! ### The Whisk (R198–R202) -/

/-- Taps with `g` outer pairs reading 0. -/
def gateTaps (g : Nat) (taps : List (Int × Int)) : List (Int × Int) :=
  (List.range 4).flatMap fun i =>
    let f := tapsOf taps i
    f.zipIdx.map fun t => if t.2 < g ∨ f.length - g ≤ t.2 then (0, 0) else t.1

/-- Once per 1 ms in `TRACK`: the taps adapt by the gradients gathered for them, blind ones in mode 2 and pilot- and decision-aided ones in
mode 0, and not at all in mode 1 (R196). `peaks` are the highest squared magnitudes of each outer pair in the last 1 ms, outermost pair
first; at most one pair is gated or reopened (R200). -/
def execTapGating (n : Nat) (blind aided : List (Int × Int)) (peaks : List Nat) (s : State) : Out :=
  onUnit (n < 64) s fun s =>
    if s.nat (Od.rxState n) != 3 then s else
    let mode := s.nat (Od.whiskMode n)
    let s := if mode = 1 then s else tapsAdapt s n (if mode = 2 then blind else aided)
    let x := s.dsp n
    let count := x.taps.length / 4
    let largest := (x.taps.map magSq).foldl max 0
    let g := if !s.flag (Od.tapGating n) then 0
      else if 0 < x.gated ∧ largest * 1000 < peaks.getD x.gated 0 * 2511886 then x.gated - 1
      else if 7 ≤ count - 2 * (x.gated + 1) ∧ 2 * (x.gated + 1) ≤ count ∧ peaks.getD x.gated 0 * 10000 < largest then x.gated + 1
      else x.gated
    (s.setDsp n { x with gated := g, taps := gateTaps g x.taps }).setN (Od.tapsActive n) (count - 2 * g)

/-- The estimates of R202, R204, R205 and R207, in `ACQUIRE` and `TRACK`; in `HOLD` every loop stands still (R183, R218). -/
def execWhiskEstimates (n : Nat) (e : WhiskReport) (s : State) : Out :=
  onUnit (n < 64) s fun s =>
    if s.nat (Od.rxState n) != 2 && s.nat (Od.rxState n) != 3 then s else
    let s := (((s.setF (Od.dgdEstimate n) e.dgd).setF (Od.pdlEstimate n) e.pdl).setF (Od.sopRate n) e.sop).peakF (Od.sopRatePeak n) e.sop
    let s := ((s.setF (Od.clockOffset n) e.clock).setB (Od.timingLocked n) e.locked).setF (Od.tapCentroid n) (tapCentroid (s.dsp n).taps)
    let s := (s.bumpBy (Od.timingSlips n) e.slips).setF (Od.carrierRecoveryFreqOffset n) e.freq
    (s.setF (Od.freqDrift n) e.drift).setDsp n { s.dsp n with residual := e.residual }

/-- The Whisk converges blind: step 5 of R185 or step 3 of R186 is under way. -/
def blindRuns (s : State) (n : Nat) : Bool :=
  s.nat (Od.rxState n) = 2 && (s.dsp n).step = (if s.nat (Od.acquireKind n) = 1 then 2 else 4)

/-- 10 µs of samples of both polarisations, one window under the taps for each symbol, the latest sample first: the outputs are correlated
(R198). In `TRACK` their correlation is a loss of lock. -/
def execSingularityCheck (n : Nat) (run : List (List (Int × Int) × List (Int × Int))) (s : State) : Out :=
  onUnit (n < 64) s fun s =>
    let x := s.dsp n
    if !singular (run.map fun w => whiskOut x.taps w.1 w.2) then s
    else if s.nat (Od.rxState n) = 3 then lockLost s n 4
    else if blindRuns s n then (s.bump (Od.singularities n)).setDsp n { x with taps := complementTaps x.taps }
    else s

def execTimingLockLoss (n : Nat) (s : State) : Out :=
  onUnit (n < 64) s fun s => if s.nat (Od.rxState n) = 3 then lockLost (s.setB (Od.timingLocked n) false) n 3 else s

def execPilotSyncLoss (n : Nat) (s : State) : Out := onUnit (n < 64) s fun s => lockLost s n 4
def execFrequencyOutOfRange (n : Nat) (s : State) : Out := onUnit (n < 64) s fun s => lockLost s n 6

/-! ### Joint recovery (R210–R214) -/

/-- Slot `j` of port `p` is a candidate (R210). -/
def jointCandidate (s : State) (p j : Nat) : Bool :=
  let n := 8 * p + j
  s.nat (Od.lightSource p) = 0 && s.flag (Od.jointEnable p) && s.nat (Od.rxState n) = 3 && krytelm s n && !isHub s n

/-- It has been in `TRACK` for `QualifyTime` (R211). -/
def jointReady (s : State) (p j : Nat) : Bool :=
  match (s.engine (8 * p + j)).trackSince with
  | some u => decide (u + 1000 * s.nat (Od.jointRecoveryQualifyTime p) ≤ s.uptime)
  | none => false

def maskOf (js : List Nat) : Nat := (js.map fun j => 2 ^ j).foldl (· + ·) 0
def slotsOf (mask : Nat) : List Nat := (List.range 8).filter fun j => decide (mask / 2 ^ j % 2 = 1)

/-- Fit, drop the worst that exceeds the limit, and fit again (R211). `fits` gives the rms residuals, in 10⁻⁶ rad by slot, of the fit
of each set of candidates. Answers the set that is left, and the last residual of every candidate that a fit held. -/
def jointPrune (fits : List (Nat × List Nat)) (limit : Nat) : Nat → List Nat → List (Nat × Nat) → List Nat × List (Nat × Nat)
  | 0, js, res => (js, res)
  | f + 1, js, res =>
    if js.length < 3 then (js, res) else
    match fits.find? fun x => x.1 = maskOf js with
    | none => ([], res)
    | some x =>
      let res := js.foldl (fun r j => Tbl.ins r j (x.2.getD j 0)) res
      let worst := js.foldl (fun a j => if x.2.getD a 0 < x.2.getD j 0 then j else a) (js.headD 0)
      if limit < x.2.getD worst 0 then jointPrune fits limit f (js.filter (· != worst)) res else (js, res)

/-- `PhaseMode` of each carrier of a port. -/
def phaseModes (s : State) (p : Nat) (members : List Nat) : State :=
  (List.range 8).foldl (fun s j => s.setN (Od.phaseMode (8 * p + j)) (if members.contains j then 1 else 0)) s

/-- `JointResidual` of the carriers whose residual has been taken; a carrier that is no candidate has none (R214). -/
def residualsReport (s : State) (p : Nat) (res : List (Nat × Nat)) : State :=
  (List.range 8).foldl (fun s j =>
    let key := Od.jointResidual (8 * p + j)
    if !jointCandidate s p j then s.setF key 0 else
    match res.find? fun r => r.1 = j with
    | some r => s.setF key (f32OfRat (r.2 : Int) 1000000)
    | none => s) s

/-- A member set of three or more is in force; the alarm of its members clears (R213). The limit that the test used stands until the next
(R230). -/
def jointForm (s : State) (p : Nat) (js : List Nat) : State :=
  let s := ((phaseModes s p js).setN (Od.memberMask p) (maskOf js)).setB (Od.jointActive p) true
  let limit := s.nat (Od.residualLimit p)
  js.foldl (fun s j =>
    let n := 8 * p + j
    (s.setDsp n { s.dsp n with jointLimit := limit }).setCond (srcCarrier n 9) false) s

/-- Fewer than three members remain: the joint estimate stops, with the alarm against those that remain (R213). -/
def jointStop (s : State) (p : Nat) (left : List Nat) (alarm : Bool) : State :=
  if !s.flag (Od.jointActive p) then s else
  let s := ((phaseModes s p []).setN (Od.memberMask p) 0).setB (Od.jointActive p) false
  if !alarm then s else left.foldl (fun s j => s.setCond (srcCarrier (8 * p + j) 9) true) (s.bump (Od.fallbacks p))

def execJointQualifyTest (p : Nat) (fits : List (Nat × List Nat)) (s : State) : Out :=
  onUnit (p < 8) s fun s =>
    if !s.flag (Od.jointEnable p) then s else
    let js := (List.range 8).filter fun j => jointCandidate s p j && jointReady s p j
    let r := jointPrune fits (1000 * s.nat (Od.residualLimit p)) 8 js []
    let s := residualsReport s p r.2
    if 3 ≤ r.1.length then jointForm s p r.1
    else jointStop s p (r.1.filter fun j => (slotsOf (s.nat (Od.memberMask p))).contains j) true

/-- The pilot sum over `PhaseAverage` symbol periods, whose angle is the phase estimate of the carrier (R208). -/
def phaseSum (x : Rx) : Cx := x.phases.foldl Cx.add (0, 0)

/-- A value with the estimated phase taken off. -/
def phaseOff (x : Rx) (y : Cx) : Cx :=
  let v := phaseSum x
  if v = (0, 0) then y else
  let m : Int := max 1 (Nat.sqrt (magSq v) : Nat)
  let r := y.mul 0 v.conj
  (r.1 / m, r.2 / m)

/-- The pilots of one pilot group of carrier `n` (R208, R215): the phase estimate takes their sum, over as many groups as `PhaseAverage`
holds, and each trim takes off the gain and phase that is left of its pilots. -/
def pilotsTaken (s : State) (n : Nat) (pilots : List PilotSum) : State :=
  if pilots.isEmpty then s else
  let x := s.dsp n
  let f := fmtOf s n
  let groups := max 1 (s.nat (Od.phaseAverage n) / max 1 (pilotSpacing f.pilot * f.n))
  let now := pilots.foldl (fun (a : Cx) q => a.add (q.re, q.im)) (0, 0)
  let x := { x with phases := (now :: x.phases).take groups }
  let trims := pilots.foldl (fun t q =>
    let h := phaseOff x (q.re, q.im)
    let m : Int := magSq h
    if m = 0 then t
    else Tbl.ins t (2 * q.sc + q.pol.toNat) (h.1 * (q.norm * 2 ^ 14 : Nat) / m, -(h.2 * (q.norm * 2 ^ 14 : Nat) / m))) x.trims
  s.setDsp n { x with trims := trims }

/-- A pilot group: `residuals` are the candidates' rms residuals over 100 µs (10⁻⁶ rad), `slips` the cycle slips found (R208, R212). -/
def execPilotGroupFit (p : Nat) (residuals slips : List (Nat × Nat)) (pilots : List PilotSum) (s : State) : Out :=
  onUnit (p < 8) s fun s =>
    let s := slips.foldl (fun s x =>
      let n := 8 * p + x.1
      if x.1 < 8 ∧ s.nat (Od.rxState n) = 3 then (s.bumpBy (Od.cycleSlips n) x.2).countEv 1 n 5 x.2 else s) s
    let s := (List.range 8).foldl (fun s j =>
      if s.nat (Od.rxState (8 * p + j)) = 3 then pilotsTaken s (8 * p + j) (pilots.filter fun q => q.slot = j) else s) s
    let s := residualsReport s p residuals
    let now := slotsOf (s.nat (Od.memberMask p))
    if !s.flag (Od.jointEnable p) then jointStop s p [] false
    else
      let keep := now.filter fun j =>
        jointCandidate s p j && usableSignal s (8 * p + j)
          && decide (Tbl.get (fun _ => 0) residuals j ≤ 2000 * (s.dsp (8 * p + j)).jointLimit)
      if keep.length = now.length then s
      else if keep.length < 3 then jointStop s p keep true
      else (phaseModes s p keep).setN (Od.memberMask p) (maskOf keep)

/-! ### Quality measures (R222–R226) -/

def QSum.add (a b : QSum) : QSum :=
  ⟨a.sx + b.sx, a.se + b.se, a.errs + b.errs, a.bits + b.bits, a.syms + b.syms, a.gmi + b.gmi, a.ent + b.ent⟩

def sumOf (l : List (Nat × QSum)) (k : Nat) : QSum := Tbl.get (fun _ => {}) l k

/-- The sums of two sets of subcarriers, added. -/
def sumsAdd (a b : List (Nat × QSum)) : List (Nat × QSum) :=
  b.foldl (fun a x => Tbl.put (fun _ => {}) a x.1 ((sumOf a x.1).add x.2)) a

/-- The codes of the received layout (R215); a profile has SC0 only (R227). -/
def rxCodes (s : State) (n : Nat) : List Nat := if krytelm s n then recordCodes (s.engine n).rx.record else [0]

/-- A subcarrier counts towards a carrier's measures: it is active in the received layout. -/
def rxActive (s : State) (n k : Nat) : Bool :=
  if krytelm s n then decide (k < s.nat (Od.subcarrierCount n)) && (rxCodes s n).getD k codeOff != codeOff else k = 0

/-- 32 × H of a subcarrier of the received layout; a profile's constellation order (R227, R294). -/
def rxEntropy32 (s : State) (n k : Nat) : Nat :=
  if krytelm s n then entropy32 ((rxCodes s n).getD k 0)
  else match profileOf s n with
    | 2 => 64
    | 3 => 64
    | 4 => 96
    | _ => 128

/-- All of a carrier's subcarriers together. -/
def sumTotal (l : List (Nat × QSum)) : QSum := (l.map (·.2)).foldl QSum.add {}

def snrOf (q : QSum) : F32 := dbF32 q.sx q.se
def evmOf (q : QSum) : F32 := sqrtF32 100 q.se q.sx
def berOf (q : QSum) : F32 := if q.bits = 0 then 0 else f32OfRat (q.errs : Int) q.bits
/-- GMI, weighted by symbols; each symbol counts with the entropy that its subcarrier then had. -/
def gmiOf (q : QSum) : F32 :=
  if q.syms = 0 then 0 else f32OfRat ((q.ent * 134217728 : Nat) - (q.gmi : Int)) (q.syms * 4294967296)

def marginOf (s : State) (n : Nat) (q : QSum) : F32 := qMargin q.errs q.bits (thresholdOf s n).1 (thresholdOf s n).2

/-- `OsnrEstimate` (R224). -/
def osnrOf (s : State) (n : Nat) (q : QSum) : F32 :=
  let top := f32OfInt 60
  if q.sx = 0 then 0 else if q.se = 0 then top else
  let trx := f32Int (Config.transceiverSnr n) / 2 ^ 85
  if dbFx q.sx q.se * 10 > trx * 10 - 3 * 2 ^ 64 then top else
  let r := ratioOfDb trx
  let den : Int := (q.se * r : Nat) - ((q.sx * 2 ^ 128 : Nat) : Int)
  if den ≤ 0 then top else
  let x := dbFx (q.sx * r * symbolHz s n) (den.toNat * 12500000000)
  if x > 60 * 2 ^ 64 then top else fxToF32 x

/-- The sums of the last `w` milliseconds. -/
def windowSums (q : Quality) (w : Nat) : List (Nat × QSum) := (q.recent.take w).foldl sumsAdd []

/-- What one data symbol or pilot of a subcarrier adds to its sums, and the LLR words that the demapper passes to the Sieve (R216,
R222, R241). -/
def symbolSum (s : State) (n sc : Nat) (pol : Bool) (frame : Nat) (index : Option Nat) (y : Cx) (label : List Bool) : QSum × List Int :=
  let f := fmtOf s n
  let codes := rxCodes s n
  let e := codes.getD sc codeOff
  let x := s.dsp n
  let y := phaseOff x y
  let y := match x.trims.find? fun t => t.1 = 2 * sc + pol.toNat with | some t => y.mul 14 t.2 | none => y
  let near (r : Cx) : Nat × Nat := (magSq r, magSq (y.1 - r.1, y.2 - r.2))
  match index with
  | none =>
    let p := near ((pilotPoints label).headD (0, 0))
    ({ sx := p.1, se := p.2 }, [])
  | some i =>
    let w := ampBits e
    let c := frameLevels f e frame
    let g := levelGain c
    let act := activeSubs f codes
    let signs := frameSigns f e (act.idxOf sc) act.length frame
    let frozen (d : Nat) : Bool := signs[4 * i + 2 * pol.toNat + d]? = some Sign.frozen
    let li := label.take (w + 1)
    let lq := label.drop (w + 1)
    let p := near (labelValue g li, labelValue g lq)
    let hard := hardLabel w g y.1 ++ hardLabel w g y.2
    let ratio := ratioOfDb (f32Int (s.f32 (Od.subcarrierQualitySnrNow (32 * n + sc))) / 2 ^ 85)
    let llrs := dimLlrs w c ratio (frozen 0) y.1 ++ dimLlrs w c ratio (frozen 1) y.2
    let loss := (List.zip label llrs).map fun b => log2OnePlus (if b.1 then b.2 else -b.2) / 2 ^ 32
    ({ sx := p.1, se := p.2, errs := ((List.zip label hard).filter fun b => b.1 != b.2).length, bits := label.length, syms := 1,
       gmi := loss.foldl (· + ·) 0, ent := rxEntropy32 s n sc }, llrs.map (llrWord (Config.llrScale n sc)))

/-- The sums of a millisecond by subcarrier, with the LLR words passed on. -/
def samplesSum (s : State) (n : Nat) (samples : List QualitySample) : List (Nat × QSum) × List Int :=
  samples.foldl (fun acc q =>
    match q with
    | .symbol sc pol frame index y label =>
      if krytelm s n && rxActive s n sc then
        let r := symbolSum s n sc pol frame index y label
        (sumsAdd acc.1 [(sc, r.1)], acc.2 ++ r.2)
      else acc
    | .profile sx se errs bits syms gmi =>
      if krytelm s n then acc else (sumsAdd acc.1 [(0, ⟨sx, se, errs, bits, syms, gmi, syms * rxEntropy32 s n 0⟩)], acc.2)) ([], [])

/-- Every 1 ms in `TRACK`: `samples` are what the last millisecond measured (R223). A subcarrier that the layout no longer has counts no
more towards the values of now. -/
def execQualityUpdate (n : Nat) (samples : List QualitySample) (s : State) : Out :=
  onUnit (n < 64) s fun s =>
    if s.nat (Od.rxState n) != 3 then s else
    let x := s.dsp n
    let r := samplesSum s n samples
    let q := { x.quality with recent := (r.1 :: x.quality.recent).take 1000, interval := sumsAdd x.quality.interval r.1 }
    let win := (windowSums q (s.nat (Od.qualityWindow n))).filter fun c => rxActive s n c.1
    let tot := sumTotal win
    let margin := marginOf s n tot
    let s := ((s.setF (Od.carrierQualitySnrNow n) (snrOf tot)).setF (Od.carrierQualityEvmNow n) (evmOf tot)).setF (Od.carrierQualityBerNow n) (berOf tot)
    let s := ((s.setF (Od.carrierQualityGmiNow n) (gmiOf tot)).setF (Od.osnrEstimate n) (osnrOf s n tot)).setF (Od.qMarginNow n) margin
    let s := (List.range 32).foldl (fun s k =>
      let i := 32 * n + k
      if rxActive s n k then
        let c := sumOf win k
        (((s.setF (Od.subcarrierQualitySnrNow i) (snrOf c)).setF (Od.subcarrierQualityEvmNow i) (evmOf c)).setF (Od.subcarrierQualityGmiNow i)
          (gmiOf c)).setF (Od.subcarrierQualityBerNow i) (berOf c)
      else s) s
    let low := win.foldl (fun (l : List (Nat × F32)) c =>
      let v := snrOf c.2
      Tbl.ins l c.1 (match l.find? fun y => y.1 = c.1 with | some y => f32Min y.2 v | none => v)) q.snrMin
    let qm := match q.marginMin with | some m => f32Min m margin | none => margin
    let e := s.engine n
    let kept := win.foldl (fun t c => Tbl.ins t c.1 ((f32Int (snrOf c.2) :: Tbl.get (fun _ => []) t c.1).take 3600000)) e.tune.window
    s.setEngine n { e with dsp := { x with quality := { q with snrMin := low, marginMin := some qm }, llrs := r.2 }, tune := { e.tune with window := kept } }

/-- The alarm level in dB × 10 with its 0.5 dB of hysteresis (R226). -/
def execQmarginTimer (n : Nat) (low : Bool) (s : State) : Out :=
  onUnit (n < 64) s fun s =>
    let a := s.int (Od.qMarginAlarm n)
    if s.nat (Od.rxState n) != 3 then s
    else if low then (if f32LtRat (s.f32 (Od.qMarginNow n)) a 10 then s.setCond (srcCarrier n 10) true else s)
    else (if f32GeRat (s.f32 (Od.qMarginNow n)) (a + 5) 10 then s.setCond (srcCarrier n 10) false else s)

/-- The interval measures latch and restart (R223). -/
def rxLatch (s : State) : State :=
  (List.range 64).foldl (fun s n =>
    let x := s.dsp n
    let q := x.quality
    let track := s.nat (Od.rxState n) = 3
    let us := q.trackMicros + (if track then s.uptime - q.trackFrom else 0)
    let tot := sumTotal q.interval
    let none' := us = 0
    let put (k : Nat) (v : F32) (s : State) : State := s.setF k (if none' then 0 else v)
    let s := (put (Od.carrierQualitySnrInterval n) (snrOf tot) (put (Od.carrierQualityEvmInterval n) (evmOf tot) s))
    let s := put (Od.carrierQualityBerInterval n) (berOf tot) (put (Od.carrierQualityGmiInterval n) (gmiOf tot) s)
    let s := (s.setN (Od.bitErrorsInterval n) tot.errs).setN (Od.bitsInterval n) tot.bits
    let s := put (Od.qMarginInterval n) (marginOf s n tot) (put (Od.qMarginMinInterval n) (q.marginMin.getD 0) s)
    let s := s.setN (Od.trackMillisInterval n) (min 1000 (us / 1000))
    let s := (List.range 32).foldl (fun s k =>
      let i := 32 * n + k
      let c := sumOf q.interval k
      let s := put (Od.subcarrierQualitySnrInterval i) (snrOf c) (put (Od.subcarrierQualityEvmInterval i) (evmOf c) s)
      let s := put (Od.subcarrierQualityGmiInterval i) (gmiOf c) (put (Od.subcarrierQualityBerInterval i) (berOf c) s)
      put (Od.snrMinInterval i) (Tbl.get (fun _ => 0) q.snrMin k) s) s
    s.setDsp n { x with quality := { q with interval := [], snrMin := [], marginMin := none, trackMicros := 0, trackFrom := s.uptime } }) s

/-! ### Commands and objects (R229) -/

def clearRxCounters (s : State) : Status × State :=
  (.ok, s.clearObjs fun k =>
    let i := keyIdx k
    let j := keySub k
    (i = 0x3100 && decide (6 ≤ j ∧ j ≤ 9)) || (i = 0x3110 && j = 12) || (i = 0x3120 && (j = 9 || j = 10)) || (i = 0x3125 && j = 5)
      || (i = 0x3130 && (j = 5 || j = 8)) || (i = 0x3131 && j = 5))

def execClearRxCounters (k : Nat) (s : State) : Out := .next (hostCmd s k Od.clearRxCounters 1 clearRxCounters)

/-- The refusals of writes to objects of this chapter (R189). -/
def rxCheck (c : State) (key : Nat) : Status :=
  let n := keyInst key
  if keyIdx key = 0x3110 ∧ (keySub key = 3 ∨ keySub key = 4) ∧ c.int (Od.searchMax n) < c.int (Od.searchMin n) then .inconsistent else .ok

/-- `WhiskTapSnapshot` (R203): the taps at the active `WhiskTaps`; before the first acquisition those that it will start from. -/
def tapBlock (s : State) (n : Nat) : Bytes :=
  let count := s.nat (Od.whiskTaps n)
  let taps := (s.dsp n).taps
  let taps := if taps.isEmpty then unitTaps count else resizeTaps count taps
  leBytes 1 count ++ taps.flatMap fun t => leBytes 2 (unsignedOf 16 t.1) ++ leBytes 2 (unsignedOf 16 t.2)

/-- Objects that are read from the running hardware. -/
def rxRead (s : State) (key : Nat) : Option Val :=
  let idx := keyIdx key
  let n := keyInst key
  let sub := keySub key
  let zero : Val := match s.val key with | .f _ => .f 0 | _ => .u 0
  if idx = 0x3110 ∧ sub = 11 then some (.u (fadeLeft s n (s.dsp n).fade))
  else if idx = 0x3120 ∧ sub = 5 ∧ (s.dsp n).taps.isEmpty then some (.u (s.nat (Od.whiskTaps n)))
  else if idx = 0x3121 then some (.o (tapBlock s n))
  else if idx = 0x3130 ∧ sub = 2 then
    some (.f (f32OfRat (f32Int (s.f32 (Od.carrierRecoveryFreqOffset n)) * 100000000) (max 1 (symbolHz s n) * 2 ^ 149)))
  else if idx = 0x3150 ∧ sub = 16 then some (.f (Config.transceiverSnr n))
  else if idx = 0x3150 ∧ 2 ≤ sub ∧ sub ≤ 17 ∧ isHub s n then some zero
  else if idx = 0x3151 ∧ 1 ≤ sub ∧ (isHub s (n / 32) || !rxActive s (n / 32) (n % 32)) then some zero
  else none

end Sys2Proof.Machine
end

