-- ==== Sys2Proof/Machine/Optics.lean ====
section
/-! DEFINITION. Light in and out of a carrier: lines, bias loops, launch power, converters and the front-end filters, with the
start and stop of a carrier's service (chapter 06, R244–R247, R511). -/

namespace Sys2Proof.Machine

def State.front (s : State) (n : Nat) : Front := (s.engine n).front
def State.setFront (s : State) (n : Nat) (x : Front) : State := s.setEngine n { s.engine n with front := x }

/-- A measured power as its object reports it: −60.0 below −50 dBm (R177). -/
def powerReading (x : F32) : F32 := if f32LtRat x (-50) 1 then 0xC2700000 else x

/-- The carrier is in service: `CarrierEnable` reads true and the enable is not held (R79). -/
def inService (s : State) (n : Nat) : Bool := s.flag (Od.carrierEnable n) && !(s.engine n).heldEnable

/-- `READY` and `TRAFFIC` follow the carriers in service (R72). -/
def trafficJudge (s : State) : State :=
  let any := (List.range 64).any (inService s)
  if s.boot.st = .ready && any then s.enter .traffic
  else if s.boot.st = .traffic && !any then s.enter .ready
  else s

/-! ### The block counter's restarts (R511) -/

/-- Shift the blocks of a change by the blocks that a restart takes off the count. -/
def Change.shift (c : Change) (d : Nat) : Change := { c with first := c.first.map (· - d), target := c.target.map (· - d) }

/-- The transmit block counter restarts at 0: the encoder and every sealing run start afresh (R274, R349, R511). A change that waits
for its target keeps the number of blocks that it had to wait. -/
def restartBlocks (s : State) (n : Nat) : State :=
  let e := s.engine n
  let d := e.tx.next
  let tx := { e.tx with next := 0, enc := {}, host := e.tx.host.map (·.shift d), auto := e.tx.auto.map (·.shift d),
                        unmapped := [], layouts := [], blocks := [] }
  let s := (s.setEngine n { e with tx := tx }).setN (Od.txBlockCounter n) 0
  let s := match tx.host with
    | some c => (match c.target with | some t => s.setN (Od.targetBlock n) t | none => s)
    | none => s
  sealRestart s n

/-! ### The launch (R156, R159–R162) -/

/-- The launch level of a ramp now, in 10⁻³ dBm. -/
def rampLevel (s : State) (r : Ramp) : Int :=
  let t := min (s.uptime - r.start) r.micros
  if r.micros = 0 then r.hi else r.lo + (r.hi - r.lo) * t / r.micros

/-- The launch level, where the carrier emits: its ramp's, else `LaunchPower`. -/
def launchLevel (s : State) (n : Nat) : Option Int :=
  if s.nat (Od.txState n) = 1 ∨ s.nat (Od.txState n) = 2 then
    some (match (s.front n).ramp with | some r => rampLevel s r | none => 100 * s.int (Od.launchPower n))
  else none

/-- Light may leave the dark level (R74, R156, R160). A carrier in hold mode does not wait for its loops. -/
def mayLaunch (s : State) (n : Nat) : Bool :=
  s.running && s.engineUp n && s.nat (Od.calState n) = 2 && !(s.engine n).resetting && s.nat (Od.lineState n) = 1
    && !acting s (srcCarrier n 0) && !(s.front n).lineHeld && !(s.front n).unlocked

/-- `TxState` at the dark level (R156, R159, R177): 3 from the loss of a line until R156 has run through, whether or not the carrier
is in service, and for a carrier in service whose line is absent. -/
def darkState (s : State) (n : Nat) : Nat :=
  if s.engineUp n && !(s.engine n).resetting
    && ((s.front n).lineHeld || acting s (srcCarrier n 0) || (inService s n && s.nat (Od.lineState n) != 1)) then 3 else 0

/-- The dark level, without a ramp. -/
def goDark (s : State) (n : Nat) : State := (s.setFront n { s.front n with ramp := none }).setN (Od.txState n) (darkState s n)

/-- The time that a ramp of `span` 10⁻³ dB takes at 20 dB per `TurnOnTime`. -/
def turnOnMicros (s : State) (n : Nat) (span : Int) : Nat := span.natAbs * s.nat (Od.turnOnTime (portOf n)) / 20000

def startRamp (s : State) (n : Nat) (lo hi : Int) (micros : Nat) (dark : Bool) : State :=
  (s.setFront n { s.front n with ramp := some ⟨lo, hi, s.uptime, micros, dark⟩ }).setN (Od.txState n) 1

/-- Bring the launch up to date (R156, R160, R161). -/
def launchJudge (s : State) (n : Nat) : State :=
  let full : Int := 100 * s.int (Od.launchPower n)
  let falling := match (s.front n).ramp with | some r => r.dark | none => false
  match launchLevel s n with
  | none =>
    if mayLaunch s n && inService s n then startRamp s n (full - 20000) full (turnOnMicros s n 20000) false
    else s.setN (Od.txState n) (darkState s n)
  | some l =>
    if !mayLaunch s n then goDark s n
    else if inService s n then (if falling then startRamp s n l full (turnOnMicros s n (full - l)) false else s)
    else if falling then s
    else startRamp s n l (full - 20000) (turnOnMicros s n (full - 20000 - l)) true

/-- The ramp completes (R161). -/
def execLaunchRampDone (n : Nat) (s : State) : Out :=
  onUnit (n < 64) s fun s =>
    match (s.front n).ramp with
    | none => s
    | some r =>
      if r.dark then goDark s n else (s.setFront n { s.front n with ramp := none }).setN (Od.txState n) 2

/-- A copy of `LaunchPower` (R161, R162): a ramp at `LaunchRamp` to the new level, or a turn-on or turn-off that goes on to the
new level. -/
def launchCopied (old s : State) (n : Nat) : State :=
  if old.int (Od.launchPower n) = s.int (Od.launchPower n) then s else
  match launchLevel old n with
  | none => s
  | some l =>
    let full : Int := 100 * s.int (Od.launchPower n)
    match (old.front n).ramp with
    | some r =>
      if r.dark then startRamp s n l (full - 20000) (turnOnMicros s n (full - 20000 - l)) true
      else if old.nat (Od.txState n) = 1 then startRamp s n l full (turnOnMicros s n (full - l)) false
      else (startRamp s n l full ((full - l).natAbs * 10 / s.nat (Od.launchRamp (portOf n))) false).setN (Od.txState n) 2
    | none =>
      let s := startRamp s n l full ((full - l).natAbs * 10 / s.nat (Od.launchRamp (portOf n))) false
      s.setN (Od.txState n) 2

/-! ### The comb lines (R155, R156) -/

/-- The tap photodiode judges the line present at this power, referred to the receptacle (R155): between the two limits it stays as it
was. -/
def linePresent (was : Bool) (power : F32) : Bool := f32GeRat power (-4) 1 || (was && !f32LtRat power (-6) 1)

/-- Steps 1 and 2 of R156. A line that falls again before step 4 is not counted again; where the engine is powered down its alarm is
not raised (R501). -/
def lineAbsent (s : State) (n : Nat) (power : F32) : State :=
  let x := s.front n
  let s := (s.setN (Od.lineState n) 0).setF (Od.linePower n) (powerReading power)
  let s := if x.lineWaits then s else s.bump (Od.lineLosses n)
  let s := if s.engineUp n then s.setCond (srcCarrier n 0) true else s
  let s := (s.setFront n { s.front n with lineHeld := true, lineWaits := true }).setB (Od.biasLocked n) false
  launchJudge (rxJudge s n) n

def execCombLineLost (n : Nat) (power : F32) (s : State) : Out :=
  onUnit (n < 64) s fun s =>
    if s.nat (Od.lineState n) != 1 || !s.domUp (domPort (portOf n)) || !f32LtRat power (-6) 1 then s else lineAbsent s n power

/-- Step 3 of R156. -/
def execCombLineReturn (n : Nat) (power : F32) (s : State) : Out :=
  onUnit (n < 64) s fun s =>
    if s.nat (Od.lineState n) = 1 || !s.domUp (domPort (portOf n)) || !f32GeRat power (-4) 1 then s else
    let s := (s.setN (Od.lineState n) 1).setF (Od.linePower n) (powerReading power)
    launchJudge (rxJudge s n) n

/-- Step 4 of R156. In hold mode no loop has to lock again. -/
def execCombLineStable (n : Nat) (s : State) : Out :=
  onUnit (n < 64) s fun s =>
    if s.nat (Od.lineState n) != 1 then s else
    let s := s.setCond (srcCarrier n 0) false
    let x := s.front n
    let s := s.setFront n { x with lineWaits := false, lineHeld := x.lineHeld && s.nat (Od.biasMode n) != 1 }
    launchJudge (rxJudge s n) n

/-! ### Bias loops and heaters (R157, R158, R163) -/

/-- The bias loops run: mode auto, with the line present and past step 4 of R156, on a powered tile. -/
def loopsRun (s : State) (n : Nat) : Bool :=
  s.nat (Od.lineState n) = 1 && !(s.front n).lineWaits && s.nat (Od.biasMode n) = 0 && s.domUp (domPort (portOf n))

/-- The six points stand where the loops have moved them (R157). -/
def biasTo (s : State) (n : Nat) (bias : List Int) : State :=
  (List.range 6).foldl (fun s j => s.setI (Od.bias n j) (bias.getD j 0)) s

def execBiasLockAchieved (n : Nat) (bias : List Int) (s : State) : Out :=
  onUnit (n < 64) s fun s =>
    if !loopsRun s n then s
    else launchJudge ((biasTo (s.setFront n { s.front n with lineHeld := false, unlocked := false }) n bias).setB (Od.biasLocked n) true) n

def execBiasErrorTimer (n : Nat) (out : Bool) (s : State) : Out :=
  onUnit (n < 64) s fun s =>
    if s.nat (Od.biasMode n) != 0 || !s.engineUp n then s
    else if out then
      (if (s.source (srcCarrier n 3)).real then s else ((s.setCond (srcCarrier n 3) true).bump (Od.biasRelocks n)).setB (Od.biasLocked n) false)
    else if (s.source (srcCarrier n 3)).real then (s.setCond (srcCarrier n 3) false).setB (Od.biasLocked n) true
    else s

/-- The power of a heater: at most 40 mW (R163). -/
def heaterPower (x : F32) : F32 := if f32GtRat x 40 1 then 0x42200000 else x

/-- The heaters take the powers that keep their filters on the line: in track mode, while the line is there to follow (R156, R163). -/
def heatersTo (s : State) (n : Nat) (tx lo : F32) : State :=
  if s.nat (Od.heaterMode n) != 0 || s.nat (Od.lineState n) != 1 then s
  else (s.setF (Od.txFilterHeater n) (heaterPower tx)).setF (Od.loFilterHeater n) (heaterPower lo)

def execHeaterLimitTimer (n : Nat) (limit : Bool) (tx lo : F32) (s : State) : Out :=
  onUnit (n < 64) s fun s =>
    if !s.engineUp n then s else
    let s := heatersTo s n tx lo
    let atLimit (x : F32) : Bool := f32GeRat x 40 1
    let tx := s.f32 (Od.txFilterHeater n)
    let lo := s.f32 (Od.loFilterHeater n)
    if limit then (if atLimit tx || atLimit lo then s.setCond (srcCarrier n 4) true else s)
    else if f32LtRat tx 38 1 && f32LtRat lo 38 1 then s.setCond (srcCarrier n 4) false
    else s

/-! ### Receive power (R165) -/

def execLosSignalTimer (n : Nat) (low : Bool) (power : F32) (s : State) : Out :=
  onUnit (n < 64) s fun s =>
    let s := s.setF (Od.rxPower n) (powerReading power)
    let th := s.int (Od.losThreshold n)
    if !inService s n || isHub s n || !s.engineUp n then s
    else if low then (if f32LtRat power th 10 then rxJudge (s.setCond (srcCarrier n 1) true) n else s)
    else if f32GeRat power (th + 10) 10 then rxJudge (s.setCond (srcCarrier n 1) false) n
    else s

def execRxOverloadTimer (n : Nat) (high : Bool) (power : F32) (s : State) : Out :=
  onUnit (n < 64) s fun s =>
    let s := s.setF (Od.rxPower n) (powerReading power)
    if !s.engineUp n then s
    else if high then (if f32GtRat power 4 1 then s.setCond (srcCarrier n 2) true else s)
    else if f32LeRat power 3 1 then s.setCond (srcCarrier n 2) false
    else s

/-! ### The DC block and the gain loop (R168–R171) -/

/-- One block of the DC block: d ← d + 2⁻ᵏ (m − d), in 2⁻²⁴ of a code (R168). -/
def dcStep (k : Nat) (d : Int) (m : Int) : Int := d + (m * 65536 - d) / 2 ^ k

/-- 10^(x ÷ 2,000) × 2¹²⁸ for a gain difference in 0.01 dB. -/
def gainRatio (x : Int) : Nat := ratioOfDb (x * 2 ^ 64 / 200)

def digitalClamp (n : Nat) : Nat := max 2048 (min 8192 n)

/-- The loop of one channel at the end of a window (R170): one analog step with its compensation in the digital gain, or the digital
trim towards the target with a time constant of four windows (1 − e^(−1/4) = 0.2212). -/
def agcChannel (s : State) (n j : Nat) (rms : F32) : State :=
  let r := (f32Int rms).natAbs
  let t := s.nat (Od.agcTarget n) * 2 ^ 139
  let i := s.nat (Od.gainIndex n j)
  let g := s.nat (Od.digitalGain n j)
  let above := t * t * 1258925411794 < r * r * 1000000000000
  let below := r * r * 1258925411794 < t * t * 1000000000000
  let step (i' : Nat) : State :=
    let p := portOf n
    let g' := (g * gainRatio (s.int (Od.gainEntry p i) - s.int (Od.gainEntry p i')) + 2 ^ 127) / 2 ^ 128
    ((s.setN (Od.gainIndex n j) i').setN (Od.digitalGain n j) (digitalClamp g')).bump (Od.agcSteps n)
  if above && decide (0 < i) then step (i - 1)
  else if below && decide (i < 47) then step (i + 1)
  else
    let want : Int := if r = 0 then 8192 else min 8192 (t * 4096 / r : Nat)
    s.setN (Od.digitalGain n j) (digitalClamp (((g : Int) + (want - g) * 2212 / 10000).toNat))

/-- One run of blocks under one setting of the DC block; `means` are by channel, in 1/256 code. -/
def dcRun (dc : List Int) (run : (Nat × Bool) × List (List Int)) : List Int :=
  if run.1.2 then dc else (List.range 4).map fun j => (run.2.getD j []).foldl (dcStep run.1.1) (dc.getD j 0)

/-- The port's and the carrier's measured light (R153, R157, R163, R177). -/
def lightMeasured (s : State) (n : Nat) (light : LightReading) : State :=
  let p := portOf n
  let s := (s.setF (Od.linePower n) (powerReading light.line)).setF (Od.rxPower n) (powerReading light.rx)
  let s := (s.setF (Od.combInputPower p) (powerReading light.comb)).setF (Od.rxInputPower p) (powerReading light.rxTotal)
  let s := if loopsRun s n then biasTo s n light.bias else s
  let s := heatersTo s n light.txHeater light.loHeater
  if s.nat (Od.lineState n) != 1 then s
  else ((s.setI (Od.lineOffset n) light.offset).setI (Od.txFilterOffset n) light.txOffset).setI (Od.loFilterOffset n) light.loOffset

/-- A window ends: `rms` is by channel; `means` are the block means of each run of blocks under one setting of the DC block, in
order and by channel; `clips` counts clipped samples of the four ADCs since the last window, and `light` is what was measured
meanwhile. -/
def execAgcWindowEnd (n : Nat) (rms : List F32) (means : List (List (List Int))) (clips : List Nat) (light : LightReading) (s : State) :
    Out :=
  onUnit (n < 64) s fun s =>
    if !s.engineUp n then s else
    let s := lightMeasured s n light
    let x := s.front n
    let dc := (x.dcRuns.zip means).foldl dcRun x.dc
    let s := s.setFront n { x with dc := dc, clips := (List.range 4).map fun j => x.clips.getD j 0 + clips.getD j 0 }
    let s := dcRestart s n
    let s := (List.range 4).foldl (fun s j => s.countEv 1 n 6 (clips.getD j 0)) s
    let hold := acting s (srcCarrier n 0) || acting s (srcCarrier n 1)
    (List.range 4).foldl (fun s j =>
      let s := s.setF (Od.channelRms n j) (rms.getD j 0)
      if s.nat (Od.agcMode n) = 0 && !isHub s n && !hold then agcChannel s n j (rms.getD j 0) else s) s

/-- Mode 2 applies the manual gains (R171). -/
def manualGain (s : State) (n : Nat) : State :=
  if s.nat (Od.agcMode n) != 2 then s else
  (List.range 4).foldl (fun s j =>
    (s.setN (Od.gainIndex n j) (s.nat (Od.manualIndex n j))).setN (Od.digitalGain n j) (s.nat (Od.manualDigitalGain n))) s

/-- Clipped samples latch and restart at a 1 s boundary (R167). -/
def frontLatch (s : State) : State :=
  (List.range 64).foldl (fun s n =>
    let c := (s.front n).clips
    let s := (List.range 4).foldl (fun s j => s.setN (Od.adcClips n j) (min (c.getD j 0) 4294967295)) s
    let e := s.engine n
    (s.setN (Od.dacClips n) (min e.dacClips 4294967295)).setEngine n { e with dacClips := 0, front := { e.front with clips := [0, 0, 0, 0] } }) s

/-! ### Skew and response filters (R172–R174, R245) -/

/-- The applied skew of a channel: calibrated value plus trim, limited (R172). -/
def skewSum (s : State) (n j : Nat) (tx : Bool) : Int :=
  if tx then s.int (Od.txSkewCal n j) + s.int (Od.txSkewTrim n j) else s.int (Od.skewCal n j) + s.int (Od.skewTrim n j)

/-- The settings of a filter: the four applied skews and the response mode. -/
def filterBank (s : State) (n : Nat) (tx : Bool) : List Int :=
  ((List.range 4).map fun j => max (-512) (min 512 (skewSum s n j tx)))
    ++ [((if tx then s.nat (Od.txResponseMode n) else s.nat (Od.responseMode n) : Nat) : Int)]

/-- `SKEW_LIMIT` is present on a powered engine while a sum lies outside the range (R172, R176); on a hub carrier there is none of the
transmit filter (R263). -/
def skewJudge (s : State) (n : Nat) : State :=
  let out (tx : Bool) : Bool := s.engineUp n && (List.range 4).any fun j => decide (512 < (skewSum s n j tx).natAbs)
  (s.setCond (srcCarrier n 5) (out false)).setCond (srcCarrier n 6) (!isHub s n && out true)

/-- New settings of a filter take effect through a fade (R173, R174). -/
def filterFade (old s : State) (n : Nat) (tx : Bool) : State :=
  let a := filterBank old n tx
  let b := filterBank s n tx
  if a = b then s else
  let x := s.front n
  if tx then s.setFront n { x with txFade := some (newFade s n x.txFade a b (s.nat (Od.txFadeBlocks n))) }
  else s.setFront n { x with rxFade := some (newFade s n x.rxFade a b (s.nat (Od.fadeBlocks n))) }

/-- A copy of the carrier's optical shadows at the target block. -/
def frontCopied (old s : State) (n : Nat) : State :=
  launchCopied old (skewJudge (filterFade old (filterFade old s n false) n true) n) n

def execFrontEndFadeDone (n : Nat) (tx : Bool) (s : State) : Out :=
  onUnit (n < 64) s fun s =>
    let x := s.front n
    s.setFront n (if tx then { x with txFade := none } else { x with rxFade := none })

/-! ### In and out of service (R159, R161) -/

/-- An enable takes effect: the block counter restarts, the launch ramps and the receive path starts. -/
def carrierStart (s : State) (n : Nat) : State :=
  let s := if s.engineUp n && s.nat (Od.calState n) = 2 then restartBlocks s n else s
  let s := trafficJudge s
  let s := if krytelm s n && !isHub s n then s.setN (Od.bcState n) 2 else s
  let s := if s.engineUp n && s.nat (Od.calState n) = 2 && !(s.engine n).resetting then rxStart s n else s
  traysRefresh (launchJudge s n) n

/-- A disable takes effect: the launch falls, the receive path stops, `LOS_SIGNAL` ends. -/
def carrierStop (s : State) (n : Nat) : State :=
  let s := dcNote ((rxStop (s.setCond (srcCarrier n 1) false) n).setN (Od.bcState n) 0) n
  let e := s.engine n
  let s := s.setEngine n { e with tune := { lastApplied := e.tune.lastApplied, lastCell := e.tune.lastCell } }
  traysRefresh (launchJudge (trafficJudge s) n) n

/-- A held enable is applied as soon as its three conditions hold together (R79). -/
def heldRelease (s : State) (n : Nat) : State :=
  let e := s.engine n
  if e.heldEnable && s.nat (Od.calState n) = 2 && s.engineUp n && (s.boot.st = .ready || s.boot.st = .traffic) then
    carrierStart (s.setEngine n { e with heldEnable := false }) n
  else s

/-! ### A port's light (R150, R151, R154) -/

/-- Every slot of a port has its nominal centre in the band: 191.30 to 196.10 THz in units of 6.25 GHz. -/
def bandOk (s : State) (p : Nat) : Bool :=
  (List.range 8).all fun j => decide (30608 ≤ centreUnits s (8 * p + j) ∧ centreUnits s (8 * p + j) ≤ 31376)

/-- The occupied bandwidth of a carrier fits its slot (R233). -/
def slotFits (s : State) (n : Nat) : Bool := decide (occupiedKhz s n + 12500000 ≤ s.nat (Od.spacingIndex (portOf n)) * 6250000)

/-- The tile's converter serves the calibration while any engine of the port calibrates (R473). -/
def calMonitor (s : State) (p : Nat) : State :=
  if (List.range 8).any fun j => s.nat (Od.calState (8 * p + j)) = 1 then monitorSuspend s p else monitorResume s p

/-- `CalState` takes a value; `CAL_FAILED` is present while it reads 4 (R490). -/
def setCalState (s : State) (n v : Nat) : State := calMonitor ((s.setN (Od.calState n) v).setCond (srcCarrier n 16) (v = 4)) (portOf n)

/-- A calibration of one engine starts at a step of R80. -/
def calStart (s : State) (n step : Nat) : State :=
  setCalState ((s.setEngine n { s.engine n with calStep := step }).setN (Od.calFailStep n) 0) n 1

/-- Steps 2 to 6 of R80 start for a port's powered engines, from `CALIBRATE` onwards. An engine that is not powered loses its
calibration and calibrates at power-up. -/
def portRecalibrate (s : State) (p : Nat) : State :=
  if s.beforeCalibrate then s else
  (List.range 8).foldl (fun s j =>
    let n := 8 * p + j
    if s.engineUp n then calStart s n 2 else setCalState s n 0) s

/-- The effect of writes to `LightSource`, `AnchorIndex` and `SpacingIndex`. -/
def portLightAfter (old s : State) (p : Nat) : State :=
  if old.nat (Od.lightSource p) = s.nat (Od.lightSource p) && old.int (Od.anchorIndex p) = s.int (Od.anchorIndex p)
    && old.nat (Od.spacingIndex p) = s.nat (Od.spacingIndex p) then s else portRecalibrate s p

/-! ### Objects (R177, R178, R246, R247, R267) -/

/-- The refusals of writes to objects of this chapter: `s` before the write, `c` with the written values. -/
def opticsCheck (s c : State) (key : Nat) : Status :=
  let idx := keyIdx key
  let n := keyInst key
  let sub := keySub key
  if idx = 0x3000 ∧ 1 ≤ sub ∧ sub ≤ 3 then
    (if s.val key = c.val key then .ok
     else if (List.range 8).any fun j => c.flag (Od.carrierEnable (8 * n + j)) then .state
     else if !bandOk c n then .inconsistent
     else if sub = 3 && !((List.range 8).all fun j => slotFits c (8 * n + j)) then .inconsistent
     else .ok)
  else if idx = 0x3010 ∧ sub = 1 then
    (if !c.flag key || s.flag key then .ok
     else if s.boot.st = .safe || !s.engineUp n || s.nat (Od.calState n) != 2 then .state
     else .ok)
  else if idx = 0x3040 ∧ 5 ≤ sub ∧ sub ≤ 8 then
    (if 512 < (c.shInt key + c.int (Od.skewCal n (sub - 5))).natAbs then .inconsistent else .ok)
  else if idx = 0x3043 ∧ sub = 1 then (if isHub s n && c.nat key != 0 then .state else .ok)
  else if idx = 0x3203 ∧ 1 ≤ sub ∧ sub ≤ 4 then
    (if 512 < (c.shInt key + c.int (Od.txSkewCal n (sub - 1))).natAbs then .inconsistent else .ok)
  else if idx = 0x3203 ∧ sub = 7 then (if c.flag (Od.carrierEnable n) then .state else .ok)
  else if idx = 0x3203 ∧ (sub = 8 ∨ sub = 9) then
    (let t := c.nat (Od.dacRmsTarget n)
     if 1024 * 1024 * 2 ^ 128 < t * t * ratioOfDb ((c.nat (Od.clipRatio n) : Int) * 2 ^ 64 / 10) then .inconsistent else .ok)
  else .ok

/-- The effect of an accepted write to an object of this chapter. -/
def opticsAfter (old s : State) (key : Nat) : State :=
  let idx := keyIdx key
  let n := keyInst key
  let sub := keySub key
  if idx = 0x3010 ∧ sub = 1 then
    (if s.flag key && !old.flag key then carrierStart s n
     else if !s.flag key && old.flag key then carrierStop (s.setEngine n { s.engine n with heldEnable := false }) n
     else s)
  else if idx = 0x3011 ∧ sub = 1 then (if old.nat key = s.nat key then s else s.setB (Od.biasLocked n) false)
  else if idx = 0x3042 then dcNote s n
  else if idx = 0x3043 then manualGain s n
  else s

/-- Objects that are read from the running hardware. -/
def opticsRead (s : State) (key : Nat) : Option Val :=
  let idx := keyIdx key
  let n := keyInst key
  let sub := keySub key
  if idx = 0x3000 ∧ sub = 4 then some (.u (maskOf ((List.range 8).filter fun j => s.nat (Od.lineState (8 * n + j)) = 1)))
  else if idx = 0x3010 ∧ sub = 4 then
    some (.f (match launchLevel s n with | some l => f32OfRat l 1000 | none => 0xC2700000))
  else if idx = 0x3011 ∧ sub = 2 then some (.u (if s.nat (Od.biasMode n) = 1 then 0 else s.nat key))
  else if idx = 0x3020 ∧ sub = 1 then some (.f (f32OfRat (sampleHz s n : Int) 1000000000))
  else if idx = 0x3040 ∧ sub = 10 then some (.u (fadeLeft s n (s.front n).rxFade))
  else if idx = 0x3042 ∧ sub = 3 then some (.u (if dcFrozen s n then 1 else 0))
  else if idx = 0x3042 ∧ 4 ≤ sub then some (.i (((s.front n).dc.getD (sub - 4) 0 + 32768) / 65536))
  else if idx = 0x3044 ∧ sub = 12 then some (.f (f32OfRat (sampleHz s n : Int) (1000000 * 2 ^ s.nat (Od.monitorDecimation n))))
  else none

end Sys2Proof.Machine
end

