-- ==== Sys2Proof/Machine/Hub.lean ====
section
/-! DEFINITION. Hub mode: downstream frames, grants, leaf contexts and queues, burst reception and hub keys (chapter 13). -/

namespace Sys2Proof.Machine

/-! ### Leaves and their contexts (R399, R403, R404) -/

/-- Leaf states by their codes in R146: 0 `UNREGISTERED`, 1 `RANGING`, 2 `ACTIVE`, 3 `DORMANT`, 4 `DISABLED`, 5 `LOST`. -/
def leafRegistered (st : Nat) : Bool := st = 1 || st = 2 || st = 3 || st = 5

def State.isHot (s : State) (l : Nat) : Bool := s.hotOrder.contains l

/-- A leaf's context: the hot copy where one exists (R404). -/
def State.ctx (s : State) (l : Nat) : Context := if s.isHot l then Tbl.get (fun _ => {}) s.hotCopies l else Tbl.get (fun _ => {}) s.contexts l
def State.setCtx (s : State) (l : Nat) (c : Context) : State :=
  if s.isHot l then { s with hotCopies := Tbl.put (fun _ => {}) s.hotCopies l c } else { s with contexts := Tbl.put (fun _ => {}) s.contexts l c }

def State.leafRun (s : State) (l : Nat) : LeafRun := Tbl.get (fun _ => {}) s.leafRuns l
def State.setLeafRun (s : State) (l : Nat) (x : LeafRun) : State := { s with leafRuns := Tbl.put (fun _ => {}) s.leafRuns l x }

/-- A counter of 5100h, held in the context; it saturates as its object does. -/
def Context.counter (c : Context) (sub : Nat) : Nat := Tbl.get (fun _ => 0) c.counters sub
def bumpLeaf (s : State) (l sub : Nat) (n : Nat := 1) : State :=
  let c := s.ctx l
  s.setCtx l { c with counters := Tbl.put (fun _ => 0) c.counters sub (min (c.counter sub + n) (counterMax (odKey 0x5100 l sub))) }

/-- The leaves whose context is not all zeros. -/
def State.knownLeaves (s : State) : List Nat := sortBy (fun a b => decide (a ≤ b)) ((s.hotCopies ++ s.contexts).map (·.1)).eraseDups

/-- The leaves homed on hub subcarrier `i` whose state satisfies `p`. -/
def leavesWith (s : State) (i : Nat) (p : Nat → Bool) : List Nat :=
  s.knownLeaves.filter fun l => (s.ctx l).home = i && p (s.ctx l).state

/-- The upstream frame k that is being received on hub subcarrier `i`: T_k + Teq has passed (R402). -/
def receivedFrame (s : State) (i : Nat) : Nat := (s.moduleTime - 1000 * s.nat (Od.equalisedDelay (i / 32))) / 125000

/-- The leaf is granted in the upstream frame being received or in the next one: its context is pinned. -/
def pinned (s : State) (l : Nat) : Bool :=
  s.hubs.any fun h => h.2.lineMaps.any fun m =>
    (m.1 = receivedFrame s h.1 || m.1 = receivedFrame s h.1 + 1) && m.2.any fun g => g.kind != 2 && g.leaf = l

/-- Evict the least recently used context that is not pinned; a changed context goes back to the Stockpot. -/
def evict (s : State) : State :=
  match s.hotOrder.reverse.find? fun l => !pinned s l with
  | none => s
  | some l =>
    let c := s.ctx l
    let s := { s with hotOrder := s.hotOrder.filter (· != l), hotCopies := Tbl.drop s.hotCopies l }
    s.setCtx l c

/-- Bring a context into the hot cache, or to its front; the Stockpot keeps what it holds. -/
def makeHot (s : State) (l : Nat) : State :=
  if s.isHot l then { s with hotOrder := l :: s.hotOrder.filter (· != l) } else
  let s := if 16384 ≤ s.hotOrder.length then evict s else s
  if 16384 ≤ s.hotOrder.length then s else
  let c := s.ctx l
  ({ s with hotOrder := l :: s.hotOrder }).setCtx l c

/-- The hot cache loses its contents, and with them what was not written back: MD0 half A is powered down (R41). -/
def hotLost (s : State) : State := { s with hotOrder := [], hotCopies := [] }

/-! ### Rates and timing (R388, R391, R400) -/

/-- Rs in MBd and N of a hub subcarrier's carrier: Rsc = Rs ÷ N. -/
def hubRs (s : State) (i : Nat) : Nat := s.nat (Od.symbolRate (i / 32))
def hubN (s : State) (i : Nat) : Nat := max 1 (s.nat (Od.subcarrierCount (i / 32)))

/-- G = ⌈32 ns × Rsc⌉. -/
def guardSymbols (s : State) (i : Nat) : Nat := (32 * hubRs s i + 1000 * hubN s i - 1) / (1000 * hubN s i)

/-- C = ⌊125 µs × Rsc ÷ 16⌋. -/
def frameUnits (s : State) (i : Nat) : Nat := 125 * hubRs s i / (16 * hubN s i)

/-- The length of a burst of `b` blocks in grant units (R391). -/
def burstUnits (s : State) (i b format : Nat) : Nat :=
  let d := (if format = 0 then 512 else 256) * b
  (guardSymbols s i + 656 + d + (d + 30) / 31 + 15) / 16

/-- Teq in Tsc × 16. -/
def teq16 (s : State) (i : Nat) : Nat := s.nat (Od.equalisedDelay (i / 32)) * hubRs s i * 16 / hubN s i

/-- `RangeWindow` of 2 µs in grant units (R398). -/
def windowUnits (s : State) (i : Nat) : Nat := (2 * hubRs s i + 16 * hubN s i - 1) / (16 * hubN s i)

/-- The hub frame of the present module time (R378). -/
def hubFrameNow (s : State) : Nat := s.moduleTime / 125000 % 2 ^ 48

/-- The frame k whose boundary B_k = T_k − 5 µs passed last (R401). -/
def boundaryFrame (s : State) : Nat := (s.moduleTime + 5000) / 125000

/-- The quiet interval of a discovery window of frame `w` with start `st`, in grant units of upstream frame `j` (R396). -/
def quietOf (s : State) (i j w st spread : Nat) : Int × Int :=
  let n := i / 32
  let den : Int := (100 * hubN s i : Nat)
  let us (r : Nat) : Int := (((w : Int) - j) * 12500 + 98 * (r : Int) - 100 * (s.nat (Od.equalisedDelay n) : Int)) * (hubRs s i : Int)
  let lo := us (s.nat (Od.reachMin n)) / den + 16 * (st : Int)
  let hi := -(-(us (s.nat (Od.reachMax n))) / den) + 16 * (st : Int) + 1024 * (spread : Int) + (guardSymbols s i : Int) + 656
  (lo / 16, -(-hi / 16))

/-- Every quiet interval that concerns upstream frame `j`: of the windows due by their phase and of those in maps on their way. -/
def quiets (s : State) (i j : Nat) : List (Int × Int) :=
  let due := if !s.flag (Od.discoveryEnable i) then [] else
    ((List.range 63).filterMap fun d => if 31 ≤ j + d ∧ (j + d - 31) % 32 = s.nat (Od.discoveryPhase i) then
      some (quietOf s i j (j + d - 31) 0 (s.nat (Od.spread i))) else none)
  let sent := (s.hub i).lineMaps.flatMap fun m => m.2.filterMap fun g =>
    if g.kind = 2 then some (quietOf s i j m.1 g.start g.blocks) else none
  sortBy (fun a b => decide (a.1 ≤ b.1)) (due ++ sent)

/-! ### The grant builder (R400) -/

/-- The first place from `pos` on where `len` units lie clear of every quiet interval. -/
def nextClear (quiet : List (Int × Int)) (pos len : Nat) : Nat :=
  quiet.foldl (fun (p : Nat) (q : Int × Int) => if (p : Int) < q.2 ∧ q.1 < ((p + len : Nat) : Int) then q.2.toNat else p) pos

/-- Bursts (leaf, blocks) in ascending leaf number, back to back from Start 0 over the quiet intervals; none where they do not fit. -/
def placeBursts (s : State) (i : Nat) (quiet : List (Int × Int)) : Nat → List (Nat × Nat) → Option (List Grant)
  | _, [] => some []
  | pos, (l, b) :: t =>
    let f := (s.ctx l).upFormat
    let len := burstUnits s i b f
    let p := nextClear quiet pos len
    if frameUnits s i < p + len then none
    else (placeBursts s i quiet (p + len) t).map (⟨0, l, p, b, f⟩ :: ·)

/-- The Kind 1 grants of `ls`, each with the hub kept free on either side (R398), with the intervals that they keep. -/
def placeRanging (s : State) (i : Nat) (quiet : List (Int × Int)) : Nat → List Nat → List Grant × List (Int × Int)
  | _, [] => ([], [])
  | pos, l :: t =>
    let w := windowUnits s i
    let len := burstUnits s i 0 0 + 2 * w
    let p := nextClear quiet pos len
    if frameUnits s i < p + len then ([], [])
    else
      let r := placeRanging s i quiet (p + len) t
      (⟨1, l, p + w, 0, 0⟩ :: r.1, ((p : Int), (p + len : Nat)) :: r.2)

/-- The hub subcarrier's data is sealed now (R385). -/
def hubSealed (s : State) (i : Nat) : Bool := s.flag (Od.hubSeal i)

/-- Remaining demand of a leaf in octets, and the blocks that it needs: one more when sealed, for the tag. -/
def demandLeft (s : State) (l : Nat) : Nat := (s.ctx l).demand * 256 - (s.leafRun l).granted
def needBlocks (s : State) (i l : Nat) : Nat :=
  let b := (demandLeft s l + 191) / 192
  if b = 0 then 0 else b + (if hubSealed s i then 1 else 0)
def capBlocks (s : State) (l : Nat) : Nat := if (s.ctx l).upMax = 0 then 1023 else (s.ctx l).upMax

def insertBurst (x : Nat × Nat) : List (Nat × Nat) → List (Nat × Nat)
  | [] => [x]
  | y :: t => if x.1 < y.1 then x :: y :: t else y :: insertBurst x t

/-- The first loop of R400: leaves in the order of their wait, until one no longer fits. -/
def firstGrants (s : State) (i j room : Nat) (quiet : List (Int × Int)) : List Nat → List (Nat × Nat) → List (Nat × Nat)
  | [], acc => acc
  | l :: t, acc =>
    let c := s.ctx l
    let poll := if c.state = 2 then s.nat (Od.pollInterval i) else s.nat (Od.dormantPoll i)
    if 0 < needBlocks s i l ∨ 0 < c.upMin ∨ poll ≤ j - (s.leafRun l).lastGrant then
      let next := insertBurst (l, min c.upMin (capBlocks s l)) acc
      if room ≤ acc.length || (placeBursts s i quiet 0 next).isNone then acc else firstGrants s i j room quiet t next
    else firstGrants s i j room quiet t acc

/-- The second loop of R400: one more block to the leaf with the least weighted share for which the burst still fits. -/
def moreBlocks (s : State) (i : Nat) (quiet : List (Int × Int)) : Nat → List (Nat × Nat) → List (Nat × Nat)
  | 0, acc => acc
  | fuel + 1, acc =>
    let add (l : Nat) : List (Nat × Nat) := acc.map fun x => if x.1 = l then (x.1, x.2 + 1) else x
    let able := acc.filter fun x => decide (x.2 < min (needBlocks s i x.1) (capBlocks s x.1)) && (placeBursts s i quiet 0 (add x.1)).isSome
    match able with
    | [] => acc
    | x :: t =>
      let less (a b : Nat × Nat) : Bool := decide (a.2 * ((s.ctx b.1).upWeight + 1) < b.2 * ((s.ctx a.1).upWeight + 1))
      let best := t.foldl (fun b a => if less a b then a else b) x
      moreBlocks s i quiet fuel (add best.1)

def insertGrant (g : Grant) : List Grant → List Grant
  | [] => [g]
  | y :: t => if g.start < y.start then g :: y :: t else y :: insertGrant g t

/-- Distinct leaves granted by the maps under construction. -/
def leavesBuilding (s : State) : Nat :=
  (s.hubs.flatMap fun h => match h.2.building with | some m => (m.filter fun g => g.kind != 2).map (·.leaf) | none => []).eraseDups.length

/-- The carrier emits at its launch power. -/
def hubTransmits (s : State) (i : Nat) : Bool := inService s (i / 32) && s.nat (Od.txState (i / 32)) = 2

/-- The map of upstream frame `j` (R396, R398–R400). -/
def buildMap (s : State) (i j : Nat) : List Grant :=
  if !hubTransmits s i then [] else
  let quiet := quiets s i j
  let window := if s.flag (Od.discoveryEnable i) && j % 32 = s.nat (Od.discoveryPhase i) then [Grant.mk 2 0 0 (s.nat (Od.spread i)) 0] else []
  let room := s.nat Od.maxLeavesPerFrame - leavesBuilding s
  let rl := (leavesWith s i fun st => st = 1 || st = 5).filter fun l => (s.ctx l).state = 1 || decide (32 ≤ j - (s.leafRun l).lastGrant)
  let r := placeRanging s i quiet 0 (rl.take room)
  let quiet := sortBy (fun a b => decide (a.1 ≤ b.1)) (quiet ++ r.2)
  let order := sortBy (fun a b => decide ((s.leafRun a).lastGrant ≤ (s.leafRun b).lastGrant)) (leavesWith s i fun st => st = 2 || st = 3)
  let data := moreBlocks s i quiet (frameUnits s i) (firstGrants s i j (room - r.1.length) quiet order [])
  ((window ++ r.1) ++ (placeBursts s i quiet 0 data).getD []).foldl (fun m g => insertGrant g m) []

/-- A hub subcarrier that carries traffic. -/
def hubRuns (s : State) (i : Nat) : Bool := decide (i < 2048) && isHub s (i / 32) && s.flag (Od.hubActive i)

/-- The builder completes the map of the next boundary (R401); `micros` is how long the build took. -/
def execMapBuildDone (i : Nat) (micros : F32) (s : State) : Out :=
  onUnit (i < 2048) s fun s =>
    if !hubRuns s i || (s.hub i).building.isSome then s else
    let s := s.setHub i { s.hub i with building := some (buildMap s i (boundaryFrame s + 2)) }
    (s.peakF Od.buildMicrosPeak micros).peak Od.leavesPerFramePeak (leavesBuilding s)

/-- The grants of a map count as issued for upstream frame `j`. -/
def issueGrants (s : State) (i j : Nat) (m : List Grant) : State :=
  let s := s.countEv 4 i 3 (m.filter fun g => g.kind != 2).length
  let s := s.countEv 4 i 4 ((m.filter fun g => g.kind != 2).map fun g => burstUnits s i g.blocks g.format).sum
  m.foldl (fun s g => if g.kind = 2 then s else
    let x := s.leafRun g.leaf
    s.setLeafRun g.leaf { x with lastGrant := j, granted := x.granted + 192 * g.blocks }) s

/-- At B_k the banks swap, or the stale map is reused (R401). -/
def execGrantMapSwap (i : Nat) (s : State) : Out :=
  onUnit (i < 2048) s fun s =>
    if !hubRuns s i then s else
    let h := s.hub i
    let j := boundaryFrame s + 1
    let stale := h.building.isNone
    let m := h.building.getD h.active
    let s := if stale then (s.bump (Od.grantMapStale i)).hold (fsHub i) 3 else s
    issueGrants (s.setHub i { h with active := m, building := none, lineMaps := ((j, m) :: h.lineMaps).take 16 }) i j m

/-! ### Control messages (R382) -/

def pad15 (b : Bytes) : Bytes := (b ++ List.replicate 15 0).take 15
def controlMessage (code : Nat) (b : Bytes) : Bytes := leBytes 1 code ++ pad15 b

/-- A message is sent in three consecutive frames. -/
def sendControl (s : State) (i l : Nat) (m : Bytes) : State :=
  let h := s.hub i
  s.setHub i { h with control := h.control ++ [(l, m, 3)] }

def beInt32 (z : Int) : Bytes := beBytes 4 (unsignedOf 32 z)

def sendRanging (s : State) (i l : Nat) : State := sendControl s i l (controlMessage 2 (beInt32 (s.ctx l).ranging))

/-- KeyInfo for one leaf. -/
def sendKeyInfo (s : State) (i l sel epoch frame : Nat) : State :=
  sendControl s i l (controlMessage 4 (leBytes 1 sel ++ beBytes 4 epoch ++ beBytes 6 frame))

/-- The epoch in use of the registered leaves of hub subcarrier `i` (R403). -/
def leafEpochs (s : State) (i epoch : Nat) : State :=
  (leavesWith s i leafRegistered).foldl (fun s l => s.setCtx l { s.ctx l with epoch := epoch }) s

/-! ### The downstream frame (R378–R385) -/

def grantBits (g : Grant) : List Bool :=
  let v := (((g.kind * 2 ^ 18 + g.leaf) * 2 ^ 22 + g.start) * 2 ^ 10 + g.blocks) * 16 + g.format * 8
  bitsOf 64 (v * 256 + crc8 56 v)

def frameHeader (k offset entries : Nat) : List Bool :=
  let v := ((0x6C3E91D5 * 2 ^ 48 + k) * 2 ^ 16 + offset % 65536) * 2 ^ 16 + entries * 16
  bitsOf 128 (v * 2 ^ 16 + crc16 112 v)

/-- The 8 octets of a segment header. -/
def segmentHeader (leaf type sel : Nat) (sealed : Bool) (len : Nat) : Bytes :=
  let v := ((((leaf * 4 + type) * 2 + sel) * 2 + (if sealed then 1 else 0)) * 2 ^ 18 + len) * 2 ^ 16
  beBytes 8 (v * 256 + crc8 56 v)

/-- Zero octets up to a multiple of `n`. -/
def padTo (n : Nat) (b : Bytes) : Bytes := b ++ List.replicate ((n - b.length % n) % n) 0

/-- The 4 octets of a hub word header (R381). -/
def pieceHeader (len frag prio : Nat) : Bytes :=
  let v := len * 2 ^ 8 + frag * 64 + prio * 8
  beBytes 4 (v * 256 + crc8 24 v)

/-- The leaf key of leaf `l` on hub subcarrier `i` under slot `b` (R384). -/
def leafKey (s : State) (i l b : Nat) : Bytes := hkdf384 (s.keySlot (2 * i + b)).key (beBytes 3 l) leafLabel 32

/-- The IV of a segment or burst (R385). -/
def hubIv (up : Bool) (l epoch frame : Nat) : Bytes :=
  beBytes 12 ((((if up then 1 else 0) * 2 ^ 18 + l) * 2 ^ 29 + epoch % 2 ^ 29) * 2 ^ 48 + frame % 2 ^ 48)

/-- The order in which a leaf's frames are read: one begun first, then by priority, then by age. -/
def readOrder (q : List QFrame) : List QFrame :=
  q.filter (fun f => decide (0 < f.taken)) ++ ([7, 6, 5, 4, 3, 2, 1, 0].flatMap fun p => q.filter fun f => f.taken = 0 && f.priority = p)

/-- Pieces of frames within `room` octets: the content, the frames as read, and (frame, octets of content at its end) of each frame
whose last piece is there. -/
def takePieces : Nat → List QFrame → Bytes → Bytes × List QFrame × List (Nat × Nat)
  | _, [], acc => (acc, [], [])
  | room, f :: t, acc =>
    let left := f.data.length - f.taken
    let fit := room - 4
    if room < 8 ∨ left = 0 then (acc, f :: t, [])
    else
      let n := if left ≤ fit / 4 * 4 then left else fit / 4 * 4
      let last := n = left
      let frag := if f.taken = 0 then (if last then 0 else 1) else if last then 3 else 2
      let acc' := acc ++ pieceHeader n frag f.priority ++ padTo 4 ((f.data.drop f.taken).take n)
      if last then
        let r := takePieces (room - 4 - (n + 3) / 4 * 4) t acc'
        (r.1, { f with taken := f.taken + n } :: r.2.1, (f.num, acc'.length) :: r.2.2)
      else (acc', { f with taken := f.taken + n } :: t, [])

/-- Octets that `DownRateMax` leaves to a leaf in the present 1 ms. -/
def rateRoom (s : State) (l : Nat) : Nat :=
  let c := s.ctx l
  if c.rateMax = 0 then 262143 else
    c.rateMax * 125 - (((s.leafRun l).sent.filter fun x => decide (s.uptime < x.1 + 1000)).map (·.2)).sum

/-- The leaves that a frame serves, from the cursor on. -/
def serveOrder (s : State) (i : Nat) : List Nat :=
  let ls := (leavesWith s i fun st => st = 2 || st = 3).filter fun l => (s.leafRun l).queue.any fun f => decide (f.taken < f.data.length)
  ls.filter (fun l => decide ((s.hub i).cursor ≤ l)) ++ ls.filter fun l => decide (l < (s.hub i).cursor)

/-- One data segment of leaf `l`, in at most `room` octets with its header and tag; answers its octets. -/
def dataSegment (s : State) (i l k room : Nat) (start : Nat) : Bytes × State :=
  let x := s.leafRun l
  let sealed := hubSealed s i
  let extra := 8 + (if sealed then 16 else 0)
  let credit := x.deficit + 1500 * ((s.ctx l).downWeight + 1)
  let most := min (min credit (rateRoom s l)) (min 262143 ((room - extra) / 8 * 8))
  let order := (readOrder x.queue).filter fun f => decide (f.taken < f.data.length)
  let r := takePieces most order []
  if room < extra + 8 || r.1.isEmpty then ([], s.setLeafRun l { x with deficit := credit }) else
  let sel := s.nat (Od.hubKeySelect i)
  let head := segmentHeader l 0 (if sealed then sel else 0) sealed r.1.length
  let body := if sealed then
      (let q := gcmSeal (leafKey s i l sel) (hubIv false l (s.nat (Od.hubEpoch i)) k) head r.1
       padTo 8 q.1 ++ q.2)
    else padTo 8 r.1
  let queue := x.queue.map fun f => (r.2.1.find? fun g => g.num = f.num).getD f
  let h := s.hub i
  let marks := r.2.2.map fun m => (start + 8 * (8 + m.2), l, m.1)
  let done := queue.all fun f => decide (f.taken = f.data.length)
  let s := s.setLeafRun l { x with queue := queue, deficit := if done then 0 else credit - r.1.length,
                                   sent := (s.uptime, r.1.length) :: x.sent.filter fun y => decide (s.uptime < y.1 + 1000) }
  let s := s.setHub i { h with marks := h.marks ++ marks, cursor := l + 1 }
  (head ++ body, s.countEv 4 i 5 r.1.length)

/-- The data segments of a frame, up to `room` octets. -/
def dataSegments (i k : Nat) : List Nat → Nat → Nat → Bytes → State → Bytes × State
  | [], _, _, acc, s => (acc, s)
  | l :: t, room, start, acc, s =>
    let r := dataSegment s i l k room start
    dataSegments i k t (room - r.1.length) (start + 8 * r.1.length) (acc ++ r.1) r.2

/-- Control segments: the waiting messages, one segment for each leaf, in at most `room` octets; answers what is still to be sent. -/
def controlSegments : List Nat → List (Nat × Bytes × Nat) → Nat → Bytes → Bytes × List (Nat × Bytes × Nat)
  | [], w, _, acc => (acc, w)
  | l :: t, w, room, acc =>
    let mine := w.filter fun m => m.1 = l
    let content := mine.flatMap (·.2.1)
    if room < 8 + content.length then controlSegments t w room acc
    else
      let w := (w.map fun m => if m.1 = l then (m.1, m.2.1, m.2.2 - 1) else m).filter fun m => m.2.2 != 0
      controlSegments t w (room - 8 - content.length) (acc ++ segmentHeader l 1 0 false content.length ++ content)

/-- The reads of a hub subcarrier that no block has encoded are sent again (R407). -/
def hubRewind (s : State) (i : Nat) : State :=
  let h := s.hub i
  let ls := (leavesWith s i fun _ => true).filter fun l => (s.leafRun l).queue.any fun f => decide (0 < f.taken)
  let s := ls.foldl (fun s l =>
    let x := s.leafRun l
    (s.setLeafRun l { x with queue := x.queue.map fun f => { f with taken := 0 } }).bump (Od.rewinds l)) s
  s.setHub i { h with marks := [], out := [] }

/-- The downstream of a hub carrier stops (R412): maps in the line die and unsent reads go, a fresh epoch is drawn on return. -/
def hubStop (s : State) (n : Nat) : State :=
  dcNote ((List.range 32).foldl (fun s k =>
    let i := 32 * n + k
    let s := hubRewind s i
    s.setHub i { s.hub i with lineMaps := [], burst := {}, startsNow := false, drawEpoch := true, settled := false }) s) n

/-- Bits of the payload area that the tray of a hub subcarrier has in the shortest block. -/
def hubAreaBits (s : State) (i : Nat) : Nat :=
  let n := i / 32
  let f := fmtOf s n
  let y := payloadRate f (codesOf s n)
  match (placementsOf s n).find? fun p => p.tray = i with
  | some p => (trayArea (y.1 / y.2) (slotCapacity f (codesOf s n)) p.first p.count).2 - 97
  | none => 0

/-- The epoch that a start of sealing draws, with its KeyInfo to every registered leaf (R386). -/
def hubDrawEpoch (s : State) (i : Nat) : State :=
  let h := s.hub i
  if !hubSealed s i || !h.drawEpoch then s else
  let sel := s.nat (Od.hubKeySelect i)
  let r := drawEpoch s (2 * i + sel)
  let s := r.2.setCond (srcTray i 8) r.1.isNone
  match r.1 with
  | none => s.setHub i { s.hub i with hasEpoch := false }
  | some e =>
    let s := (s.setN (Od.hubEpoch i) e).setHub i { s.hub i with drawEpoch := false, hasEpoch := true }
    leafEpochs ((leavesWith s i leafRegistered).foldl (fun s l => sendKeyInfo s i l sel e (hubFrameNow s)) s) i e

/-- Frames whose pages read `POISONED` are dropped (R407). -/
def dropPoisoned (s : State) (bad : List (Nat × Nat)) : State :=
  bad.foldl (fun s b =>
    let x := s.leafRun b.1
    if x.queue.any fun f => f.num = b.2 then
      (s.setLeafRun b.1 { x with queue := x.queue.filter fun f => f.num != b.2 }).bump Od.pageErrorDrops
    else s) s

/-- At T_k a downstream frame starts (R378, R383): `offset` is its StartOffset, `poisoned` the queued frames (leaf, number) whose
pages could not be read. -/
def execHubDownstreamFrame (i offset : Nat) (poisoned : List (Nat × Nat)) (s : State) : Out :=
  onUnit (i < 2048) s fun s =>
    if !hubRuns s i || !inService s (i / 32) || !s.engineUp (i / 32) then s else
    let k := hubFrameNow s
    let s := hubDrawEpoch (dropPoisoned (hubRewindLeft s i) poisoned) i
    let h := s.hub i
    let blocks := 125 * hubRs s i / 65536
    let octets := hubAreaBits s i * blocks / 8
    let head := frameHeader k offset h.active.length ++ h.active.flatMap grantBits
    let room := octets - head.length / 8 - 8
    let c := controlSegments ((h.control.map (·.1)).eraseDups) h.control room []
    let s := s.setHub i { h with control := c.2, marks := [] }
    let mute := hubSealed s i && !(s.hub i).hasEpoch
    let start := h.outPos + head.length + 8 * c.1.length
    let d := if mute then ([], s) else dataSegments i k (serveOrder s i) (room - c.1.length) start [] s
    let s := d.2
    let bits := head ++ bitsOfBytes (c.1 ++ d.1 ++ segmentHeader 0 3 0 false 0)
    s.setHub i { s.hub i with out := bits, startsNow := true, settled := true }
where
  /-- Reads of the last frame that no block carried return to the queue. -/
  hubRewindLeft (s : State) (i : Nat) : State := if (s.hub i).marks.isEmpty then s else hubRewind s i

/-- The next `p` payload bits of a hub tray, with Count and Position of its overhead; the frames whose last bit they carry leave
their queues (R377, R407). Bits after the fill segment's header are zeros. -/
def hubTake (s : State) (i p : Nat) : List Bool × Nat × Nat × State :=
  let h := s.hub i
  let bits := h.out.take p
  let bits := bits ++ List.replicate (p - bits.length) false
  let pos := h.outPos + p
  let sent := h.marks.filter fun m => decide (m.1 ≤ pos)
  let s := sent.foldl (fun s m =>
    let x := s.leafRun m.2.1
    (s.setLeafRun m.2.1 { x with queue := x.queue.filter fun f => f.num != m.2.2 }).bump (Od.downFramesSent m.2.1)) s
  let s := s.setHub i { h with out := h.out.drop p, outPos := pos, startsNow := false, marks := h.marks.filter fun m => decide (pos < m.1) }
  (bits, if h.startsNow then 0 else 0xFFFFF, h.outPos % 2 ^ 40, s)

/-! ### Prefetch (R404) -/

/-- The contexts of the leaves granted in upstream frame `frame` are prefetched; `poisoned` lists leaves whose context could not be
read. -/
def execContextPrefetch (i frame : Nat) (poisoned : List Nat) (s : State) : Out :=
  onUnit (i < 2048) s fun s =>
    let m := (((s.hub i).lineMaps.find? fun x => x.1 = frame).map (·.2)).getD []
    (m.filter fun g => g.kind != 2).foldl (fun s g =>
      let l := g.leaf
      if s.isHot l || !poisoned.contains l then makeHot s l
      else
        let s := (s.bump Od.contextPoisoned).setCtx l { s.ctx l with state := 0 }
        s.setCond (srcLeaf l 1) true) s

/-! ### Leaf states (R398, R399) -/

/-- A leaf becomes `ACTIVE`. -/
def leafActive (s : State) (l : Nat) : State :=
  let s := (s.setCtx l { s.ctx l with state := 2 }).setLeafRun l { s.leafRun l with attempts := 0, missed := 0, errors := [], injAs := 0 }
  (s.setCond (srcLeaf l 1) false).setCond (srcLeaf l 2) false

/-- A Kind 1 grant of a `RANGING` leaf passed without success. -/
def rangingFailed (s : State) (l : Nat) : State :=
  let x := s.leafRun l
  let s := s.setLeafRun l { x with attempts := x.attempts + 1 }
  if s.nat (Od.rangingAttempts (s.ctx l).home) ≤ x.attempts + 1 then
    ((s.setCtx l { s.ctx l with state := 0 }).setLeafRun l { s.leafRun l with injAs := 0 }).setCond (srcLeaf l 2) true
  else s

/-- A grant of a leaf passed without a valid header from it (R399, R411, R412). -/
def grantMissed (s : State) (i l : Nat) : State :=
  if !(s.hub i).settled then s else
  let s := bumpLeaf s l 17
  let c := s.ctx l
  if c.state = 1 then rangingFailed s l
  else if c.state = 2 ∨ c.state = 3 then
    let x := s.leafRun l
    let s := s.setLeafRun l { x with missed := x.missed + 1 }
    if s.nat (Od.lostBursts i) ≤ x.missed + 1 then
      ((s.setCtx l { s.ctx l with state := 5 }).setLeafRun l { s.leafRun l with injAs := 0 }).setCond (srcLeaf l 1) true
    else s
  else s

/-- Mark a leaf's ranging as suspect, or no longer. -/
def suspectLeaf (s : State) (l : Nat) (b : Bool) : State :=
  (s.setCtx l { s.ctx l with suspect := b }).setLeafRun l { s.leafRun l with injSuspect := false }

/-! ### Burst reception (R408–R411) -/

def burstRx (s : State) (i : Nat) : Bool := hubRuns s i && s.nat (Od.rxState (i / 32)) = 5

/-- The grant of upstream frame `frame` in whose slot a burst that arrives at `a` (1/16 Tsc after T_frame) lies. -/
def grantAt (s : State) (i frame : Nat) (a : Int) : Option Grant :=
  let m := (((s.hub i).lineMaps.find? fun x => x.1 = frame).map (·.2)).getD []
  m.find? fun g =>
    let w : Int := if g.kind = 1 then 16 * 16 * (windowUnits s i : Int) else 0
    let lo : Int := (teq16 s i : Int) + 256 * (g.start : Int)
    let hi : Int := lo + 256 * (burstUnits s i g.blocks g.format : Int)
    g.kind != 2 && decide (lo - w ≤ a ∧ a < hi + w)

/-- A discovery window of frame `frame` is open at `a` (R396). -/
def windowAt (s : State) (i frame : Nat) (a : Int) : Bool :=
  let n := i / 32
  let m := (((s.hub i).lineMaps.find? fun x => x.1 = frame).map (·.2)).getD []
  let us (r : Nat) : Int := ((98 * r * hubRs s i * 16 / (100 * hubN s i) : Nat) : Int)
  m.any fun g => g.kind = 2 &&
    decide (256 * (g.start : Int) + us (s.nat (Od.reachMin n)) ≤ a
      ∧ a ≤ 256 * (g.start : Int) + 16 * (1024 * (g.blocks : Int) + (guardSymbols s i : Int) + 656) + us (s.nat (Od.reachMax n)))

/-- The burst receiver's state changes; its carrier's DC block follows a burst that begins or ends (R169, R408). -/
def setBurst (s : State) (i : Nat) (b : Burst) : State := dcNote (s.setHub i { s.hub i with burst := b }) (i / 32)

/-- The seeds of a context, as bytes 48 to 319 (R403). -/
def Context.seedBytes (c : Context) : Bytes := if c.seeds.isEmpty then List.replicate 272 0 else c.seeds

/-- The seeds of a cold acquisition (R405); the centre tap is the ninth of 16. -/
def defaultSeeds (s : State) (i : Nat) : Bytes :=
  let filter (centre : Nat) : Bytes := List.replicate 32 0 ++ leBytes 2 centre ++ List.replicate 30 0
  leInt32 0 ++ leInt32 (s.int (Od.defaultDispersion i)) ++ leBytes 1 24 ++ List.replicate 7 0
    ++ filter 16384 ++ filter 0 ++ filter 0 ++ filter 16384

/-- A tentative reception begins, with the seeds of the granted leaf where its context is hot; the four analog gain indices are the
seeds' (R171, R405, R408). -/
def burstBegin (s : State) (i metric frame : Nat) (a : Int) : State :=
  let g := grantAt s i frame a
  let cold := match g with | some g => !s.isHot g.leaf | none => false
  let seeds := match g with | some g => if cold then defaultSeeds s i else (s.ctx g.leaf).seedBytes | none => defaultSeeds s i
  let b : Burst := { phase := 1, metric := metric, frame := frame, arrival := a, grant := g, window := windowAt s i frame a, cold := cold, seeds := seeds }
  (List.range 4).foldl (fun s j => s.setN (Od.gainIndex (i / 32) j) (min 47 (seeds.getD 8 0).toNat)) (setBurst s i b)

/-- The digital gain as trimmed over a preamble of this RMS: towards the target (R171, R408). -/
def burstTrim (s : State) (n : Nat) (rms : List F32) : State :=
  (List.range 4).foldl (fun s j =>
    let r := (f32Int (rms.getD j 0)).natAbs
    s.setN (Od.digitalGain n j) (digitalClamp (if r = 0 then 8192 else s.nat (Od.agcTarget n) * 2 ^ 139 * 4096 / r))) s

/-- A preamble metric (0.001 of full correlation) of a burst whose first symbol arrives `a` (1/16 Tsc) after T_frame. -/
def execPreambleDetected (i metric frame : Nat) (a : Int) (s : State) : Out :=
  onUnit (i < 2048) s fun s =>
    if !burstRx s i || metric ≤ s.nat (Od.preambleThreshold i) then s else
    let b := (s.hub i).burst
    if b.phase = 0 ∨ (b.phase = 1 ∧ b.metric < metric) then burstBegin s i metric frame a
    else if b.phase = 1 then s
    else if (if b.window then s.flag (Od.captureDiscovery i) else s.flag (Od.captureGrants i)) then
      (if decide (b.metric * ratioOfDb ((s.nat (Od.captureMargin i) : Int) * 2 ^ 64 / 10) < metric * fxOne) then
        burstBegin ((s.bump (Od.burstCapturedAway i)).hold (fsHub i) 0) i metric frame a
       else s)
    else
      let s := setBurst (s.bump (Od.burstOverlaps i)) i { b with overlapped := true }
      match b.grant with
      | some g => suspectLeaf ((s.setCond (srcLeaf g.leaf 0) true).hold (fsHub i) 2) g.leaf true
      | none => s

/-- The received sync word matches: a burst is detected, so the silence of R165 ends, and the digital gain stands as trimmed. -/
def execSyncWordMatch (i : Nat) (bits : List Bool) (rms : List F32) (s : State) : Out :=
  onUnit (i < 2048) s fun s =>
    let b := (s.hub i).burst
    if b.phase != 1 || s.nat (Od.syncErrors i) < syncDistance bits then s
    else (burstTrim (setBurst s i { b with phase := 2 }) (i / 32) rms).setCond (srcCarrier (i / 32) 1) false

/-- A cold acquisition failed; the context is loaded all the same (R405). -/
def coldMiss (s : State) (i : Nat) (b : Burst) : State :=
  if !b.cold then s else
  let s := (s.bump (Od.contextMiss i)).hold (fsHub i) 1
  match b.grant with | some g => makeHot s g.leaf | none => s

/-- The burst receiver is free. -/
def burstClear (s : State) (i : Nat) : State := setBurst s i {}

def execTentativeExpiry (i : Nat) (s : State) : Out :=
  onUnit (i < 2048) s fun s =>
    let b := (s.hub i).burst
    if b.phase != 1 then s
    else burstClear (coldMiss ((s.bump (Od.burstFalseDetect i)).countEv 4 i 2 1) i b) i

/-- A discovery burst with serial and random delay, in a window (R397); the power step (0.5 dB) and the frequency correction (kHz)
are as measured. -/
def discovery (s : State) (i : Nat) (b : Burst) (serial : Bytes) (r : Nat) (power freq : Int) : State :=
  let s := (((s.bump (Od.discoveryBursts i)).bump (Od.burstsReceived i)).countEv 4 i 1 1)
  match s.knownLeaves.find? fun l => (s.ctx l).enable && (s.ctx l).serial = serial with
  | none => s.bump (Od.unknownSerials i)
  | some l =>
    let c := s.ctx l
    let m := (((s.hub i).lineMaps.find? fun x => x.1 = b.frame).map (·.2)).getD []
    let st := ((m.find? fun g => g.kind = 2).map (·.start)).getD 0
    let rtt : Int := (b.arrival - 256 * (st : Int)) / 16 - 1024 * (r : Int) - (guardSymbols s i : Int)
    let teq : Int := (teq16 s i / 16 : Nat)
    if c.state = 4 then sendControl s i l (controlMessage 5 [])
    else if c.home != i then (sendControl s i l (controlMessage 6 (serial ++ leBytes 1 (c.home % 32)))).bump (Od.redirects i)
    else if c.state = 1 ∨ c.state = 2 ∨ c.state = 3 then s.bump (Od.ungrantedBursts i)
    else if teq < rtt then s.bump (Od.rangeOutOfWindow i)
    else if c.state != 5 && decide (512 ≤ (leavesWith s i leafRegistered).length) then s.bump (Od.registrationsRefused i)
    else
      let s := s.setCtx l { c with state := 1, ranging := teq - rtt, powerStep := power }
      let s := s.setLeafRun l { s.leafRun l with attempts := 0, missed := 0, errors := [], granted := 0 }
      let s := sendControl s i l (controlMessage 1 (serial ++ beBytes 3 l))
      let s := sendRanging s i l
      let s := sendControl s i l (controlMessage 3 (leBytes 1 c.upFormat ++ leBytes 1 (unsignedOf 8 power) ++ beInt32 freq))
      if hubSealed s i then
        (sendKeyInfo s i l (s.nat (Od.hubKeySelect i)) (s.nat (Od.hubEpoch i)) (hubFrameNow s)).setCtx l { s.ctx l with epoch := s.nat (Od.hubEpoch i) }
      else s

/-- What the arrival error `e` (1/16 Tsc) of a granted burst does to its leaf (R398, R411). -/
def arrivalJudge (s : State) (i l : Nat) (e : Int) (kind : Nat) : State :=
  let s := s.setCtx l { s.ctx l with arrival := e }
  let inside := decide (e.natAbs ≤ 16 * s.nat (Od.rangeTolerance i))
  let c := s.ctx l
  if c.state = 1 then
    (if inside then leafActive (suspectLeaf s l false) l
     else
       let s := rangingFailed (s.setCtx l { c with ranging := c.ranging - (e + 8) / 16 }) l
       if (s.ctx l).state = 1 then sendRanging s i l else s)
  else if c.state = 5 then (if inside && kind = 1 then leafActive (suspectLeaf s l false) l else s)
  else
    let s := suspectLeaf s l (!inside)
    let x := s.leafRun l
    let es := (e :: x.errors).take 8
    let sum := es.foldl (· + ·) 0
    if !inside then
      let c := s.ctx l
      sendRanging ((s.setCtx l { c with ranging := c.ranging - (e + 8) / 16 }).setLeafRun l { x with errors := [] }) i l
    else if es.length = 8 && decide (8 * 32 ≤ sum.natAbs) then
      let c := s.ctx l
      sendRanging ((s.setCtx l { c with ranging := c.ranging - (sum + 64) / 128 }).setLeafRun l { x with errors := [] }) i l
    else s.setLeafRun l { x with errors := es }

/-- A normal header is valid for leaf `l`: counters, Demand and state, in the hot cache (R399, R404, R408). -/
def headerValid (s : State) (i l : Nat) (h frame : Nat) : State :=
  let s := bumpLeaf (makeHot ((s.bump (Od.burstsReceived i)).countEv 4 i 1 1) l) l 16
  let demand := h / 2 ^ 52 % 2 ^ 24
  let dormant := h / 2 ^ 51 % 2 = 1
  let s := s.setCtx l { s.ctx l with demand := demand, lastBurst := frame, keySel := h / 2 ^ 50 % 2 }
  let s := s.setLeafRun l { s.leafRun l with granted := 0, missed := 0 }
  let c := s.ctx l
  if c.state = 2 && dormant then s.setCtx l { c with state := 3 }
  else if c.state = 3 && (!dormant || decide (0 < demand)) then s.setCtx l { c with state := 2 }
  else s

/-- The burst that the grant of this moment expected has not come (R399). -/
def burstMissed (s : State) (i : Nat) (b : Burst) : State :=
  match b.grant with
  | some g => grantMissed s i g.leaf
  | none => s

/-- The payload of a burst follows. -/
def burstPayload (s : State) (i l header blocks : Nat) (b : Burst) : State :=
  setBurst s i { b with phase := 3, leaf := l, header := header, left := blocks }

/-- A data header of leaf `l`, granted or not. -/
def dataHeader (s : State) (i l header : Nat) (b : Burst) : State :=
  let c := s.ctx l
  match b.grant.filter fun g => g.leaf = l with
  | some g =>
    if !leafRegistered c.state || c.home != i then burstClear s i
    else
      let e := b.arrival - (teq16 s i : Int) - 256 * (g.start : Int) - 16 * (guardSymbols s i : Int)
      burstPayload (arrivalJudge (headerValid s i l header b.frame) i l e g.kind) i l header g.blocks b
  | none =>
    let s := burstMissed (suspectLeaf (s.bump (Od.ungrantedBursts i)) l true) i b
    if (c.state = 2 ∨ c.state = 3) ∧ c.home = i then burstPayload (headerValid s i l header b.frame) i l header 1023 b
    else burstClear s i

/-- The header of a committed burst, from its soft values (R393, R397, R411). -/
def execBurstHeaderDecoded (i : Nat) (soft : List Int) (power freq : Int) (s : State) : Out :=
  onUnit (i < 2048) s fun s =>
    let header := headerDecoded soft
    let b := (s.hub i).burst
    if b.phase != 2 then s
    else if crc16 80 (header / 65536) != header % 65536 then burstClear (burstMissed (coldMiss (s.bump (Od.headerErrors i)) i b) i b) i
    else
      let type := header / 2 ^ 94
      if type = 1 then
        (if b.window then burstClear (discovery s i b (beBytes 6 (header / 2 ^ 46)) (header / 2 ^ 36 % 1024) power freq) i
         else burstClear (s.bump (Od.ungrantedBursts i)) i)
      else if type != 0 then burstClear (burstMissed s i b) i
      else dataHeader s i (header / 2 ^ 76 % 2 ^ 18) header b

/-- An upstream payload block as the decoder leaves it: one that is no block of the code has failed to decode (R394, R411). -/
def execBurstPayloadBlock (i : Nat) (coded : Bytes) (s : State) : Out :=
  onUnit (i < 2048) s fun s =>
    let b := (s.hub i).burst
    if b.phase != 3 || b.left = 0 || coded.length != 256 then s else
    let ok := burstBlockOk (bitsOfBytes coded)
    let s := s.bump (Od.payloadBlocks i)
    let s := if ok then s else s.bump (Od.payloadBlocksUncorrected i)
    let marked := if ok then b.marked else (b.info.length / 192) :: b.marked
    setBurst s i { b with left := b.left - 1, info := b.info ++ coded.take 192, marked := marked }

/-- The tags of a frame in the form of `LeafTags`, and its priority; none without an outer 0x88A8 and an inner 0x8100 tag (R406). -/
def frameTags (f : Bytes) : Option (Nat × Nat) :=
  if beNat ((f.drop 12).take 2) = 0x88A8 ∧ beNat ((f.drop 16).take 2) = 0x8100 ∧ 20 ≤ f.length then
    (let o := beNat ((f.drop 14).take 2)
     some (o % 4096 * 4096 + beNat ((f.drop 18).take 2) % 4096, o / 8192))
  else none

/-- A whole upstream frame of leaf `l` (R394, R406). -/
def upFrame (s : State) (i l : Nat) (frame : Bytes) (damaged : Bool) : State :=
  let c := s.ctx l
  if damaged then bumpLeaf (s.bump (Od.upDroppedFrames i)) l 21
  else if (frameTags frame).map (·.1) != some c.tags then bumpLeaf (s.bump (Od.upDroppedFrames i)) l 20
  else
    let wait := Tbl.get (fun _ => []) s.hubEgress c.source
    if 4194304 < (wait.map (·.length)).sum + frame.length then (s.bump (Od.sourceEgressDrops c.source)).bump (Od.upDroppedFrames i)
    else bumpLeaf { s with hubEgress := Tbl.put (fun _ => []) s.hubEgress c.source (wait ++ [frame]) } l 19

/-- The upstream frame in progress is lost. -/
def upDrop (s : State) (i l : Nat) : State :=
  let x := s.leafRun l
  let s := if x.upAcc.isEmpty then s else s.bump (Od.upDroppedFrames i)
  s.setLeafRun l { s.leafRun l with upAcc := [], upLost := false }

/-- One piece of an upstream frame: whole (0), first (1), middle (2) or last (3). -/
def upPiece (s : State) (i l frag : Nat) (data : Bytes) (bad : Bool) : State :=
  let x := s.leafRun l
  match frag with
  | 0 => upFrame (upDrop s i l) i l data bad
  | 1 => (upDrop s i l).setLeafRun l { s.leafRun l with upAcc := data, upLost := bad }
  | 2 => if x.upAcc.isEmpty then s else s.setLeafRun l { x with upAcc := x.upAcc ++ data, upLost := x.upLost || bad }
  | _ =>
    if x.upAcc.isEmpty then s
    else upFrame (s.setLeafRun l { x with upAcc := [], upLost := false }) i l (x.upAcc ++ data) (x.upLost || bad)

/-- The hub words of a burst, from octet `off` on; `marked` are blocks with the errored mark (R381). -/
def upWords : Nat → State → Nat → Nat → Nat → List Nat → Bytes → State
  | 0, s, _, _, _, _, _ => s
  | fuel + 1, s, i, l, off, marked, bs =>
    if bs.length < 4 then s else
    let w := beNat (bs.take 4)
    let len := w / 2 ^ 16
    if crc8 24 (w / 256) != w % 256 || decide (16000 < len) then upDrop s i l
    else if len = 0 then upWords fuel s i l (off + 4) marked (bs.drop 4)
    else
      let size := (len + 3) / 4 * 4
      if bs.length < 4 + size then upDrop s i l else
      let bad := marked.any fun m => decide (192 * m < off + 4 + size ∧ off < 192 * (m + 1))
      upWords fuel (upPiece s i l (w / 2 ^ 14 % 4) ((bs.drop 4).take len) bad) i l (off + 4 + size) marked (bs.drop (4 + size))

/-- The epoch under which an upstream burst opens with slot `b`; none where that slot may not be used (R386). -/
def upEpoch (s : State) (i b : Nat) : Option Nat :=
  let h := s.hub i
  if b = s.nat (Od.hubKeySelect i) then some (s.nat (Od.hubEpoch i))
  else if h.rollAt.isSome then h.nextEpoch
  else if h.oldUntil.isSome then h.oldEpoch
  else none

/-- The postamble is found: the payload is opened and delivered, and the context update is returned with its seeds (R387, R404). -/
def execBurstEnd (i : Nat) (seeds : Bytes) (s : State) : Out :=
  onUnit (i < 2048) s fun s =>
    let b := (s.hub i).burst
    if b.phase != 3 then s else
    let l := b.leaf
    let s := if b.hostWrote || seeds.length != 272 then s else s.setCtx l { s.ctx l with seeds := if seeds.all (· == 0) then [] else seeds }
    let s := if b.overlapped then s else s.setCond (srcLeaf l 0) false
    let s := burstClear s i
    if b.info.isEmpty then s else
    let plain := packBits (List.zipWith xor (bitsOfBytes b.info) (scramblerBits (8 * b.info.length) (l + 1)))
    let s := s.countEv 4 i 6 plain.length
    if !hubSealed s i then upWords (plain.length + 1) s i l 0 b.marked plain
    else
      let sel := b.header / 2 ^ 50 % 2
      let body := plain.take (plain.length - 16)
      match (match upEpoch s i sel with
        | some e => gcmOpen (leafKey s i l sel) (hubIv true l e b.frame) (beBytes 12 b.header) body (plain.drop (plain.length - 16))
        | none => none) with
      | some pt => upWords (pt.length + 1) (s.setCond (srcLeaf l 3) false) i l 0 b.marked pt
      | none => (bumpLeaf s l 18).setCond (srcLeaf l 3) true

/-- A granted slot of upstream frame `frame` passes without a committed burst. -/
def execGrantedSlotEnd (i frame leaf : Nat) (s : State) : Out :=
  onUnit (i < 2048) s fun s =>
    let m := (((s.hub i).lineMaps.find? fun x => x.1 = frame).map (·.2)).getD []
    if m.any fun g => g.kind != 2 && g.leaf = leaf then grantMissed s i leaf else s

/-- Eight frames without a burst on a hub carrier (R165). -/
def execHubBurstSilence (n : Nat) (s : State) : Out :=
  onUnit (n < 64) s fun s =>
    if isHub s n && inService s n && s.engineUp n then s.setCond (srcCarrier n 1) true else s

/-! ### Commands and writes for leaves (R399) -/

def leafRangeAgain (l : Nat) (s : State) : Status × State :=
  let c := s.ctx l
  if c.state = 2 ∨ c.state = 3 then
    (.ok, (s.setCtx l { c with state := 1 }).setLeafRun l { s.leafRun l with attempts := 0, missed := 0, errors := [], injAs := 0 })
  else (.state, s)

def leafDeregister (l : Nat) (s : State) : Status × State :=
  let c := s.ctx l
  if leafRegistered c.state then
    (.ok, sendControl ((s.setCtx l { c with state := 0 }).setCond (srcLeaf l 1) false) c.home l (controlMessage 7 []))
  else (.state, s)

def execLeafRangeAgain (k l : Nat) (s : State) : Out := .next (hostCmd s k (Od.leafCommand l) 1 (leafRangeAgain l))
def execLeafDeregister (k l : Nat) (s : State) : Out := .next (hostCmd s k (Od.leafCommand l) 2 (leafDeregister l))

/-- A burst of the leaf is being received: a seed profile that the host writes stands against its update (R412). -/
def markHostWrite (s : State) (l : Nat) : State :=
  s.hubs.foldl (fun s h => if 2 ≤ h.2.burst.phase ∧ h.2.burst.leaf = l then
    s.setHub h.1 { h.2 with burst := { h.2.burst with hostWrote := true } } else s) s

/-- The value of an object of 5100h, from the context (R403, R414). -/
def leafVal (s : State) (l sub : Nat) : Val :=
  let c := s.ctx l
  match sub with
  | 1 => .u (if c.enable then 1 else 0)
  | 2 => .o c.serial
  | 3 => .u c.home
  | 4 => .u c.tags
  | 5 => .u c.source
  | 6 => .u c.upWeight
  | 7 => .u c.upMin
  | 8 => .u c.upMax
  | 9 => .u c.downWeight
  | 10 => .u c.rateMax
  | 11 => .u c.upFormat
  | 12 => .u c.state
  | 13 => .i c.ranging
  | 14 => .f (f32OfRat c.arrival 16)
  | 15 => .u (256 * c.demand)
  | n => .u (c.counter n)

/-- Store a written value of 5100h in the context. -/
def leafSet (s : State) (l sub : Nat) (v : Val) : State :=
  let c := s.ctx l
  let n := v.nat
  s.setCtx l (match sub with
    | 1 => { c with enable := n != 0 }
    | 2 => { c with serial := (v.bytes ++ List.replicate 6 0).take 6 }
    | 3 => { c with home := n }
    | 4 => { c with tags := n }
    | 5 => { c with source := n }
    | 6 => { c with upWeight := n }
    | 7 => { c with upMin := n }
    | 8 => { c with upMax := n }
    | 9 => { c with downWeight := n }
    | 10 => { c with rateMax := n }
    | 11 => { c with upFormat := n }
    | _ => c)

/-- What a write of `LeafEnable` does to the leaf's state. -/
def leafEnableAfter (s : State) (l : Nat) : State :=
  let c := s.ctx l
  let s := s.setCond (srcLeaf l 2) false
  if !c.enable && leafRegistered c.state then
    sendControl ((s.setCtx l { c with state := 4 }).setCond (srcLeaf l 1) false) c.home l (controlMessage 5 [])
  else if c.enable && c.state = 4 then s.setCtx l { c with state := 0 }
  else s

/-! ### Hub keys (R386) -/

/-- `HubKeyCommand` code 1; an inactive hub subcarrier refuses it (R375). -/
def hubKeyRollover (i : Nat) (s : State) : Status × State :=
  let h := s.hub i
  let other := 1 - s.nat (Od.hubKeySelect i)
  if !hubSubExists s i then (.inconsistent, s)
  else if s.nat (Od.trayKeySlotSlotState (2 * i + other)) = 0 || !hubSealed s i then (.state, s)
  else if h.rollAt.isSome || h.oldUntil.isSome then (.busy, s)
  else
    let f := hubFrameNow s + s.nat (Od.hubRolloverFrames i)
    let r := drawEpoch s (2 * i + other)
    let s := (r.2.setHub i { h with rollAt := some f, nextEpoch := r.1 }).setN (Od.rolloverFrame i) f
    let s := match r.1 with
      | some e => (leavesWith s i leafRegistered).foldl (fun s l => sendKeyInfo s i l other e f) s
      | none => s
    (.ok, slotsRefresh s i)

def execHubKeyRollover (k i : Nat) (s : State) : Out := .next (hostCmd s k (Od.hubKeyCommand i) 1 (hubKeyRollover i))

def execHubRolloverEffective (i : Nat) (s : State) : Out :=
  onUnit (i < 2048) s fun s =>
    let h := s.hub i
    match h.rollAt with
    | none => s
    | some f =>
      let old := s.nat (Od.hubEpoch i)
      let s := (s.setN (Od.hubKeySelect i) (1 - s.nat (Od.hubKeySelect i))).setN (Od.hubEpoch i) (h.nextEpoch.getD old)
      let s := s.setCond (srcTray i 8) h.nextEpoch.isNone
      let s := match h.nextEpoch with | some e => leafEpochs s i e | none => s
      slotsRefresh (s.setHub i { h with rollAt := none, oldUntil := some (f + 64), oldEpoch := some old, nextEpoch := none,
                                        hasEpoch := h.nextEpoch.isSome, drawEpoch := h.nextEpoch.isNone }) i

def execHubRolloverEnd (i : Nat) (s : State) : Out :=
  onUnit (i < 2048) s fun s =>
    if (s.hub i).oldUntil.isNone then s else
    slotsRefresh ((s.setHub i { s.hub i with oldUntil := none, oldEpoch := none }).setN (Od.rolloverFrame i) 0) i

/-- A copy that starts or stops hub sealing, or changes the active subcarriers (R376, R385, R386). -/
def hubCopied (old s : State) (i : Nat) : State :=
  let s := if hubSealed s i && !hubSealed old i then s.setHub i { s.hub i with drawEpoch := true, hasEpoch := false } else s
  let s := if !s.flag (Od.hubActive i) && old.flag (Od.hubActive i) then
      (let s := hubRewind s i
       burstClear (s.setHub i { s.hub i with active := [], building := none, lineMaps := [], control := [], startsNow := false }) i) else s
  let s := if hubSealed s i || !hubSealed old i then s else
    (s.setHub i { s.hub i with rollAt := none, oldUntil := none, nextEpoch := none, oldEpoch := none, hasEpoch := false }).setN (Od.rolloverFrame i) 0
  slotsRefresh (trayRefresh s i) i

/-! ### Leaf queues (R406, R407) -/

/-- Pages that hold queued frames. -/
def queuePages (s : State) : Nat :=
  (s.leafRuns.map fun x => ((x.2.queue.map (·.data.length)).sum + 4095) / 4096).sum

/-- Pages of the queue region. -/
def queueRegionSize (s : State) : Nat := runsLength (regionRuns s 1)

def queuedBytes (x : LeafRun) : Nat := (x.queue.map (·.data.length)).sum

/-- A frame at the ingress of hub source `j`. -/
def execHubIngressFrame (j : Nat) (frame : Bytes) (s : State) : Out :=
  onUnit (j < 16) s fun s =>
    let t := s.nat (Od.sourceTray j)
    if 2048 ≤ t || !fcsOk frame then s else
    match (match frameTags frame with
      | none => none
      | some g => (s.knownLeaves.find? fun l => (s.ctx l).source = j && (s.ctx l).tags = g.1).map fun l => (l, g.2)) with
    | none => s.bump (Od.unclassifiedDrops j)
    | some (l, prio) =>
      let c := s.ctx l
      let x := s.leafRun l
      if c.state = 0 ∨ c.state = 4 then s.bump (Od.noLeafDrops l)
      else
        let s' := s.setLeafRun l { x with queue := x.queue ++ [{ num := x.nextNum, priority := prio, data := frame }], nextNum := x.nextNum + 1 }
        if s.nat (Od.queueLimit l) < queuedBytes x + frame.length || decide (queueRegionSize s < queuePages s') then
          (s.bump (Od.queueDrops l)).hold (fsLeaf l) 1
        else s'.peak Od.pagesPeak (queuePages s')

/-- `QueueCommand` code 1: frames that have not been read go. -/
def queueFlush (q : Nat) (s : State) : Status × State :=
  let x := s.leafRun q
  let n := (x.queue.filter fun f => f.taken = 0).length
  (.ok, ((s.setLeafRun q { x with queue := x.queue.filter fun f => decide (0 < f.taken) }).bump (Od.flushes q)).bumpBy (Od.flushedFrames q) n)

def execQueueFlush (k q : Nat) (s : State) : Out := .next (hostCmd s k (Od.queueCommand q) 1 (queueFlush q))

/-- `n` octets go out from the front of the waiting frames; answers the last one that went out whole, and what still waits. -/
def egressTake : Nat → List Bytes → Option Bytes × List Bytes
  | _, [] => (none, [])
  | n, f :: t =>
    if f.length ≤ n then (let r := egressTake (n - f.length) t; (r.1.or (some f), r.2)) else (none, f.drop n :: t)

/-- One microsecond of the source clients' egress. -/
def hubEgressTick (s : State) : State :=
  s.hubEgress.foldl (fun s x =>
    let t := s.nat (Od.sourceTray x.1)
    let r := egressTake (typeGbps (s.nat (Od.activeType t)) * 125) x.2
    let s := { s with hubEgress := Tbl.put (fun _ => []) s.hubEgress x.1 r.2 }
    match r.1 with
    | some f => s.setTray t { s.tray t with out := { bits := bitsOfBytes f } }
    | none => s) s

/-! ### Objects (R375, R406, R414) -/

def clearHubCounters (s : State) : Status × State :=
  let s := s.clearObjs fun k =>
    let i := keyIdx k
    let j := keySub k
    (i = 0x5001 && 1 ≤ j) || (i = 0x5020 && (j = 2 || j = 3)) || (i = 0x5030 && (j = 4 || j = 5 || j = 7))
      || (i = 0x5200 && 4 ≤ j) || (i = 0x5210 && (j = 3 || j = 4))
  (.ok, s.knownLeaves.foldl (fun s l => s.setCtx l { s.ctx l with counters := [] }) s)

def execClearHubCounters (k : Nat) (s : State) : Out := .next (hostCmd s k Od.clearHubCounters 1 clearHubCounters)

/-- The context of R403 as octets. -/
def contextBytes (c : Context) : Bytes :=
  let flags := (if c.enable then 1 else 0) + (if c.suspect then 2 else 0) + 4 * c.keySel + 8 * c.upFormat
  let ctr := leBytes 8 (c.counter 16) ++ leBytes 4 (c.counter 17) ++ leBytes 4 (c.counter 18) ++ leBytes 8 (c.counter 19)
    ++ leBytes 4 (c.counter 20) ++ leBytes 4 (c.counter 21)
  leBytes 1 c.state ++ leBytes 1 flags ++ c.serial ++ leBytes 3 c.tags ++ leBytes 1 c.source ++ leBytes 2 c.home ++ leBytes 1 c.upWeight
    ++ leBytes 1 c.downWeight ++ leBytes 2 c.upMin ++ leBytes 2 c.upMax ++ leBytes 4 c.rateMax ++ leInt32 c.ranging ++ leBytes 4 c.epoch
    ++ leBytes 8 c.lastBurst ++ leBytes 4 c.demand ++ leInt16 c.arrival ++ leBytes 1 (unsignedOf 8 c.powerStep) ++ [0]
    ++ c.seedBytes ++ ctr ++ List.replicate 672 0

/-- A whole `SeedProfile` written. -/
def seedWritten (s : State) (l : Nat) (b : Bytes) : State :=
  markHostWrite (s.setCtx l { s.ctx l with seeds := if b.all (· == 0) then [] else b }) l

/-- Every mapping that a source client must have (R406). -/
def sourceOk (s c : State) (t : Nat) : Bool :=
  t = 0xFFFF || (clientKind (c.nat (Od.clientType t)) = 1 && c.nat (Od.mappingKind t) = 0 && !pathPlaced s t false && !pathPlaced s t true
    && decide (64 ≤ s.shNat (Od.workCarrier t)) && decide (64 ≤ s.shNat (Od.protCarrier t)))

/-- The refusals of writes to objects of this chapter. -/
def hubCheck (s c : State) (key : Nat) : Status :=
  let idx := keyIdx key
  let x := keyInst key
  let sub := keySub key
  if 0x5000 ≤ idx ∧ idx ≤ 0x5003 then (if hubSubExists c x then .ok else .inconsistent)
  else if idx = 0x5010 then
    (if c.flag (Od.carrierEnable x) then .state
     else if sub = 1 then
       (if !c.flag key then .ok
        else if !krytelm c x then .inconsistent
        else if (List.range 32).any fun k => c.nat (Od.clientType (32 * x + k)) != 0 then .inconsistent
        else if !s.flag key && decide (16 ≤ ((List.range 64).filter fun n => s.flag (Od.hubMode n)).length) then .resource
        -- hub subcarriers left active from an earlier use are commitments again (R35; assumption 86)
        else if !s.flag key && !budgetOk c (armView c []) then .resource
        else .ok)
     else if c.nat (Od.reachMax x) < c.nat (Od.reachMin x) then .inconsistent
     else if 100 * c.nat (Od.equalisedDelay x) < 98 * c.nat (Od.reachMax x) + 2000 then .inconsistent
     else .ok)
  else if idx = 0x5020 then (if sourceOk s c (c.nat key) then .ok else .inconsistent)
  else if idx = 0x5100 then
    (if (sub = 2 ∨ sub = 3 ∨ sub = 4) ∧ leafRegistered (s.ctx x).state then .state
     else if (sub = 4 ∨ sub = 5) ∧ (c.knownLeaves.any fun l => l != x && ((c.ctx l).enable || (c.ctx l).tags != 0)
       && (c.ctx l).source = (c.ctx x).source && (c.ctx l).tags = (c.ctx x).tags) then .inconsistent
     else .ok)
  else .ok

/-- The effect of an accepted write to an object of this chapter. -/
def hubAfter (old s : State) (key : Nat) : State :=
  let idx := keyIdx key
  let x := keyInst key
  if idx = 0x5100 then
    (if keySub key = 1 then leafEnableAfter s x else s)
  else if idx = 0x5010 ∧ keySub key = 1 ∧ old.flag key != s.flag key then
    (let s := if s.flag key then s else hubStop s x
     let s := (List.range 32).foldl (fun s k => slotsRefresh (trayRefresh s (32 * x + k)) (32 * x + k)) s
     -- the DC block and the transmit skew alarm follow the mode (R169, R263)
     skewJudge (dcNote s x) x)
  else s

/-- Objects that are read from the running hub. -/
def hubRead (s : State) (key : Nat) : Option Val :=
  let idx := keyIdx key
  let x := keyInst key
  let sub := keySub key
  if idx = 0x5000 ∧ sub = 15 then some (.u (leavesWith s x leafRegistered).length)
  else if idx = 0x5000 ∧ sub = 16 then some (.u (frameUnits s x))
  else if idx = 0x5002 then some (.u (if (s.hub x).rollAt.isSome || (s.hub x).oldUntil.isSome then 1 else 0))
  else if idx = 0x5030 ∧ sub = 1 then some (.u (hubFrameNow s))
  else if idx = 0x5030 ∧ sub = 2 then some (.u ((List.range 64).filter fun n => s.flag (Od.hubMode n)).length)
  else if idx = 0x5030 ∧ sub = 3 then some (.u s.hotOrder.length)
  else if idx = 0x5100 ∧ 1 ≤ sub then some (leafVal s x sub)
  else if idx = 0x5101 then some (.o (contextBytes (s.ctx x)))
  else if idx = 0x5102 then some (.o (s.ctx x).seedBytes)
  else if idx = 0x5200 ∧ sub = 2 then some (.u (min (queuedBytes (s.leafRun x)) 4294967295))
  else if idx = 0x5200 ∧ sub = 3 then some (.u (s.leafRun x).queue.length)
  else if idx = 0x5210 ∧ sub = 1 then some (.u (queueRegionSize s))
  else if idx = 0x5210 ∧ sub = 2 then some (.u (queuePages s))
  else none

end Sys2Proof.Machine
end

