-- ==== Sys2Proof/Machine/Tune.lean ====
section
/-! DEFINITION. The closed loop of link tuning: reports, recommendations, automatic changes and rescues, with the refusals of
format writes (R232, R243, R249–R268, R277, R291). -/

namespace Sys2Proof.Machine

def State.tune (s : State) (n : Nat) : TuneSt := (s.engine n).tune
def State.setTune (s : State) (n : Nat) (x : TuneSt) : State := s.setEngine n { s.engine n with tune := x }
def State.klfTx (s : State) (n : Nat) : KlfTx := (s.engine n).tx
def State.setKlfTx (s : State) (n : Nat) (x : KlfTx) : State := s.setEngine n { s.engine n with tx := x }
def State.klfRx (s : State) (n : Nat) : KlfRx := (s.engine n).rx
def State.setKlfRx (s : State) (n : Nat) (x : KlfRx) : State := s.setEngine n { s.engine n with rx := x }

/-- The carrier has a back channel: it is enabled, Krytelm, and no hub carrier (R254, R263, R264). -/
def hasBackChannel (s : State) (n : Nat) : Bool := inService s n && krytelm s n && !isHub s n

/-- A change of `Entropy` needs the far end now (R249). -/
def peerKnown (s : State) (n : Nat) : Bool :=
  hasBackChannel s n && s.nat (Od.bcState n) = 1 && s.nat (Od.farRxState n) = 3

/-! ### Limits that every layout change is held to (R243, R277) -/

/-- Sealed paths by phase, with `extra` new ones put where R346 puts them. -/
def phasesWith (s : State) (n : Nat) : Nat → List Nat
  | 0 => (List.range 16).map (phaseCount s n)
  | k + 1 =>
    let l := phasesWith s n k
    let q := (List.range 16).foldl (fun b q => if l.getD q 0 < l.getD b 0 then q else b) 0
    l.set q (l.getD q 0 + 1)

/-- The seal floor: no phase holds more sealed paths than `SealEntries` (R277). -/
def sealFloorOk (s : State) (n : Nat) (codes : List Nat) (extra : Nat) : Bool :=
  !krytelm s n || (phasesWith s n extra).all fun x => decide (x ≤ sealEntries (fmtOf s n) codes)

/-- A layout with `used` slots in use and `extra` new sealed paths keeps every floor. -/
def layoutOk (s : State) (n : Nat) (codes : List Nat) (used extra : Nat) : Bool :=
  floorOk s n codes used && minimumOk s n codes && sealFloorOk s n codes extra

/-- `TUNE_FLOOR` ends where the capacity holds the slots in use (R265). -/
def tuneFloorJudge (s : State) (n : Nat) : State :=
  if decide (slotsInUse s n ≤ capacityOf s n (codesOf s n)) then s.setCond (srcCarrier n 12) false else s

/-! ### The received record -/

/-- The receiver takes up a layout record; subcarriers whose code differs changed now (R256). -/
def recordAdopt (s : State) (n record : Nat) : State :=
  let e := s.engine n
  let a := recordCodes e.rx.record
  let b := recordCodes record
  let ks := (List.range 32).filter fun k => !e.rx.held || a.getD k 0 != b.getD k 0
  let at' := ks.foldl (fun t k => Tbl.ins t k s.uptime) e.tune.changedAt
  s.setEngine n { e with rx := { e.rx with record := record, held := true }, tune := { e.tune with changedAt := at' } }

/-! ### Reports (R251, R253, R256) -/

/-- The RxState field of the cells that a carrier sends (R251). -/
def rxStateField (s : State) (n : Nat) : Nat :=
  match s.nat (Od.rxState n) with
  | 2 => if (if s.nat (Od.acquireKind n) = 1 then 4 else 7) ≤ (s.dsp n).step then 2 else 1
  | 3 => 3
  | _ => 0

/-- The codes of R235 that are constellations. -/
def allCodes : List Nat := List.range 145

/-- The code of highest net rate among those that satisfy `ok`; the lower code where net rates are equal. -/
def bestCode (fec : Nat) (ok : Nat → Bool) : Option Nat :=
  allCodes.foldl (fun b e => if !ok e then b else
    match b with
    | none => some e
    | some x => if netOf fec x < netOf fec e then some e else b) none

/-- A required SNR in dB × 2⁶⁴ is met by a binary32 value. -/
def metBy (need : Int) (x : F32) : Bool := decide (need * 2 ^ 85 ≤ f32Int x)

/-- The recommendation for an active subcarrier `k` (R256). -/
def recommend (s : State) (n k : Nat) : Nat :=
  let x := s.tune n
  let a := (rxCodes s n).getD k codeOff
  let fec := s.nat (Od.fecOverhead n)
  let now := s.f32 (Od.subcarrierQualitySnrNow (32 * n + k))
  let tol : Int := (s.nat (Od.downTolerance n) : Int) * 2 ^ 64 / 10
  let hyst : Int := (s.nat (Od.upHysteresis n) : Int) * 2 ^ 64 / 10
  let us := s.nat (Od.upWindow n) * 1000000
  let window := (Tbl.get (fun _ => []) x.window k).take (us / 1000)
  let sum := window.foldl (· + ·) 0
  let full := decide (us / 1000 ≤ window.length) && (match (s.engine n).trackSince with
      | some t => decide (t + us ≤ s.uptime)
      | none => false) && decide (Tbl.get (fun _ => 0) x.changedAt k + us ≤ s.uptime)
  if !metBy (requiredDb s n a - tol) now then (bestCode fec fun e => metBy (requiredDb s n e) now).getD 0
  else if full then
    (bestCode fec fun e => decide (netOf fec a < netOf fec e)
      && decide ((requiredDb s n e + hyst) * (window.length : Int) * 2 ^ 85 ≤ sum)).getD a
  else a

/-- An SNR in 0.25 dB, to the nearest, limited to 0x00–0xFE. -/
def snrOctet (x : F32) : Nat := min 254 (f32Scaled x 4).toNat

/-- Every 10 ms: the recommendations are formed and a new report set starts (R253). `ReportEnable` acts from here on (R267). -/
def execTuningEvaluation (n : Nat) (s : State) : Out :=
  onUnit (n < 64) s fun s =>
    if !s.engineUp n || !hasBackChannel s n then s else
    let track := s.nat (Od.rxState n) = 3
    let subs := s.nat (Od.subcarrierCount n)
    let entries := if !s.flag (Od.reportEnable n) then [] else (List.range 32).map fun k =>
      if !track then (0xFE, 0xFF)
      else if rxActive s n k then (recommend s n k, snrOctet (s.f32 (Od.subcarrierQualitySnrNow (32 * n + k))))
      else (0xFF, 0xFF)
    let s := if entries.isEmpty then s
      else (List.range (min subs 32)).foldl (fun s k => s.setN (Od.localRecommendation (32 * n + k)) (entries.getD k (0, 0)).1) s
    let x := s.tune n
    s.setTune n { x with seq := (x.seq + 1) % 16, tag := recordTag (s.klfRx n).record, entries := entries, part := 0 }

/-- Parts of a report set (R253). -/
def reportParts (s : State) (n : Nat) : Nat := (s.nat (Od.subcarrierCount n) + 7) / 8

/-- The back-channel cell of the next block, and the part that follows (R251, R253, R296). Outside `TRACK` a set holds no
recommendation and no SNR. -/
def nextCell (s : State) (n : Nat) : Nat × State :=
  let x := s.tune n
  if isHub s n || !krytelm s n then (0, s)
  else if x.entries.isEmpty then (backChannelCell 0 (rxStateField s n) 0 0 0 [], s)
  else
    let p := x.part
    let entries := if s.nat (Od.rxState n) = 3 then x.entries else List.replicate 32 (0xFE, 0xFF)
    (backChannelCell 1 (rxStateField s n) p x.seq x.tag ((entries.drop (8 * p)).take 8),
      s.setTune n { x with part := if p + 1 < reportParts s n then p + 1 else 0 })

/-! ### The decision at the transmitter (R257–R259) -/

/-- The target of R258 for a subcarrier at code `a`: recommendation `rho`, with the step limit or without it. -/
def targetCode (s : State) (n k a rho : Nat) (limit : Bool) : Nat :=
  let fec := s.nat (Od.fecOverhead n)
  let i := 32 * n + k
  let bound := if limit then min (netOf fec rho) (netOf fec a + s.nat (Od.maxUpStep n) * (fecLoss fec).2) else netOf fec rho
  (bestCode fec fun e => decide (s.nat (Od.entropyMin i) ≤ e ∧ e ≤ s.nat (Od.entropyMax i)) && decide (netOf fec e ≤ bound)).getD
    (s.nat (Od.entropyMin i))

/-- A shadow of `Entropy` is pending on a subcarrier. -/
def entropyPending (s : State) (n k : Nat) : Bool :=
  s.shNat (Od.entropy (32 * n + k)) != s.nat (Od.entropy (32 * n + k))

/-- The set of targets that a report set gives; empty where it changes nothing (R258). -/
def targetsOf (s : State) (n : Nat) : List Nat :=
  let now := codesOf s n
  let want := (List.range 32).map fun k =>
    let a := now.getD k codeOff
    let rho := s.nat (Od.farRecommendation (32 * n + k))
    if k < s.nat (Od.subcarrierCount n) && a != codeOff && decide (rho ≤ 144) && !entropyPending s n k then targetCode s n k a rho true else a
  if want = now then [] else want

/-- A complete report set is taken (R257); in mode 2 it gives the targets of the next automatic change. `TuneMode`, the limits and
`MinChangeInterval` act from here on (R262, R267). -/
def setTaken (s : State) (n : Nat) (parts : List (Nat × List (Nat × Nat))) : State :=
  let s := (List.range (min 32 (s.nat (Od.subcarrierCount n)))).foldl (fun s k =>
    let e := (Tbl.get (fun _ => []) parts (k / 8)).getD (k % 8) (0xFE, 0xFF)
    (s.setN (Od.farRecommendation (32 * n + k)) e.1).setF (Od.farSnr (32 * n + k)) (if e.2 = 0xFF then 0 else f32OfRat (e.2 : Int) 4)) s
  let s := s.setTune n { s.tune n with rxParts := [], targets := [], interval := s.nat (Od.minChangeInterval n) }
  if s.nat (Od.tuneMode n) != 2 then s else
  let t := targetsOf s n
  let s := if t.isEmpty || layoutOk s n t (slotsInUse s n) 0 then tuneFloorJudge s n else s
  s.setTune n { s.tune n with targets := t }

/-- A report part of a cell is taken up (R257). -/
def partReceived (s : State) (n cell : Nat) : State :=
  let x := s.tune n
  if s.nat (Od.tuneMode n) = 0 then s.setTune n { x with rxParts := [] }
  else if bcTag cell != s.nat (Od.layoutTag n) || (s.klfTx n).auto.isSome then s.setTune n { x with rxParts := [] }
  else if reportParts s n ≤ bcPart cell then s
  else
    let parts := if x.rxSeq = bcSeq cell then x.rxParts else []
    let parts := Tbl.ins parts (bcPart cell) ((List.range 8).map (bcEntry cell))
    if parts.length = reportParts s n then setTaken (s.setTune n { x with rxSeq := bcSeq cell }) n parts
    else s.setTune n { x with rxSeq := bcSeq cell, rxParts := parts }

/-- A back-channel cell of 192 bits from a used fixed part (R252, R254, R257, R279). A cell of a reserved type counts as receipt; its
contents are ignored (R251). -/
def execBackchannelCellReceived (n cell : Nat) (s : State) : Out :=
  onUnit (n < 64) s fun s =>
    if !hasBackChannel s n then s
    else if !bcCrcOk cell then (s.bump (Od.cellErrors n)).countEv 1 n 7 1
    else
      let x := s.tune n
      let s := s.setTune n { x with lastCell := some s.uptime }
      let s := if s.nat (Od.rxState n) = 3 then (s.setN (Od.bcState n) 1).setCond (srcCarrier n 11) false else s
      if 2 ≤ bcType cell then s else
      let st := bcRxState cell
      let low := if st = 1 ∨ st = 2 then some (x.lowSince.getD s.uptime) else none
      let s := (s.setN (Od.farRxState n) st).setTune n { s.tune n with lowSince := low }
      if bcType cell = 1 then partReceived s n cell else s

/-- `BcTimeout` has passed without a valid cell (R254). -/
def execBackchannelTimeout (n : Nat) (s : State) : Out :=
  onUnit (n < 64) s fun s =>
    if !hasBackChannel s n then s
    else (s.setN (Od.bcState n) 2).setCond (srcCarrier n 11) true

/-! ### Changes without a host (R112, R259–R261) -/

/-- The next RequestId is drawn: 1 to 127, wrapping past 0 (R286). -/
def drawRequest (s : State) (n : Nat) : Nat × State :=
  let id := s.nat (Od.lastRequestId n) % 127 + 1
  (id, s.setN (Od.lastRequestId n) id)

/-- An automatic change ends without being applied (R260). -/
def autoEnd (s : State) (n result : Nat) : State :=
  let x := s.klfTx n
  match x.auto with
  | none => s
  | some c =>
    let s := s.setKlfTx n { x with auto := none }
    if c.rescue then s else (s.setN (Od.lastAutoResult n) result).bump (Od.autoAbandoned n)

/-- The floor refuses a set of targets (R259, R277). -/
def autoFloor (s : State) (n : Nat) : State :=
  ((s.setN (Od.lastAutoResult n) 5).setCond (srcCarrier n 12) true).setTune n { s.tune n with targets := [] }

/-- The conditions of R259 and of the freeze of R254 hold. -/
def mayAuto (s : State) (n : Nat) : Bool :=
  hasBackChannel s n && s.nat (Od.bcState n) = 1 && (s.klfTx n).auto.isNone && !s.armed n
    && s.boot.st != .safe && (match (s.tune n).lastApplied with
      | some t => decide (t + 1000 * (s.tune n).interval ≤ s.uptime)
      | none => true)

/-- A commit of the host has changed the layout: what was reported under the old tag is discarded (R262). -/
def layoutTaken (s : State) (n : Nat) : State := s.setTune n { s.tune n with targets := [], rxParts := [] }

/-- The targets of the last complete set become an automatic change, or the floor refuses them (R259). -/
def execAutoChangeStart (n : Nat) (s : State) : Out :=
  onUnit (n < 64) s fun s =>
    let x := s.tune n
    if x.targets.isEmpty || !mayAuto s n then s
    else if (List.range 32).any (fun k => entropyPending s n k && x.targets.getD k 0 != (codesOf s n).getD k 0) then s
    else if !layoutOk s n x.targets (slotsInUse s n) 0 then autoFloor s n
    else
      let r := drawRequest s n
      let s := r.2.setTune n { x with targets := [], autoAt := s.uptime }
      s.setKlfTx n { s.klfTx n with auto := some { codes := x.targets, request := r.1, waiting := true } }

/-- The far end has reported an unfinished acquisition for `RescueTime` (R261). A rescue waits for a change that is outstanding. -/
def execRescue (n : Nat) (s : State) : Out :=
  onUnit (n < 64) s fun s =>
    let x := s.klfTx n
    let st := s.nat (Od.farRxState n)
    let counting := match x.host with | some c => c.first.isSome | none => false
    if !hasBackChannel s n || s.nat (Od.tuneMode n) != 2 || s.nat (Od.bcState n) != 1 || (st != 1 && st != 2)
      || (s.tune n).lowSince.isNone || x.auto.isSome || counting || s.boot.st = .safe then s else
    let s := s.setTune n { s.tune n with lowSince := some s.uptime, targets := [] }
    let fec := s.nat (Od.fecOverhead n)
    let rho := s.nat (Od.rescueEntropy n)
    let now := codesOf s n
    let want := (List.range 32).map fun k =>
      let a := now.getD k codeOff
      if k < s.nat (Od.subcarrierCount n) && a != codeOff && decide (netOf fec rho < netOf fec a) then targetCode s n k a rho false else a
    if want = now then s
    else if !minimumOk s n want then autoFloor s n
    else
      let d := x.next - 1
      let c : Change := { codes := want, first := some (d + 1), target := some (d + 17), rescue := true }
      (s.setKlfTx n { x with auto := some c }).bump (Od.rescueCount n)

/-- The new codes of an automatic change or a rescue take effect at their target block (R260, R261). -/
def autoApplied (s : State) (n : Nat) (c : Change) : State :=
  let s := (List.range 32).foldl (fun s k =>
    let key := Od.entropy (32 * n + k)
    let pend := entropyPending s n k
    let sh := s.shadowVal key
    let s := s.setN key (c.codes.getD k codeOff)
    s.setShadow key (if pend then sh else s.val key)) s
  let s := (s.setN (Od.layoutTag n) ((s.nat (Od.layoutTag n) + 1) % 256)).setKlfTx n { s.klfTx n with auto := none }
  let s := s.journalAdd 0xFE 1 0x3200 n 8 0 0
  let s := s.setTune n { s.tune n with lastApplied := some s.uptime, targets := [], rxParts := [] }
  if c.rescue then
    let s := s.setN (Od.lastAutoResult n) 6
    s.setCond (srcCarrier n 12) (decide (capacityOf s n (codesOf s n) < slotsInUse s n))
  else ((s.bump (Od.autoChanges n)).setN (Od.lastAutoResult n) 1).setCond (srcCarrier n 12) false

/-! ### Objects (R266–R268, R291, R298) -/

def clearTuneCounters (s : State) : Status × State :=
  (.ok, s.clearObjs fun k => keyIdx k = 0x3400 && (keySub k = 14 || keySub k = 15 || keySub k = 17 || keySub k = 18))

def execClearTuneCounters (k : Nat) (s : State) : Out := .next (hostCmd s k Od.clearTuneCounters 1 clearTuneCounters)

/-- A format that was written may meet the floor again (R265). -/
def tuneAfter (s : State) (key : Nat) : State :=
  if keyIdx key = 0x3200 ∨ keyIdx key = 0x3300 then tuneFloorJudge s (keyInst key) else s

/-- A written format fits the slot and keeps the floors (R233, R243, R277). -/
def formatOk (c : State) (n : Nat) : Bool := slotFits c n && layoutOk c n (codesOf c n) (slotsInUse c n) 0

/-- The refusals of writes to objects of chapters 08 and 09, judged on the written values. -/
def tuneCheck (c : State) (key : Nat) : Status :=
  let idx := keyIdx key
  let i := keyInst key
  let sub := keySub key
  if (idx = 0x3200 ∧ 1 ≤ sub ∧ sub ≤ 4) ∨ (idx = 0x3300 ∧ (sub = 1 ∨ sub = 2)) then
    (if c.flag (Od.carrierEnable i) then .state
     else if isHub c i && !krytelm c i then .inconsistent
     else if !formatOk c i then .inconsistent
     else .ok)
  else if idx = 0x3201 ∧ (sub = 1 ∨ sub = 2) then
    (if !krytelm c (i / 32) then .state else if !subExists c i then .inconsistent else .ok)
  else if idx = 0x3401 ∧ (sub = 1 ∨ sub = 2) then
    (if !subExists c i then .inconsistent else if c.nat (Od.entropyMax i) < c.nat (Od.entropyMin i) then .inconsistent else .ok)
  else if idx = 0x3310 ∧ (sub = 1 ∨ sub = 2) then
    (if (List.range 8).any fun j => c.flag (Od.carrierEnable (8 * i + j)) then .state else .ok)
  else .ok

/-- `RequiredSnr` (R255); 0 for a subcarrier that the received layout does not have. -/
def tuneRead (s : State) (key : Nat) : Option Val :=
  let i := keyInst key
  if keyIdx key = 0x3401 ∧ keySub key = 6 then
    (let n := i / 32
     let a := (rxCodes s n).getD (i % 32) codeOff
     some (.f (if krytelm s n && subExists s i && (s.klfRx n).held && a != codeOff then fxToF32 (requiredDb s n a) else 0)))
  else none

end Sys2Proof.Machine
end

