-- ==== Sys2Proof/Machine/Transmit.lean ====
section
/-! DEFINITION. A KLF block at the transmitter: the trays' payload, the overhead area, the header signs and the coded stream
(R270–R282, R296, R324–R329, R511). -/

namespace Sys2Proof.Machine

/-! ### Tray payload areas (R326–R329) -/

/-- The Clause 49 idle control block: sync header 10, block type 0x1E least significant bit first, control codes 0 (PRESUMED). -/
def idleBlock : List Bool := [true, false, false, true, true, true, true, false, false, false] ++ List.replicate 56 false

/-- A Clause 49 block of two local-fault ordered sets: type 0x55, each with O code 0 and data octets 0x00, 0x00, 0x01 (PRESUMED). -/
def localFaultBlock : List Bool :=
  let octet (v : Nat) : List Bool := (bitsOf 8 v).reverse
  [true, false] ++ octet 0x55 ++ octet 0 ++ octet 0 ++ octet 1 ++ octet 0 ++ octet 0 ++ octet 0 ++ octet 1

/-- A run of `n` bits that repeats a pattern from bit `from'` of it. -/
def repeatBits (pattern : List Bool) (from' n : Nat) : List Bool :=
  (List.range n).map fun i => pattern.getD ((from' + i) % max pattern.length 1) false

/-- The client bits of a GMP tray that is short of data, or that may not send its payload (R37, R349): AIS of an OTN client, all-ones
of a CBR client, and for Ethernet idle or local fault. -/
def gmpSubstitute (s : State) (t pos n : Nat) (ais : List Bool) (fault : Bool) : List Bool :=
  match clientKind (s.nat (Od.clientType t)) with
  | 1 => repeatBits (if fault then localFaultBlock else idleBlock) pos n
  | 2 => ais
  | _ => List.replicate n true

/-- The next frame of an aggregate tray: strict priority from 7 down, round robin among the members within one (R318). -/
def nextFrame (s : State) (a : Nat) : Nat → Option (Nat × Nat × Bytes) × State
  | 0 => (none, s)
  | q + 1 =>
    let ms := (membersOf s a).zipIdx
    let last := Tbl.get (fun _ => 0) (s.tray a).served q
    let ready := ms.filter fun m => !((s.member m.1).inQ q).isEmpty
    match (match ready.find? fun m => decide (last < m.1) with | some m => some m | none => ready.head?) with
    | none => nextFrame s a q
    | some m =>
      match memberTake s m.1 q with
      | (none, s) => (none, s)
      | (some f, s) => (some (m.2, q, f), s.setTray a { s.tray a with served := Tbl.put (fun _ => 0) (s.tray a).served q m.1 })

/-- The words of one frame with its header, or of an idle header (R329). -/
def frameWords : Option (Nat × Nat × Bytes) → List Bool
  | none => bitsOf 32 (aggHeader 0 0 0)
  | some (m, q, f) => bitsOf 32 (aggHeader f.length m q) ++ bitsOfBytes (f ++ List.replicate ((4 - f.length % 4) % 4) 0)

/-- Fill an aggregate stream up to `p` bits, one header and its frame at a time. -/
def aggStream (a p : Nat) : Nat → List Bool → State → List Bool × State
  | 0, bs, s => (bs, s)
  | fuel + 1, bs, s =>
    if p ≤ bs.length then (bs, s) else
    let r := nextFrame s a 8
    aggStream a p fuel (bs ++ frameWords r.1) r.2

/-- Whole 66b blocks of a feed. -/
def wholeBlocks (bs : List Bool) : List Bool := bs.take (bs.length / 66 * 66)

/-- The block type octet of a 66b block with sync header 10; 0 of a data block. -/
def blockType (b : List Bool) : Nat := if b.take 2 = [true, false] then natOfBits ((b.drop 2).take 8).reverse else 0

/-- Blocks that start or that end a frame (IEEE 802.3 Clause 49; PRESUMED). -/
def startsFrame (b : List Bool) : Bool := [0x33, 0x66, 0x78].contains (blockType b)
def endsFrame (b : List Bool) : Bool := [0x87, 0x99, 0xAA, 0xB4, 0xCC, 0xD2, 0xE1, 0xFF].contains (blockType b)

/-- The last place between frames in a run of blocks, as the number of blocks before it, and whether the run ends inside a frame. `i` blocks
have gone, and `last` is the last such place among them. -/
def frameGap : List (List Bool) → Nat → Bool → Option Nat → Option Nat × Bool
  | [], i, inside, last => (if inside then last else some i, inside)
  | b :: t, i, inside, last =>
    frameGap t (i + 1) (if startsFrame b then true else if endsFrame b then false else inside) (if inside then last else some i)

/-- The stream of an idle-mapped tray up to `p` bits: what is left of the last area, and the blocks that are ready, with idle blocks between
frames (R328); a tray that is short of data inside a frame carries idle as its fill (R37). -/
def idleMapped (rest : List Bool) (inside : Bool) (ready : List Bool) (p : Nat) : List Bool × Bool :=
  let blocks := chunks 66 (ready.length / 66) ready
  let gap := frameGap blocks 0 inside none
  let idles := repeatBits idleBlock 0 ((p - rest.length - ready.length + 65) / 66 * 66)
  let cut := 66 * (gap.1.getD blocks.length)
  (rest ++ ready.take cut ++ idles ++ ready.drop cut, gap.2)

/-- The payload area of `p` bits of a path in a block, with Count and Position (R326–R329). -/
def pathPayload (s : State) (t : Nat) (prot : Bool) (f : TrayFeed) (p : Nat) : List Bool × Nat × Nat × State :=
  let x := s.trayPath t prot
  let fault := x.tx.noEpoch || (x.tx.on && injActs s (srcTray t 8))
  match kindOf s t with
  | 1 =>
    let cm := min f.cm p
    let client := if fault || f.underrun then gmpSubstitute s t x.pos cm f.ais fault else f.bits
    let s := if !prot || !pathPlaced s t false then s.countEv 2 t 1 cm else s
    (gmpFill p cm p 0 client, cm, x.pos, s.setTrayPath t prot { x with pos := x.pos + cm })
  | 2 =>
    let off := (66 - x.pos % 66) % 66
    let made := if fault then (x.rest ++ repeatBits localFaultBlock 0 ((p - x.rest.length + 65) / 66 * 66), false)
      else idleMapped x.rest x.inFrame (wholeBlocks f.bits) p
    let s := s.countEv 2 t 1 (min f.bits.length p)
    (made.1.take p, if off < p then off else 0xFFFFF, x.pos,
      s.setTrayPath t prot { x with pos := x.pos + p, rest := made.1.drop p, inFrame := made.2 })
  | 3 =>
    let r := if fault then (x.rest ++ repeatBits (frameWords none) 0 ((p - x.rest.length + 31) / 32 * 32), s)
      else aggStream t p (p / 32 + 1) x.rest s
    let s := r.2.countEv 2 t 1 p
    let y := s.trayPath t prot
    (r.1.take p, if x.rest.length < p then x.rest.length else 0xFFFFF, x.pos,
      s.setTrayPath t prot { y with pos := x.pos + p, rest := r.1.drop p })
  | _ => hubTake s t p

/-- The tray area of a path: overhead and payload area, sealed where the path is (R326, R347). -/
def pathArea (s : State) (q : Placed) (f : TrayFeed) (len : Nat) : List Bool × State :=
  let t := q.tray
  let kind := kindOf s t
  let status := if kind ≤ 2 && clientFailed s t then 1 else if f.underrun then 2 else 0
  let r := pathPayload s t q.prot f (len - 96)
  let h := trayOverhead kind status r.2.1 r.2.2.1 t
  let sealed := if kind = 4 then (r.1, r.2.2.2) else sealArea r.2.2.2 t q.prot h r.1
  (bitsOf 96 h ++ sealed.1, sealed.2)

/-- The feed of a path; a path without one is offered no data. -/
def feedOf (feeds : List TrayFeed) (t : Nat) (prot : Bool) : TrayFeed :=
  (feeds.find? fun f => f.tray = t && f.prot == prot).getD ⟨t, prot, 0, [], [], false⟩

/-- The payload of block `c`, before and after scrambling (R276, R324, R325). -/
def blockPayload (s : State) (n c : Nat) (feeds : List TrayFeed) : List Bool × State :=
  let f := fmtOf s n
  let codes := codesOf s n
  let y := payloadBits f codes (c % 2 ^ 48)
  let cap := slotCapacity f codes
  let ps := sortBy (fun a b => decide (a.first ≤ b.first))
    ((placementsOf s n).filter fun p => decide (p.first + p.count ≤ cap) && decide (96 ≤ (trayArea y cap p.first p.count).2))
  let r := ps.foldl (fun (acc : List Bool × State) p =>
    let a := trayArea y cap p.first p.count
    let b := pathArea acc.2 p (feedOf feeds p.tray p.prot) a.2
    (acc.1 ++ List.replicate (a.1 - acc.1.length) false ++ b.1, b.2)) ([], s)
  (scramble (c % 2 ^ 48) (r.1 ++ List.replicate (y - r.1.length) false), r.2)

/-! ### The overhead area (R278–R282, R286, R296) -/

/-- The record that a change brings (R248). -/
def pendingRecord (s : State) (n : Nat) (codes : List Nat) : Nat := layoutRecord (fmtOf s n) ((s.nat (Od.layoutTag n) + 1) % 256) codes

/-- The changes of a carrier with the record that each brings, an automatic one first. -/
def changesOf (s : State) (n : Nat) : List (Change × Nat) :=
  let x := s.klfTx n
  (match x.auto with | some c => [(c, pendingRecord s n c.codes)] | none => [])
    ++ (match x.host with | some c => [(c, pendingRecord s n (pendingCodes s n))] | none => [])

/-- Blocks from `c` to the target of a change that is announced in block `c`; 0 outside its countdown (R286). -/
def countdownOf (x : Change) (c : Nat) : Nat :=
  match x.first, x.target with
  | some f, some t => if x.layout && decide (f ≤ c ∧ c < t) then t - c else 0
  | _, _ => 0

/-- The announcement of block `c` (R280). -/
def announcementAt (s : State) (n c : Nat) : Nat :=
  match (changesOf s n).find? fun x => countdownOf x.1 c != 0 with
  | some x => announcement (countdownOf x.1 c) (recordTag x.2) x.1.request
  | none => 0

/-- The ControlCell of block `c`: pending layout, then change request, then service segment, then idle (R281, R296). -/
def controlAt (s : State) (n c : Nat) : Nat × State :=
  match (changesOf s n).find? fun x => countdownOf x.1 c != 0 with
  | some x => (controlCell 2 (c % 2) x.1.request x.2, s)
  | none =>
    match (changesOf s n).find? fun x => x.1.layout && x.1.waiting && x.1.request != 0 && !isHub s n with
    | some x => (controlCell 1 (c % 2) x.1.request x.2, s)
    | none =>
      let cur := (s.klfTx n).cursor
      let r := serviceSegment s n c cur
      match r.1 with
      | some seg => (segmentCell seg, r.2.setKlfTx n { r.2.klfTx n with cursor := cur + 1 })
      | none => (0, r.2)

/-- The Confirmation field: sent for 65,536 blocks at most (R287). -/
def confirmationAt (s : State) (n : Nat) : Nat × State :=
  let x := s.klfTx n
  if isHub s n || x.confirmLeft = 0 then (0, s) else (confirmation x.confirm, s.setKlfTx n { x with confirmLeft := x.confirmLeft - 1 })

/-- The spans of the carrier's paths that end or begin at block `c` (R346). -/
def spansAt (s : State) (n c : Nat) : State :=
  (placementsOf s n).foldl (fun s p => if kindOf s p.tray = 4 then s else spanBoundary s p.tray p.prot n c) s

/-- The symbols of every block whose coded bits are complete (R231 steps 4 to 6), at most `fuel` of them. -/
def mapBlocks (f : Fmt) : Nat → KlfTx → KlfTx
  | 0, x => x
  | fuel + 1, x =>
    match x.layouts with
    | [] => x
    | l :: rest =>
      let need := codedBitsPerBlock f l.codes
      if x.unmapped.length < need then x else
      let b : TxBlock := ⟨l.counter, blockPoints f l.codes l.offsets (x.unmapped.take need)⟩
      mapBlocks f fuel { x with unmapped := x.unmapped.drop need, layouts := rest, blocks := (b :: x.blocks).take 3 }

/-- Assemble and send block `c` of a Krytelm carrier in service. -/
def sendBlock (s : State) (n c : Nat) (feeds : List TrayFeed) : State :=
  let f := fmtOf s n
  let codes := codesOf s n
  let s := spansAt s n c
  let ctl := controlAt s n c
  let tags := takeTags ctl.2 n (sealEntries f codes)
  let conf := confirmationAt tags.2 n
  let cell := nextCell conf.2 n
  let s := cell.2
  let fixed : Fixed := { counter := c % 2 ^ 48, announcement := announcementAt s n c, confirmation := conf.1, control := ctl.1,
                         backChannel := cell.1, trayMap := trayMapCell (s.klfTx n).mapTag (c % 2 ^ 48) (slotEntry s n), sealCount := tags.1.length }
  let pay := blockPayload s n c feeds
  let s := pay.2
  let head := bitsOf 568 fixed.encode ++ tags.1.flatMap (bitsOf 144)
  let data := head ++ List.replicate (dataStreamBits f codes - pay.1.length - head.length) false ++ pay.1
  let x := s.klfTx n
  let header := headerSigns (layoutRecord f (s.nat (Od.layoutTag n)) codes) x.enc.cur.length
  let enc := x.enc.feed (blockSlots f codes header data)
  let offsets := (List.range 32).map fun k => s.int (Od.powerOffset (32 * n + k))
  let x := { x with enc := enc.2, header := header, fixed := fixed.encode, data := data, coded := enc.1,
                    unmapped := x.unmapped ++ enc.1, layouts := x.layouts ++ [⟨c, codes, offsets⟩] }
  s.setKlfTx n (mapBlocks f x.layouts.length x)

/-! ### The waveform and the DACs (R231 steps 7 to 10, R245–R247) -/

/-- The taps of a transmit channel now: those of the settings, or the blend of a running fade (R173, R245). -/
def txTaps (s : State) (n ch : Nat) : List Int :=
  let set (bank : List Int) : List Int :=
    skewTaps (bank.getD ch 0) (if bank.getD 4 0 = 1 then [16384] else (s.front n).txResponse.getD ch [16384])
  match (s.front n).txFade with
  | none => set (filterBank s n true)
  | some f =>
    let parts := (fadeBlend f (fadeBlock s n f)).map fun w => (w.1, set w.2)
    (List.range 64).map fun i => (parts.map fun p => (p.1 : Int) * p.2.getD i 0).foldl (· + ·) 0 / 2 ^ 32

/-- The field, X and Y, of the middle one of the last three blocks with `edge` samples on either side (R231 steps 7 and 8). -/
def txField (s : State) (n : Nat) (edge : Nat) : List (Cx × Cx) :=
  let f := fmtOf s n
  let bs := (s.klfTx n).blocks
  let mid := bs.getD 1 ⟨0, []⟩
  let arrays (b : TxBlock) := b.points.map fun x => (x.1, x.2.1.toArray, x.2.2.toArray)
  let all := [arrays (bs.getD 2 ⟨0, []⟩), arrays mid, arrays (bs.getD 0 ⟨0, []⟩)]
  let span : Int := 65536 / f.n
  let symbolAt (k : Nat) (i : Int) : Cx × Cx :=
    let b := all.getD (1 + i / span).toNat []
    match b.find? fun x => x.1 = k with
    | some x => (x.2.1.getD (i % span).toNat (0, 0), x.2.2.getD (i % span).toNat (0, 0))
    | none => ((0, 0), (0, 0))
  (List.range (blockSamples + 2 * edge)).map fun (m : Nat) =>
    waveSample f (s.nat (Od.rollOff n)) mid.counter (List.range f.n) symbolAt ((m : Int) - edge)

/-- The words of the four DACs for the middle one of the last three blocks, with the clipped samples of each (R231 steps 7 to 10). -/
def dacBlock (s : State) (n : Nat) : List (List Int × Nat) :=
  let d := s.int (Od.preDispersion n)
  let edge := if d = 0 then 64 else 28672
  let field := txField s n edge
  let spread (l : List Cx) : List Cx := if d = 0 then l else dispersed d (centreUnits s n * 6250000000) (sampleHz s n) 17 l
  let x := spread (field.map (·.1))
  let y := spread (field.map (·.2))
  [x.map (·.1), x.map (·.2), y.map (·.1), y.map (·.2)].zipIdx.map fun c =>
    let out := ((filtered (txTaps s n c.2) c.1).drop (edge - 63)).take blockSamples
    dacWords (s.nat (Od.dacRmsTarget n)) (s.nat (Od.clipRatio n))
      (if s.flag (Od.predistortion n) then some (Config.predistort n c.2) else none) out

/-- A block's samples leave the DACs once the block after it has been mapped; clipped ones are counted (R167, R247). -/
def dacCount (s : State) (n : Nat) : State :=
  if (s.klfTx n).blocks.length < 2 then s else
  let e := s.engine n
  s.setEngine n { e with dacClips := e.dacClips + ((dacBlock s n).map (·.2)).foldl (· + ·) 0 }

/-- Trays of a block were short of data (R37): the queue re-centres. -/
def txUnderrun (s : State) (n : Nat) (trays : List Nat) : State :=
  trays.foldl (fun s t => s.hold (fsTray t) 1) ((s.bump (Od.txUnderruns n)).setN (Od.txFill n) 32768)

/-- One transmit block of carrier `n` (R511): the mapper's feeds, and the fill of the tray transmit queue in bytes. While the carrier
is disabled, blocks are only counted. -/
def execKlfBlockTransmit (n : Nat) (feeds : List TrayFeed) (fill : Nat) (s : State) : Out :=
  onUnit (n < 64) s fun s =>
    let e := s.engine n
    if !s.engineUp n || s.nat (Od.calState n) != 2 || e.resetting then s else
    let c := e.tx.next
    let s := (s.setEngine n { e with tx := { e.tx with next := c + 1 } }).setN (Od.txBlockCounter n) (c % 2 ^ 48)
    if !inService s n then s else
    let s := (s.setN (Od.txFill n) (min fill 65536)).peak (Od.txHighWater n) (min fill 65536)
    let short := (placementsOf s n).filter fun p => (feedOf feeds p.tray p.prot).underrun
    let s := if short.isEmpty then s else txUnderrun s n (short.map (·.tray))
    if krytelm s n then
      let mapped := (s.klfTx n).layouts.length
      let s := sendBlock s n c feeds
      if (s.klfTx n).layouts.length ≤ mapped && decide (0 < mapped) then dacCount s n else s
    else (placementsOf s n).foldl (fun s p => s.countEv 2 p.tray 1 (feedOf feeds p.tray p.prot).bits.length) s

end Sys2Proof.Machine
end

