-- ==== Sys2Proof/Machine/Receive.lean ====
section
/-! DEFINITION. A KLF block at the receiver: header signs, block alignment, the fixed part, the trays and their spans, the Sieve's
statistics, and the far end's layout changes (R273, R279, R282–R293, R329, R335, R353–R358). -/

namespace Sys2Proof.Machine

/-! ### Header signs (R273, R285) -/

/-- Carrier `n` receives KLF blocks: it is in service, not as a hub. -/
def receives (s : State) (n : Nat) : Bool := s.engineUp n && inService s n && krytelm s n && !isHub s n

/-- A header is accepted: its record is held, and demapping starts (step 8 of R185, step 5 of R186). -/
def headerAccept (s : State) (n record : Nat) : State :=
  let s := recordAdopt s n record
  let x := { s.klfRx n with known := false, since := 0, passes := 0, fails := 0, lastHeader := none, resync := 0, pendingParts := [] }
  demapStart (s.setEngine n { s.engine n with rx := x, sieveStart := 0 }) n

/-- The header signs of a block, as 296 bits read by hard decision (R273, R285). -/
def execHeaderSignsRead (n header : Nat) (s : State) : Out :=
  onUnit (n < 64) s fun s =>
    if !receives s n then s else
    let x := s.klfRx n
    let record := headerRecord header
    let tag := recordTag record
    let ok := headerOk header
    match s.nat (Od.rxState n) with
    | 2 =>
      if (s.dsp n).step + 2 != lastStep s n then s
      else if !ok then s.setKlfRx n { x with lastHeader := none }
      else
        let cb := codedBitsPerBlock (fmtOf s n) (recordCodes record)
        if x.lastHeader.any fun h => h.1 = tag && headerPhase header = (h.2 + cb) % 32768 then headerAccept s n record
        else s.setKlfRx n { x with lastHeader := some (tag, headerPhase header) }
    | 3 =>
      if s.nat (Od.alignState n) < 2 then s
      else if 2 ≤ x.resync then
        (if ok then
          let s := recordAdopt s n record
          (s.setKlfRx n { s.klfRx n with resync := 0, pendingParts := [] }).bump (Od.headerResyncs n)
        else s)
      else s.setKlfRx n { x with resync := if ok && tag != recordTag x.record then x.resync + 1 else 0 }
    | _ => s

/-! ### What a block's ranges hold -/

/-- Bits `lo` to `lo + len − 1` meet an uncorrected range. -/
def badIn (bad : List (Nat × Nat)) (lo len : Nat) : Bool := bad.any fun r => decide (r.1 < lo + len ∧ lo < r.1 + r.2)

/-- Bits with their errored marks, from bit `lo` of the data stream on. -/
def markBits (bad : List (Nat × Nat)) (lo : Nat) (bs : List Bool) : List (Bool × Bool) :=
  bs.zipIdx.map fun x => (x.1, badIn bad (lo + x.2) 1)

/-! ### The tray map (R282) -/

/-- The four entries of a passing block's TrayMapCell are compared with the module's own map. -/
def mapCompare (s : State) (n counter cell : Nat) : State :=
  let x := s.klfRx n
  let x := if x.mapTag = some (mapCellTag cell) then x else { x with mapTag := some (mapCellTag cell), mismatched := [], matchRun := 0 }
  let slots := (List.range 4).map fun e => (4 * (counter % 160) + e, mapEntry cell e)
  let wrong := (slots.filter fun p => slotEntry s n p.1 != p.2).map (·.1)
  let again := wrong.any x.mismatched.contains
  let kept := x.mismatched.filter fun i => !(slots.any fun p => p.1 = i)
  let run := if wrong.isEmpty then x.matchRun + 1 else 0
  let s := s.setKlfRx n { x with mismatched := wrong ++ kept, matchRun := run }
  if again then (s.setB (Od.trayMapMismatch n) true).setCond (srcCarrier n 15) true
  else if 160 ≤ run then (s.setB (Od.trayMapMismatch n) false).setCond (srcCarrier n 15) false
  else s

/-! ### What a tray delivers (R329, R335) -/

/-- A Clause 49 error control block: sync header 10, block type 0x1E least significant bit first, eight error codes 0x1E (PRESUMED). -/
def errorBlock : List Bool :=
  [true, false, false, true, true, true, true, false, false, false] ++ (List.range 8).flatMap fun _ => [false, true, true, true, true, false, false]

/-- Bits go out to the tray's client. -/
def trayGives (s : State) (t : Nat) (bits : List Bool) : State :=
  let x := s.tray t
  s.setTray t { x with out := { fill := .none, bits := x.out.bits ++ bits } }

/-- Bits of a 66b stream from stream position `pos` on, the first block boundary `off` bits into them: whole blocks go out, and one that
holds an errored bit goes out as an error control block. Bits of a block whose beginning was not received are dropped. -/
def giveBlocks (s : State) (t : Nat) (prot : Bool) (pos off : Nat) (bs : List (Bool × Bool)) : State :=
  let x := s.trayPath t prot
  let whole := x.next = pos && (decide (bs.length ≤ off) || (x.part.length + off) % 66 = 0)
  let stream := if whole then x.part ++ bs else bs.drop off
  let n := stream.length / 66
  let blocks := (chunks 66 n stream).map fun b => if b.any (·.2) then (true, errorBlock) else (false, b.map (·.1))
  let s := s.setTrayPath t prot { x with next := (pos + bs.length) % 2 ^ 40, part := stream.drop (66 * n) }
  (trayGives s t (blocks.flatMap (·.2))).bumpBy (Od.replacedBlocks t) (blocks.filter (·.1)).length

/-- Client bits of a tray go out: those of an Ethernet client by whole blocks (R335). -/
def giveClient (s : State) (t : Nat) (prot : Bool) (pos off : Nat) (bs : List (Bool × Bool)) : State :=
  if clientKind (s.nat (Od.clientType t)) = 1 then giveBlocks s t prot pos off bs else trayGives s t (bs.map (·.1))

/-- Errored marks of the pages of a tray's delay region, where the earlier copy is read back from it (R340). -/
def delayMarked (s : State) (t : Nat) (prot : Bool) (pos : Nat) (bs : List (Bool × Bool)) : List (Bool × Bool) :=
  let d := s.int (Od.diffDelay t)
  let pages := (s.runs (1000 + t)).flatMap fun r => (List.range r.2).map (r.1 + ·)
  if !s.flag (Od.equalised t) || pages.isEmpty || !(if prot then decide (d < 0) else decide (0 < d)) then bs else
  bs.zipIdx.map fun b =>
    let a := pages.getD ((pos + b.2) / 32768 % pages.length) 0
    (b.1.1, b.1.2 || (s.page (physical s a)).poisoned)

/-- The client clock is recovered from the sequence of Cm values (R327). -/
def clockTaken (s : State) (t cm : Nat) : State :=
  let x := s.tray t
  s.setTray t { x with clock := (x.clock.1 + cm, x.clock.2 + 1) }

/-- A frame of an aggregate tray is dropped at receive. -/
def frameDropped (s : State) (t : Nat) : State := (s.bump (Od.droppedFrames t)).countEv 2 t 4 1

/-- The frame in progress of an aggregate tray is lost, and the receiver waits for the next Count. -/
def aggLost (s : State) (t : Nat) : State :=
  let s := if 0 < (s.tray t).agg.left then frameDropped s t else s
  s.setTray t { s.tray t with agg := {} }

/-- One 32-bit word of an aggregate stream: a header, or a word of the frame in progress. -/
def aggWord (s : State) (t : Nat) (w : List (Bool × Bool)) : State :=
  let a := (s.tray t).agg
  let v := natOfBits (w.map (·.1))
  let mark := w.any (·.2)
  if a.left = 0 then
    let len := v / 65536
    if crc8 24 (v / 256) != v % 256 || !(len = 0 || decide (64 ≤ len ∧ len ≤ 16000)) then
      (frameDropped s t).setTray t { s.tray t with agg := {} }
    else if len = 0 then s
    else
      let a' : AggRx := { buf := a.buf, sync := true, member := v / 4096 % 16, priority := v / 512 % 8, left := (len + 3) / 4 * 4, length := len }
      s.setTray t { s.tray t with agg := a' }
  else
    let acc := a.acc ++ packBits (w.map (·.1))
    let damaged := a.damaged || mark
    if 4 < a.left then s.setTray t { s.tray t with agg := { a with left := a.left - 4, acc := acc, damaged := damaged } }
    else
      let s := s.setTray t { s.tray t with agg := { a with left := 0, acc := [], damaged := false } }
      if damaged then frameDropped s t
      else match (membersOf s t)[a.member]? with
        | none => frameDropped s t
        | some m => (memberEgress s m a.priority (acc.take a.length)).countEv 2 t 2 (8 * a.length)

/-- Take whole words while the receiver stays in step. -/
def aggRun (t : Nat) : Nat → State → State
  | 0, s => s
  | fuel + 1, s =>
    let a := (s.tray t).agg
    if !a.sync || a.buf.length < 32 then s
    else aggRun t fuel (aggWord (s.setTray t { s.tray t with agg := { a with buf := a.buf.drop 32 } }) t (a.buf.take 32))

/-- The payload area of an aggregate tray in a block whose first header stands at `count`. -/
def aggReceive (s : State) (t count : Nat) (bs : List (Bool × Bool)) : State :=
  let a := (s.tray t).agg
  if a.sync then aggRun t (bs.length / 32 + 2) (s.setTray t { s.tray t with agg := { a with buf := a.buf ++ bs } })
  else if count < bs.length then aggRun t (bs.length / 32 + 2) (s.setTray t { s.tray t with agg := { sync := true, buf := bs.drop count } })
  else s

/-- One block's payload area goes to the tray's egress (R335). A block whose tray overhead failed gives nothing. -/
def deliverArea (s : State) (t : Nat) (prot : Bool) (h : Nat) (ok : Bool) (bs : List (Bool × Bool)) : State :=
  if prot != selectedPath s t || trayFills s t then s
  else if !ok then (if kindOf s t = 3 then aggLost s t else s)
  else match kindOf s t with
    | 1 =>
      let cm := ohCount h
      let client := delayMarked s t prot (ohPosition h) ((bs.zipIdx.filter fun x => gmpCarries bs.length cm x.2).map (·.1))
      giveClient (clockTaken (s.countEv 2 t 2 client.length) t cm) t prot (ohPosition h) ((66 - ohPosition h % 66) % 66) client
    | 2 => giveClient (s.countEv 2 t 2 bs.length) t prot (ohPosition h) (ohCount h) bs
    | 3 => aggReceive s t (ohCount h) bs
    | _ => s

/-! ### Sealed paths at receive (R353–R356) -/

/-- The areas of an opened span go out, block by block. -/
def deliverSpan (s : State) (t : Nat) (prot : Bool) (sp : Span) (plain : List (Bool × Bool)) : State :=
  sp.areas.foldl (fun s a => deliverArea s t prot a.1 (ohCrcOk a.1) ((plain.drop a.2.1).take a.2.2)) s

/-- What the selected path gives its client for a failed span (R356): an Ethernet frame in progress ends with an error control block, an
aggregated one is dropped, and the tray fills as its signal fail states. -/
def spanOut (s : State) (t : Nat) (prot : Bool) : State :=
  if prot != selectedPath s t then s
  else if kindOf s t = 3 then aggLost s t
  else if clientKind (s.nat (Od.clientType t)) = 1 then s.setTray t { s.tray t with out := { (s.tray t).out with bits := errorBlock } }
  else s

/-- The span of a path has ended: its tag is looked for among those of this block (R350, R356). In hold mode a verified span goes
out now. -/
def spanCheck (s : State) (t : Nat) (prot : Bool) (n : Notice) (sp : Span) (tags : List (Nat × Nat × Nat)) : State :=
  match tags.find? fun e => e.1 = t && e.2.1 = sp.num % 32 with
  | none => spanOut (spanFailed s t prot true) t prot
  | some e =>
    match openSpan s t n sp e.2.2 with
    | none => spanOut (spanFailed s t prot false) t prot
    | some plain =>
      let s := spanVerified s t prot
      if s.nat (Od.sealMode t) = 0 then deliverSpan s t prot sp plain else s

/-- Block `c` of a sealed path: spans end and begin, notices take effect, and the block joins the span in progress. -/
def sealedBlock (s : State) (t : Nat) (prot : Bool) (c h : Nat) (bs : List (Bool × Bool)) (tags : List (Nat × Nat × Nat)) : State :=
  let x := (s.trayPath t prot).rx
  -- the span before ends
  let s := match x.cur, x.span with
    | some cur, some sp => if c % 16 = cur.phase then spanCheck s t prot cur sp tags else s
    | _, _ => s
  let y := s.trayPath t prot
  let x := y.rx
  let x := match x.cur with
    | some cur => if c % 16 = cur.phase then { x with span := none } else x
    | none => x
  -- a notice takes effect at the first block of a span
  let x := match x.next with
    | some nt => if c % 16 = nt.phase then { x with cur := some nt, next := none, span := none } else x
    | none => x
  let x := match x.held with
    | some p => if c % 16 = p.1.phase && (c - p.1.phase) / 16 % 32 = p.2 then { x with cur := some p.1, held := none, span := none } else x
    | none => x
  let x := match x.cur with
    | some cur => if c % 16 = cur.phase then { x with span := some { num := (c - cur.phase) / 16 } } else x
    | none => x
  let s := s.setTrayPath t prot { y with rx := x }
  match x.cur, x.span with
  | some cur, some sp =>
    let sp' : Span := { sp with aad := sp.aad ++ beBytes 12 h, ct := sp.ct ++ bs, areas := sp.areas ++ [(h, sp.ct.length, bs.length)] }
    let s := s.setTrayPath t prot { s.trayPath t prot with rx := { x with span := some sp' } }
    if s.nat (Od.sealMode t) = 1 then deliverArea s t prot h (ohCrcOk h) (openBits s t cur sp.num sp.ct.length bs) else s
  | _, _ => slotsRefresh s t

/-! ### A decoded block (R279, R283, R284) -/

/-- The alignment state after a passing or a failing block. -/
def alignStep (s : State) (n : Nat) (pass : Bool) : State :=
  let x := s.klfRx n
  let passes := if pass then min (x.passes + 1) 3 else 0
  let fails := if pass then 0 else min (x.fails + 1) 8
  let s := s.setKlfRx n { x with passes := passes, fails := fails, matchRun := if pass then x.matchRun else 0 }
  let st := s.nat (Od.alignState n)
  if st != 2 && passes = 3 then
    let s := (s.setN (Od.alignState n) 2).setCond (srcCarrier n 13) false
    let s := if krytelm s n then s else s.setN (Od.rxBlockCounter n) 0
    let s := if s.nat (Od.rxState n) = 2 && (s.dsp n).step + 1 = lastStep s n then trackEntry s n else s
    traysRefresh s n
  else if st = 2 && fails = 8 then
    traysRefresh (((s.setN (Od.alignState n) 3).bump (Od.lofEntries n)).raise (srcCarrier n 13)) n
  else s

/-- The ControlCell of a used fixed part: halves of a request or of a pending record are kept (R281, R286–R288). A cell of a reserved
type is ignored. -/
def controlTaken (s : State) (n cell : Nat) : State :=
  let x := s.klfRx n
  let part := cellPart cell
  if 4 ≤ cellType cell then s
  else if cellType cell = 1 then
    let others := x.requestParts.filter fun p => p.1 != part && p.2.1 = cellRequest cell
    s.setKlfRx n { x with requestParts := (part, cellRequest cell, cellContent cell) :: others }
  else
    let pend := if cellType cell = 2 then (part, cellContent cell) :: x.pendingParts.filter (fun p => p.1 != part) else x.pendingParts
    s.setKlfRx n { x with requestParts := [], judged := 0, pendingParts := pend }

/-- The data stream of a decoded block, each bit with its errored mark (R240, R275, R292). -/
def blockData (s : State) (n : Nat) (b : DecodedBlock) : List (Bool × Bool) := dataStream (fmtOf s n) (rxCodes s n) (markBits b.bad 0 b.coded)

/-- The seal tag entries of a used overhead: tray, span index and tag; an entry that holds an uncorrected bit is not used (R292). -/
def sealTags (data : List (Bool × Bool)) (count : Nat) : List (Nat × Nat × Nat) :=
  (List.range count).filterMap fun i =>
    let e := (data.drop (568 + 144 * i)).take 144
    if e.any (·.2) || e.length < 144 then none else
    let v := natOfBits (e.map (·.1))
    some (v / 2 ^ 133, v / 2 ^ 128 % 32, v % 2 ^ 128)

/-- One path of a carrier in block `c`: its overhead passes or fails, and its payload area is delivered (R335). -/
def pathReceive (s : State) (q : Placed) (c off : Nat) (area : List (Bool × Bool)) (tags : List (Nat × Nat × Nat)) : State :=
  let t := q.tray
  let s := if q.prot == selectedPath s t && !trayFills s t then s.setTray t { s.tray t with out := {} } else s
  let h := natOfBits ((area.take 96).map (·.1))
  let ok := ohCrcOk h && ohTray h = t && ohKind h = kindOf s t
  let s := if ok && q.prot == selectedPath s t then s.setN (Od.farStatus t) (min (ohStatus h) 2) else s
  let s := pathBlock s t q.prot ok ((area.drop off).any (·.2))
  let bs := area.drop 96
  if s.flag (Od.sealEnable t) then (if s.nat (rxSealKey t q.prot) = 2 then sealedBlock s t q.prot c h bs tags else s)
  else deliverArea s t q.prot h ok bs

/-- The payload of a block in `ALIGNED` is demapped by the module's own map (R324, R334, R335). -/
def payloadReceive (s : State) (n c : Nat) (data : List (Bool × Bool)) (tags : List (Nat × Nat × Nat)) : State :=
  let f := fmtOf s n
  let codes := rxCodes s n
  let y := payloadBits f codes c
  let cap := slotCapacity f codes
  let area := data.drop (data.length - y)
  let bits := List.zip (scramble c (area.map (·.1))) (area.map (·.2))
  (placementsOf s n).foldl (fun s p =>
    let a := trayArea y cap p.first p.count
    if cap < p.first + p.count then s else pathReceive s p c 0 ((bits.drop a.1).take a.2) tags) s

/-- Spans in progress of a carrier that delivers no payload are given up. -/
def spansDropped (s : State) (n : Nat) : State :=
  (placementsOf s n).foldl (fun s p =>
    let x := s.trayPath p.tray p.prot
    if x.rx.span.isSome then s.setTrayPath p.tray p.prot { x with rx := { x.rx with span := none } } else s) s

/-- What a tray gives its client across an overrun (R37): the AIS pattern, or an error control code that ends the frame in progress. -/
def slipOut (s : State) (t : Nat) : State :=
  match clientKind (s.nat (Od.clientType t)) with
  | 1 => s.setTray t { s.tray t with out := ⟨.none, errorBlock⟩, work := { (s.tray t).work with part := [] }, prot := { (s.tray t).prot with part := [] } }
  | 0 => s
  | _ => s.setTray t { s.tray t with out := ⟨fillOf s t, []⟩ }

/-- The receive queue overran (R37): it re-centres, and its trays slip; a tray that takes this path carries a fill or ends its frame. -/
def rxOverrun (s : State) (n : Nat) : State :=
  (traysOn s n).foldl (fun s t =>
    let s := aggLost (s.hold (fsTray t) 1) t
    if pathCarrier s t (selectedPath s t) = n && !trayFills s t then slipOut s t else s)
    (spansDropped ((s.bump (Od.rxOverruns n)).setN (Od.rxFill n) 32768) n)

/-- A decoded block of a Krytelm carrier. -/
def blockReceive (s : State) (n : Nat) (b : DecodedBlock) : State :=
  let x := s.klfRx n
  let data := blockData s n b
  let head := data.take 568
  let v := natOfBits (head.map (·.1))
  let clean := head.length = 568 && !head.any (·.2)
  let s := if clean && !fixedCrcOk v then s.bump (Od.overheadCrcErrors n) else s
  let used := clean && fixedCrcOk v
  let f := fixedOf v
  let due := (x.counter + x.since + 1) % 2 ^ 48
  let pass := used && fixedAligned v && (!x.known || f.counter = due)
  let c := if pass then f.counter else due
  let s := if pass then
      let s := (s.setKlfRx n { x with counter := c, since := 0, known := true }).setN (Od.rxBlockCounter n) c
      mapCompare (s.countEv 1 n 4 1) n c f.trayMap
    else s.setKlfRx n { x with since := x.since + 1 }
  let s := if used then controlTaken s n f.control else s
  let tags := if used then sealTags data f.sealCount else []
  let s := tags.foldl (fun s e =>
    if e.1 < 2048 && !s.flag (Od.sealEnable e.1) && (pathCarrier s e.1 false = n || pathCarrier s e.1 true = n) then sealMismatch s e.1 else s) s
  let s := alignStep s n pass
  if b.overrun then rxOverrun s n
  else if carrierGood s n then payloadReceive s n c data tags
  else spansDropped s n

/-- A superframe of a profile carrier: the same states, on the profile's framing (R295). -/
def frameReceive (s : State) (n : Nat) (b : DecodedBlock) : State :=
  let s := if b.frame && s.nat (Od.alignState n) = 2 then s.setN (Od.rxBlockCounter n) (s.nat (Od.rxBlockCounter n) + 1) else s
  let s := alignStep s n b.frame
  if b.overrun then rxOverrun s n
  else if carrierGood s n then
    (placementsOf s n).foldl (fun s p => if trayFills s p.tray then s else s.countEv 2 p.tray 2 (Tbl.get (fun _ => 0) b.clients p.first)) s
  else s

/-- A block is released by its decoder while the receive path decodes (R283). -/
def execKlfBlockDecoded (n : Nat) (b : DecodedBlock) (s : State) : Out :=
  onUnit (n < 64) s fun s =>
    if !s.engineUp n || !inService s n || isHub s n || s.nat (Od.alignState n) = 0 then s else
    let s := (s.setN (Od.rxFill n) (min b.rxFill 65536)).peak (Od.rxHighWater n) (min b.rxFill 65536)
    let s := if krytelm s n then blockReceive s n b else frameReceive s n b
    b.delays.foldl (fun s d => if d.1 < 2048 then trayRefresh (delayMeasured s d.1 d.2) d.1 else s) s

/-- The carrier has stayed in `LOF` for 10 ms (R284): cause 5. -/
def execLofTimer (n : Nat) (s : State) : Out :=
  onUnit (n < 64) s fun s => if s.nat (Od.alignState n) = 3 then lockLost s n 5 else s

/-! ### The far end's changes, and its answer to ours (R286–R289) -/

/-- The record that the two halves spell, when both are held. -/
def recordOf (parts : List (Nat × Nat)) : Option Nat :=
  match parts.find? fun p => p.1 = 0, parts.find? fun p => p.1 = 1 with
  | some a, some b => some (a.2 * 2 ^ 132 + b.2)
  | _, _ => none

/-- Every code of a requested record is one that R287 admits. -/
def requestCodesOk (f : Fmt) (codes : List Nat) : Bool :=
  (codes.zipIdx.all fun x => if x.2 < f.n then codeValid x.1 else x.1 = codeOff) && !(activeSubs f codes).isEmpty

/-- Both parts of a change request have been decoded: it is judged once (R287). -/
def execChangeRequestDecoded (n : Nat) (s : State) : Out :=
  onUnit (n < 64) s fun s =>
    let x := s.klfRx n
    let id := ((x.requestParts.head?).map fun p => p.2.1).getD 0
    match recordOf (x.requestParts.map fun p => (p.1, p.2.2)) with
    | none => s
    | some record =>
      if !receives s n || id = 0 || x.judged = id then s else
      let f := fmtOf s n
      let codes := recordCodes record
      let ok := s.nat (Od.rxState n) = 3 && recordTag record = (recordTag x.record + 1) % 256 && requestCodesOk f codes
        && meetsMinimum f codes && x.target.isNone
      let s := (s.bump (Od.requestsReceived n)).setKlfRx n { x with judged := id }
      if ok then (s.bump (Od.requestsConfirmed n)).setKlfTx n { s.klfTx n with confirm := id, confirmLeft := 65536 }
      else s.bump (Od.requestsDeclined n)

/-- A Confirmation field with ConfirmedId `id` is decoded: the outstanding request it names stops, and the first announcement goes in
the first block that starts at least two blocks later (R112, R286). A member of a group commit waits for the decision time (R114). -/
def execConfirmationDecoded (n id : Nat) (s : State) : Out :=
  onUnit (n < 64) s fun s =>
    let x := s.klfTx n
    let first := x.next + 1
    let go (c : Change) : Change := { c with waiting := false, first := some first, target := some (first + 16) }
    if !receives s n || id = 0 then s else
    match x.auto.filter fun c => c.waiting && c.request = id, x.host.filter fun c => c.waiting && c.request = id with
    | some c, _ => s.setKlfTx n { x with auto := some (go c) }
    | none, some c =>
      if (s.scope n).member then
        (s.setKlfTx n { x with host := some { c with waiting := false } }).setScope n { s.scope n with confirmed := true }
      else ((s.setKlfTx n { x with host := some (go c) }).setScope n { s.scope n with confirmed := true }).setN (Od.targetBlock n) ((first + 16) % 2 ^ 48)
    | none, none => s

/-- The receiver no longer holds a target. -/
def targetDropped (s : State) (n : Nat) : State :=
  ((s.setKlfRx n { s.klfRx n with target := none, pendingParts := [] }).setN (Od.rxTargetBlock n) 0).setN (Od.rxPendingTag n) 0

/-- An Announcement field of the last passing block (R288). -/
def execAnnouncementDecoded (n ann : Nat) (s : State) : Out :=
  onUnit (n < 64) s fun s =>
    let x := s.klfRx n
    let k := annCountdown ann
    if !receives s n || !x.known then s
    else if k = 0 then
      match x.target with
      | some t =>
        let left := (t.1 + 2 ^ 48 - x.counter) % 2 ^ 48
        if 0 < left && left < 2 ^ 47 then (targetDropped s n).bump (Od.countdownsAbandoned n) else s
      | none => s
    else if 16 < k then s
    else
      let y := s.klfTx n
      let s := if annRequest ann != 0 && annRequest ann = y.confirm then s.setKlfTx n { y with confirm := 0, confirmLeft := 0 } else s
      let target := (x.counter + k) % 2 ^ 48
      let tag := annTag ann
      let other := (recordOf x.pendingParts).any fun r => recordTag r != tag
      match x.target with
      | none =>
        ((s.setKlfRx n { x with target := some (target, tag), pendingParts := if other then [] else x.pendingParts }).setN (Od.rxTargetBlock n) target).setN
          (Od.rxPendingTag n) tag
      | some t => if t = (target, tag) && !other then s else s.bump (Od.announceErrors n)

/-- The held target block: in `TRACK` the receiver switches to the pending record, where it holds both parts (R288, R289). -/
def execRxTargetBlock (n : Nat) (s : State) : Out :=
  onUnit (n < 64) s fun s =>
    let x := s.klfRx n
    match x.target with
    | none => s
    | some t =>
      let s := match recordOf x.pendingParts with
        | some r => if s.nat (Od.rxState n) = 3 && recordTag r = t.2 then recordAdopt s n r else s
        | none => s
      targetDropped s n

/-- 65,536 blocks have carried the confirmation without a matching announcement: it stops (R287). -/
def execConfirmationLimit (n : Nat) (s : State) : Out :=
  onUnit (n < 64) s fun s =>
    let x := s.klfTx n
    if x.confirmLeft = 0 then s.setKlfTx n { x with confirm := 0 } else s

/-! ### The Sieve (R290–R293) -/

/-- The pool of a line die, 128 coded blocks for each of its eight carrier engines: its highest occupancy (R290). -/
def poolPeak (s : State) (p : Nat) : State :=
  s.peak (Od.blocksInFlightPeak p) (((List.range 8).map fun i => (s.engine (8 * p + i)).inFlight).foldl (· + ·) 0)

/-- A released coded block in the performance counters (R476). -/
def releaseCounted (s : State) (n : Nat) (r : CodedRelease) : State :=
  ((s.countEv 1 n 1 1).countEv 1 n 2 (if r.uncorrected then 1 else 0)).countEv 1 n 3 (if r.uncorrected then 0 else r.ones + r.zeros)

/-- The Sieve, or a profile decoder, releases a coded block. The first two after decoding starts are not counted (R290). -/
def execCodedBlockRelease (n : Nat) (r : CodedRelease) (s : State) : Out :=
  onUnit (n < 64) s fun s =>
    if !s.engineUp n || !inService s n || s.nat (Od.alignState n) = 0 then s else
    let e := s.engine n
    let fixed := r.ones + r.zeros
    if !krytelm s n then releaseCounted s n r else
    let e := { e with inFlight := min r.inFlight 128 }
    let s := poolPeak (s.setEngine n e) (portOf n)
    if e.sieveStart < 2 then s.setEngine n { e with sieveStart := e.sieveStart + 1 } else
    let most := s.nat (Od.sieveIterations (portOf n))
    let it := if s.flag (Od.earlyStop (portOf n)) then min r.iterations most else most
    let add := [if r.uncorrected then 1 else 0, if r.uncorrected then 0 else fixed, it, 1]
    let s := s.setEngine n { e with sieve := List.zipWith (· + ·) e.sieve add }
    let s := releaseCounted (s.bump (Od.decodedBlocks n)) n r
    let s := if it = most then s.bump (Od.iterationLimitHits n) else s
    if r.uncorrected then s.bump (Od.uncorrectedBlocks n)
    else if fixed = 0 then s
    else (((s.bump (Od.correctedBlocks n)).bumpBy (Od.fecStatsCorrectedBits n) fixed).bumpBy (Od.correctedOnes n) r.ones).bumpBy
      (Od.correctedZeros n) r.zeros

/-- The Sieve's part of a 1 s boundary (R292, R293); a written `UncorrectedAlarm` counts from the next interval (R299). -/
def fecLatch (s : State) : State :=
  forUnits 64 (fun n s =>
    let e := s.engine n
    let bad := e.sieve.getD 0 0
    let pos := e.sieve.getD 3 0
    let s := (s.setN (Od.uncorrectedInterval n) (min bad 4294967295)).setN (Od.correctedBitsInterval n) (e.sieve.getD 1 0)
    let s := s.setF (Od.meanIterations n) (if pos = 0 then 0 else f32OfRat ((e.sieve.getD 2 0 : Nat) : Int) pos)
    let s := s.setEngine n { e with sieve := [0, 0, 0, 0], alarmLevel := s.nat (Od.uncorrectedAlarm n) }
    if e.alarmLevel ≤ bad then s.setCond (srcCarrier n 14) true
    else if bad = 0 then s.setCond (srcCarrier n 14) false
    else s) s

def clearFecCounters (s : State) : Status × State :=
  (.ok, s.clearObjs fun k => let i := keyIdx k; let j := keySub k
    (i = 0x3301 && (j = 3 || j = 4 || j = 5)) || (i = 0x3302 && decide (3 ≤ j ∧ j ≤ 7)) || (i = 0x3310 && j = 4)
      || (i = 0x3311 && (decide (1 ≤ j ∧ j ≤ 6) || j = 8)))

def execClearFecCounters (k : Nat) (s : State) : Out := .next (hostCmd s k Od.clearFecCounters 1 clearFecCounters)

end Sys2Proof.Machine
end

