-- ==== Sys2Proof/Machine/Commit.lean ====
section
/-! DEFINITION. Commit scopes: arming, cancelling, the group commit, and the copy of shadows into active values (R109–R115). -/

namespace Sys2Proof.Machine

/-! ### What an arm is judged on (R111, R331) -/

/-- A pending change of a path's carrier lies in the scopes of the carrier that it leaves and of the one that it goes to; one that adds
or removes a path of a tray with another path lies in that path's scope too (R109, R331). -/
def moveScopes (s : State) (key : Nat) : List Nat :=
  let t := keyInst key
  let other := if key = Od.workCarrier t then Od.protCarrier t else Od.workCarrier t
  let ends := [s.nat key, s.shNat key]
  ((ends ++ if ends.contains 255 then [s.nat other, s.shNat other] else []).filter (· < 64)).eraseDups

/-- The pending changes of carriers in the scopes `ms` can be carried by these scopes alone. -/
def movesOk (s : State) (ms : List Nat) : Bool :=
  s.shadow.all fun p =>
    let t := keyInst p.1
    if keyIdx p.1 = 0x4100 && (p.1 = Od.workCarrier t || p.1 = Od.protCarrier t) && s.shNat p.1 != s.nat p.1
        && (moveScopes s p.1).any ms.contains then
      (moveScopes s p.1).all ms.contains
    else true

/-- Paths of carrier `n` that the change would newly seal there (R277, R346). -/
def newlySealed (s : State) (view : Nat → Nat) (n : Nat) : Nat :=
  if isHub s n then 0 else
  ((placementsIn s view n).filter fun p => view (Od.sealEnable p.tray) != 0
    && (s.nat (txPhaseKey p.tray p.prot) = 255 || pathCarrier s p.tray p.prot != n)).length

/-- The rules that a carrier's placements and layout keep (R243, R277, R331, R376). -/
def carrierArmOk (s : State) (view : Nat → Nat) (n : Nat) : Bool :=
  let codes := (List.range 32).map fun k => view (Od.entropy (32 * n + k))
  placementsOk s view n codes && layoutOk s n codes (slotsUsed (placementsIn s view n)) (newlySealed s view n)
    && (!isHub s n || (List.range 32).all fun k =>
      let i := 32 * n + k
      if s.flag (Od.hubActive i) && view (Od.hubActive i) = 0 then
        (leavesWith s i fun st => st = 1 || st = 2 || st = 3).isEmpty else true)

/-- The hub sources that a view would place (R406). -/
def sourcesOk (s : State) (view : Nat → Nat) : Bool :=
  (List.range 16).all fun j =>
    let t := s.nat (Od.sourceTray j)
    t = 65535 || (view (Od.workCarrier t) = 255 && view (Od.protCarrier t) = 255)

/-- The trays with a pending object of 4300h or of placement in the scopes `ms`. -/
def pendingTrays (s : State) (ms : List Nat) : List Nat :=
  (s.shadow.filterMap fun p => if (keyIdx p.1 = 0x4100 ∨ keyIdx p.1 = 0x4200 ∨ keyIdx p.1 = 0x4300) ∧ decide (p.2 ≠ s.val p.1)
    ∧ (scopesOf s p.1).any ms.contains then some (keyInst p.1) else none).eraseDups

/-- An arm that makes `SealEnable` or `HubSeal` true finds the slot loaded (R345, R385). -/
def sealSlotsOk (s : State) (view : Nat → Nat) (ms : List Nat) : Bool :=
  (pendingTrays s ms).all (fun t => s.flag (Od.sealEnable t) || view (Od.sealEnable t) = 0
      || s.nat (Od.trayKeySlotSlotState (2 * t + s.nat (Od.txKeySelect t))) != 0)
    && (s.shadow.all fun p => if keyIdx p.1 = 0x5000 ∧ keySub p.1 = 13 ∧ (scopesOf s p.1).any ms.contains then
          s.flag p.1 || view p.1 = 0 || s.nat (Od.trayKeySlotSlotState (2 * keyInst p.1)) != 0 else true)

/-- A tray would be sealed on a carrier in an interoperable profile (R295). -/
def profileSealed (s : State) (view : Nat → Nat) (ms : List Nat) : Bool :=
  (pendingTrays s ms).any fun t => view (Od.sealEnable t) != 0
    && [view (Od.workCarrier t), view (Od.protCarrier t)].any fun c => decide (c < 64) && !krytelm s c

/-- A scope's pending objects belong to a group of another session (R111). -/
def pendingOwned (s : State) (k n : Nat) : Bool :=
  (pendingIn s n).any fun p => match groupOf (keyIdx p.1) (keyInst p.1) with
    | some g => s.ownedByOther k g
    | none => false

/-- A scope may be armed in this state of module and engine (R111). -/
def armStateOk (s : State) (n : Nat) : Bool :=
  !s.beforeCalibrate && s.boot.st != .safe && !s.boot.trialDeferred && (n = 64 || (s.engineUp n && s.nat (Od.calState n) = 2))

/-- The refusals of an arm of the scopes `ms` by session `k` (R111, R295, R345, R376, R406). -/
def armCheck (s : State) (k : Nat) (ms : List Nat) : Status :=
  let view := armView s ms
  let carriers := ms.filter (· < 64)
  if ms.any (pendingOwned s k) then .owned
  else if ms.any fun n => !armStateOk s n then .state
  else if ms.any s.armed then .shadowBusy
  else if (carriers.any fun n => !krytelm s n && layoutPending s n) || profileSealed s view ms then .state
  else if !movesOk s ms || !(carriers.all (carrierArmOk s view)) || !sealSlotsOk s view ms || !sourcesOk s view then .inconsistent
  else if !budgetOk s view || !delayPagesOk s view then .resource
  else .ok

/-! ### Arming (R111, R112, R286) -/

/-- A pending change of scope `n` needs the far end (R112, R249). -/
def peerNeeded (s : State) (n : Nat) : Bool := decide (n < 64) && layoutPending s n && peerKnown s n

/-- Arm one scope; `alone` is false for a member of a group commit. -/
def armScope (s : State) (k n : Nat) (alone : Bool) : State :=
  let peer := peerNeeded s n
  let s := s.setScope n { armRole := (s.session k).role, armSlot := k, member := !alone, needsPeer := peer,
                          due := if alone then s.uptime + s.nat (Od.lead n) else unstamp (s.bytes Od.targetTime) }
  let s := ((s.setN (Od.armedBy n) k).setN (Od.targetBlock n) 0).setN (Od.commitStatusState n) (if peer then 2 else 1)
  if 64 ≤ n then s else
  -- a host arm withdraws an automatic change that awaits its confirmation (R260)
  let s := match (s.klfTx n).auto with | some c => if c.waiting then autoEnd s n 3 else s | none => s
  let layout := layoutPending s n && krytelm s n
  let x := s.klfTx n
  if peer then
    let r := drawRequest s n
    r.2.setKlfTx n { x with host := some { layout := layout, request := r.1, waiting := true } }
  else if !alone then s.setKlfTx n { x with host := some { layout := layout } }
  else
    let a := x.next - 1
    let lead := s.nat (Od.lead n)
    let target := a + 1 + lead
    let c : Change := { layout := layout, first := some (if lead ≤ 16 then a + 1 else target - 16), target := some target }
    (s.setKlfTx n { x with host := some c }).setN (Od.targetBlock n) (target % 2 ^ 48)

def commitArm (k n : Nat) (s : State) : Status × State :=
  match armCheck s k [n] with
  | .ok => (.ok, armScope s k n true)
  | st => (st, s)

/-! ### How a commit ends (R113, R114) -/

/-- The members of the group commit that still run. -/
def groupMembers (s : State) : List Nat := (s.scopes.filter fun p => p.2.member).map (·.1)

/-- Once every member has ended, the group has its result: `COMMIT_DONE` if all copied, else the first found of cancelled, no peer,
aborted, abandoned (R114). -/
def groupJudge (s : State) : State :=
  if s.nat Od.groupState = 0 || !(groupMembers s).isEmpty then s else
  let rs := s.scopes.map fun p => p.2.memberResult
  let res := if rs.contains 3 then 3 else if rs.contains 2 then 2 else if rs.contains 5 then 5 else if rs.contains 4 then 4 else 1
  let s := (s.setN Od.groupState 0).setN Od.groupResult res
  { s with scopes := Tbl.clear (fun n => (s.scope n).memberResult != 0) s.scopes }

/-- The scope returns to `IDLE` with a result and one journal entry. -/
def scopeEnd (s : State) (n kind result : Nat) : State :=
  let x := s.scope n
  let gen := if kind = 4 then s.nat (Od.shadowGeneration n) else 0
  let s := s.journalAdd (s.nat (Od.armedBy n)) kind (if x.member then 0x2123 else 0x2121) n (if kind = 5 then result else 0) x.armRole gen
  let s := (s.setN (Od.commitStatusState n) 0).setN (Od.commitStatusResult n) result
  let s := if n < 64 then s.setKlfTx n { s.klfTx n with host := none } else s
  groupJudge (s.setScope n { memberResult := if x.member then result else 0 })

/-- A commit ends without a copy. -/
def commitEnd (s : State) (n result : Nat) : State := if s.armed n then scopeEnd s n 5 result else s

/-- The engine of a carrier scope is powered down or shed before the target: the commit ends with `COMMIT_ABORTED`, and so does an
automatic change (R113, R260). -/
def commitAborted (s : State) (n : Nat) : State := autoEnd (commitEnd s n 5) n 4

def commitCancel (k n : Nat) (s : State) : Status × State :=
  let x := s.scope n
  if !s.armed n then (.state, s)
  else if x.member || s.nat (Od.commitStatusState n) = 3 then (.shadowBusy, s)
  else if x.armSlot != k && (s.session k).role != 3 then (.role, s)
  else (.ok, commitEnd s n 3)

/-- Every shadow of the scope returns to its active value. -/
def commitRevert (n : Nat) (s : State) : Status × State :=
  if s.armed n then (.shadowBusy, s)
  else (.ok, { s with shadow := s.shadow.filter fun p => !(scopesOf s p.1).contains n })

def execCommitArm (k n : Nat) (s : State) : Out := .next (hostCmd s k (Od.commitCommand n) 1 (commitArm k n))
def execCommitCancel (k n : Nat) (s : State) : Out := .next (hostCmd s k (Od.commitCommand n) 2 (commitCancel k n))
def execCommitRevert (k n : Nat) (s : State) : Out := .next (hostCmd s k (Od.commitCommand n) 3 (commitRevert n))

/-! ### The group commit (R114) -/

/-- The scopes that the group set-up names. -/
def groupScopeList (s : State) : List Nat :=
  ((List.range 64).filter fun n => s.nat Od.scopeMask / 2 ^ n % 2 = 1) ++ if s.flag Od.includeModule then [64] else []

def groupArm (k : Nat) (s : State) : Status × State :=
  let ms := groupScopeList s
  if ms.isEmpty then (.inconsistent, s)
  else if ms.any s.armed then (.shadowBusy, s)
  else if s.nat Od.groupState != 0 then (.busy, s)
  else if unstamp (s.bytes Od.targetTime) < s.moduleTime + 1000000 then (.range, s)
  else match armCheck s k ms with
    | .ok => (.ok, ((ms.foldl (fun s n => armScope s k n false) s).setN Od.groupState 1).setN Od.groupResult 0)
    | st => (st, s)

def groupCancel (s : State) : Status × State :=
  match s.nat Od.groupState with
  | 0 => (.state, s)
  | 1 => (.ok, (groupMembers s).foldl (fun s n => commitEnd s n 3) s)
  | _ => (.shadowBusy, s)

def execGroupArm (k : Nat) (s : State) : Out := .next (hostCmd s k Od.groupCommand 1 (groupArm k))
def execGroupCancel (k : Nat) (s : State) : Out := .next (hostCmd s k Od.groupCommand 2 groupCancel)

/-- The decision time: all members count down, or none copies. `targets` gives, for each carrier member, its first transmit block that
starts at or after `TargetTime`. -/
def execGroupDecisionTime (targets : List (Nat × Nat)) (s : State) : Out :=
  .next <|
    if s.nat Od.groupState != 1 then s else
    let ms := groupMembers s
    let lacks (n : Nat) : Bool := (s.scope n).needsPeer && !(s.scope n).confirmed
    if ms.any lacks then ms.foldl (fun s' n => commitEnd s' n (if lacks n then 2 else 4)) s
    else (ms.filter (· < 64)).foldl (fun s n =>
      let x := s.klfTx n
      let b := Tbl.get (fun _ => x.next + 16) targets n
      match x.host with
      | some c => (s.setKlfTx n { x with host := some { c with waiting := false, first := some (b - 16), target := some b } }).setN
          (Od.targetBlock n) (b % 2 ^ 48)
      | none => s) (s.setN Od.groupState 2)

/-- `PeerTimeout` has passed without a confirmation: of a scope armed on its own, or of the automatic change (R113, R260). -/
def execPeerTimeout (n : Nat) (auto : Bool) (s : State) : Out :=
  onUnit (n < 64) s fun s =>
    if auto then (if ((s.klfTx n).auto.map (·.waiting)).getD false then autoEnd s n 2 else s)
    else if s.nat (Od.commitStatusState n) = 2 && !(s.scope n).member && !(s.scope n).confirmed then
      (commitEnd s n 2).raise (srcCarrier n 18)
    else s

/-- The scheduled block of the first announcement is reached: the scope reads `COUNTDOWN` (R112, R286). -/
def execCountdownStart (n : Nat) (s : State) : Out :=
  onUnit (n < 64) s fun s =>
    let x := s.klfTx n
    match x.host.bind (·.first) with
    | some f => if s.armed n && decide (f ≤ x.next) then s.setN (Od.commitStatusState n) 3 else s
    | none => s

/-! ### The copy (R113) -/

/-- The pending values of the scope become active. -/
def copyShadows (s : State) (n : Nat) : State :=
  (pendingIn s n).foldl (fun s p => (s.setVal p.1 p.2).setShadow p.1 p.2) s

/-- A pending object of these indices and subs was copied. -/
def copied (ps : List (Nat × Val)) (f : Nat → Nat → Bool) : Bool := ps.any fun p => f (keyIdx p.1) (keySub p.1)

/-- What the copied values mean for the datapath of carrier `n` and for the trays and hub subcarriers in the scope; `old` is the
module before the copy. -/
def copyEffects (old s : State) (n : Nat) : State :=
  let ps := pendingIn old n
  let placed := (ps.filterMap fun p => if keyIdx p.1 = 0x4100 ∨ (keyIdx p.1 = 0x4200 ∧ keySub p.1 = 4) then some (keyInst p.1) else none).eraseDups
  let sealing := (placed ++ ps.filterMap fun p => if keyIdx p.1 = 0x4300 then some (keyInst p.1) else none).eraseDups
  let hubs := (ps.filterMap fun p => if keyIdx p.1 = 0x5000 then some (keyInst p.1) else none).eraseDups
  let block (c : Nat) : Nat := let x := s.klfTx c; ((x.host.bind (·.target)).getD x.next)
  let s := placed.foldl (fun s t => placementChanged old s t) s
  let s := sealing.foldl (fun s t => sealCommitted old s t block) s
  let s := hubs.foldl (fun s i => hubCopied old s i) s
  let moved := (n :: placed.flatMap (fun t => [pathCarrier old t false, pathCarrier old t true, pathCarrier s t false, pathCarrier s t true])).eraseDups
  (moved.filter (· < 64)).foldl (fun s c =>
    let s := if placementsOf old c = placementsOf s c then s else
      s.setKlfTx c { s.klfTx c with mapTag := ((s.klfTx c).mapTag + 1) % 16 }
    tuneFloorJudge (traysRefresh s c) c) s

/-- What the copied values of the carrier's own objects mean. -/
def carrierCopied (old s : State) (n : Nat) : State :=
  let ps := pendingIn old n
  let s := if codesOf old n = codesOf s n then s else layoutTaken (s.setN (Od.layoutTag n) ((s.nat (Od.layoutTag n) + 1) % 256)) n
  let s := frontCopied old s n
  let s := if copied ps fun i j => i = 0x3110 && j = 2 then dispersionCopied s n else s
  if copied ps fun i j => i = 0x3120 && j = 2 then whiskCopied s n else s

/-- All pending shadows of scope `n` become active at once, and the scope returns to `IDLE` with `COMMIT_DONE`. -/
def commitCopy (s : State) (n : Nat) : State :=
  let s' := copyShadows s n
  let s' := if n < 64 then carrierCopied s s' n else s'
  scopeEnd ((copyEffects s s' n).bump (Od.shadowGeneration n)) n 4 1

/-- The target block of carrier `n` starts: of its commit scope, or of the automatic change (R113, R260). -/
def execCommitCopy (n : Nat) (auto : Bool) (s : State) : Out :=
  onUnit (n < 64) s fun s =>
    let x := s.klfTx n
    let due (c : Change) : Bool := match c.target with | some t => decide (t ≤ x.next) | none => false
    if auto then
      match x.auto with
      | some c => if due c then traysRefresh (autoApplied s n c) n else s
      | none => s
    else match x.host with
      | some c => if s.armed n && due c then commitCopy s n else s
      | none => s

/-- The target of scope 64: the arm time plus `Lead`, or `TargetTime` of a decided group commit (R112, R114). -/
def execModuleScopeTarget (s : State) : Out :=
  .next <|
    let x := s.scope 64
    let due : Bool := if x.member then s.nat Od.groupState = 2 && decide (x.due ≤ s.moduleTime)
      else decide (x.due ≤ s.uptime)
    if s.armed 64 && due then commitCopy s 64 else s

/-! ### Objects -/

/-- `ShadowDirty` and `PeerNeeded` (R112, R120), the journal's sequence numbers, and the commands that run: an arm of one scope, and a
group commit (R12, R14). -/
def commitRead (s : State) (key : Nat) : Option Val :=
  let n := keyInst key
  if keyIdx key = 0x2120 ∧ keySub key = 7 then some (.u (pendingIn s n).length)
  else if keyIdx key = 0x2120 ∧ keySub key = 8 then some (.u (if peerNeeded s n then 1 else 0))
  else if keyIdx key = 0x2121 then some (.u (if s.armed n && !(s.scope n).member then 1 else 0))
  else if keyIdx key = 0x2123 then some (.u (if s.nat Od.groupState = 0 then 0 else 1))
  else if keyIdx key = 0x2131 ∧ keySub key = 1 then some (.u s.journalNext)
  else if keyIdx key = 0x2131 ∧ keySub key = 2 then some (.u ((s.journal.getLast?.map (·.seq)).getD 0))
  else none

end Sys2Proof.Machine
end

