-- ==== Sys2Proof/Machine/Dma.lean ====
section
/-! DEFINITION. The capture DMA channels: descriptors, rings, pacing, pauses and what power-downs do to them (R430–R439). -/

namespace Sys2Proof.Machine

def State.dma (s : State) (c : Nat) : Dma := Tbl.get (fun _ => {}) s.dmas c
def State.setDma (s : State) (c : Nat) (x : Dma) : State := { s with dmas := Tbl.put (fun _ => {}) s.dmas c x }

/-- The port, and so the line die, of a line-die source (R430). -/
def sourcePort (kind inst : Nat) : Nat := if kind = 5 then inst else inst / 8

/-- Octets of the destination region, and the page address of its page `i` (R416). -/
def regionBytes (s : State) (cr : Nat) : Nat := 4096 * s.nat (Od.stockpotRegionRegionPages (6 + cr))
def runPage : List (Nat × Nat) → Nat → Option Nat
  | [], _ => none
  | (b, n) :: t, i => if i < n then some (b + i) else runPage t (i - n)
def regionPage (s : State) (cr i : Nat) : Option Nat := runPage (regionRuns s (6 + cr)) i

/-- The stack of a capture region. -/
def crStack (s : State) (cr : Nat) : Nat := s.nat (Od.regionStack (6 + cr))

/-- The mapping-die half and the stack of a channel's destination, and of its source (R27, R439). -/
def dmaDestStack (s : State) (c : Nat) : Nat := crStack s (s.nat (Od.destRegion c))
def dmaSrcHalf (s : State) (c : Nat) : Nat :=
  if s.nat (Od.sourceKind c) = 6 then crStack s (s.nat (Od.sourceInstance c)) else sourcePort (s.nat (Od.sourceKind c)) (s.nat (Od.sourceInstance c)) / 2

/-- A channel is `RUNNING` or `PAUSED`. -/
def dmaOpen (s : State) (c : Nat) : Bool := s.nat (Od.dmaState c) = 1 || s.nat (Od.dmaState c) = 2

/-- The destination offset of the next octet (R434, R435): after `Length` octets mode 1 returns to `DestOffset`. -/
def destNext (s : State) (c : Nat) : Nat :=
  let len := max (s.nat (Od.dmaLength c)) 1
  s.nat (Od.destOffset c) + (if s.nat (Od.dmaDescriptorMode c) = 1 then s.nat (Od.bytesDone c) % len else s.nat (Od.bytesDone c))

/-! ### Start (R430, R433, R437) -/

/-- `SourceInstance` and `SourceParam` in range for the kind (R430, R482). -/
def dmaSourceOk (s : State) (c : Nat) : Bool :=
  let i := s.nat (Od.sourceInstance c)
  let p := s.nat (Od.sourceParam c)
  match s.nat (Od.sourceKind c) with
  | 1 => i < 64 && p = 0
  | 2 => i < 64 && decide (1 ≤ p ∧ p ≤ s.nat (Od.ringPages c))
  | 3 => i < 64 && decide (p % 256 < 32 ∧ p / 256 ≤ 24)
  | 4 => i < 64 && decide (10 ≤ p ∧ p ≤ 1000000)
  | 5 => i < 8 && p = 0
  | 6 => i < 32 && p = 0
  | _ => true

/-- What R433 calls misaligned, and outside its region. -/
def dmaMisaligned (s : State) (c : Nat) : Bool :=
  s.nat (Od.destOffset c) % 64 != 0 || s.nat (Od.dmaLength c) % 64 != 0 || s.nat (Od.sourceOffset c) % 64 != 0
    || s.nat (Od.dmaLength c) = 0 || (s.nat (Od.sourceKind c) != 6 && s.nat (Od.dmaLength c) % 4096 != 0)
def dmaOutside (s : State) (c : Nat) : Bool :=
  decide (regionBytes s (s.nat (Od.destRegion c)) < s.nat (Od.destOffset c) + s.nat (Od.dmaLength c))
    || (s.nat (Od.sourceKind c) = 6 && decide (regionBytes s (s.nat (Od.sourceInstance c)) < s.nat (Od.sourceOffset c) + s.nat (Od.dmaLength c)))

/-- What R430, R436 and R482 call inconsistent at a start. -/
def dmaInconsistent (s : State) (c : Nat) : Bool :=
  let k := s.nat (Od.sourceKind c)
  let i := s.nat (Od.sourceInstance c)
  k = 0
  || (k = 3 && (s.flag (Od.hubMode i) || !rxActive s i (s.nat (Od.sourceParam c) % 32)))
  || (k = 5 && !s.flag (Od.probeEnable i))
  || (k = 6 && s.nat (Od.pacing c) = 0)
  || (s.nat (Od.pacing c) = 1 && s.nat (Od.eventKind c) = 3 && (s.nat (Od.eventArg c) = c || decide (32 ≤ s.nat (Od.eventArg c))))

/-- Ring pages that other channels hold in the buffer of a line die (R430). -/
def ringTotal (s : State) (c port : Nat) : Nat :=
  ((List.range 32).map fun d => if d != c && (s.dma d).ringPort = port then (s.dma d).ringSize else 0).foldl (· + ·) 0

/-- `DmaCommand` code 1. -/
def dmaStart (c : Nat) (s : State) : Status × State :=
  let k := s.nat (Od.sourceKind c)
  let i := s.nat (Od.sourceInstance c)
  let line := k != 6
  let dup := (List.range 32).any fun d => d != c && dmaOpen s d && s.nat (Od.sourceKind d) = k && s.nat (Od.sourceInstance d) = i
  if dmaOpen s c then (.state, s)
  else if !dmaSourceOk s c then (.range, s)
  else if dup then (.busy, s)
  else if dmaMisaligned s c then (.inconsistent, ((s.setN (Od.lastError c) 1).occur (0x20 + c) c false))
  else if dmaOutside s c then (.inconsistent, s.setN (Od.lastError c) 5)
  else if dmaInconsistent s c then (.inconsistent, s)
  else if line && decide (4096 < ringTotal s c (sourcePort k i) + s.nat (Od.ringPages c)) then (.resource, s)
  else if !s.domUp (domStack (dmaDestStack s c)) || !s.domUp (domHalf (dmaDestStack s c)) || !s.domUp (domHalf (dmaSrcHalf s c))
      || (line && !s.domUp (domPort (sourcePort k i))) || (!line && !s.domUp (domStack (crStack s i))) then (.state, s)
  else
    let s := s.setDma c { ringSize := if line then s.nat (Od.ringPages c) else 0,
                          ringPort := if line then sourcePort k i else 0,
                          snapLeft := if k = 2 && s.nat (Od.pacing c) = 0 then s.nat (Od.sourceParam c) else 0 }
    let s := ((((s.setN (Od.dmaState c) 1).setN (Od.lastError c) 0).setN (Od.bytesDone c) 0).setN (Od.burstsPending c) 0)
    (.ok, (s.setN (Od.nextDestOffset c) (s.nat (Od.destOffset c))).setN (Od.dmaCommand c) 1)

/-! ### Pages and bursts (R431, R432, R434–R436) -/

/-- The page header of R431. -/
def sourceHeader (s : State) (c flags t len : Nat) : Bytes :=
  leBytes 1 (s.nat (Od.sourceKind c)) ++ leBytes 1 flags ++ leBytes 2 (s.nat (Od.sourceInstance c)) ++ leBytes 4 (s.dma c).seq
    ++ stamp t ++ leBytes 2 len ++ leBytes 4 (s.nat (Od.sourceParam c)) ++ List.replicate 40 0

/-- A line-die source completes a page: `t` is the module time of its first data octet, `data` its valid octets. A kind 5 source
takes both from the Probe's records (R482), and a kind 4 source's octets are its engine's tap snapshot (R203). The ring is filled while the channel is `RUNNING` or `PAUSED`. -/
def execSourcePageProduced (c t : Nat) (data : Bytes) (s : State) : Out :=
  onUnit (c < 32) s fun s =>
    let x := s.dma c
    let k := s.nat (Od.sourceKind c)
    let i := s.nat (Od.sourceInstance c)
    let alive := if k = 5 then s.flag (Od.probeEnable i) else s.engineUp i && !(s.engine i).resetting
    if x.ringSize = 0 || !dmaOpen s c || x.ringLost || !alive || (k = 1 && !s.flag (Od.monitorEnable i)) || (k = 2 && x.snapLeft = 0) then s else
    let pr := probePage (s.probe i)
    let s := if k = 5 then s.setProbe i { s.probe i with records := pr.2.2 } else s
    let t := if k = 5 then pr.1 else t
    let data := (if k = 5 then pr.2.1 else if k = 4 then tapBlock s i else data).take 4032
    let first := k = 2 && x.snapLeft % max (s.nat (Od.sourceParam c)) 1 = 0
    let last := k = 2 && x.snapLeft % max (s.nat (Od.sourceParam c)) 1 = 1 % max (s.nat (Od.sourceParam c)) 1
    let left := x.snapLeft - 1
    if x.ringSize ≤ x.ring.length then
      ((s.setDma c { x with seq := (x.seq + 1) % 4294967296, dropped := true, snapLeft := left }).bump (Od.sourceOverruns c)).countEv 6 c 2 1
    else
      let flags := (if x.dropped then 1 else 0) + (if first then 2 else 0) + (if last then 4 else 0)
      let page := sourceHeader s c flags t data.length ++ data ++ List.replicate (4032 - data.length) 0
      let s := s.setDma c { x with ring := x.ring ++ [page], seq := (x.seq + 1) % 4294967296, dropped := false, snapLeft := left }
      if s.nat (Od.pacing c) = 0 || k = 2 then s.bump (Od.burstsPending c) else s

/-- A pacing event of `kind` with argument `arg` occurs (R436): it releases bursts, or takes a snapshot, on every running channel
that it paces. -/
def execDmaEventRelease (kind arg : Nat) (s : State) : Out :=
  .next <| (List.range 32).foldl (fun s c =>
    if s.nat (Od.dmaState c) = 1 && (s.dma c).drain = .none && s.nat (Od.pacing c) = 1 && s.nat (Od.eventKind c) = kind
        && (kind = 1 || s.nat (Od.eventArg c) = arg || (kind = 2 && s.nat (Od.eventArg c) = 0xFFFF)) then
      if s.nat (Od.sourceKind c) = 2 then s.setDma c { s.dma c with snapLeft := (s.dma c).snapLeft + s.nat (Od.sourceParam c) }
      else s.bumpBy (Od.burstsPending c) (s.nat (Od.burstsPerEvent c))
    else s) s

/-- Write the page buffer into its destination page, which ends at region offset `stop`: merged with what the page holds, or with
the fill where nothing was written before (R434). -/
def flushBuffer (s : State) (c stop : Nat) : State :=
  let x := s.dma c
  if x.buffer.isEmpty then s else
  let start := stop - x.buffer.length
  let cr := s.nat (Od.destRegion c)
  match regionPage s cr (start / 4096) with
  | none => s.setDma c { x with buffer := [] }
  | some a =>
    let o := start % 4096
    let r := if x.buffer.length < 4096 && (s.page (physical s a)).written then (readPage s a 0 false).2 else (regionFill (6 + cr), s)
    let data := r.1.take o ++ x.buffer ++ r.1.drop (o + x.buffer.length)
    (writePage r.2 a data).setDma c { x with buffer := [] }

/-- The next source page of a channel is taken: from the ring, or from the source region, in which the page read finds `errors`
bit errors. -/
def takeSource (s : State) (c errors : Nat) : Bytes × State :=
  let x := s.dma c
  if s.nat (Od.sourceKind c) = 6 then
    let len := max (s.nat (Od.dmaLength c)) 1
    let off := s.nat (Od.sourceOffset c) + s.nat (Od.bytesDone c) % len
    match regionPage s (s.nat (Od.sourceInstance c)) (off / 4096) with
    | none => ([], s)
    | some a =>
      let r := readPage s a errors false
      ((r.2.1.drop (off % 4096)).take (len - s.nat (Od.bytesDone c) % len), r.2.2)
  else match x.ring with
    | [] => ([], s)
    | p :: t => (p, s.setDma c { x with ring := t })

/-- One burst of a running channel (R434, R435): at most what is left of the source page, never across a destination page. A
release moves one source page. -/
def execDmaBurstDone (c errors : Nat) (s : State) : Out :=
  onUnit (c < 32) s fun s =>
    let x := s.dma c
    if s.nat (Od.dmaState c) != 1 || x.drain != .none then s
    else if x.cur.isEmpty && s.nat (Od.burstsPending c) = 0 then s else
    let r := if x.cur.isEmpty then takeSource s c errors else (x.cur, s)
    let cur := r.1
    if cur.isEmpty then s else
    let s := if x.cur.isEmpty then r.2.setN (Od.burstsPending c) (r.2.nat (Od.burstsPending c) - 1) else r.2
    let at' := destNext s c
    let len := s.nat (Od.dmaLength c)
    let n := min (min cur.length (4096 - at' % 4096)) (len - (at' - s.nat (Od.destOffset c)))
    let s := s.setDma c { s.dma c with cur := cur.drop n, buffer := (s.dma c).buffer ++ cur.take n }
    let s := ((s.setN (Od.bytesDone c) (s.nat (Od.bytesDone c) + n)).bump (Od.bursts c)).countEv 6 c 1 1
    let whole := at' + n = s.nat (Od.destOffset c) + len
    let s := if (at' + n) % 4096 = 0 || whole then flushBuffer s c (at' + n) else s
    let s := if whole && s.nat (Od.dmaDescriptorMode c) = 1 then s.bump (Od.wraps c) else s
    let s := if whole && s.nat (Od.dmaDescriptorMode c) = 0 then ((s.setN (Od.dmaState c) 3).setN (Od.dmaCommand c) 0).setDma c { s.dma c with cur := [] } else s
    s.setN (Od.nextDestOffset c) (destNext s c)

/-! ### Pause, stop, resume (R437–R439) -/

/-- The channel returns to `IDLE`: its ring is released (R430). -/
def dmaIdle (s : State) (c : Nat) : State := ((s.setDma c {}).setN (Od.dmaState c) 0).setN (Od.dmaCommand c) 0

/-- `DmaCommand` code 2; the channel runs until the drain ends (R14, R438). -/
def dmaPause (c : Nat) (s : State) : Status × State :=
  if s.nat (Od.dmaState c) != 1 then (.state, s)
  else if (s.dma c).drain != .none then (.busy, s)
  else (.ok, s.setDma c { s.dma c with drain := .pause })

/-- `DmaCommand` code 4; it acts on a channel that is draining too. -/
def dmaStop (c : Nat) (s : State) : Status × State :=
  if s.nat (Od.dmaState c) = 1 then (.ok, s.setDma c { s.dma c with drain := .stop })
  else (.ok, dmaIdle s c)

/-- `DmaCommand` code 3 (R439). -/
def dmaResume (c : Nat) (s : State) : Status × State :=
  let k := s.nat (Od.sourceKind c)
  if s.nat (Od.dmaState c) != 2 then (.state, s)
  else if (s.dma c).ringLost then
    (.ok, ((s.setN (Od.dmaState c) 4).setN (Od.lastError c) 4).occur (0xA0 + c) c false)
  else if !s.domUp (domStack (dmaDestStack s c)) || !s.domUp (domHalf (dmaDestStack s c)) || !s.domUp (domHalf (dmaSrcHalf s c))
      || (k = 6 && !s.domUp (domStack (crStack s (s.nat (Od.sourceInstance c))))) then (.state, s)
  else (.ok, (s.setN (Od.dmaState c) 1).setN (Od.dmaCommand c) 3)

def execDmaStart (k c : Nat) (s : State) : Out := .next (hostCmd s k (Od.dmaCommand c) 1 (dmaStart c))
def execDmaPause (k c : Nat) (s : State) : Out := .next (hostCmd s k (Od.dmaCommand c) 2 (dmaPause c))
def execDmaResume (k c : Nat) (s : State) : Out := .next (hostCmd s k (Od.dmaCommand c) 3 (dmaResume c))
def execDmaStop (k c : Nat) (s : State) : Out := .next (hostCmd s k (Od.dmaCommand c) 4 (dmaStop c))

/-- In-flight bursts and the page buffer are written, and the channel enters `PAUSED` or `IDLE` (R438, R439). -/
def dmaDrained (s : State) (c : Nat) : State :=
  match (s.dma c).drain with
  | .none => s
  | d =>
    let s := flushBuffer s c (destNext s c)
    let s := (s.setDma c { s.dma c with drain := .none }).setN (Od.dmaCommand c) 0
    match d with
    | .stop => dmaIdle s c
    | .forced e => (s.setN (Od.dmaState c) 2).setN (Od.lastError c) e
    | _ => s.setN (Od.dmaState c) 2

def execDmaDrainDone (c : Nat) (s : State) : Out := onUnit (c < 32) s fun s => dmaDrained s c

/-- A running channel that depends on a domain going down is forced to `PAUSED` (R439, R500). -/
def dmaForce (s : State) (c error : Nat) : State :=
  if s.nat (Od.dmaState c) = 1 then s.setDma c { s.dma c with drain := .forced error } else s

/-- The channels that depend on a domain (R439): 2 for its source, 3 for its destination. -/
def dmaDepends (s : State) (d c : Nat) : Nat :=
  let k := s.nat (Od.sourceKind c)
  let i := s.nat (Od.sourceInstance c)
  if d < 64 then (if 1 ≤ k ∧ k ≤ 4 ∧ i = d then 2 else 0)
  else if d < 72 then (if 1 ≤ k ∧ k ≤ 5 ∧ sourcePort k i = d - 64 then 2 else 0)
  else if 104 ≤ d ∧ d < 108 then
    (if dmaSrcHalf s c = d - 104 then 2 else if dmaDestStack s c = d - 104 then 3 else 0)
  else 0

/-- A domain starts to power down: its running channels drain (R439). -/
def dmaPowerDown (s : State) (d : Nat) : State :=
  (List.range 32).foldl (fun s c => let e := dmaDepends s d c; if e = 0 then s else dmaForce s c e) s

/-- A domain is down: what has not drained drains now; a port takes its rings with it (R41, R439). -/
def dmaPoweredDown (s : State) (d : Nat) : State :=
  (List.range 32).foldl (fun s c =>
    let e := dmaDepends s d c
    let s := if e != 0 then dmaDrained s c else s
    let s := if e != 0 && decide (64 ≤ d ∧ d < 72) && decide (0 < (s.dma c).ringSize) then s.setDma c { s.dma c with ring := [], ringLost := true } else s
    -- a stack that goes down while a paused channel names it
    if decide (108 ≤ d ∧ d < 112) && s.nat (Od.dmaState c) = 2 then
      if dmaDestStack s c = d - 108 then s.setN (Od.lastError c) 3
      else if s.nat (Od.sourceKind c) = 6 && crStack s (s.nat (Od.sourceInstance c)) = d - 108 then s.setN (Od.lastError c) 2 else s
    else s) s

/-- A full reset or a main-rail restart: every channel `IDLE`, rings released (R440). -/
def dmaReset (s : State) : State := (List.range 32).foldl (fun s c => dmaIdle s c) s

/-! ### Objects -/

/-- The refusals of writes: a descriptor while its channel is `RUNNING` or `PAUSED` (R433). -/
def dmaCheck (s : State) (key : Nat) : Status := if keyIdx key = 0x6100 ∧ dmaOpen s (keyInst key) then .state else .ok

/-- `CaptureData`, read as a user reads it: `errors` gives the bit errors that each page read finds (R418, R440). -/
def captureContent (s : State) (cr : Nat) (errors : List Nat) : Bytes × State :=
  (List.range (s.nat (Od.stockpotRegionRegionPages (6 + cr)))).foldl (fun (r : Bytes × State) i =>
    match regionPage r.2 cr i with
    | none => r
    | some a =>
      let q := readPage r.2 a (errors.getD i 0) false
      (r.1 ++ q.2.1, q.2.2)) ([], s)

/-- `InspectData`: the page at `InspectAddress`, read as a user reads it, and the result in 6012h (R442). -/
def inspectContent (s : State) (errors : Nat) : Bytes × State :=
  let a := s.nat Od.inspectAddress
  let x := s.page (physical s a)
  let tag := (if s.stockpot.remap.any fun e => e.1 = a then 16 else 0) + (if x.written then 8 else 0) + x.history
  let r := readPage s a errors false
  let code := match r.1 with
    | .ok => 0 | .corrected => 1 | .neverWritten => 2 | .poisoned => 3
  let n := match r.1 with
    | .corrected => errors | .poisoned => if x.written then 255 else 0 | _ => 0
  (r.2.1, ((r.2.2.setN Od.inspectStatus code).setN Od.inspectTag tag).setN Od.inspectCorrected n)

end Sys2Proof.Machine
end

