-- ==== Sys2Proof/Machine/Domains.lean ====
section
/-! DEFINITION. `SAFE` causes, power domains, calibration and engine resets (R41, R42, R80, R81, R85, R499–R504). -/

namespace Sys2Proof.Machine

/-! ### `SAFE` (R64, R65, R69) -/

/-- The causes present (R64): bit 0 a junction, bit 1 the case, bit 2 the input power. An injected condition counts where it acts
(R497). -/
def safeCausesNow (s : State) : Nat :=
  (if (List.range 27).any fun d => acting s (0x80 + d) then 1 else 0) + (if acting s 5 then 2 else 0) + (if acting s 6 then 4 else 0)

/-- A real condition is among the causes; else injection alone makes them. -/
def safeCauseReal (s : State) : Bool :=
  ((List.range 27).any fun d => (s.source (0x80 + d)).real) || (s.source 5).real || (s.source 6).real

/-- Bring THERM_N, the grace timer and the module state up to date with the causes (R64, R66, R69). In `SAFE` THERM_N is released on
leaving it (R67). -/
def thermJudge (s : State) : State :=
  let c := safeCausesNow s
  let s := { s with pins := { s.pins with thermN := c = 0 && !s.boot.tripped && s.boot.st != ModState.safe } }
  if c = 0 then { s.setN Od.graceElapsed 0 with thermal := {} }
  else if s.boot.st = .ready || s.boot.st = .traffic then
    let t := (s.enter .safe).bump Od.safeEntries
    { t with boot := { t.boot with safeInj := !safeCauseReal s } }
  else { s with boot := { s.boot with safeInj := s.boot.safeInj && !safeCauseReal s } }

/-! ### Where a detector lies (R501) -/

/-- The domains that hold the detectors of a die (R63); none for MG. -/
def dieDomains (d : Nat) : List Nat :=
  if d < 8 then [domPort d]
  else if d < 16 then [domPort (d - 8)]
  else if d < 18 then [domHalf (2 * (d - 16)), domHalf (2 * (d - 16) + 1)]
  else if d < 22 then (List.range 8).map fun i => domLaneGroup (8 * (d - 18) + i)
  else if d = 22 then []
  else [domStack (d - 23)]

/-- The domains that hold a source's unit; none where it is on MG. -/
def srcDomains (s : State) (x : Nat) : List Nat :=
  if 0x10000 ≤ x then [domHalf 0]
  else if 0x60 ≤ x ∧ x < 0x80 then dieDomains (x - 0x60)
  else if 0x80 ≤ x ∧ x < 0xA0 then dieDomains (x - 0x80)
  else if 0xC0 ≤ x ∧ x < 0xC8 then [domPort (x - 0xC0)]
  else if x < 0x200 then []
  else if x < 0x300 then [domPort (srcUnit x)]
  else if x < 0x800 then []
  else if x < 0x1000 then [domEngine (srcUnit x)]
  else if x < 0x2000 then [domLaneGroup (srcUnit x / 32)]
  else
    let t := srcUnit x
    if (x - 0x2000) % 16 < 3 then [domHalf (clientHalf s t)]
    else if s.nat (Od.workCarrier t) < 64 then [domHalf (s.nat (Od.workCarrier t) / 16)] else []

/-- Every domain of a source's unit is down. -/
def srcDown (s : State) (x : Nat) : Bool :=
  let ds := srcDomains s x
  !ds.isEmpty && ds.all fun d => !s.domUp d

/-- `CARRIER_SHED` alone stays, until its engine is powered up (R501). -/
def srcStays (x : Nat) : Bool := decide (0x800 ≤ x ∧ x < 0x1000) && (x - 0x800) % 32 = 17

/-- An injector returns to idle, and releases its condition (R496, R498). -/
def injectorIdle (s : State) (j : Nat) : State :=
  let x := s.injector j
  let s := ((s.setInjector j {}).setN (Od.injectState j) 0).setN (Od.injectCommand j) 0
  if x.holding then (s.endCond x.src true).overflowCheck else s

/-- A domain is down: the real conditions of the sources whose detectors lie in it end, and injectors that act on its units stop
(R501, R504). -/
def domainSourcesEnd (s : State) (d : Nat) : State :=
  let s := (s.injectors.map (·.1)).foldl (fun s j =>
    let x := (s.injector j).src
    if s.nat (Od.injectState j) = 1 && s.nat (Od.injectScope j) = 1 && (srcDomains s x).contains d && srcDown s x then injectorIdle s j else s) s
  thermJudge ((s.sources.map (·.1)).foldl (fun s x =>
    if (srcDomains s x).contains d && srcDown s x && !srcStays x then s.clearCond x else s) s)

/-! ### Powering down (R41, R42, R499–R501) -/

/-- A tray, a hub carrier or a running channel uses a region on stack `x`. -/
def stackInUse (s : State) (x : Nat) : Bool :=
  delayRegionOn s x || (anyHub s && !((s.runs x).isEmpty && (s.runs (4 + x)).isEmpty))
    || (List.range 32).any fun c => s.nat (Od.dmaState c) = 1
        && (dmaDestStack s c = x || (s.nat (Od.sourceKind c) = 6 && crStack s (s.nat (Od.sourceInstance c)) = x))

/-- The domain is needed by another that is not down, or is in use (R41). -/
def downRefused (s : State) (d : Nat) : Bool :=
  let on (e : Nat) : Bool := s.nat (Od.powerState e) != 0
  if d < 64 then false
  else if d < 72 then (List.range 8).any fun j => on (8 * (d - 64) + j)
  else if d < 104 then false
  else if d < 108 then
    let h := d - 104
    (List.range 8).any (fun i => on (domLaneGroup (8 * h + i))) || on (domPort (2 * h)) || on (domPort (2 * h + 1)) || (h = 0 && anyHub s)
  else stackInUse s (d - 108)

/-- The domain that a domain requires (R41). -/
def requiredDomain (d : Nat) : Option Nat :=
  if d < 64 then some (domPort (d / 8))
  else if d < 72 then some (domHalf ((d - 64) / 2))
  else if d < 104 then some (domHalf ((d - 72) / 8))
  else none

/-- A power-down starts (steps 1 and 2 of R500). A calibration of the engine is abandoned (R503), and while the module calibrates the
engine's mark is (R69). -/
def powerDownStart (s : State) (d : Nat) (shed : Bool) : State :=
  let s := ((s.setN (Od.powerState d) 3).bump (Od.powerDowns d)).setDomain d { changeAt := s.uptime, byShed := shed }
  let s := dmaPowerDown s d
  if d < 64 then
    let s := commitAborted s d
    let e := s.engine d
    let s := s.setEngine d { e with resetting := false, calStep := 0, shed := shed }
    let s := if s.nat (Od.calState d) = 1 || s.boot.st = .calibrate then setCalState s d 0 else s
    let s := (s.setN (Od.recalibrate d) 0).setN (Od.engineReset d) 0
    goDark (rxStop s d) d
  else s

/-- A carrier is shed (R66). One that is already down, or that a host power-down takes down, is passed over: answers whether it was
shed. -/
def shedCarrier (s : State) (n : Nat) : Bool × State :=
  let p := s.nat (Od.powerState n)
  if (p = 1 || p = 2) && !(s.domain n).waiting then
    let s := powerDownStart (s.setN (Od.powerCommand n) 0) n true
    (true, (s.setEngine n { s.engine n with shedInj := !safeCauseReal s }).raise (srcCarrier n 17))
  else (false, s)

/-- What a mapping-die half loses (R41): the queues of its members, and in half A of MD0 the hot cache. -/
def halfDown (s : State) (h : Nat) : State :=
  let s := (s.members.map (·.1)).foldl (fun s t => if clientHalf s t = h then s.setMember t {} else s) s
  if h = 0 then hotLost s else s

/-- The units of a domain stop. -/
def domainDown (s : State) (d : Nat) : State :=
  if d < 64 then
    let s := hubStop s d
    let e := s.engine d
    let s := s.setB (Od.trayMapMismatch d) false
    traysRefresh (s.setEngine d { e with sieveStart := 0, tune := { lastApplied := e.tune.lastApplied }, front := { lineHeld := e.front.lineHeld, lineWaits := e.front.lineWaits, unlocked := e.front.unlocked, txResponse := e.front.txResponse } }) d
  else if d < 72 then probeEnd (monitorStop s (d - 64)) (d - 64)
  else if d < 104 then laneGroupDown s (d - 72)
  else if d < 108 then halfDown s (d - 104)
  else s

/-- A domain is down (steps 3 to 5 of R500). -/
def execPowerDownDone (d : Nat) (s : State) : Out :=
  onUnit (d < 112) s fun s =>
    if s.nat (Od.powerState d) != 3 then s else
    let x := s.domain d
    let s := dmaPoweredDown s d
    let s := (s.setN (Od.powerState d) 0).setN (Od.lastPowerMicros d) (min (s.uptime - x.changeAt) 4294967295)
    let s := (s.setN (Od.powerCommand d) 0).setDomain d {}
    domainSourcesEnd (domainDown s d) d

/-- `PowerCommand` code 1. -/
def powerDown (d : Nat) (s : State) : Status × State :=
  if !s.running then (.state, s)
  else match s.nat (Od.powerState d) with
    | 0 => (.ok, s)
    | 2 =>
      if (s.domain d).waiting then (.busy, s)
      else if downRefused s d then (.state, s)
      else
        let s := s.setN (Od.powerCommand d) 1
        if d < 64 && (s.engine d).resetting then (.ok, s.setDomain d { s.domain d with waiting := true })
        else (.ok, powerDownStart s d false)
    | _ => (.busy, s)

def execPowerDown (k d : Nat) (s : State) : Out :=
  .next (hostCmd s k (Od.powerCommand d) 1 (powerDown d))

/-! ### Powering up (R499, R502, R503) -/

/-- `PowerCommand` code 2. -/
def powerUp (d : Nat) (s : State) : Status × State :=
  if !s.running || s.boot.st = .safe then (.state, s)
  else match s.nat (Od.powerState d) with
    | 0 =>
      (match requiredDomain d with
        | some r => if !s.domUp r then (.state, s) else
            (.ok, ((s.setN (Od.powerCommand d) 2).setN (Od.powerState d) 1).setDomain d { changeAt := s.uptime })
        | none => (.ok, ((s.setN (Od.powerCommand d) 2).setN (Od.powerState d) 1).setDomain d { changeAt := s.uptime }))
    | 2 => if (s.domain d).waiting then (.busy, s) else (.ok, s)
    | _ => (.busy, s)

def execPowerUp (k d : Nat) (s : State) : Out :=
  .next (hostCmd s k (Od.powerCommand d) 2 (powerUp d))

/-- What runs again in a calibrated engine: a carrier in service acquires cold and ramps (R502). -/
def engineRuns (s : State) (n : Nat) : State :=
  if s.nat (Od.calState n) != 2 then s else
  let s := if s.nat (Od.lineState n) = 0 then
      (s.setCond (srcCarrier n 0) true).setFront n { s.front n with lineHeld := true, lineWaits := true } else s
  if inService s n then carrierStart s n else launchJudge s n

/-- A domain is up (R502). At the end of `BOOT` engines go to `CALIBRATE` instead (R503). -/
def domainUp (s : State) (d : Nat) (boot : Bool) : State :=
  let s := (s.setN (Od.powerState d) 2).setN (Od.lastPowerMicros d) (min (s.uptime - (s.domain d).changeAt) 4294967295)
  let s := (s.setN (Od.powerCommand d) 0).setDomain d {}
  if d < 64 then
    let s := (s.setEngine d { s.engine d with shed := false, shedInj := false }).clearCond (srcCarrier d 17)
    let s := restartBlocks (skewJudge (dcRestart s d) d) d
    if boot || s.nat (Od.calState d) = 0 then calStart s d 1
    else heldRelease (engineRuns (s.setCond (srcCarrier d 16) (s.nat (Od.calState d) = 4)) d) d
  else if d < 72 then
    let p := d - 64
    let s := (List.range 8).foldl (fun s j => (s.setFront (8 * p + j) { s.front (8 * p + j) with unlocked := true }).setB (Od.biasLocked (8 * p + j)) false) s
    monitorStart s p
  else if d < 104 then laneGroupUp s (d - 72)
  else if d < 108 then ((clientTrays s).filter fun t => clientHalf s t = d - 104).foldl clientJudge s
  else s

def execPowerUpDone (d : Nat) (s : State) : Out :=
  onUnit (d < 112) s fun s => if s.nat (Od.powerState d) != 1 || !s.running then s else domainUp s d false

/-! ### Calibration (R80, R81, R503) -/

/-- `CALIBRATE` ends once no powered engine calibrates; a cause present then makes the module `SAFE` at once (R69, R72, R73). A sequence
that PWR_EN has stopped goes no further (R74). A carrier that was enabled during `CALIBRATE` is in service then: it takes the module on
to `TRAFFIC`, and its launch may rise (R72, R74). -/
def readyJudge (s : State) : State :=
  if s.boot.st != .calibrate || s.boot.step != .calibration || (List.range 64).any (fun n => s.engineUp n && s.nat (Od.calState n) = 1) then s else
  let s := s.setN Od.calibrateMillis ((s.uptime - s.boot.enteredAt) / 1000)
  let s := { s.enter .ready with boot := { (s.enter .ready).boot with step := .none } }
  let s := trafficJudge ((List.range 64).foldl heldRelease (thermJudge s))
  (List.range 64).foldl launchJudge s

/-- One step of R80 completes: step 2 without a usable line, and a step that fails, leave only step 6. A line that step 2 no longer
finds has gone (R155); one that has never been there raises nothing (R181). -/
def execCalibrationStepDone (n : Nat) (r : CalResult) (s : State) : Out :=
  onUnit (n < 64) s fun s =>
    let e := s.engine n
    let k := e.calStep
    if s.nat (Od.calState n) != 1 || k = 0 || decide (5 < k) then s
    else if !r.ok then (s.setN (Od.calFailStep n) k).setEngine n { e with calStep := 6 }
    else if k = 2 then
      let was := s.nat (Od.lineState n) = 1
      if linePresent was r.power then
        let s := ((s.setN (Od.lineState n) 1).setF (Od.linePower n) (powerReading r.power)).setI (Od.lineOffset n) r.offset
        rxJudge (s.setEngine n { s.engine n with calStep := 3 }) n
      else
        let s := s.setEngine n { e with calStep := 7 }
        if was then lineAbsent s n r.power else s.setF (Od.linePower n) (powerReading r.power)
    else
      let s := s.setEngine n { e with calStep := k + 1 }
      if k = 1 then s.setF (Od.interleaveSpur n) r.spur
      else if k = 4 then
        let x := s.front n
        let s := (s.setB (Od.biasLocked n) true).setFront n { x with unlocked := false, lineHeld := x.lineHeld && x.lineWaits }
        biasTo s n r.bias
      else if k = 5 then
        let s := (List.range 48).foldl (fun s j => s.setI (Od.gainEntry (portOf n) j) (r.gains.getD j 0)) s
        let s := (List.range 4).foldl (fun s j =>
          ((s.setI (Od.skewCal n j) (r.skew.getD j 0)).setI (Od.txSkewCal n j) (r.txSkew.getD j 0)).setO (Od.responseTaps n j) (r.taps.getD j [])) s
        skewJudge (s.setFront n { s.front n with txResponse := r.txTaps }) n
      else s

/-- Step 6 of R80: the engine is marked. -/
def execCarrierCalibrationEnd (n : Nat) (s : State) : Out :=
  onUnit (n < 64) s fun s =>
    let e := s.engine n
    if s.nat (Od.calState n) != 1 || decide (e.calStep < 6) then s else
    let mark := if s.nat (Od.calFailStep n) != 0 then 4 else if e.calStep = 7 || s.nat (Od.lineState n) != 1 then 3 else 2
    let s := setCalState (s.setEngine n { e with calStep := 0 }) n mark
    let s := s.setN (Od.recalibrate n) 0
    let s := if mark = 2 then engineRuns s n else s
    if s.boot.st = .calibrate then readyJudge s else heldRelease s n

def execHeldEnableRelease (n : Nat) (s : State) : Out := onUnit (n < 64) s fun s => heldRelease s n

/-- The line of a `NO_LIGHT` engine becomes usable (R81). -/
def execNoLightLineUsable (n : Nat) (power : F32) (s : State) : Out :=
  onUnit (n < 64) s fun s =>
    if s.nat (Od.calState n) != 3 || !s.engineUp n || s.beforeCalibrate || !f32GeRat power (-4) 1 then s else
    calStart ((s.setN (Od.lineState n) 1).setF (Od.linePower n) (powerReading power)) n 2

/-- `Recalibrate` (R91). -/
def recalibrate (n : Nat) (s : State) : Status × State :=
  if s.flag (Od.carrierEnable n) || !s.engineUp n then (.state, s)
  else if s.nat (Od.calState n) = 1 then (.busy, s)
  else (.ok, calStart (s.setN (Od.recalibrate n) 1) n 1)

def execRecalibrate (k n : Nat) (s : State) : Out :=
  .next (hostCmd s k (Od.recalibrate n) 1 (recalibrate n))

/-! ### Engine resets (R85, R90) -/

/-- `EngineReset`. -/
def engineReset (n : Nat) (s : State) : Status × State :=
  if !s.engineUp n then (.state, s)
  else if (s.engine n).resetting then (.busy, s)
  else if s.armed n then (.shadowBusy, s)
  else
    let s := autoEnd s n 4
    let s := (s.setN (Od.engineReset n) 1).setEngine n { s.engine n with resetting := true }
    (.ok, hubStop (goDark (rxStop s n) n) n)

def execEngineReset (k n : Nat) (s : State) : Out :=
  .next (hostCmd s k (Od.engineReset n) 1 (engineReset n))

/-- An engine reset ends: the block count restarts, the launch ramps, and a power-down that waited goes on (R85, R90, R511). -/
def execEngineResetDone (n : Nat) (s : State) : Out :=
  onUnit (n < 64) s fun s =>
    if !(s.engine n).resetting then s else
    let s := (s.setEngine n { s.engine n with resetting := false }).setN (Od.engineReset n) 0
    if (s.domain n).waiting then powerDownStart s n false else engineRuns (restartBlocks s n) n

/-- `LaneGroupReset`. -/
def laneGroupReset (g : Nat) (s : State) : Status × State :=
  if !s.domUp (domLaneGroup g) then (.state, s) else (.ok, laneGroupRestart s g)

def execLaneGroupReset (k g : Nat) (s : State) : Out :=
  .next (hostCmd s k (Od.laneGroupReset g) 1 (laneGroupReset g))

/-! ### Objects -/

/-- Objects that are read from the running hardware. -/
def domainsRead (s : State) (key : Nat) : Option Val :=
  if keyIdx key = 0x2024 ∧ keySub key = 1 then some (.u (safeCausesNow s))
  else if keyIdx key = 0x2024 ∧ keySub key = 3 then some (.u ((List.range 64).filter fun n => (s.engine n).shed).length)
  else none

end Sys2Proof.Machine
end

