-- ==== Sys2Proof/Machine/Boot.lean ====
section
/-! DEFINITION. Rails, start-up, the saved configuration, resets and firmware (R53–R57, R72–R79, R82–R84, R86–R92, R508). -/

namespace Sys2Proof.Machine

/-! ### The boot record (R75–R77) -/

def BootCopy.slot (c : BootCopy) (i : Nat) : FwSlot := if i = 0 then c.slotA else c.slotB
def BootCopy.setSlot (c : BootCopy) (i : Nat) (x : FwSlot) : BootCopy := if i = 0 then { c with slotA := x } else { c with slotB := x }

/-- The first copy is in use: the valid copy with the higher sequence number is used (R75). -/
def Flash.firstInUse (f : Flash) : Bool := f.copy0.crcOk && (!f.copy1.crcOk || decide (f.copy1.seq ≤ f.copy0.seq))
def State.record (s : State) : BootCopy := if s.flash.firstInUse then s.flash.copy0 else s.flash.copy1

/-- Write the boot record: the copy that is not in use takes the new content and the next sequence number. -/
def State.writeRecord (s : State) (f : BootCopy → BootCopy) : State :=
  let r := s.record
  let r' := { f r with seq := r.seq + 1, crcOk := true }
  { s with flash := if s.flash.firstInUse then { s.flash with copy1 := r' } else { s.flash with copy0 := r' } }

def State.slot (s : State) (i : Nat) : FwSlot := s.record.slot i
def State.setSlotState (s : State) (i st : Nat) : State := s.writeRecord fun r => r.setSlot i { r.slot i with st := st }

/-- A slot passes the checks of the boot ROM (R76): it holds an image that has verified, the signature of its manifest and the digest
of its MG part still stand, and its security version is not below the fused counter. -/
def slotUsable (s : State) (i : Nat) : Bool :=
  decide (2 ≤ (s.slot i).st) && (s.slot i).intact && decide (s.boot.antiRollback ≤ (s.slot i).security)

/-- The boot ROM finds the images of some slots damaged (R76). -/
def slotsSpoiled (s : State) (spoiled : List Nat) : State :=
  [0, 1].foldl (fun s i => if spoiled.contains i then s.writeRecord fun r => r.setSlot i { r.slot i with intact := false } else s) s

/-- The configuration of a management port as its objects give it. -/
def mgmtConfOf (s : State) (p : Nat) : MgmtConf :=
  { mode := s.nat (Od.mgmtPortMode p), ipv6 := s.bytes (Od.ipv6Address p), ipv6Prefix := s.nat (Od.ipv6PrefixLength p),
    ipv4 := s.bytes (Od.ipv4Address p), ipv4Prefix := s.nat (Od.ipv4PrefixLength p), gateway6 := s.bytes (Od.ipv6Gateway p),
    gateway4 := s.bytes (Od.ipv4Gateway p) }

/-- MG starts with what its non-volatile store holds: nothing waits any more (R102, R124). -/
def mgmtApplied (s : State) : State := (List.range 2).foldl (fun s p => s.setMgmtPort p { conf := mgmtConfOf s p }) s

/-- The reset record (R91). -/
def resetRecord (s : State) (cause : Nat) : State := (s.setN Od.lastResetCause cause).setO Od.lastResetTime s.stampNow

/-- The management firmware of a slot starts. -/
def firmwareStart (s : State) (i : Nat) : State :=
  { s with boot := { s.boot with running := i, fwReady := false, fwStarting := true, recovery := false, trialRunning := false } }

/-! ### The CAN ports start (R101, R136) -/

/-- The slot of a CAN port's session (R99). -/
def canSlot (p : Nat) : Nat := 6 + p

/-- Send a classic frame on a CAN port (R135). -/
def canSend (s : State) (p base : Nat) (data : Bytes) : State := s.send (.can p (base + s.nat (Od.nodeId p)) false data)

/-- The port starts: it sends the boot-up message, and its session begins. -/
def canStart (s : State) (p : Nat) : State :=
  let s := s.setCanPort p { started := true }
  let x : Session := { isOpen := true, transport := 3 + p, role := s.nat (Od.canSessionRole p), openedAt := s.stampNow,
                       commissioned := s.isCommissioning }
  ((canSend s p 0x700 [0]).setSession (canSlot p) x).journalBy (canSlot p) 9 0 0 0

/-- The enabled ports start at once: a management reset has completed. -/
def canStartAll (s : State) : State := (List.range 2).foldl (fun s p => if s.flag (Od.canSessionEnabled p) then canStart s p else s) s

/-- The ports of CAN that are enabled are to start in 100 ms. -/
def canRestart (s : State) : State :=
  (List.range 2).foldl (fun s p => if s.flag (Od.canSessionEnabled p) then s.setCanPort p { s.canPort p with startPending := true } else s) s

/-- Neither slot can run: the boot ROM serves the recovery condition, every enabled CAN port starts under it, and PWR_EN is ignored,
also one that is asserted already (R77, R508). No reset runs any more. Where this happens with the main rails on, the datapath and the
module state stay as they are (assumption 17). -/
def enterRecovery (s : State) : State :=
  let s := { s with
    pins := { s.pins with pwrgd := s.pins.pwrgd && s.boot.railsOn }
    boot := { s.boot with fwReady := false, fwStarting := false, recovery := true, trialRunning := false, retryBoot := false,
                          resetting := .none, pwrIgnored := s.pins.pwrEn } }
  (canRestart (s.setN Od.bootResult 3)).raise 9

/-- Slot `bad` has failed: start from the other if `may` admits it, or enter the recovery condition (R77). -/
def fallBack (s : State) (bad : Nat) (may : Nat → Bool := fun _ => true) : State :=
  let s := s.setSlotState bad 1
  let o := 1 - bad
  if slotUsable s o && may (s.slot o).st then
    let s := s.writeRecord fun r =>
      let x := r.slot o
      { r.setSlot o { x with st := if x.st = 2 then 4 else x.st } with preferred := o }
    (firmwareStart s o).setN Od.bootResult 2 |>.raise 8
  else enterRecovery s

/-- The boot ROM starts MG at a power-on or full reset (R77, R89). -/
def romStart (s : State) (spoiled : List Nat) : State :=
  let s := slotsSpoiled s spoiled
  let p := s.record.preferred
  if slotUsable s p then
    let s := if (s.slot p).st = 2 then s.setSlotState p 3 else s
    (firmwareStart s p).setN Od.bootResult 1
  else fallBack s p

/-! ### What resets keep (R84, R102, R149) -/

/-- Objects of the non-volatile store, which every reset keeps (R102, R149). -/
def nonVolatile (k : Nat) : Bool :=
  let i := keyIdx k
  (i = 0x2104 || i = 0x2105 || i = 0x1100 || i = 0x1110 || i = 0x1015 || i = 0x1017 || decide (0x1800 ≤ i ∧ i ≤ 0x1803)
    || decide (0x1A00 ≤ i ∧ i ≤ 0x1A03))
  && (match subRow i (keySub k) with | some r => r.acc = .rw | none => false)

/-- The number of saves is kept with the saved configuration. -/
def keptAlways (k : Nat) : Bool := nonVolatile k || k = Od.configGeneration

/-- Everything that a power-on or full reset leaves: the flash, the non-volatile store, fuses and pins (R84). -/
def afterReset (s : State) (keep : Nat → Bool) : State :=
  mgmtApplied { State.reset with
    pending := s.pending, od := s.od.filter (fun p => keptAlways p.1 || keep p.1), flash := s.flash, pins := s.pins, uptime := s.uptime,
    outbox := s.outbox, freeCount := s.freeCount, boot := { st := .standby, antiRollback := s.boot.antiRollback, railsOn := s.boot.railsOn } }

/-- A write of an image that a reset interrupts leaves its slot `INVALID`, which it has read since the write began (R90, R131). -/
def fullReset (s : State) (cause : Nat) : State := resetRecord (afterReset s (· = Od.bootCount)) cause

/-- A full reset is no restart of the rails: what waits for PWR_EN to be negated waits on (R56, R68), and `THERMAL_TRIP` is detected
again. THERM_N is otherwise released (R73, R84). The level of PWRGD while the regulators stay on is not stated: it stays as it was
(DESIGN CHOICE, assumption 81). -/
def fullResetLatched (s : State) (cause : Nat) : State :=
  let t := fullReset s cause
  let t := { t with pins := { t.pins with thermN := !s.boot.tripped },
                    boot := { t.boot with needNegate := s.boot.needNegate, tripped := s.boot.tripped, afterTrip := s.boot.afterTrip } }
  if s.boot.tripped then t.setCond 4 true else t

/-- What a main-rail loss keeps of an object: objects of MG and of the key store (R57, R84, R374). -/
def keptByMg (k : Nat) : Bool :=
  let i := keyIdx k
  let mg := if decide (0x2040 ≤ i ∧ i ≤ 0x2043) || i = 0x2002 || i = 0x2006 || i = 0x2007 || (i = 0x2030 && keySub k = 1) || i = 0x2031
    then false
    else if i = 0x2011 || i = 0x2020 then keyInst k = 22
    else true
  if i < 0x3000 then mg
  else if i < 0x6200 then decide (0x4310 ≤ i ∧ i ≤ 0x4341)
  else if decide (0x7100 ≤ i ∧ i ≤ 0x7103) then
    (keyInst k / (if i = 0x7101 then 16 else 1) = 8 || (match subRow i (keySub k) with | some r => r.acc = .rw | none => false))
  else if i = 0x7301 then false
  else true

/-- The datapath stops as its rails go off (R57): commits end, conditions of detectors outside MG end, and objects outside MG return
to their defaults. -/
def datapathStops (s : State) : State :=
  let s := (s.scopes.map (·.1)).foldl (fun s n => if n < 64 then commitAborted s n else commitEnd s n 5) s
  let s := s.clearObjs fun k => keyIdx k = 0x2030 && keySub k = 1
  let s := (s.injectors.map (·.1)).foldl (fun s j =>
    let x := (s.injector j).src
    if s.nat (Od.injectState j) = 1 && s.nat (Od.injectScope j) = 1 && srcDown s x then injectorIdle s j else s) s
  let s := (s.sources.map (·.1)).foldl (fun s x =>
    if srcDown s x && !(decide (0x800 ≤ x ∧ x < 0x1000) && (x - 0x800) % 32 = 17) then s.clearCond x else s) s
  let s := (s.tgEntries.map (·.2.cand)).eraseDups.foldl (fun s c => if 0x3000 ≤ c then timingSourceLost s c 2 else s) s
  let s := (List.range 8).foldl monitorStop s
  let s := windowsRestart (countersRestartDatapath s)
  s.clearObjs fun k => !keptByMg k

/-- Every die but MG loses its state (R57). -/
def datapathLost (s : State) : State :=
  let shed := s.engines.filterMap fun p => if p.2.shed then some (p.1, ({ shed := true } : Engine)) else none
  let trays := s.trays.filterMap fun p =>
    let x : Tray := { exchange := p.2.exchange, agree := p.2.agree }
    if x = {} then none else some (p.1, x)
  { s with
    shadow := [], engines := shed, lanes := [], members := [], pfcSent := [], trays := trays, hubs := [], contexts := [], hotCopies := [],
    hotOrder := [], leafRuns := [], hubEgress := [], pages := [], stockpot := {}, dmas := [], probes := [], domains := [],
    holds := s.holds.filter (· < 0x8000), pins := { s.pins with pwrgd := false },
    boot := { s.boot with railsOn := false, step := .none, dpRunning := none } }

/-- The main rails go off (R57); `VinWatts` reads 0 (R71). -/
def railsOff (s : State) : State :=
  let s := datapathLost (datapathStops s)
  let s := (s.keys.map (·.1)).foldl (fun s x => if x < 4096 then slotsRefresh s (x / 2) else s) s
  let s := (s.setF Od.vinWatts 0).setCond 6 false
  thermJudge (({ s with thermal := {} }).enter .standby |>.setN Od.graceElapsed 0)

/-! ### Supplies (R53–R57, R68, R73, R74) -/

/-- The reset kinds begin as `BOOT` does: PWRGD is released (R72, R73). A main-rail restart writes its reset record; the `BOOT` that is
repeated after a failed datapath part is none by R82, and the record of its management reset stands (DEDUCED, assumption 79). -/
def enterBoot (s : State) : State :=
  let s := { s with pins := { s.pins with pwrgd := true } }
  let s := if s.boot.railsBefore && !s.boot.retryBoot then resetRecord s 8 else s
  let s := (s.enter .boot).bump Od.bootCount
  { s with boot := { s.boot with step := .streaming, bootAt := s.uptime, railsOn := true, railsBefore := true, vinWait := false, retryBoot := false } }

/-- The case is below `SafeCase` and MG's junction below `SafeJunction` (R68). -/
def cooled (s : State) : Bool :=
  f32LtRat (s.f32 Od.caseNow) (s.nat Od.safeCase) 1 && f32LtRat (s.f32 (Od.junctionNow 22)) (s.nat Od.safeJunction) 1

/-- Step 4 of R73: with PWR_EN asserted, the regulators start, or a supply fault refuses the start (R56). -/
def supplyStart (s : State) : State :=
  if !s.boot.fwReady || !s.pins.pwrEn || s.boot.pwrIgnored || s.boot.needNegate || s.boot.recovery || s.boot.st != .standby
      || s.boot.step != .none then s
  else if s.boot.railsOn then enterBoot s
  else if s.boot.afterTrip && !cooled s then { s with boot := { s.boot with needNegate := true } }
  else match s.pins.vin12 with
    | .inRange => { s with boot := { s.boot with step := .rails, vinWait := false, afterTrip := false } }
    | .low => ({ s with boot := { s.boot with vinWait := true } }).raise 1
    | .high => ({ s with boot := { s.boot with vinWait := true } }).raise 2

/-- The integrator asserts PWR_EN with VIN12 as MG finds it. Without AUX3V3, and in the recovery condition, the assertion is ignored
(R56, R77); one that comes while the management firmware starts is acted on when it reports ready (assumption 20). -/
def execPwrEnAsserted (vin : VinBand) (s : State) : Out :=
  .next <|
    if s.pins.pwrEn then s else
    let s := { s with pins := { s.pins with pwrEn := true, vin12 := vin },
                      boot := { s.boot with pwrIgnored := !s.pins.aux3v3 || s.boot.recovery } }
    supplyStart s

def execVin12EntersRange (s : State) : Out :=
  .next <|
    let s := { s with pins := { s.pins with vin12 := .inRange } }
    if s.pins.aux3v3 && s.boot.vinWait then supplyStart s else s

/-- A domain stops as the rails fall: not a power-down by command (R505). -/
def domainFalls (s : State) (d : Nat) : State :=
  if s.nat (Od.powerState d) = 1 || s.nat (Od.powerState d) = 2 then
    let n := s.nat (Od.powerDowns d)
    (powerDownStart s d (d < 64 && (s.engine d).shed)).setN (Od.powerDowns d) n
  else s

/-- PWR_EN is negated (R55, R68, R74): PWRGD falls, the domains power down and a sequence stops. -/
def execPwrEnNegated (s : State) : Out :=
  .next <|
    let s := { s with pins := { s.pins with pwrEn := false } }
    if !s.pins.aux3v3 then s else
    let s := { s with pins := { s.pins with pwrgd := false },
                      boot := { s.boot with needNegate := false, tripped := false, vinWait := false, retryBoot := false, pwrIgnored := false,
                                            step := .none } }
    let s := thermJudge (s.setCond 4 false)
    if s.boot.railsOn then (List.range 112).foldl domainFalls s else s

/-- The regulators are off; a PWR_EN asserted meanwhile starts them again. -/
def execRegulatorsOff (s : State) : Out :=
  .next <| if s.boot.railsOn && !s.pins.pwrgd then supplyStart (railsOff s) else s

def execRailsGood (s : State) : Out := .next <| if s.boot.step = .rails then enterBoot s else s

def execRailGoodTimeout (s : State) : Out :=
  .next <| if s.boot.step != .rails then s else
    ({ s with pins := { s.pins with pwrgd := false }, boot := { s.boot with step := .none, needNegate := true } }).raise 3

/-- A main-rail restart starts with the fault that takes the rails off (R82): its reset record is written then, and not again at
`BOOT`. -/
def restartRecord (s : State) : State :=
  if s.boot.railsOn then { resetRecord s 8 with boot := { s.boot with railsBefore := false } } else s

/-- A supply fault while running (R56): the rails go off at once. -/
def supplyFault (s : State) (source : Nat) : State :=
  if !s.boot.railsOn && s.boot.step != .rails then s else
  let s := railsOff (restartRecord (s.raise source))
  { s with boot := { s.boot with needNegate := true } }

def execVin12Undervoltage (s : State) : Out := .next <| supplyFault { s with pins := { s.pins with vin12 := .low } } 1
def execVin12Overvoltage (s : State) : Out := .next <| supplyFault { s with pins := { s.pins with vin12 := .high } } 2

/-- A trip (R68). -/
def thermalTrip (s : State) : State :=
  let s := railsOff (restartRecord (s.setCond 4 true))
  thermJudge { s with boot := { s.boot with needNegate := true, tripped := true, afterTrip := true } }

/-! ### MG starts (R73, R77, R508) -/

/-- A power-on reset (R73, R82): THERM_N, PWRGD and both ALARM_N lines are released (step 1 of R55). A PWR_EN that was asserted without
AUX3V3 is ignored (R56). -/
def execAux3v3InRange (spoiled : List Nat) (s : State) : Out :=
  .next <|
    if s.pins.aux3v3 then s else
    let s := afterReset { s with pins := { s.pins with aux3v3 := true, pwrgd := true, thermN := true }, uptime := 0, boot := { s.boot with railsOn := false } } fun _ => false
    let s := { s with boot := { s.boot with pwrIgnored := s.pins.pwrEn } }
    let s := monitorStart (resetRecord s 1) 8
    if s.pins.resetN then romStart s spoiled else { s with boot := { s.boot with resetting := .full } }

/-- The whole module stops (R56). A boot-record write in progress (`torn`) spoils the copy that is being written (R90). -/
def execAux3v3Loss (torn : Bool) (s : State) : Out :=
  .next <|
    if !s.pins.aux3v3 then s else
    let f := s.flash
    let f := if !torn then f else if f.firstInUse then { f with copy1 := { f.copy1 with crcOk := false } }
      else { f with copy0 := { f.copy0 with crcOk := false } }
    let s := afterReset { s with flash := f, uptime := 0, pins := { s.pins with aux3v3 := false, pwrgd := false, thermN := true } } fun _ => false
    { s with boot := { s.boot with st := .off, railsOn := false } }

/-- The management firmware runs: a trial in the running slot starts to count (R88, R89). PWRGD, released at step 1 of R55, is low from
here until the rails are good (R56; assumption 81). -/
def firmwareReady (s : State) : State :=
  { s with
    pins := { s.pins with pwrgd := s.pins.pwrgd && s.boot.railsOn }
    boot := { s.boot with fwReady := true, fwStarting := false, resetting := .none, trialRunning := (s.slot s.boot.running).st = 3 } }

def execManagementFirmwareReady (s : State) : Out :=
  .next <| if !s.boot.fwStarting || s.boot.resetting = .management then s else supplyStart (canRestart (firmwareReady s))

/-- The started firmware has not reported ready within 500 ms: its slot has failed (R77). -/
def execFirmwareReadyTimeout (s : State) : Out :=
  .next <| if !s.boot.fwStarting then s else resetRecord (fallBack s s.boot.running) 7

def execResetNAsserted (s : State) : Out :=
  .next <|
    let s := { s with pins := { s.pins with resetN := false } }
    if !s.pins.aux3v3 then s else
    let s := monitorStart (fullResetLatched s 2) 8
    { s with boot := { s.boot with resetting := .full } }

def execResetNReleased (spoiled : List Nat) (s : State) : Out :=
  .next <|
    let held := s.boot.resetting = .full && s.pins.aux3v3
    let s := { s with pins := { s.pins with resetN := true } }
    if held then romStart { s with boot := { s.boot with resetting := .none } } spoiled else s

/-- `ResetCommand` code 2. -/
def fullResetCommand (s : State) : Status × State := (.ok, romStart (monitorStart (fullResetLatched s 3) 8) [])

def execFullResetCommand (k : Nat) (s : State) : Out := .next (hostCmd s k Od.resetCommand 2 fullResetCommand)

/-! ### Management resets (R86, R87) -/

/-- A tray key has not yet reached every powered line die. -/
def keyLoading (s : State) : Bool := s.keys.any fun p => decide (p.1 < 4096) && !p.2.key.isEmpty && !p.2.delivered

/-- What refuses a management reset (R87). A main-rail restart in progress is not counted as another reset kind that runs: R82 calls it
no reset of MG (DESIGN CHOICE, assumption 82). -/
def resetRefusal (s : State) : Option Status :=
  if s.scopes.any fun p => s.armed p.1 then some .shadowBusy
  else if keyLoading s || (s.trays.any fun p => s.nat (Od.agreeState p.1) = 1) then some .busy
  else if s.boot.resetting != .none || s.engines.any (fun p => p.2.resetting) then some .busy
  else none

/-- What the transports and the uncommitted settings lose with the firmware that serves them. -/
def transportsEnd (s : State) : State := { s with conns := [], can := [], shadow := [] }

/-- MG's controller restarts from a slot: sessions end without a close exchange, and every shadow equals its active value. The boot ROM
checks the slot as at every start, and falls back from one that fails (R76, R77). -/
def managementReset (s : State) (slot cause : Nat) : State :=
  let s := (List.range 8).foldl endSession s
  let s := mgmtApplied (transportsEnd s)
  let s := resetRecord (s.bump Od.mgmtResets) cause
  let s := { s with boot := { s.boot with resetting := .management, trialDeferred := false, imageWriting := false } }
  if slotUsable s slot then firmwareStart s slot else fallBack s slot

/-- `ResetCommand` code 1. -/
def mgmtResetCommand (s : State) : Status × State :=
  match resetRefusal s with
  | some st => (st, s)
  | none => (.ok, managementReset s s.boot.running 4)

def execManagementReset (k : Nat) (s : State) : Out := .next (hostCmd s k Od.resetCommand 1 mgmtResetCommand)

/-- A management reset completes: the enabled CAN ports start (R86, R136). A start that PWR_EN or VIN12 asked for meanwhile, and the `BOOT` that a failed datapath part has
repeated, go on from here; the recovery condition has ignored its PWR_EN (R77; assumption 20). -/
def execManagementResetDone (s : State) : Out :=
  .next <| if s.boot.resetting != .management || !s.boot.fwStarting then s else
    let s := canStartAll (firmwareReady s)
    if s.boot.vinWait && s.pins.vin12 != .inRange then s else supplyStart s

/-! ### `BOOT` (R73, R76–R79, R503) -/

/-- Step 6. A datapath part that fails its digest powers the rails down; the other slot, if it is `VALID` or `GOOD` and passes its
checks, is started by a management reset (R77). The spec gives no `LastResetCause` to that reset: the code is a free value of 1 to 8
(assumption 79). -/
def execDatapathPartStreamed (ok : Bool) (s : State) : Out :=
  .next <|
    if s.boot.step != .streaming then s
    else if ok then { s with boot := { s.boot with step := .linkTraining, dpRunning := some (s.slot s.boot.running).datapath } }
    else
      let s := railsOff s
      let bad := s.boot.running
      let s' := fallBack s bad fun st => st = 2 || st = 4
      if s'.boot.recovery then
        let s' := (List.range 8).foldl endSession s'
        mgmtApplied { s' with conns := [], can := [], shadow := [] }
      else
        let r := s'.freeNat
        let s' := managementReset r.2 s'.boot.running (1 + r.1 % 8)
        { s' with boot := { s'.boot with retryBoot := s'.pins.pwrEn } }

def execDieLinksTrained (s : State) : Out :=
  .next <| if s.boot.step = .linkTraining then { s with boot := { s.boot with step := .stockpot } } else s

/-- The access class of a stored object. -/
def accOf (k : Nat) : Option Acc := (subRow (keyIdx k) (keySub k)).map (·.acc)

/-- An object that `ConfigCommand` saves (R79, R102). -/
def isSaved (k : Nat) : Bool := (accOf k = some .rw || accOf k = some .rws) && !nonVolatile k && keyIdx k != 0x1F10

/-- An object that step 9 applies: a running injector's objects cannot be written (R505). -/
def isConfig (s : State) (k : Nat) : Bool := isSaved k && !(keyIdx k = 0x2220 && s.nat (Od.injectState (keyInst k)) = 1)

/-- The dictionary with the saved values of the objects in `p` in place of what they held; no saved value means the default. -/
def savedValues (s : State) (p : Nat → Bool) : State :=
  let s := s.clearObjs fun k => isConfig s k && p k
  (s.flash.saved.getD []).foldl (fun s v => if p v.1 && isConfig s v.1 && keyIdx v.1 != 0x5100 then s.setVal v.1 v.2 else s) s

/-- Step 8, with the Stockpot's own objects as step 9 will apply them (R417). -/
def execStockpotInitialised (s : State) : Out :=
  .next <| if s.boot.step != .stockpot then s else
    let s := stockpotInitialise (savedValues s fun k => decide (0x6000 ≤ keyIdx k ∧ keyIdx k < 0x6200))
    { s with boot := { s.boot with step := .config } }

/-- What the applied values mean for trays, hub subcarriers and the blocks of MG: paths start afresh on block 0, pulses and loops
follow their objects. -/
def configEffects (old s : State) (refused : List Nat) : State :=
  let s := (placedTrays s).foldl (fun s t => sealCommitted old (placementChanged old s t) t fun _ => 0) s
  let s := ((s.od.filterMap fun p => if keyIdx p.1 = 0x5000 then some (keyInst p.1) else none).eraseDups).foldl (fun s i => hubCopied old s i) s
  let s := ((s.flash.saved.getD []).filter fun v => keyIdx v.1 = 0x5100 && !refused.contains v.1).foldl (fun s v =>
    let s := leafSet s (keyInst v.1) (keySub v.1) v.2
    if keySub v.1 = 1 then leafEnableAfter s (keyInst v.1) else s) s
  let s := (List.range 4).foldl (fun s g => steerWritten (loopWritten old s g) g) s
  let s := (List.range 8).foldl (fun s f =>
    if old.flag (Od.fpoEnable f) && s.flag (Od.fpoEnable f) then fpoMoved old s f else fpoEnabled old s f) s
  (List.range 64).foldl (fun s n => skewJudge (manualGain s n) n) s

/-- The domain is to be powered at the end of `BOOT`: its `PowerAtBoot` is true and what it requires is powered too (R503). -/
def powersAtBoot (s : State) (d : Nat) : Bool :=
  let p (e : Nat) : Bool := s.flag (Od.powerAtBoot e)
  match requiredDomain d with
  | none => p d
  | some r => match requiredDomain r with
    | none => p d && p r
    | some q => p d && p r && p q

/-- The domains in the order of R42: halves, lane groups, ports, carrier engines; and the stacks. -/
def powerOrder : List Nat :=
  (List.range 4).map domHalf ++ (List.range 4).map domStack ++ (List.range 32).map domLaneGroup ++ (List.range 8).map domPort ++ List.range 64

/-- Step 9: the saved configuration, but for the values that the firmware refuses (`refused`: their keys); each keeps its default and its
index is recorded. A saved enable is held (R79). -/
def execSavedConfigApplied (refused : List Nat) (s : State) : Out :=
  .next <| if s.boot.step != .config then s else
    let old := { s with shadow := [] }
    let s := savedValues old fun k => !refused.contains k
    let s := s.clearObjs fun k => isConfig s k && refused.contains k
    let rejects := (((s.flash.saved.getD []).filter fun v => refused.contains v.1).map fun v => keyIdx v.1).eraseDups
    let s := s.setO Od.configRejects ((rejects.flatMap (leBytes 2)).take 512)
    let s := if rejects.isEmpty then s else s.raise 0x0B
    let s := (List.range 64).foldl (fun s n =>
      s.setEngine n { s.engine n with heldEnable := s.flag (Od.carrierEnable n) }) s
    let s := configEffects old s refused
    let s := powerOrder.foldl (fun s d => if powersAtBoot s d then (s.setN (Od.powerState d) 1).setDomain d { changeAt := s.uptime } else s) s
    { s with boot := { s.boot with step := .powerUp } }

/-- Step 10: `BOOT` ends and every powered engine starts its calibration. -/
def execBootPowerUpDone (s : State) : Out :=
  .next <| if s.boot.step != .powerUp then s else
    let s := (s.setN Od.bootMillis ((s.uptime - s.boot.bootAt) / 1000)).enter .calibrate
    let s := { s with boot := { s.boot with step := .calibration } }
    let s := powerOrder.foldl (fun s d => if s.nat (Od.powerState d) = 1 then domainUp s d true else s) s
    readyJudge s

/-! ### The saved configuration (R79) -/

/-- What a save stores: values that differ from their defaults. In `STANDBY` the objects of 3000h to 61FFh keep what was saved. -/
def configContent (s : State) : List (Nat × Val) :=
  let datapath (k : Nat) : Bool := gated (keyIdx k)
  let live := s.od.filter fun p => isSaved p.1
  if s.boot.st = .standby then
    let low := live.filter fun p => keyIdx p.1 < 0x3000
    let high := live.filter fun p => decide (0x6200 ≤ keyIdx p.1)
    low ++ ((s.flash.saved.getD []).filter fun p => datapath p.1) ++ high
  else
    let leaves := s.knownLeaves.flatMap fun l => (List.range 11).filterMap fun i =>
      let v := leafVal s l (i + 1)
      if v = odDefault (odKey 0x5100 l (i + 1)) then none else some (odKey 0x5100 l (i + 1), v)
    live ++ leaves

def configState (s : State) : Bool := s.boot.st = .ready || s.boot.st = .traffic || s.boot.st = .standby

def configSave (s : State) : Status × State :=
  if !configState s then (.state, s) else
  (.ok, ({ s with flash := { s.flash with saved := some (configContent s) } }).bump Od.configGeneration)

def configErase (s : State) : Status × State :=
  if !configState s then (.state, s) else (.ok, { s with flash := { s.flash with saved := none } })

def execConfigSave (k : Nat) (s : State) : Out := .next (hostCmd s k Od.configCommand 1 configSave)
def execConfigErase (k : Nat) (s : State) : Out := .next (hostCmd s k Od.configCommand 2 configErase)

/-! ### Firmware (R88, R89, R92) -/

/-- `FirmwareCommand` code 1; `ok` says whether signature and digests verify, and the other operands are what the manifest gives. A
`GOOD` slot that verifies stays `GOOD`. -/
def firmwareVerify (ok : Bool) (version : Bytes) (security datapath : Nat) (s : State) : Status × State :=
  if s.boot.imageWriting then (.busy, s) else
  let o := 1 - s.boot.running
  let x := s.slot o
  if x.st = 0 then (.ok, s) else
  let good := ok && decide (s.boot.antiRollback ≤ security)
  (.ok, s.writeRecord fun r => r.setSlot o (if good then ⟨if x.st = 4 then 4 else 2, true, version.take 32, security, datapath⟩ else { x with st := 1 }))

def execFirmwareVerify (k : Nat) (ok : Bool) (version : Bytes) (security datapath : Nat) (s : State) : Out :=
  .next <| hostCmd s k Od.firmwareCommand 1 (firmwareVerify ok version security datapath)

/-- Code 2. `VALID` after code 1 is read as any `VALID` slot, whatever made it so; and the status of a refused code 2, 3 or 4 is `OD_STATE`,
which R92 does not name (DESIGN CHOICE, assumption 83). -/
def firmwareActivate (s : State) : Status × State :=
  let o := 1 - s.boot.running
  if (s.slot o).st != 2 then (.state, s)
  else match resetRefusal s with
    | some st => (st, s)
    | none =>
      let s := s.writeRecord fun r => { r.setSlot o { r.slot o with st := 3 } with preferred := o }
      (.ok, (managementReset s o 5).setN Od.bootResult 1)

def execFirmwareActivate (k : Nat) (s : State) : Out := .next (hostCmd s k Od.firmwareCommand 2 firmwareActivate)

/-- Code 3. -/
def firmwareConfirm (s : State) : Status × State :=
  let i := s.boot.running
  if (s.slot i).st != 3 || s.boot.recovery then (.state, s) else
  let s := s.writeRecord fun r =>
    let o := r.slot (1 - i)
    (r.setSlot i { r.slot i with st := 4 }).setSlot (1 - i) (if 2 ≤ o.st then { o with st := 2 } else o)
  (.ok, { s with boot := { s.boot with trialRunning := false, trialDeferred := false,
                                       antiRollback := max s.boot.antiRollback (s.slot i).security } })

def execFirmwareConfirm (k : Nat) (s : State) : Out := .next (hostCmd s k Od.firmwareCommand 3 firmwareConfirm)

/-- Code 4. -/
def firmwareSwap (s : State) : Status × State :=
  let o := 1 - s.boot.running
  if (s.slot o).st = 2 || (s.slot o).st = 4 then (.ok, s.writeRecord fun r => { r with preferred := o }) else (.state, s)

def execFirmwareSwapPreferred (k : Nat) (s : State) : Out := .next (hostCmd s k Od.firmwareCommand 4 firmwareSwap)

/-- The reset into the previous slot at the end of a trial. -/
def trialReset (s : State) : State := (managementReset s (1 - s.boot.running) 6).setN Od.bootResult 1

/-- `TrialTimeout` passes (R88, step 5). -/
def execTrialTimeout (s : State) : Out :=
  .next <| if !s.boot.trialRunning then s else
    let i := s.boot.running
    let s := (s.raise 0x0A).writeRecord fun r => { r.setSlot i { r.slot i with st := 1 } with preferred := 1 - i }
    let s := { s with boot := { s.boot with trialRunning := false } }
    if (resetRefusal s).isSome then { s with boot := { s.boot with trialDeferred := true } } else trialReset s

def execDeferredTrialReset (s : State) : Out :=
  .next <| if s.boot.trialDeferred && (resetRefusal s).isNone then trialReset s else s

/-! ### Objects (R91) -/

/-- The carriers in service decide what `StateBeforeSafe` reads (R65, R67). -/
def stateBeforeSafe (s : State) : Nat :=
  if s.boot.st != .safe then 0 else if (List.range 64).any (inService s) then 5 else 4

def bootRead (s : State) (key : Nat) : Option Val :=
  let idx := keyIdx key
  let x := keyInst key
  let sub := keySub key
  if idx = 0x1009 then none
  else if idx = 0x2000 ∧ sub = 1 then some (.u s.boot.st.code)
  else if idx = 0x2000 ∧ sub = 2 then some (.u (stateBeforeSafe s))
  else if idx = 0x2000 ∧ sub = 3 then some (.u (min ((s.uptime - s.boot.enteredAt) / 1000) 4294967295))
  else if idx = 0x2005 ∧ sub = 1 then some (.u s.boot.running)
  else if idx = 0x2009 ∧ sub = 1 then some (.u (if s.flash.saved.isSome then 1 else 0))
  else if idx = 0x7F01 then
    (let y := s.slot x
     match sub with
     | 1 => some (.o y.version)
     | 2 => some (.u y.st)
     | 3 => some (.u y.security)
     | 4 => some (.u (if s.record.preferred = x then 1 else 0))
     | 5 => some (.u (if x = s.boot.running && s.boot.dpRunning.any (· != y.datapath) then 1 else 0))
     | _ => none)
  else none

end Sys2Proof.Machine
end

