-- ==== Sys2Proof/Machine/Faults.lean ====
section
/-! DEFINITION. The fault manager's commands: occurrences and ends of conditions, acknowledgement, injection (R489–R498). -/

namespace Sys2Proof.Machine

/-! ### Occurrences (R490, R492) -/

/-- What follows at once from a condition that has arisen or ended, real or acting (R64, R156, R182, R315, R335, R353). -/
def condJudge (s : State) (key : Nat) : State :=
  if key < 0x800 then thermJudge s
  else if key < 0x1000 then
    let n := srcUnit key
    let i := (key - 0x800) % 32
    if i ≤ 1 then launchJudge (rxJudge s n) n
    else if i = 13 then traysRefresh s n
    else s
  else if key < 0x2000 then s
  else if key < 0xA000 then
    let t := srcUnit key
    if (key - 0x2000) % 16 = 0 then clientJudge s t else trayRefresh s t
  else s

/-- The hold bits of the fast status RAM that an occurrence sets (R146, R372). -/
def occurHold (s : State) (key : Nat) : State :=
  if 0x10000 ≤ key then (if (key - 0x10000) % 4 = 0 then s.hold (fsHub (s.ctx (srcUnit key)).home) 2 else s)
  else if 0x2000 ≤ key ∧ (key - 0x2000) % 16 = 6 then s.hold (fsTray (srcUnit key)) 3
  else s

/-- Beside the hold bit that an injected occurrence sets, bit 6 of the entry's hold bits marks it as injected (R145). -/
def injectedHold (s : State) (key : Nat) : State :=
  if 0x10000 ≤ key then (if (key - 0x10000) % 4 = 0 then s.hold (fsHub (s.ctx (srcUnit key)).home) 6 else s)
  else if 0x2000 ≤ key ∧ (key - 0x2000) % 16 = 6 then s.hold (fsTray (srcUnit key)) 6
  else s

/-- A detector reports an occurrence. A detector in a domain that is down reports nothing (R501). -/
def execSourceOccurrence (key unit : Nat) (s : State) : Out :=
  onUnit (srcExists key) s fun s =>
    if !s.pins.aux3v3 || srcDown s key then s else
    -- an uncorrectable bridge word is counted as well (R40)
    let s := if key = 0x12 then s.bump Od.uncorrectedWords else s
    condJudge (occurHold (s.occur key (if 0xD ≤ key ∧ key ≤ 0x10 then unit else srcUnit key) false) key) key

/-- A detector's condition ends. -/
def execConditionEnd (key : Nat) (s : State) : Out :=
  onUnit (srcExists key) s fun s => condJudge (s.setCond key false) key

/-! ### Acknowledgement (R492, R495) -/

/-- `EventCommand` code 1. -/
def ackSource (k : Nat) (s : State) : Status × State :=
  let x := s.nat Od.ackSource
  if x = 0xFFFE then (.ok, (List.range 4).foldl (fun s i => s.ack k (srcLeaf (s.nat Od.ackUnit) i)) s)
  else if srcAssigned x then (.ok, s.ack k x)
  else (.range, s)

/-- `EventCommand` code 2. -/
def ackAll (k : Nat) (s : State) : Status × State := (.ok, (s.sources.map (·.1)).foldl (fun s x => s.ack k x) s)

def execEventAckSource (k : Nat) (s : State) : Out := .next (hostCmd s k Od.eventCommand 1 (ackSource k))
def execEventAckAll (k : Nat) (s : State) : Out := .next (hostCmd s k Od.eventCommand 2 (ackAll k))
/-- `EventCommand` code 3. -/
def clearLost (s : State) : Status × State := (.ok, (s.setN Od.eventsLost 0).setN Od.entriesHighWater s.queueLen)

def execEventClearLost (k : Nat) (s : State) : Out := .next (hostCmd s k Od.eventCommand 3 clearLost)

/-! ### Injection (R496–R498) -/

/-- The source that an injector's objects name: the leaf kind of source 0xFFFE is in bits [1:0] of `InjectParam` (R505). -/
def injectKey (s : State) (j : Nat) : Nat :=
  if s.nat (Od.injectSource j) = 0xFFFE then srcLeaf (s.nat (Od.injectUnit j)) (s.nat (Od.injectParam j) % 4) else s.nat (Od.injectSource j)

/-- The unit of an injected occurrence: the page address of a Stockpot source. -/
def injectUnitOf (s : State) (j key : Nat) : Nat := if 0xD ≤ key ∧ key ≤ 0x10 then s.nat (Od.injectParam j) else srcUnit key

/-- What the module does, once, when an injected occurrence acts (R497); what it does for as long as a condition lasts follows from
`acting`. -/
def injectAct (s : State) (j key : Nat) : State :=
  let a := s.nat (Od.injectParam j)
  if 0x10000 ≤ key then
    let l := srcUnit key
    let c := s.ctx l
    match (key - 0x10000) % 4 with
    | 0 => (suspectLeaf (s.bump (Od.burstOverlaps c.home)) l true).setLeafRun l { s.leafRun l with injSuspect := true }
    | 1 => if c.state = 2 ∨ c.state = 3 then (s.setCtx l { c with state := 5 }).setLeafRun l { s.leafRun l with injAs := 6 } else s
    | 2 => if c.state = 1 then (s.setCtx l { c with state := 0 }).setLeafRun l { s.leafRun l with injAs := 1 } else s
    | _ => bumpLeaf s l 18
  else if key = 0x0C then s.bump Od.keyLoadFailures
  else if key = 0x12 then s.bump Od.uncorrectedWords
  else if key = 0x0D then (if pageOk a then stockpotLog s a 4 0 else s)
  else if key = 0x0E then (if pageOk a then stockpotLog s a 1 0 else s)
  else if key = 0x0F then (if pageOk a then stockpotLog s a 2 0 else s)
  else if key < 0xC0 then s
  else if key < 0x200 then s.setB (Od.refFault (key - 0xC0)) true
  else if key < 0x300 then (if (key - 0x200) % 32 = 0 then probeInject s (srcUnit key) else s)
  else if key < 0x800 then
    let g := srcUnit key
    let e := (key - 0x300) % 64
    if e < 16 then
      (let s := s.setN (Od.driftState e g) 1
       if s.nat (Od.selectedEntry g) = e then s.setB (Od.historyFrozen g) true else s)
    else if e = 17 && (s.nat (Od.tgState g) = 1 || s.nat (Od.tgState g) = 2) then tgHold (tgDeselect s g 2) g
    else if e = 18 && s.nat (Od.tgState g) != 0 then tgLost (tgDeselect s g 2) g
    else s
  else if key < 0x1000 then
    let n := srcUnit key
    match (key - 0x800) % 32 with
    | 0 => s.bump (Od.lineLosses n)
    | 3 => (s.setB (Od.biasLocked n) false).bump (Od.biasRelocks n)
    | 7 => lockLost s n 3
    | 9 => jointStop s (portOf n) [] false
    | 11 => if s.nat (Od.bcState n) = 1 then s.setN (Od.bcState n) 2 else s
    | 15 => s.setB (Od.trayMapMismatch n) true
    | _ => s
  else if key < 0x2000 then
    let k := srcUnit key
    match (key - 0x1000) % 4 with
    | 0 =>
      if s.nat (Od.laneState k) = 6 || s.nat (Od.laneState k) = 7 then
        let s := (laneDetect s k 1).bump (Od.losEntries k)
        (s.setLane k { s.lane k with injDown := s.nat (Od.laneState k) != 0 }).noteInjected 3 k 2
      else s
    | 2 => s.setB (Od.idMismatch k) true
    | _ => s
  else if key < 0xA000 then (if (key - 0x2000) % 16 = 5 then s.setB (Od.equalised (srcUnit key)) false else s)
  else s

/-- What ends with an injected condition that acted: a Probe event, a mark that shows the condition, a loop's loss of lock; and a
generator selects again. -/
def injectRelease (s : State) (key : Nat) : State :=
  if 0x200 ≤ key ∧ key < 0x300 ∧ (key - 0x200) % 32 = 0 then (if probeInjected s (srcUnit key) then probeEnd s (srcUnit key) else s)
  else if (s.source key).real then s
  else if 0x800 ≤ key ∧ key < 0x1000 ∧ (key - 0x800) % 32 = 15 then s.setB (Od.trayMapMismatch (srcUnit key)) false
  else if 0x1000 ≤ key ∧ key < 0x2000 ∧ (key - 0x1000) % 4 = 2 then s.setB (Od.idMismatch (srcUnit key)) false
  else if 0xC0 ≤ key ∧ key < 0xC9 then s.setB (Od.refFault (key - 0xC0)) false
  else if 0x300 ≤ key ∧ key < 0x800 then
    (if (key - 0x300) % 64 < 16 then s.setN (Od.driftState ((key - 0x300) % 64) (srcUnit key)) 0 else tgRunSelection s (srcUnit key))
  else if 0x800 ≤ key ∧ key < 0x1000 ∧ (key - 0x800) % 32 = 3 then
    let n := srcUnit key
    s.setB (Od.biasLocked n) (loopsRun s n && !(s.front n).lineHeld && !(s.front n).unlocked)
  else s

/-- An injected occurrence counts in the performance counters as a real one would (R497, R498): a failed span, a lane's loss of signal,
and a frame that overran its headroom. -/
def injectCounted (s : State) (key : Nat) : State :=
  let u := srcUnit key
  if 0x1000 ≤ key ∧ key < 0x2000 ∧ (key - 0x1000) % 4 = 0 then
    (if s.nat (Od.laneState u) = 6 || s.nat (Od.laneState u) = 7 then s.countEv 3 u 3 1 true else s)
  else if 0x2000 ≤ key ∧ key < 0xA000 then
    (if (key - 0x2000) % 16 = 2 then s.countEv 2 (if isMember s u then s.nat (Od.aggregateTray u) else u) 4 1 true
     else if (key - 0x2000) % 16 = 6 then s.countEv 2 u 6 1 true else s)
  else s

/-- A carrier whose receive path was in service has left it by an injected condition that acts (R145). -/
def injectLost (was : State) (key : Nat) (s : State) : State :=
  let n := srcUnit key
  let up (s : State) : Bool := s.nat (Od.rxState n) = 3 || s.nat (Od.rxState n) = 5
  if 0x800 ≤ key ∧ key < 0x1000 ∧ up was ∧ !up s then s.setEngine n { s.engine n with injLost := true } else s

/-- One injected occurrence. An injected poisoning that acts is the page's own (R441). -/
def injectOne (s : State) (j : Nat) : State :=
  let x := s.injector j
  let key := x.src
  let momentary := srcMomentary key
  let act := s.nat (Od.injectScope j) = 1
  let mode := s.nat (Od.injectorInjectMode j)
  let left := x.remaining - 1
  let s := (s.setInjector j { x with remaining := left, holding := !momentary }).bump (Od.injectedOccurrences j)
  let poison := act && key = 0x10 && pageOk (s.nat (Od.injectParam j))
  let s := if poison then poisonPage s (s.nat (Od.injectParam j)) true
    else injectedHold (occurHold ((injectCounted s key).occur key (injectUnitOf s j key) true) key) key
  let s := if act then injectLost s key (condJudge (injectAct s j key) key) else s
  if momentary && mode != 2 && left = 0 then injectorIdle s j else s

/-- What an injector leaves behind when it releases its condition. -/
def injectAfter (s : State) (key : Nat) (act : Bool) : State := if act then condJudge (injectRelease s key) key else s

/-- `InjectCommand` code 1. -/
def injectStart (j : Nat) (s : State) : Status × State :=
  let key := injectKey s j
  let act := s.nat (Od.injectScope j) = 1
  if s.nat (Od.injectState j) = 1 then (.busy, s)
  else if !srcExists key then (.range, s)
  else if (List.range 8).any fun i => s.nat (Od.injectState i) = 1 && (s.injector i).src = key then (.busy, s)
  else if act && (decide (key ≤ 4) || key = 7 || decide (0xA0 ≤ key ∧ key < 0xC0)) then (.state, s)
  else if act && (srcDown s key || (decide (0xD ≤ key ∧ key ≤ 0x10) && !stackUp s (s.nat (Od.injectParam j)))) then (.state, s)
  else if act && s.boot.st = .safe && !(key = 5 || key = 6 || decide (0x80 ≤ key ∧ key < 0x80 + 27)) then (.state, s)
  else
    let left := if s.nat (Od.injectorInjectMode j) = 3 then s.nat (Od.injectorInjectCount j) else 1
    (.ok, injectOne (((s.setInjector j { src := key, remaining := left }).setN (Od.injectState j) 1).setN (Od.injectCommand j) 1) j)

/-- `InjectCommand` code 2. -/
def injectStop (j : Nat) (s : State) : Status × State :=
  if s.nat (Od.injectState j) != 1 then (.ok, s) else
  let key := (s.injector j).src
  (.ok, injectAfter (injectorIdle s j) key (s.nat (Od.injectScope j) = 1))

def execInjectStart (k j : Nat) (s : State) : Out :=
  .next (hostCmd s k (Od.injectCommand j) 1 (injectStart j))
def execInjectStop (k j : Nat) (s : State) : Out :=
  .next (hostCmd s k (Od.injectCommand j) 2 (injectStop j))

/-- `InjectDuration` passes: the condition is released; mode 2 holds it until stopped. -/
def execInjectHoldEnd (j : Nat) (s : State) : Out :=
  onUnit (j < 8) s fun s =>
    let x := s.injector j
    if s.nat (Od.injectState j) != 1 || !x.holding || s.nat (Od.injectorInjectMode j) = 2 then s else
    let act : Bool := s.nat (Od.injectScope j) = 1
    let s := if x.remaining = 0 then injectorIdle s j
      else (((s.setInjector j { x with holding := false }).endCond x.src true).overflowCheck)
    injectAfter s x.src act

/-- `InjectGap` passes: the next occurrence. -/
def execInjectGapExpired (j : Nat) (s : State) : Out :=
  onUnit (j < 8) s fun s =>
    let x := s.injector j
    let endless := s.nat (Od.injectorInjectMode j) = 2 && srcMomentary x.src
    if s.nat (Od.injectState j) != 1 || x.holding || (x.remaining = 0 && !endless) then s else injectOne s j

/-! ### Objects (R494, R505) -/

/-- Insert an entry by EntrySeq. -/
def insertEntry (a : Nat × Bytes) : List (Nat × Bytes) → List (Nat × Bytes)
  | [] => [a]
  | b :: t => if a.1 < b.1 then a :: b :: t else b :: insertEntry a t

/-- `EventQueue`: one record for each entry, in ascending EntrySeq. -/
def eventQueueBlock (s : State) : Bytes :=
  ((s.sources.foldl (fun acc p => match p.2.entry with
    | some e => insertEntry (e.seq, eventRecord p.1 p.2) acc
    | none => acc) []).map (·.2)).flatten

/-- Opening the queue for reading delivers every entry in it (R492). -/
def eventQueueOpened (s : State) : State :=
  (s.sources.map (·.1)).foldl (fun s x => if (s.source x).entry.isSome then s.delivered x else s) s

/-- The refusals of writes: an injector's objects while it runs. -/
def faultsCheck (s : State) (key : Nat) : Status :=
  if keyIdx key = 0x2220 ∧ s.nat (Od.injectState (keyInst key)) = 1 then .state else .ok

/-- Objects that are read from the fault manager. -/
def faultsRead (s : State) (key : Nat) : Option Val :=
  let idx := keyIdx key
  let x := keyInst key
  let sub := keySub key
  if idx = 0x1001 then some (.u s.errorRegister)
  else if idx = 0x2200 ∧ sub = 1 then some (.u s.queueLen)
  else if idx = 0x2200 ∧ sub = 2 then some (.u (s.entriesOf true))
  else if idx = 0x2200 ∧ sub = 6 then some (.u (s.sources.filter fun p => p.2.openAlarm).length)
  else if idx = 0x2210 ∧ sub = 1 then some (.u (s.source x).st)
  else if idx = 0x2210 ∧ sub = 2 then some (.u (if (s.source x).present then 1 else 0))
  else if idx = 0x2210 ∧ sub = 3 then some (.u (s.source x).occurrences)
  else if idx = 0x2210 ∧ sub = 4 then
    some (.u (if (List.range 8).any fun j => s.nat (Od.injectState j) = 1 && (s.injector j).src = x then 1 else 0))
  else if idx = 0x2211 ∧ 1 ≤ sub then some (.u (s.source (srcLeaf x (sub - 1))).st)
  else none

end Sys2Proof.Machine
end

