-- ==== Sys2Proof/Machine/Pm.lean ====
section
/-! DEFINITION. The 1 s boundaries, occupancy samples, crossings and hold bits (R37, R40, R146, R223, R462, R477). -/

namespace Sys2Proof.Machine

/-- Every measure and counter of an interval latches and restarts. -/
def pmLatch (s : State) : State :=
  fecLatch (lanesLatch (probeLatch (windowsLatch (countersLatch (traysLatch (frontLatch (rxLatch s)))))))

/-- A 1 s boundary of module time. `corrected` counts the bridge words that the datapath code corrected since the last one, and
`latencies` gives the mean and longest page-read latency of each stack in ns (R40), and `clients` what each client's PCS counted
(R313). -/
def execPmBoundary (corrected : Nat) (latencies : List (Nat × Nat)) (clients : List (Nat × PcsCount)) (s : State) : Out :=
  .next <|
    if !s.pins.aux3v3 || s.boot.resetting = .full then s else
    let s := pmLatch s
    if !s.boot.railsOn then s else
    let s := clientsCounted (s.bumpBy Od.correctedWords corrected) clients
    (List.range 4).foldl (fun s x =>
      let l := latencies.getD x (0, 0)
      (s.setN (Od.readLatencyMean x) (min l.1 4294967295)).peak (Od.readLatencyMax x) (min l.2 4294967295)) s

/-- `TimeCommand` code 1 takes effect: the interval ends and module time is set (R462, R486). -/
def execTimeStepApply (s : State) : Out :=
  .next <|
    if !s.timeCtl.stepping then s else
    let s := pmLatch s
    let t := unstamp (s.bytes Od.timeSet)
    let d : Int := ((t : Int) - s.moduleTime) * 1000000000 - s.timeCtl.frac
    let perf := { s.perf with allPartialLast := true, frozenFrom := s.perf.frozenFrom - s.moduleTime + t,
                              thawAt := s.perf.thawAt - s.moduleTime + t }
    let s := windowsRestart (timeMoved (advance s d) d)
    let s := { s with timeCtl := { s.timeCtl with stepping := false }, perf := perf }
    (s.setN Od.timeCommand 0).bump Od.timeSteps

/-! ### Occupancy (R475–R477, R486) -/

/-- Grant units in the map of the upstream frame that is being received (R476). -/
def mapUnits (s : State) (i : Nat) : Nat :=
  match (s.hub i).lineMaps.lookup (receivedFrame s i) with
  | some m => ((m.filter fun g => g.kind != 2).map fun g => burstUnits s i g.blocks g.format).sum
  | none => 0

/-- What an occupancy event samples: the module's own queues, else the level given; a unit that is down reads 0. -/
def levelOf (s : State) (levels : List (Nat × Nat)) (sel : Nat) : Nat :=
  let inst := sel / 65536 % 4096
  let given := Tbl.get (fun _ => 0) levels sel
  match sel / 268435456 with
  | 1 =>
    if !s.engineUp inst || (s.engine inst).resetting then 0
    else if sel / 256 % 256 = 0x82 then (s.engine inst).inFlight else given
  | 4 => if s.engineUp (inst / 32) then mapUnits s inst else 0
  | 5 => if s.domUp (domStack inst) then given else 0
  | 6 => (s.dma inst).ring.length
  | 7 => if sel / 256 % 256 = 0x80 then s.queueLen else queuePages s
  | _ => given

/-- A fill object with its high-water mark, where the sample gives its level. -/
def fillSample (s : State) (levels : List (Nat × Nat)) (sel fill high most : Nat) : State :=
  match levels.lookup sel with
  | none => s
  | some _ => let v := min (levelOf s levels sel) most; (s.setN fill v).peak high v

/-- A client queue overflowed or underflowed: the slip is counted and shown, and the queue re-centres at half its depth (R37, R146). -/
def clientSlip (s : State) (t : Nat) (egress : Bool) : State :=
  let s := if egress then (s.bump (Od.egressSlips t)).setN (Od.egressFill t) 8192
    else (s.bump (Od.ingressSlips t)).setN (Od.ingressFill t) 8192
  s.hold (fsTray t) 1

/-- Every 100 ns: each occupancy counter counts while its quantity is at or above `Threshold`, and the fills of R40 follow. `levels`
gives quantities by their `EventSelect` value, `slips` the client queues that overflowed or underflowed (`true` for egress), and `lanes` what
the receivers measured whose 100 µs have passed (R308). -/
def execOccupancySample (levels : List (Nat × Nat)) (slips : List (Nat × Bool)) (lanes : List (Nat × LaneReport)) (s : State) : Out :=
  .next <|
    let s := (List.range 64).foldl (fun s n =>
      fillSample (fillSample s levels (eventSel 1 n 0x80) (Od.txFill n) (Od.txHighWater n) 65536)
        levels (eventSel 1 n 0x81) (Od.rxFill n) (Od.rxHighWater n) 65536) s
    let s := (clientTrays s).foldl (fun s t =>
      fillSample (fillSample s levels (eventSel 2 t 0x80) (Od.ingressFill t) (Od.ingressHighWater t) 16384)
        levels (eventSel 2 t 0x81) (Od.egressFill t) (Od.egressHighWater t) 16384) s
    let s := (List.range 4).foldl (fun s x => fillSample s levels (eventSel 5 x 0x80) (Od.requestFill x) (Od.requestHighWater x) 512) s
    let s := slips.foldl (fun s x => if (clientTrays s).contains x.1 then clientSlip s x.1 x.2 else s) s
    let s := lanes.foldl (fun s x => if x.1 < 1024 then laneMeasured s x.1 x.2 else s) s
    if s.countingHeld then s else
    (countersInUse s).foldl (fun s c =>
      let sel := s.nat (Od.eventSelect c)
      if 0x80 ≤ sel / 256 % 256 ∧ s.nat (Od.counterThreshold c) ≤ levelOf s levels sel then
        s.setN (Od.counterCurrent c) (min (s.nat (Od.counterCurrent c) + 1) 281474976710655)
      else s) s

/-! ### Crossings (R40) -/

/-- High-water marks of 2040h to 2043h. -/
def isCrossingMark (k : Nat) : Bool :=
  let i := keyIdx k
  let j := keySub k
  ((i = 0x2040 || i = 0x2041) && (j = 2 || j = 5)) || (i = 0x2043 && (j = 2 || j = 4))
/-- Counters of 2040h to 2042h. -/
def isCrossingCounter (k : Nat) : Bool :=
  let i := keyIdx k
  let j := keySub k
  ((i = 0x2040 || i = 0x2041) && (j = 3 || j = 6)) || (i = 0x2042 && (j = 2 || j = 3))

/-- `ClearCrossingMarks`: code 1 the marks, code 2 the counters, code 3 both. -/
def clearCrossings (code : Nat) (s : State) : Status × State :=
  (.ok, s.clearObjs fun x => (code != 2 && isCrossingMark x) || (code != 1 && isCrossingCounter x))

def execClearHighWater (k : Nat) (s : State) : Out := .next (hostCmd s k Od.clearCrossingMarks 1 (clearCrossings 1))
def execClearCrossingCounters (k : Nat) (s : State) : Out := .next (hostCmd s k Od.clearCrossingMarks 2 (clearCrossings 2))
def execClearCrossingAll (k : Nat) (s : State) : Out := .next (hostCmd s k Od.clearCrossingMarks 3 (clearCrossings 3))

/-! ### Hold bits (R146) -/

/-- A mark of `holds` that falls with hold bit `bit` of the entry at `addr`: the bit itself, and with `SEAL` or `OVLP` the mark that an
injected event left. -/
def holdFalls (addr bit h : Nat) : Bool :=
  h == addr * 8 + bit || (h == addr * 8 + 6 && ((bit == 3 && decide (addr < 0x3000)) || (bit == 2 && decide (0x3000 ≤ addr))))

/-- `EventHold` passes with no further event: the hold bit falls. -/
def execEventHoldExpired (addr bit : Nat) (s : State) : Out :=
  .next { s with holds := s.holds.filter fun h => !holdFalls addr bit h }

end Sys2Proof.Machine
end

