-- ==== Sys2Proof/Machine/Thermal.lean ====
section
/-! DEFINITION. Temperature and power: the 1 ms sample, shedding, the way out of `SAFE`, and the trip (R62–R71). -/

namespace Sys2Proof.Machine

/-- A die's sensors and power meter report: MG always, the others while the main rails are on, from `BOOT` on and whatever their power
domains (R62, R68, R69, R71). -/
def dieSensed (s : State) (d : Nat) : Bool := d = 22 || s.boot.railsOn

/-- A condition with an upper threshold and a lower one to end it; between the two it stays as it is. -/
def setLevel (s : State) (key : Nat) (above below : Bool) : State :=
  if above then s.setCond key true else if below then s.setCond key false else s

/-- The junction sensors of each die, numbered as in R63 (R62). -/
def junctionSensors (d : Nat) : Nat := if d < 8 then 8 else if d < 16 then 9 else if d < 22 then 4 else 2

/-- The highest reading among a die's junction sensors (R62). -/
def highestJunction (d : Nat) (readings : List F32) : F32 :=
  match readings.take (junctionSensors d) with
  | [] => 0
  | x :: t => t.foldl f32Max x

/-- One die of a sample (R64, R67): a reading that is not taken reads 0 and ends the conditions. A condition ends strictly below its
threshold less `Hysteresis`; at exactly that value it stays (DESIGN CHOICE, assumption 84). -/
def dieSample (s : State) (d : Nat) (t load : F32) : State :=
  let on := dieSensed s d
  let t := if on then t else 0
  let load := if on then load else 0
  let s := ((s.setF (Od.junctionNow d) t).setF (Od.loadWatts d) load).peakF (Od.junctionPeak d) t
  let s := s.peakF (Od.peakWatts d) load
  let h := s.nat Od.hysteresis
  let warn := s.nat Od.warnJunction
  let safe := s.nat Od.safeJunction
  let s := setLevel s (0x60 + d) (on && f32GeRat t warn 1) (!on || f32LtRat t ((warn : Int) - h) 1)
  setLevel s (0x80 + d) (on && f32GeRat t safe 1) (!on || f32LtRat t ((safe : Int) - h) 1)

/-- The 1 ms sample (R62, R64, R66, R68, R71). The grace timer advances by the sample's millisecond. `CASE_SAFE` and `POWER_SAFE` end
strictly below their threshold less `Hysteresis`, as a die's conditions do (DESIGN CHOICE, assumption 84). -/
def execThermalSample (r : ThermalReading) (s : State) : Out :=
  .next <|
    if !s.pins.aux3v3 || s.boot.resetting = .full then s else
    let on := s.boot.railsOn
    let junction (d : Nat) : F32 := highestJunction d (r.junctions.getD d [])
    let s := (List.range 27).foldl (fun s d => dieSample s d (junction d) (r.loads.getD d 0)) s
    let s := (List.range 4).foldl (fun s j => s.setF (Od.lidSensor j) (r.lid.getD j 0)) s
    let case := (List.range 4).foldl (fun m j => f32Max m (r.lid.getD j 0)) (r.lid.getD 0 0)
    let watts := if on then r.watts else 0
    let s := (((s.setF Od.caseNow case).peakF Od.casePeak case).setF Od.vinVolts r.volts).setF Od.vinAmps r.amps
    let s := (((s.setF Od.vinWatts watts).peakF Od.vinPeakWatts watts).setF Od.auxVolts r.auxVolts).setF Od.auxWatts r.auxWatts
    let h := s.nat Od.hysteresis
    let safeCase := s.nat Od.safeCase
    let limit := s.nat Od.powerLimit
    let s := setLevel s 5 (f32GeRat case safeCase 1) (f32LtRat case ((safeCase : Int) - h) 1)
    let s := setLevel s 6 (on && f32GeRat watts limit 1) (!on || f32LtRat watts ((limit : Int) * (100 - h)) 100)
    let hot := f32GeRat case 75 1 || (List.range 27).any fun d => dieSensed s d && f32GeRat (junction d) 105 1
    if on && hot then thermalTrip s else
    let s := thermJudge s
    if on && safeCausesNow s != 0 then s.setN Od.graceElapsed (min (s.nat Od.graceElapsed + 1) 4294967295) else s

/-- Shed the first carrier at or after a position of `ShedOrder` that is still powered; 0xFF ends the order (R66). -/
def shedFrom : Nat → Nat → State → State
  | 0, _, s => s
  | fuel + 1, pos, s =>
    if 64 < pos then { s with thermal := { s.thermal with shedPos := 65 } }
    else
      let n := s.nat (Od.shedEntry (pos - 1))
      if 64 ≤ n then { s with thermal := { s.thermal with shedPos := 65 } }
      else
        let r := shedCarrier s n
        if r.1 then { r.2 with thermal := { r.2.thermal with shedPos := pos + 1 } } else shedFrom fuel (pos + 1) s

def shedNext (s : State) : State := readyJudge (shedFrom 65 s.thermal.shedPos s)

/-- The grace timer reaches `GraceTime` with a cause present: shedding begins at `ShedEntry1` (R66, R69). -/
def execGraceTimeExpired (s : State) : Out :=
  .next <| if safeCausesNow s = 0 || !s.boot.railsOn || s.thermal.shedding then s else
    let s := s.peak Od.graceElapsed (s.nat Od.graceTime)
    shedNext { s with thermal := { shedding := true, shedPos := 1 } }

def execShedIntervalExpired (s : State) : Out :=
  .next <| if safeCausesNow s = 0 || !s.boot.railsOn || !s.thermal.shedding then s else shedNext s

/-- No cause has been present for `ExitHold` (R67): the module returns to the state that `StateBeforeSafe` reads. -/
def execExitHoldExpired (s : State) : Out :=
  .next <| if s.boot.st != .safe || safeCausesNow s != 0 then s else
    (List.range 64).foldl heldRelease (thermJudge (s.enter (if (List.range 64).any (inService s) then .traffic else .ready)))

/-- `ClearThermalPeaks` (R70). -/
def clearThermalPeaks (s : State) : Status × State :=
  (.ok, s.clearObjs fun x =>
    x = Od.vinPeakWatts || x = Od.casePeak || x = Od.safeEntries || ((keyIdx x = 0x2011 || keyIdx x = 0x2020) && keySub x = 2))

def execClearThermalPeaks (k : Nat) (s : State) : Out := .next (hostCmd s k Od.clearThermalPeaks 1 clearThermalPeaks)

/-- The refusals of writes to the policy and the shedding order, judged on the values that the request leaves (R70, R116). -/
def thermalCheck (c : State) (key : Nat) : Status :=
  if keyIdx key = 0x2022 ∧ (keySub key = 1 ∨ keySub key = 2) then
    (if c.nat Od.safeJunction < c.nat Od.warnJunction then .inconsistent else .ok)
  else if keyIdx key = 0x2023 then
    (let es := ((List.range 64).map fun j => c.nat (Od.shedEntry j)).filter (· != 255)
     if es.eraseDups.length = es.length then .ok else .inconsistent)
  else .ok

end Sys2Proof.Machine
end

