-- ==== Sys2Proof/Machine/Commands.lean ====
section
/-! DEFINITION. Sessions, ownership and the identity table by command (R103, R104, R107), and every command object of the dictionary with
what its codes do (R12, R14), as one table. -/

namespace Sys2Proof.Machine

/-! ### Ownership (R107, R111) -/

/-- A scope in which group `g` lies is armed. -/
def groupArmed (s : State) (g : Nat) : Bool := (groupScopes s g).any s.armed

def groupClaim (k g : Nat) (s : State) : Status × State :=
  let o := s.nat (Od.owner g)
  if groupArmed s g then (.shadowBusy, s)
  else if o = k then (.ok, s)
  else if o != 255 then (.owned, s)
  else (.ok, (s.setN (Od.owner g) k).journalBy k 6 0 g 0)

def groupRelease (k g : Nat) (s : State) : Status × State :=
  let o := s.nat (Od.owner g)
  if groupArmed s g then (.shadowBusy, s)
  else if o = 255 then (.ok, s)
  else if o != k then (.owned, s)
  else (.ok, releaseGroup s k g)

/-- A force release is journalled against the session that asks and the session that held the group. -/
def groupForce (k g : Nat) (s : State) : Status × State :=
  let o := s.nat (Od.owner g)
  if groupArmed s g then (.shadowBusy, s)
  else if o = 255 then (.ok, s)
  else
    let s := (s.setN (Od.owner g) 255).journalBy k 8 0 g 0
    (.ok, if o = k then s else s.journalBy o 8 0 g 0)

/-- `ReleaseMine`: every claim, or none while a scope of one of them is armed. -/
def releaseMine (k : Nat) (s : State) : Status × State :=
  if (claimsOf s k).any (groupArmed s) then (.shadowBusy, s) else (.ok, releaseAll s k)

def execOwnershipClaim (k x : Nat) (s : State) : Out := .next (hostCmdQuiet s k (Od.ownershipCommand x) 1 (groupClaim k x))
def execOwnershipRelease (k x : Nat) (s : State) : Out := .next (hostCmdQuiet s k (Od.ownershipCommand x) 2 (groupRelease k x))
def execOwnershipForceRelease (k x : Nat) (s : State) : Out := .next (hostCmdQuiet s k (Od.ownershipCommand x) 3 (groupForce k x))
def execReleaseMine (k : Nat) (s : State) : Out := .next (hostCmdQuiet s k Od.releaseMine 1 (releaseMine k))

/-! ### Sessions and identities (R103, R104, R120) -/

/-- `CloseSession`: a session may end itself with any role, another needs a Maintainer. -/
def closeSession (k x : Nat) (s : State) : Status × State :=
  if x != k && (s.session k).role != 3 then (.role, s) else (.ok, endSession s x)

/-- `IdentityCommand`: every entry is disabled, and the module is commissioning again. -/
def identityDisable (s : State) : Status × State := (.ok, s.clearObjs fun x => keyIdx x = 0x2104 && keySub x = 4)

def execCloseSession (k x : Nat) (s : State) : Out := .next (hostCmd s k (Od.closeSession x) 1 (closeSession k x))
def execIdentityCommand (k : Nat) (s : State) : Out := .next (hostCmd s k Od.identityCommand 1 identityDisable)

/-! ### The commands as a table -/

/-- A verification asked for by a plain write: what the image's manifest gives is free. -/
def firmwareVerifyFree (s : State) : Status × State :=
  let a := s.freeNat
  let v := freeBytes 32 a.2
  let b := v.2.freeNat
  let d := b.2.freeNat
  firmwareVerify (a.1 % 2 = 1) (v.1.take (a.1 / 2 % 33)) b.1 d.1 d.2

/-- Every command of the dictionary with what session `k` starts by writing it to unit `x`: the object, the code (none where the effect
judges the code `c` itself), and the effect. -/
def commandTable (k x c : Nat) : List (Nat × Option Nat × (State → Status × State)) := [
  (0x2001, some 1, mgmtResetCommand),
  (0x2001, some 2, fullResetCommand),
  (0x2002, some 1, engineReset x),
  (0x2003, some 1, laneGroupReset x),
  (0x2007, some 1, recalibrate x),
  (0x2008, some 1, configSave),
  (0x2008, some 2, configErase),
  (0x2025, some 1, clearThermalPeaks),
  (0x2031, some 1, powerDown x),
  (0x2031, some 2, powerUp x),
  (0x2044, none, clearCrossings c),
  (0x2102, some 1, closeSession k x),
  (0x2107, some 1, identityDisable),
  (0x2111, some 1, groupClaim k x),
  (0x2111, some 2, groupRelease k x),
  (0x2111, some 3, groupForce k x),
  (0x2112, some 1, releaseMine k),
  (0x2121, some 1, commitArm k x),
  (0x2121, some 2, commitCancel k x),
  (0x2121, some 3, commitRevert x),
  (0x2123, some 1, groupArm k),
  (0x2123, some 2, groupCancel),
  (0x2203, some 1, ackSource k),
  (0x2203, some 2, ackAll k),
  (0x2203, some 3, clearLost),
  (0x2221, some 1, injectStart x),
  (0x2221, some 2, injectStop x),
  (0x3101, none, reacquire x c),
  (0x3102, some 1, clearRxCounters),
  (0x3312, some 1, clearFecCounters),
  (0x3403, some 1, clearTuneCounters),
  (0x4004, some 1, laneRestart x),
  (0x4004, some 2, laneInjectStart x),
  (0x4004, some 3, laneInjectStop x),
  (0x4004, some 4, laneClearCounters x),
  (0x4070, some 1, clearLaneCounters),
  (0x4202, none, protCommand x c),
  (0x4210, some 1, clearTrayCounters),
  (0x4302, some 1, sealRollover x),
  (0x4312, some 1, keySlotZeroise x),
  (0x431A, some 1, utilityKeyZeroise x),
  (0x4322, some 1, agreeStart x),
  (0x4322, some 2, agreeCancel x),
  (0x4341, some 1, lidAcquire k),
  (0x4341, some 2, lidRelease k),
  (0x4341, some 3, lidForce),
  (0x4350, some 1, clearSealCounters),
  (0x5002, some 1, hubKeyRollover x),
  (0x5031, some 1, clearHubCounters),
  (0x5103, some 1, leafRangeAgain x),
  (0x5103, some 2, leafDeregister x),
  (0x5201, some 1, queueFlush x),
  (0x6005, some 1, retirePage),
  (0x6005, some 2, initialiseRegion),
  (0x6005, some 3, stockpotClearCounters),
  (0x6005, some 4, clearLog),
  (0x6005, some 5, eraseRetirementList),
  (0x6102, some 1, dmaStart x),
  (0x6102, some 2, dmaPause x),
  (0x6102, some 3, dmaResume x),
  (0x6102, some 4, dmaStop x),
  (0x7002, some 1, tgReselect x),
  (0x7002, some 2, tgForceHoldover x),
  (0x7002, some 3, tgReleaseHoldover x),
  (0x7041, some 1, timeStep),
  (0x7041, some 2, timeSlew),
  (0x7041, some 3, timeSlewCancel),
  (0x7051, some 1, fpoAlign x),
  (0x7060, some 1, clearTimingCounters),
  (0x7103, some 1, urgentStart x),
  (0x7104, some 1, clearMonitorPeaks),
  (0x7201, some 1, counterSnapshot),
  (0x7201, some 2, counterFreeze),
  (0x7201, some 3, counterUnfreeze),
  (0x7201, some 4, counterDeselect),
  (0x7311, some 1, clearProbe),
  (0x7F02, some 1, firmwareVerifyFree),
  (0x7F02, some 2, firmwareActivate),
  (0x7F02, some 3, firmwareConfirm),
  (0x7F02, some 4, firmwareSwap)]

/-- What code `code` of command object `key` does when session `k` writes it; `none` where the object has no such code. -/
def commandOf (k key code : Nat) : Option (State → Status × State) :=
  ((commandTable k (keyInst key) code).find? fun e => e.1 = keyIdx key && (e.2.1.isNone || e.2.1 = some code)).map (·.2.2)

/-- Commands that make no journal entry of kind 3 (R118). -/
def quietCommand (idx : Nat) : Bool := idx = 0x2111 || idx = 0x2112

end Sys2Proof.Machine
end

