-- ==== Sys2Proof/Machine/FastStatus.lean ====
section
/-! DEFINITION. The fast status RAM as its two ports read it, and the alarm pins (R142–R148). -/

namespace Sys2Proof.Machine

/-! ### Which source belongs to which entry (R145, R489) -/

/-- `FIBRE_DISTURBANCE` of a port: it is shown by the enabled carriers of the port and by no entry of its own (R485). -/
def disturbance (key : Nat) : Bool := decide (0x200 ≤ key ∧ key < 0x300) && (key - 0x200) % 32 = 1

/-- The addresses of the entries that a source is attributed to. -/
def entriesOfSource (s : State) (key : Nat) : List Nat :=
  if 0x10000 ≤ key then [fsLeaf (srcUnit key)]
  else if 0x2000 ≤ key then [fsTray (srcUnit key)]
  else if 0x1000 ≤ key then (match clientOf s (srcUnit key) with | some t => [fsTray t] | none => [])
  else if 0x0800 ≤ key then [fsCarrier (srcUnit key)]
  else if disturbance key then
    ((List.range 8).filter fun j => inService s (8 * srcUnit key + j)).map fun j => fsCarrier (8 * srcUnit key + j)
  else [0]

/-- The class of an entry, as the bits of `AlarmMask` number them (R149). -/
def entryClass (addr : Nat) : Nat :=
  if addr = 0 then 0 else if addr < 0x2000 then 1 else if addr < 0x3000 then 2 else if addr < 0x40000 then 3 else 4

/-- The sources that hold ALM of an entry at 1. -/
def alarmsOf (s : State) (addr : Nat) : List (Nat × Source) :=
  s.sources.filter fun p => p.2.openAlarm && (entriesOfSource s p.1).contains addr

/-! ### Bits 5 to 0 (R146) -/

def bitIf (b : Bool) (i : Nat) : Nat := if b then 2 ^ i else 0

def modBits (s : State) : Nat :=
  8 * s.boot.st.code + bitIf (!s.pins.thermN) 2 + bitIf (s.source 0).entry.isSome 1 + bitIf s.boot.fwReady 0

/-- The STATE field of a carrier engine. An enabled carrier whose receive path is neither in `TRACK` nor in `BURST` is acquiring (R184). -/
def carrierStateCode (s : State) (n : Nat) : Nat :=
  if (s.engine n).shed then 4
  else if !s.engineUp n then 0
  else if s.nat (Od.calState n) = 3 || s.nat (Od.calState n) = 4 then 5
  else if !inService s n then 0
  else if s.nat (Od.rxState n) = 3 || s.nat (Od.rxState n) = 5 then (if s.nat (Od.commitStatusState n) = 3 then 3 else 2)
  else 1

def carrierBits (s : State) (n : Nat) : Nat :=
  8 * carrierStateCode s n
    + bitIf ((s.source (srcCarrier n 0)).present || (s.source (srcCarrier n 1)).present) 2
    + bitIf (s.source (srcCarrier n 13)).present 1
    + bitIf (inService s n && krytelm s n && !isHub s n && (s.nat (Od.bcState n) != 1 || (s.source (srcCarrier n 11)).present)) 0

def trayStateCode (s : State) (t : Nat) : Nat :=
  if !trayPlaced s t then 0 else if trayFills s t then 3 else if selectedPath s t then 2 else 1

def trayBits (s : State) (t : Nat) : Nat :=
  16 * trayStateCode s t + bitIf (s.held (fsTray t) 3) 3
    + bitIf (clientFailed s t || (s.source (srcTray t 0)).present) 2 + bitIf (s.held (fsTray t) 1) 1
    + bitIf ((s.tray t).work.tx.on || (s.tray t).prot.tx.on) 0

def hubBits (s : State) (i : Nat) : Nat :=
  bitIf (isHub s (i / 32) && s.flag (Od.hubActive i)) 5 + bitIf (isHub s (i / 32) && s.flag (Od.discoveryEnable i)) 4
    + bitIf (s.held (fsHub i) 3) 3 + bitIf (s.held (fsHub i) 2) 2 + bitIf (s.held (fsHub i) 1) 1 + bitIf (s.held (fsHub i) 0) 0

def leafBits (s : State) (l : Nat) : Nat :=
  8 * (s.ctx l).state + bitIf (s.isHot l) 2 + bitIf (s.held (fsLeaf l) 1) 1 + bitIf (s.ctx l).suspect 0

/-- The receive side of carrier `n` is out of service by injection: an injected condition that acts, or its aftermath, or a shed for
injected causes. -/
def carrierHurt (s : State) (n : Nat) : Bool := (s.engine n).injLost || (s.engine n).shedInj || injActs s (srcCarrier n 13)

/-- Bits 5 to 0 of the module's entry report what injection made: an injected condition that a bit shows, or `SAFE` for injected
causes. -/
def modInjected (s : State) : Bool :=
  (s.source 0).inj || (s.boot.st = .safe && s.boot.safeInj)
    || ((List.range 27).any fun d => injActs s (0x80 + d)) || injActs s 5 || injActs s 6

/-- The same of a carrier's entry. -/
def carrierInjected (s : State) (n : Nat) : Bool :=
  ([0, 1, 13].any fun i => (s.source (srcCarrier n i)).inj)
    || ((s.source (srcCarrier n 11)).inj && inService s n && krytelm s n && !isHub s n)
    || (carrierStateCode s n = 1 && (s.engine n).injLost) || (carrierStateCode s n = 4 && (s.engine n).shedInj)

/-- The same of a tray's entry: its client failed by injection, or a path of it that injection hurt while it does not carry the working
path. -/
def trayInjected (s : State) (t : Nat) : Bool :=
  (s.source (srcTray t 0)).inj || (clientDown s t && (spanLanes s t).any fun k => (s.lane k).injDown)
    || (decide (2 ≤ trayStateCode s t) && (injActs s (srcTray t 3) || injActs s (srcTray t 6) || injActs s (srcTray t 7)
        || [false, true].any fun prot => pathPlaced s t prot && carrierHurt s (pathCarrier s t prot)))

/-- The same of a leaf's entry: a state, or a mark, that injection gave. -/
def leafInjected (s : State) (l : Nat) : Bool :=
  (s.leafRun l).injAs = (s.ctx l).state + 1 || ((s.ctx l).suspect && (s.leafRun l).injSuspect)

/-- What bits 5 to 0 report arises from injection (R145): a condition, or a hold bit that an injected event set. -/
def injectedAt (s : State) (addr : Nat) : Bool :=
  s.held addr 6 ||
    (if addr = 0 then modInjected s
     else if addr < 0x2000 then carrierInjected s (addr - 0x1000)
     else if addr < 0x3000 then trayInjected s (addr - 0x2000)
     else if addr < 0x40000 then false
     else leafInjected s (addr - 0x40000))

/-- An entry with bits 7 and 6 (R145). -/
def withAlarm (s : State) (addr low : Nat) : Nat :=
  let a := alarmsOf s addr
  (if a.isEmpty then 0 else 128) + (if a.any (fun p => p.2.injAny) || injectedAt s addr then 64 else 0) + low

/-- The byte of an address of the status RAM (R144). With the main rails off only the module entry is not zero; without AUX3V3 there
is no RAM. -/
def statusByte (s : State) (addr : Nat) : Nat :=
  if !s.pins.aux3v3 then 0
  else if addr = 0 then withAlarm s 0 (modBits s)
  else if !s.boot.railsOn then 0
  else if 0x1000 ≤ addr ∧ addr < 0x1040 then withAlarm s addr (carrierBits s (addr - 0x1000))
  else if 0x2000 ≤ addr ∧ addr < 0x2800 then withAlarm s addr (trayBits s (addr - 0x2000))
  else if 0x3000 ≤ addr ∧ addr < 0x3800 then withAlarm s addr (hubBits s (addr - 0x3000))
  else if 0x40000 ≤ addr ∧ addr < 0x80000 then withAlarm s addr (leafBits s (addr - 0x40000))
  else 0

/-- What port `x` drives on STAT after it has sampled an address (R143, R148). -/
def fspRead (s : State) (x addr : Nat) : Nat :=
  match s.nat (Od.testPattern x) with
  | 1 => addr % 256
  | 2 => addr / 256 % 256
  | 3 => addr / 65536 % 16 + 16 * (15 - addr / 65536 % 16)
  | _ => statusByte s addr

/-- ALARMx_N is driven low (R147). -/
def alarmDriven (s : State) (x : Nat) : Bool :=
  s.sources.any fun p => p.2.openAlarm && (p.2.realAny || s.flag (Od.injectToAlarm x))
    && (entriesOfSource s p.1).any fun a => s.nat (Od.alarmMask x) / 2 ^ entryClass a % 2 = 1 && (a = 0 || s.boot.railsOn)

end Sys2Proof.Machine
end

