-- ==== Sys2Proof/Machine/LaneSignal.lean ====
section
/-! DEFINITION. What a host lane sends and what its receiver does in each state, the symbols on its transmit pair, and its transmit clock
(R301–R303, R310, R316). -/

namespace Sys2Proof.Machine

/-- What a lane's transmitter sends (R303). -/
inductive LaneTx where
  /-- electrically idle -/
  | idle
  /-- electrically idle, with a common-mode detect step every 100 µs -/
  | detectStep
  /-- Clause 73 pages with the abilities of these type codes -/
  | dme (abilities : Nat)
  /-- training frames of the resolved PMD -/
  | training
  /-- PRBS31, or PRBS31Q in a PAM4 mode -/
  | prbs31
  /-- a capability frame -/
  | capability (frame : Nat)
  /-- client data from the PCS of a tray's client -/
  | client (t : Nat)
  /-- a pattern of the generator -/
  | pattern (code : Nat)
  deriving DecidableEq, Repr

/-- What a lane's receiver does (R303). -/
inductive LaneRx where
  | off | signalDetect | clause73 | rateSense | adapting | locked | capability | client (t : Nat) | checker
  deriving DecidableEq, Repr

/-- Clause 73 pages go out on lane `k`: it is the first lane of an Ethernet client and negotiates (R306). -/
def laneNegotiates (s : State) (k : Nat) : Bool :=
  match clientOf s k with
  | some t => s.nat (Od.firstLane t) = k && (s.lane k).anEnable && !(s.lane k).parallel && (clientTypes s t).any hasClause73
  | none => false

/-- The abilities that a client's first lane advertises: every type that the client may resolve and that has one (R306). -/
def advertised (s : State) (t : Nat) : Nat := (((clientTypes s t).filter hasClause73).map fun ty => 2 ^ ty).foldl (· + ·) 0

/-- The Transmitter column of R303. -/
def laneTx (s : State) (k : Nat) : LaneTx :=
  match s.nat (Od.laneState k) with
  | 0 => .idle
  | 1 => .detectStep
  | 2 => if laneNegotiates s k then .dme (((clientOf s k).map (advertised s)).getD 0) else .idle
  | 3 => .training
  | 4 => .prbs31
  | 5 => .capability (capabilityFrame s k)
  | 6 => match clientOf s k with | some t => .client t | none => .idle
  | _ => if s.nat (Od.genPattern k) = 0 then .prbs31 else .pattern (s.nat (Od.genPattern k))

/-- The Receiver column of R303. -/
def laneRx (s : State) (k : Nat) : LaneRx :=
  match s.nat (Od.laneState k) with
  | 0 => .off
  | 1 => .signalDetect
  | 2 => if laneNegotiates s k then .clause73 else .rateSense
  | 3 => .adapting
  | 4 => .locked
  | 5 => .capability
  | 6 => match clientOf s k with | some t => .client t | none => .off
  | _ => .checker

/-! ### Symbols (R301, R310) -/

/-- PAM4 levels of Gray-coded pairs of bits, as IEEE 802.3 codes them: 00, 01, 11, 10 from the lowest level up. -/
def pam4Levels : List Bool → List Int
  | a :: b :: t => (match a, b with | false, false => -3 | false, true => -1 | true, true => 1 | true, false => 3) :: pam4Levels t
  | _ => []

/-- The levels of a run of bits in a lane mode, in thirds of full swing; `outer` uses the outer levels only, one bit to a symbol, as
capability frames do. -/
def laneLevels (mode : Nat) (outer : Bool) (bits : List Bool) : List Int :=
  if pam4 mode && !outer then pam4Levels bits else bits.map fun b => if b then 3 else -3

/-- The samples on the transmit pair: the levels through the six taps, c(−3) first, inverted where the pair is crossed. The first symbol
has nothing before it, and the last nothing after it. -/
def laneWave (taps : List Int) (inverted : Bool) (levels : List Int) : List Int :=
  (List.range levels.length).map fun (i : Nat) =>
    let y := (taps.zipIdx.map fun c =>
      let j : Int := (i : Int) + 3 - c.2
      c.1 * (if j < 0 then 0 else levels.getD j.toNat 0)).foldl (· + ·) 0
    if inverted then -y else y

/-- The bits that a lane sends of its own: a capability frame, or `n` bits of a pattern after the bits `hist` (newest first). Code 8 is
eight ones and eight zeros by turns (R316). -/
def patternBits (code : Nat) : Nat → List Bool → List Bool
  | 0, _ => []
  | n + 1, hist =>
    let b := if code = 8 then !(hist.getD 7 false) else patternNext code hist
    b :: patternBits code n (b :: hist)

/-- The symbols of a lane that sends capability frames or a pattern, on its transmit pair. -/
def laneSends (s : State) (k n : Nat) (hist : List Bool) : List Int :=
  let mode := s.nat (Od.activeMode k)
  let wave (outer : Bool) (bits : List Bool) : List Int := laneWave (s.lane k).txTaps (txInverted s k) (laneLevels mode outer bits)
  match laneTx s k with
  | .capability f => wave true (bitsOf 128 f)
  | .prbs31 => wave false (patternBits 6 n hist)
  | .pattern c => wave false (patternBits c n hist)
  | _ => []

/-! ### The transmit clock (R302, R36) -/

/-- The client clock that GMP has recovered for a tray, against the client's nominal rate in 0.001 ppb and within ±250 ppm: the mean Cm of
the blocks taken since the tray last filled, at the block rate of the selected path's carrier (R302, R327). -/
def recoveredClock (s : State) (t : Nat) : Int :=
  let c := (s.tray t).clock
  let n := pathCarrier s t (selectedPath s t)
  let nominal : Nat := streamKbps (s.nat (Od.clientType t)) (s.nat (Od.cbrRate t)) * 1000
  if c.2 = 0 ∨ nominal = 0 then 0 else
  let rate : Int := (c.1 * symbolHz s n * 1000000000000 / (c.2 * 65536 * nominal) : Nat)
  max (-250000000) (min 250000000 (rate - 1000000000000))

/-- The offset of a lane's transmit rate from nominal in 0.001 ppb: that of the group's generator, in every one of its states, and on a lane
of an OTN or CBR client the recovered client clock. -/
def laneTxOffset (s : State) (k : Nat) : Int :=
  let g := s.int (Od.outputOffset (s.nat (Od.txTimingGenerator (k / 32))))
  match clientOf s k with
  | some t => if clientKind (s.nat (Od.clientType t)) = 1 then g else recoveredClock s t
  | none => g

/-- `FreqOffset` of a lane, in ppm: the far-end rate against the local one (R309). -/
def laneSignalRead (s : State) (key : Nat) : Option Val :=
  if keyIdx key = 0x4002 ∧ keySub key = 4 then
    some (.f (if s.nat (Od.laneState (keyInst key)) < 4 then 0 else f32OfRat ((s.lane (keyInst key)).farRate - laneTxOffset s (keyInst key)) 1000000))
  else none

end Sys2Proof.Machine
end

