-- ==== Sys2Proof/Machine/Objects.lean ====
section
/-! DEFINITION. Reading and writing the object dictionary: what an address reads as, the content of every `BLOCK` object, and the three
passes of a write request: each item by itself, the values together, then the effects, all or none (R96–R98, R110, R115–R119). -/

namespace Sys2Proof.Machine

/-! ### Reading -/

/-- `CobId` of TPDO `j` of port `p`: what was written, else the default that follows `NodeId` (R149). -/
def cobIdOf (s : State) (j p : Nat) : Nat :=
  let v := s.nat (Od.cobId j p)
  if v = 0xFFFFFFFF then 0x80000000 + 0x180 + 0x100 * j + s.nat (Od.nodeId p) else v

/-- The firmware version that runs now, as `RevisionNumber` packs it (R94, R1). -/
def revisionNumber (s : State) : Nat :=
  3 * 65536 + Config.firmwareMinor (s.slot s.boot.running).version % 256 * 256 + 0xA1

/-- Objects of 1000h to 21FFh that follow from others, as session `k` reads them (R94, R120, R138, R149). -/
def commRead (s : State) (k key : Nat) : Option Val :=
  let idx := keyIdx key
  let x := keyInst key
  let sub := keySub key
  if idx = 0x100A then some (.o (s.slot s.boot.running).version)
  else if idx = 0x1018 ∧ sub = 3 then some (.u (revisionNumber s))
  else if idx = 0x1018 ∧ sub = 4 then some (.u Config.serialNumber)
  else if idx = 0x1100 ∧ sub = 3 then some (.o (Config.macAddress x))
  else if 0x1800 ≤ idx ∧ idx ≤ 0x1803 ∧ sub = 1 then some (.u (cobIdOf s (idx - 0x1800) x))
  else if idx = 0x1F10 ∧ sub = 1 then some (.u (s.session k).canInst)
  else if idx = 0x1F10 ∧ sub = 2 then some (.u (if (s.session k).shadowView then 1 else 0))
  else if idx = 0x1F20 ∧ sub = 3 then some (.u (if alarmDriven s x then 1 else 0))
  else if idx = 0x2100 then
    (let y := s.session x
     match sub with
     | 1 => some (.u (if y.isOpen then 1 else 0))
     | 2 => some (.u y.transport)
     | 3 => some (.u y.role)
     | 4 => some (.u y.identity)
     | 5 => some (.o y.openedAt)
     | 6 => some (.u (claimsOf s x).length)
     | 7 => some (.u y.lastStatus)
     | _ => none)
  else if idx = 0x2101 then some (.u k)
  else if idx = 0x2103 ∧ sub = 2 then some (.u (if s.isCommissioning then 1 else 0))
  else none

/-- The reading rules of the chapters, each of which answers for its own objects. -/
def readers : List (State → Nat → Option Val) :=
  [commitRead, bootRead, faultsRead, domainsRead, carrierRead, opticsRead, rxRead, tuneRead, hubRead, sealRead, lanesRead, laneSignalRead, monitorRead,
   probeRead, stockpotRead, timingRead]

/-- The first rule that answers. -/
def firstRead (s : State) (key : Nat) : List (State → Nat → Option Val) → Option Val
  | [] => none
  | f :: t => match f s key with
    | some v => some v
    | none => firstRead s key t

/-- What an object reads that its chapter computes when it is read. -/
def liveRead (s : State) (k key : Nat) : Option Val :=
  match commRead s k key with
  | some v => some v
  | none => firstRead s key readers

/-- The value 0 of a type (R119). -/
def zeroVal (t : Ty) : Val :=
  match t with
  | .f32 => .f 0
  | .i16 | .i32 => .i 0
  | .str _ => .o []
  | .octets m => .o (List.replicate m 0)
  | .block _ => .o []
  | _ => .u 0

/-- An object that reads 0 in either view, because its unit has no use for it: 3201h of a subcarrier that is not
there or of a profile carrier (R264, R266), 5000h to 5003h of an inactive hub subcarrier (R4, R375), and 2041h of a tray with no client
(R40). -/
def inert (s : State) (key : Nat) : Bool :=
  let i := keyInst key
  decide (1 ≤ keySub key ∨ keyIdx key = 0x5002) && ((keyIdx key = 0x3201 && (!krytelm s (i / 32) || !subExists s i))
    || (decide (0x5000 ≤ keyIdx key ∧ keyIdx key ≤ 0x5003) && !hubSubExists s i) || (keyIdx key = 0x2041 && s.nat (Od.clientType i) = 0))

/-- The value of an object now, in the active view or the shadow view (R110). -/
def readVal (s : State) (k key : Nat) (shadow : Bool) : Val :=
  match subRow (keyIdx key) (keySub key) with
  | some r => if inert s key then zeroVal r.ty
    else if r.acc = .rws && shadow then s.shadowVal key else (liveRead s k key).getD (s.val key)
  | none => .u 0

/-- A read-only octet string that the module has not filled reads as zeros. -/
def fullOctets (r : SubRow) (v : Val) : Val :=
  match r.ty, v with
  | .octets m, .o [] => if r.acc != .ro || m = 512 then v else .o (List.replicate m 0)
  | _, _ => v

/-- Read one address as session `k`: the status, and the octets of the value (R9, R12, R77, R97, R119). -/
def readItem (s : State) (k idx inst sub : Nat) (shadow : Bool) : Status × Bytes :=
  match addrStatus idx inst sub with
  | .ok =>
    match objRow idx with
    | none => (.noObject, [])
    | some o =>
      if s.boot.recovery ∧ !servedInRecovery idx then (.state, [])
      else if sub = 0 ∧ !o.single then (.ok, leBytes 1 o.top)
      else match findSub o.subs sub with
      | none => (.ok, [0])
      | some r =>
        let key := odKey idx inst sub
        match r.ty with
        | .block _ => (.badType, [])
        | t =>
          if r.acc = .wo ∨ r.acc = .key then (.writeOnly, [])
          else if gated idx && s.beforeCalibrate then
            (.ok, encodeVal t (if r.acc = .rw ∨ r.acc = .rws then odDefault key else zeroVal t))
          else match lidGate s k key with
            | .ok => (.ok, encodeVal t (fullOctets r (readVal s k key shadow)))
            | st => (st, [])
  | st => (st, [])

/-! ### The content of `BLOCK` objects (R130) -/

/-- `ChangeJournal`: 1,024 entries, oldest first, unused entries zero (R118). -/
def journalBlock (s : State) : Bytes :=
  s.journal.reverse.flatMap JournalEntry.encode ++ List.replicate (32 * (1024 - s.journal.length)) 0

/-- The content captured by a `BLOCK_OPEN` for reading, and what the reading leaves. -/
def blockContent (s : State) (idx inst : Nat) (errors : List Nat) : Bytes × State :=
  match idx with
  | 0x2106 => (Config.deviceCertificate, s)
  | 0x2130 => (journalBlock s, s)
  | 0x2201 => (eventQueueBlock s, eventQueueOpened s)
  | 0x3121 => (tapBlock s inst, s)
  | 0x5101 => (contextBytes (s.ctx inst), s)
  | 0x5102 => (if (s.ctx inst).seeds.isEmpty then List.replicate 272 0 else (s.ctx inst).seeds, s)
  | 0x6002 => (s.stockpot.log.flatMap id, s)
  | 0x6006 => (retirementListBlock s, s)
  | 0x6011 => captureContent s inst errors
  | 0x6013 => inspectContent s (errors.headD 0)
  | 0x7203 => (counterBlock s Od.counterInterval, s)
  | 0x7204 => (counterBlock s Od.counterSnapshot, s)
  | 0x7310 => (probeLogBlock s inst, s)
  | _ => ([], s)

/-! ### Writing: each item by itself -/

/-- What a write item comes to: its line, key, value and status. -/
structure Prep where
  status : Status
  acc : Acc
  key : Nat
  code : Nat
  val : Val
  deriving DecidableEq, Repr

def prepItem (s : State) (k : Nat) (it : WriteItem) : Prep :=
  let key := odKey it.idx it.inst it.sub
  let code := leNat (it.value.take 4)
  let bad (st : Status) : Prep := ⟨st, .ro, key, code, .u 0⟩
  match addrStatus it.idx it.inst it.sub with
  | .ok =>
    match subRow it.idx it.sub with
    | none => bad (writeGate s k it.idx it.inst it.sub code)
    | some r =>
      match r.ty with
      | .block _ => bad .badType
      | t =>
        match writeGate s k it.idx it.inst it.sub code with
        | .ok =>
          let d := decodeVal t it.value
          let st := if d.1 = .ok then (if rngOk r.rng d.2 then .ok else .range) else d.1
          ⟨st, r.acc, key, code, d.2⟩
        | st => bad st
  | st => bad st

/-- The first status that is not `OD_OK`, with its item. -/
def firstBad : List Status → Nat → Option (Nat × Status)
  | [], _ => none
  | .ok :: t, i => firstBad t (i + 1)
  | st :: _, i => some (i, st)

/-! ### Writing: the values together (R116) -/

/-- Store one written value: a context field, a shadow, or an active value. A `KEY` value is stored only to be judged. -/
def storeItem (keys : Bool) (s : State) (p : Prep) : State :=
  match p.acc with
  | .rw => if keyIdx p.key = 0x5100 then leafSet s (keyInst p.key) (keySub p.key) p.val
           else if keyIdx p.key = 0x1F10 then s else s.setVal p.key p.val
  | .rws => s.setShadow p.key p.val
  | .key => if keys then s.setVal p.key p.val else s
  | _ => s

/-- The bits of an entry of a TPDO mapping: index, sub, instance, length; and whether it names a readable object of a fixed
size that has this length (R139). -/
def tpdoEntryBits (e : Nat) : Nat × Nat × Nat × Nat := (e / 2 ^ 48, e / 2 ^ 40 % 256, e / 2 ^ 22 % 2 ^ 18, e % 256)

def mapEntryOk (e : Nat) : Bool :=
  let m := tpdoEntryBits e
  match addrStatus m.1 m.2.2.1 m.2.1, objRow m.1 with
  | .ok, some o =>
    if m.2.1 = 0 ∧ !o.single then m.2.2.2 = 8
    else match findSub o.subs m.2.1 with
      | some r => r.acc != .wo && r.acc != .key && (match r.ty.size with | some n => m.2.2.2 = 8 * n | none => false)
      | none => false
  | _, _ => false

/-- A mapping of `n` entries is valid. -/
def mappingOk (c : State) (j p n : Nat) : Bool :=
  let es := (List.range n).map fun i => c.nat (Od.tpdoEntry j p i)
  es.all mapEntryOk && decide ((es.map (· % 256)).sum ≤ 512)

/-- The enabled entries of the identity table. -/
def enabledEntries (s : State) : List Nat := (List.range 32).filter fun i => s.flag (Od.identityEntryEnabled i)

/-- The refusals of writes to the identity table (R103, R120). The spec refuses the enabling of an entry whose hash equals another
enabled entry's; a `KeyHash` written into an enabled entry so that two become equal is refused alike (DESIGN CHOICE,
assumption 87). -/
def identityCheck (s c : State) (k : Nat) : Status :=
  let es := enabledEntries c
  if (es.map fun i => c.bytes (Od.keyHash i)).eraseDups.length != es.length then .inconsistent
  else if s.isCommissioning && !es.isEmpty
      && !(es.any fun i => c.bytes (Od.keyHash i) = (s.session k).keyHash && decide (8 ≤ c.nat (Od.allowedRoles i) % 16)) then .inconsistent
  else .ok

/-- The refusals of writes to objects of chapters 04 and 05 (R99, R103, R114, R120, R139). -/
def commCheck (s c : State) (k key : Nat) : Status :=
  let idx := keyIdx key
  let x := keyInst key
  let sub := keySub key
  if idx = 0x2120 ∧ sub = 4 then
    (let v := c.nat key
     if x < 64 then (if v ≤ 65535 then .ok else .range) else (if 10 ≤ v then .ok else .range))
  else if idx = 0x2122 ∧ sub = 3 then (if leNat ((c.bytes key).drop 6) < 1000000000 then .ok else .range)
  else if idx = 0x2104 then identityCheck s c k
  else if idx = 0x2105 then
    (if c.nat (Od.nodeId 0) = c.nat (Od.nodeId 1) then .inconsistent
     else if sub = 1 && c.flag key && !s.flag key && (s.session (6 + x)).isOpen && decide ((s.session (6 + x)).transport ≤ 2) then .resource
     else .ok)
  else if 0x1800 ≤ idx ∧ idx ≤ 0x1803 ∧ sub = 1 then
    (let o := cobIdOf s (idx - 0x1800) x
     if o < 2 ^ 31 && c.nat key != o && c.nat key != o + 2 ^ 31 then .state else .ok)
  else if 0x1A00 ≤ idx ∧ idx ≤ 0x1A03 ∧ sub = 1 then
    (if mappingOk c (idx - 0x1A00) x (c.nat key) then .ok else .inconsistent)
  else if 0x1A00 ≤ idx ∧ idx ≤ 0x1A03 then
    (if c.nat (Od.tpdoMapCount (idx - 0x1A00) x) != 0 then .state
     else if c.nat key / 256 % 2 ^ 14 != 0 then .range else .ok)
  else .ok

/-- The first refusal among the chapters' rules for one item: `s` before the request, `c` with every written value. -/
def ruleCheck (s c : State) (k : Nat) (p : Prep) : Status :=
  if p.acc = .rws && (scopesOf s p.key ++ scopesOf c p.key).any s.armed then .shadowBusy
  else if p.acc = .cmd then .ok
  else
    (firstBad [lidGate s k p.key, commCheck s c k p.key, opticsCheck s c p.key, rxCheck c p.key, tuneCheck c p.key, lanesCheck s c p.key,
      traysCheck s c p.key, sealCheck s c p.key, hubCheck s c p.key, timingCheck s c p.key, monitorCheck c p.key, stockpotCheck s c p.key,
      dmaCheck s p.key, faultsCheck s p.key, thermalCheck c p.key] 0).elim .ok (·.2)

/-! ### Writing: the effects -/

/-- A write changed the set-up of CAN port `p`: its session ends, and the port starts again after its delay if it is enabled
(R101, R104, R136). -/
def canReconfigured (old s : State) (p : Nat) : State :=
  if old.flag (Od.canSessionEnabled p) = s.flag (Od.canSessionEnabled p) && old.nat (Od.nodeId p) = s.nat (Od.nodeId p)
      && old.nat (Od.canSessionRole p) = s.nat (Od.canSessionRole p) then s
  else
    -- the slot of a port that is not enabled may hold an Ethernet session, which goes on (R99)
    let s := if (s.session (6 + p)).transport = 3 + p then endSession s (6 + p) else s
    s.setCanPort p { startPending := s.flag (Od.canSessionEnabled p) }

/-- The effect of an accepted write to objects of chapter 05 and 2105h. -/
def commAfter (old s : State) (key : Nat) : State :=
  let idx := keyIdx key
  let x := keyInst key
  if idx = 0x2105 then canReconfigured old s x
  else if idx = 0x1100 then s.setMgmtPort x { s.mgmtPort x with waiting := (s.mgmtPort x).waiting ++ [mgmtConfOf s x] }
  else if 0x1800 ≤ idx ∧ idx ≤ 0x1803 ∧ 2 ^ 31 ≤ cobIdOf s (idx - 0x1800) x then
    s.setCanPort x { s.canPort x with tpdo := Tbl.drop (s.canPort x).tpdo (idx - 0x1800) }
  else s

/-- Objects whose writes share one effect, whichever of them a request names: the binding of a client (R312), the light of a port
(R154), the set-up of a CAN port or a management port. -/
def effectKey (key : Nat) : Nat :=
  let idx := keyIdx key
  let sub := keySub key
  if idx = 0x4040 ∧ 1 ≤ sub ∧ sub ≤ 5 then odKey 0x4040 (keyInst key) 1
  else if idx = 0x3000 then odKey 0x3000 (keyInst key) 1
  else if idx = 0x2105 then odKey 0x2105 (keyInst key) 1
  else if idx = 0x1100 then odKey 0x1100 (keyInst key) 1
  else if idx = 0x3043 then odKey 0x3043 (keyInst key) 1
  else key

/-- What a write to an `RW` object does beside storing its value. -/
def writeEffect (old s : State) (key : Nat) : State :=
  let s := commAfter old s key
  let s := if keyIdx key = 0x3000 then portLightAfter old s (keyInst key) else s
  let s := tuneAfter (lanesAfter old (opticsAfter old s key) key) key
  let s := hubAfter old (sealAfter (traysAfter s key) key) key
  stockpotAfter (monitorAfter (timingAfter old s key) key) key

/-- Session `k` writes its own copy of 1F10h (R138). -/
def ownCopy (s : State) (k : Nat) (p : Prep) : State :=
  s.setSession k (if keySub p.key = 1 then { s.session k with canInst := p.val.nat } else { s.session k with shadowView := p.val.nat != 0 })

/-- What a write to a `KEY` object does (R361). -/
def keyEffect (key : Nat) (v : Val) (s : State) : Status × State :=
  if keyIdx key = 0x4310 then trayKeyWritten s (keyInst key) v.bytes else utilityKeyWritten s (keyInst key) v.bytes

/-- The effects of the items in order, each with its journal entry (R118): `seen` lists the shared effects that have run. The answer is the
item that refuses, with its status, or 0xFF. -/
def applyItems (old : State) (k : Nat) : List Prep → List Nat → Nat → State → Nat × Status × State
  | [], _, _, s => (255, .ok, s)
  | p :: t, seen, i, s =>
    let idx := keyIdx p.key
    let note (kind : Nat) (s : State) : State := s.journalBy k kind idx (keyInst p.key) (keySub p.key)
    match p.acc with
    | .cmd =>
      match commandOf k p.key p.code with
      | none => (i, .range, s)
      | some f =>
        let r := f (if quietCommand idx then s else note 3 s)
        if r.1 = .ok then applyItems old k t seen (i + 1) r.2 else (i, r.1, s)
    | .key =>
      let r := keyEffect p.key p.val (note 11 s)
      if r.1 = .ok then applyItems old k t seen (i + 1) r.2 else (i, r.1, s)
    | .rws => applyItems old k t seen (i + 1) (note 2 s)
    | _ =>
      if idx = 0x1F10 then applyItems old k t seen (i + 1) (ownCopy s k p)
      else
        let e := effectKey p.key
        let s := note 1 s
        if seen.contains e then applyItems old k t seen (i + 1) s
        else applyItems old k t (e :: seen) (i + 1) (writeEffect old s e)

/-- What a refused command or key leaves: the records that its chapter names (R98). -/
def refusalRecords (s : State) (k : Nat) (p : Prep) (st : Status) : State :=
  let r := match p.acc with
    | .cmd => (match commandOf k p.key p.code with | some f => f s | none => (.range, s))
    | .key => keyEffect p.key p.val s
    | _ => (st, s)
  if r.1 = st then r.2 else s

/-- The write that ends commissioning ends every other session opened during it (R103). -/
def commissioningEnds (old s : State) (k : Nat) : State :=
  if old.isCommissioning && !s.isCommissioning then
    (List.range 8).foldl (fun s x => if x != k && (s.session x).commissioned then endSession s x else s) s
  else s

/-- A whole write request of session `k`: all of its items or none. The answer is the failing item, or 0xFF, and the status. -/
def writeRequest (s : State) (k : Nat) (items : List WriteItem) : Nat × Status × State :=
  let ps := items.map (prepItem s k)
  match firstBad (ps.map (·.status)) 0 with
  | some (i, st) => (i, st, s.refuse k st)
  | none =>
    let c := ps.foldl (storeItem true) s
    match firstBad (ps.map (ruleCheck s c k)) 0 with
    | some (i, st) => (i, st, s.refuse k st)
    | none =>
      match applyItems s k ps [] 0 (ps.foldl (storeItem false) s) with
      | (_, .ok, t) => (255, .ok, commissioningEnds s t k)
      | (i, st, _) =>
        let t := match ps[i]? with | some p => refusalRecords s k p st | none => s
        (i, st, t.refuse k st)

/-- A write request without its response. -/
def hostWrite (s : State) (k : Nat) (items : List WriteItem) : State :=
  if s.answers k then (writeRequest s k items).2.2 else s

/-! ### The rows that write one object, or several -/

def execObjectWrite (k : Nat) (items : List WriteItem) (s : State) : Out := .next (hostWrite s k items)
def execIdentityEnableWrite (k : Nat) (items : List WriteItem) (s : State) : Out := .next (hostWrite s k items)
def execClientBindingWrite (k t : Nat) (items : List (Nat × Bytes)) (s : State) : Out :=
  .next (hostWrite s k (items.map fun x => ⟨0x4040, t, x.1, x.2⟩))
def execPortLightChange (k p : Nat) (source : Nat) (anchor : Int) (spacing : Nat) (s : State) : Out :=
  .next (hostWrite s k [⟨0x3000, p, 1, leBytes 1 source⟩, ⟨0x3000, p, 2, leBytes 2 (unsignedOf 16 anchor)⟩, ⟨0x3000, p, 3, leBytes 1 spacing⟩])
def execCarrierEnable (k n : Nat) (s : State) : Out := .next (hostWrite s k [⟨0x3010, n, 1, [1]⟩])
def execCarrierDisable (k n : Nat) (s : State) : Out := .next (hostWrite s k [⟨0x3010, n, 1, [0]⟩])
def execTrayKeyLoad (k x : Nat) (data : Bytes) (s : State) : Out := .next (hostWrite s k [⟨0x4310, x, 0, data⟩])
def execUtilityKeyLoad (k u : Nat) (data : Bytes) (s : State) : Out := .next (hostWrite s k [⟨0x4318, u, 0, data⟩])
def execKekPeerKeyWrite (k : Nat) (data : Bytes) (s : State) : Out := .next (hostWrite s k [⟨0x4320, 0, 2, data⟩])
def execLidBlockOperation (k : Nat) (data : Bytes) (s : State) : Out := .next (hostWrite s k [⟨0x4340, 0, 4, data⟩])
def execLeafEnableWrite (k l : Nat) (enable : Bool) (s : State) : Out := .next (hostWrite s k [⟨0x5100, l, 1, [if enable then 1 else 0]⟩])
def execLoopOpenWrite (k g : Nat) (isOpen : Bool) (s : State) : Out := .next (hostWrite s k [⟨0x7000, g, 8, [if isOpen then 1 else 0]⟩])
def execSteerOffsetWrite (k g : Nat) (offset : Int) (s : State) : Out :=
  .next (hostWrite s k [⟨0x7000, g, 9, leBytes 4 (unsignedOf 32 offset)⟩])
def execFpoEnableWrite (k f : Nat) (enable : Bool) (s : State) : Out := .next (hostWrite s k [⟨0x7050, f, 1, [if enable then 1 else 0]⟩])
def execPerfCounterSelect (k c : Nat) (sel : Option Nat) (threshold : Option Nat) (s : State) : Out :=
  .next (hostWrite s k ((match sel with | some v => [⟨0x7200, c, 1, leBytes 4 v⟩] | none => [])
    ++ match threshold with | some v => [⟨0x7200, c, 2, leBytes 4 v⟩] | none => []))
def execCanSessionReconfigure (k p sub value : Nat) (s : State) : Out := .next (hostWrite s k [⟨0x2105, p, sub, leBytes 1 value⟩])
def execCanAccessWrite (k sub value : Nat) (s : State) : Out :=
  .next (hostWrite s k [⟨0x1F10, 0, sub, leBytes (if sub = 1 then 4 else 1) value⟩])

end Sys2Proof.Machine
end

