-- ==== Sys2Proof/Machine/Transport.lean ====
section
/-! DEFINITION. Sehal over Ethernet: DTLS connections, the request window, the requests of a session, block transfers, and the management
ports (R99, R100, R104, R122–R133). -/

namespace Sys2Proof.Machine

/-- The management transports answer (R77, R508). -/
def State.serving (s : State) : Bool := s.boot.fwReady || s.boot.recovery

/-- A management port is not off, as the configuration in force says (R122, R124). -/
def portOn (s : State) (p : Nat) : Bool := s.serving && (s.mgmtPort p).conf.mode != 0

/-! ### DTLS connections (R100, R125) -/

def State.conn? (s : State) (id : Nat) : Option Conn := s.conns.find? fun c => c.id = id

def State.setConn (s : State) (c : Conn) : State := { s with conns := c :: s.conns.filter fun x => x.id != c.id }
def State.dropConn (s : State) (id : Nat) : State := { s with conns := s.conns.filter fun x => x.id != id }

/-- Handshakes in progress: at most four (R125). -/
def handshakes (s : State) : Nat := (s.conns.filter fun c => c.phase = .cookieSent || c.phase = .handshaking).length

/-- The client offers the one suite, group and signature scheme of R100: TLS_AES_256_GCM_SHA384, secp384r1 and ecdsa_secp384r1_sha384, by
their codes of RFC 8446. -/
def helloOk (o : HelloOffer) : Bool := o.suites.contains 0x1302 && o.groups.contains 0x0018 && o.schemes.contains 0x0503

/-- A ClientHello: the first is answered with a cookie, and one that returns the cookie goes on: the module presents its device
certificate, or ends a handshake that offers nothing it uses (R100, R125). -/
def execDtlsClientHello (conn port : Nat) (cookie : Option Nat) (offer : HelloOffer) (s : State) : Out :=
  onUnit (port < 2) s fun s =>
    if !portOn s port then s else
    match s.conn? conn with
    | none =>
      if 4 ≤ handshakes s then s else
      let r := s.freeNat
      (r.2.setConn { id := conn, port := port, phase := .cookieSent, cookie := r.1 }).send (.helloRetry conn r.1)
    | some c =>
      if c.phase = .cookieSent then
        (if cookie = some c.cookie then
           (if helloOk offer then (s.setConn { c with phase := .handshaking }).send (.dtlsServerFlight conn Config.deviceCertificate)
            else (s.dropConn conn).send (.dtlsClose conn))
         else s.send (.helloRetry conn c.cookie))
      else s

/-- The enabled entry of the identity table that matches a key hash. -/
def matchIdentity (s : State) (h : Bytes) : Option Nat := (enabledEntries s).find? fun i => s.bytes (Od.keyHash i) = h

/-- The client presents a P-384 key, and its handshake signature verifies under that key (R100). -/
def proofOk (p : ClientProof) : Bool :=
  match keyOfSpki p.spki with
  | some q => ecdsaVerify q p.signed p.r p.s
  | none => false

/-- The handshake completes: the client's signature is verified, and the SHA-384 of its SubjectPublicKeyInfo is matched. An unmatched key
is answered with `access_denied`; while the module is commissioning no key is unmatched (R100). -/
def execDtlsHandshakeComplete (conn : Nat) (proof : ClientProof) (s : State) : Out :=
  .next <|
    match s.conn? conn with
    | none => s
    | some c =>
      let keyHash := sha384 proof.spki
      if c.phase != .handshaking || !portOn s c.port then s
      else if !proofOk proof then (s.dropConn conn).send (.dtlsClose conn)
      else if s.isCommissioning then s.setConn { c with phase := .authenticated, identity := 255, keyHash := keyHash }
      else match matchIdentity s keyHash with
        | some i => s.setConn { c with phase := .authenticated, identity := i, keyHash := keyHash }
        | none => (s.dropConn conn).send (.accessDenied conn)

/-- Handshake and `OPEN` have not both completed within 10 s. -/
def execHandshakeTimeout (conn : Nat) (s : State) : Out :=
  .next <| match s.conn? conn with
    | some c => if c.phase = .sessionOpen then s else s.dropConn conn
    | none => s

/-- A DTLS alert or failure ends the session of its connection (R104). -/
def execDtlsAlert (conn : Nat) (s : State) : Out :=
  .next <| match s.conn? conn with
    | some c => (if c.phase = .sessionOpen then endSession s c.slot else s).dropConn conn
    | none => s

/-! ### Requests in order (R129) -/

/-- The response to a request, kept in the cache of the last 16. -/
def respond (s : State) (k seq opcode count : Nat) (st : Status) (body : Bytes) : State :=
  let m := sehalHeader 2 seq opcode st.code 0 count ++ body
  let x := s.session k
  (s.setSession k { x with cache := ((seq, m) :: x.cache).take 16 }).send (.sehal k m)

/-- The lowest free Ethernet slot (R99). -/
def freeSlot (s : State) : Option Nat :=
  (List.range 8).find? fun k => !(s.session k).isOpen && !(decide (6 ≤ k) && s.flag (Od.canSessionEnabled (k - 6)))

/-- The role that an `OPEN` asks for is allowed to the connection's key (R100, R103). A connection authenticated while commissioning has
no entry: once commissioning has ended, no role is allowed on it (DESIGN CHOICE, assumption 88). -/
def roleAllowed (s : State) (c : Conn) (role : Nat) : Bool :=
  if c.identity = 255 then s.isCommissioning else s.nat (Od.allowedRoles c.identity) / 2 ^ (role - 1) % 2 = 1

/-- What refuses an `OPEN`, else the slot that it takes. -/
def openSlot (s : State) (c : Conn) (h : SehalHdr) (role subs : Nat) : Status × Nat :=
  if h.seq != 0 then (.state, 0)
  else if 2 ≤ h.flags || h.count != 0 then (.general, 0)
  else if role < 1 || 4 < role || 4 ≤ subs then (.range, 0)
  else if !roleAllowed s c role then (.role, 0)
  else match freeSlot s with
    | some k => (.ok, k)
    | none => (.resource, 0)

/-- An Ethernet session takes slot `k` (R99, R118). -/
def sessionBegin (s : State) (k : Nat) (c : Conn) (role subs : Nat) : State :=
  let x : Session := { isOpen := true, transport := c.port + 1, role := role, identity := c.identity, keyHash := c.keyHash, subs := subs,
                       commissioned := s.isCommissioning, openedAt := s.stampNow, conn := c.id, nextSeq := 1 }
  let s := (s.setSession k x).setConn { c with phase := .sessionOpen, slot := k }
  s.journalBy k 9 0 0 0

/-- Item statuses of a `READ` and the octets of its results (R128). -/
def readResults (s : State) (k : Nat) (items : List ReadItem) (shadow : Bool) : List (Status × Bytes) :=
  items.map fun it => readItem s k it.idx it.inst it.sub shadow

def encodeResults (rs : List (Status × Bytes)) : Bytes :=
  rs.flatMap fun r => leBytes 1 r.1.code ++ leBytes 2 r.2.length ++ r.2

def encodeFailed (n : Nat) (st : Status) : Bytes := (List.replicate n ()).flatMap fun _ => leBytes 1 st.code ++ leBytes 2 0

/-! ### Block transfers (R130, R131) -/

/-- The highest length of a `BLOCK` object; `none` for another object. -/
def blockMax (idx : Nat) : Option (Acc × Nat) :=
  match subRow idx 0 with
  | some r => (match r.ty with | .block m => some (r.acc, m) | _ => none)
  | none => none

/-- Another session has the object open for writing. -/
def openElsewhere (s : State) (k idx inst sub : Nat) : Bool :=
  (List.range 8).any fun j => j != k && match (s.session j).block with
    | some b => b.writing && b.idx = idx && b.inst = inst && b.sub = sub
    | none => false

/-- Capture data of a region that a running channel names is not stable (R440). -/
def captureBusy (s : State) (idx inst : Nat) : Bool :=
  idx = 0x6011 && (List.range 32).any fun d => s.nat (Od.dmaState d) = 1
    && (s.nat (Od.destRegion d) = inst || (s.nat (Od.sourceKind d) = 6 && s.nat (Od.sourceInstance d) = inst))

def setBlock (s : State) (k : Nat) (b : BlockXfer) : State :=
  s.setSession k { s.session k with block := some b, blockTimedOut := false }

def blockOpenRead (s : State) (k idx inst sub : Nat) (errors : List Nat) : Status × Nat × State :=
  if s.boot.recovery ∧ !servedInRecovery idx then (.state, 0, s)
  else if gated idx && s.beforeCalibrate then (.state, 0, s)
  else if captureBusy s idx inst then (.busy, 0, s)
  else
    let r := blockContent s idx inst errors
    if r.1.isEmpty then (.noData, 0, s)
    else (.ok, r.1.length, setBlock r.2 k ⟨idx, inst, sub, false, r.1.length, r.1, []⟩)

/-- The length that a block object is written with: a seed profile whole, an image up to its maximum. -/
def blockLengthOk (idx total max : Nat) : Bool := if idx = 0x5102 then total = max else decide (total ≤ max)

def blockOpenWrite (s : State) (k idx inst sub total max : Nat) : Status × Nat × State :=
  match writeGate s k idx inst sub 0 with
  | .ok =>
    if !blockLengthOk idx total max then (.range, 0, s)
    else if openElsewhere s k idx inst sub then (.busy, 0, s)
    else
      let s := setBlock s k ⟨idx, inst, sub, true, total, [], []⟩
      -- the slot that is not running reads `INVALID` from here (R131)
      (.ok, total, if idx = 0x7F00 then
        (let s := s.setSlotState (1 - s.boot.running) 1
         { s with boot := { s.boot with imageWriting := true } }) else s)
  | st => (st, 0, s)

/-- `BLOCK_OPEN`: the status, the total length, and the state. -/
def blockOpen (s : State) (k idx inst sub dir total : Nat) (errors : List Nat) : Status × Nat × State :=
  if (s.session k).block.isSome then (.busy, 0, s)
  else match addrStatus idx inst sub with
  | .ok =>
    match blockMax idx with
    | none => (.badType, 0, s)
    | some (acc, max) =>
      if 1 < dir then (.range, 0, s)
      else if dir = 0 then (if acc = .wo then (.writeOnly, 0, s) else blockOpenRead s k idx inst sub errors)
      else blockOpenWrite s k idx inst sub total max
  | st => (st, 0, s)

/-- What a request of a transfer gets that is not open: `OD_TIMEOUT` once after a timeout, else `OD_STATE`. -/
def noTransfer (s : State) (k : Nat) : Status × State :=
  if (s.session k).blockTimedOut then (.timeout, s.setSession k { s.session k with blockTimedOut := false }) else (.state, s)

def blockPiece (s : State) (k offset len : Nat) (data : Bytes) : Status × Bytes × State :=
  match (s.session k).block with
  | none => let r := noTransfer s k; (r.1, [], r.2)
  | some b =>
    if len < 1 || 1024 < len || b.total < offset + len then (.range, [], s)
    else if b.writing then
      (if data.length != len then (.general, [], s)
       else (.ok, [], setBlock s k { b with pieces := b.pieces ++ [(offset, data)] }))
    else if !data.isEmpty then (.general, [], s)
    else (.ok, (b.content.drop offset).take len, s)

/-- The octet at position `i` of what was written: the latest piece over it. -/
def writtenAt (pieces : List (Nat × Bytes)) (i : Nat) : Option (BitVec 8) :=
  pieces.foldl (fun acc p => if p.1 ≤ i then (match p.2[i - p.1]? with | some b => some b | none => acc) else acc) none

/-- The whole content, once every octet has been written. -/
def assembled (b : BlockXfer) : Option Bytes := (List.range b.total).mapM (writtenAt b.pieces)

/-- A written `BLOCK` takes effect: a seed profile enters the leaf's context; an image stands in flash already (R131, R403). -/
def blockWritten (s : State) (k : Nat) (b : BlockXfer) (content : Bytes) : State :=
  let s := s.journalBy k 1 b.idx b.inst b.sub
  if b.idx = 0x5102 then seedWritten s b.inst content else s

def blockClose (s : State) (k crc : Nat) : Status × State :=
  match (s.session k).block with
  | none => noTransfer s k
  | some b =>
    if !b.writing then (.ok, blockDropped s k)
    else match writeGate s k b.idx b.inst b.sub 0 with
      | .ok =>
        (match assembled b with
         | some content => if crc32 content = crc then (.ok, blockWritten (blockDropped s k) k b content) else (.inconsistent, s)
         | none => (.inconsistent, s))
      | st => (st, s)

def blockAbort (s : State) (k : Nat) : Status × State :=
  match (s.session k).block with
  | none => noTransfer s k
  | some _ => (.ok, blockDropped s k)

/-- No piece arrives for `BlockTimeout`. -/
def execBlockTimeout (k : Nat) (s : State) : Out :=
  onUnit (k < 8) s fun s =>
    match (s.session k).block with
    | none => s
    | some _ =>
      let s := blockDropped s k
      s.setSession k { s.session k with blockTimedOut := true }

/-! ### One request (R127, R128) -/

def requestCode : SehalBody → Nat
  | .openReq _ _ => 1 | .closeReq => 2 | .readReq _ => 3 | .writeReq _ => 4 | .blockOpen _ _ _ _ _ _ => 5 | .blockPiece _ _ _ => 6
  | .blockClose _ => 7 | .blockAbort => 8 | .nop => 9 | .unknown o => o

/-- The octets of a request's body (R127). -/
def requestOctets : SehalBody → Nat
  | .openReq _ _ => 2 | .readReq items => 7 * items.length | .writeReq items => (items.map fun i => 9 + i.value.length).sum
  | .blockOpen _ _ _ _ _ _ => 12 | .blockPiece _ _ data => 6 + data.length | .blockClose _ => 4 | _ => 0

/-- At most 1,200 octets with the header (R126), a known opcode, no reserved flag, and a body that agrees with Count (R127). -/
def wellFormedRequest (h : SehalHdr) (b : SehalBody) : Bool :=
  decide (8 + requestOctets b ≤ 1200) && decide (h.flags < 2) && match b with
    | .readReq items => items.length = h.count
    | .writeReq items => items.length = h.count
    | .unknown _ => false
    | _ => h.count = 0

/-- A die does not answer within 10 ms: the request ends with `OD_HARDWARE`, which raises `DIE_NO_RESPONSE`; a write may or may not have
been applied (R97, R98). -/
def deadRequest (s : State) (k d : Nat) (b : SehalBody) : Status × Nat × Bytes × State :=
  let r := s.freeNat
  match b with
  | .readReq items => (.hardware, items.length, encodeFailed items.length .hardware, (s.raise (0x40 + d % 27)))
  | .writeReq items => (.hardware, 0, leBytes 1 0, (if r.1 % 2 = 1 then (writeRequest r.2 k items).2.2 else r.2).raise (0x40 + d % 27))
  | _ => (.hardware, 0, [], s.raise (0x40 + d % 27))

/-- Serve a request of session `k`: its status, the Count and body of the response, and the state. -/
def serve (s : State) (k : Nat) (h : SehalHdr) (b : SehalBody) : Status × Nat × Bytes × State :=
  if !wellFormedRequest h b then (.general, 0, [], s) else
  match h.deadDie with
  | some d => deadRequest s k d b
  | none =>
    match b with
    | .openReq _ _ => (.state, 0, [], s)
    | .closeReq => (.ok, 0, [], s)
    | .nop => (.ok, 0, [], s)
    | .unknown _ => (.general, 0, [], s)
    | .readReq items =>
      let rs := readResults s k items (h.flags % 2 = 1)
      let body := encodeResults rs
      if 1200 < 8 + body.length then (.resource, 0, [], s)
      else (((firstBad (rs.map (·.1)) 0).elim .ok (·.2)), rs.length, body, s)
    | .writeReq items => let r := writeRequest s k items; (r.2.1, 0, leBytes 1 r.1, r.2.2)
    | .blockOpen idx inst sub dir total errors =>
      let r := blockOpen s k idx inst sub dir total errors
      (r.1, 0, if r.1 = .ok then leBytes 4 r.2.1 else [], r.2.2)
    | .blockPiece offset len data => let r := blockPiece s k offset len data; (r.1, 0, r.2.1, r.2.2)
    | .blockClose crc => let r := blockClose s k crc; (r.1, 0, [], r.2)
    | .blockAbort => let r := blockAbort s k; (r.1, 0, [], r.2)

/-- Execute the next request: its outcome, its response, and the place in the sequence. A session that the request ended gets no
response; a `CLOSE` is answered first. -/
def serveNext (s : State) (k : Nat) (h : SehalHdr) (b : SehalBody) : State :=
  let r := serve (s.countEv 7 0 3 1) k h b
  let t := r.2.2.2
  if !(t.session k).isOpen || !t.serving then t else
  let t := if r.1 = .ok then t else t.refuse k r.1
  let t := t.setSession k { t.session k with nextSeq := (h.seq + 1) % 65536 }
  let t := respond t k h.seq (requestCode b) r.2.1 r.1 r.2.2.1
  if b = .closeReq && r.1 = .ok then endSession t k else t

/-- The buffered requests that follow without a gap (R129). -/
def serveBuffered : Nat → Nat → State → State
  | 0, _, s => s
  | n + 1, k, s =>
    let x := s.session k
    match x.buffered.find? fun p => p.1.seq = x.nextSeq with
    | none => s
    | some p =>
      if !x.isOpen || !s.serving then s else
      let s := s.setSession k { x with buffered := x.buffered.filter fun q => q.1.seq != p.1.seq }
      serveBuffered n k (serveNext s k p.1 p.2)

/-- A request of an open session, by its place in the window (R129). -/
def request (s : State) (k port : Nat) (h : SehalHdr) (b : SehalBody) : State :=
  let x := s.session k
  let d := (h.seq + 65536 - x.nextSeq) % 65536
  if d = 0 then serveBuffered 8 k (serveNext s k h b)
  else if d ≤ 7 then
    (if x.buffered.any fun p => p.1.seq = h.seq then s else s.setSession k { x with buffered := x.buffered ++ [(h, b)] })
  else if 65520 ≤ d then
    (match x.cache.find? fun p => p.1 = h.seq with
     | some p => s.send (.sehal k p.2)
     | none => s)
  else s.bump (Od.discardedDatagrams port)

/-- A request that arrives on a connection: before the session is open only `OPEN` is expected (R129). -/
def onConn (s : State) (conn : Nat) (h : SehalHdr) (b : SehalBody) : State :=
  match s.conn? conn with
  | none => s
  | some c =>
    if !portOn s c.port then s else
    match c.phase with
    | .sessionOpen => request s c.slot c.port h b
    | .authenticated => s.send (.sehalConn conn (sehalHeader 2 h.seq (requestCode b) Status.state.code 0 0))
    | _ => s

/-! ### The rows -/

/-- `OPEN`: it takes a slot, or is answered with its refusal and the connection closes (R99, R100, R129). -/
def execSehalOpen (conn : Nat) (h : SehalHdr) (role subs : Nat) (s : State) : Out :=
  .next <|
    match s.conn? conn with
    | none => s
    | some c =>
      if !portOn s c.port then s
      else if c.phase != .authenticated then onConn s conn h (.openReq role subs)
      else
        let r := openSlot s c h role subs
        if r.1 = .ok then
          respond ((sessionBegin s r.2 c role subs).countEv 7 0 3 1) r.2 0 1 0 .ok (leBytes 1 r.2 ++ leBytes 2 (s.nat Od.idleTimeout))
        else ((s.send (.sehalConn conn (sehalHeader 2 h.seq 1 r.1.code 0 0))).dropConn conn).send (.dtlsClose conn)

def execSehalClose (conn : Nat) (h : SehalHdr) (s : State) : Out := .next (onConn s conn h .closeReq)
def execSehalRead (conn : Nat) (h : SehalHdr) (items : List ReadItem) (s : State) : Out := .next (onConn s conn h (.readReq items))
def execSehalWrite (conn : Nat) (h : SehalHdr) (items : List WriteItem) (s : State) : Out := .next (onConn s conn h (.writeReq items))
def execBlockOpen (conn : Nat) (h : SehalHdr) (idx inst sub dir total : Nat) (errors : List Nat) (s : State) : Out :=
  .next (onConn s conn h (.blockOpen idx inst sub dir total errors))
def execBlockPiece (conn : Nat) (h : SehalHdr) (offset len : Nat) (data : Bytes) (s : State) : Out :=
  .next (onConn s conn h (.blockPiece offset len data))
def execBlockClose (conn : Nat) (h : SehalHdr) (crc : Nat) (s : State) : Out := .next (onConn s conn h (.blockClose crc))
def execBlockAbort (conn : Nat) (h : SehalHdr) (s : State) : Out := .next (onConn s conn h .blockAbort)
def execSehalNop (conn : Nat) (h : SehalHdr) (s : State) : Out := .next (onConn s conn h .nop)

/-- An Ethernet session has made no request for `IdleTimeout` (R104). -/
def execIdleTimeout (k : Nat) (s : State) : Out :=
  onUnit (k < 8) s fun s => if (s.session k).transport = 1 || (s.session k).transport = 2 then endSession s k else s

/-! ### The management ports (R122–R124) -/

/-- The link-local address of a port: fe80::/64 with the modified EUI-64 of its MAC address (RFC 4291; PRESUMED, assumption 29). -/
def linkLocal (p : Nat) : Bytes :=
  let m := Config.macAddress p
  [0xFE, 0x80, 0, 0, 0, 0, 0, 0, m.getD 0 0 ^^^ 2, m.getD 1 0, m.getD 2 0, 0xFF, 0xFE, m.getD 3 0, m.getD 4 0, m.getD 5 0]

/-- An address of port `p`: its IPv4 address, or its link-local or global IPv6 address; zeros stand for none (R123, R149). -/
def isV4 (s : State) (p : Nat) (a : Bytes) : Bool := a = (s.mgmtPort p).conf.ipv4 && a.any (· != 0)
def isV6 (s : State) (p : Nat) (a : Bytes) : Bool := a = linkLocal p || (a = (s.mgmtPort p).conf.ipv6 && a.any (· != 0))
def ourAddress (s : State) (p : Nat) (v6 : Bool) (a : Bytes) : Bool := if v6 then isV6 s p a else isV4 s p a

/-- A frame that port `p` answers. -/
def answered (s : State) (p : Nat) : MgmtFrame → Bool
  | .arp a => isV4 s p a
  | .neighbour a => isV6 s p a
  | .echo v6 a _ => ourAddress s p v6 a
  | _ => false

/-- A frame on port `p`: answered, passed to Sehal, or discarded and counted (R123, R126). The request of a Sehal message is a command
of its own; one with an unknown opcode comes here with its connection. -/
def execMgmtFrameReceived (p : Nat) (f : MgmtFrame) (s : State) : Out :=
  onUnit (p < 2) s fun s =>
    if !portOn s p then s
    else if answered s p f then s.send (.reply p f)
    else match f with
    | .sehal v6 a port version =>
      if ourAddress s p v6 a && port = s.nat Od.udpPort && version = 1 then s else s.bump (Od.discardedDatagrams p)
    | .unknownRequest conn h opcode =>
      if (s.conn? conn).any fun c => c.port = p then onConn s conn h (.unknown opcode) else s.bump (Od.discardedDatagrams p)
    | _ => s.bump (Od.discardedDatagrams p)

/-- Every session and connection of a management port ends. -/
def portSessionsEnd (s : State) (p : Nat) : State :=
  let s := (List.range 8).foldl (fun s k => if (s.session k).transport = p + 1 then endSession s k else s) s
  { s with conns := s.conns.filter fun c => c.port != p }

/-- A written configuration of port `p` takes effect; `Mode` 0 takes the link down. -/
def portConfigured (s : State) (p : Nat) (c : MgmtConf) (rest : List MgmtConf) : State :=
  let s := (portSessionsEnd s p).setMgmtPort p { conf := c, waiting := rest }
  if c.mode = 0 then s.setB (Od.linkUp p) false else s

/-- 100 ms after a write to 1100h[p], the oldest that waits. -/
def execMgmtPortConfigApply (p : Nat) (s : State) : Out :=
  onUnit (p < 2) s fun s =>
    match (s.mgmtPort p).waiting with
    | [] => s
    | c :: rest => portConfigured s p c rest

/-- The PCS link of a port is established or lost. -/
def execMgmtLinkChange (p : Nat) (up : Bool) (s : State) : Out :=
  onUnit (p < 2) s fun s => s.setB (Od.linkUp p) (up && (s.mgmtPort p).conf.mode != 0)

end Sys2Proof.Machine
end

