-- ==== Sys2Proof/Machine/Can.lean ====
section
/-! DEFINITION. CAN FD access: ports and their sessions, the SDO server, TPDOs, EMCY and heartbeat (R101, R134–R141). -/

namespace Sys2Proof.Machine

/-- The port runs and its session is open. -/
def canLive (s : State) (p : Nat) : Bool := (s.canPort p).started && (s.session (canSlot p)).isOpen && s.serving

/-! ### Port start, heartbeat (R136) -/

def execCanPortStart (p : Nat) (s : State) : Out :=
  onUnit (p < 2) s fun s =>
    if (s.canPort p).startPending && s.flag (Od.canSessionEnabled p) && s.serving then canStart s p else s

def execHeartbeat (p : Nat) (s : State) : Out :=
  onUnit (p < 2) s fun s =>
    if (s.canPort p).started && s.serving && s.nat Od.producerHeartbeatTime != 0 then canSend s p 0x700 [5] else s

/-- NMT commands and remote frames are ignored. -/
def execCanNmtFrame (p : Nat) (s : State) : Out := onUnit (p < 2) s fun s => s

/-- The controller enters bus-off, and recovers by itself (R134). -/
def execCanBusOff (p : Nat) (s : State) : Out := onUnit (p < 2) s fun s => s.bump (Od.busOffs p)
def execCanErrorPassive (p : Nat) (s : State) : Out := onUnit (p < 2) s fun s => s.bump (Od.errorPassiveEntries p)

/-! ### The SDO server (R137, R138) -/

/-- The instance of an SDO: `Instance` of the session for an object with more than one (R138). -/
def sdoInstance (s : State) (p idx : Nat) : Nat :=
  match objRow idx with
  | some r => if 1 < r.units then (s.session (canSlot p)).canInst else 0
  | none => 0

def setSdo (s : State) (p : Nat) (x : Option SdoXfer) : State := s.setCanPort p { s.canPort p with sdo := x }

/-- A request for this port (R134, R135): an ISO frame of the COB-ID 0x600 + NodeId with 11 bits. -/
def sdoForUs (s : State) (p : Nat) (f : SdoFrame) : Bool := !f.extended && !f.nonIso && f.cobId = 0x600 + s.nat (Od.nodeId p)

/-- Serve an SDO request: other frames are ignored. -/
def onSdo (p : Nat) (f : SdoFrame) (s : State) (g : State → State) : Out :=
  onUnit (p < 2) s fun s => if canLive s p && sdoForUs s p f then g s else s

/-- Send an SDO response in the format of its request (R137). -/
def sdoSend (s : State) (p : Nat) (fd : Bool) (data : Bytes) : State := s.send (.can p (0x580 + s.nat (Od.nodeId p)) fd data)

/-- An SDO response: command octet, index and sub, and four octets of data. -/
def sdoReply (s : State) (p : Nat) (fd : Bool) (cmd idx sub data : Nat) : State :=
  sdoSend s p fd (leBytes 1 cmd ++ leBytes 2 idx ++ leBytes 1 sub ++ leBytes 4 data)

/-- Abort a transfer with an abort code; `st` becomes `LastStatus`. -/
def sdoAbort (s : State) (p : Nat) (fd : Bool) (idx sub code : Nat) (st : Status) : State :=
  (sdoReply ((setSdo s p none).bump (Od.sdoAborts p)) p fd 0x80 idx sub code).refuse (canSlot p) st

/-- The whole value of a download is written. A die that does not answer ends it with `OD_HARDWARE`: the value may or may not have been
applied (R97, R98). -/
def sdoWrite (s : State) (p idx sub : Nat) (data : Bytes) (dead : Option Nat) : Status × State :=
  let items : List WriteItem := [⟨idx, sdoInstance s p idx, sub, data⟩]
  match dead with
  | none => (writeRequest s (canSlot p) items).2
  | some d => let r := deadRequest s (canSlot p) d (.writeReq items); (r.1, r.2.2.2.refuse (canSlot p) r.1)

/-- A download has its effect: confirmed, or aborted with the code of its status. A module that the write reset answers nothing, and
neither does a port whose session the write ended. -/
def sdoFinish (s : State) (p : Nat) (f : SdoFrame) (idx sub : Nat) (data confirm : Bytes) : State :=
  let node := s.nat (Od.nodeId p)
  let r := sdoWrite (setSdo s p none) p idx sub data f.deadDie
  if !r.2.serving then r.2
  else if r.1 = .ok then r.2.send (.can p (0x580 + node) f.fd confirm)
  else sdoReply (r.2.bump (Od.sdoAborts p)) p f.fd 0x80 idx sub r.1.abort

/-- Initiate a download: `size` is the indicated size, `data` the octets of an expedited one. -/
def sdoDownload (s : State) (p : Nat) (f : SdoFrame) (idx sub : Nat) (size : Option Nat) (expedited : Bool) (data : Bytes) : State :=
  let s := setSdo s p none
  match size with
  | none => sdoAbort s p f.fd idx sub 0x06070010 .general
  | some n =>
    let confirm := leBytes 1 0x60 ++ leBytes 2 idx ++ leBytes 1 sub ++ leBytes 4 0
    if expedited then sdoFinish s p f idx sub (data.take (min n 4)) confirm
    else sdoSend (setSdo s p (some { download := true, idx := idx, sub := sub, total := n, data := [], fd := f.fd })) p f.fd confirm

def execSdoDownloadInitiate (p : Nat) (f : SdoFrame) (idx sub : Nat) (size : Option Nat) (expedited : Bool) (data : Bytes) (s : State) : Out :=
  onSdo p f s fun s => sdoDownload s p f idx sub size expedited data

/-- A segment of a download. -/
def sdoDownloadSegment (s : State) (p : Nat) (f : SdoFrame) (toggle : Bool) (data : Bytes) (last : Bool) : State :=
  match (s.canPort p).sdo with
  | none => sdoAbort s p f.fd 0 0 0x05040001 .general
  | some x =>
    if !x.download then sdoAbort s p f.fd x.idx x.sub 0x05040001 .general
    else if toggle != x.toggle then sdoAbort s p f.fd x.idx x.sub 0x05030000 .general
    else
      let all := x.data ++ data.take 7
      let confirm := leBytes 1 (0x20 + if toggle then 0x10 else 0) ++ List.replicate 7 0
      if x.total < all.length || (last && all.length != x.total) then sdoAbort s p f.fd x.idx x.sub 0x06070010 .general
      else if last then sdoFinish s p f x.idx x.sub all confirm
      else sdoSend (setSdo s p (some { x with data := all, toggle := !toggle, fd := f.fd })) p f.fd confirm

def execSdoDownloadSegment (p : Nat) (f : SdoFrame) (toggle : Bool) (data : Bytes) (last : Bool) (s : State) : Out :=
  onSdo p f s fun s => sdoDownloadSegment s p f toggle data last

/-- The value of an upload, or its refusal; a die that does not answer gives `OD_HARDWARE` (R97). -/
def sdoRead (s : State) (p idx sub : Nat) (dead : Option Nat) : Status × Bytes × State :=
  let k := canSlot p
  let items : List ReadItem := [⟨idx, sdoInstance s p idx, sub⟩]
  match dead with
  | some d => let r := deadRequest s k d (.readReq items); (r.1, [], r.2.2.2)
  | none => let r := readItem s k idx (sdoInstance s p idx) sub (s.session k).shadowView; (r.1, r.2, s)

/-- Initiate an upload: the value is captured here; up to 4 octets go in this frame. -/
def sdoUpload (s : State) (p : Nat) (f : SdoFrame) (idx sub : Nat) : State :=
  let r := sdoRead (setSdo s p none) p idx sub f.deadDie
  let v := r.2.1
  let s := r.2.2
  if r.1 != .ok then sdoAbort s p f.fd idx sub r.1.abort r.1
  else if 1 ≤ v.length ∧ v.length ≤ 4 then sdoReply s p f.fd (0x43 + 4 * (4 - v.length)) idx sub (leNat v)
  else
    let x : SdoXfer := { download := false, idx := idx, sub := sub, total := v.length, data := v, fd := f.fd }
    sdoReply (setSdo s p (some x)) p f.fd 0x41 idx sub v.length

def execSdoUploadInitiate (p : Nat) (f : SdoFrame) (idx sub : Nat) (s : State) : Out := onSdo p f s fun s => sdoUpload s p f idx sub

/-- The next segment of an upload: up to 7 octets. -/
def sdoUploadSegment (s : State) (p : Nat) (f : SdoFrame) (toggle : Bool) : State :=
  match (s.canPort p).sdo with
  | none => sdoAbort s p f.fd 0 0 0x05040001 .general
  | some x =>
    if x.download then sdoAbort s p f.fd x.idx x.sub 0x05040001 .general
    else if toggle != x.toggle then sdoAbort s p f.fd x.idx x.sub 0x05030000 .general
    else
      let part := x.data.take 7
      let rest := x.data.drop 7
      let cmd := (if toggle then 0x10 else 0) + 2 * (7 - part.length) + (if rest.isEmpty then 1 else 0)
      let s := setSdo s p (if rest.isEmpty then none else some { x with data := rest, toggle := !toggle, fd := f.fd })
      sdoSend s p f.fd (leBytes 1 cmd ++ part ++ List.replicate (7 - part.length) 0)

def execSdoUploadSegment (p : Nat) (f : SdoFrame) (toggle : Bool) (s : State) : Out := onSdo p f s fun s => sdoUploadSegment s p f toggle

/-- Block SDO is refused. -/
def execSdoBlockRequest (p : Nat) (f : SdoFrame) (idx sub : Nat) (s : State) : Out :=
  onSdo p f s fun s => (sdoReply (s.bump (Od.sdoAborts p)) p f.fd 0x80 idx sub 0x05040001).refuse (canSlot p) .general

/-- The gap between segments exceeds 1 s. -/
def execSdoSegmentTimeout (p : Nat) (s : State) : Out :=
  onUnit (p < 2) s fun s =>
    match (s.canPort p).sdo with
    | some x => if canLive s p then sdoAbort s p x.fd x.idx x.sub 0x05040000 .general else s
    | none => s

/-! ### TPDOs (R139, R140) -/

def State.tpdo (s : State) (p j : Nat) : Tpdo := Tbl.get (fun _ => {}) (s.canPort p).tpdo j
def setTpdo (s : State) (p j : Nat) (x : Tpdo) : State :=
  s.setCanPort p { s.canPort p with tpdo := Tbl.put (fun _ => {}) (s.canPort p).tpdo j x }

/-- A TPDO that works: its `CobId` is valid and it maps something. -/
def tpdoOn (s : State) (p j : Nat) : Bool :=
  canLive s p && decide (j < 4) && decide (cobIdOf s j p < 2 ^ 31) && s.nat (Od.tpdoMapCount j p) != 0

/-- The octets of one mapped value: as many as its entry says. -/
def mappedValue (s : State) (p e : Nat) : Bytes :=
  let m := tpdoEntryBits e
  let v := (readItem s (canSlot p) m.1 m.2.2.1 m.2.1 false).2
  let n := m.2.2.2 / 8
  (v ++ List.replicate n 0).take n

/-- The mapped values, sampled together. -/
def tpdoPayload (s : State) (p j : Nat) : Bytes :=
  (List.range (s.nat (Od.tpdoMapCount j p))).flatMap fun i => mappedValue s p (s.nat (Od.tpdoEntry j p i))

/-- The frame length that holds `n` octets: a classic frame up to 8, else the next FD length. -/
def fdLength (n : Nat) : Nat :=
  if n ≤ 8 then n else if n ≤ 12 then 12 else if n ≤ 16 then 16 else if n ≤ 20 then 20 else if n ≤ 24 then 24
  else if n ≤ 32 then 32 else if n ≤ 48 then 48 else 64

/-- Send a TPDO; its inhibit time starts. -/
def tpdoSend (s : State) (p j : Nat) (v : Bytes) : State :=
  let s := s.send (.can p (cobIdOf s j p % 2048) (decide (8 < v.length)) (v ++ List.replicate (fdLength v.length - v.length) 0))
  setTpdo s p j { s.tpdo p j with last := some v, inhibited := s.nat (Od.inhibitTime j p) != 0, waiting := false }

/-- The values of the last 1 ms sample differ from those last sent: they are sent, or wait for the inhibit time. -/
def tpdoJudge (s : State) (p j : Nat) : State :=
  let x := s.tpdo p j
  match x.sample with
  | none => s
  | some v =>
    if x.last = some v then s
    else if x.inhibited then setTpdo s p j { x with waiting := true }
    else tpdoSend s p j v

/-- One sample of a TPDO. -/
def tpdoSample (s : State) (p j : Nat) : State :=
  if !tpdoOn s p j then s else
  tpdoJudge (setTpdo s p j { s.tpdo p j with sample := some (tpdoPayload s p j) }) p j

def execTpdoSample (s : State) : Out :=
  .next ((List.range 4).foldl (fun s j => tpdoSample s 1 j) ((List.range 4).foldl (fun s j => tpdoSample s 0 j) s))

/-- `EventTimer` has run since the last transmission: the values of the last sample are sent; before the first sample, the present ones. -/
def execTpdoEventTimer (p j : Nat) (s : State) : Out :=
  onUnit (p < 2 && j < 4) s fun s =>
    if tpdoOn s p j && s.nat (Od.eventTimer j p) != 0 then tpdoSend s p j ((s.tpdo p j).sample.getD (tpdoPayload s p j)) else s

/-- `InhibitTime` ends: a change that waits is sent. -/
def execTpdoInhibitExpired (p j : Nat) (s : State) : Out :=
  onUnit (p < 2 && j < 4) s fun s =>
    let x := s.tpdo p j
    let s := setTpdo s p j { x with inhibited := false, waiting := false }
    if x.waiting && tpdoOn s p j then tpdoJudge s p j else s

/-! ### EMCY (R141) -/

/-- `InhibitTimeEmcy` passes: the next waiting message is sent. -/
def execEmcyInhibitExpired (p : Nat) (s : State) : Out :=
  onUnit (p < 2) s fun s =>
    let c := s.canPort p
    match c.emcy with
    | [] => s.setCanPort p { c with emcyInhibit := false }
    | (key, raised, m) :: rest =>
      let s := (canSend s p 0x080 m).setCanPort p { c with emcy := rest, emcyInhibit := s.nat Od.inhibitTimeEmcy != 0 }
      if raised then s.delivered key else s

end Sys2Proof.Machine
end

