-- ==== Sys2Proof/Machine/Dispatch.lean ====
section
/-! DEFINITION. What each command does: one arm per constructor, each one direct call of its meaning. -/

namespace Sys2Proof.Machine

/-- The effect of one command on everything but the queue of waiting commands. -/
def exec (i : Instr) (s : State) : Host.Outcome State Fault Refusal :=
  match i with
  | .aux3v3InRange spoiled => Sys2Proof.Machine.execAux3v3InRange spoiled s
  | .managementFirmwareReady => Sys2Proof.Machine.execManagementFirmwareReady s
  | .firmwareReadyTimeout => Sys2Proof.Machine.execFirmwareReadyTimeout s
  | .aux3v3Loss torn => Sys2Proof.Machine.execAux3v3Loss torn s
  | .pwrEnAsserted vin => Sys2Proof.Machine.execPwrEnAsserted vin s
  | .vin12EntersRange => Sys2Proof.Machine.execVin12EntersRange s
  | .pwrEnNegated => Sys2Proof.Machine.execPwrEnNegated s
  | .railsGood => Sys2Proof.Machine.execRailsGood s
  | .railGoodTimeout => Sys2Proof.Machine.execRailGoodTimeout s
  | .vin12Undervoltage => Sys2Proof.Machine.execVin12Undervoltage s
  | .vin12Overvoltage => Sys2Proof.Machine.execVin12Overvoltage s
  | .regulatorsOff => Sys2Proof.Machine.execRegulatorsOff s
  | .resetNAsserted => Sys2Proof.Machine.execResetNAsserted s
  | .resetNReleased spoiled => Sys2Proof.Machine.execResetNReleased spoiled s
  | .datapathPartStreamed ok => Sys2Proof.Machine.execDatapathPartStreamed ok s
  | .dieLinksTrained => Sys2Proof.Machine.execDieLinksTrained s
  | .stockpotInitialised => Sys2Proof.Machine.execStockpotInitialised s
  | .savedConfigApplied refused => Sys2Proof.Machine.execSavedConfigApplied refused s
  | .bootPowerUpDone => Sys2Proof.Machine.execBootPowerUpDone s
  | .calibrationStepDone n r => Sys2Proof.Machine.execCalibrationStepDone n r s
  | .carrierCalibrationEnd n => Sys2Proof.Machine.execCarrierCalibrationEnd n s
  | .heldEnableRelease n => Sys2Proof.Machine.execHeldEnableRelease n s
  | .noLightLineUsable n power => Sys2Proof.Machine.execNoLightLineUsable n power s
  | .managementReset k => Sys2Proof.Machine.execManagementReset k s
  | .fullResetCommand k => Sys2Proof.Machine.execFullResetCommand k s
  | .managementResetDone => Sys2Proof.Machine.execManagementResetDone s
  | .engineReset k n => Sys2Proof.Machine.execEngineReset k n s
  | .laneGroupReset k g => Sys2Proof.Machine.execLaneGroupReset k g s
  | .recalibrate k n => Sys2Proof.Machine.execRecalibrate k n s
  | .configSave k => Sys2Proof.Machine.execConfigSave k s
  | .configErase k => Sys2Proof.Machine.execConfigErase k s
  | .firmwareVerify k ok version security datapath => Sys2Proof.Machine.execFirmwareVerify k ok version security datapath s
  | .firmwareActivate k => Sys2Proof.Machine.execFirmwareActivate k s
  | .firmwareConfirm k => Sys2Proof.Machine.execFirmwareConfirm k s
  | .firmwareSwapPreferred k => Sys2Proof.Machine.execFirmwareSwapPreferred k s
  | .trialTimeout => Sys2Proof.Machine.execTrialTimeout s
  | .deferredTrialReset => Sys2Proof.Machine.execDeferredTrialReset s
  | .thermalSample r => Sys2Proof.Machine.execThermalSample r s
  | .graceTimeExpired => Sys2Proof.Machine.execGraceTimeExpired s
  | .shedIntervalExpired => Sys2Proof.Machine.execShedIntervalExpired s
  | .exitHoldExpired => Sys2Proof.Machine.execExitHoldExpired s
  | .clearThermalPeaks k => Sys2Proof.Machine.execClearThermalPeaks k s
  | .dtlsClientHello conn port cookie offer => Sys2Proof.Machine.execDtlsClientHello conn port cookie offer s
  | .dtlsHandshakeComplete conn proof => Sys2Proof.Machine.execDtlsHandshakeComplete conn proof s
  | .handshakeTimeout conn => Sys2Proof.Machine.execHandshakeTimeout conn s
  | .dtlsAlert conn => Sys2Proof.Machine.execDtlsAlert conn s
  | .sehalOpen conn h role subs => Sys2Proof.Machine.execSehalOpen conn h role subs s
  | .sehalClose conn h => Sys2Proof.Machine.execSehalClose conn h s
  | .sehalRead conn h items => Sys2Proof.Machine.execSehalRead conn h items s
  | .sehalWrite conn h items => Sys2Proof.Machine.execSehalWrite conn h items s
  | .blockOpen conn h idx inst sub dir total errors => Sys2Proof.Machine.execBlockOpen conn h idx inst sub dir total errors s
  | .blockPiece conn h offset len data => Sys2Proof.Machine.execBlockPiece conn h offset len data s
  | .blockClose conn h crc => Sys2Proof.Machine.execBlockClose conn h crc s
  | .blockAbort conn h => Sys2Proof.Machine.execBlockAbort conn h s
  | .sehalNop conn h => Sys2Proof.Machine.execSehalNop conn h s
  | .blockTimeout k => Sys2Proof.Machine.execBlockTimeout k s
  | .idleTimeout k => Sys2Proof.Machine.execIdleTimeout k s
  | .mgmtFrameReceived p f => Sys2Proof.Machine.execMgmtFrameReceived p f s
  | .mgmtPortConfigApply p => Sys2Proof.Machine.execMgmtPortConfigApply p s
  | .closeSession k x => Sys2Proof.Machine.execCloseSession k x s
  | .identityCommand k => Sys2Proof.Machine.execIdentityCommand k s
  | .identityEnableWrite k items => Sys2Proof.Machine.execIdentityEnableWrite k items s
  | .ownershipClaim k x => Sys2Proof.Machine.execOwnershipClaim k x s
  | .ownershipRelease k x => Sys2Proof.Machine.execOwnershipRelease k x s
  | .ownershipForceRelease k x => Sys2Proof.Machine.execOwnershipForceRelease k x s
  | .releaseMine k => Sys2Proof.Machine.execReleaseMine k s
  | .commitArm k n => Sys2Proof.Machine.execCommitArm k n s
  | .commitCancel k n => Sys2Proof.Machine.execCommitCancel k n s
  | .commitRevert k n => Sys2Proof.Machine.execCommitRevert k n s
  | .groupArm k => Sys2Proof.Machine.execGroupArm k s
  | .groupCancel k => Sys2Proof.Machine.execGroupCancel k s
  | .groupDecisionTime targets => Sys2Proof.Machine.execGroupDecisionTime targets s
  | .peerTimeout n auto => Sys2Proof.Machine.execPeerTimeout n auto s
  | .countdownStart n => Sys2Proof.Machine.execCountdownStart n s
  | .commitCopy n auto => Sys2Proof.Machine.execCommitCopy n auto s
  | .moduleScopeTarget => Sys2Proof.Machine.execModuleScopeTarget s
  | .objectWrite k items => Sys2Proof.Machine.execObjectWrite k items s
  | .sdoDownloadInitiate p f idx sub size expedited data => Sys2Proof.Machine.execSdoDownloadInitiate p f idx sub size expedited data s
  | .sdoDownloadSegment p f toggle data last => Sys2Proof.Machine.execSdoDownloadSegment p f toggle data last s
  | .sdoUploadInitiate p f idx sub => Sys2Proof.Machine.execSdoUploadInitiate p f idx sub s
  | .sdoUploadSegment p f toggle => Sys2Proof.Machine.execSdoUploadSegment p f toggle s
  | .sdoBlockRequest p f idx sub => Sys2Proof.Machine.execSdoBlockRequest p f idx sub s
  | .sdoSegmentTimeout p => Sys2Proof.Machine.execSdoSegmentTimeout p s
  | .canNmtFrame p => Sys2Proof.Machine.execCanNmtFrame p s
  | .canPortStart p => Sys2Proof.Machine.execCanPortStart p s
  | .canSessionReconfigure k p sub value => Sys2Proof.Machine.execCanSessionReconfigure k p sub value s
  | .canAccessWrite k sub value => Sys2Proof.Machine.execCanAccessWrite k sub value s
  | .heartbeat p => Sys2Proof.Machine.execHeartbeat p s
  | .tpdoSample => Sys2Proof.Machine.execTpdoSample s
  | .tpdoEventTimer p j => Sys2Proof.Machine.execTpdoEventTimer p j s
  | .tpdoInhibitExpired p j => Sys2Proof.Machine.execTpdoInhibitExpired p j s
  | .emcyInhibitExpired p => Sys2Proof.Machine.execEmcyInhibitExpired p s
  | .canBusOff p => Sys2Proof.Machine.execCanBusOff p s
  | .eventHoldExpired addr bit => Sys2Proof.Machine.execEventHoldExpired addr bit s
  | .combLineLost n power => Sys2Proof.Machine.execCombLineLost n power s
  | .combLineReturn n power => Sys2Proof.Machine.execCombLineReturn n power s
  | .combLineStable n => Sys2Proof.Machine.execCombLineStable n s
  | .biasLockAchieved n bias => Sys2Proof.Machine.execBiasLockAchieved n bias s
  | .launchRampDone n => Sys2Proof.Machine.execLaunchRampDone n s
  | .carrierEnable k n => Sys2Proof.Machine.execCarrierEnable k n s
  | .carrierDisable k n => Sys2Proof.Machine.execCarrierDisable k n s
  | .portLightChange k p source anchor spacing => Sys2Proof.Machine.execPortLightChange k p source anchor spacing s
  | .biasErrorTimer n out => Sys2Proof.Machine.execBiasErrorTimer n out s
  | .heaterLimitTimer n limit tx lo => Sys2Proof.Machine.execHeaterLimitTimer n limit tx lo s
  | .losSignalTimer n low power => Sys2Proof.Machine.execLosSignalTimer n low power s
  | .rxOverloadTimer n high power => Sys2Proof.Machine.execRxOverloadTimer n high power s
  | .agcWindowEnd n rms means clips light => Sys2Proof.Machine.execAgcWindowEnd n rms means clips light s
  | .frontEndFadeDone n tx => Sys2Proof.Machine.execFrontEndFadeDone n tx s
  | .acquisitionStepDone n a => Sys2Proof.Machine.execAcquisitionStepDone n a s
  | .acquisitionStepTimeout n => Sys2Proof.Machine.execAcquisitionStepTimeout n s
  | .rxLolTimer n => Sys2Proof.Machine.execRxLolTimer n s
  | .warmHoldExpired n => Sys2Proof.Machine.execWarmHoldExpired n s
  | .warmSnapshot n tone => Sys2Proof.Machine.execWarmSnapshot n tone s
  | .reacquire k n code => Sys2Proof.Machine.execReacquire k n code s
  | .ladleTrackUpdate n => Sys2Proof.Machine.execLadleTrackUpdate n s
  | .ladleFadeDone n => Sys2Proof.Machine.execLadleFadeDone n s
  | .tapGating n blind aided peaks => Sys2Proof.Machine.execTapGating n blind aided peaks s
  | .whiskEstimates n e => Sys2Proof.Machine.execWhiskEstimates n e s
  | .singularityCheck n run => Sys2Proof.Machine.execSingularityCheck n run s
  | .timingLockLoss n => Sys2Proof.Machine.execTimingLockLoss n s
  | .pilotSyncLoss n => Sys2Proof.Machine.execPilotSyncLoss n s
  | .frequencyOutOfRange n => Sys2Proof.Machine.execFrequencyOutOfRange n s
  | .jointQualifyTest p fits => Sys2Proof.Machine.execJointQualifyTest p fits s
  | .pilotGroupFit p residuals slips pilots => Sys2Proof.Machine.execPilotGroupFit p residuals slips pilots s
  | .qualityUpdate n samples => Sys2Proof.Machine.execQualityUpdate n samples s
  | .pmBoundary corrected latencies clients => Sys2Proof.Machine.execPmBoundary corrected latencies clients s
  | .qmarginTimer n low => Sys2Proof.Machine.execQmarginTimer n low s
  | .tuningEvaluation n => Sys2Proof.Machine.execTuningEvaluation n s
  | .backchannelCellReceived n cell => Sys2Proof.Machine.execBackchannelCellReceived n cell s
  | .autoChangeStart n => Sys2Proof.Machine.execAutoChangeStart n s
  | .backchannelTimeout n => Sys2Proof.Machine.execBackchannelTimeout n s
  | .rescue n => Sys2Proof.Machine.execRescue n s
  | .klfBlockTransmit n feeds fill => Sys2Proof.Machine.execKlfBlockTransmit n feeds fill s
  | .headerSignsRead n header => Sys2Proof.Machine.execHeaderSignsRead n header s
  | .codedBlockRelease n r => Sys2Proof.Machine.execCodedBlockRelease n r s
  | .klfBlockDecoded n b => Sys2Proof.Machine.execKlfBlockDecoded n b s
  | .changeRequestDecoded n => Sys2Proof.Machine.execChangeRequestDecoded n s
  | .confirmationDecoded n id => Sys2Proof.Machine.execConfirmationDecoded n id s
  | .announcementDecoded n ann => Sys2Proof.Machine.execAnnouncementDecoded n ann s
  | .rxTargetBlock n => Sys2Proof.Machine.execRxTargetBlock n s
  | .confirmationLimit n => Sys2Proof.Machine.execConfirmationLimit n s
  | .lofTimer n => Sys2Proof.Machine.execLofTimer n s
  | .farTerminationDetected k => Sys2Proof.Machine.execFarTerminationDetected k s
  | .dmePagesReceived k abilities => Sys2Proof.Machine.execDmePagesReceived k abilities s
  | .anTimeout k => Sys2Proof.Machine.execAnTimeout k s
  | .parallelDetectDone t ty => Sys2Proof.Machine.execParallelDetectDone t ty s
  | .trainingDone k taps => Sys2Proof.Machine.execTrainingDone k taps s
  | .trainTimeout k started => Sys2Proof.Machine.execTrainTimeout k started s
  | .lockQualified k r => Sys2Proof.Machine.execLockQualified k r s
  | .lockTimeout k => Sys2Proof.Machine.execLockTimeout k s
  | .capabilityFrameReceived k frame => Sys2Proof.Machine.execCapabilityFrameReceived k frame s
  | .exchangeDone k => Sys2Proof.Machine.execExchangeDone k s
  | .exchangeTimeout k => Sys2Proof.Machine.execExchangeTimeout k s
  | .laneSignalLoss k => Sys2Proof.Machine.execLaneSignalLoss k s
  | .laneFomFail k r clockLost => Sys2Proof.Machine.execLaneFomFail k r clockLost s
  | .pcsAligned t st => Sys2Proof.Machine.execPcsAligned t st s
  | .laneRestart k l => Sys2Proof.Machine.execLaneRestart k l s
  | .laneInjectStart k l => Sys2Proof.Machine.execLaneInjectStart k l s
  | .laneInjectStop k l => Sys2Proof.Machine.execLaneInjectStop k l s
  | .laneClearCounters k l => Sys2Proof.Machine.execLaneClearCounters k l s
  | .clearLaneCounters k => Sys2Proof.Machine.execClearLaneCounters k s
  | .bringupAlarmTimer k => Sys2Proof.Machine.execBringupAlarmTimer k s
  | .clientBindingWrite k t items => Sys2Proof.Machine.execClientBindingWrite k t items s
  | .clientFailClearTimer t => Sys2Proof.Machine.execClientFailClearTimer t s
  | .clientFrameIngress t frame => Sys2Proof.Machine.execClientFrameIngress t frame s
  | .pfcRefreshTimer t q => Sys2Proof.Machine.execPfcRefreshTimer t q s
  | .pfcFrameReceived t enables times => Sys2Proof.Machine.execPfcFrameReceived t enables times s
  | .headroomOverrunClear t => Sys2Proof.Machine.execHeadroomOverrunClear t s
  | .holdOffExpired t prot degrade => Sys2Proof.Machine.execHoldOffExpired t prot degrade s
  | .waitToRestoreExpired t => Sys2Proof.Machine.execWaitToRestoreExpired t s
  | .protectionSwitch t => Sys2Proof.Machine.execProtectionSwitch t s
  | .protClear k t => Sys2Proof.Machine.execProtClear k t s
  | .protLockout k t => Sys2Proof.Machine.execProtLockout k t s
  | .protForceProtection k t => Sys2Proof.Machine.execProtForceProtection k t s
  | .protForceWorking k t => Sys2Proof.Machine.execProtForceWorking k t s
  | .protManualProtection k t => Sys2Proof.Machine.execProtManualProtection k t s
  | .protManualWorking k t => Sys2Proof.Machine.execProtManualWorking k t s
  | .protRealign k t => Sys2Proof.Machine.execProtRealign k t s
  | .delayEqualised t => Sys2Proof.Machine.execDelayEqualised t s
  | .trayFailClearTimer t => Sys2Proof.Machine.execTrayFailClearTimer t s
  | .clearTrayCounters k => Sys2Proof.Machine.execClearTrayCounters k s
  | .sealNoticeReceived n seg => Sys2Proof.Machine.execSealNoticeReceived n seg s
  | .sealRollover k t => Sys2Proof.Machine.execSealRollover k t s
  | .rolloverSwitch t prot => Sys2Proof.Machine.execRolloverSwitch t prot s
  | .trayKeyLoad k x data => Sys2Proof.Machine.execTrayKeyLoad k x data s
  | .utilityKeyLoad k u data => Sys2Proof.Machine.execUtilityKeyLoad k u data s
  | .keyDelivered x => Sys2Proof.Machine.execKeyDelivered x s
  | .keySlotZeroise k x => Sys2Proof.Machine.execKeySlotZeroise k x s
  | .utilityKeyZeroise k u => Sys2Proof.Machine.execUtilityKeyZeroise k u s
  | .kekPeerKeyWrite k data => Sys2Proof.Machine.execKekPeerKeyWrite k data s
  | .agreeStart k t => Sys2Proof.Machine.execAgreeStart k t s
  | .agreeCancel k t => Sys2Proof.Machine.execAgreeCancel k t s
  | .agreementMessageReceived n seg => Sys2Proof.Machine.execAgreementMessageReceived n seg s
  | .agreeTimeout t => Sys2Proof.Machine.execAgreeTimeout t s
  | .lidLockAcquire k => Sys2Proof.Machine.execLidLockAcquire k s
  | .lidLockRelease k => Sys2Proof.Machine.execLidLockRelease k s
  | .lidLockForceRelease k => Sys2Proof.Machine.execLidLockForceRelease k s
  | .lidLeaseExpired => Sys2Proof.Machine.execLidLeaseExpired s
  | .lidBlockOperation k data => Sys2Proof.Machine.execLidBlockOperation k data s
  | .sealAlarmClearTimer t kind => Sys2Proof.Machine.execSealAlarmClearTimer t kind s
  | .clearSealCounters k => Sys2Proof.Machine.execClearSealCounters k s
  | .grantMapSwap sub => Sys2Proof.Machine.execGrantMapSwap sub s
  | .mapBuildDone sub micros => Sys2Proof.Machine.execMapBuildDone sub micros s
  | .hubDownstreamFrame sub offset poisoned => Sys2Proof.Machine.execHubDownstreamFrame sub offset poisoned s
  | .contextPrefetch sub frame poisoned => Sys2Proof.Machine.execContextPrefetch sub frame poisoned s
  | .preambleDetected sub metric frame a => Sys2Proof.Machine.execPreambleDetected sub metric frame a s
  | .syncWordMatch sub bits rms => Sys2Proof.Machine.execSyncWordMatch sub bits rms s
  | .tentativeExpiry sub => Sys2Proof.Machine.execTentativeExpiry sub s
  | .burstHeaderDecoded sub soft power freq => Sys2Proof.Machine.execBurstHeaderDecoded sub soft power freq s
  | .burstPayloadBlock sub coded => Sys2Proof.Machine.execBurstPayloadBlock sub coded s
  | .burstEnd sub seeds => Sys2Proof.Machine.execBurstEnd sub seeds s
  | .grantedSlotEnd sub frame leaf => Sys2Proof.Machine.execGrantedSlotEnd sub frame leaf s
  | .hubBurstSilence n => Sys2Proof.Machine.execHubBurstSilence n s
  | .leafRangeAgain k l => Sys2Proof.Machine.execLeafRangeAgain k l s
  | .leafDeregister k l => Sys2Proof.Machine.execLeafDeregister k l s
  | .leafEnableWrite k l enable => Sys2Proof.Machine.execLeafEnableWrite k l enable s
  | .hubKeyRollover k sub => Sys2Proof.Machine.execHubKeyRollover k sub s
  | .hubRolloverEffective sub => Sys2Proof.Machine.execHubRolloverEffective sub s
  | .hubRolloverEnd sub => Sys2Proof.Machine.execHubRolloverEnd sub s
  | .hubIngressFrame j frame => Sys2Proof.Machine.execHubIngressFrame j frame s
  | .queueFlush k q => Sys2Proof.Machine.execQueueFlush k q s
  | .clearHubCounters k => Sys2Proof.Machine.execClearHubCounters k s
  | .stockpotPageRead a errors => Sys2Proof.Machine.execStockpotPageRead a errors s
  | .stockpotPageWrite a data => Sys2Proof.Machine.execStockpotPageWrite a data s
  | .scrubRead x errors => Sys2Proof.Machine.execScrubRead x errors s
  | .retirePage k => Sys2Proof.Machine.execRetirePage k s
  | .initialiseRegion k => Sys2Proof.Machine.execInitialiseRegion k s
  | .stockpotClearCounters k => Sys2Proof.Machine.execStockpotClearCounters k s
  | .clearLog k => Sys2Proof.Machine.execClearLog k s
  | .eraseRetirementList k => Sys2Proof.Machine.execEraseRetirementList k s
  | .dmaStart k c => Sys2Proof.Machine.execDmaStart k c s
  | .dmaPause k c => Sys2Proof.Machine.execDmaPause k c s
  | .dmaResume k c => Sys2Proof.Machine.execDmaResume k c s
  | .dmaStop k c => Sys2Proof.Machine.execDmaStop k c s
  | .dmaDrainDone c => Sys2Proof.Machine.execDmaDrainDone c s
  | .sourcePageProduced c t data => Sys2Proof.Machine.execSourcePageProduced c t data s
  | .dmaEventRelease kind arg => Sys2Proof.Machine.execDmaEventRelease kind arg s
  | .dmaBurstDone c errors => Sys2Proof.Machine.execDmaBurstDone c errors s
  | .timingEvaluation g means out => Sys2Proof.Machine.execTimingEvaluation g means out s
  | .refActivityLoss x => Sys2Proof.Machine.execRefActivityLoss x s
  | .oscinLoss => Sys2Proof.Machine.execOscinLoss s
  | .oscinReturn => Sys2Proof.Machine.execOscinReturn s
  | .oscinAlarmClear => Sys2Proof.Machine.execOscinAlarmClear s
  | .generatorLock g => Sys2Proof.Machine.execGeneratorLock g s
  | .generatorLockTimeout g => Sys2Proof.Machine.execGeneratorLockTimeout g s
  | .holdoverLimit g => Sys2Proof.Machine.execHoldoverLimit g s
  | .tgReselect k g => Sys2Proof.Machine.execTgReselect k g s
  | .tgForceHoldover k g => Sys2Proof.Machine.execTgForceHoldover k g s
  | .tgReleaseHoldover k g => Sys2Proof.Machine.execTgReleaseHoldover k g s
  | .tgWaitToRestore g => Sys2Proof.Machine.execTgWaitToRestore g s
  | .loopOpenWrite k g isOpen => Sys2Proof.Machine.execLoopOpenWrite k g isOpen s
  | .steerOffsetWrite k g offset => Sys2Proof.Machine.execSteerOffsetWrite k g offset s
  | .timeStep k => Sys2Proof.Machine.execTimeStep k s
  | .timeStepApply => Sys2Proof.Machine.execTimeStepApply s
  | .timeSlew k => Sys2Proof.Machine.execTimeSlew k s
  | .timeSlewCancel k => Sys2Proof.Machine.execTimeSlewCancel k s
  | .slewDone => Sys2Proof.Machine.execSlewDone s
  | .ppsEdge t => Sys2Proof.Machine.execPpsEdge t s
  | .fpoEnableWrite k f enable => Sys2Proof.Machine.execFpoEnableWrite k f enable s
  | .fpoAlign k f => Sys2Proof.Machine.execFpoAlign k f s
  | .clearTimingCounters k => Sys2Proof.Machine.execClearTimingCounters k s
  | .monitorConversionDone m code => Sys2Proof.Machine.execMonitorConversionDone m code s
  | .urgentConversion k m => Sys2Proof.Machine.execUrgentConversion k m s
  | .urgentConversionDone m code => Sys2Proof.Machine.execUrgentConversionDone m code s
  | .clearMonitorPeaks k => Sys2Proof.Machine.execClearMonitorPeaks k s
  | .occupancySample levels slips lanes => Sys2Proof.Machine.execOccupancySample levels slips lanes s
  | .perfCounterSelect k c sel threshold => Sys2Proof.Machine.execPerfCounterSelect k c sel threshold s
  | .counterSnapshot k => Sys2Proof.Machine.execCounterSnapshot k s
  | .snapshotCopyDone => Sys2Proof.Machine.execSnapshotCopyDone s
  | .counterFreeze k => Sys2Proof.Machine.execCounterFreeze k s
  | .counterUnfreeze k => Sys2Proof.Machine.execCounterUnfreeze k s
  | .counterDeselectAll k => Sys2Proof.Machine.execCounterDeselectAll k s
  | .bandwidthWindowEnd w => Sys2Proof.Machine.execBandwidthWindowEnd w s
  | .probeSample p residuals => Sys2Proof.Machine.execProbeSample p residuals s
  | .probeEventEnd p => Sys2Proof.Machine.execProbeEventEnd p s
  | .fibreDisturbanceClear p => Sys2Proof.Machine.execFibreDisturbanceClear p s
  | .clearProbe k => Sys2Proof.Machine.execClearProbe k s
  | .sourceOccurrence key unit => Sys2Proof.Machine.execSourceOccurrence key unit s
  | .conditionEnd key => Sys2Proof.Machine.execConditionEnd key s
  | .eventAckSource k => Sys2Proof.Machine.execEventAckSource k s
  | .eventAckAll k => Sys2Proof.Machine.execEventAckAll k s
  | .eventClearLost k => Sys2Proof.Machine.execEventClearLost k s
  | .injectStart k j => Sys2Proof.Machine.execInjectStart k j s
  | .injectStop k j => Sys2Proof.Machine.execInjectStop k j s
  | .injectHoldEnd j => Sys2Proof.Machine.execInjectHoldEnd j s
  | .injectGapExpired j => Sys2Proof.Machine.execInjectGapExpired j s
  | .powerDown k d => Sys2Proof.Machine.execPowerDown k d s
  | .powerUp k d => Sys2Proof.Machine.execPowerUp k d s
  | .powerDownDone d => Sys2Proof.Machine.execPowerDownDone d s
  | .powerUpDone d => Sys2Proof.Machine.execPowerUpDone d s
  | .clearHighWater k => Sys2Proof.Machine.execClearHighWater k s
  | .clearCrossingCounters k => Sys2Proof.Machine.execClearCrossingCounters k s
  | .clearCrossingAll k => Sys2Proof.Machine.execClearCrossingAll k s
  | .clearRxCounters k => Sys2Proof.Machine.execClearRxCounters k s
  | .clearTuneCounters k => Sys2Proof.Machine.execClearTuneCounters k s
  | .clearFecCounters k => Sys2Proof.Machine.execClearFecCounters k s
  | .engineResetDone n => Sys2Proof.Machine.execEngineResetDone n s
  | .refActivityReturn x => Sys2Proof.Machine.execRefActivityReturn x s
  | .prbsCheckerLocked k run => Sys2Proof.Machine.execPrbsCheckerLocked k run s
  | .prbsCheckerLockLost k run => Sys2Proof.Machine.execPrbsCheckerLockLost k run s
  | .mgmtLinkChange p up => Sys2Proof.Machine.execMgmtLinkChange p up s
  | .canErrorPassive p => Sys2Proof.Machine.execCanErrorPassive p s

end Sys2Proof.Machine
end

