-- ==== Sys2Proof/Machine/Idle.lean ====
section
/-! DEFINITION. What one microsecond does when no command waits (assumption 6): module time and the generators advance, frame
pulses move, continuous error injection, PFC pauses and hub egress run, and a timed snapshot is taken. -/

namespace Sys2Proof.Machine

/-- One microsecond of the running module; with AUX3V3 absent nothing runs. -/
def idleTick (s : State) : State :=
  if !s.pins.aux3v3 then s else
  let s := { s with uptime := s.uptime + 1 }
  if s.boot.resetting = .full then s else
  let s := timeTick s
  let s := if s.boot.railsOn then hubEgressTick (pauseTick (lanesTick s)) else s
  match s.perf.snapAt with
  | some t => if t ≤ s.moduleTime then takeSnapshot s else s
  | none => s

end Sys2Proof.Machine
end

