-- ==== Sys2Proof/Safety.lean ====
section
/-! DEFINITION. What counts as a well-formed state of the module: every keyed table in its one canonical form (the Stockpot's pages
among them), a journal that is numbered without gaps and no longer than the spec allows, and a hot cache within its capacity. -/

namespace Sys2Proof.Machine

/-- The journal keeps the latest 1,024 entries, newest first, numbered from the counter downwards without a gap (R118). -/
def journalOk (next : Nat) : List JournalEntry → Prop
  | [] => True
  | e :: t => e.seq + 1 = next ∧ journalOk e.seq t

/-- The well-formed states. -/
structure Tidy (s : State) : Prop where
  od : Tbl.wf odDefault s.od = true
  sessions : Tbl.wf (fun _ => {}) s.sessions = true
  can : Tbl.wf (fun _ => {}) s.can = true
  scopes : Tbl.wf (fun _ => {}) s.scopes = true
  sources : Tbl.wf (fun _ => {}) s.sources = true
  injectors : Tbl.wf (fun _ => {}) s.injectors = true
  domains : Tbl.wf (fun _ => {}) s.domains = true
  engines : Tbl.wf (fun _ => {}) s.engines = true
  lanes : Tbl.wf (fun _ => {}) s.lanes = true
  members : Tbl.wf (fun _ => {}) s.members = true
  trays : Tbl.wf (fun _ => {}) s.trays = true
  keys : Tbl.wf (fun _ => {}) s.keys = true
  hubs : Tbl.wf (fun _ => {}) s.hubs = true
  contexts : Tbl.wf (fun _ => {}) s.contexts = true
  hotCopies : Tbl.wf (fun _ => {}) s.hotCopies = true
  leafRuns : Tbl.wf (fun _ => {}) s.leafRuns = true
  pages : Tbl.wf (fun _ => {}) s.pages = true
  dmas : Tbl.wf (fun _ => {}) s.dmas = true
  tgEntries : Tbl.wf (fun _ => {}) s.tgEntries = true
  tgs : Tbl.wf (fun _ => {}) s.tgs = true
  fpos : Tbl.wf (fun _ => {}) s.fpos = true
  monitors : Tbl.wf (fun _ => {}) s.monitors = true
  windows : Tbl.wf (fun _ => {}) s.windows = true
  probes : Tbl.wf (fun _ => {}) s.probes = true
  mgmtPorts : Tbl.wf (fun _ => {}) s.mgmtPorts = true
  journal : journalOk s.journalNext s.journal
  journalLength : s.journal.length ≤ 1024
  hotCache : s.hotOrder.length ≤ 16384

/-- A run of the module is safe while its steps answer next states that are well-formed. -/
def SafeOutcome (o : Out) : Prop := ∀ t, o = .next t → Tidy t

end Sys2Proof.Machine
end

