-- ==== Sys2Proof/Certificates/Slice0/Obligations.lean ====
section
/-! DEFINITION. What is claimed of the model: the statements for the provers, from the numbered rules of the spec. -/

open Sys2Proof Sys2Proof.Machine

namespace Sys2Proof.Machine

/-- Session `k` answers, and every common check admits its write of code `code` to the command object `key` (R95–R98, R108, R119). -/
structure Admits (s : State) (k key code : Nat) : Prop where
  answers : s.answers k = true
  gate : writeGate s k (keyIdx key) (keyInst key) (keySub key) code = .ok

/-- The journal entry of kind 3 that an accepted command makes (R118). -/
def noted (s : State) (k key : Nat) : State := s.journalBy k 3 (keyIdx key) (keyInst key) (keySub key)

/-- An event or command whose outcome is the next state `t`. -/
abbrev Yields (c : Instr) (s t : State) : Prop := exec c s = .next t

/-- Session `k` may write the value `v` to the `RW` object `key` (its octets read as the number `code`): the common checks and the chapters'
rules admit it (R96, R108, R116). -/
structure Allows (s : State) (k key code : Nat) (v : Val) : Prop where
  answers : s.answers k = true
  gate : writeGate s k (keyIdx key) (keyInst key) (keySub key) code = .ok
  range : ∀ r, subRow (keyIdx key) (keySub key) = some r → r.acc = .rw ∧ rngOk r.rng v = true
  rules : ruleCheck s (s.setVal key v) k ⟨.ok, .rw, key, code, v⟩ = .ok

/-- The value is stored, with the write's entry of kind 1 in the journal (R118). -/
def wrote (s : State) (k key : Nat) (v : Val) : State := (s.setVal key v).journalBy k 1 (keyIdx key) (keyInst key) (keySub key)

/-- What an accepted write of one `RW` object leaves: its value, its journal entry and its effect. -/
def wroteOne (s : State) (k key : Nat) (v : Val) : State := commissioningEnds s (writeEffect s (wrote s k key v) (effectKey key)) k

/-- A request is the next one of the open session of connection `conn`, with nothing buffered behind it, on a port that answers, well-formed in its
flags, and served by dies that answer (R126, R127, R129). -/
structure InTurn (s : State) (conn : Nat) (h : SehalHdr) (c : Conn) : Prop where
  conn : s.conn? conn = some c
  on : portOn s c.port = true
  phase : c.phase = .sessionOpen
  isOpen : (s.session c.slot).isOpen = true
  next : h.seq = (s.session c.slot).nextSeq
  alone : (s.session c.slot).buffered = []
  flags : h.flags < 2
  alive : h.deadDie = none

/-- A request of session `k` has arrived: the count of Sehal requests that the performance counters keep takes it. -/
def received (s : State) : State := s.countEv 7 0 3 1

/-- The request with opcode `op` has been served in `t`: it is answered, and the next sequence number is due (R127, R129). -/
def answeredBy (t : State) (k : Nat) (h : SehalHdr) (op count : Nat) (st : Status) (body : Bytes) : State :=
  respond (t.setSession k { t.session k with nextSeq := (h.seq + 1) % 65536 }) k h.seq op count st body

/-- The two states agree on every object of the dictionary that satisfies `p`. -/
def SameObjects (p : Nat → Prop) (s t : State) : Prop := ∀ key, p key → t.val key = s.val key

/-- What each command of a host writes: the session, the command object and the code (R12, R14, and the tables of the chapters). -/
def hostCommand : Instr → Option (Nat × Nat × Nat)
  | .managementReset k => some (k, Od.resetCommand, 1)
  | .fullResetCommand k => some (k, Od.resetCommand, 2)
  | .engineReset k n => some (k, Od.engineReset n, 1)
  | .laneGroupReset k g => some (k, Od.laneGroupReset g, 1)
  | .recalibrate k n => some (k, Od.recalibrate n, 1)
  | .configSave k => some (k, Od.configCommand, 1)
  | .configErase k => some (k, Od.configCommand, 2)
  | .firmwareVerify k _ _ _ _ => some (k, Od.firmwareCommand, 1)
  | .firmwareActivate k => some (k, Od.firmwareCommand, 2)
  | .firmwareConfirm k => some (k, Od.firmwareCommand, 3)
  | .firmwareSwapPreferred k => some (k, Od.firmwareCommand, 4)
  | .clearThermalPeaks k => some (k, Od.clearThermalPeaks, 1)
  | .closeSession k x => some (k, Od.closeSession x, 1)
  | .identityCommand k => some (k, Od.identityCommand, 1)
  | .ownershipClaim k x => some (k, Od.ownershipCommand x, 1)
  | .ownershipRelease k x => some (k, Od.ownershipCommand x, 2)
  | .ownershipForceRelease k x => some (k, Od.ownershipCommand x, 3)
  | .releaseMine k => some (k, Od.releaseMine, 1)
  | .commitArm k n => some (k, Od.commitCommand n, 1)
  | .commitCancel k n => some (k, Od.commitCommand n, 2)
  | .commitRevert k n => some (k, Od.commitCommand n, 3)
  | .groupArm k => some (k, Od.groupCommand, 1)
  | .groupCancel k => some (k, Od.groupCommand, 2)
  | .reacquire k n code => some (k, Od.reacquire n, code)
  | .laneRestart k l => some (k, Od.laneCommand l, 1)
  | .laneInjectStart k l => some (k, Od.laneCommand l, 2)
  | .laneInjectStop k l => some (k, Od.laneCommand l, 3)
  | .laneClearCounters k l => some (k, Od.laneCommand l, 4)
  | .clearLaneCounters k => some (k, Od.clearLaneCounters, 1)
  | .protClear k t => some (k, Od.protCommand t, 1)
  | .protLockout k t => some (k, Od.protCommand t, 2)
  | .protForceProtection k t => some (k, Od.protCommand t, 3)
  | .protForceWorking k t => some (k, Od.protCommand t, 4)
  | .protManualProtection k t => some (k, Od.protCommand t, 5)
  | .protManualWorking k t => some (k, Od.protCommand t, 6)
  | .protRealign k t => some (k, Od.protCommand t, 7)
  | .clearTrayCounters k => some (k, Od.clearTrayCounters, 1)
  | .sealRollover k t => some (k, Od.sealCommand t, 1)
  | .keySlotZeroise k x => some (k, Od.keySlotCommand x, 1)
  | .utilityKeyZeroise k u => some (k, Od.utilityKeyCommand u, 1)
  | .agreeStart k t => some (k, Od.agreeCommand t, 1)
  | .agreeCancel k t => some (k, Od.agreeCommand t, 2)
  | .lidLockAcquire k => some (k, Od.lidLock, 1)
  | .lidLockRelease k => some (k, Od.lidLock, 2)
  | .lidLockForceRelease k => some (k, Od.lidLock, 3)
  | .clearSealCounters k => some (k, Od.clearSealCounters, 1)
  | .leafRangeAgain k l => some (k, Od.leafCommand l, 1)
  | .leafDeregister k l => some (k, Od.leafCommand l, 2)
  | .hubKeyRollover k i => some (k, Od.hubKeyCommand i, 1)
  | .queueFlush k q => some (k, Od.queueCommand q, 1)
  | .clearHubCounters k => some (k, Od.clearHubCounters, 1)
  | .retirePage k => some (k, Od.stockpotCommand, 1)
  | .initialiseRegion k => some (k, Od.stockpotCommand, 2)
  | .stockpotClearCounters k => some (k, Od.stockpotCommand, 3)
  | .clearLog k => some (k, Od.stockpotCommand, 4)
  | .eraseRetirementList k => some (k, Od.stockpotCommand, 5)
  | .dmaStart k c => some (k, Od.dmaCommand c, 1)
  | .dmaPause k c => some (k, Od.dmaCommand c, 2)
  | .dmaResume k c => some (k, Od.dmaCommand c, 3)
  | .dmaStop k c => some (k, Od.dmaCommand c, 4)
  | .tgReselect k g => some (k, Od.tgCommand g, 1)
  | .tgForceHoldover k g => some (k, Od.tgCommand g, 2)
  | .tgReleaseHoldover k g => some (k, Od.tgCommand g, 3)
  | .timeStep k => some (k, Od.timeCommand, 1)
  | .timeSlew k => some (k, Od.timeCommand, 2)
  | .timeSlewCancel k => some (k, Od.timeCommand, 3)
  | .fpoAlign k f => some (k, Od.fpoCommand f, 1)
  | .clearTimingCounters k => some (k, Od.clearTimingCounters, 1)
  | .urgentConversion k m => some (k, Od.urgentCommand m, 1)
  | .clearMonitorPeaks k => some (k, Od.clearMonitorPeaks, 1)
  | .counterSnapshot k => some (k, Od.counterCommand, 1)
  | .counterFreeze k => some (k, Od.counterCommand, 2)
  | .counterUnfreeze k => some (k, Od.counterCommand, 3)
  | .counterDeselectAll k => some (k, Od.counterCommand, 4)
  | .clearProbe k => some (k, Od.clearProbe, 1)
  | .eventAckSource k => some (k, Od.eventCommand, 1)
  | .eventAckAll k => some (k, Od.eventCommand, 2)
  | .eventClearLost k => some (k, Od.eventCommand, 3)
  | .injectStart k j => some (k, Od.injectCommand j, 1)
  | .injectStop k j => some (k, Od.injectCommand j, 2)
  | .powerDown k d => some (k, Od.powerCommand d, 1)
  | .powerUp k d => some (k, Od.powerCommand d, 2)
  | .clearHighWater k => some (k, Od.clearCrossingMarks, 1)
  | .clearCrossingCounters k => some (k, Od.clearCrossingMarks, 2)
  | .clearCrossingAll k => some (k, Od.clearCrossingMarks, 3)
  | .clearRxCounters k => some (k, Od.clearRxCounters, 1)
  | .clearTuneCounters k => some (k, Od.clearTuneCounters, 1)
  | .clearFecCounters k => some (k, Od.clearFecCounters, 1)
  | _ => none

end Sys2Proof.Machine

/-! ### The queue, reset and the invariant -/

/-- A step runs the command at the front of the queue with the rest of the queue; with no command waiting the block idles, which in this model lets
one microsecond pass (the model's choice, assumption 6). -/
def Obligations.StepRunsTheFrontCommand : Prop :=
  (∀ (c : Instr) (rest : List Instr) (s : State), s.pending = c :: rest → step s = exec c { s with pending := rest })
  ∧ ∀ s : State, s.pending = [] → step s = .next (idleTick s)

/-- Reset: `OFF`, no supply, nothing waiting, no session, no key, an empty journal, every object at its default (R21, R72, R102, R118). That unlisted
objects hold their defaults and that the two tables of keys and pages start empty is the table's own form; the defaults are those of the object tables
(R70, R149, R468, R488). -/
def Obligations.ResetLeavesTheDefaults : Prop :=
  State.reset.pending = [] ∧ State.reset.boot.st = .off ∧ State.reset.pins.aux3v3 = false ∧ State.reset.pins.pwrgd = false
  ∧ State.reset.sessions = [] ∧ State.reset.keys = [] ∧ State.reset.pages = [] ∧ State.reset.journal = []
  ∧ (∀ key, State.reset.val key = odDefault key)
  ∧ State.reset.nat Od.warnJunction = 95 ∧ State.reset.nat Od.safeJunction = 100 ∧ State.reset.nat Od.safeCase = 72
  ∧ State.reset.nat Od.powerLimit = 1600 ∧ State.reset.nat Od.graceTime = 5000 ∧ State.reset.nat Od.trialTimeout = 600
  ∧ (∀ j, j < 64 → State.reset.nat (Od.shedEntry j) = 63 - j)
  ∧ (∀ g, g < 4164 → State.reset.nat (Od.owner g) = 255)
  ∧ ∀ n, n < 64 → State.reset.nat (Od.calState n) = 0 ∧ State.reset.nat (Od.rxState n) = 0 ∧ State.reset.flag (Od.carrierEnable n) = false

/-- The state after reset is well-formed. -/
def Obligations.ResetStateIsTidy : Prop :=
  Tidy State.reset

/-- Every step keeps the state well-formed (canonical tables, the Stockpot's pages among them; the journal of R118; the hot cache of R404), and takes
exactly the front command off the queue. -/
def Obligations.EveryStepKeepsTheStateTidy : Prop :=
  ∀ s t : State, Tidy s → step s = .next t → Tidy t ∧ t.pending = s.pending.tail

/-! ### Supplies, start-up and resets (chapters 02 and 03) -/

/-- R53–R57, R73, R508: AUX3V3 starts MG from the preferred slot when the boot ROM accepts it, in `STANDBY`, with sessions, keys and module time at
their reset values, and its loss stops the whole module; the standby firmware reports ready, or its slot fails and the other starts. R55, R56, R68,
R73, R74: PWR_EN starts the regulators when VIN12 is in range, is ignored without AUX3V3, and is answered by an under- or overvoltage event otherwise;
rails good release PWRGD and begin `BOOT`; a rail that is late, or a supply fault, ends with the rails off until PWR_EN is negated and asserted again.
-/
def Obligations.SuppliesStartAndStopTheModule : Prop :=
  ((∀ (s : State) (spoiled : List Nat), s.pins.aux3v3 = false → s.pins.resetN = true →
       slotUsable (slotsSpoiled s spoiled) (slotsSpoiled s spoiled).record.preferred = true →
     ∃ t, Yields (.aux3v3InRange spoiled) s t ∧ t.pins.aux3v3 = true ∧ t.pins.pwrgd = true ∧ t.pins.thermN = true ∧ t.boot.st = .standby
       ∧ t.boot.fwReady = false ∧ t.boot.fwStarting = true ∧ t.boot.running = (slotsSpoiled s spoiled).record.preferred ∧ t.nat Od.bootResult = 1
       ∧ t.nat Od.lastResetCause = 1 ∧ t.moduleTime = 0 ∧ t.sessions = [] ∧ t.keys = [] ∧ t.sources = [] ∧ t.pending = s.pending)
   ∧ (∀ (s : State) (torn : Bool), s.pins.aux3v3 = true →
     ∃ t, Yields (.aux3v3Loss torn) s t ∧ t.boot.st = .off ∧ t.boot.railsOn = false ∧ t.pins.aux3v3 = false ∧ t.pins.pwrgd = false
       ∧ t.sessions = [] ∧ t.keys = [] ∧ t.pages = [] ∧ t.flash.saved = s.flash.saved ∧ (torn = false → t.flash = s.flash)
       ∧ t.record = s.record)
   ∧ (∀ s : State, s.boot.fwStarting = true → s.boot.resetting ≠ .management → s.pins.pwrEn = false →
     ∃ t, Yields .managementFirmwareReady s t ∧ t.boot.fwReady = true ∧ t.boot.fwStarting = false
       ∧ t.boot.trialRunning = decide ((s.slot s.boot.running).st = 3) ∧ t.boot.st = s.boot.st ∧ t.od = s.od
       ∧ (s.boot.railsOn = false → t.pins.pwrgd = false) ∧ ∀ p, p < 2 → (t.canPort p).startPending = (s.flag (Od.canSessionEnabled p) || (s.canPort p).startPending))
   ∧ (∀ s : State, s.boot.fwStarting = true → s.boot.running < 2 →
       slotUsable (s.setSlotState s.boot.running 1) (1 - s.boot.running) = true →
     ∃ t, Yields .firmwareReadyTimeout s t ∧ t.boot.running = 1 - s.boot.running ∧ t.boot.fwStarting = true
       ∧ (t.slot s.boot.running).st = 1 ∧ t.record.preferred = 1 - s.boot.running ∧ t.nat Od.bootResult = 2
       ∧ t.nat Od.lastResetCause = 7))
  ∧ ((∀ (s : State) (vin : VinBand), (s.pins.aux3v3 = false ∨ s.boot.recovery = true) → s.pins.pwrEn = false →
     Yields (.pwrEnAsserted vin) s
       { s with pins := { s.pins with pwrEn := true, vin12 := vin }, boot := { s.boot with pwrIgnored := true } })
   ∧ (∀ s : State, s.pins.aux3v3 = true → s.pins.pwrEn = false → s.boot.fwReady = true → s.boot.needNegate = false →
       s.boot.recovery = false → s.boot.st = .standby → s.boot.step = .none → s.boot.railsOn = false → s.boot.afterTrip = false →
     Yields (.pwrEnAsserted .inRange) s { s with
       pins := { s.pins with pwrEn := true, vin12 := .inRange }
       boot := { s.boot with pwrIgnored := false, step := .rails, vinWait := false, afterTrip := false } }
     ∧ Yields (.pwrEnAsserted .low) s
       (({ s with pins := { s.pins with pwrEn := true, vin12 := .low }, boot := { s.boot with pwrIgnored := false, vinWait := true } }).raise 1)
     ∧ Yields (.pwrEnAsserted .high) s
       (({ s with pins := { s.pins with pwrEn := true, vin12 := .high }, boot := { s.boot with pwrIgnored := false, vinWait := true } }).raise 2))
   ∧ (∀ s : State, s.boot.vinWait = false → Yields .vin12EntersRange s { s with pins := { s.pins with vin12 := .inRange } })
   ∧ (∀ s : State, s.pins.aux3v3 = true → s.boot.vinWait = true → s.pins.pwrEn = true → s.boot.fwReady = true →
       s.boot.needNegate = false → s.boot.recovery = false → s.boot.st = .standby → s.boot.step = .none → s.boot.railsOn = false →
       s.boot.afterTrip = false → s.boot.pwrIgnored = false → Yields .vin12EntersRange s
       { s with pins := { s.pins with vin12 := .inRange }, boot := { s.boot with step := .rails, vinWait := false, afterTrip := false } })
   ∧ (∀ s : State, s.boot.step = .rails →
     ∃ t, Yields .railsGood s t ∧ t.pins.pwrgd = true ∧ t.boot.st = .boot ∧ t.boot.step = .streaming ∧ t.boot.railsOn = true
       ∧ t.nat Od.bootCount = min (s.nat Od.bootCount + 1) 4294967295)
   ∧ (∀ s : State, s.boot.step = .rails → Yields .railGoodTimeout s
       (({ s with pins := { s.pins with pwrgd := false }, boot := { s.boot with step := .none, needNegate := true } }).raise 3))
   ∧ (∀ s : State, s.boot.railsOn = true →
     (∃ t, Yields .vin12Undervoltage s t ∧ t.pins.vin12 = .low ∧ t.boot.railsOn = false ∧ t.boot.needNegate = true ∧ t.boot.st = .standby)
     ∧ (∃ t, Yields .vin12Overvoltage s t ∧ t.pins.vin12 = .high ∧ t.boot.railsOn = false ∧ t.boot.needNegate = true
       ∧ t.boot.st = .standby))
   ∧ (∀ s : State, s.pins.aux3v3 = true →
     ∃ t, Yields .pwrEnNegated s t ∧ t.pins.pwrEn = false ∧ t.pins.pwrgd = false ∧ t.boot.needNegate = false ∧ t.boot.tripped = false
       ∧ t.boot.step = .none)
   ∧ (∀ s : State, s.boot.railsOn = true → s.pins.pwrgd = false → s.pins.pwrEn = false →
     ∃ t, Yields .regulatorsOff s t ∧ t.boot.railsOn = false ∧ t.boot.st = .standby ∧ t.boot.dpRunning = none))

/-- R57, R72, R84: when the main rails go off, every die but MG loses its state: the Stockpot's pages, leaf contexts, hub, lane, DMA and Probe state
and the shadows are gone, PWRGD is low, and the module is in `STANDBY`; the boot flash stays. R82–R84: RESET_N low and `ResetCommand` code 2 reset the
whole module, regulators excepted: sessions, keys, claims, sources, pages and module time go (`THERMAL_TRIP` of a trip that stands is detected again),
the flash stays, and the cause is recorded; RESET_N high lets MG start. -/
def Obligations.RailLossAndFullResetClearTheDies : Prop :=
  (∀ s : State, (railsOff s).pages = [] ∧ (railsOff s).contexts = [] ∧ (railsOff s).lanes = [] ∧ (railsOff s).dmas = []
     ∧ (railsOff s).probes = [] ∧ (railsOff s).domains = [] ∧ (railsOff s).shadow = [] ∧ (railsOff s).boot.railsOn = false
     ∧ (railsOff s).boot.st = .standby ∧ (railsOff s).pins.pwrgd = false ∧ (railsOff s).flash = s.flash)
  ∧ ((∀ s : State, s.pins.aux3v3 = true →
     ∃ t, Yields .resetNAsserted s t ∧ t.pins.resetN = false ∧ t.boot.st = .standby ∧ t.boot.resetting = .full
       ∧ t.nat Od.lastResetCause = 2 ∧ t.sessions = [] ∧ t.keys = [] ∧ (s.boot.tripped = false → t.sources = [])
       ∧ (s.boot.tripped = true → (t.source 4).real = true ∧ t.pins.thermN = false) ∧ t.pages = [] ∧ t.moduleTime = 0
       ∧ t.flash = s.flash ∧ t.boot.railsOn = s.boot.railsOn ∧ t.boot.needNegate = s.boot.needNegate)
   ∧ (∀ (s : State) (spoiled : List Nat), s.pins.aux3v3 = true → s.boot.resetting = .full →
       slotUsable (slotsSpoiled s spoiled) (slotsSpoiled s spoiled).record.preferred = true →
     ∃ t, Yields (.resetNReleased spoiled) s t ∧ t.pins.resetN = true ∧ t.boot.resetting = .none ∧ t.boot.fwStarting = true
       ∧ t.boot.running = (slotsSpoiled s spoiled).record.preferred)
   ∧ (∀ (s : State) (spoiled : List Nat) (i : Nat), i < 2 → i ∈ spoiled → slotUsable (slotsSpoiled s spoiled) i = false)
   ∧ (∀ (s : State) (k : Nat), Admits s k Od.resetCommand 2 → slotUsable s s.record.preferred = true →
     ∃ t, Yields (.fullResetCommand k) s t ∧ t.boot.st = .standby ∧ t.boot.fwStarting = true ∧ t.nat Od.lastResetCause = 3
       ∧ t.sessions = [] ∧ t.keys = [] ∧ t.pages = [] ∧ t.moduleTime = 0 ∧ t.boot.railsOn = s.boot.railsOn))

/-- R73, R77–R79, R503: each step of `BOOT` runs in its turn and gives way to the next; the last one enters `CALIBRATE`. R80, R81, R91, R503:
calibration goes through its steps, a step that fails leaves only the marking of the engine, and its end marks it; the line of a `NO_LIGHT` engine or
`Recalibrate` starts it again. -/
def Obligations.BootAndCalibrationRunTheirSteps : Prop :=
  ((∀ s : State, s.boot.step = .streaming → Yields (.datapathPartStreamed true) s
       { s with boot := { s.boot with step := .linkTraining, dpRunning := some (s.slot s.boot.running).datapath } })
   ∧ (∀ s : State, s.boot.step = .linkTraining → Yields .dieLinksTrained s { s with boot := { s.boot with step := .stockpot } })
   ∧ (∀ s : State, s.boot.step = .stockpot →
     ∃ t, Yields .stockpotInitialised s t ∧ t.boot.step = .config ∧ t.pages = [] ∧ t.flash.retiredErased = false
       ∧ t.flash.retired = (if s.flash.retiredErased then [] else s.flash.retired) ∧ t.stockpot.remap = t.flash.retired)
   ∧ (∀ (s : State) (refused : List Nat), s.boot.step = .config →
     ∃ t, Yields (.savedConfigApplied refused) s t ∧ t.boot.step = .powerUp ∧ t.shadow = [])
   ∧ (∀ s : State, s.boot.step = .powerUp →
     ∃ t, Yields .bootPowerUpDone s t ∧ (t.boot.st = .calibrate ∨ t.boot.st = .ready ∨ t.boot.st = .safe ∨ t.boot.st = .traffic)))
  ∧ ((∀ (s : State) (n : Nat) (r : CalResult), n < 64 → s.nat (Od.calState n) = 1 → (s.engine n).calStep = 3 → r.ok = true →
     Yields (.calibrationStepDone n r) s (s.setEngine n { s.engine n with calStep := 4 }))
   ∧ (∀ (s : State) (n : Nat) (r : CalResult), n < 64 → s.nat (Od.calState n) = 1 → 1 ≤ (s.engine n).calStep →
       (s.engine n).calStep ≤ 5 → r.ok = false → Yields (.calibrationStepDone n r) s
       ((s.setN (Od.calFailStep n) (s.engine n).calStep).setEngine n { s.engine n with calStep := 6 }))
   ∧ (∀ (s : State) (n : Nat), n < 64 → s.nat (Od.calState n) = 1 → 6 ≤ (s.engine n).calStep → s.nat (Od.calFailStep n) ≠ 0 →
       s.boot.st ≠ .calibrate → s.boot.st ≠ .ready → s.boot.st ≠ .traffic → Yields (.carrierCalibrationEnd n) s
       ((setCalState (s.setEngine n { s.engine n with calStep := 0 }) n 4).setN (Od.recalibrate n) 0))
   ∧ (∀ (s : State) (n : Nat), n < 64 → s.nat (Od.calState n) = 1 → (s.engine n).calStep = 6 → s.nat (Od.calFailStep n) = 0 →
       s.nat (Od.lineState n) = 1 → s.boot.st = .calibrate →
     Yields (.carrierCalibrationEnd n) s (readyJudge (engineRuns
       ((setCalState (s.setEngine n { s.engine n with calStep := 0 }) n 2).setN (Od.recalibrate n) 0) n)))
   ∧ (∀ (s : State) (n : Nat), n < 64 → (s.engine n).heldEnable = true → s.nat (Od.calState n) = 2 → s.engineUp n = true →
       (s.boot.st = .ready ∨ s.boot.st = .traffic) →
     Yields (.heldEnableRelease n) s (carrierStart (s.setEngine n { s.engine n with heldEnable := false }) n))
   ∧ (∀ (s : State) (n : Nat) (power : F32), n < 64 → s.nat (Od.calState n) = 3 → s.engineUp n = true → s.beforeCalibrate = false →
       f32GeRat power (-4) 1 = true → Yields (.noLightLineUsable n power) s (calStart ((s.setN (Od.lineState n) 1).setF (Od.linePower n) (powerReading power)) n 2))
   ∧ (∀ (s : State) (k n : Nat), Admits s k (Od.recalibrate n) 1 → n < 64 → s.nat (Od.calState n) ≠ 1 →
       s.flag (Od.carrierEnable n) = false → s.engineUp n = true →
     Yields (.recalibrate k n) s (calStart ((noted s k (Od.recalibrate n)).setN (Od.recalibrate n) 1) n 1))
   ∧ (∀ (s : State) (k n : Nat), Admits s k (Od.recalibrate n) 1 →
       (s.flag (Od.carrierEnable n) = true ∨ s.engineUp n = false) → Yields (.recalibrate k n) s (s.refuse k .state))
   ∧ ∀ (s : State) (n step : Nat), n < 64 → (calStart s n step).nat (Od.calState n) = 1 ∧ (calStart s n step).nat (Od.calFailStep n) = 0
       ∧ ((calStart s n step).engine n).calStep = step)

/-- R82, R86–R88: a management reset ends every session and every shadow but touches no datapath state; it is refused while a commit is armed, a key
load or agreement runs, or another reset runs (those in `resetRefusal`), and its end restores the transports. R82, R85, R90, R91: an engine reset and
a lane-group reset are refused while the unit's domain is down, an engine reset also while a commit is armed for its carrier; accepted, the engine
goes dark and stops receiving until the reset ends and it runs again. -/
def Obligations.ManagementAndUnitResetsKeepTheRest : Prop :=
  ((∀ (s : State) (k : Nat), Admits s k Od.resetCommand 1 → resetRefusal s = none → slotUsable s s.boot.running = true →
     ∃ t, Yields (.managementReset k) s t ∧ t.boot.st = s.boot.st ∧ t.boot.fwReady = false ∧ t.boot.fwStarting = true
       ∧ t.boot.resetting = .management ∧ t.boot.running = s.boot.running ∧ t.nat Od.lastResetCause = 4 ∧ t.conns = [] ∧ t.can = []
       ∧ t.shadow = [] ∧ t.engines = s.engines ∧ t.lanes = s.lanes ∧ t.trays = s.trays ∧ t.keys = s.keys ∧ t.pages = s.pages
       ∧ t.moduleTime = s.moduleTime ∧ ∀ j, j < 8 → (t.session j).isOpen = false)
   ∧ (∀ (s : State) (k : Nat) (st : Status), Admits s k Od.resetCommand 1 → resetRefusal s = some st →
     Yields (.managementReset k) s (s.refuse k st))
   ∧ (∀ s : State, s.boot.resetting = .management → s.boot.fwStarting = true → (s.pins.pwrEn = false ∨ s.boot.st ≠ .standby) →
     ∃ t, Yields .managementResetDone s t ∧ t.boot.resetting = .none ∧ t.boot.fwReady = true ∧ t.boot.fwStarting = false
       ∧ t.boot.st = s.boot.st ∧ t.od = s.od ∧ t.engines = s.engines
       ∧ ∀ p, p < 2 → s.flag (Od.canSessionEnabled p) = true → (t.canPort p).started = true ∧ (t.session (canSlot p)).isOpen = true)
   ∧ (∀ s : State, s.boot.resetting = .management → s.boot.fwStarting = true → s.boot.retryBoot = true → s.pins.pwrEn = true →
       s.boot.st = .standby → s.boot.step = .none → s.boot.needNegate = false → s.boot.recovery = false → s.boot.pwrIgnored = false →
       s.boot.railsOn = false → s.boot.afterTrip = false → s.pins.vin12 = .inRange →
     ∃ t, Yields .managementResetDone s t ∧ t.boot.step = .rails ∧ t.boot.st = .standby ∧ t.boot.fwReady = true))
  ∧ ((∀ (s : State) (k n : Nat), Admits s k (Od.engineReset n) 1 → s.engineUp n = true → (s.engine n).resetting = false →
       s.armed n = false →
     ∃ u, u = ((autoEnd (noted s k (Od.engineReset n)) n 4).setN (Od.engineReset n) 1).setEngine n
         { (autoEnd (noted s k (Od.engineReset n)) n 4).engine n with resetting := true }
       ∧ Yields (.engineReset k n) s (hubStop (goDark (rxStop u n) n) n))
   ∧ (∀ (s : State) (k n : Nat), Admits s k (Od.engineReset n) 1 →
     (s.engineUp n = false → Yields (.engineReset k n) s (s.refuse k .state))
     ∧ (s.engineUp n = true → (s.engine n).resetting = false → s.armed n = true →
       Yields (.engineReset k n) s (s.refuse k .shadowBusy)))
   ∧ (∀ (s : State) (n : Nat), n < 64 → (s.engine n).resetting = true → (s.domain n).waiting = false →
     Yields (.engineResetDone n) s
       (engineRuns (restartBlocks ((s.setEngine n { s.engine n with resetting := false }).setN (Od.engineReset n) 0) n) n))
   ∧ (∀ (s : State) (k g : Nat), Admits s k (Od.laneGroupReset g) 1 →
     (s.domUp (domLaneGroup g) = true → Yields (.laneGroupReset k g) s (laneGroupRestart (noted s k (Od.laneGroupReset g)) g))
     ∧ (s.domUp (domLaneGroup g) = false → Yields (.laneGroupReset k g) s (s.refuse k .state))))

/-- R79: a save stores values in flash and counts; an erase removes them; both only in `READY`, `TRAFFIC` or `STANDBY`. R88, R89, R92: firmware
verified, activated in trial, confirmed, and made preferred; a trial that is not confirmed in time ends with its slot `INVALID` and the other
preferred. -/
def Obligations.ConfigurationAndFirmwareAreKept : Prop :=
  ((∀ (s : State) (k : Nat), Admits s k Od.configCommand 1 → configState s = true →
     ∃ t, Yields (.configSave k) s t ∧ t.flash.saved = some (configContent s) ∧ t.flash.retired = s.flash.retired
       ∧ t.nat Od.configGeneration = min (s.nat Od.configGeneration + 1) 4294967295
       ∧ SameObjects (· ≠ Od.configGeneration) s t)
   ∧ (∀ (s : State) (k : Nat), Admits s k Od.configCommand 2 → configState s = true →
     ∃ t, Yields (.configErase k) s t ∧ t.flash = { s.flash with saved := none } ∧ t.od = s.od)
   ∧ ∀ (s : State) (k : Nat), configState s = false →
     (Admits s k Od.configCommand 1 → Yields (.configSave k) s (s.refuse k .state))
     ∧ (Admits s k Od.configCommand 2 → Yields (.configErase k) s (s.refuse k .state)))
  ∧ ((∀ (s : State) (k : Nat) (version : Bytes) (security datapath : Nat), Admits s k Od.firmwareCommand 1 → s.boot.imageWriting = false →
       s.boot.running < 2 → (s.slot (1 - s.boot.running)).st ≠ 0 → (s.slot (1 - s.boot.running)).st ≠ 4 →
       s.boot.antiRollback ≤ security →
     ∃ t, Yields (.firmwareVerify k true version security datapath) s t
       ∧ t.slot (1 - s.boot.running) = ⟨2, true, version.take 32, security, datapath⟩ ∧ t.slot s.boot.running = s.slot s.boot.running)
   ∧ (∀ (s : State) (k : Nat), Admits s k Od.firmwareCommand 2 → s.boot.running < 2 → (s.slot (1 - s.boot.running)).st = 2 →
       resetRefusal s = none → slotUsable s (1 - s.boot.running) = true →
     ∃ t, Yields (.firmwareActivate k) s t ∧ (t.slot (1 - s.boot.running)).st = 3 ∧ t.record.preferred = 1 - s.boot.running
       ∧ t.boot.running = 1 - s.boot.running ∧ t.boot.resetting = .management ∧ t.nat Od.lastResetCause = 5)
   ∧ (∀ (s : State) (k : Nat), Admits s k Od.firmwareCommand 3 → s.boot.running < 2 → (s.slot s.boot.running).st = 3 →
       s.boot.recovery = false → 2 ≤ (s.slot (1 - s.boot.running)).st →
     ∃ t, Yields (.firmwareConfirm k) s t ∧ (t.slot s.boot.running).st = 4 ∧ (t.slot (1 - s.boot.running)).st = 2
       ∧ t.boot.trialRunning = false ∧ t.boot.antiRollback = max s.boot.antiRollback (s.slot s.boot.running).security)
   ∧ (∀ (s : State) (k : Nat), Admits s k Od.firmwareCommand 4 → s.boot.running < 2 →
       ((s.slot (1 - s.boot.running)).st = 2 ∨ (s.slot (1 - s.boot.running)).st = 4) →
     ∃ t, Yields (.firmwareSwapPreferred k) s t ∧ t.record.preferred = 1 - s.boot.running ∧ t.boot = s.boot ∧ t.od = s.od)
   ∧ (∀ s : State, s.boot.trialRunning = true → s.boot.running < 2 →
     ∃ t, Yields .trialTimeout s t ∧ (t.slot s.boot.running).st = 1 ∧ t.record.preferred = 1 - s.boot.running
       ∧ t.boot.trialRunning = false)
   ∧ (∀ s : State, s.boot.trialDeferred = true → s.boot.running < 2 → resetRefusal s = none →
       slotUsable s (1 - s.boot.running) = true →
     ∃ t, Yields .deferredTrialReset s t ∧ t.boot.trialDeferred = false ∧ t.boot.running = 1 - s.boot.running
       ∧ t.boot.resetting = .management ∧ t.nat Od.lastResetCause = 6))

/-! ### Commands, sessions, ownership and commits (chapter 04) -/

/-- R107, R108, R111, R118: a claim takes a free group and a release gives it back, each with its journal entry; a claim of one's own group or a
release of a free one changes nothing; the group of another session answers `OWNED`, a group in an armed scope `SHADOW_BUSY`; a Maintainer's force
release is journalled against both sessions. R103, R104: a session may end itself, a Maintainer any session; the ended session holds no claim, no Lid
lock and no connection, its armed commits run on, and its slot is free. Disabling every identity returns the module to commissioning. -/
def Obligations.ClaimsAndSessionsAreGivenAndEnd : Prop :=
  ((∀ (s : State) (k x : Nat), Admits s k (Od.ownershipCommand x) 1 →
     (groupArmed s x = false → s.nat (Od.owner x) = 255 →
       Yields (.ownershipClaim k x) s ((s.setN (Od.owner x) k).journalBy k 6 0 x 0))
     ∧ (groupArmed s x = false → s.nat (Od.owner x) = k → Yields (.ownershipClaim k x) s s)
     ∧ (groupArmed s x = false → s.nat (Od.owner x) ≠ 255 → s.nat (Od.owner x) ≠ k →
       Yields (.ownershipClaim k x) s (s.refuse k .owned))
     ∧ (groupArmed s x = true → Yields (.ownershipClaim k x) s (s.refuse k .shadowBusy)))
   ∧ (∀ (s : State) (k x : Nat), Admits s k (Od.ownershipCommand x) 2 →
     (groupArmed s x = false → s.nat (Od.owner x) = k →
       Yields (.ownershipRelease k x) s ((s.setN (Od.owner x) 255).journalBy k 7 0 x 0))
     ∧ (groupArmed s x = false → s.nat (Od.owner x) = 255 → Yields (.ownershipRelease k x) s s)
     ∧ (groupArmed s x = false → s.nat (Od.owner x) ≠ 255 → s.nat (Od.owner x) ≠ k →
       Yields (.ownershipRelease k x) s (s.refuse k .owned))
     ∧ (groupArmed s x = true → Yields (.ownershipRelease k x) s (s.refuse k .shadowBusy)))
   ∧ (∀ (s : State) (k x : Nat), Admits s k (Od.ownershipCommand x) 3 →
     (groupArmed s x = false → s.nat (Od.owner x) ≠ 255 → s.nat (Od.owner x) ≠ k → Yields (.ownershipForceRelease k x) s
       (((s.setN (Od.owner x) 255).journalBy k 8 0 x 0).journalBy (s.nat (Od.owner x)) 8 0 x 0))
     ∧ (groupArmed s x = false → s.nat (Od.owner x) = 255 → Yields (.ownershipForceRelease k x) s s)
     ∧ (groupArmed s x = true → Yields (.ownershipForceRelease k x) s (s.refuse k .shadowBusy)))
   ∧ ∀ (s : State) (k : Nat), Admits s k Od.releaseMine 1 →
     ((claimsOf s k).any (groupArmed s) = false → Yields (.releaseMine k) s (releaseAll s k))
     ∧ ((claimsOf s k).any (groupArmed s) = true → Yields (.releaseMine k) s (s.refuse k .shadowBusy)))
  ∧ (∀ (s : State) (k g : Nat), k ≠ 255 → g < 4164 → (releaseAll s k).nat (Od.owner g) ≠ k)
  ∧ ((∀ (s : State) (k x : Nat), Admits s k (Od.closeSession x) 1 → (x = k ∨ (s.session k).role = 3) →
     Yields (.closeSession k x) s (endSession (noted s k (Od.closeSession x)) x))
   ∧ (∀ (s : State) (k x : Nat), Admits s k (Od.closeSession x) 1 → x ≠ k → (s.session k).role ≠ 3 →
     Yields (.closeSession k x) s (s.refuse k .role))
   ∧ (∀ (s : State) (x : Nat), Tidy s → x < 8 → (s.session x).isOpen = true →
     (endSession s x).session x = {} ∧ (∀ g, g < 4164 → (endSession s x).nat (Od.owner g) ≠ x)
     ∧ (endSession s x).nat Od.lockHolder ≠ x ∧ (endSession s x).conns = s.conns.filter (fun c => c.slot != x)
     ∧ (∀ n, (endSession s x).armed n = s.armed n) ∧ (endSession s x).shadow = s.shadow ∧ (endSession s x).engines = s.engines)
   ∧ (∀ (s : State) (k : Nat), Admits s k Od.identityCommand 1 → Yields (.identityCommand k) s
       ((noted s k Od.identityCommand).clearObjs fun x => keyIdx x = 0x2104 && keySub x = 4))
   ∧ ∀ s : State, (s.clearObjs fun x => keyIdx x = 0x2104 && keySub x = 4).isCommissioning = true)

/-- R111–R113, R120: an arm that passes its checks arms the scope, in `WAIT_PEER` where the far end must confirm; one that does not is refused and
arms nothing; a cancel before the countdown ends the commit; a revert drops the pending values of an idle scope. R112, R113, R260: a commit whose far
end does not confirm in time ends with `NO_PEER`; the first announcement block begins the countdown; at its target the scope copies. -/
def Obligations.CommitRunsFromArmToCopy : Prop :=
  ((∀ (s : State) (k n : Nat), Admits s k (Od.commitCommand n) 1 → armCheck s k [n] = .ok →
     Yields (.commitArm k n) s (armScope (noted s k (Od.commitCommand n)) k n true))
   ∧ (∀ (s : State) (k n : Nat) (st : Status), Admits s k (Od.commitCommand n) 1 → armCheck s k [n] = st → st ≠ .ok →
     Yields (.commitArm k n) s (s.refuse k st))
   ∧ (∀ (s : State) (k n : Nat), n ≤ 64 → k < 8 → (armScope s k n true).nat (Od.commitStatusState n) = (if peerNeeded s n then 2 else 1)
       ∧ (armScope s k n true).nat (Od.armedBy n) = k ∧ (armScope s k n true).shadow = s.shadow
       ∧ ((armScope s k n true).scope n).armSlot = k)
   ∧ (∀ (s : State) (k n : Nat), Admits s k (Od.commitCommand n) 2 → (s.scope n).member = false →
     (s.armed n = true → s.nat (Od.commitStatusState n) ≠ 3 → ((s.scope n).armSlot = k ∨ (s.session k).role = 3) →
       Yields (.commitCancel k n) s (commitEnd (noted s k (Od.commitCommand n)) n 3))
     ∧ (s.armed n = false → Yields (.commitCancel k n) s (s.refuse k .state))
     ∧ (s.nat (Od.commitStatusState n) = 3 → Yields (.commitCancel k n) s (s.refuse k .shadowBusy)))
   ∧ (∀ (s : State) (n r : Nat), n ≤ 64 → s.armed n = true → (commitEnd s n r).nat (Od.commitStatusState n) = 0
       ∧ (commitEnd s n r).nat (Od.commitStatusResult n) = r ∧ (commitEnd s n r).shadow = s.shadow)
   ∧ ∀ (s : State) (k n : Nat), Admits s k (Od.commitCommand n) 3 →
     (s.armed n = false → Yields (.commitRevert k n) s { noted s k (Od.commitCommand n) with
       shadow := s.shadow.filter fun p => !(scopesOf s p.1).contains n })
     ∧ (s.armed n = true → Yields (.commitRevert k n) s (s.refuse k .shadowBusy)))
  ∧ ((∀ (s : State) (n : Nat), n < 64 → s.nat (Od.commitStatusState n) = 2 → (s.scope n).member = false → (s.scope n).confirmed = false →
     Yields (.peerTimeout n false) s ((commitEnd s n 2).raise (srcCarrier n 18)))
   ∧ (∀ (s : State) (n : Nat) (c : Change), n < 64 → (s.klfTx n).auto = some c → c.waiting = true →
     Yields (.peerTimeout n true) s (autoEnd s n 2))
   ∧ (∀ (s : State) (n f : Nat) (c : Change), n < 64 → (s.klfTx n).host = some c → c.first = some f → f ≤ (s.klfTx n).next →
       s.armed n = true → Yields (.countdownStart n) s (s.setN (Od.commitStatusState n) 3))
   ∧ (∀ (s : State) (n b : Nat) (c : Change), n < 64 → (s.klfTx n).host = some c → c.target = some b → b ≤ (s.klfTx n).next →
       s.armed n = true → Yields (.commitCopy n false) s (commitCopy s n))
   ∧ (∀ (s : State) (n b : Nat) (c : Change), n < 64 → (s.klfTx n).auto = some c → c.target = some b → b ≤ (s.klfTx n).next →
     Yields (.commitCopy n true) s (traysRefresh (autoApplied s n c) n))
   ∧ (∀ (s : State) (n : Nat), n ≤ 64 → (commitCopy s n).nat (Od.commitStatusState n) = 0 ∧ (commitCopy s n).nat (Od.commitStatusResult n) = 1)
   ∧ (∀ s : State, s.armed 64 = true → (s.scope 64).member = false → (s.scope 64).due ≤ s.uptime →
     Yields .moduleScopeTarget s (commitCopy s 64))
   ∧ (∀ s : State, s.armed 64 = true → (s.scope 64).member = true → s.nat Od.groupState = 2 → (s.scope 64).due ≤ s.moduleTime →
     Yields .moduleScopeTarget s (commitCopy s 64)))

/-- R114: a group commit arms every named scope or none, cancels every member before its decision, and at the decision time counts all of them down or
abandons them all. -/
def Obligations.GroupCommitActsOnAllOrNone : Prop :=
  (∀ (s : State) (k : Nat), Admits s k Od.groupCommand 1 → groupScopeList s ≠ [] → (groupScopeList s).any s.armed = false →
      s.nat Od.groupState = 0 → s.moduleTime + 1000000 ≤ unstamp (s.bytes Od.targetTime) → armCheck s k (groupScopeList s) = .ok →
    Yields (.groupArm k) s ((((groupScopeList s).foldl (fun s n => armScope s k n false) (noted s k Od.groupCommand)).setN
      Od.groupState 1).setN Od.groupResult 0))
  ∧ (∀ (s : State) (k : Nat), Admits s k Od.groupCommand 1 → groupScopeList s ≠ [] → (groupScopeList s).any s.armed = false →
      s.nat Od.groupState = 0 → unstamp (s.bytes Od.targetTime) < s.moduleTime + 1000000 →
    Yields (.groupArm k) s (s.refuse k .range))
  ∧ (∀ (s : State) (k : Nat), Admits s k Od.groupCommand 1 → groupScopeList s = [] → Yields (.groupArm k) s (s.refuse k .inconsistent))
  ∧ (∀ (s : State) (k : Nat), Admits s k Od.groupCommand 2 →
    (s.nat Od.groupState = 1 → Yields (.groupCancel k) s
      ((groupMembers s).foldl (fun s n => commitEnd s n 3) (noted s k Od.groupCommand)))
    ∧ (s.nat Od.groupState = 0 → Yields (.groupCancel k) s (s.refuse k .state))
    ∧ (s.nat Od.groupState = 2 → Yields (.groupCancel k) s (s.refuse k .shadowBusy)))
  ∧ (∀ (s : State) (targets : List (Nat × Nat)), s.nat Od.groupState = 1 →
    ((∀ n, n ∈ groupMembers s → (s.scope n).needsPeer = true → (s.scope n).confirmed = true) →
      ∃ t, Yields (.groupDecisionTime targets) s t ∧ t.nat Od.groupState = 2 ∧ t.shadow = s.shadow ∧ t.scopes = s.scopes
        ∧ SameObjects (fun key => key ≠ Od.groupState ∧ keyIdx key ≠ 0x2120) s t)
    ∧ (∀ m, m ∈ groupMembers s → (s.scope m).needsPeer = true → (s.scope m).confirmed = false →
      Yields (.groupDecisionTime targets) s ((groupMembers s).foldl (fun s' n =>
        commitEnd s' n (if (s.scope n).needsPeer && !(s.scope n).confirmed then 2 else 4)) s)))

/-- R109, R113: the copy makes every pending value of the scope active and leaves every other value as it was; no shadow view changes. -/
def Obligations.CopyMovesTheScopesShadows : Prop :=
  ∀ (s : State) (n key : Nat), Tidy s →
    (copyShadows s n).val key = (if (scopesOf s key).contains n then s.shadowVal key else s.val key)
    ∧ (copyShadows s n).shadowVal key = s.shadowVal key

/-- R95–R98, R108, R119: a command that the common checks do not admit leaves only the session's `LastStatus`; without a session that a transport
answers it leaves nothing. -/
def Obligations.RefusedCommandLeavesOnlyLastStatus : Prop :=
  ∀ (c : Instr) (k key code : Nat) (s : State), hostCommand c = some (k, key, code) →
    (s.answers k = false → Yields c s s)
    ∧ (s.answers k = true → writeGate s k (keyIdx key) (keyInst key) (keySub key) code ≠ .ok →
      Yields c s (s.refuse k (writeGate s k (keyIdx key) (keyInst key) (keySub key) code)))

/-- R95, R96: a session with the role Observer changes nothing by a command but its `LastStatus`, whatever the command. -/
def Obligations.ObserverCommandsChangeNothing : Prop :=
  ∀ (c : Instr) (k key code : Nat) (s : State), hostCommand c = some (k, key, code) → keyIdx key ≠ 0x2102 → (s.session k).role = 1 →
    ∃ st, Yields c s s ∨ Yields c s (s.refuse k st)

/-- R106, R108, R111: a host's command to the object of a group that another session owns is refused with `OWNED`, whatever the command, where role,
address and module state admit it; a Key Officer's is not. -/
def Obligations.OwnedGroupRefusesOthers : Prop :=
  ∀ (c : Instr) (k key code g o : Nat) (s : State), hostCommand c = some (k, key, code) → groupOf (keyIdx key) (keyInst key) = some g →
    s.nat (Od.owner g) = o → o ≠ 255 → o ≠ k → s.answers k = true → needOf (keyIdx key) (keySub key) code ≠ .keyOfficer →
    writeGate (s.setN (Od.owner g) 255) k (keyIdx key) (keyInst key) (keySub key) code = .ok → Yields c s (s.refuse k .owned)

/-- R12, R14, R118: what a host's command does is what the plain write of its code to its command object does: the entry of the command table for that
object, after the common checks, with one journal entry of kind 3 except for the ownership commands. -/
def Obligations.HostCommandsAreWritesOfTheirObjects : Prop :=
  ∀ (c : Instr) (k key code : Nat) (s : State), hostCommand c = some (k, key, code) → (keyIdx key, code) ≠ (0x7F02, 1) →
    ∃ f, commandOf k key code = some f
      ∧ Yields c s (if quietCommand (keyIdx key) then hostCmdQuiet s k key code f else hostCmd s k key code f)

/-! ### Writes and reads of the object dictionary (chapter 04) -/

/-- R96–R98, R116: a write request is refused at its first item that fails the checks of its own, and then leaves only `LastStatus`; the items are
judged before any takes effect. -/
def Obligations.RefusedWriteAppliesNoItem : Prop :=
  (∀ (s : State) (k i : Nat) (items : List WriteItem) (st : Status), s.answers k = true →
      firstBad ((items.map (prepItem s k)).map (·.status)) 0 = some (i, st) →
    Yields (.objectWrite k items) s (s.refuse k st) ∧ Yields (.identityEnableWrite k items) s (s.refuse k st))
  ∧ (∀ (s : State) (k i : Nat) (items : List WriteItem) (st : Status), s.answers k = true →
      firstBad ((items.map (prepItem s k)).map (·.status)) 0 = none →
      firstBad ((items.map (prepItem s k)).map (ruleCheck s ((items.map (prepItem s k)).foldl (storeItem true) s) k)) 0 = some (i, st) →
    Yields (.objectWrite k items) s (s.refuse k st) ∧ Yields (.identityEnableWrite k items) s (s.refuse k st))
  ∧ (∀ (s : State) (k : Nat) (items : List WriteItem), s.answers k = false → Yields (.objectWrite k items) s s)
  ∧ ∀ (s : State) (k idx inst sub : Nat) (value : Bytes), s.answers k = true → objRow idx = none →
    Yields (.objectWrite k [⟨idx, inst, sub, value⟩]) s (s.refuse k .noObject)

/-- R12, R109, R110, R116–R118: an accepted write of one item stores its value, as the active value of an `RW` object and as the shadow of an `RWS`
object, whose active value stays; the journal takes one entry of kind 1 or 2. -/
def Obligations.AcceptedWriteStoresItsValue : Prop :=
  (∀ (s : State) (k key code : Nat) (v : Val) (it : WriteItem), s.answers k = true → keyIdx key ≠ 0x5100 → keyIdx key ≠ 0x1F10 →
      prepItem s k it = ⟨.ok, .rw, key, code, v⟩ → ruleCheck s (s.setVal key v) k ⟨.ok, .rw, key, code, v⟩ = .ok →
    Yields (.objectWrite k [it]) s (wroteOne s k key v))
  ∧ (∀ (s : State) (k key code : Nat) (v : Val) (it : WriteItem), s.answers k = true →
      prepItem s k it = ⟨.ok, .rws, key, code, v⟩ → ruleCheck s (s.setShadow key v) k ⟨.ok, .rws, key, code, v⟩ = .ok →
    Yields (.objectWrite k [it]) s ((s.setShadow key v).journalBy k 2 (keyIdx key) (keyInst key) (keySub key)))
  ∧ (∀ (s : State) (key : Nat) (v : Val), (s.setShadow key v).shadowVal key = v ∧ (s.setShadow key v).od = s.od
      ∧ ∀ other, other ≠ key → (s.setShadow key v).shadowVal other = s.shadowVal other)
  ∧ (∀ (s : State) (k i : Nat), Allows s k (Od.identityEntryEnabled i) 1 (.u 1) → i < 32 →
    Yields (.identityEnableWrite k [⟨0x2104, i, 4, [1]⟩]) s
      (commissioningEnds s (wrote s k (Od.identityEntryEnabled i) (.u 1)) k))
  ∧ (∀ (s t : State) (k : Nat), (s.isCommissioning = false ∨ t.isCommissioning = true) → commissioningEnds s t k = t)
  ∧ (∀ (s : State) (k p sub value : Nat), Allows s k (odKey 0x2105 p sub) value (.u value) → (sub = 1 → value ≤ 1) → value < 256 →
    Yields (.canSessionReconfigure k p sub value) s
      (commissioningEnds s (canReconfigured s (wrote s k (odKey 0x2105 p sub) (.u value)) p) k))
  ∧ (∀ (s : State) (k value : Nat), s.answers k = true → writeGate s k 0x1F10 0 1 value = .ok → value < 262144 →
    Yields (.canAccessWrite k 1 value) s (s.setSession k { s.session k with canInst := value }))
  ∧ ∀ (s : State) (k value : Nat), s.answers k = true → writeGate s k 0x1F10 0 2 value = .ok → value < 2 →
    Yields (.canAccessWrite k 2 value) s (s.setSession k { s.session k with shadowView := value != 0 })

/-- R12, R96: a `KEY` or `WO` object is never read: every read of one that exists answers `OD_WO` with no octets, in every state of the module that
serves its index. R119: before `CALIBRATE` a datapath object of one of the access classes `RO` and `CMD` reads 0, and one of `RW` or `RWS` its
default. -/
def Obligations.ReadsAnswerByClassAndState : Prop :=
  (∀ (s : State) (k idx inst sub : Nat) (shadow : Bool) (r : SubRow), addrStatus idx inst sub = .ok → subRow idx sub = some r →
     (r.acc = .wo ∨ r.acc = .key) → (∀ m, r.ty ≠ .block m) → (s.boot.recovery = true → servedInRecovery idx = true) →
     readItem s k idx inst sub shadow = (.writeOnly, []))
  ∧ (∀ (s : State) (k idx inst sub : Nat) (shadow : Bool) (r : SubRow), s.beforeCalibrate = true → gated idx = true → s.boot.recovery = false →
     addrStatus idx inst sub = .ok → subRow idx sub = some r → (∀ m, r.ty ≠ .block m) → r.acc ≠ .wo → r.acc ≠ .key →
     readItem s k idx inst sub shadow = (.ok, encodeVal r.ty (if r.acc = .rw ∨ r.acc = .rws then odDefault (odKey idx inst sub) else zeroVal r.ty)))

/-- R118: every journal entry takes the next sequence number, and the journal holds the latest 1,024, newest first. R15: a counter saturates at the
largest value of its type and no other object moves with it. -/
def Obligations.JournalAndCountersKeepTheirBounds : Prop :=
  (∀ (s : State) (k kind idx inst sub gen : Nat), (s.journalBy k kind idx inst sub gen).journal
       = (⟨s.journalNext, s.stampNow, k, kind, idx, inst, sub, (s.session k).role, gen⟩ :: s.journal).take 1024
     ∧ (s.journalBy k kind idx inst sub gen).journalNext = s.journalNext + 1
     ∧ (s.journalBy k kind idx inst sub gen).od = s.od ∧ (s.journalBy k kind idx inst sub gen).shadow = s.shadow)
  ∧ (∀ (s : State) (key n : Nat), s.nat key ≤ counterMax key → s.nat key ≤ (s.bumpBy key n).nat key
     ∧ (s.bumpBy key n).nat key ≤ counterMax key ∧ SameObjects (· ≠ key) s (s.bumpBy key n))

/-- R13: a write whose value lies outside the object's range or step is refused with `OD_RANGE`, and the object, like every other, keeps its value. -/
def Obligations.OutOfRangeWriteIsRefused : Prop :=
  ∀ (s : State) (k idx inst sub : Nat) (r : SubRow) (v : Val) (value : Bytes), s.answers k = true → addrStatus idx inst sub = .ok →
    subRow idx sub = some r → (∀ m, r.ty ≠ .block m) → writeGate s k idx inst sub (leNat (value.take 4)) = .ok →
    decodeVal r.ty value = (.ok, v) → rngOk r.rng v = false →
    Yields (.objectWrite k [⟨idx, inst, sub, value⟩]) s (s.refuse k .range) ∧ ∀ key, (s.refuse k .range).val key = s.val key

/-! ### Management transports (chapter 05) -/

/-- R100, R125: the first ClientHello is answered with a cookie, a second that returns it goes on; a completed handshake authenticates the key of an
enabled identity, or any key while commissioning; an unmatched key is denied and an unproved one closed; ten seconds end a handshake. R99, R100, R104,
R129: an `OPEN` that is admitted takes the lowest free slot and is answered with it, and one that is refused is answered with its status and closes
the connection; idleness ends an Ethernet session. -/
def Obligations.HandshakeAndOpenGiveASession : Prop :=
  ((∀ (s : State) (conn port : Nat) (cookie : Option Nat) (offer : HelloOffer), port < 2 → portOn s port = true → s.conn? conn = none →
       handshakes s < 4 → Yields (.dtlsClientHello conn port cookie offer) s ((s.freeNat.2.setConn
       { id := conn, port := port, phase := .cookieSent, cookie := s.freeNat.1 }).send (.helloRetry conn s.freeNat.1)))
   ∧ (∀ (s : State) (conn port : Nat) (offer : HelloOffer) (c : Conn), port < 2 → portOn s port = true → s.conn? conn = some c →
       c.phase = .cookieSent →
     (helloOk offer = true → Yields (.dtlsClientHello conn port (some c.cookie) offer) s
       ((s.setConn { c with phase := .handshaking }).send (.dtlsServerFlight conn Config.deviceCertificate)))
     ∧ (helloOk offer = false → Yields (.dtlsClientHello conn port (some c.cookie) offer) s ((s.dropConn conn).send (.dtlsClose conn)))
     ∧ ∀ cookie, cookie ≠ some c.cookie → Yields (.dtlsClientHello conn port cookie offer) s (s.send (.helloRetry conn c.cookie)))
   ∧ (∀ (s : State) (conn port : Nat) (cookie : Option Nat) (offer : HelloOffer), port < 2 → s.conn? conn = none →
       (4 ≤ handshakes s ∨ portOn s port = false) → Yields (.dtlsClientHello conn port cookie offer) s s)
   ∧ (∀ (s : State) (conn : Nat) (proof : ClientProof) (c : Conn), portOn s c.port = true → s.conn? conn = some c → c.phase = .handshaking →
     (proofOk proof = true →
       (s.isCommissioning = true → Yields (.dtlsHandshakeComplete conn proof) s
         (s.setConn { c with phase := .authenticated, identity := 255, keyHash := sha384 proof.spki }))
       ∧ (∀ i, s.isCommissioning = false → matchIdentity s (sha384 proof.spki) = some i → Yields (.dtlsHandshakeComplete conn proof) s
         (s.setConn { c with phase := .authenticated, identity := i, keyHash := sha384 proof.spki }))
       ∧ (s.isCommissioning = false → matchIdentity s (sha384 proof.spki) = none → Yields (.dtlsHandshakeComplete conn proof) s
         ((s.dropConn conn).send (.accessDenied conn))))
     ∧ (proofOk proof = false → Yields (.dtlsHandshakeComplete conn proof) s ((s.dropConn conn).send (.dtlsClose conn))))
   ∧ (∀ proof : ClientProof, proof.spki = [] → proofOk proof = false)
   ∧ (∀ (s : State) (conn : Nat) (c : Conn), s.conn? conn = some c →
     (c.phase ≠ .sessionOpen → Yields (.handshakeTimeout conn) s (s.dropConn conn) ∧ Yields (.dtlsAlert conn) s (s.dropConn conn))
     ∧ (c.phase = .sessionOpen → Yields (.handshakeTimeout conn) s s
       ∧ Yields (.dtlsAlert conn) s ((endSession s c.slot).dropConn conn)))
   ∧ ∀ (s : State) (h : Bytes) (i : Nat), matchIdentity s h = some i → s.flag (Od.identityEntryEnabled i) = true ∧ s.bytes (Od.keyHash i) = h)
  ∧ ((∀ (s : State) (conn role subs k : Nat) (h : SehalHdr) (c : Conn), s.conn? conn = some c → portOn s c.port = true →
       c.phase = .authenticated → openSlot s c h role subs = (.ok, k) →
     Yields (.sehalOpen conn h role subs) s (respond ((sessionBegin s k c role subs).countEv 7 0 3 1) k 0 1 0 .ok
       (leBytes 1 k ++ leBytes 2 (s.nat Od.idleTimeout))))
   ∧ (∀ (s : State) (conn role subs : Nat) (h : SehalHdr) (c : Conn), s.conn? conn = some c → portOn s c.port = true →
       c.phase = .authenticated → (openSlot s c h role subs).1 ≠ .ok →
     Yields (.sehalOpen conn h role subs) s (((s.send (.sehalConn conn (sehalHeader 2 h.seq 1 (openSlot s c h role subs).1.code 0 0))).dropConn
       conn).send (.dtlsClose conn)))
   ∧ (∀ (s : State) (c : Conn) (h : SehalHdr) (role subs k : Nat), openSlot s c h role subs = (.ok, k) →
     k < 8 ∧ (s.session k).isOpen = false ∧ (6 ≤ k → s.flag (Od.canSessionEnabled (k - 6)) = false) ∧ roleAllowed s c role = true
       ∧ ∀ j, j < k → (s.session j).isOpen = true ∨ (6 ≤ j ∧ s.flag (Od.canSessionEnabled (j - 6)) = true))
   ∧ (∀ (s : State) (k : Nat) (c : Conn) (role subs : Nat), ((sessionBegin s k c role subs).session k).isOpen = true
       ∧ ((sessionBegin s k c role subs).session k).role = role ∧ ((sessionBegin s k c role subs).session k).nextSeq = 1)
   ∧ (∀ (s : State) (k : Nat), k < 8 →
     ((s.session k).transport = 1 ∨ (s.session k).transport = 2 → Yields (.idleTimeout k) s (endSession s k))
     ∧ ((s.session k).transport ≠ 1 → (s.session k).transport ≠ 2 → Yields (.idleTimeout k) s s)))

/-- R126–R129: the request with the expected sequence number is served and the buffered ones that follow it; one up to seven ahead is kept, one of the
last 16 gets its cached response again, and any other is discarded and counted. R127, R128, R130, R131: what a served request is answered with: a read
the values in order, a write the index of its failing item or 0xFF, a block transfer its length, its pieces and its end; one block is open at a time,
and a piece beyond its length is refused. -/
def Obligations.RequestsAreServedAndAnswered : Prop :=
  ((∀ (s : State) (conn : Nat) (h : SehalHdr) (c : Conn), InTurn s conn h c → h.count = 0 →
     Yields (.sehalNop conn h) s (answeredBy (received s) c.slot h 9 0 .ok [])
     ∧ Yields (.sehalClose conn h) s (endSession (answeredBy (received s) c.slot h 2 0 .ok []) c.slot)
     ∧ (∀ idx inst sub total acc max, (s.session c.slot).block = none → addrStatus idx inst sub = .ok → blockMax idx = some (acc, max) → acc ≠ .wo →
       s.boot.recovery = false → (gated idx && s.beforeCalibrate) = false → captureBusy s idx inst = false → ∀ errors,
       (blockContent (received s) idx inst errors).1 ≠ [] → Yields (.blockOpen conn h idx inst sub 0 total errors) s
         (let r := blockContent (received s) idx inst errors
          answeredBy (setBlock r.2 c.slot ⟨idx, inst, sub, false, r.1.length, r.1, []⟩) c.slot h 5 0 .ok (leBytes 4 r.1.length)))
     ∧ (∀ idx inst sub total acc max errors, (s.session c.slot).block = none → addrStatus idx inst sub = .ok → blockMax idx = some (acc, max) →
       writeGate (received s) c.slot idx inst sub 0 = .ok → blockLengthOk idx total max = true → openElsewhere s c.slot idx inst sub = false →
       ∃ t, Yields (.blockOpen conn h idx inst sub 1 total errors) s (answeredBy t c.slot h 5 0 .ok (leBytes 4 total))
         ∧ (t.session c.slot).block = some ⟨idx, inst, sub, true, total, [], []⟩ ∧ t.od = (received s).od
         ∧ (idx = 0x7F00 → t.boot.imageWriting = true ∧ (t.slot (1 - s.boot.running)).st = 1))
     ∧ (∀ offset len b, (s.session c.slot).block = some b → 1 ≤ len → len ≤ 1024 → offset + len ≤ b.total →
       (b.writing = false → Yields (.blockPiece conn h offset len []) s
         (answeredBy (received s) c.slot h 6 0 .ok ((b.content.drop offset).take len)))
       ∧ ∀ data, b.writing = true → data.length = len → Yields (.blockPiece conn h offset len data) s
         (answeredBy (setBlock (received s) c.slot { b with pieces := b.pieces ++ [(offset, data)] }) c.slot h 6 0 .ok []))
     ∧ (∀ crc b, (s.session c.slot).block = some b →
       (b.writing = false → Yields (.blockClose conn h crc) s (answeredBy (blockDropped (received s) c.slot) c.slot h 7 0 .ok []))
       ∧ (∀ content, b.writing = true → writeGate (received s) c.slot b.idx b.inst b.sub 0 = .ok → assembled b = some content →
         crc32 content = crc → Yields (.blockClose conn h crc) s
           (answeredBy (blockWritten (blockDropped (received s) c.slot) c.slot b content) c.slot h 7 0 .ok []))
       ∧ Yields (.blockAbort conn h) s (answeredBy (blockDropped (received s) c.slot) c.slot h 8 0 .ok [])))
   ∧ (∀ (s : State) (conn : Nat) (h : SehalHdr) (c : Conn) (items : List ReadItem), InTurn s conn h c → items.length = h.count →
       8 + 7 * items.length ≤ 1200 → (∀ q, q ∈ readResults (received s) c.slot items (h.flags % 2 = 1) → q.1 = .ok) →
       8 + (encodeResults (readResults (received s) c.slot items (h.flags % 2 = 1))).length ≤ 1200 →
     Yields (.sehalRead conn h items) s (answeredBy (received s) c.slot h 3 items.length .ok
       (encodeResults (readResults (received s) c.slot items (h.flags % 2 = 1)))))
   ∧ (∀ (s : State) (conn key code : Nat) (h : SehalHdr) (c : Conn) (it : WriteItem) (v : Val), InTurn s conn h c → h.count = 1 →
       it.value.length ≤ 1183 →
     (prepItem (received s) c.slot it = ⟨.ok, .rws, key, code, v⟩ →
       ruleCheck (received s) ((received s).setShadow key v) c.slot ⟨.ok, .rws, key, code, v⟩ = .ok →
       Yields (.sehalWrite conn h [it]) s (answeredBy (((received s).setShadow key v).journalBy c.slot 2 (keyIdx key) (keyInst key) (keySub key))
         c.slot h 4 0 .ok [0xFF]))
     ∧ (prepItem (received s) c.slot it = ⟨.ok, .rw, key, code, v⟩ → keyIdx key ≠ 0x5100 → keyIdx key ≠ 0x1F10 →
       ruleCheck (received s) ((received s).setVal key v) c.slot ⟨.ok, .rw, key, code, v⟩ = .ok →
       ((wroteOne (received s) c.slot key v).session c.slot).isOpen = true → ((wroteOne (received s) c.slot key v).session c.slot).buffered = [] →
       (wroteOne (received s) c.slot key v).serving = true →
       Yields (.sehalWrite conn h [it]) s (answeredBy (wroteOne (received s) c.slot key v) c.slot h 4 0 .ok [0xFF])))
   ∧ (∀ (s : State) (conn : Nat) (h : SehalHdr) (c : Conn), portOn s c.port = true → s.conn? conn = some c → c.phase = .sessionOpen →
       h.seq = (s.session c.slot).nextSeq → h.seq < 65536 →
     Yields (.sehalNop conn h) s (serveBuffered 8 c.slot (serveNext s c.slot h .nop))
     ∧ Yields (.sehalClose conn h) s (serveBuffered 8 c.slot (serveNext s c.slot h .closeReq))
     ∧ (∀ items, Yields (.sehalRead conn h items) s (serveBuffered 8 c.slot (serveNext s c.slot h (.readReq items))))
     ∧ (∀ items, Yields (.sehalWrite conn h items) s (serveBuffered 8 c.slot (serveNext s c.slot h (.writeReq items))))
     ∧ (∀ idx inst sub dir total errors, Yields (.blockOpen conn h idx inst sub dir total errors) s
       (serveBuffered 8 c.slot (serveNext s c.slot h (.blockOpen idx inst sub dir total errors))))
     ∧ (∀ offset len data, Yields (.blockPiece conn h offset len data) s
       (serveBuffered 8 c.slot (serveNext s c.slot h (.blockPiece offset len data))))
     ∧ (∀ crc, Yields (.blockClose conn h crc) s (serveBuffered 8 c.slot (serveNext s c.slot h (.blockClose crc))))
     ∧ Yields (.blockAbort conn h) s (serveBuffered 8 c.slot (serveNext s c.slot h .blockAbort)))
   ∧ (∀ (s : State) (conn : Nat) (h : SehalHdr) (c : Conn), portOn s c.port = true → s.conn? conn = some c → c.phase = .sessionOpen →
       ((h.seq + 65536 - (s.session c.slot).nextSeq) % 65536 = 7) → (s.session c.slot).buffered = [] →
     Yields (.sehalNop conn h) s (s.setSession c.slot { s.session c.slot with buffered := [(h, .nop)] }))
   ∧ (∀ (s : State) (conn : Nat) (h : SehalHdr) (c : Conn) (m : Bytes), portOn s c.port = true → s.conn? conn = some c → c.phase = .sessionOpen →
       ((h.seq + 65536 - (s.session c.slot).nextSeq) % 65536 = 65520) → (s.session c.slot).cache.find? (fun p => p.1 = h.seq) = some (h.seq, m) →
     Yields (.sehalNop conn h) s (s.send (.sehal c.slot m)))
   ∧ (∀ (s : State) (conn : Nat) (h : SehalHdr) (c : Conn), portOn s c.port = true → s.conn? conn = some c → c.phase = .sessionOpen →
       ((h.seq + 65536 - (s.session c.slot).nextSeq) % 65536 = 8) →
     Yields (.sehalNop conn h) s (s.bump (Od.discardedDatagrams c.port)))
   ∧ (∀ (s : State) (k : Nat), (s.session k).buffered.find? (fun p => p.1.seq = (s.session k).nextSeq) = none →
     serveBuffered 8 k s = s)
   ∧ ∀ (s : State) (k : Nat) (h : SehalHdr), (s.session k).isOpen = true → s.serving = true → h.flags < 2 → h.count = 0 → h.deadDie = none →
     serveNext s k h .nop = (let t := s.countEv 7 0 3 1; respond (t.setSession k { t.session k with nextSeq := (h.seq + 1) % 65536 }) k h.seq 9 0
       .ok []))
  ∧ ((∀ (s : State) (k : Nat) (h : SehalHdr) (items : List ReadItem), h.flags < 2 → h.count = items.length → h.deadDie = none →
       8 + 7 * items.length ≤ 1200 → 8 + (encodeResults (readResults s k items (h.flags % 2 = 1))).length ≤ 1200 →
     serve s k h (.readReq items) = (((firstBad ((readResults s k items (h.flags % 2 = 1)).map (·.1)) 0).elim .ok (·.2)), items.length,
       encodeResults (readResults s k items (h.flags % 2 = 1)), s))
   ∧ (∀ (s : State) (k : Nat) (h : SehalHdr) (items : List WriteItem), h.flags < 2 → h.count = items.length → h.deadDie = none →
       8 + (items.map fun i => 9 + i.value.length).sum ≤ 1200 →
     serve s k h (.writeReq items) = ((writeRequest s k items).2.1, 0, leBytes 1 (writeRequest s k items).1, (writeRequest s k items).2.2))
   ∧ (∀ (s : State) (k : Nat) (h : SehalHdr) (b : SehalBody), (2 ≤ h.flags ∨ 1200 < 8 + requestOctets b) → serve s k h b = (.general, 0, [], s))
   ∧ (∀ (s : State) (k d : Nat) (h : SehalHdr), h.flags < 2 → h.count = 0 → h.deadDie = some d → d < 27 →
     serve s k h .nop = (.hardware, 0, [], s.raise (0x40 + d)))
   ∧ (∀ (s : State) (k idx inst sub total : Nat) (acc : Acc) (max : Nat), (s.session k).block = none → addrStatus idx inst sub = .ok →
       blockMax idx = some (acc, max) →
     blockOpen s k idx inst sub 0 total [] = (if acc = .wo then (.writeOnly, 0, s) else blockOpenRead s k idx inst sub [])
       ∧ blockOpen s k idx inst sub 1 total [] = blockOpenWrite s k idx inst sub total max)
   ∧ (∀ (s : State) (k idx inst sub dir total : Nat) (b : BlockXfer), (s.session k).block = some b →
     blockOpen s k idx inst sub dir total [] = (.busy, 0, s))
   ∧ (∀ (s : State) (k offset len : Nat) (data : Bytes) (b : BlockXfer), (s.session k).block = some b →
     (b.writing = false → 1 ≤ len → len ≤ 1024 → offset + len ≤ b.total →
       blockPiece s k offset len [] = (.ok, (b.content.drop offset).take len, s))
     ∧ (b.writing = true → 1 ≤ len → len ≤ 1024 → offset + len ≤ b.total → data.length = len →
       blockPiece s k offset len data = (.ok, [], setBlock s k { b with pieces := b.pieces ++ [(offset, data)] }))
     ∧ (b.total < offset + len → blockPiece s k offset len data = (.range, [], s))
     ∧ (b.writing = false → ∀ crc, blockClose s k crc = (.ok, blockDropped s k))
     ∧ blockAbort s k = (.ok, blockDropped s k))
   ∧ (∀ (s : State) (k : Nat) (b : BlockXfer), k < 8 → (s.session k).block = some b →
     ∃ t, Yields (.blockTimeout k) s t ∧ (t.session k).block = none ∧ (t.session k).blockTimedOut = true ∧ t.od = s.od)
   ∧ ∀ (s : State) (k : Nat), ((blockDropped s k).session k).block = none ∧ (blockDropped s k).od = s.od)

/-- R122–R124: a management port answers ARP, neighbour and echo requests, passes Sehal of version 1, discards and counts what it does not know; a
written configuration ends the port's sessions when it takes effect. R101, R134, R136: a port starts its session with the boot-up message once its
delay has passed; the heartbeat is sent while its time is not 0; NMT frames change nothing; the controller's errors are counted. -/
def Obligations.ManagementAndCanPortsServe : Prop :=
  ((∀ (s : State) (p : Nat), p < 2 → portOn s p = true →
     (∀ f, answered s p f = true → Yields (.mgmtFrameReceived p f) s (s.send (.reply p f)))
     ∧ (∀ a, isV4 s p a = false → Yields (.mgmtFrameReceived p (.arp a)) s (s.bump (Od.discardedDatagrams p)))
     ∧ (∀ v6 a, ourAddress s p v6 a = true → Yields (.mgmtFrameReceived p (.sehal v6 a (s.nat Od.udpPort) 1)) s s)
     ∧ (∀ v6 a port version, (ourAddress s p v6 a = false ∨ port ≠ s.nat Od.udpPort ∨ version ≠ 1) →
       Yields (.mgmtFrameReceived p (.sehal v6 a port version)) s (s.bump (Od.discardedDatagrams p)))
     ∧ ∀ f, (f = .tagged ∨ f = .fragment ∨ f = .other) → Yields (.mgmtFrameReceived p f) s (s.bump (Od.discardedDatagrams p)))
   ∧ (∀ (s : State) (p : Nat) (a data : Bytes), (isV4 s p a = true → answered s p (.arp a) = true ∧ answered s p (.echo false a data) = true)
     ∧ (isV6 s p a = true → answered s p (.neighbour a) = true ∧ answered s p (.echo true a data) = true))
   ∧ (∀ (s : State) (p : Nat) (f : MgmtFrame), p < 2 → (s.mgmtPort p).conf.mode = 0 → Yields (.mgmtFrameReceived p f) s s)
   ∧ (∀ (s : State) (p : Nat) (c : MgmtConf) (rest : List MgmtConf), p < 2 → (s.mgmtPort p).waiting = c :: rest →
     ∃ t, Yields (.mgmtPortConfigApply p) s t ∧ t.mgmtPort p = { conf := c, waiting := rest } ∧ (∀ x, x ∈ t.conns → x.port ≠ p)
       ∧ (∀ k, k < 8 → (s.session k).transport = p + 1 → (s.session k).isOpen = true → (t.session k).isOpen = false)
       ∧ (c.mode = 0 → t.flag (Od.linkUp p) = false))
   ∧ (∀ (s : State) (p : Nat), p < 2 → (s.mgmtPort p).waiting = [] → Yields (.mgmtPortConfigApply p) s s)
   ∧ ∀ (s : State) (p : Nat) (up : Bool), p < 2 →
     Yields (.mgmtLinkChange p up) s (s.setB (Od.linkUp p) (up && (s.mgmtPort p).conf.mode != 0)))
  ∧ ((∀ (s : State) (p : Nat), p < 2 → (s.canPort p).startPending = true → s.flag (Od.canSessionEnabled p) = true → s.serving = true →
     ∃ t, Yields (.canPortStart p) s t ∧ (t.canPort p).started = true ∧ (t.canPort p).startPending = false
       ∧ (t.session (canSlot p)).isOpen = true ∧ (t.session (canSlot p)).transport = 3 + p
       ∧ (t.session (canSlot p)).role = s.nat (Od.canSessionRole p) ∧ .can p (0x700 + s.nat (Od.nodeId p)) false [0] ∈ t.outbox
       ∧ t.od = s.od ∧ t.journalNext = s.journalNext + 1)
   ∧ (∀ (s : State) (p : Nat), p < 2 → (s.canPort p).started = true → s.serving = true → s.nat Od.producerHeartbeatTime ≠ 0 →
     Yields (.heartbeat p) s (s.send (.can p (0x700 + s.nat (Od.nodeId p)) false [5])))
   ∧ (∀ (s : State) (p : Nat), p < 2 → s.nat Od.producerHeartbeatTime = 0 → Yields (.heartbeat p) s s)
   ∧ (∀ (s : State) (p : Nat), p < 2 → Yields (.canNmtFrame p) s s ∧ Yields (.canBusOff p) s (s.bump (Od.busOffs p))
     ∧ Yields (.canErrorPassive p) s (s.bump (Od.errorPassiveEntries p)))
   ∧ ∀ (s : State) (old : State) (p : Nat), (canReconfigured old s p).od = s.od
       ∨ ((canReconfigured old s p).canPort p).startPending = s.flag (Od.canSessionEnabled p))

/-! ### CAN FD (chapter 05) -/

/-- R137, R138: an upload answers up to four octets at once and a longer value in segments of seven with alternating toggle; a download writes the
value when its last octet has come, and a refusal, a wrong toggle, a wrong size, a missing size, block SDO and a gap of more than 1 s are answered
with their abort codes and counted. -/
def Obligations.SdoServerTransfersValues : Prop :=
  (∀ (s : State) (p idx sub : Nat) (f : SdoFrame) (v : Bytes), p < 2 → canLive s p = true → sdoForUs s p f = true → f.deadDie = none →
      1 ≤ v.length → v.length ≤ 4 →
      readItem (setSdo s p none) (canSlot p) idx (sdoInstance s p idx) sub (s.session (canSlot p)).shadowView = (.ok, v) →
    Yields (.sdoUploadInitiate p f idx sub) s (sdoReply (setSdo s p none) p f.fd (0x43 + 4 * (4 - v.length)) idx sub (leNat v)))
  ∧ (∀ (s : State) (p idx sub : Nat) (f : SdoFrame) (v : Bytes), p < 2 → canLive s p = true → sdoForUs s p f = true → f.deadDie = none →
      4 < v.length → readItem (setSdo s p none) (canSlot p) idx (sdoInstance s p idx) sub (s.session (canSlot p)).shadowView = (.ok, v) →
    ∃ t, Yields (.sdoUploadInitiate p f idx sub) s (sdoReply t p f.fd 0x41 idx sub v.length) ∧ t.od = s.od
      ∧ (t.canPort p).sdo = some { download := false, idx := idx, sub := sub, total := v.length, data := v, fd := f.fd })
  ∧ (∀ (s : State) (p idx sub : Nat) (f : SdoFrame) (st : Status) (v : Bytes), p < 2 → canLive s p = true → sdoForUs s p f = true → st ≠ .ok →
      f.deadDie = none → readItem (setSdo s p none) (canSlot p) idx (sdoInstance s p idx) sub (s.session (canSlot p)).shadowView = (st, v) →
    Yields (.sdoUploadInitiate p f idx sub) s (sdoAbort (setSdo s p none) p f.fd idx sub st.abort st))
  ∧ (∀ (s : State) (p idx sub d : Nat) (f : SdoFrame), p < 2 → canLive s p = true → sdoForUs s p f = true → f.deadDie = some d → d < 27 →
    Yields (.sdoUploadInitiate p f idx sub) s
      (sdoAbort ((setSdo s p none).raise (0x40 + d)) p f.fd idx sub (Status.abort .hardware) .hardware))
  ∧ (∀ (s : State) (p idx sub : Nat) (f : SdoFrame), p < 2 → sdoForUs s p f = false → Yields (.sdoUploadInitiate p f idx sub) s s)
  ∧ (∀ (s : State) (p : Nat) (f : SdoFrame), (f.extended = true ∨ f.nonIso = true ∨ f.cobId ≠ 0x600 + s.nat (Od.nodeId p)) → sdoForUs s p f = false)
  ∧ (∀ (s : State) (p : Nat) (f : SdoFrame) (x : SdoXfer), p < 2 → canLive s p = true → sdoForUs s p f = true → (s.canPort p).sdo = some x →
      x.download = false → 7 < x.data.length →
    Yields (.sdoUploadSegment p f x.toggle) s (sdoSend (setSdo s p (some { x with data := x.data.drop 7, toggle := !x.toggle, fd := f.fd })) p
      f.fd (leBytes 1 (if x.toggle then 0x10 else 0) ++ x.data.take 7)))
  ∧ (∀ (s : State) (p : Nat) (f : SdoFrame) (x : SdoXfer), p < 2 → canLive s p = true → sdoForUs s p f = true → (s.canPort p).sdo = some x →
      x.download = false → x.data.length ≤ 7 →
    Yields (.sdoUploadSegment p f x.toggle) s (sdoSend (setSdo s p none) p f.fd
      (leBytes 1 ((if x.toggle then 0x10 else 0) + 2 * (7 - x.data.length) + 1) ++ x.data ++ List.replicate (7 - x.data.length) 0)))
  ∧ (∀ (s : State) (p idx sub n : Nat) (f : SdoFrame) (data : Bytes), p < 2 → canLive s p = true → sdoForUs s p f = true →
    Yields (.sdoDownloadInitiate p f idx sub (some n) false data) s
      ((setSdo (setSdo s p none) p (some { download := true, idx := idx, sub := sub, total := n, data := [], fd := f.fd })).send
        (.can p (0x580 + s.nat (Od.nodeId p)) f.fd (leBytes 1 0x60 ++ leBytes 2 idx ++ leBytes 1 sub ++ leBytes 4 0)))
    ∧ Yields (.sdoDownloadInitiate p f idx sub none false data) s (sdoAbort (setSdo s p none) p f.fd idx sub 0x06070010 .general))
  ∧ (∀ (s : State) (p idx sub n : Nat) (f : SdoFrame) (data : Bytes) (u : State), p < 2 → canLive s p = true → sdoForUs s p f = true → n ≤ 4 →
      u.serving = true → sdoWrite (setSdo (setSdo s p none) p none) p idx sub (data.take n) f.deadDie = (.ok, u) →
    Yields (.sdoDownloadInitiate p f idx sub (some n) true data) s
      (u.send (.can p (0x580 + s.nat (Od.nodeId p)) f.fd (leBytes 1 0x60 ++ leBytes 2 idx ++ leBytes 1 sub ++ leBytes 4 0))))
  ∧ (∀ (s : State) (p : Nat) (f : SdoFrame) (x : SdoXfer) (data : Bytes), p < 2 → canLive s p = true → sdoForUs s p f = true →
      (s.canPort p).sdo = some x → x.download = true → data.length ≤ 7 → (x.data ++ data).length ≤ x.total →
    Yields (.sdoDownloadSegment p f x.toggle data false) s
      ((setSdo s p (some { x with data := x.data ++ data, toggle := !x.toggle, fd := f.fd })).send (.can p (0x580 + s.nat (Od.nodeId p)) f.fd
        (leBytes 1 (0x20 + if x.toggle then 0x10 else 0) ++ List.replicate 7 0))))
  ∧ (∀ (s : State) (p : Nat) (f : SdoFrame) (x : SdoXfer) (data : Bytes) (u : State), p < 2 → canLive s p = true → sdoForUs s p f = true →
      (s.canPort p).sdo = some x → x.download = true → data.length ≤ 7 → (x.data ++ data).length = x.total → u.serving = true →
      sdoWrite (setSdo s p none) p x.idx x.sub (x.data ++ data) f.deadDie = (.ok, u) →
    Yields (.sdoDownloadSegment p f x.toggle data true) s (u.send (.can p (0x580 + s.nat (Od.nodeId p)) f.fd
      (leBytes 1 (0x20 + if x.toggle then 0x10 else 0) ++ List.replicate 7 0))))
  ∧ (∀ (s : State) (p : Nat) (x : SdoXfer), p < 2 → canLive s p = true → (s.canPort p).sdo = some x →
    (∀ f data last, sdoForUs s p f = true → x.download = true →
      Yields (.sdoDownloadSegment p f (!x.toggle) data last) s (sdoAbort s p f.fd x.idx x.sub 0x05030000 .general))
    ∧ (∀ f, sdoForUs s p f = true → x.download = false →
      Yields (.sdoUploadSegment p f (!x.toggle)) s (sdoAbort s p f.fd x.idx x.sub 0x05030000 .general))
    ∧ Yields (.sdoSegmentTimeout p) s (sdoAbort s p x.fd x.idx x.sub 0x05040000 .general))
  ∧ (∀ (s : State) (p idx sub : Nat) (f : SdoFrame), p < 2 → canLive s p = true → sdoForUs s p f = true → Yields (.sdoBlockRequest p f idx sub) s
      ((sdoReply (s.bump (Od.sdoAborts p)) p f.fd 0x80 idx sub 0x05040001).refuse (canSlot p) .general))
  ∧ ∀ (s : State) (p idx sub code : Nat) (fd : Bool) (st : Status), ((sdoAbort s p fd idx sub code st).canPort p).sdo = none
      ∧ (sdoAbort s p fd idx sub code st).od = (s.bump (Od.sdoAborts p)).od
      ∧ .can p (0x580 + s.nat (Od.nodeId p)) fd (leBytes 1 0x80 ++ leBytes 2 idx ++ leBytes 1 sub ++ leBytes 4 code)
        ∈ (sdoAbort s p fd idx sub code st).outbox

/-- R139–R141: the event timer sends a TPDO whose mapping is valid; a sample sends a changed value at once, or keeps it until the inhibit time ends;
an EMCY message that waits goes out when its inhibit time ends. R142–R148: port x reads the status byte of the address, or its test pattern; with the
rails off only the module's entry is not zero, and without AUX3V3 nothing is; an address between the entries reads zero; the carrier, tray and leaf
entries show their state fields. -/
def Obligations.StatusReachesBusAndPort : Prop :=
  ((∀ (s : State) (p j : Nat), p < 2 → j < 4 → tpdoOn s p j = true → s.nat (Od.eventTimer j p) ≠ 0 →
     Yields (.tpdoEventTimer p j) s (tpdoSend s p j ((s.tpdo p j).sample.getD (tpdoPayload s p j))))
   ∧ (∀ (s : State) (p j : Nat), tpdoOn s p j = true →
     ∃ u, u = setTpdo s p j { s.tpdo p j with sample := some (tpdoPayload s p j) }
       ∧ ((s.tpdo p j).last ≠ some (tpdoPayload s p j) → (s.tpdo p j).inhibited = false → tpdoSample s p j = tpdoSend u p j (tpdoPayload s p j))
       ∧ ((s.tpdo p j).last ≠ some (tpdoPayload s p j) → (s.tpdo p j).inhibited = true →
         tpdoSample s p j = setTpdo u p j { u.tpdo p j with waiting := true })
       ∧ ((s.tpdo p j).last = some (tpdoPayload s p j) → tpdoSample s p j = u))
   ∧ (∀ (s : State) (p j : Nat), tpdoOn s p j = false → tpdoSample s p j = s)
   ∧ (∀ s : State, Yields .tpdoSample s
       ((List.range 4).foldl (fun t j => tpdoSample t 1 j) ((List.range 4).foldl (fun t j => tpdoSample t 0 j) s)))
   ∧ (∀ (s : State) (p j : Nat) (v : Bytes), p < 2 → ((tpdoSend s p j v).tpdo p j).last = some v
       ∧ ((tpdoSend s p j v).tpdo p j).waiting = false ∧ (tpdoSend s p j v).od = s.od)
   ∧ (∀ (s : State) (p j : Nat), p < 2 → j < 4 → (s.tpdo p j).waiting = false →
     Yields (.tpdoInhibitExpired p j) s (setTpdo s p j { s.tpdo p j with inhibited := false, waiting := false }))
   ∧ (∀ (s : State) (p j : Nat) (v : Bytes), p < 2 → j < 4 → (s.tpdo p j).waiting = true → tpdoOn s p j = true →
       (s.tpdo p j).sample = some v → (s.tpdo p j).last ≠ some v →
     Yields (.tpdoInhibitExpired p j) s (tpdoSend (setTpdo s p j { s.tpdo p j with inhibited := false, waiting := false }) p j v))
   ∧ (∀ (s : State) (p : Nat), p < 2 → (s.canPort p).emcy = [] →
     Yields (.emcyInhibitExpired p) s (s.setCanPort p { s.canPort p with emcyInhibit := false }))
   ∧ ∀ (s : State) (p key : Nat) (raised : Bool) (m : Bytes) (rest : List (Nat × Bool × Bytes)), p < 2 →
       (s.canPort p).emcy = (key, raised, m) :: rest →
     ∃ t, Yields (.emcyInhibitExpired p) s t ∧ (t.canPort p).emcy = rest
       ∧ t.outbox.head? = some (.can p (0x080 + s.nat (Od.nodeId p)) false m) ∧ t.od = s.od)
  ∧ ((∀ (s : State) (x addr : Nat), addr < 1048576 →
     (s.nat (Od.testPattern x) = 0 → fspRead s x addr = statusByte s addr)
     ∧ (s.nat (Od.testPattern x) = 1 → fspRead s x addr = addr % 256)
     ∧ (s.nat (Od.testPattern x) = 2 → fspRead s x addr = addr / 256 % 256)
     ∧ (s.nat (Od.testPattern x) = 3 → fspRead s x addr % 16 = addr / 65536 % 16 ∧ fspRead s x addr / 16 = 15 - addr / 65536 % 16))
   ∧ (∀ (s : State) (addr : Nat), s.pins.aux3v3 = false → statusByte s addr = 0)
   ∧ (∀ (s : State) (addr : Nat), s.boot.railsOn = false → addr ≠ 0 → statusByte s addr = 0)
   ∧ (∀ (s : State) (addr : Nat), addr ≠ 0 → (addr < 0x1000 ∨ (0x1040 ≤ addr ∧ addr < 0x2000) ∨ (0x2800 ≤ addr ∧ addr < 0x3000)
       ∨ (0x3800 ≤ addr ∧ addr < 0x40000) ∨ 0x80000 ≤ addr) → statusByte s addr = 0)
   ∧ (∀ (s : State) (n : Nat), n < 64 → s.pins.aux3v3 = true → s.boot.railsOn = true →
     statusByte s (fsCarrier n) / 8 % 8 = carrierStateCode s n
     ∧ (128 ≤ statusByte s (fsCarrier n) ↔ ∃ p, p ∈ s.sources ∧ p.2.openAlarm = true ∧ (entriesOfSource s p.1).contains (fsCarrier n) = true))
   ∧ (∀ (s : State) (t : Nat), t < 2048 → s.pins.aux3v3 = true → s.boot.railsOn = true → statusByte s (fsTray t) / 16 % 4 = trayStateCode s t)
   ∧ (∀ (s : State) (l : Nat), l < 262144 → s.pins.aux3v3 = true → s.boot.railsOn = true → (s.ctx l).state < 8 →
     statusByte s (fsLeaf l) / 8 % 8 = (s.ctx l).state)
   ∧ (∀ (s : State) (addr bit : Nat), Yields (.eventHoldExpired addr bit) s { s with holds := s.holds.filter fun h => !holdFalls addr bit h })
   ∧ ∀ (s : State) (addr bit : Nat), (s.hold addr bit).held addr bit = true
       ∧ (State.held { s with holds := s.holds.filter fun h => !holdFalls addr bit h } addr bit) = false
       ∧ ∀ a b, b < 6 → bit < 6 → (a, b) ≠ (addr, bit) →
         (State.held { s with holds := s.holds.filter fun h => !holdFalls addr bit h } a b) = s.held a b)

/-! ### The optical front end (chapter 06) -/

/-- R155, R156, R165: a lost line darkens the carrier and raises `LOS_COMB_LINE`, a line that returns is judged again, and once it is stable the alarm
ends; `LOS_SIGNAL` and `RX_OVERLOAD` follow the received power at their levels with their hysteresis. R167–R171: the end of a window takes the powers
and clips it measured, and a channel of the gain loop steps its analog gain by one with the digital gain compensating, within 2,048 to 8,192; an
engine that is down measures nothing. -/
def Obligations.LightAndGainAreJudged : Prop :=
  ((∀ (s : State) (n : Nat) (power : F32), n < 64 → s.nat (Od.lineState n) = 1 → s.engineUp n = true → s.domUp (domPort (portOf n)) = true →
       f32LtRat power (-6) 1 = true → (s.front n).lineWaits = false →
     ∃ u, u = (((s.setN (Od.lineState n) 0).setF (Od.linePower n) (powerReading power)).bump (Od.lineLosses n)).setCond (srcCarrier n 0) true
       ∧ Yields (.combLineLost n power) s (launchJudge (rxJudge
         ((u.setFront n { u.front n with lineHeld := true, lineWaits := true }).setB (Od.biasLocked n) false) n) n))
   ∧ (∀ (s : State) (n : Nat) (power : F32), n < 64 → (s.nat (Od.lineState n) ≠ 1 ∨ f32LtRat power (-6) 1 = false) →
     Yields (.combLineLost n power) s s)
   ∧ (∀ (s : State) (n : Nat) (power : F32), n < 64 → s.nat (Od.lineState n) ≠ 1 → s.domUp (domPort (portOf n)) = true →
     (f32GeRat power (-4) 1 = true → Yields (.combLineReturn n power) s
       (launchJudge (rxJudge ((s.setN (Od.lineState n) 1).setF (Od.linePower n) (powerReading power)) n) n))
     ∧ (f32GeRat power (-4) 1 = false → Yields (.combLineReturn n power) s s))
   ∧ (∀ (s : State) (n : Nat), n < 64 → s.nat (Od.lineState n) = 1 →
     ∃ u, u = s.setCond (srcCarrier n 0) false ∧ Yields (.combLineStable n) s (launchJudge (rxJudge (u.setFront n
       { u.front n with lineWaits := false, lineHeld := (u.front n).lineHeld && u.nat (Od.biasMode n) != 1 }) n) n))
   ∧ (∀ (s : State) (n : Nat) (power : F32), n < 64 → inService s n = true → isHub s n = false → s.engineUp n = true →
     (f32LtRat power (s.int (Od.losThreshold n)) 10 = true → Yields (.losSignalTimer n true power) s
       (rxJudge ((s.setF (Od.rxPower n) (powerReading power)).setCond (srcCarrier n 1) true) n))
     ∧ (f32GeRat power (s.int (Od.losThreshold n) + 10) 10 = true → Yields (.losSignalTimer n false power) s
       (rxJudge ((s.setF (Od.rxPower n) (powerReading power)).setCond (srcCarrier n 1) false) n)))
   ∧ (∀ (s : State) (n : Nat) (power : F32), n < 64 → s.engineUp n = true →
     (f32GtRat power 4 1 = true → Yields (.rxOverloadTimer n true power) s
       ((s.setF (Od.rxPower n) (powerReading power)).setCond (srcCarrier n 2) true))
     ∧ (f32LeRat power 3 1 = true → Yields (.rxOverloadTimer n false power) s
       ((s.setF (Od.rxPower n) (powerReading power)).setCond (srcCarrier n 2) false)))
   ∧ (∀ (s : State) (n key : Nat), n < 64 → (key = Od.lineState n ∨ key = Od.linePower n ∨ key = Od.rxPower n) →
     (launchJudge s n).val key = s.val key ∧ (rxJudge s n).val key = s.val key ∧ (launchJudge s n).sources = s.sources)
   ∧ (∀ (s : State) (n : Nat), n < 64 → s.nat (Od.rxState n) = 1 → (usableSignal s n = true → rxJudge s n = acquire (dcNote s n) n 2)
     ∧ (usableSignal s n = false → rxJudge s n = dcNote s n))
   ∧ ∀ x : F32, (f32LtRat x (-50) 1 = true → powerReading x = 0xC2700000) ∧ (f32LtRat x (-50) 1 = false → powerReading x = x))
  ∧ ((∀ (s : State) (n : Nat) (rms : List F32) (means : List (List (List Int))) (clips : List Nat) (light : LightReading), n < 64 →
       s.engineUp n = true → s.nat (Od.agcMode n) = 1 →
     ∃ t, Yields (.agcWindowEnd n rms means clips light) s t
       ∧ t.f32 (Od.linePower n) = powerReading light.line ∧ t.f32 (Od.rxPower n) = powerReading light.rx
       ∧ (∀ j, j < 4 → t.f32 (Od.channelRms n j) = rms.getD j 0 ∧ t.nat (Od.gainIndex n j) = s.nat (Od.gainIndex n j)
         ∧ (t.front n).clips.getD j 0 = (s.front n).clips.getD j 0 + clips.getD j 0) ∧ t.sources = s.sources)
   ∧ (∀ (s : State) (n : Nat) (rms : List F32) (means : List (List (List Int))) (clips : List Nat) (light : LightReading), n < 64 →
     s.engineUp n = false → Yields (.agcWindowEnd n rms means clips light) s s)
   ∧ (∀ (s : State) (n j : Nat) (rms : F32), n < 64 → j < 4 → s.nat (Od.gainIndex n j) ≤ 47 →
     (agcChannel s n j rms).nat (Od.gainIndex n j) ≤ 47 ∧ 2048 ≤ (agcChannel s n j rms).nat (Od.digitalGain n j)
       ∧ (agcChannel s n j rms).nat (Od.digitalGain n j) ≤ 8192
       ∧ (agcChannel s n j rms).nat (Od.gainIndex n j) ≤ s.nat (Od.gainIndex n j) + 1
       ∧ s.nat (Od.gainIndex n j) ≤ (agcChannel s n j rms).nat (Od.gainIndex n j) + 1)
   ∧ ∀ (s : State) (n : Nat), n < 64 →
     Yields (.frontEndFadeDone n true) s (s.setFront n { s.front n with txFade := none })
     ∧ Yields (.frontEndFadeDone n false) s (s.setFront n { s.front n with rxFade := none }))

/-- R157, R158, R163: a loop that locks lets the launch rise, one out of lock for its time raises the alarm and counts, and a heater at 40 mW or more
raises its alarm, which clears below 38 mW; the power of a heater is at most 40 mW, and in hold mode it does not move. R160–R162: a ramp that completes reaches its level or the dark level; a carrier that may launch and is dark
ramps up over 20 dB in `TurnOnTime`, and one that may not goes dark without a ramp. -/
def Obligations.LoopsAndLaunchFollowTheirRules : Prop :=
  ((∀ (s : State) (n : Nat) (bias : List Int), n < 64 → s.nat (Od.lineState n) = 1 → (s.front n).lineWaits = false →
       s.nat (Od.biasMode n) = 0 → s.domUp (domPort (portOf n)) = true →
     Yields (.biasLockAchieved n bias) s
       (launchJudge ((biasTo (s.setFront n { s.front n with lineHeld := false, unlocked := false }) n bias).setB (Od.biasLocked n) true) n))
   ∧ (∀ (s : State) (n j : Nat) (bias : List Int), n < 64 → j < 6 → (biasTo s n bias).int (Od.bias n j) = bias.getD j 0)
   ∧ (∀ (s : State) (n : Nat), n < 64 → s.nat (Od.biasMode n) = 0 → s.engineUp n = true →
     ((s.source (srcCarrier n 3)).real = false → Yields (.biasErrorTimer n true) s
       (((s.setCond (srcCarrier n 3) true).bump (Od.biasRelocks n)).setB (Od.biasLocked n) false))
     ∧ ((s.source (srcCarrier n 3)).real = true → Yields (.biasErrorTimer n false) s
       ((s.setCond (srcCarrier n 3) false).setB (Od.biasLocked n) true)))
   ∧ (∀ (s : State) (n : Nat) (tx lo : F32), n < 64 → s.engineUp n = true → s.nat (Od.heaterMode n) = 0 → s.nat (Od.lineState n) = 1 →
     ∃ u, u = (s.setF (Od.txFilterHeater n) (heaterPower tx)).setF (Od.loFilterHeater n) (heaterPower lo)
       ∧ (f32GeRat (heaterPower tx) 40 1 = true ∨ f32GeRat (heaterPower lo) 40 1 = true →
         Yields (.heaterLimitTimer n true tx lo) s (u.setCond (srcCarrier n 4) true))
       ∧ (f32LtRat (heaterPower tx) 38 1 = true → f32LtRat (heaterPower lo) 38 1 = true →
         Yields (.heaterLimitTimer n false tx lo) s (u.setCond (srcCarrier n 4) false)))
   ∧ (∀ (s : State) (n : Nat) (tx lo : F32), n < 64 → s.engineUp n = true → s.nat (Od.heaterMode n) ≠ 0 →
     (f32GeRat (s.f32 (Od.txFilterHeater n)) 40 1 = true → Yields (.heaterLimitTimer n true tx lo) s (s.setCond (srcCarrier n 4) true))
     ∧ (f32LtRat (s.f32 (Od.txFilterHeater n)) 38 1 = true → f32LtRat (s.f32 (Od.loFilterHeater n)) 38 1 = true →
       Yields (.heaterLimitTimer n false tx lo) s (s.setCond (srcCarrier n 4) false)))
   ∧ ∀ x : F32, (f32GtRat x 40 1 = true → heaterPower x = 0x42200000) ∧ (f32GtRat x 40 1 = false → heaterPower x = x))
  ∧ ((∀ (s : State) (n : Nat) (r : Ramp), n < 64 → (s.front n).ramp = some r →
     (r.dark = true → Yields (.launchRampDone n) s (goDark s n))
     ∧ (r.dark = false → Yields (.launchRampDone n) s ((s.setFront n { s.front n with ramp := none }).setN (Od.txState n) 2)))
   ∧ (∀ (s : State) (n : Nat), s.nat (Od.txState n) = 0 → mayLaunch s n = true → inService s n = true →
     launchJudge s n = startRamp s n (100 * s.int (Od.launchPower n) - 20000) (100 * s.int (Od.launchPower n)) (turnOnMicros s n 20000) false)
   ∧ (∀ (s : State) (n : Nat), s.nat (Od.txState n) = 2 → mayLaunch s n = false → launchJudge s n = goDark s n)
   ∧ (∀ (s : State) (n : Nat), turnOnMicros s n 20000 = s.nat (Od.turnOnTime (portOf n)))
   ∧ (∀ (s : State) (n : Nat), n < 64 → ((goDark s n).front n).ramp = none ∧ (launchLevel (goDark s n) n) = none
     ∧ (goDark s n).nat (Od.txState n) = darkState s n)
   ∧ ∀ (s : State) (n : Nat), s.running = false → mayLaunch s n = false)

/-- R72, R154, R159, R179, R511: an enable starts the carrier and a disable stops it; the module is in `TRAFFIC` exactly while a carrier is in
service; an enable of an engine that is not calibrated or not powered, and one in `SAFE`, is refused; a port's light moves only with every carrier of
the port disabled, and calibrates its engines again. -/
def Obligations.CarriersEnterAndLeaveService : Prop :=
  (∀ (s : State) (k n : Nat), Allows s k (Od.carrierEnable n) 1 (.u 1) → s.flag (Od.carrierEnable n) = false →
    Yields (.carrierEnable k n) s (commissioningEnds s (carrierStart (wrote s k (Od.carrierEnable n) (.u 1)) n) k))
  ∧ (∀ (s : State) (k n : Nat), s.answers k = true → writeGate s k 0x3010 n 1 1 = .ok → s.flag (Od.carrierEnable n) = false →
      (s.boot.st = .safe ∨ s.engineUp n = false ∨ s.nat (Od.calState n) ≠ 2) →
    Yields (.carrierEnable k n) s (s.refuse k .state))
  ∧ (∀ (s : State) (k n : Nat), Allows s k (Od.carrierEnable n) 0 (.u 0) → s.flag (Od.carrierEnable n) = true →
    ∃ u, u = wrote s k (Od.carrierEnable n) (.u 0) ∧ Yields (.carrierDisable k n) s
      (commissioningEnds s (carrierStop (u.setEngine n { u.engine n with heldEnable := false }) n) k))
  ∧ (∀ (s : State) (n : Nat), n < 64 → s.engineUp n = true → s.nat (Od.calState n) = 2 → (s.engine n).resetting = false → isHub s n = false →
      s.nat (Od.rxState n) = 0 →
    ((carrierStart s n).nat (Od.rxState n) = 1 ∨ (carrierStart s n).nat (Od.rxState n) = 2)
    ∧ (s.boot.st = .ready → inService s n = true → (carrierStart s n).boot.st = .traffic))
  ∧ (∀ (s : State) (n : Nat), n < 64 → (carrierStop s n).nat (Od.rxState n) = 0 ∧ (carrierStop s n).nat (Od.bcState n) = 0)
  ∧ (∀ (s : State), s.boot.st = .ready ∨ s.boot.st = .traffic →
    ((trafficJudge s).boot.st = .traffic ↔ (List.range 64).any (inService s) = true))
  ∧ (∀ (s : State) (n : Nat), n < 64 → (rxStop s n).nat (Od.rxState n) = 0)
  ∧ (∀ (s : State) (k p source spacing : Nat) (anchor : Int), s.answers k = true →
      (∀ i, 1 ≤ i → i ≤ 3 → writeGate s k 0x3000 p i (if i = 1 then source else if i = 2 then unsignedOf 16 anchor else spacing) = .ok) →
      source < 256 → spacing < 256 → (-32768 : Int) ≤ anchor → anchor < 32768 →
      (∀ r, subRow 0x3000 1 = some r → rngOk r.rng (.u source) = true) → (∀ r, subRow 0x3000 2 = some r → rngOk r.rng (.i anchor) = true) →
      (∀ r, subRow 0x3000 3 = some r → rngOk r.rng (.u spacing) = true) →
      (∀ j, j < 8 → s.flag (Od.carrierEnable (8 * p + j)) = false) →
      (∃ c, c = ((s.setVal (Od.lightSource p) (.u source)).setVal (Od.anchorIndex p) (.i anchor)).setVal (Od.spacingIndex p) (.u spacing)
        ∧ bandOk c p = true ∧ ∀ j, j < 8 → slotFits c (8 * p + j) = true) →
    ∃ t, Yields (.portLightChange k p source anchor spacing) s t ∧ t.nat (Od.lightSource p) = source ∧ t.int (Od.anchorIndex p) = anchor
      ∧ t.nat (Od.spacingIndex p) = spacing)
  ∧ (∀ (s : State) (p : Nat), p < 8 → s.beforeCalibrate = false → ∀ j, j < 8 → s.engineUp (8 * p + j) = true →
    (portRecalibrate s p).nat (Od.calState (8 * p + j)) = 1 ∧ ((portRecalibrate s p).engine (8 * p + j)).calStep = 2)

/-! ### The receive DSP (chapter 07) -/

/-- R180–R187, R219: a step of an acquisition completes and the next begins, its last enters `TRACK`, and one that exceeds its bound starts the
acquisition again and counts; `Reacquire` leaves `TRACK`; a held warm state falls after its time, and a snapshot keeps the last two. R198, R206, R217,
R218: a timing, pilot or frequency failure in `TRACK` loses lock with its cause, raises `RX_LOL` and acquires again; a singular filter in acquisition
takes the complement; the alarm timer raises `RX_LOL` while an acquisition with signal lasts. -/
def Obligations.ReceiverAcquiresAndLosesLock : Prop :=
  ((∀ (s : State) (n : Nat) (a : Acquired), n < 64 → s.nat (Od.rxState n) = 2 → usableSignal s n = true → s.nat (Od.acquireKind n) = 2 →
     ((s.dsp n).step = 1 → Yields (.acquisitionStepDone n a) s (s.setDsp n { s.dsp n with step := 2 }))
     ∧ ((s.dsp n).step = 5 → Yields (.acquisitionStepDone n a) s
       ((s.setDsp n { s.dsp n with step := 6 }).setF (Od.carrierRecoveryFreqOffset n) a.freq))
     ∧ ((s.dsp n).step = 2 → Yields (.acquisitionStepDone n a) s
       (ladleLoad (s.setDsp n { s.dsp n with step := 3 }) n (s.dsp n).searchMin (s.dsp n).searchMax a.dispersion))
     ∧ ((s.dsp n).step = 4 → Yields (.acquisitionStepDone n a) s (tapsAdapt (s.setDsp n { s.dsp n with step := 5 }) n a.grad))
     ∧ ((s.dsp n).step = 6 → Yields (.acquisitionStepDone n a) s (pilotStep (s.setDsp n { s.dsp n with step := 7 }) n a)))
   ∧ (∀ (s : State) (n : Nat) (lo hi found : Int), n < 64 → lo ≤ hi →
     ((s.dsp n).mode = 1 → (ladleLoad s n lo hi found).int (Od.dispersionNow n) = s.int (Od.dispersionSet n))
     ∧ ((s.dsp n).mode ≠ 1 → lo ≤ (ladleLoad s n lo hi found).int (Od.dispersionNow n)
       ∧ (ladleLoad s n lo hi found).int (Od.dispersionNow n) ≤ hi))
   ∧ (∀ (s : State) (n : Nat) (a : Acquired) (w : Warm), n < 64 → s.nat (Od.rxState n) = 2 → usableSignal s n = true →
       s.nat (Od.acquireKind n) = 1 → (s.dsp n).step = 1 → (s.dsp n).held = some w →
     (w.tone ≤ 2 * a.tone → Yields (.acquisitionStepDone n a) s ((s.setDsp n { s.dsp n with step := 2 }).setB (Od.timingLocked n) true))
     ∧ (2 * a.tone < w.tone → Yields (.acquisitionStepDone n a) s (attemptFailed s n)))
   ∧ (∀ (s : State) (n : Nat) (a : Acquired), n < 64 → s.nat (Od.rxState n) = 2 → usableSignal s n = true → s.nat (Od.acquireKind n) = 2 →
       (s.dsp n).step = 8 → krytelm s n = false →
     Yields (.acquisitionStepDone n a) s (trackEntry ((s.setN (Od.alignState n) 2).setN (Od.rxBlockCounter n) 0) n))
   ∧ (∀ (s : State) (n : Nat), s.nat (Od.rxState n) = 2 → n < 64 → (trackEntry s n).nat (Od.rxState n) = 3
       ∧ (trackEntry s n).nat (Od.lastAcquireMicros n) = min (s.uptime - (s.dsp n).began) 4294967295)
   ∧ (∀ (s : State) (n : Nat), n < 64 → s.nat (Od.rxState n) = 2 → usableSignal s n = true → s.nat (Od.acquireKind n) = 2 →
       (s.dsp n).held = none →
     Yields (.acquisitionStepTimeout n) s
       (acquire ((s.bump (Od.acquireFailures n)).setDsp n { s.dsp n with warmFails := (s.dsp n).warmFails }) n 2))
   ∧ (∀ (s : State) (n kind : Nat), n < 64 → (acquire s n kind).nat (Od.rxState n) = 2 ∧ (acquire s n kind).nat (Od.acquireKind n) = kind
       ∧ ((acquire s n kind).dsp n).step = 1 ∧ (acquire s n kind).nat (Od.alignState n) = 0)
   ∧ (∀ (s : State) (n : Nat), n < 64 → (attemptFailed s n).nat (Od.rxState n) = 2 ∧ ((attemptFailed s n).dsp n).step = 1)
   ∧ (∀ (s : State) (n cause : Nat), n < 64 → s.nat (Od.rxState n) = 3 → (leaveTrack s n cause).flag (Od.measuresValid n) = false
     ∧ (leaveTrack s n cause).nat (Od.trackLosses n) = (s.bump (Od.trackLosses n)).nat (Od.trackLosses n)
     ∧ (cause ≠ 0 → (leaveTrack s n cause).nat (Od.lastLossCause n) = cause))
   ∧ (∀ (s : State) (n : Nat), n < 64 → s.nat (Od.rxState n) = 4 →
     Yields (.warmHoldExpired n) s (rxJudge ((s.setN (Od.rxState n) 1).setDsp n { s.dsp n with held := none }) n))
   ∧ (∀ (s : State) (n tone : Nat), n < 64 → s.nat (Od.rxState n) = 3 →
     ∃ t, Yields (.warmSnapshot n tone) s t ∧ (t.dsp n).snaps = (⟨s.int (Od.dispersionNow n), (s.dsp n).taps, s.f32 (Od.clockOffset n),
       s.f32 (Od.carrierRecoveryFreqOffset n), tone⟩ :: (s.dsp n).snaps).take 2 ∧ t.od = s.od)
   ∧ (∀ (s : State) (k n : Nat), Admits s k (Od.reacquire n) 2 → s.nat (Od.rxState n) = 3 → s.armed n = false →
     Yields (.reacquire k n 2) s (acquire (leaveTrack (noted s k (Od.reacquire n)) n 7) n 2))
   ∧ (∀ (s : State) (k n : Nat), Admits s k (Od.reacquire n) 1 → s.nat (Od.rxState n) = 2 → s.armed n = false → (s.dsp n).held = none →
     Yields (.reacquire k n 1) s (acquire (noted s k (Od.reacquire n)) n 2))
   ∧ ∀ (s : State) (k n code : Nat), Admits s k (Od.reacquire n) code → (code = 1 ∨ code = 2) → s.nat (Od.rxState n) ≠ 2 →
     s.nat (Od.rxState n) ≠ 3 → Yields (.reacquire k n code) s (s.refuse k .state))
  ∧ ((∀ (s : State) (n : Nat), n < 64 → s.nat (Od.rxState n) = 3 →
     Yields (.timingLockLoss n) s (lockLost (s.setB (Od.timingLocked n) false) n 3)
     ∧ Yields (.pilotSyncLoss n) s (lockLost s n 4) ∧ Yields (.frequencyOutOfRange n) s (lockLost s n 6)
     ∧ ∀ run, singular (run.map fun w => whiskOut (s.dsp n).taps w.1 w.2) = true → Yields (.singularityCheck n run) s (lockLost s n 4))
   ∧ (∀ (s : State) (n : Nat) (run : List (List (Int × Int) × List (Int × Int))), n < 64 →
     (singular (run.map fun w => whiskOut (s.dsp n).taps w.1 w.2) = true → blindRuns s n = true → Yields (.singularityCheck n run) s
       ((s.bump (Od.singularities n)).setDsp n { s.dsp n with taps := complementTaps (s.dsp n).taps }))
     ∧ (singular (run.map fun w => whiskOut (s.dsp n).taps w.1 w.2) = false → Yields (.singularityCheck n run) s s))
   ∧ (∀ (s : State) (n : Nat), n < 64 → s.nat (Od.rxState n) = 2 → usableSignal s n = true →
     Yields (.rxLolTimer n) s (s.setCond (srcCarrier n 7) true))
   ∧ (∀ (s : State) (n cause : Nat), n < 64 → s.nat (Od.rxState n) = 3 → 3 ≤ cause → cause ≤ 6 →
     (lockLost s n cause).nat (Od.rxState n) = 2 ∧ (lockLost s n cause).nat (Od.lastLossCause n) = cause
       ∧ (lockLost s n cause).flag (Od.measuresValid n) = false
       ∧ (lockLost s n cause).nat (Od.trackLosses n) = (s.bump (Od.trackLosses n)).nat (Od.trackLosses n))
   ∧ ∀ (s : State) (n : Nat), n < 64 → s.nat (Od.rxState n) = 3 → s.nat (Od.warmAttempts n) = 0 →
     (lockLost s n 4).nat (Od.acquireKind n) = 2)

/-- R191–R194: in `TRACK` the Ladle follows a residual of at least the step, within what its transform holds, through a fade; a copy of
`DispersionSet` is taken at once where it fits. R200–R205: gating moves by at most one pair and follows `TapGating`; the estimates are taken from what
the loops report, the slips counted; neither is taken from a receive path that is off. -/
def Obligations.LadleAndWhiskFollowTheFibre : Prop :=
  ((∀ (s : State) (n : Nat), n < 64 → s.nat (Od.rxState n) = 3 → (s.dsp n).mode = 0 → s.flag (Od.ladleTrack n) = true → (s.dsp n).fade = none →
       1000 * s.nat (Od.trackStep n) ≤ (s.dsp n).residual.natAbs →
       (s.int (Od.dispersionNow n) + ladleMove (s.dsp n).residual).natAbs ≤ ladleMax s n →
     Yields (.ladleTrackUpdate n) s ((ladleFadeTo s n (s.int (Od.dispersionNow n) + ladleMove (s.dsp n).residual)).bump (Od.trackUpdates n)))
   ∧ (∀ (s : State) (n : Nat), n < 64 → (s.dsp n).fade ≠ none → (s.dsp n).due = false →
     Yields (.ladleFadeDone n) s (s.setDsp n { s.dsp n with fade := none, due := false }))
   ∧ (∀ (s : State) (n : Nat), n < 64 → s.nat (Od.rxState n) = 3 → (s.dsp n).mode = 0 → s.flag (Od.ladleTrack n) = true →
       (s.dsp n).fade ≠ none → 1000 * s.nat (Od.trackStep n) ≤ (s.dsp n).residual.natAbs →
     Yields (.ladleTrackUpdate n) s (s.setDsp n { s.dsp n with due := true })
     ∧ ((s.dsp n).due = true → Yields (.ladleFadeDone n) s (ladleTrack (s.setDsp n { s.dsp n with fade := none, due := false }) n)))
   ∧ (∀ (s : State) (n : Nat), (s.int (Od.dispersionNow n) + ladleMove (s.dsp n).residual).natAbs ≤ ladleMax s n →
     ladleTrack s n = (ladleFadeTo s n (s.int (Od.dispersionNow n) + ladleMove (s.dsp n).residual)).bump (Od.trackUpdates n))
   ∧ (∀ (s : State) (n : Nat) (d : Int), n < 64 → (ladleFadeTo s n d).int (Od.dispersionNow n) = d
       ∧ ((ladleFadeTo s n d).dsp n).fade.isSome = true)
   ∧ (∀ r : Int, (ladleMove r).natAbs ≤ 50 ∧ ladleMove (-r) = -ladleMove r)
   ∧ ladleMove 1499 = 1 ∧ ladleMove 1500 = 2 ∧ ladleMove 60000 = 50)
  ∧ ((∀ (s : State) (n : Nat) (blind aided : List (Int × Int)) (peaks : List Nat), n < 64 → s.nat (Od.rxState n) = 3 →
     ∃ t g, Yields (.tapGating n blind aided peaks) s t ∧ (t.dsp n).gated = g ∧ g ≤ (s.dsp n).gated + 1
       ∧ t.nat (Od.tapsActive n) = (s.dsp n).taps.length / 4 - 2 * g ∧ (s.flag (Od.tapGating n) = false → g = 0)
       ∧ (t.dsp n).taps = gateTaps g (if s.nat (Od.whiskMode n) = 1 then (s.dsp n).taps
           else adapted (s.nat (Od.whiskStepShift n)) (s.dsp n).taps (if s.nat (Od.whiskMode n) = 2 then blind else aided))
       ∧ SameObjects (· ≠ Od.tapsActive n) s t ∧ t.sources = s.sources)
   ∧ (∀ (s : State) (n : Nat) (e : WhiskReport), n < 64 → (s.nat (Od.rxState n) = 2 ∨ s.nat (Od.rxState n) = 3) →
     ∃ t, Yields (.whiskEstimates n e) s t ∧ t.f32 (Od.dgdEstimate n) = e.dgd ∧ t.f32 (Od.pdlEstimate n) = e.pdl
       ∧ t.f32 (Od.sopRate n) = e.sop ∧ t.f32 (Od.clockOffset n) = e.clock ∧ t.flag (Od.timingLocked n) = e.locked
       ∧ t.f32 (Od.carrierRecoveryFreqOffset n) = e.freq ∧ t.f32 (Od.freqDrift n) = e.drift ∧ (t.dsp n).residual = e.residual
       ∧ t.f32 (Od.tapCentroid n) = tapCentroid (s.dsp n).taps
       ∧ t.nat (Od.rxState n) = s.nat (Od.rxState n) ∧ t.sources = s.sources)
   ∧ (∀ (s : State) (n : Nat) (e : WhiskReport), n < 64 → s.nat (Od.rxState n) ≠ 2 → s.nat (Od.rxState n) ≠ 3 → Yields (.whiskEstimates n e) s s)
   ∧ ∀ (taps : List (Int × Int)), (complementTaps taps).take (taps.length / 4) = (tapsOf taps 0).take (taps.length / 4))

/-- R208, R210–R214: three candidates or more whose residuals fit form a joint set, fewer do not, and a member that leaves is dropped from the mask or
ends the joint estimate; a disabled joint recovery stops it. R222–R226: quality is measured in `TRACK` only, over the last 1,000 ms at most, and Q
margin raises its alarm below its level and ends it 0.5 dB above. -/
def Obligations.JointRecoveryAndQualityAreKept : Prop :=
  ((∀ (s u : State) (p : Nat) (fits : List (Nat × List Nat)) (js : List Nat) (res : List (Nat × Nat)), p < 8 →
       s.flag (Od.jointEnable p) = true → u = residualsReport s p res →
       jointPrune fits (1000 * s.nat (Od.residualLimit p)) 8 ((List.range 8).filter fun j => jointCandidate s p j && jointReady s p j) [] = (js, res) →
     (3 ≤ js.length → Yields (.jointQualifyTest p fits) s (jointForm u p js))
     ∧ (js.length < 3 → Yields (.jointQualifyTest p fits) s
       (jointStop u p (js.filter fun j => (slotsOf (u.nat (Od.memberMask p))).contains j) true)))
   ∧ (∀ (s u : State) (p : Nat) (residuals : List (Nat × Nat)), p < 8 → u = residualsReport s p residuals →
     (u.flag (Od.jointEnable p) = false → Yields (.pilotGroupFit p residuals [] []) s (jointStop u p [] false))
     ∧ (u.flag (Od.jointEnable p) = true → u.nat (Od.memberMask p) = 0 → Yields (.pilotGroupFit p residuals [] []) s u)
     ∧ ∀ keep, keep = (slotsOf (u.nat (Od.memberMask p))).filter (fun j => jointCandidate u p j && usableSignal u (8 * p + j)
           && decide (Tbl.get (fun _ => 0) residuals j ≤ 2000 * (u.dsp (8 * p + j)).jointLimit)) →
       u.flag (Od.jointEnable p) = true → 3 ≤ keep.length → keep.length ≠ (slotsOf (u.nat (Od.memberMask p))).length →
       Yields (.pilotGroupFit p residuals [] []) s ((phaseModes u p keep).setN (Od.memberMask p) (maskOf keep)))
   ∧ (∀ (s u : State) (p j k : Nat) (residuals : List (Nat × Nat)), p < 8 → j < 8 → s.nat (Od.rxState (8 * p + j)) = 3 →
       s.flag (Od.jointEnable p) = false → s.flag (Od.jointActive p) = false →
       u = (s.bumpBy (Od.cycleSlips (8 * p + j)) k).countEv 1 (8 * p + j) 5 k →
     Yields (.pilotGroupFit p residuals [(j, k)] []) s (residualsReport u p residuals))
   ∧ (∀ (s : State) (p j : Nat) (res : List (Nat × Nat)), p < 8 → j < 8 → jointCandidate s p j = false →
     (residualsReport s p res).f32 (Od.jointResidual (8 * p + j)) = 0)
   ∧ (∀ (s : State) (p : Nat) (js : List Nat), p < 8 → (∀ j, j ∈ js → j < 8) → (jointForm s p js).flag (Od.jointActive p) = true
       ∧ (jointForm s p js).nat (Od.memberMask p) = maskOf js
       ∧ ∀ j, j < 8 → (jointForm s p js).nat (Od.phaseMode (8 * p + j)) = (if j ∈ js then 1 else 0))
   ∧ (∀ (s : State) (p : Nat) (left : List Nat), p < 8 → (jointStop s p left true).flag (Od.jointActive p) = false)
   ∧ ∀ js : List Nat, js.Nodup → (∀ j, j ∈ js → j < 8) → ∀ j, j ∈ slotsOf (maskOf js) ↔ j ∈ js)
  ∧ ((∀ (s : State) (n : Nat) (samples : List QualitySample), n < 64 →
     (s.nat (Od.rxState n) ≠ 3 → Yields (.qualityUpdate n samples) s s)
     ∧ (s.nat (Od.rxState n) = 3 → ∃ t, Yields (.qualityUpdate n samples) s t ∧ (t.dsp n).quality.recent.length ≤ 1000
       ∧ (t.dsp n).quality.recent.tail = (s.dsp n).quality.recent.take 999 ∧ t.nat (Od.rxState n) = 3 ∧ t.sources = s.sources
       ∧ (t.dsp n).quality.marginMin.isSome = true))
   ∧ (∀ (s : State) (n : Nat), n < 64 → s.nat (Od.rxState n) = 3 →
     (f32LtRat (s.f32 (Od.qMarginNow n)) (s.int (Od.qMarginAlarm n)) 10 = true →
       Yields (.qmarginTimer n true) s (s.setCond (srcCarrier n 10) true))
     ∧ (f32GeRat (s.f32 (Od.qMarginNow n)) (s.int (Od.qMarginAlarm n) + 5) 10 = true →
       Yields (.qmarginTimer n false) s (s.setCond (srcCarrier n 10) false)))
   ∧ ∀ (s : State) (k : Nat), Admits s k Od.clearRxCounters 1 →
     ∃ t, Yields (.clearRxCounters k) s t ∧ (∀ n, n < 64 → t.nat (Od.trackLosses n) = 0 ∧ t.nat (Od.acquireFailures n) = 0
       ∧ t.nat (Od.singularities n) = 0 ∧ t.nat (Od.rxState n) = s.nat (Od.rxState n)) ∧ t.engines = s.engines ∧ t.sources = s.sources)

/-! ### Link tuning (chapter 08) -/

/-- R251–R254, R256: every 10 ms a new report set is formed for each subcarrier, all 0xFE outside `TRACK`, where reports are enabled; a cell that fails its check is counted; one
that passes gives the far end's state and, in `TRACK`, the back channel; its absence raises `BACKCHANNEL_LOST`. -/
def Obligations.BackChannelReportsAndReceives : Prop :=
  (∀ (s : State) (n : Nat), n < 64 → s.engineUp n = true → hasBackChannel s n = true →
    ∃ t, Yields (.tuningEvaluation n) s t ∧ (t.tune n).seq = ((s.tune n).seq + 1) % 16 ∧ (t.tune n).part = 0
      ∧ (t.tune n).entries.length = (if s.flag (Od.reportEnable n) then 32 else 0) ∧ (t.tune n).targets = (s.tune n).targets
      ∧ (s.nat (Od.rxState n) ≠ 3 → ∀ e, e ∈ (t.tune n).entries → e = (0xFE, 0xFF)) ∧ codesOf t n = codesOf s n ∧ t.shadow = s.shadow)
  ∧ (∀ (s : State) (n : Nat), n < 64 → (s.engineUp n = false ∨ hasBackChannel s n = false) → Yields (.tuningEvaluation n) s s)
  ∧ (∀ (s : State) (n cell : Nat), n < 64 → hasBackChannel s n = true → bcCrcOk cell = false →
    Yields (.backchannelCellReceived n cell) s ((s.bump (Od.cellErrors n)).countEv 1 n 7 1))
  ∧ (∀ (s : State) (n cell : Nat), n < 64 → hasBackChannel s n = true → bcCrcOk cell = true → bcType cell = 0 →
    ∃ t, Yields (.backchannelCellReceived n cell) s t ∧ t.nat (Od.farRxState n) = bcRxState cell ∧ (t.tune n).lastCell = some s.uptime
      ∧ (s.nat (Od.rxState n) = 3 → t.nat (Od.bcState n) = 1)
      ∧ ((t.tune n).lowSince.isSome = true ↔ bcRxState cell = 1 ∨ bcRxState cell = 2) ∧ codesOf t n = codesOf s n)
  ∧ (∀ (s : State) (n cell : Nat), n < 64 → hasBackChannel s n = false → Yields (.backchannelCellReceived n cell) s s)
  ∧ (∀ (s : State) (n : Nat), n < 64 → hasBackChannel s n = true →
    Yields (.backchannelTimeout n) s ((s.setN (Od.bcState n) 2).setCond (srcCarrier n 11) true))
  ∧ ∀ (s : State) (k : Nat), Admits s k Od.clearTuneCounters 1 →
    ∃ t, Yields (.clearTuneCounters k) s t ∧ (∀ n, n < 64 → t.nat (Od.autoChanges n) = 0 ∧ t.nat (Od.autoAbandoned n) = 0
      ∧ t.nat (Od.rescueCount n) = 0 ∧ t.nat (Od.bcState n) = s.nat (Od.bcState n)) ∧ t.engines = s.engines ∧ t.shadow = s.shadow

/-- R257–R261: with nothing in the way a set of targets becomes the carrier's automatic change, which a request asks the far end to confirm; one that
breaks a floor is refused with `TUNE_FLOOR`; a rescue is announced at once; the change applied makes its codes active, counts the layout tag on and
keeps every pending shadow. -/
def Obligations.AutomaticChangesFollowTheirRules : Prop :=
  (∀ (s : State) (n : Nat), n < 64 → (s.tune n).targets ≠ [] → mayAuto s n = true →
      (∀ k, k < 32 → entropyPending s n k = true → (s.tune n).targets.getD k 0 = (codesOf s n).getD k 0) →
    (layoutOk s n (s.tune n).targets (slotsInUse s n) 0 = true →
      ∃ t, Yields (.autoChangeStart n) s t ∧ (t.klfTx n).auto =
        some { codes := (s.tune n).targets, request := s.nat (Od.lastRequestId n) % 127 + 1, waiting := true } ∧ (t.tune n).targets = [] ∧ (t.tune n).autoAt = s.uptime
        ∧ SameObjects (· ≠ Od.lastRequestId n) s t ∧ t.shadow = s.shadow)
    ∧ (layoutOk s n (s.tune n).targets (slotsInUse s n) 0 = false → Yields (.autoChangeStart n) s (autoFloor s n)))
  ∧ (∀ (s : State) (n : Nat), n < 64 → (autoFloor s n).nat (Od.lastAutoResult n) = 5 ∧ ((autoFloor s n).tune n).targets = []
      ∧ ((autoFloor s n).source (srcCarrier n 12)).real = true ∧ codesOf (autoFloor s n) n = codesOf s n)
  ∧ (∀ (s : State) (n : Nat), n < 64 → mayAuto s n = false → Yields (.autoChangeStart n) s s)
  ∧ (∀ (s : State) (n : Nat), s.armed n = true ∨ s.boot.st = .safe ∨ (s.klfTx n).auto.isSome = true ∨ s.nat (Od.bcState n) ≠ 1 →
    mayAuto s n = false)
  ∧ (∀ (s : State) (n : Nat) (parts : List (Nat × List (Nat × Nat))), n < 64 → s.nat (Od.tuneMode n) ≠ 2 → ((setTaken s n parts).tune n).targets = [])
  ∧ (∀ (s u : State) (n : Nat) (want : List Nat), n < 64 → hasBackChannel s n = true → s.nat (Od.tuneMode n) = 2 → s.nat (Od.bcState n) = 1 →
      (s.nat (Od.farRxState n) = 1 ∨ s.nat (Od.farRxState n) = 2) → (s.tune n).lowSince.isSome = true → (s.klfTx n).auto = none →
      (s.klfTx n).host = none → s.boot.st ≠ .safe → u = s.setTune n { s.tune n with lowSince := some s.uptime, targets := [] } →
      want = (List.range 32).map (fun k =>
        if k < s.nat (Od.subcarrierCount n) && (codesOf s n).getD k codeOff != codeOff
            && decide (netOf (s.nat (Od.fecOverhead n)) (s.nat (Od.rescueEntropy n)) < netOf (s.nat (Od.fecOverhead n)) ((codesOf s n).getD k codeOff))
        then targetCode s n k ((codesOf s n).getD k codeOff) (s.nat (Od.rescueEntropy n)) false else (codesOf s n).getD k codeOff) →
      want ≠ codesOf s n →
    (minimumOk s n want = false → Yields (.rescue n) s (autoFloor u n))
    ∧ (minimumOk s n want = true → ∃ t, Yields (.rescue n) s t ∧ (t.klfTx n).auto =
        some { codes := want, first := some ((s.klfTx n).next - 1 + 1), target := some ((s.klfTx n).next - 1 + 17), rescue := true }
      ∧ t.nat (Od.rescueCount n) = (s.bump (Od.rescueCount n)).nat (Od.rescueCount n) ∧ codesOf t n = codesOf s n))
  ∧ (∀ (s : State) (n : Nat) (c : Change) (k : Nat), n < 64 → k < 32 →
    (codesOf (autoApplied s n c) n).getD k 0 = c.codes.getD k codeOff
    ∧ (autoApplied s n c).nat (Od.layoutTag n) = (s.nat (Od.layoutTag n) + 1) % 256 ∧ ((autoApplied s n c).klfTx n).auto = none
    ∧ (entropyPending s n k = true → (autoApplied s n c).shadowVal (Od.entropy (32 * n + k)) = s.shadowVal (Od.entropy (32 * n + k))))
  ∧ (∀ (s : State) (n result : Nat) (c : Change), n < 64 → (s.klfTx n).auto = some c → ((autoEnd s n result).klfTx n).auto = none
    ∧ codesOf (autoEnd s n result) n = codesOf s n ∧ (c.rescue = false → (autoEnd s n result).nat (Od.lastAutoResult n) = result))
  ∧ ∀ (s : State) (n : Nat), 1 ≤ (drawRequest s n).1 ∧ (drawRequest s n).1 ≤ 127 ∧ (drawRequest s n).2.nat (Od.lastRequestId n) = (drawRequest s n).1

/-! ### The line format (chapter 09) -/

/-- R248, R251, R252, R273, R278–R282, R326, R329: every field that a block or cell carries is read back as it was written, and every check code
passes on what was sent: header signs and layout record, fixed part, announcement, control cell, back-channel cell, tray map cell, tray overhead, and
aggregate header. -/
def Obligations.BlockFieldsReadBackAsWritten : Prop :=
  (∀ record phase : Nat, record < 2 ^ 264 → phase < 32768 → headerOk (headerSigns record phase) = true
    ∧ headerRecord (headerSigns record phase) = record ∧ headerPhase (headerSigns record phase) = phase)
  ∧ (∀ (f : Fmt) (tag : Nat) (codes : List Nat), tag < 256 → (∀ k, codes.getD k codeOff < 256) →
    layoutRecord f tag codes < 2 ^ 264 ∧ recordTag (layoutRecord f tag codes) = tag
    ∧ recordCodes (layoutRecord f tag codes) = (List.range 32).map fun k => if k < f.n then codes.getD k codeOff else codeOff)
  ∧ (∀ x : Fixed, x.counter < 2 ^ 48 → x.announcement < 2 ^ 32 → x.confirmation < 2 ^ 16 → x.control < 2 ^ 144 → x.backChannel < 2 ^ 192 →
      x.trayMap < 2 ^ 64 → x.sealCount < 2 ^ 8 →
    fixedOf x.encode = x ∧ fixedAligned x.encode = true ∧ fixedCrcOk x.encode = true)
  ∧ (∀ countdown tag request : Nat, countdown < 32 → tag < 256 → request < 128 → annCountdown (announcement countdown tag request) = countdown
    ∧ annTag (announcement countdown tag request) = tag ∧ annRequest (announcement countdown tag request) = request)
  ∧ (∀ type part request record : Nat, type < 16 → part < 2 → request < 128 → record < 2 ^ 264 →
    cellType (controlCell type part request record) = type ∧ cellPart (controlCell type part request record) = part
    ∧ cellRequest (controlCell type part request record) = request
    ∧ recordOf [(0, cellContent (controlCell type 0 request record)), (1, cellContent (controlCell type 1 request record))] = some record)
  ∧ (∀ (type rxState part seq tag : Nat) (entries : List (Nat × Nat)), type < 16 → rxState < 4 → part < 4 → seq < 16 → tag < 256 →
      (∀ e, e ∈ entries → e.1 < 256 ∧ e.2 < 256) →
    bcCrcOk (backChannelCell type rxState part seq tag entries) = true ∧ bcType (backChannelCell type rxState part seq tag entries) = type
    ∧ bcRxState (backChannelCell type rxState part seq tag entries) = rxState
    ∧ bcPart (backChannelCell type rxState part seq tag entries) = part ∧ bcSeq (backChannelCell type rxState part seq tag entries) = seq
    ∧ bcTag (backChannelCell type rxState part seq tag entries) = tag
    ∧ ∀ i, i < 8 → bcEntry (backChannelCell type rxState part seq tag entries) i = entries.getD i (0, 0))
  ∧ (∀ (tag c : Nat) (entry : Nat → Nat), tag < 16 → (∀ i, entry i < 4096) → mapCellTag (trayMapCell tag c entry) = tag
    ∧ ∀ e, e < 4 → mapEntry (trayMapCell tag c entry) e = entry (4 * (c % 160) + e))
  ∧ (∀ kind status count position tray : Nat, kind < 16 → status < 4 → count < 2 ^ 20 → tray < 2048 →
    ohCrcOk (trayOverhead kind status count position tray) = true ∧ ohKind (trayOverhead kind status count position tray) = kind
    ∧ ohStatus (trayOverhead kind status count position tray) = status ∧ ohCount (trayOverhead kind status count position tray) = count
    ∧ ohPosition (trayOverhead kind status count position tray) = position % 2 ^ 40
    ∧ ohTray (trayOverhead kind status count position tray) = tray)
  ∧ (∀ length member priority : Nat, length < 65536 → member < 16 → priority < 8 → aggHeader length member priority / 65536 = length
    ∧ aggHeader length member priority / 4096 % 16 = member ∧ aggHeader length member priority / 512 % 8 = priority
    ∧ crc8 24 (aggHeader length member priority / 256) = aggHeader length member priority % 256)

/-- R325, R327: descrambling a scrambled payload gives the payload, and the client bits taken from a filled GMP area are those put into it. -/
def Obligations.PayloadIsRecovered : Prop :=
  (∀ (c : Nat) (bits : List Bool), scramble c (scramble c bits) = bits ∧ (scramble c bits).length = bits.length)
  ∧ (∀ (p cm : Nat) (bs : List Bool), 0 < p → cm ≤ p → bs.length = cm → gmpTake p cm (gmpFill p cm p 0 bs) = bs)
  ∧ ∀ (n v : Nat), v < 2 ^ n → natOfBits (bitsOf n v) = v

/-- R273, R278, R280, R511: a block sent by a carrier in service takes the next count; its fixed part carries that count and passes its check, and its
header signs carry the active layout; while the carrier is disabled blocks are only counted. R273, R283–R285: two headers in step are accepted and
start demapping; three passing blocks align a carrier, and eight failing ones lose it with `KLF_LOF`; 10 ms in `LOF` lose lock; a decoded block of a
carrier that is not demapping changes nothing. R290, R292: the first two coded blocks after decoding starts are not counted; later ones count as
decoded, an uncorrected one as uncorrected, and the corrected bits as ones and zeros; a clear takes the counters to 0. -/
def Obligations.BlocksAreSentAlignedAndDecoded : Prop :=
  ((∀ (s u v : State) (n fill : Nat) (feeds : List TrayFeed), n < 64 → s.engineUp n = true → s.nat (Od.calState n) = 2 →
       (s.engine n).resetting = false →
       u = (s.setEngine n { s.engine n with tx := { (s.engine n).tx with next := (s.engine n).tx.next + 1 } }).setN (Od.txBlockCounter n)
         ((s.engine n).tx.next % 2 ^ 48) →
       v = (u.setN (Od.txFill n) (min fill 65536)).peak (Od.txHighWater n) (min fill 65536) →
     (inService s n = false → Yields (.klfBlockTransmit n feeds fill) s u)
     ∧ (inService s n = true → krytelm s n = true → ((placementsOf v n).any fun p => (feedOf feeds p.tray p.prot).underrun) = false →
       ∃ w, w = sendBlock v n (s.engine n).tx.next feeds
         ∧ ((s.engine n).tx.layouts = [] → Yields (.klfBlockTransmit n feeds fill) s w)
         ∧ ((s.engine n).tx.layouts ≠ [] → (w.klfTx n).layouts.length ≤ (s.engine n).tx.layouts.length →
           Yields (.klfBlockTransmit n feeds fill) s (dacCount w n))))
   ∧ (∀ (s : State) (n fill : Nat) (feeds : List TrayFeed), n < 64 → (s.engineUp n = false ∨ s.nat (Od.calState n) ≠ 2) →
     Yields (.klfBlockTransmit n feeds fill) s s)
   ∧ ∀ (s : State) (n c : Nat) (feeds : List TrayFeed), n < 64 →
     fixedCrcOk ((sendBlock s n c feeds).klfTx n).fixed = true
     ∧ (∃ x : Fixed, x.counter = c % 2 ^ 48 ∧ ((sendBlock s n c feeds).klfTx n).fixed = x.encode)
     ∧ ((∀ k, k < 32 → s.nat (Od.entropy (32 * n + k)) < 256) → s.nat (Od.layoutTag n) < 256 →
       headerRecord ((sendBlock s n c feeds).klfTx n).header = layoutRecord (fmtOf s n) (s.nat (Od.layoutTag n)) (codesOf s n)
       ∧ headerOk ((sendBlock s n c feeds).klfTx n).header = true))
  ∧ ((∀ (s : State) (n header : Nat), n < 64 → receives s n = true → s.nat (Od.rxState n) = 2 → (s.dsp n).step + 2 = lastStep s n →
     (headerOk header = false → Yields (.headerSignsRead n header) s (s.setKlfRx n { s.klfRx n with lastHeader := none }))
     ∧ (headerOk header = true → (s.klfRx n).lastHeader = none → Yields (.headerSignsRead n header) s
       (s.setKlfRx n { s.klfRx n with lastHeader := some (recordTag (headerRecord header), headerPhase header) }))
     ∧ (∀ phase, headerOk header = true → (s.klfRx n).lastHeader = some (recordTag (headerRecord header), phase) →
       headerPhase header = (phase + codedBitsPerBlock (fmtOf s n) (recordCodes (headerRecord header))) % 32768 →
       Yields (.headerSignsRead n header) s (headerAccept s n (headerRecord header))))
   ∧ (∀ (s : State) (n header : Nat), n < 64 → receives s n = false → Yields (.headerSignsRead n header) s s)
   ∧ (∀ (s : State) (n : Nat), n < 64 → s.nat (Od.alignState n) = 3 → Yields (.lofTimer n) s (lockLost s n 5))
   ∧ (∀ (s : State) (n : Nat), n < 64 → s.nat (Od.alignState n) ≠ 3 → Yields (.lofTimer n) s s)
   ∧ (∀ (s : State) (n : Nat) (b : DecodedBlock), n < 64 → (s.engineUp n = false ∨ s.nat (Od.alignState n) = 0) →
     Yields (.klfBlockDecoded n b) s s)
   ∧ (∀ (s u : State) (n : Nat) (b : DecodedBlock), n < 64 → s.engineUp n = true → inService s n = true → isHub s n = false →
       s.nat (Od.alignState n) ≠ 0 → u = (s.setN (Od.rxFill n) (min b.rxFill 65536)).peak (Od.rxHighWater n) (min b.rxFill 65536) →
     Yields (.klfBlockDecoded n b) s (b.delays.foldl (fun t d => if d.1 < 2048 then trayRefresh (delayMeasured t d.1 d.2) d.1 else t)
       (if krytelm s n then blockReceive u n b else frameReceive u n b)))
   ∧ (∀ (s : State) (n v : Nat) (b : DecodedBlock), n < 64 → receives s n = true → s.nat (Od.rxState n) = 2 → s.nat (Od.alignState n) = 1 →
       (s.klfRx n).known = false → (s.klfRx n).passes = 0 → b.overrun = false → b.delays = [] →
       ((blockData s n b).take 568).length = 568 → (∀ x, x ∈ (blockData s n b).take 568 → x.2 = false) →
       v = natOfBits (((blockData s n b).take 568).map (·.1)) → fixedCrcOk v = true → fixedAligned v = true →
     ∃ t, Yields (.klfBlockDecoded n b) s t ∧ (t.klfRx n).known = true ∧ (t.klfRx n).counter = (fixedOf v).counter ∧ (t.klfRx n).passes = 1
       ∧ t.nat (Od.rxBlockCounter n) = (fixedOf v).counter ∧ t.nat (Od.alignState n) = 1 ∧ t.nat (Od.rxFill n) = min b.rxFill 65536)
   ∧ (∀ (s : State) (n : Nat), n < 64 → s.nat (Od.alignState n) ≠ 2 → 2 ≤ (s.klfRx n).passes → (alignStep s n true).nat (Od.alignState n) = 2)
   ∧ (∀ (s : State) (n : Nat), n < 64 → s.nat (Od.alignState n) = 2 →
     ((s.klfRx n).fails = 7 → (alignStep s n false).nat (Od.alignState n) = 3
       ∧ (alignStep s n false).nat (Od.lofEntries n) = (s.bump (Od.lofEntries n)).nat (Od.lofEntries n))
     ∧ ((s.klfRx n).fails < 7 → (alignStep s n false).nat (Od.alignState n) = 2 ∧ (alignStep s n false).sources = s.sources))
   ∧ ∀ (s : State) (n record : Nat), n < 64 → (headerAccept s n record).nat (Od.alignState n) = 1 ∧ ((headerAccept s n record).klfRx n).record = record)
  ∧ ((∀ (s : State) (n : Nat) (r : CodedRelease), n < 64 → s.engineUp n = true → inService s n = true → s.nat (Od.alignState n) ≠ 0 →
       krytelm s n = true →
     ((s.engine n).sieveStart < 2 → ∃ t, Yields (.codedBlockRelease n r) s t ∧ (t.engine n).sieveStart = (s.engine n).sieveStart + 1
       ∧ t.nat (Od.decodedBlocks n) = s.nat (Od.decodedBlocks n) ∧ t.nat (Od.uncorrectedBlocks n) = s.nat (Od.uncorrectedBlocks n))
     ∧ (2 ≤ (s.engine n).sieveStart → r.uncorrected = true → ∃ t, Yields (.codedBlockRelease n r) s t
       ∧ t.nat (Od.decodedBlocks n) = (s.bump (Od.decodedBlocks n)).nat (Od.decodedBlocks n)
       ∧ t.nat (Od.uncorrectedBlocks n) = (s.bump (Od.uncorrectedBlocks n)).nat (Od.uncorrectedBlocks n)
       ∧ t.nat (Od.correctedOnes n) = s.nat (Od.correctedOnes n))
     ∧ (2 ≤ (s.engine n).sieveStart → r.uncorrected = false → r.ones + r.zeros ≠ 0 → ∃ t, Yields (.codedBlockRelease n r) s t
       ∧ t.nat (Od.correctedOnes n) = (s.bumpBy (Od.correctedOnes n) r.ones).nat (Od.correctedOnes n)
       ∧ t.nat (Od.correctedZeros n) = (s.bumpBy (Od.correctedZeros n) r.zeros).nat (Od.correctedZeros n)
       ∧ t.nat (Od.uncorrectedBlocks n) = s.nat (Od.uncorrectedBlocks n)))
   ∧ (∀ (s : State) (n : Nat) (r : CodedRelease), n < 64 → s.engineUp n = false → Yields (.codedBlockRelease n r) s s)
   ∧ ∀ (s : State) (k : Nat), Admits s k Od.clearFecCounters 1 →
     ∃ t, Yields (.clearFecCounters k) s t ∧ (∀ n, n < 64 → t.nat (Od.decodedBlocks n) = 0 ∧ t.nat (Od.uncorrectedBlocks n) = 0
       ∧ t.nat (Od.correctedOnes n) = 0 ∧ t.nat (Od.alignState n) = s.nat (Od.alignState n)) ∧ t.engines = s.engines ∧ t.sources = s.sources)

/-- R112, R280, R286–R289: a request is judged once and confirmed or declined; a confirmation that names the outstanding request schedules the change
16 blocks after its first announcement; an announcement is held as the target, abandoned when it stops, and an error when it differs; at the target
the pending record becomes the received one; a confirmation stops after 65,536 blocks. -/
def Obligations.LayoutChangesAreNegotiated : Prop :=
  (∀ (s : State) (n id record : Nat), n < 64 → receives s n = true → id ≠ 0 → (s.klfRx n).judged ≠ id →
      ((s.klfRx n).requestParts.head?).map (fun p => p.2.1) = some id →
      recordOf ((s.klfRx n).requestParts.map fun p => (p.1, p.2.2)) = some record →
    (s.nat (Od.rxState n) = 3 → recordTag record = (recordTag (s.klfRx n).record + 1) % 256 → (s.klfRx n).target = none →
      requestCodesOk (fmtOf s n) (recordCodes record) = true → meetsMinimum (fmtOf s n) (recordCodes record) = true →
      ∃ t, Yields (.changeRequestDecoded n) s t ∧ (t.klfTx n).confirm = id ∧ (t.klfTx n).confirmLeft = 65536 ∧ (t.klfRx n).judged = id
        ∧ t.nat (Od.requestsConfirmed n) = (s.bump (Od.requestsConfirmed n)).nat (Od.requestsConfirmed n)
        ∧ (t.klfRx n).record = (s.klfRx n).record)
    ∧ (s.nat (Od.rxState n) ≠ 3 → Yields (.changeRequestDecoded n) s
      (((s.bump (Od.requestsReceived n)).setKlfRx n { s.klfRx n with judged := id }).bump (Od.requestsDeclined n))))
  ∧ (∀ (s : State) (n id : Nat) (c : Change), n < 64 → receives s n = true → id ≠ 0 → (s.klfTx n).auto = some c → c.waiting = true → c.request = id →
    Yields (.confirmationDecoded n id) s (s.setKlfTx n
      { s.klfTx n with auto := some { c with waiting := false, first := some ((s.klfTx n).next + 1), target := some ((s.klfTx n).next + 1 + 16) } }))
  ∧ (∀ (s : State) (n id : Nat) (c : Change), n < 64 → receives s n = true → id ≠ 0 → (s.klfTx n).auto = none → (s.klfTx n).host = some c →
      c.waiting = true → c.request = id → (s.scope n).member = false →
    ∃ t, Yields (.confirmationDecoded n id) s t ∧ (t.klfTx n).host =
        some { c with waiting := false, first := some ((s.klfTx n).next + 1), target := some ((s.klfTx n).next + 1 + 16) } ∧ (t.scope n).confirmed = true
      ∧ t.nat (Od.targetBlock n) = ((s.klfTx n).next + 1 + 16) % 2 ^ 48)
  ∧ (∀ (s : State) (n ann : Nat), n < 64 → receives s n = true → (s.klfRx n).known = true → (s.klfRx n).target = none → 1 ≤ annCountdown ann →
      annCountdown ann ≤ 16 →
    ∃ t, Yields (.announcementDecoded n ann) s t ∧ (t.klfRx n).target = some (((s.klfRx n).counter + annCountdown ann) % 2 ^ 48, annTag ann)
      ∧ t.nat (Od.rxTargetBlock n) = ((s.klfRx n).counter + annCountdown ann) % 2 ^ 48 ∧ t.nat (Od.rxPendingTag n) = annTag ann)
  ∧ (∀ (s : State) (n ann : Nat) (b tag : Nat), n < 64 → receives s n = true → (s.klfRx n).known = true → (s.klfRx n).target = some (b, tag) →
      annCountdown ann = 0 → 0 < (b + 2 ^ 48 - (s.klfRx n).counter) % 2 ^ 48 → (b + 2 ^ 48 - (s.klfRx n).counter) % 2 ^ 48 < 2 ^ 47 →
    Yields (.announcementDecoded n ann) s ((targetDropped s n).bump (Od.countdownsAbandoned n)))
  ∧ (∀ (s : State) (n b tag record : Nat), n < 64 → (s.klfRx n).target = some (b, tag) → recordOf (s.klfRx n).pendingParts = some record →
      s.nat (Od.rxState n) = 3 → recordTag record = tag →
    Yields (.rxTargetBlock n) s (targetDropped (recordAdopt s n record) n))
  ∧ (∀ (s : State) (n record : Nat), ((recordAdopt s n record).klfRx n).record = record ∧ ((recordAdopt s n record).klfRx n).held = true
      ∧ (recordAdopt s n record).od = s.od)
  ∧ (∀ (s : State) (n : Nat), ((targetDropped s n).klfRx n).target = none ∧ ((targetDropped s n).klfRx n).record = (s.klfRx n).record
      ∧ (targetDropped s n).nat (Od.rxTargetBlock n) = 0 ∧ (targetDropped s n).nat (Od.rxPendingTag n) = 0)
  ∧ (∀ (s : State) (n b tag : Nat), n < 64 → (s.klfRx n).target = some (b, tag) → recordOf (s.klfRx n).pendingParts = none →
    Yields (.rxTargetBlock n) s (targetDropped s n))
  ∧ (∀ (s : State) (n : Nat), n < 64 → (s.klfTx n).confirmLeft = 0 →
    Yields (.confirmationLimit n) s (s.setKlfTx n { s.klfTx n with confirm := 0 }))
  ∧ ∀ (s : State) (n : Nat), n < 64 → (s.klfTx n).confirmLeft ≠ 0 → isHub s n = false →
    ((confirmationAt s n).2.klfTx n).confirmLeft = (s.klfTx n).confirmLeft - 1

/-! ### Host lanes and clients (chapter 10) -/

/-- R304–R308: a lane that detects a termination negotiates, a resolved type trains or applies its preset, training done or absent goes to `LOCK`, a
qualified lock ends the bring-up or begins the exchange, and each timeout restarts the lane with its cause. R310, R311, R322: frames with a passing
check and the protocol's version are taken as the far end's; the second that agrees is accepted; the exchange completes to `ACTIVE`, and one that
times out restarts the lane in mode 2 and goes on in mode 1. -/
def Obligations.LanesComeUpAndExchange : Prop :=
  ((∀ (s : State) (k : Nat), k < 1024 → s.nat (Od.laneState k) = 1 → clientOf s k = none →
     ∃ u, u = laneEnter (s.setLane k { s.lane k with farTermination := true }) k 2 ∧ (clientOf u k = none → Yields (.farTerminationDetected k) s
       (laneLock ((u.setN (Od.activeMode k) (u.lane k).modeSelect).setN (Od.negotiateResult k) 3) k 0)))
   ∧ (∀ (s : State) (k t : Nat), k < 1024 → s.nat (Od.laneState k) = 1 → clientOf s k = some t →
     ∃ u, u = laneEnter (s.setLane k { s.lane k with farTermination := true }) k 2 ∧ (clientOf u k = some t →
       (clientKind (u.nat (Od.clientType t)) = 1 → laneRejoins u k t = false → (u.lane (u.nat (Od.firstLane t))).anEnable = true →
         (clientTypes u t).any hasClause73 = true → Yields (.farTerminationDetected k) s u)
       ∧ (clientKind (u.nat (Od.clientType t)) = 1 → laneRejoins u k t = false →
         ((u.lane (u.nat (Od.firstLane t))).anEnable = false ∨ (clientTypes u t).any hasClause73 = false) →
         Yields (.farTerminationDetected k) s (u.setLane k { u.lane k with parallel := true }))
       ∧ (clientKind (u.nat (Od.clientType t)) = 1 → laneRejoins u k t = true → Yields (.farTerminationDetected k) s (laneRejoin u k t))
       ∧ (clientKind (u.nat (Od.clientType t)) ≠ 1 → Yields (.farTerminationDetected k) s
         (laneLock ((u.setN (Od.activeType t) (u.nat (Od.clientType t))).setN (Od.activeMode k)
           (typeMode (u.nat (Od.clientType t)) (u.nat (Od.cbrRate t)))) k 0))))
   ∧ (∀ (s : State) (k t : Nat), k < 1024 → s.nat (Od.laneState k) = 2 → clientOf s k = some t → s.nat (Od.firstLane t) = k →
       (s.lane k).anEnable = true → ∀ (ty abilities : Nat),
       clause73Order.find? (fun ty => typeAllowed s t ty && decide (abilities / 2 ^ ty % 2 = 1)) = some ty →
     Yields (.dmePagesReceived k abilities) s
       ((usedLanes s t ty).foldl (fun u j => if u.nat (Od.laneState j) = 2 then laneTrain u j else u) (clientResolve s t ty 1)))
   ∧ (∀ (s : State) (k : Nat), k < 1024 → s.nat (Od.laneState k) = 2 →
     Yields (.anTimeout k) s (s.setLane k { s.lane k with parallel := true }))
   ∧ (∀ (s : State) (t ty : Nat), t < 2048 → ty ≠ 0 → ty ∈ rateOrder → typeAllowed s t ty = true →
       ((spanLanes s t).filter fun k => s.nat (Od.laneState k) = 2).any (fun k => (s.lane k).parallel) = true →
     Yields (.parallelDetectDone t ty) s ((usedLanes s t ty).foldl (fun u k =>
       if ((spanLanes s t).filter fun k => s.nat (Od.laneState k) = 2).contains k then laneLock u k 2 else u) (clientResolve s t ty 2)))
   ∧ (∀ (s : State) (t : Nat), t < 2048 →
       ((spanLanes s t).filter fun k => s.nat (Od.laneState k) = 2).any (fun k => (s.lane k).parallel) = true →
     Yields (.parallelDetectDone t 0) s (((spanLanes s t).filter fun k => s.nat (Od.laneState k) = 2).foldl (fun u k => laneDetect u k 5) s))
   ∧ (∀ (s : State) (k : Nat), k < 1024 → s.nat (Od.laneState k) = 3 →
     (∀ taps, Yields (.trainingDone k taps) s (laneLock (s.setLane k { s.lane k with txTaps := taps }) k 1))
     ∧ Yields (.trainTimeout k false) s (laneLock s k 2) ∧ Yields (.trainTimeout k true) s ((laneDetect s k 2).setN (Od.trainResult k) 3))
   ∧ (∀ (s : State) (k : Nat) (r : LaneReport), k < 1024 → s.nat (Od.laneState k) = 4 → f32GeRat r.fom (lockThreshold s k) 10 = true →
     ((s.lane k).exchangeMode = 0 → Yields (.lockQualified k r) s (laneActive (laneMeasured s k r) k 3))
     ∧ ((s.lane k).exchangeMode ≠ 0 → ∃ u, u = laneMeasured s k r ∧ Yields (.lockQualified k r) s
       (laneEnter (u.setLane k { u.lane k with lastFrame := none, accepted := false, complete := false }) k 5)))
   ∧ (∀ (s : State) (k : Nat), k < 1024 → s.nat (Od.laneState k) = 4 → Yields (.lockTimeout k) s (laneDetect s k 3))
   ∧ (∀ (s : State) (k st cause : Nat), k < 1024 → (laneEnter s k st).nat (Od.laneState k) = st
     ∧ (laneDetect s k cause).nat (Od.laneState k) = (if laneMayRun s k then 1 else 0)
     ∧ ((laneTrain s k).nat (Od.laneState k) = 3 ∨ (laneTrain s k).nat (Od.laneState k) = 4)
     ∧ ∀ t, (laneRejoin s k t).nat (Od.laneState k) = 3 ∨ (laneRejoin s k t).nat (Od.laneState k) = 4)
   ∧ (∀ (s : State) (t ty how : Nat), (clientResolve s t ty how).nat (Od.activeType t) = ty)
   ∧ ∀ (s : State) (k train : Nat), k < 1024 → (laneLock s k train).nat (Od.laneState k) = 4 ∧ (laneLock s k train).nat (Od.trainResult k) = train)
  ∧ ((∀ (s : State) (k frame : Nat), k < 1024 → s.nat (Od.laneState k) = 5 → frame < 2 ^ 128 → rxInverted s k = false →
     (bits frame 127 96 ≠ 0xC3A55A3C → Yields (.capabilityFrameReceived k frame) s (s.setLane k { s.lane k with lastFrame := none }))
     ∧ (bits frame 127 96 = 0xC3A55A3C → crc16 112 (frame / 2 ^ 16) = bits frame 15 0 → bits frame 95 88 ≠ 1 →
       Yields (.capabilityFrameReceived k frame) s s)
     ∧ (bits frame 127 96 = 0xC3A55A3C → crc16 112 (frame / 2 ^ 16) = bits frame 15 0 → bits frame 95 88 = 1 →
       ∃ t, Yields (.capabilityFrameReceived k frame) s t ∧ t.bytes (Od.farFrame k) = beBytes 16 frame ∧ (t.lane k).lastFrame = some frame
         ∧ (t.lane k).accepted = ((s.lane k).accepted || (match (s.lane k).lastFrame with
           | some g => decide (frameCore g = frameCore frame) | none => false)) ∧ t.nat (Od.laneState k) = 5))
   ∧ (∀ (s : State) (k frame : Nat), k < 1024 → s.nat (Od.laneState k) = 5 → frame < 2 ^ 128 → rxInverted s k = true →
       bits (2 ^ 128 - 1 - frame) 127 96 = 0xC3A55A3C → crc16 112 ((2 ^ 128 - 1 - frame) / 2 ^ 16) = bits (2 ^ 128 - 1 - frame) 15 0 →
       bits (2 ^ 128 - 1 - frame) 95 88 = 1 →
     ∃ t, Yields (.capabilityFrameReceived k frame) s t ∧ t.bytes (Od.farFrame k) = beBytes 16 (2 ^ 128 - 1 - frame))
   ∧ (∀ (s : State) (k : Nat), k < 1024 → s.nat (Od.laneState k) = 5 →
     ((s.lane k).complete = true → Yields (.exchangeDone k) s (laneActive s k 1) ∧ Yields (.exchangeTimeout k) s s)
     ∧ ((s.lane k).complete = false → (s.lane k).exchangeMode = 2 →
       Yields (.exchangeTimeout k) s ((laneDetect s k 4).setN (Od.exchangeResult k) 2))
     ∧ ((s.lane k).complete = false → (s.lane k).exchangeMode ≠ 2 → Yields (.exchangeTimeout k) s (laneActive s k 2)))
   ∧ (∀ (s : State) (k exch : Nat), k < 1024 → (laneActive s k exch).nat (Od.exchangeResult k) = exch
     ∧ (laneActive s k exch).nat (Od.laneState k) = (if (clientOf s k).isSome then 6 else 7))
   ∧ ∀ (s : State) (k : Nat), k < 1024 → (∀ t, clientOf s k = some t → s.nat (Od.activeType t) < 32) →
     crc16 112 (capabilityFrame s k / 2 ^ 16) = bits (capabilityFrame s k) 15 0 ∧ bits (capabilityFrame s k) 127 96 = 0xC3A55A3C
     ∧ bits (capabilityFrame s k) 95 88 = 1 ∧ bits (capabilityFrame s k) 87 78 = k
     ∧ bits (capabilityFrame s k) 61 32 = s.nat Od.localCardId % 2 ^ 30 ∧ bits (capabilityFrame s k) 31 31 = (if (s.lane k).accepted then 1 else 0))

/-- R305, R317, R321–R323: a loss of signal restarts a lane that carries traffic and raises its alarm, a poor figure of merit sends it back to `LOCK`,
and a lane not up after its time raises its own; a restart command returns it to `DETECT`; injection adds its errors to the lane's count; the clears
take the counters to 0. R313–R316: a PCS takes the states of its client's kind once every lane is up, a failed client raises its alarm and clears it
after its time, and the checker of a lane in `TEST` locks and, losing lock, counts what it compared. -/
def Obligations.LanesAndClientsFailAndRecover : Prop :=
  ((∀ (s : State) (k : Nat), k < 1024 → (s.nat (Od.laneState k) = 6 ∨ s.nat (Od.laneState k) = 7) → Yields (.laneSignalLoss k) s
       ((((laneDetect s k 1).bump (Od.losEntries k)).countEv 3 k 3 1).setCond (srcLane k 0) true))
   ∧ (∀ (s : State) (k : Nat), k < 1024 → s.nat (Od.laneState k) ≠ 6 → s.nat (Od.laneState k) ≠ 7 → Yields (.laneSignalLoss k) s s)
   ∧ (∀ (s : State) (k : Nat) (r : LaneReport) (lost : Bool), k < 1024 → (s.nat (Od.laneState k) = 6 ∨ s.nat (Od.laneState k) = 7) →
     ((lost = true ∨ f32LtRat r.fom (lockThreshold s k - 15) 10 = true) →
       Yields (.laneFomFail k r lost) s (laneEnter (laneMeasured s k r) k 4))
     ∧ (lost = false → f32LtRat r.fom (lockThreshold s k - 15) 10 = false → Yields (.laneFomFail k r lost) s (laneMeasured s k r)))
   ∧ (∀ (s : State) (k : Nat) (r : LaneReport), k < 1024 → 4 ≤ s.nat (Od.laneState k) → (laneMeasured s k r).f32 (Od.fomNow k) = r.fom
     ∧ ((laneMeasured s k r).lane k).farRate = r.rate
     ∧ (laneAdapts s k = false → ((laneMeasured s k r).lane k).ffe = (s.lane k).ffe ∧ ((laneMeasured s k r).lane k).ctle = (s.lane k).ctle)
     ∧ (laneAdapts s k = true → (laneMeasured s k r).f32 (Od.channelLoss k) = r.loss ∧ ((laneMeasured s k r).lane k).ctle = r.ctle))
   ∧ (∀ (s : State) (k : Nat), k < 1024 → s.flag (Od.laneEnable k) = true → (s.lane k).farTermination = true → s.nat (Od.laneState k) ≠ 6 →
     s.nat (Od.laneState k) ≠ 7 → Yields (.bringupAlarmTimer k) s (s.setCond (srcLane k 1) true))
   ∧ (∀ (s : State) (k l : Nat), Admits s k (Od.laneCommand l) 1 →
     ((s.lane l).injecting = false → Yields (.laneRestart k l) s (laneDetect (noted s k (Od.laneCommand l)) l 6))
     ∧ ((s.lane l).injecting = true → Yields (.laneRestart k l) s (s.refuse k .busy)))
   ∧ (∀ (s : State) (k l : Nat), Admits s k (Od.laneCommand l) 2 → (s.lane l).injecting = true →
     Yields (.laneInjectStart k l) s (s.refuse k .busy))
   ∧ (∀ (s : State) (k l : Nat), Admits s k (Od.laneCommand l) 2 → (s.lane l).injecting = false →
       (s.nat (Od.laneState l) = 6 ∨ s.nat (Od.laneState l) = 7) →
     (s.nat (Od.lanePrbsInjectMode l) = 1 →
       Yields (.laneInjectStart k l) s ((noted s k (Od.laneCommand l)).bumpBy (Od.injectedErrors l) 1))
     ∧ (s.nat (Od.lanePrbsInjectMode l) = 2 →
       Yields (.laneInjectStart k l) s ((noted s k (Od.laneCommand l)).setLane l
         { s.lane l with injecting := true, injectLeft := s.nat (Od.lanePrbsInjectCount l), injectBits := 0 }))
     ∧ (s.nat (Od.lanePrbsInjectMode l) = 3 → Yields (.laneInjectStart k l) s
       ((noted s k (Od.laneCommand l)).setLane l { s.lane l with injecting := true, injectLeft := 0, injectBits := 0 })))
   ∧ (∀ (s : State) (k l : Nat), Admits s k (Od.laneCommand l) 2 → (s.lane l).injecting = false → s.nat (Od.laneState l) ≠ 6 → s.nat (Od.laneState l) ≠ 7 →
     Yields (.laneInjectStart k l) s (noted s k (Od.laneCommand l)))
   ∧ (∀ (s : State) (k l : Nat), Admits s k (Od.laneCommand l) 3 →
     Yields (.laneInjectStop k l) s ((noted s k (Od.laneCommand l)).setLane l { s.lane l with injecting := false, injectLeft := 0 }))
   ∧ (∀ (s : State) (k l : Nat), Admits s k (Od.laneCommand l) 4 →
     ((s.lane l).injecting = false → Yields (.laneClearCounters k l) s
       ((((noted s k (Od.laneCommand l)).setN (Od.checkErrors l) 0).setN (Od.checkBits l) 0).setN (Od.injectedErrors l) 0))
     ∧ ((s.lane l).injecting = true → Yields (.laneClearCounters k l) s (s.refuse k .busy)))
   ∧ (∀ (s : State) (k : Nat), Admits s k Od.clearLaneCounters 1 →
     ∃ t, Yields (.clearLaneCounters k) s t ∧ (∀ l, l < 1024 → t.nat (Od.restarts l) = 0 ∧ t.nat (Od.losEntries l) = 0
       ∧ t.nat (Od.laneState l) = s.nat (Od.laneState l)) ∧ t.lanes = s.lanes ∧ t.members = s.members ∧ t.sources = s.sources)
   ∧ ∀ (s : State) (l cause : Nat), laneMayRun s l = false → laneDetect s l cause = laneOff s l)
  ∧ ((∀ (s : State) (t st : Nat), t < 2048 → clientKind (s.nat (Od.activeType t)) = 1 → s.nat (Od.activeType t) ≠ 0 →
       (usedLanes s t (s.nat (Od.activeType t))).all (fun k => s.nat (Od.laneState k) = 6) = true → 1 ≤ st → st ≤ 4 →
     Yields (.pcsAligned t st) s (clientJudge (s.setN (Od.pcsState t) st) t))
   ∧ (∀ (s : State) (t st : Nat), t < 2048 → clientKind (s.nat (Od.activeType t)) = 2 →
       (usedLanes s t (s.nat (Od.activeType t))).all (fun k => s.nat (Od.laneState k) = 6) = true → (st = 1 ∨ st = 2 ∨ st = 5) →
     Yields (.pcsAligned t st) s (clientJudge (s.setN (Od.pcsState t) st) t))
   ∧ (∀ (s : State) (t : Nat), t < 2048 → (clientJudge s t).nat (Od.pcsState t) = s.nat (Od.pcsState t)
     ∧ (clientDown s t = true → ((clientJudge s t).source (srcTray t 0)).real = true))
   ∧ (∀ (s : State) (t st : Nat), t < 2048 → s.nat (Od.activeType t) = 0 → Yields (.pcsAligned t st) s s)
   ∧ (∀ (s : State) (t : Nat), t < 2048 →
     (clientDown s t = false → Yields (.clientFailClearTimer t) s (s.setCond (srcTray t 0) false))
     ∧ (clientDown s t = true → Yields (.clientFailClearTimer t) s s))
   ∧ (∀ (s : State) (k : Nat) (b : Bool), k < 1024 → s.nat (Od.laneState k) = 7 → s.nat (Od.checkPattern k) ≠ 0 → rxInverted s k = false →
     (s.flag (Od.checkLocked k) = false → (s.lane k).checker.good = 63 → (s.lane k).checker.hist.any id = true →
         b = patternNext (s.nat (Od.checkPattern k)) (s.lane k).checker.hist →
       ∃ t, Yields (.prbsCheckerLocked k [b]) s t ∧ t.flag (Od.checkLocked k) = true ∧ (t.lane k).checker.good = 64
         ∧ t.nat (Od.checkBits k) = s.nat (Od.checkBits k) ∧ t.nat (Od.checkErrors k) = s.nat (Od.checkErrors k))
     ∧ (s.flag (Od.checkLocked k) = true → b ≠ patternNext (s.nat (Od.checkPattern k)) (s.lane k).checker.hist →
         31 ≤ (((s.lane k).checker.errs.take 63).filter id).length →
       Yields (.prbsCheckerLockLost k [b]) s (((((s.bump (Od.checkBits k)).bump (Od.checkErrors k)).countEv 3 k 1 1).setB
         (Od.checkLocked k) false).setLane k { s.lane k with checker := {} })))
   ∧ (∀ (s : State) (k t : Nat) (items : List (Nat × Bytes)), s.answers k = true →
     (∀ i st, firstBad (((items.map fun x => (⟨0x4040, t, x.1, x.2⟩ : WriteItem)).map (prepItem s k)).map (·.status)) 0 = some (i, st) →
       Yields (.clientBindingWrite k t items) s (s.refuse k st)))
   ∧ (∀ (s : State) (k t ty : Nat), Allows s k (Od.clientType t) ty (.u ty) → ty < 256 → s.nat (Od.clientType t) ≠ ty →
     ∃ u, Yields (.clientBindingWrite k t [(1, leBytes 1 ty)]) s u ∧ u.nat (Od.clientType t) = ty ∧ u.nat (Od.activeType t) = 0)
   ∧ ∀ (s : State) (t : Nat), s.nat (Od.clientType t) ≠ 0 → s.nat (Od.activeType t) = 0 → clientDown s t = true)

/-- R318–R320: a frame of a member that fits its queue is kept and may send XOFF; one that does not is dropped and counted; a pause frame pauses the
priorities it names and a pause of 0 releases them; the refresh repeats XOFF while the queue is above `XonBytes`. -/
def Obligations.HeadroomQueuesHoldAndPause : Prop :=
  (∀ (s : State) (t q cap : Nat) (lossless : Bool) (frame : Bytes), t < 2048 → isMember s t = true → clientFailed s t = false →
      fcsOk frame = true → macControl frame = false → q = framePriority frame → lossless = decide (s.nat (Od.losslessMask t) / 2 ^ q % 2 = 1) →
      cap = s.nat (Od.xoffBytes t) + (if lossless then headroomRequired s t else 0) →
    (cap < queueBytes ((s.member t).inQ q) + frame.length → ∃ u, Yields (.clientFrameIngress t frame) s u ∧ u.members = s.members
      ∧ u.nat (Od.drops t q) = (s.bump (Od.drops t q)).nat (Od.drops t q))
    ∧ (queueBytes ((s.member t).inQ q) + frame.length ≤ cap → ∃ u, Yields (.clientFrameIngress t frame) s u
        ∧ (u.member t).inQ q = (s.member t).inQ q ++ [frame] ∧ (lossless = false → u.pfcSent = s.pfcSent)
        ∧ (lossless = true → s.nat (Od.xoffBytes t) ≤ queueBytes ((s.member t).inQ q) + frame.length → (u.member t).xoff.contains q = true)))
  ∧ (∀ (s : State) (t : Nat) (frame : Bytes), t < 2048 → (isMember s t = false ∨ fcsOk frame = false) →
    Yields (.clientFrameIngress t frame) s s)
  ∧ (∀ (s : State) (t q : Nat) (f : Bytes) (rest : List Bytes), (s.member t).inQ q = f :: rest →
    (memberTake s t q).1 = some f ∧ ((memberTake s t q).2.member t).inQ q = rest)
  ∧ (∀ (s : State) (t q : Nat), t < 2048 → q < 8 → (s.member t).xoff.contains q = true →
    (s.nat (Od.xonBytes t) < queueBytes ((s.member t).inQ q) → Yields (.pfcRefreshTimer t q) s (sendPfc s t q 0xFFFF))
    ∧ (queueBytes ((s.member t).inQ q) ≤ s.nat (Od.xonBytes t) → Yields (.pfcRefreshTimer t q) s s))
  ∧ (∀ (s : State) (t enables : Nat) (times : List Nat), t < 2048 → isMember s t = true →
    ∃ u, Yields (.pfcFrameReceived t enables times) s u
      ∧ u.nat (Od.pauseReceived t) = (s.bump (Od.pauseReceived t)).nat (Od.pauseReceived t)
      ∧ (∀ q, q < 8 → enables / 2 ^ q % 2 = 1 → times.getD q 0 = 0 → memberPaused u t q = false ∧ (u.member t).outQ q = [])
      ∧ (∀ q, q < 8 → enables / 2 ^ q % 2 = 1 → times.getD q 0 ≠ 0 → memberPaused u t q = true)
      ∧ ∀ q, q < 8 → enables / 2 ^ q % 2 = 0 → memberPaused u t q = memberPaused s t q)
  ∧ ∀ (s : State) (t : Nat), t < 2048 → Yields (.headroomOverrunClear t) s (s.setCond (srcTray t 2) false)

/-! ### Trays and protection (chapter 11) -/

/-- R336–R339, R341: the hold-off makes a condition count, the wait to restore lets the selector return, the selector takes the path that the highest
request wants, and a tray whose selected path delivers again clears `TRAY_FAIL` after its time. R336, R341, R342: each protection command of a
protected tray replaces the one before; a manual switch to a path that fails or is degraded is refused; on a tray that is not protected a command is
cleared at once, and a manual switch is refused. -/
def Obligations.SelectorAndCommandsChooseThePath : Prop :=
  ((∀ (s : State) (t : Nat) (prot : Bool), t < 2048 →
     Yields (.holdOffExpired t prot true) s (trayRefresh (s.setTrayPath t prot { s.trayPath t prot with sdHeld := pathSd s t prot }) t)
     ∧ Yields (.holdOffExpired t prot false) s (trayRefresh (s.setTrayPath t prot { s.trayPath t prot with sfHeld := pathSf s t prot }) t))
   ∧ (∀ (s : State) (t : Nat), t < 2048 → s.nat (Od.activeRequest t) = 7 → s.nat (Od.workingCondition t) = 0 →
     Yields (.waitToRestoreExpired t) s (trayRefresh (s.setTray t { s.tray t with restored := true }) t))
   ∧ (∀ (s : State) (t : Nat), t < 2048 → isProtected s t = true → wantedPath s t ≠ selectedPath s t →
     Yields (.protectionSwitch t) s (selectPath s t (wantedPath s t)))
   ∧ (∀ (s : State) (t : Nat), t < 2048 → (isProtected s t = false ∨ wantedPath s t = selectedPath s t) → Yields (.protectionSwitch t) s s)
   ∧ (∀ (s : State) (t : Nat) (prot : Bool), t < 2048 → selectedPath (selectPath s t prot) t = prot
     ∧ (selectPath s t prot).nat (Od.protStatusSwitches t) = (s.bump (Od.protStatusSwitches t)).nat (Od.protStatusSwitches t))
   ∧ (∀ (s : State) (t : Nat), isProtected s t = true →
     ((s.tray t).command = 2 → requestOf s t = 1 ∧ ((s.tray t).work.sfHeld = false → (s.tray t).work.sdHeld = false → wantedPath s t = false))
     ∧ ((s.tray t).command = 0 → (s.tray t).prot.sfHeld = false → (s.tray t).work.sfHeld = true → wantedPath s t = true)
     ∧ ((s.tray t).prot.sfHeld = true → (s.tray t).work.sfHeld = false → wantedPath s t = false)
     ∧ ((s.tray t).prot.sfHeld = true → (s.tray t).work.sfHeld = true → wantedPath s t = selectedPath s t))
   ∧ (∀ (s : State) (t : Nat), t < 2048 → (trayRefresh s t).nat (Od.selected t) = s.nat (Od.selected t)
     ∧ ((trayRefresh s t).tray t).command = (s.tray t).command)
   ∧ (∀ (s : State) (t : Nat), t < 2048 → (trayFailed s t = false → Yields (.trayFailClearTimer t) s (s.setCond (srcTray t 3) false))
     ∧ (trayFailed s t = true → Yields (.trayFailClearTimer t) s s))
   ∧ ∀ (s : State) (t : Nat), isProtected s t = false → requestOf s t = 0)
  ∧ ((∀ (s : State) (k t : Nat), isProtected s t = true →
     (Admits s k (Od.protCommand t) 1 → ∃ u, u = noted s k (Od.protCommand t)
       ∧ Yields (.protClear k t) s (trayRefresh (u.setTray t { u.tray t with command := 0 }) t))
     ∧ (Admits s k (Od.protCommand t) 2 → ∃ u, u = noted s k (Od.protCommand t)
       ∧ Yields (.protLockout k t) s (trayRefresh (u.setTray t { u.tray t with command := 2 }) t))
     ∧ (Admits s k (Od.protCommand t) 3 → ∃ u, u = noted s k (Od.protCommand t)
       ∧ Yields (.protForceProtection k t) s (trayRefresh (u.setTray t { u.tray t with command := 3 }) t))
     ∧ (Admits s k (Od.protCommand t) 4 → ∃ u, u = noted s k (Od.protCommand t)
       ∧ Yields (.protForceWorking k t) s (trayRefresh (u.setTray t { u.tray t with command := 4 }) t))
     ∧ (Admits s k (Od.protCommand t) 5 → pathSf s t true = false → pathSd s t true = false → ∃ u, u = noted s k (Od.protCommand t)
       ∧ Yields (.protManualProtection k t) s (trayRefresh (u.setTray t { u.tray t with command := 5 }) t))
     ∧ (Admits s k (Od.protCommand t) 5 → (pathSf s t true = true ∨ pathSd s t true = true) →
       Yields (.protManualProtection k t) s (s.refuse k .state))
     ∧ (Admits s k (Od.protCommand t) 6 → pathSf s t false = false → pathSd s t false = false → ∃ u, u = noted s k (Od.protCommand t)
       ∧ Yields (.protManualWorking k t) s (trayRefresh (u.setTray t { u.tray t with command := 6 }) t))
     ∧ (Admits s k (Od.protCommand t) 6 → (pathSf s t false = true ∨ pathSd s t false = true) →
       Yields (.protManualWorking k t) s (s.refuse k .state))
     ∧ (Admits s k (Od.protCommand t) 7 → Yields (.protRealign k t) s (realign (noted s k (Od.protCommand t)) t)))
   ∧ (∀ (s : State) (t : Nat), t < 2048 → (realign s t).nat (Od.realignments t) = (s.bump (Od.realignments t)).nat (Od.realignments t))
   ∧ (∀ (s : State) (k t : Nat), isProtected s t = false →
     (Admits s k (Od.protCommand t) 5 → Yields (.protManualProtection k t) s (s.refuse k .state))
     ∧ (Admits s k (Od.protCommand t) 6 → Yields (.protManualWorking k t) s (s.refuse k .state))
     ∧ (Admits s k (Od.protCommand t) 3 → ∃ u, u = noted s k (Od.protCommand t)
       ∧ Yields (.protForceProtection k t) s (trayRefresh (u.setTray t { u.tray t with command := 0 }) t)))
   ∧ (∀ (s : State) (t : Nat), t < 2048 → isProtected s t = true → pathSf s t false = false → pathSf s t true = false →
       (s.tray t).realignLater = false → (s.int (Od.diffDelay t)).natAbs ≤ s.nat (Od.maxDiffDelay t) * 1000 →
     Yields (.delayEqualised t) s (trayRefresh ((s.setB (Od.equalised t) true).setTray t
       { s.tray t with lastD := some (s.int (Od.diffDelay t)), realigning := false }) t))
   ∧ (∀ (s : State) (t : Nat), t < 2048 → isProtected s t = false → Yields (.delayEqualised t) s s)
   ∧ ∀ (s : State) (k : Nat), Admits s k Od.clearTrayCounters 1 →
     ∃ t, Yields (.clearTrayCounters k) s t ∧ (∀ x, x < 2048 → t.nat (Od.overheadErrors x) = 0 ∧ t.nat (Od.protStatusSwitches x) = 0
       ∧ t.nat (Od.realignments x) = 0 ∧ t.nat (Od.selected x) = s.nat (Od.selected x)) ∧ t.trays = s.trays ∧ t.sources = s.sources)

/-! ### Sealing and keys (chapter 12) -/

/-- R359–R363, R370: a wrapped key that unwraps enters its slot with its epoch counter at 0; the slot reads `LOADED` or `ACTIVE` only after delivery;
a load that fails is counted and refused; a zeroised slot is empty; a new peer key replaces the KEK at once; and 16 octets written to `LidBlock`
become the cipher's output. -/
def Obligations.KeysEnterAndLeaveTheirSlots : Prop :=
  (∀ (s : State) (k x code : Nat) (data key : Bytes), s.answers k = true → writeGate s k 0x4310 x 0 code = .ok → data.length = 40 →
      s.nat (Od.trayKeySlotSlotState x) ≠ 2 → s.boot.trialDeferred = false → unwrapKey s data = some key →
    Yields (.trayKeyLoad k x data) s (commissioningEnds s (keyLoaded (s.journalBy k 11 0x4310 x 0) x key 1) k))
  ∧ (∀ (s : State) (k x code : Nat) (data : Bytes), s.answers k = true → writeGate s k 0x4310 x 0 code = .ok → data.length = 40 →
    (s.nat (Od.trayKeySlotSlotState x) = 2 → Yields (.trayKeyLoad k x data) s (s.refuse k .state))
    ∧ (s.nat (Od.trayKeySlotSlotState x) ≠ 2 → s.boot.trialDeferred = false → unwrapKey s data = none →
      Yields (.trayKeyLoad k x data) s ((loadFailed s).refuse k .inconsistent)))
  ∧ (∀ (s : State) (k u code : Nat) (data key : Bytes), s.answers k = true → writeGate s k 0x4318 u 0 code = .ok → data.length = 40 →
      s.boot.trialDeferred = false → unwrapKey s data = some key →
    ∃ t, Yields (.utilityKeyLoad k u data) s t ∧ t.keySlot (utilSlot u) = { key := key, delivered := true }
      ∧ t.nat (Od.utilityKeySlotSlotState u) = 1 ∧ t.bytes (Od.utilityKeySlotKeyCheck u) = keyCheckOf key ∧ t.nat (Od.useMask u) = 0)
  ∧ (∀ (s : State) (x origin : Nat) (key : Bytes), x < 4096 → (keyLoaded s x key origin).nat (Od.trayKeySlotSlotState x) = 0
    ∧ (keyLoaded s x key origin).nat (Od.epochNext x) = 0 ∧ (keyLoaded s x key origin).nat (Od.origin x) = origin
    ∧ ((keyLoaded s x key origin).keySlot x).key = key ∧ (keyLoaded s x key origin).bytes (Od.trayKeySlotKeyCheck x) = keyCheckOf key
    ∧ ∀ y, y ≠ x → (keyLoaded s x key origin).keySlot y = s.keySlot y)
  ∧ (∀ (s : State) (x : Nat), x < 4096 → (s.keySlot x).key ≠ [] →
    ∃ t, Yields (.keyDelivered x) s t ∧ t.keySlot x = { s.keySlot x with delivered := true }
      ∧ t.nat (Od.trayKeySlotSlotState x) = (if slotUsed s (x / 2) (x % 2) then 2 else 1))
  ∧ (∀ (s : State) (x : Nat), x < 4096 → (s.keySlot x).key = [] → Yields (.keyDelivered x) s s)
  ∧ (∀ (s : State) (k x : Nat), Admits s k (Od.keySlotCommand x) 1 →
    (s.nat (Od.trayKeySlotSlotState x) = 2 → Yields (.keySlotZeroise k x) s (s.refuse k .state))
    ∧ (s.nat (Od.trayKeySlotSlotState x) ≠ 2 →
      Yields (.keySlotZeroise k x) s (keyZeroised (noted s k (Od.keySlotCommand x)) x)))
  ∧ (∀ (s : State) (x : Nat), x < 4096 → (keyZeroised s x).keySlot x = {} ∧ (keyZeroised s x).nat (Od.trayKeySlotSlotState x) = 0
    ∧ (keyZeroised s x).nat (Od.epochNext x) = 0 ∧ ∀ y, y ≠ x → (keyZeroised s x).keySlot y = s.keySlot y)
  ∧ (∀ (s : State) (k u : Nat), Admits s k (Od.utilityKeyCommand u) 1 →
    (s.nat Od.lockHolder ≠ 255 → s.nat Od.lidKeySlot = u → Yields (.utilityKeyZeroise k u) s (s.refuse k .locked))
    ∧ ((s.nat Od.lockHolder = 255 ∨ s.nat Od.lidKeySlot ≠ u) →
      Yields (.utilityKeyZeroise k u) s (utilZeroised (noted s k (Od.utilityKeyCommand u)) u)))
  ∧ (∀ (s : State) (u : Nat), u < 4 → (utilZeroised s u).keySlot (utilSlot u) = {} ∧ (utilZeroised s u).nat (Od.utilityKeySlotSlotState u) = 0
    ∧ (utilZeroised s u).nat (Od.useMask u) = 0)
  ∧ (∀ s : State, (kekWritten s).od = s.od ∧ (kekWritten s).keys = s.keys ∧ (peerUnset s = true → (kekWritten s).kek = [])
    ∧ (peerUnset s = false → (kekWritten s).kek =
      hkdf384 (sharedSecret s (scalarOf Config.wrapPrivate) (fullPoint (s.bytes Od.kekPeerKey))).1 (beBytes 4 Config.serialNumber) kekLabel 32))
  ∧ (∀ s : State, (s.bytes Od.lidBlock).length = 16 →
    (lidRun s).bytes Od.lidBlock = (if s.nat Od.lidDirection = 0 then aesEncrypt else aesDecrypt)
      (s.keySlot (utilSlot (s.nat Od.lidKeySlot))).key (s.bytes Od.lidBlock)
    ∧ (lidRun s).nat Od.lidOperations = (s.bump Od.lidOperations).nat Od.lidOperations)
  ∧ (∀ (s : State) (k code : Nat) (data : Bytes), Allows s k Od.kekPeerKey code (.o data) → data.length = 97 →
    Yields (.kekPeerKeyWrite k data) s (commissioningEnds s (kekWritten (wrote s k Od.kekPeerKey (.o data))) k))
  ∧ ∀ (s : State) (k code : Nat) (data : Bytes), Allows s k Od.lidBlock code (.o data) → data.length = 16 →
    Yields (.lidBlockOperation k data) s (commissioningEnds s (lidRun (wrote s k Od.lidBlock (.o data))) k)

/-- R351, R353, R358, R364, R372: a seal notice is read back from its segment; with sealing off here, or from the side that this end has, it raises
`SEAL_CONFIG_MISMATCH`; else a current one makes the path `SYNCED` and a pending one is held until its span. A rollover gives each path of the tray
the other slot, and at StartSpan the path goes over to it under its fresh epoch. -/
def Obligations.NoticesAndRolloverMoveTheKey : Prop :=
  (∀ (s : State) (n t start : Nat) (x : Notice) (pending prot : Bool), n < 64 → t < 2048 → x.sel < 2 → x.epoch < 2 ^ 32 → x.phase < 16 →
      x.side < 2 → pathCarrier s t prot = n → (prot = true → pathCarrier s t false ≠ n) →
    ((s.flag (Od.sealEnable t) = false ∨ x.side = s.nat (Od.sealSide t)) →
      Yields (.sealNoticeReceived n (noticeSegment t x start pending)) s (sealMismatch s t))
    ∧ (s.flag (Od.sealEnable t) = true → x.side ≠ s.nat (Od.sealSide t) → s.nat (rxSealKey t prot) = 0 →
      Yields (.sealNoticeReceived n (noticeSegment t x start pending)) s s)
    ∧ (s.flag (Od.sealEnable t) = true → x.side ≠ s.nat (Od.sealSide t) → s.nat (rxSealKey t prot) ≠ 0 → pending = true →
      Yields (.sealNoticeReceived n (noticeSegment t x start pending)) s (slotsRefresh (trayRefresh (rxSelect (s.setTrayPath t prot
        { s.trayPath t prot with rx := { (s.trayPath t prot).rx with held := some (x, start % 32) } }) t) t) t))
    ∧ (s.flag (Od.sealEnable t) = true → x.side ≠ s.nat (Od.sealSide t) → s.nat (rxSealKey t prot) ≠ 0 → pending = false →
      Yields (.sealNoticeReceived n (noticeSegment t x start pending)) s (slotsRefresh (trayRefresh (rxSelect ((s.setTrayPath t prot
        { s.trayPath t prot with rx := { (s.trayPath t prot).rx with
          next := if (s.trayPath t prot).rx.cur = some x then none else some x
          shown := if s.nat (rxSealKey t prot) = 2 then (s.trayPath t prot).rx.shown else some x.sel } }).setN
          (rxSealKey t prot) 2) t) t) t)))
  ∧ (∀ (s : State) (t : Nat), t < 2048 → ((sealMismatch s t).source (srcTray t 7)).real = true ∧ (sealMismatch s t).keys = s.keys)
  ∧ (∀ (s : State) (n t start : Nat) (x : Notice) (pending : Bool), n < 64 → t < 2048 → x.sel < 2 → x.epoch < 2 ^ 32 → x.phase < 16 →
      x.side < 2 → pathCarrier s t false ≠ n → pathCarrier s t true ≠ n →
    Yields (.sealNoticeReceived n (noticeSegment t x start pending)) s s)
  ∧ (∀ (s : State) (k t : Nat), Admits s k (Od.sealCommand t) 1 →
    ((s.nat (Od.rolloverState t) = 1 ∨ s.nat (Od.agreeState t) = 1) → Yields (.sealRollover k t) s (s.refuse k .busy))
    ∧ (s.nat (Od.rolloverState t) ≠ 1 → s.nat (Od.agreeState t) ≠ 1 → s.flag (Od.sealEnable t) = true →
        s.nat (Od.trayKeySlotSlotState (2 * t + (1 - s.nat (Od.txKeySelect t)))) ≠ 0 →
      ∃ v, Yields (.sealRollover k t) s v ∧ v.nat (Od.rolloverState t) = (if trayPlaced s t then 1 else s.nat (Od.rolloverState t))
        ∧ v.nat (Od.txKeySelect t) = (if trayPlaced s t then s.nat (Od.txKeySelect t) else 1 - s.nat (Od.txKeySelect t))
        ∧ v.keys = s.keys ∧ v.sources = s.sources
        ∧ ∀ prot, pathPlaced s t prot = true → (v.trayPath t prot).tx.roll = some { sel := 1 - s.nat (Od.txKeySelect t) }))
  ∧ (∀ (s : State) (t : Nat) (prot : Bool), t < 2048 →
    ((s.trayPath t prot).tx.roll = none → Yields (.rolloverSwitch t prot) s s)
    ∧ (∀ r, (s.trayPath t prot).tx.roll = some r → r.start = none → Yields (.rolloverSwitch t prot) s s)
    ∧ (∀ r, (s.trayPath t prot).tx.roll = some r → r.start ≠ none → r.epoch < 2 ^ 32 → ∃ v, Yields (.rolloverSwitch t prot) s v
      ∧ v.nat (Od.txKeySelect t) = r.sel ∧ (v.trayPath t prot).tx.sel = r.sel ∧ (v.trayPath t prot).tx.epoch = r.epoch
      ∧ (v.trayPath t prot).tx.noEpoch = false ∧ (v.trayPath t prot).tx.roll = none ∧ v.keys = s.keys))
  ∧ (∀ (s : State) (t : Nat), t < 2048 → Yields (.sealAlarmClearTimer t 0) s (s.setCond (srcTray t 6) false)
    ∧ Yields (.sealAlarmClearTimer t 1) s (trayRefresh (s.setCond (srcTray t 7) false) t))
  ∧ (∀ (s : State) (x : Nat), (s.nat (Od.epochNext x) = 4294967295 → drawEpoch s x = (none, s))
    ∧ (s.nat (Od.epochNext x) ≠ 4294967295 → (drawEpoch s x).1 = some (s.nat (Od.epochNext x))
      ∧ (drawEpoch s x).2.nat (Od.epochNext x) = s.nat (Od.epochNext x) + 1))
  ∧ ∀ (s : State) (k : Nat), Admits s k Od.clearSealCounters 1 →
    ∃ t, Yields (.clearSealCounters k) s t ∧ (∀ x, x < 2048 → t.nat (Od.spansVerified x) = 0 ∧ t.nat (Od.sealFailures x) = 0
      ∧ t.nat (Od.tagsMissing x) = 0 ∧ t.nat (Od.rolloverState x) = s.nat (Od.rolloverState x)) ∧ t.nat Od.keyLoadFailures = 0
      ∧ t.nat Od.lidOperations = 0 ∧ t.nat Od.lidLeaseExpiries = 0 ∧ t.keys = s.keys ∧ t.sources = s.sources

/-- R365–R369: an agreement starts with its exchange, and ends with its result: on a message from the own side, on an abort, on `AgreeTimeout`, or by
command; a part that belongs to it is taken; a failed one leaves every key as it was. The Lid has at most one holder. -/
def Obligations.AgreementAndLidRunByMessages : Prop :=
  (∀ (s : State) (k t : Nat), Admits s k (Od.agreeCommand t) 1 → s.boot.trialDeferred = false →
    ((s.nat (Od.rolloverState t) = 1 ∨ s.nat (Od.agreeState t) = 1) → Yields (.agreeStart k t) s (s.refuse k .busy))
    ∧ (s.nat (Od.rolloverState t) ≠ 1 → s.nat (Od.agreeState t) ≠ 1 → ((s.bytes (Od.peerAgreementKey t)).all fun b => b == 0) = false →
        s.nat (Od.trayKeySlotSlotState (2 * t + (1 - s.nat (Od.txKeySelect t)))) ≠ 2 → onKrytelm s t = true →
      ∃ v a, Yields (.agreeStart k t) s v ∧ v.nat (Od.agreeState t) = 1 ∧ v.nat (Od.agreeResult t) = 0 ∧ (v.tray t).agree = some a
        ∧ a.parts = [] ∧ a.sendOffer = decide (s.nat (Od.sealSide t) = 0) ∧ v.keys = s.keys))
  ∧ (∀ (s : State) (k t : Nat), Admits s k (Od.agreeCommand t) 2 →
    (s.nat (Od.agreeState t) = 1 → Yields (.agreeCancel k t) s (agreeEnd (noted s k (Od.agreeCommand t)) t 6 false))
    ∧ (s.nat (Od.agreeState t) ≠ 1 → Yields (.agreeCancel k t) s (s.refuse k .state)))
  ∧ (∀ (s : State) (t result : Nat) (abort : Bool), (agreeEnd s t result abort).nat (Od.agreeState t) = (if result = 1 then 2 else 3)
    ∧ (agreeEnd s t result abort).nat (Od.agreeResult t) = result ∧ (agreeEnd s t result abort).keys = s.keys)
  ∧ (∀ (s : State) (t : Nat), t < 2048 → (s.nat (Od.agreeState t) = 1 → Yields (.agreeTimeout t) s (agreeEnd s t 2 false))
    ∧ (s.nat (Od.agreeState t) ≠ 1 → Yields (.agreeTimeout t) s (s.setTray t { s.tray t with agree := none })))
  ∧ (∀ (s : State) (n t msg part side exch w : Nat) (a : Agree), n < 64 → t < 2048 → msg < 4 → part < 4 → side < 2 → exch < 256 →
      w < 2 ^ 112 → (pathCarrier s t false = n ∨ pathCarrier s t true = n) → (s.tray t).agree = some a → s.nat (Od.agreeState t) = 1 →
    (side = s.nat (Od.sealSide t) →
      Yields (.agreementMessageReceived n ((((((2 * 2 ^ 11 + t) * 4 + msg) * 4 + part) * 2 + side) * 2 ^ 8 + exch) * 2 ^ 112 + w)) s
        (agreeEnd s t 5 false))
    ∧ (side ≠ s.nat (Od.sealSide t) → msg = 3 → exch = a.exchange →
      Yields (.agreementMessageReceived n ((((((2 * 2 ^ 11 + t) * 4 + msg) * 4 + part) * 2 + side) * 2 ^ 8 + exch) * 2 ^ 112 + w)) s
        (agreeEnd s t 4 false))
    ∧ (side ≠ s.nat (Od.sealSide t) → s.nat (Od.sealSide t) = 0 → exch = a.exchange → (msg = 1 ∨ msg = 2) →
      Yields (.agreementMessageReceived n ((((((2 * 2 ^ 11 + t) * 4 + msg) * 4 + part) * 2 + side) * 2 ^ 8 + exch) * 2 ^ 112 + w)) s
        (agreeSide0 s t (takePart a msg part (beBytes 14 w))))
    ∧ (side ≠ s.nat (Od.sealSide t) → s.nat (Od.sealSide t) = 1 → exch = a.exchange → msg = 0 →
      Yields (.agreementMessageReceived n ((((((2 * 2 ^ 11 + t) * 4 + msg) * 4 + part) * 2 + side) * 2 ^ 8 + exch) * 2 ^ 112 + w)) s
        (agreeSide1 s t (takePart a msg part (beBytes 14 w)))))
  ∧ (∀ (s : State) (t : Nat) (a : Agree), (partsOf a 1 4 = none ∨ partsOf a 2 2 = none → agreeSide0 s t a = s.setTray t { s.tray t with agree := some a })
    ∧ (partsOf a 0 4 = none → agreeSide1 s t a = s.setTray t { s.tray t with agree := some a }))
  ∧ (∀ (s : State) (k : Nat), Admits s k Od.lidLock 1 →
    ((s.session k).transport ≤ 2 → (s.nat Od.lockHolder = 255 ∨ s.nat Od.lockHolder = k) →
      Yields (.lidLockAcquire k) s ((noted s k Od.lidLock).setN Od.lockHolder k))
    ∧ ((s.session k).transport ≤ 2 → s.nat Od.lockHolder ≠ 255 → s.nat Od.lockHolder ≠ k →
      Yields (.lidLockAcquire k) s (s.refuse k .locked)))
  ∧ (∀ (s : State) (k : Nat), Admits s k Od.lidLock 2 →
    (s.nat Od.lockHolder = k → Yields (.lidLockRelease k) s (lidFree (noted s k Od.lidLock)))
    ∧ (s.nat Od.lockHolder ≠ 255 → s.nat Od.lockHolder ≠ k → Yields (.lidLockRelease k) s (s.refuse k .locked)))
  ∧ (∀ (s : State) (k : Nat), Admits s k Od.lidLock 3 → Yields (.lidLockForceRelease k) s (lidFree (noted s k Od.lidLock)))
  ∧ (∀ s : State, s.nat Od.lockHolder ≠ 255 → Yields .lidLeaseExpired s (lidFree (s.bump Od.lidLeaseExpiries)))
  ∧ (∀ s : State, s.nat Od.lockHolder = 255 → Yields .lidLeaseExpired s s)
  ∧ ∀ s : State, (lidFree s).nat Od.lockHolder = 255 ∧ (lidFree s).bytes Od.lidBlock = List.replicate 16 0

/-- R348: the 96 bits of the IV of a span are the side, the tray, the path's epoch, the span number and 8 zeros, from the top. -/
def Obligations.SpanIvIsBuiltAsInTheTable : Prop :=
  ∀ side tray epoch span : Nat, side < 2 → tray < 2048 → epoch < 2 ^ 32 → span < 2 ^ 44 → (sealIv side tray epoch span).length = 12
    ∧ beNat (sealIv side tray epoch span) / 2 ^ 95 = side ∧ beNat (sealIv side tray epoch span) / 2 ^ 84 % 2 ^ 11 = tray
    ∧ beNat (sealIv side tray epoch span) / 2 ^ 52 % 2 ^ 32 = epoch ∧ beNat (sealIv side tray epoch span) / 2 ^ 8 % 2 ^ 44 = span
    ∧ beNat (sealIv side tray epoch span) % 2 ^ 8 = 0

/-! ### Hub mode (chapter 13) -/

/-- R390, R396: every map that the builder makes lists its entries in ascending Start, grants each leaf at most one burst, lets every granted burst
end within the frame, lets no two overlap, guards included, and keeps every burst out of the quiet intervals. -/
def Obligations.MapsGrantDisjointBurstsInTheFrame : Prop :=
  ∀ (s : State) (i j : Nat),
    (buildMap s i j).Pairwise (fun g h => g.start ≤ h.start ∧ (g.kind ≠ 2 → h.kind ≠ 2 → g.leaf ≠ h.leaf
      ∧ g.start + burstUnits s i g.blocks g.format ≤ h.start))
    ∧ ∀ g, g ∈ buildMap s i j → g.kind ≠ 2 → g.start + burstUnits s i g.blocks g.format ≤ frameUnits s i
      ∧ ∀ q, q ∈ quiets s i j → ((g.start + burstUnits s i g.blocks g.format : Nat) : Int) ≤ q.1 ∨ q.2 ≤ (g.start : Int)

/-- R378, R379, R389, R391, R398, R401, R404, R407: the builder's map waits for its boundary, where the banks swap or the stale map is reused; a
downstream frame starts with the header of its number; a grant entry is read back as it was written; a granted leaf's context is hot. -/
def Obligations.DownstreamFramesCarryTheMaps : Prop :=
  (∀ (s : State) (i : Nat) (micros : F32), hubRuns s i = true → (s.hub i).building = none →
    ∃ t, Yields (.mapBuildDone i micros) s t ∧ (t.hub i).building = some (buildMap s i (boundaryFrame s + 2))
      ∧ (t.hub i).active = (s.hub i).active ∧ t.contexts = s.contexts ∧ t.sources = s.sources)
  ∧ (∀ (s : State) (i : Nat) (micros : F32), i < 2048 → (hubRuns s i = false ∨ (s.hub i).building ≠ none) → Yields (.mapBuildDone i micros) s s)
  ∧ (∀ (s : State) (i : Nat) (m : List Grant), hubRuns s i = true → (s.hub i).building = some m →
    ∃ ms, ms = ((boundaryFrame s + 1, m) :: (s.hub i).lineMaps).take 16 ∧ Yields (.grantMapSwap i) s
      (issueGrants (s.setHub i { s.hub i with active := m, building := none, lineMaps := ms }) i (boundaryFrame s + 1) m))
  ∧ (∀ (s : State) (i j : Nat) (m : List Grant), (issueGrants s i j m).hub i = s.hub i
      ∧ ∀ g, g ∈ m → g.kind ≠ 2 → ((issueGrants s i j m).leafRun g.leaf).lastGrant = j)
  ∧ (∀ (s : State) (i : Nat), hubRuns s i = true → (s.hub i).building = none →
    ∃ t, Yields (.grantMapSwap i) s t ∧ (t.hub i).active = (s.hub i).active ∧ (t.hub i).building = none
      ∧ t.nat (Od.grantMapStale i) = (s.bump (Od.grantMapStale i)).nat (Od.grantMapStale i))
  ∧ (∀ (s : State) (i : Nat), i < 2048 → hubRuns s i = false → Yields (.grantMapSwap i) s s)
  ∧ (∀ (s : State) (i offset : Nat) (poisoned : List (Nat × Nat)), hubRuns s i = true → inService s (i / 32) = true → s.engineUp (i / 32) = true →
    ∃ t, Yields (.hubDownstreamFrame i offset poisoned) s t ∧ (t.hub i).startsNow = true ∧ (t.hub i).settled = true
      ∧ (t.hub i).out.take 128 = frameHeader (hubFrameNow s) offset (s.hub i).active.length)
  ∧ (∀ (s : State) (i offset : Nat) (poisoned : List (Nat × Nat)), i < 2048 → (hubRuns s i = false ∨ s.engineUp (i / 32) = false) →
    Yields (.hubDownstreamFrame i offset poisoned) s s)
  ∧ (∀ (s : State) (i frame : Nat) (m : List Grant), i < 2048 →
      (((s.hub i).lineMaps.find? fun x => x.1 = frame).map (·.2)).getD [] = m →
    Yields (.contextPrefetch i frame []) s ((m.filter fun g => g.kind != 2).foldl (fun s g => makeHot s g.leaf) s))
  ∧ (∀ (s : State) (l : Nat), s.hotOrder.length < 16384 → (makeHot s l).isHot l = true ∧ (makeHot s l).ctx l = s.ctx l)
  ∧ ∀ g : Grant, g.kind < 4 → g.leaf < 2 ^ 18 → g.start < 2 ^ 22 → g.blocks < 2 ^ 10 → g.format < 2 →
    natOfBits (grantBits g) / 2 ^ 62 = g.kind ∧ natOfBits (grantBits g) / 2 ^ 44 % 2 ^ 18 = g.leaf
    ∧ natOfBits (grantBits g) / 2 ^ 22 % 2 ^ 22 = g.start ∧ natOfBits (grantBits g) / 2 ^ 12 % 2 ^ 10 = g.blocks
    ∧ natOfBits (grantBits g) / 2 ^ 11 % 2 = g.format ∧ natOfBits (grantBits g) % 256 = crc8 56 (natOfBits (grantBits g) / 256)

/-- R165, R393, R397, R399, R405, R408–R411: reception of a burst: a preamble above the threshold starts it, the sync word commits it, a valid header
of the granted leaf opens its payload, a discovery header is judged in its window, a failing one is counted, blocks are taken up to the grant, and the
postamble or an expiry frees the receiver. A slot that passes in vain is a missed grant, and eight frames without a burst are no signal. -/
def Obligations.BurstsAreReceivedInTheirSlots : Prop :=
  (∀ (s : State) (i metric frame : Nat) (a : Int), i < 2048 →
    ((burstRx s i = false ∨ metric ≤ s.nat (Od.preambleThreshold i)) → Yields (.preambleDetected i metric frame a) s s)
    ∧ (burstRx s i = true → s.nat (Od.preambleThreshold i) < metric →
      ((s.hub i).burst.phase = 0 → Yields (.preambleDetected i metric frame a) s (burstBegin s i metric frame a))
      ∧ ((s.hub i).burst.phase = 1 → (s.hub i).burst.metric < metric → Yields (.preambleDetected i metric frame a) s (burstBegin s i metric frame a))
      ∧ ((s.hub i).burst.phase = 1 → metric ≤ (s.hub i).burst.metric → Yields (.preambleDetected i metric frame a) s s)
      ∧ (2 ≤ (s.hub i).burst.phase → (s.hub i).burst.grant = none → (s.hub i).burst.window = false → s.flag (Od.captureGrants i) = false →
        Yields (.preambleDetected i metric frame a) s (setBurst (s.bump (Od.burstOverlaps i)) i { (s.hub i).burst with overlapped := true }))))
  ∧ (∀ (s : State) (i metric frame : Nat) (a : Int), ((burstBegin s i metric frame a).hub i).burst.phase = 1
    ∧ ((burstBegin s i metric frame a).hub i).burst.metric = metric ∧ ((burstBegin s i metric frame a).hub i).burst.arrival = a
    ∧ ((burstBegin s i metric frame a).hub i).burst.grant = grantAt s i frame a
    ∧ (grantAt s i frame a = none → ((burstBegin s i metric frame a).hub i).burst.seeds = defaultSeeds s i))
  ∧ (∀ (s : State) (i : Nat) (bits : List Bool) (rms : List F32), i < 2048 →
    ((s.hub i).burst.phase = 1 → syncDistance bits ≤ s.nat (Od.syncErrors i) → Yields (.syncWordMatch i bits rms) s
      ((burstTrim (setBurst s i { (s.hub i).burst with phase := 2 }) (i / 32) rms).setCond (srcCarrier (i / 32) 1) false))
    ∧ (((s.hub i).burst.phase ≠ 1 ∨ s.nat (Od.syncErrors i) < syncDistance bits) → Yields (.syncWordMatch i bits rms) s s))
  ∧ (∀ (s : State) (i : Nat), i < 2048 →
    ((s.hub i).burst.phase = 1 → ∃ t, Yields (.tentativeExpiry i) s t ∧ (t.hub i).burst = {}
      ∧ t.nat (Od.burstFalseDetect i) = (s.bump (Od.burstFalseDetect i)).nat (Od.burstFalseDetect i) ∧ ∀ l, t.ctx l = s.ctx l)
    ∧ ((s.hub i).burst.phase ≠ 1 → Yields (.tentativeExpiry i) s s))
  ∧ (∀ (s : State) (i header : Nat) (soft : List Int) (power freq : Int), i < 2048 → (s.hub i).burst.phase = 2 → headerDecoded soft = header →
    (crc16 80 (header / 65536) ≠ header % 65536 → (s.hub i).burst.grant = none → Yields (.burstHeaderDecoded i soft power freq) s
      (burstClear (coldMiss (s.bump (Od.headerErrors i)) i (s.hub i).burst) i))
    ∧ (crc16 80 (header / 65536) = header % 65536 → header / 2 ^ 94 = 1 → (s.hub i).burst.window = true →
      Yields (.burstHeaderDecoded i soft power freq) s
        (burstClear (discovery s i (s.hub i).burst (beBytes 6 (header / 2 ^ 46)) (header / 2 ^ 36 % 1024) power freq) i))
    ∧ (crc16 80 (header / 65536) = header % 65536 → header / 2 ^ 94 = 1 → (s.hub i).burst.window = false →
      Yields (.burstHeaderDecoded i soft power freq) s (burstClear (s.bump (Od.ungrantedBursts i)) i))
    ∧ (∀ g, crc16 80 (header / 65536) = header % 65536 → header / 2 ^ 94 = 0 → (s.hub i).burst.grant = some g →
        g.leaf = header / 2 ^ 76 % 2 ^ 18 → leafRegistered (s.ctx g.leaf).state = true → (s.ctx g.leaf).home = i →
      ∃ t, Yields (.burstHeaderDecoded i soft power freq) s t ∧ (t.hub i).burst.phase = 3 ∧ (t.hub i).burst.leaf = g.leaf
        ∧ (t.hub i).burst.left = g.blocks ∧ (t.ctx g.leaf).demand = header / 2 ^ 52 % 2 ^ 24))
  ∧ (∀ (s : State) (i : Nat) (b : Burst) (serial : Bytes) (r : Nat) (power freq : Int),
      (s.knownLeaves.find? fun l => (s.ctx l).enable && (s.ctx l).serial = serial) = none →
    (discovery s i b serial r power freq).nat (Od.discoveryBursts i) = (s.bump (Od.discoveryBursts i)).nat (Od.discoveryBursts i)
    ∧ (discovery s i b serial r power freq).nat (Od.unknownSerials i) = (s.bump (Od.unknownSerials i)).nat (Od.unknownSerials i))
  ∧ (∀ (s : State) (i : Nat) (soft : List Int) (power freq : Int), i < 2048 → (s.hub i).burst.phase ≠ 2 → Yields (.burstHeaderDecoded i soft power freq) s s)
  ∧ (∀ (s : State) (i : Nat) (coded : Bytes), i < 2048 → (s.hub i).burst.phase = 3 → (s.hub i).burst.left ≠ 0 → coded.length = 256 →
    ∃ t, Yields (.burstPayloadBlock i coded) s t ∧ (t.hub i).burst.left + 1 = (s.hub i).burst.left
      ∧ (t.hub i).burst.info = (s.hub i).burst.info ++ coded.take 192
      ∧ (burstBlockOk (bitsOfBytes coded) = true → (t.hub i).burst.marked = (s.hub i).burst.marked)
      ∧ (burstBlockOk (bitsOfBytes coded) = false → (t.hub i).burst.marked = (s.hub i).burst.info.length / 192 :: (s.hub i).burst.marked
        ∧ t.nat (Od.payloadBlocksUncorrected i) = (s.bump (Od.payloadBlocksUncorrected i)).nat (Od.payloadBlocksUncorrected i))
      ∧ t.nat (Od.payloadBlocks i) = (s.bump (Od.payloadBlocks i)).nat (Od.payloadBlocks i) ∧ t.contexts = s.contexts)
  ∧ (∀ (s : State) (i : Nat) (seeds : Bytes), i < 2048 → (s.hub i).burst.phase = 3 →
    ∃ t, Yields (.burstEnd i seeds) s t ∧ (t.hub i).burst = {} ∧ (t.hub i).active = (s.hub i).active ∧ t.keys = s.keys)
  ∧ (∀ (s : State) (i : Nat) (seeds : Bytes), i < 2048 → (s.hub i).burst.phase ≠ 3 → Yields (.burstEnd i seeds) s s)
  ∧ (∀ (s : State) (i frame leaf : Nat) (m : List Grant), i < 2048 →
      (((s.hub i).lineMaps.find? fun x => x.1 = frame).map (·.2)).getD [] = m →
    ((∃ g, g ∈ m ∧ g.kind ≠ 2 ∧ g.leaf = leaf) → Yields (.grantedSlotEnd i frame leaf) s (grantMissed s i leaf))
    ∧ ((∀ g, g ∈ m → g.kind ≠ 2 → g.leaf ≠ leaf) → Yields (.grantedSlotEnd i frame leaf) s s))
  ∧ (∀ (s : State) (i l : Nat), (s.hub i).settled = true → ((s.ctx l).state = 2 ∨ (s.ctx l).state = 3) →
    (s.nat (Od.lostBursts i) ≤ (s.leafRun l).missed + 1 → ((grantMissed s i l).ctx l).state = 5)
    ∧ ((s.leafRun l).missed + 1 < s.nat (Od.lostBursts i) → ((grantMissed s i l).ctx l).state = (s.ctx l).state
      ∧ ((grantMissed s i l).leafRun l).missed = (s.leafRun l).missed + 1))
  ∧ ∀ (s : State) (n : Nat), n < 64 →
    (isHub s n = true → inService s n = true → s.engineUp n = true → Yields (.hubBurstSilence n) s (s.setCond (srcCarrier n 1) true))
    ∧ (isHub s n = false → Yields (.hubBurstSilence n) s s)

/-- R386, R399, R406, R407, R412, R414: the host's commands on leaves, queues and hub keys: a leaf that is active ranges again, a registered one
leaves with its message, a disabled one reads `DISABLED`; a rollover is set for its frame, takes effect there and ends 64 frames later; a frame at a
source joins its leaf's queue or is counted as dropped; a flush empties what has not been read. -/
def Obligations.LeavesFollowTheirCommands : Prop :=
  (∀ (s : State) (k l : Nat), Admits s k (Od.leafCommand l) 1 →
    (((s.ctx l).state = 2 ∨ (s.ctx l).state = 3) → ∃ u, u = noted s k (Od.leafCommand l) ∧ Yields (.leafRangeAgain k l) s
      ((u.setCtx l { u.ctx l with state := 1 }).setLeafRun l { u.leafRun l with attempts := 0, missed := 0, errors := [], injAs := 0 }))
    ∧ ((s.ctx l).state ≠ 2 → (s.ctx l).state ≠ 3 → Yields (.leafRangeAgain k l) s (s.refuse k .state)))
  ∧ (∀ (s : State) (k l : Nat), Admits s k (Od.leafCommand l) 2 →
    (leafRegistered (s.ctx l).state = true → ∃ t, Yields (.leafDeregister k l) s t ∧ (t.ctx l).state = 0
      ∧ (t.hub (s.ctx l).home).control = (s.hub (s.ctx l).home).control ++ [(l, controlMessage 7 [], 3)])
    ∧ (leafRegistered (s.ctx l).state = false → Yields (.leafDeregister k l) s (s.refuse k .state)))
  ∧ (∀ (s : State) (k l code : Nat) (enable : Bool), s.answers k = true → writeGate s k 0x5100 l 1 code = .ok →
    Yields (.leafEnableWrite k l enable) s (commissioningEnds s (leafEnableAfter
      ((leafSet s l 1 (.u (if enable then 1 else 0))).journalBy k 1 0x5100 l 1) l) k))
  ∧ (∀ (s : State) (l : Nat), ((s.ctx l).enable = false → leafRegistered (s.ctx l).state = true → ((leafEnableAfter s l).ctx l).state = 4)
    ∧ ((s.ctx l).enable = true → (s.ctx l).state = 4 → ((leafEnableAfter s l).ctx l).state = 0)
    ∧ ((s.ctx l).enable = true → (s.ctx l).state ≠ 4 → ((leafEnableAfter s l).ctx l) = s.ctx l))
  ∧ (∀ (s : State) (k i : Nat), Admits s k (Od.hubKeyCommand i) 1 → hubSubExists s i = false →
    Yields (.hubKeyRollover k i) s (s.refuse k .inconsistent))
  ∧ (∀ (s : State) (k i : Nat), Admits s k (Od.hubKeyCommand i) 1 → hubSubExists s i = true →
    ((s.nat (Od.trayKeySlotSlotState (2 * i + (1 - s.nat (Od.hubKeySelect i)))) = 0 ∨ s.flag (Od.hubSeal i) = false) →
      Yields (.hubKeyRollover k i) s (s.refuse k .state))
    ∧ (s.nat (Od.trayKeySlotSlotState (2 * i + (1 - s.nat (Od.hubKeySelect i)))) ≠ 0 → s.flag (Od.hubSeal i) = true →
        (s.hub i).rollAt = none → (s.hub i).oldUntil = none → s.nat (Od.epochNext (2 * i + (1 - s.nat (Od.hubKeySelect i)))) ≠ 4294967295 →
      ∃ t, Yields (.hubKeyRollover k i) s t ∧ (t.hub i).rollAt = some (hubFrameNow s + s.nat (Od.hubRolloverFrames i))
        ∧ (t.hub i).nextEpoch = some (s.nat (Od.epochNext (2 * i + (1 - s.nat (Od.hubKeySelect i)))))
        ∧ t.nat (Od.rolloverFrame i) = hubFrameNow s + s.nat (Od.hubRolloverFrames i)
        ∧ t.nat (Od.hubKeySelect i) = s.nat (Od.hubKeySelect i) ∧ t.keys = s.keys))
  ∧ (∀ (s : State) (i : Nat), i < 2048 →
    ((s.hub i).rollAt = none → Yields (.hubRolloverEffective i) s s)
    ∧ (∀ f e, (s.hub i).rollAt = some f → (s.hub i).nextEpoch = some e → ∃ t, Yields (.hubRolloverEffective i) s t
      ∧ t.nat (Od.hubKeySelect i) = 1 - s.nat (Od.hubKeySelect i) ∧ t.nat (Od.hubEpoch i) = e ∧ (t.hub i).rollAt = none
      ∧ (t.hub i).oldUntil = some (f + 64) ∧ (t.hub i).oldEpoch = some (s.nat (Od.hubEpoch i)) ∧ t.keys = s.keys)
    ∧ ((s.hub i).oldUntil = none → Yields (.hubRolloverEnd i) s s)
    ∧ ((s.hub i).oldUntil ≠ none → ∃ t, Yields (.hubRolloverEnd i) s t ∧ (t.hub i).oldUntil = none ∧ t.nat (Od.rolloverFrame i) = 0
      ∧ t.nat (Od.hubEpoch i) = s.nat (Od.hubEpoch i) ∧ t.keys = s.keys))
  ∧ (∀ (s : State) (j : Nat) (frame : Bytes), j < 16 → s.nat (Od.sourceTray j) < 2048 → fcsOk frame = true →
    (frameTags frame = none → Yields (.hubIngressFrame j frame) s (s.bump (Od.unclassifiedDrops j)))
    ∧ (∀ g l, frameTags frame = some g → (s.knownLeaves.find? fun l => (s.ctx l).source = j && (s.ctx l).tags = g.1) = some l →
      (((s.ctx l).state = 0 ∨ (s.ctx l).state = 4) → Yields (.hubIngressFrame j frame) s (s.bump (Od.noLeafDrops l)))
      ∧ (∀ f u, (s.ctx l).state ≠ 0 → (s.ctx l).state ≠ 4 → f = { num := (s.leafRun l).nextNum, priority := g.2, data := frame } →
          u = s.setLeafRun l { s.leafRun l with queue := (s.leafRun l).queue ++ [f], nextNum := (s.leafRun l).nextNum + 1 } →
        (queuedBytes (s.leafRun l) + frame.length ≤ s.nat (Od.queueLimit l) → queuePages u ≤ queueRegionSize s →
          Yields (.hubIngressFrame j frame) s (u.peak Od.pagesPeak (queuePages u)))
        ∧ (s.nat (Od.queueLimit l) < queuedBytes (s.leafRun l) + frame.length →
          Yields (.hubIngressFrame j frame) s ((s.bump (Od.queueDrops l)).hold (fsLeaf l) 1)))))
  ∧ (∀ (s : State) (j : Nat) (frame : Bytes), j < 16 → (2048 ≤ s.nat (Od.sourceTray j) ∨ fcsOk frame = false) →
    Yields (.hubIngressFrame j frame) s s)
  ∧ (∀ (s : State) (k q : Nat), Admits s k (Od.queueCommand q) 1 → ∃ t, Yields (.queueFlush k q) s t
    ∧ (t.leafRun q).queue = (s.leafRun q).queue.filter (fun f => decide (0 < f.taken)) ∧ (∀ x, x ≠ q → t.leafRun x = s.leafRun x)
    ∧ t.nat (Od.flushes q) = (s.bump (Od.flushes q)).nat (Od.flushes q) ∧ t.contexts = s.contexts)
  ∧ ∀ (s : State) (k : Nat), Admits s k Od.clearHubCounters 1 →
    ∃ t, Yields (.clearHubCounters k) s t ∧ (∀ i, i < 2048 → t.nat (Od.burstsReceived i) = 0 ∧ t.nat (Od.grantMapStale i) = 0
      ∧ t.nat (Od.hubKeySelect i) = s.nat (Od.hubKeySelect i)) ∧ (∀ l, (t.ctx l).counters = [] ∧ (t.ctx l).state = (s.ctx l).state)
      ∧ t.hubs = s.hubs ∧ t.leafRuns = s.leafRuns

/-! ### The Stockpot and capture DMA (chapter 14) -/

/-- R418, R420–R426, R428: what a page read answers and leaves, by the page's tag and the bit errors found: written data, corrected and written back
with its History one higher up to 7, poisoned beyond the strength, the region's fill where nothing was written or the page is poisoned; a write is
read back, and a poisoned page discards it; the scrubber reads on or ends its sweep; a retired page is served by its spare. -/
def Obligations.PagesKeepTheirTags : Prop :=
  (∀ (s : State) (a errors : Nat), a < 4 * stackSize →
    (stackUp s a = true → Yields (.stockpotPageRead a errors) s (readPage s a errors false).2.2)
    ∧ (stackUp s a = false → Yields (.stockpotPageRead a errors) s s))
  ∧ (∀ (s : State) (a : Nat) (data : Bytes), a < 4 * stackSize →
    (stackUp s a = true → Yields (.stockpotPageWrite a data) s (writePage s a data))
    ∧ (stackUp s a = false → Yields (.stockpotPageWrite a data) s s))
  ∧ (∀ (s : State) (a errors : Nat) (x : Page), s.page (physical s a) = x → x.written = true →
    (readPage s a 0 false).1 = .ok ∧ (readPage s a 0 false).2.1 = x.data ∧ (readPage s a 0 false).2.2.pages = s.pages
    ∧ (0 < errors → errors ≤ s.nat Od.activeStrength → (readPage s a errors false).1 = .corrected ∧ (readPage s a errors false).2.1 = x.data
      ∧ (readPage s a errors false).2.2.page (physical s a) = { x with history := min (x.history + 1) 7 })
    ∧ (s.nat Od.activeStrength < errors → (readPage s a errors false).1 = .poisoned
      ∧ (readPage s a errors false).2.1 = regionFill (regionOf s a) ∧ (readPage s a errors false).2.2.page (physical s a) = { history := 7 }))
  ∧ (∀ (s : State) (a errors : Nat) (x : Page), s.page (physical s a) = x → x.written = false →
    (x.history = 7 → (readPage s a errors false).1 = .poisoned) ∧ (x.history ≠ 7 → (readPage s a errors false).1 = .neverWritten)
    ∧ (readPage s a errors false).2.1 = regionFill (regionOf s a) ∧ (readPage s a errors false).2.2.pages = s.pages)
  ∧ (∀ (s : State) (a : Nat) (data : Bytes), (s.page (physical s a)).poisoned = false → data.length = 4096 →
    (readPage (writePage s a data) a 0 false).1 = .ok ∧ (readPage (writePage s a data) a 0 false).2.1 = data
    ∧ ∀ q, q ≠ physical s a → (writePage s a data).page q = s.page q)
  ∧ (∀ (s : State) (a : Nat) (data : Bytes), (s.page (physical s a)).poisoned = true → (writePage s a data).pages = s.pages)
  ∧ (∀ (s : State) (x errors : Nat), x < 4 →
    (stackServes s x = false → Yields (.scrubRead x errors) s s)
    ∧ (stackServes s x = true → nextScrub s x (s.nat (Od.scrubPosition x)) = none → Yields (.scrubRead x errors) s (sweepEnd s x))
    ∧ (∀ n u, stackServes s x = true → nextScrub s x (s.nat (Od.scrubPosition x)) = some n →
        u = ((readPage s (x * stackSize + n) errors true).2.2).setN (Od.scrubPosition x) (n + 1) →
      Yields (.scrubRead x errors) s (if (nextScrub u x (n + 1)).isNone then sweepEnd u x else u)))
  ∧ (∀ (s : State) (x : Nat), (sweepEnd s x).nat (Od.scrubPosition x) = 0 ∧ (sweepEnd s x).pages = s.pages)
  ∧ (∀ (s : State) (runs : List (Nat × Nat)), (clearRuns s runs).od = s.od ∧ ∀ p, p ∈ (clearRuns s runs).pages ↔
      (p ∈ s.pages ∧ ((logical s p.1).map (inRuns runs)).getD false = false))
  ∧ (∀ (s : State) (k a : Nat), Admits s k Od.stockpotCommand 1 → s.nat Od.pageAddress = a →
    ((4 * stackSize ≤ a ∨ firstSpare ≤ pageNumber a) → Yields (.retirePage k) s (s.refuse k .range))
    ∧ (a < 4 * stackSize → pageNumber a < firstSpare → s.running = true → sparesUsed s (pageStack a) < stackSize - firstSpare →
        s.flash.retired.length < 8188 →
      ∃ t spare, Yields (.retirePage k) s t ∧ spare = pageStack a * stackSize + firstSpare + sparesUsed s (pageStack a) ∧ physical t a = spare
        ∧ t.stockpot.remap = s.stockpot.remap ++ [(a, spare)] ∧ t.flash.retired = s.flash.retired ++ [(a, spare)]
        ∧ (t.page spare).written = (s.page (physical s a)).written
        ∧ ((s.page (physical s a)).written = true → (t.page spare).data = (s.page (physical s a)).data)))
  ∧ (∀ (s : State) (k : Nat), Admits s k Od.stockpotCommand 2 →
    (s.nat Od.targetRegion < 2 → anyHub s = true → Yields (.initialiseRegion k) s (s.refuse k .state))
    ∧ (s.nat Od.targetRegion < 2 → anyHub s = false → Yields (.initialiseRegion k) s
      (clearRuns (noted s k Od.stockpotCommand) (regionRuns s (s.nat Od.targetRegion))))
    ∧ (6 ≤ s.nat Od.targetRegion → regionInUse s (s.nat Od.targetRegion - 6) = true → Yields (.initialiseRegion k) s (s.refuse k .state))
    ∧ (6 ≤ s.nat Od.targetRegion → regionInUse s (s.nat Od.targetRegion - 6) = false → Yields (.initialiseRegion k) s
      (clearRuns (noted s k Od.stockpotCommand) (regionRuns s (s.nat Od.targetRegion))))
    ∧ (2 ≤ s.nat Od.targetRegion → s.nat Od.targetRegion < 6 → delayRegionOn s (s.nat Od.targetRegion - 2) = true →
      Yields (.initialiseRegion k) s (s.refuse k .state)))
  ∧ ∀ (s : State) (k : Nat),
    (Admits s k Od.stockpotCommand 3 → ∃ t, Yields (.stockpotClearCounters k) s t ∧ t.nat Od.poisonedReads = 0 ∧ t.nat Od.correctedReads = 0
      ∧ (∀ c, c < 32 → t.nat (Od.sourceOverruns c) = 0 ∧ t.nat (Od.bytesDone c) = s.nat (Od.bytesDone c)) ∧ t.pages = s.pages
      ∧ t.stockpot = s.stockpot)
    ∧ (Admits s k Od.stockpotCommand 4 → ∃ t, Yields (.clearLog k) s t ∧ t.stockpot.log = [] ∧ t.nat Od.logOverwritten = 0 ∧ t.pages = s.pages)
    ∧ (Admits s k Od.stockpotCommand 5 → ∃ t, Yields (.eraseRetirementList k) s t ∧ t.flash.retiredErased = true
      ∧ t.stockpot = s.stockpot ∧ t.pages = s.pages)

/-- R430–R439: a channel starts when nothing forbids it and is refused with its error when its descriptor is misaligned; a complete page enters the
ring or is dropped and counted; an event releases its bursts; a burst moves octets up to the page's and the descriptor's end, and a one-shot
descriptor ends `DONE`; pause, resume and stop lead to their states, pause and stop when the drain has ended. -/
def Obligations.DmaChannelsMoveTheirPages : Prop :=
  (∀ (s : State) (k c : Nat), Admits s k (Od.dmaCommand c) 1 → dmaOpen s c = true → Yields (.dmaStart k c) s (s.refuse k .state))
  ∧ (∀ (s : State) (k c : Nat), Admits s k (Od.dmaCommand c) 1 → dmaOpen s c = false → dmaSourceOk s c = true →
      ((List.range 32).any fun d => d != c && dmaOpen s d && s.nat (Od.sourceKind d) = s.nat (Od.sourceKind c)
        && s.nat (Od.sourceInstance d) = s.nat (Od.sourceInstance c)) = false →
    (dmaMisaligned s c = true → Yields (.dmaStart k c) s (((s.setN (Od.lastError c) 1).occur (0x20 + c) c false).refuse k .inconsistent))
    ∧ (dmaMisaligned s c = false → dmaOutside s c = true → Yields (.dmaStart k c) s ((s.setN (Od.lastError c) 5).refuse k .inconsistent))
    ∧ (dmaMisaligned s c = false → dmaOutside s c = false → dmaInconsistent s c = false →
        (s.nat (Od.sourceKind c) ≠ 6 → ringTotal s c (sourcePort (s.nat (Od.sourceKind c)) (s.nat (Od.sourceInstance c))) + s.nat (Od.ringPages c) ≤ 4096
          ∧ s.domUp (domPort (sourcePort (s.nat (Od.sourceKind c)) (s.nat (Od.sourceInstance c)))) = true) →
        s.domUp (domStack (dmaDestStack s c)) = true → s.domUp (domHalf (dmaDestStack s c)) = true → s.domUp (domHalf (dmaSrcHalf s c)) = true →
        (s.nat (Od.sourceKind c) = 6 → s.domUp (domStack (crStack s (s.nat (Od.sourceInstance c)))) = true) →
      ∃ t, Yields (.dmaStart k c) s t ∧ t.nat (Od.dmaState c) = 1 ∧ t.nat (Od.dmaCommand c) = 1 ∧ t.nat (Od.lastError c) = 0 ∧ t.nat (Od.bytesDone c) = 0
        ∧ t.nat (Od.burstsPending c) = 0 ∧ t.nat (Od.nextDestOffset c) = s.nat (Od.destOffset c) ∧ (t.dma c).ring = []
        ∧ (t.dma c).ringSize = (if s.nat (Od.sourceKind c) = 6 then 0 else s.nat (Od.ringPages c)) ∧ t.pages = s.pages))
  ∧ (∀ (s : State) (k c : Nat),
    (Admits s k (Od.dmaCommand c) 2 → s.nat (Od.dmaState c) = 1 → (s.dma c).drain = .none → ∃ u, u = noted s k (Od.dmaCommand c)
      ∧ Yields (.dmaPause k c) s (u.setDma c { u.dma c with drain := .pause }))
    ∧ (Admits s k (Od.dmaCommand c) 2 → s.nat (Od.dmaState c) = 1 → (s.dma c).drain ≠ .none → Yields (.dmaPause k c) s (s.refuse k .busy))
    ∧ (Admits s k (Od.dmaCommand c) 2 → s.nat (Od.dmaState c) ≠ 1 → Yields (.dmaPause k c) s (s.refuse k .state))
    ∧ (Admits s k (Od.dmaCommand c) 4 → s.nat (Od.dmaState c) = 1 → ∃ u, u = noted s k (Od.dmaCommand c)
      ∧ Yields (.dmaStop k c) s (u.setDma c { u.dma c with drain := .stop }))
    ∧ (Admits s k (Od.dmaCommand c) 4 → s.nat (Od.dmaState c) ≠ 1 → Yields (.dmaStop k c) s (dmaIdle (noted s k (Od.dmaCommand c)) c))
    ∧ (Admits s k (Od.dmaCommand c) 3 → s.nat (Od.dmaState c) = 2 → (s.dma c).ringLost = false →
        s.domUp (domStack (dmaDestStack s c)) = true → s.domUp (domHalf (dmaDestStack s c)) = true → s.domUp (domHalf (dmaSrcHalf s c)) = true →
        (s.nat (Od.sourceKind c) = 6 → s.domUp (domStack (crStack s (s.nat (Od.sourceInstance c)))) = true) →
      Yields (.dmaResume k c) s (((noted s k (Od.dmaCommand c)).setN (Od.dmaState c) 1).setN (Od.dmaCommand c) 3))
    ∧ (Admits s k (Od.dmaCommand c) 3 → s.nat (Od.dmaState c) ≠ 2 → Yields (.dmaResume k c) s (s.refuse k .state)))
  ∧ (∀ (s : State) (c : Nat), (dmaIdle s c).nat (Od.dmaState c) = 0 ∧ (dmaIdle s c).nat (Od.dmaCommand c) = 0 ∧ (dmaIdle s c).dma c = {})
  ∧ (∀ (s : State) (c : Nat), c < 32 →
    ((s.dma c).drain = .none → Yields (.dmaDrainDone c) s s)
    ∧ ((s.dma c).drain = .pause → ∃ t, Yields (.dmaDrainDone c) s t ∧ t.nat (Od.dmaState c) = 2 ∧ t.nat (Od.dmaCommand c) = 0
      ∧ (t.dma c).drain = .none ∧ (t.dma c).buffer = [] ∧ (t.dma c).ring = (s.dma c).ring)
    ∧ ((s.dma c).drain = .stop → ∃ t, Yields (.dmaDrainDone c) s t ∧ t.nat (Od.dmaState c) = 0 ∧ t.nat (Od.dmaCommand c) = 0 ∧ t.dma c = {})
    ∧ (∀ e, (s.dma c).drain = .forced e → ∃ t, Yields (.dmaDrainDone c) s t ∧ t.nat (Od.dmaState c) = 2 ∧ t.nat (Od.lastError c) = e
      ∧ (t.dma c).drain = .none))
  ∧ (∀ (s : State) (c time i k : Nat) (data : Bytes), c < 32 → s.nat (Od.sourceKind c) = k → s.nat (Od.sourceInstance c) = i →
      (s.dma c).ringSize ≠ 0 → dmaOpen s c = true → (s.dma c).ringLost = false → (k = 5 → s.flag (Od.probeEnable i) = true) →
      (k ≠ 5 → s.engineUp i = true ∧ (s.engine i).resetting = false) → (k = 1 → s.flag (Od.monitorEnable i) = true) →
      (k = 2 → (s.dma c).snapLeft ≠ 0) →
    ((s.dma c).ring.length < (s.dma c).ringSize → ∃ t page, Yields (.sourcePageProduced c time data) s t ∧ page.length = 4096
      ∧ (t.dma c).ring = (s.dma c).ring ++ [page] ∧ (t.dma c).dropped = false ∧ (t.dma c).seq = ((s.dma c).seq + 1) % 4294967296)
    ∧ ((s.dma c).ringSize ≤ (s.dma c).ring.length → ∃ t, Yields (.sourcePageProduced c time data) s t ∧ (t.dma c).ring = (s.dma c).ring
      ∧ (t.dma c).dropped = true ∧ t.nat (Od.sourceOverruns c) = (s.bump (Od.sourceOverruns c)).nat (Od.sourceOverruns c)))
  ∧ (∀ (s : State) (kind arg : Nat), ∃ t, Yields (.dmaEventRelease kind arg) s t ∧ t.pages = s.pages ∧ ∀ c, c < 32 →
    (s.nat (Od.dmaState c) = 1 → (s.dma c).drain = .none → s.nat (Od.pacing c) = 1 → s.nat (Od.eventKind c) = kind → s.nat (Od.eventArg c) = arg →
        s.nat (Od.sourceKind c) ≠ 2 →
      t.nat (Od.burstsPending c) = (s.bumpBy (Od.burstsPending c) (s.nat (Od.burstsPerEvent c))).nat (Od.burstsPending c))
    ∧ ((s.nat (Od.dmaState c) ≠ 1 ∨ s.nat (Od.pacing c) ≠ 1 ∨ s.nat (Od.eventKind c) ≠ kind) →
      t.nat (Od.burstsPending c) = s.nat (Od.burstsPending c) ∧ t.dma c = s.dma c))
  ∧ (∀ (s : State) (c errors n : Nat) (cur : Bytes), c < 32 → s.nat (Od.dmaState c) = 1 → (s.dma c).drain = .none →
      n = min (min cur.length (4096 - destNext s c % 4096)) (s.nat (Od.dmaLength c) - (destNext s c - s.nat (Od.destOffset c))) →
    ((s.dma c).cur = cur → cur ≠ [] → ∃ t, Yields (.dmaBurstDone c errors) s t ∧ t.nat (Od.bytesDone c) = s.nat (Od.bytesDone c) + n
      ∧ t.nat (Od.burstsPending c) = s.nat (Od.burstsPending c) ∧ (t.dma c).ring = (s.dma c).ring
      ∧ t.nat (Od.dmaState c) = (if destNext s c + n = s.nat (Od.destOffset c) + s.nat (Od.dmaLength c) ∧ s.nat (Od.dmaDescriptorMode c) = 0
          then 3 else 1))
    ∧ (∀ rest, (s.dma c).cur = [] → s.nat (Od.burstsPending c) ≠ 0 → s.nat (Od.sourceKind c) ≠ 6 → (s.dma c).ring = cur :: rest → cur ≠ [] →
      ∃ t, Yields (.dmaBurstDone c errors) s t ∧ t.nat (Od.bytesDone c) = s.nat (Od.bytesDone c) + n
        ∧ t.nat (Od.burstsPending c) + 1 = s.nat (Od.burstsPending c) ∧ (t.dma c).ring = rest))
  ∧ ∀ (s : State) (c errors : Nat), c < 32 → (s.nat (Od.dmaState c) ≠ 1 ∨ (s.dma c).drain ≠ .none
      ∨ ((s.dma c).cur = [] ∧ s.nat (Od.burstsPending c) = 0)) → Yields (.dmaBurstDone c errors) s s

/-! ### Timing (chapter 15) -/

/-- R444, R449, R450, R452–R458: the 1 s evaluation leaves selected only a qualified entry, and moves the output within ±95 ppm, in `ACQUIRING` by no
more than `FreqSlewLimit`; a lost reference or oscillator disqualifies its entries, and a reference that returns qualifies anew; a generator locks,
times out, or loses its output's source by its events; a better entry is taken when `WaitToRestore` has passed. R450, R456, R460, R466, R468: the
host's commands on a generator: select again, force holdover, release it; opening the loop copies the output offset and closing it acquires again;
steering moves the output while the loop is open; a clear takes the counters to 0. -/
def Obligations.GeneratorsSelectAndObey : Prop :=
  ((∀ (s : State) (g : Nat) (means : List (Nat × Int)) (out : Int), g < 4 →
     ∃ t, Yields (.timingEvaluation g means out) s t ∧ t = timingEvaluate s g means out
       ∧ (t.nat (Od.selectedEntry g) < 16 → qualified t g (t.nat (Od.selectedEntry g)) = true))
   ∧ (∀ (s : State) (g : Nat) (out : Int), s.flag (Od.loopOpen g) = false → s.timeCtl.oscinLost = false → (s.nat (Od.tgState g) = 1 ∨ s.nat (Od.tgState g) = 2) →
     -95000000 ≤ (evalOutput s g out).int (Od.outputOffset g) ∧ (evalOutput s g out).int (Od.outputOffset g) ≤ 95000000
     ∧ (s.nat (Od.tgState g) = 1 → (s.int (Od.outputOffset g)).natAbs ≤ 95000000 →
       ((evalOutput s g out).int (Od.outputOffset g) - s.int (Od.outputOffset g)).natAbs ≤ 10000 * s.nat (Od.freqSlewLimit g)))
   ∧ (∀ (s : State) (g : Nat) (out : Int), (s.flag (Od.loopOpen g) = true ∨ s.timeCtl.oscinLost = true ∨ (s.nat (Od.tgState g) ≠ 1 ∧ s.nat (Od.tgState g) ≠ 2)) →
     evalOutput s g out = s)
   ∧ (∀ (s : State) (x : Nat), x < 4 → ∃ t, Yields (.refActivityLoss x) s t ∧ t.flag (Od.refActive x) = false ∧ t.timeCtl = s.timeCtl
     ∧ ∀ g e, g < 4 → e < 16 → (s.tgEntry g e).rank ≠ 0 → (s.tgEntry g e).cand = 0x2000 + x → t.nat (Od.entryState e g) = 1)
   ∧ (∀ (s : State) (x : Nat), x < 4 → ∃ t, Yields (.refActivityReturn x) s t ∧ t.flag (Od.refActive x) = true ∧ t.sources = s.sources
     ∧ ∀ g e, g < 4 → e < 16 → (s.tgEntry g e).rank ≠ 0 → (s.tgEntry g e).cand = 0x2000 + x → s.nat (Od.entryState e g) = 1 →
       s.nat (Od.disqReason e g) = 1 → t.nat (Od.entryState e g) = 2 ∧ t.nat (Od.disqReason e g) = 0)
   ∧ (∀ s : State, s.timeCtl.oscinLost = false → ∃ t, Yields .oscinLoss s t ∧ t.timeCtl.oscinLost = true
     ∧ t.nat Od.oscinLosses = (s.bump Od.oscinLosses).nat Od.oscinLosses
     ∧ ∀ g e, g < 4 → e < 16 → (s.tgEntry g e).rank ≠ 0 → (s.tgEntry g e).cand = 0x1000 → t.nat (Od.entryState e g) = 1)
   ∧ (∀ s : State, s.timeCtl.oscinLost = true → Yields .oscinLoss s s ∧ Yields .oscinAlarmClear s s)
   ∧ (∀ s : State, Yields .oscinReturn s { s with timeCtl := { s.timeCtl with oscinLost := false } })
   ∧ (∀ s : State, s.timeCtl.oscinLost = false → Yields .oscinAlarmClear s (s.setCond 7 false))
   ∧ (∀ (s : State) (g : Nat), g < 4 →
     (s.nat (Od.tgState g) = 1 → ∃ t, Yields (.generatorLock g) s t ∧ t = tgLocked s g ∧ t.nat (Od.tgState g) = 2
       ∧ t.nat (Od.selectedEntry g) = s.nat (Od.selectedEntry g))
     ∧ (s.nat (Od.tgState g) ≠ 1 → Yields (.generatorLock g) s s ∧ Yields (.generatorLockTimeout g) s s)
     ∧ (s.nat (Od.tgState g) = 1 → s.nat (Od.selectedEntry g) < 16 → ∃ t, Yields (.generatorLockTimeout g) s t
       ∧ t.nat (Od.entryState (s.nat (Od.selectedEntry g)) g) = 1 ∧ t.nat (Od.disqReason (s.nat (Od.selectedEntry g)) g) = 5)
     ∧ (s.nat (Od.tgState g) = 3 → s.flag (Od.loopOpen g) = false → ∃ t, Yields (.holdoverLimit g) s t ∧ t = tgLost s g
       ∧ t.nat (Od.tgState g) = 4 ∧ t.int (Od.outputOffset g) = s.int (Od.outputOffset g))
     ∧ ((s.nat (Od.tgState g) ≠ 3 ∨ s.flag (Od.loopOpen g) = true) → Yields (.holdoverLimit g) s s)
     ∧ (∀ b, s.flag (Od.timingGeneratorRevertive g) = true → (s.tg g).forced = false → s.nat (Od.selectedEntry g) < 16 →
         bestRank s g < (s.tgEntry g (s.nat (Od.selectedEntry g))).rank → bestEntry s g = some b →
       ∃ t, Yields (.tgWaitToRestore g) s t ∧ t = tgSelect s g b 1 ∧ t.nat (Od.selectedEntry g) = b ∧ t.nat (Od.lastSwitchCause g) = 1)
     ∧ ((s.flag (Od.timingGeneratorRevertive g) = false ∨ (s.tg g).forced = true) → Yields (.tgWaitToRestore g) s s)))
  ∧ ((∀ (s : State) (k g : Nat), Admits s k (Od.tgCommand g) 1 →
     ((s.tg g).forced = true → Yields (.tgReselect k g) s (noted s k (Od.tgCommand g)))
     ∧ (∀ b, (s.tg g).forced = false → 16 ≤ s.nat (Od.selectedEntry g) → bestEntry s g = some b →
       Yields (.tgReselect k g) s (tgSelect (noted s k (Od.tgCommand g)) g b 5))
     ∧ (∀ b, (s.tg g).forced = false → bestRank s g < (s.tgEntry g (s.nat (Od.selectedEntry g))).rank → bestEntry s g = some b →
       Yields (.tgReselect k g) s (tgSelect (noted s k (Od.tgCommand g)) g b 5))
     ∧ (s.nat (Od.selectedEntry g) < 16 → qualified s g (s.nat (Od.selectedEntry g)) = true →
         (s.tgEntry g (s.nat (Od.selectedEntry g))).rank = bestRank s g → Yields (.tgReselect k g) s (noted s k (Od.tgCommand g))))
   ∧ (∀ (s : State) (g e cause : Nat), (tgSelect s g e cause).nat (Od.selectedEntry g) = e ∧ (tgSelect s g e cause).nat (Od.lastSwitchCause g) = cause
     ∧ (s.flag (Od.loopOpen g) = false → (tgSelect s g e cause).nat (Od.tgState g) = 1))
   ∧ (∀ (s : State) (g : Nat), (s.tg g).forced = false → ∀ e, bestEntry s g = some e → tgRunSelection s g = tgSelect s g e (s.tg g).cause)
   ∧ (∀ (s : State) (k g : Nat), Admits s k (Od.tgCommand g) 2 → ∃ t, Yields (.tgForceHoldover k g) s t
     ∧ t.nat (Od.selectedEntry g) = 255 ∧ (t.tg g).forced = true
     ∧ (s.flag (Od.loopOpen g) = false → s.nat (Od.tgState g) ≠ 0 → t.nat (Od.tgState g) = if (s.tg g).valid then 3 else 4)
     ∧ (s.flag (Od.loopOpen g) = false → s.nat (Od.tgState g) = 0 → t.nat (Od.tgState g) = 4))
   ∧ (∀ (s : State) (k g : Nat), Admits s k (Od.tgCommand g) 3 →
     ((s.tg g).forced = true → ∃ u, u = noted s k (Od.tgCommand g)
       ∧ Yields (.tgReleaseHoldover k g) s (tgRunSelection (u.setTg g { u.tg g with forced := false, cause := 5 }) g))
     ∧ ((s.tg g).forced = false → Yields (.tgReleaseHoldover k g) s (noted s k (Od.tgCommand g))))
   ∧ (∀ (s : State) (k g code : Nat) (isOpen : Bool), Allows s k (Od.loopOpen g) code (.u (if isOpen then 1 else 0)) →
     Yields (.loopOpenWrite k g isOpen) s
       (commissioningEnds s (loopWritten s (wrote s k (Od.loopOpen g) (.u (if isOpen then 1 else 0))) g) k))
   ∧ (∀ (o s : State) (g : Nat),
     (o.flag (Od.loopOpen g) = false → s.flag (Od.loopOpen g) = true → (loopWritten o s g).nat (Od.tgState g) = 3
       ∧ (loopWritten o s g).int (Od.steerOffset g) = s.int (Od.outputOffset g))
     ∧ (o.flag (Od.loopOpen g) = true → s.flag (Od.loopOpen g) = false → s.nat (Od.selectedEntry g) < 16 →
         qualified s g (s.nat (Od.selectedEntry g)) = true → (loopWritten o s g).nat (Od.tgState g) = 1
         ∧ (loopWritten o s g).nat (Od.lastSwitchCause g) = 6)
     ∧ (o.flag (Od.loopOpen g) = s.flag (Od.loopOpen g) → loopWritten o s g = s))
   ∧ (∀ (s : State) (k g code : Nat) (offset : Int), -2 ^ 31 ≤ offset → offset < 2 ^ 31 → Allows s k (Od.steerOffset g) code (.i offset) →
     Yields (.steerOffsetWrite k g offset) s (commissioningEnds s (steerWritten (wrote s k (Od.steerOffset g) (.i offset)) g) k))
   ∧ (∀ (s : State) (g : Nat), (s.flag (Od.loopOpen g) = true → (steerWritten s g).int (Od.outputOffset g) = tgBound (s.int (Od.steerOffset g)))
     ∧ (s.flag (Od.loopOpen g) = false → steerWritten s g = s))
   ∧ ∀ (s : State) (k : Nat), Admits s k Od.clearTimingCounters 1 →
     ∃ t, Yields (.clearTimingCounters k) s t ∧ t.nat Od.oscinLosses = 0 ∧ t.nat Od.timeSteps = 0
       ∧ (∀ g, g < 4 → t.nat (Od.tgStatusSwitches g) = 0 ∧ t.nat (Od.holdoverEntries g) = 0 ∧ t.nat (Od.tgState g) = s.nat (Od.tgState g))
       ∧ t.tgs = s.tgs ∧ t.timeCtl = s.timeCtl)

/-- R461–R466: a step is refused while a carrier is in hub mode or a group commit runs, and at its tick sets module time to `TimeSet` exactly; a slew
replaces the one before, and what is left of it is applied when it ends; a PPS edge measures its error and starts the correction of one beyond 100 ns;
a frame-pulse output starts at its next target edge and is aligned by command. -/
def Obligations.ModuleTimeStepsAndSlews : Prop :=
  (∀ (s : State) (k : Nat), Admits s k Od.timeCommand 1 →
    (anyHub s = true → Yields (.timeStep k) s (s.refuse k .state))
    ∧ (anyHub s = false → s.nat Od.groupState ≠ 0 → Yields (.timeStep k) s (s.refuse k .shadowBusy))
    ∧ (anyHub s = false → s.nat Od.groupState = 0 → s.nat Od.timeCommand ≠ 0 → Yields (.timeStep k) s (s.refuse k .busy))
    ∧ (anyHub s = false → s.nat Od.groupState = 0 → s.nat Od.timeCommand = 0 → ∃ t, Yields (.timeStep k) s t
      ∧ t.timeCtl = { s.timeCtl with stepping := true } ∧ t.nat Od.timeCommand = 1 ∧ t.moduleTime = s.moduleTime))
  ∧ (∀ s : State, s.timeCtl.stepping = true → ∃ t, Yields .timeStepApply s t ∧ t.moduleTime = unstamp (s.bytes Od.timeSet)
    ∧ t.timeCtl.frac = 0 ∧ t.timeCtl.stepping = false ∧ t.nat Od.timeCommand = 0
    ∧ t.nat Od.timeSteps = (s.bump Od.timeSteps).nat Od.timeSteps ∧ t.uptime = s.uptime)
  ∧ (∀ s : State, s.timeCtl.stepping = false → Yields .timeStepApply s s)
  ∧ (∀ (s : State) (k : Nat), Admits s k Od.timeCommand 2 →
    (s.timeCtl.stepping = true → Yields (.timeSlew k) s (s.refuse k .busy))
    ∧ (s.timeCtl.stepping = false → Yields (.timeSlew k) s ((startSlew (noted s k Od.timeCommand) (s.int Od.timeAdjust)).setN Od.timeCommand
      (if s.int Od.timeAdjust = 0 then 0 else 2))))
  ∧ (∀ (s : State) (ns : Int), (startSlew s ns).timeCtl.slewLeft = ns * 1000000000 ∧ (startSlew s ns).moduleTime = s.moduleTime
    ∧ (startSlew s ns).od = s.od)
  ∧ (∀ (s : State) (k : Nat), Admits s k Od.timeCommand 3 →
    (s.timeCtl.stepping = true → Yields (.timeSlewCancel k) s (s.refuse k .busy))
    ∧ (s.timeCtl.stepping = false → ∃ t, Yields (.timeSlewCancel k) s t ∧ t.nat Od.timeCommand = 0 ∧ t.moduleTime = s.moduleTime
      ∧ t.timeCtl.slewLeft = (if s.timeCtl.ppsWaiting then -s.int Od.ppsError * 1000000000 else 0) ∧ t.timeCtl.ppsWaiting = false))
  ∧ (∀ s : State, s.timeCtl.slewLeft = 0 → Yields .slewDone s s)
  ∧ (∀ s : State, s.timeCtl.slewLeft ≠ 0 → 0 ≤ (s.moduleTime : Int) * 1000000000 + s.timeCtl.frac + s.timeCtl.slewLeft → ∃ t, Yields .slewDone s t
    ∧ (t.moduleTime : Int) * 1000000000 + t.timeCtl.frac = (s.moduleTime : Int) * 1000000000 + s.timeCtl.frac + s.timeCtl.slewLeft
    ∧ t.timeCtl.slewLeft = (if s.timeCtl.ppsWaiting then -s.int Od.ppsError * 1000000000 else 0) ∧ t.timeCtl.ppsWaiting = false
    ∧ t.nat Od.timeCommand = 0)
  ∧ (∀ (s : State) (e time : Nat) (err : Int), s.nat (Od.selectedEntry 0) = e →
      err = (time : Int) - ((time + 500000000) / 1000000000 * 1000000000 : Nat) - s.int Od.ppsOffset →
    ((s.flag Od.ppsAlign = false ∨ s.nat (Od.tgState 0) ≠ 2 ∨ 16 ≤ e ∨ (s.tgEntry 0 e).cand / 4096 ≠ 2) → Yields (.ppsEdge time) s s)
    ∧ (s.flag Od.ppsAlign = true → s.nat (Od.tgState 0) = 2 → e < 16 → (s.tgEntry 0 e).cand / 4096 = 2 →
        s.nat (Od.refNominal ((s.tgEntry 0 e).cand % 4096)) = 1 →
      (err.natAbs ≤ 100 → Yields (.ppsEdge time) s (s.setI Od.ppsError err))
      ∧ (100 < err.natAbs → s.timeCtl.slewLeft = 0 → Yields (.ppsEdge time) s (startSlew (s.setI Od.ppsError err) (-err)))
      ∧ (100 < err.natAbs → s.timeCtl.slewLeft ≠ 0 → s.nat Od.timeCommand ≠ 2 → Yields (.ppsEdge time) s (s.setI Od.ppsError err))
      ∧ (100 < err.natAbs → s.timeCtl.slewLeft ≠ 0 → s.nat Od.timeCommand = 2 → ∃ t, Yields (.ppsEdge time) s t ∧ t.timeCtl = { s.timeCtl with ppsWaiting := true }
        ∧ t.int Od.ppsError = err)))
  ∧ (∀ (s : State) (k f code : Nat) (enable : Bool), Allows s k (Od.fpoEnable f) code (.u (if enable then 1 else 0)) →
    Yields (.fpoEnableWrite k f enable) s
      (commissioningEnds s (fpoEnabled s (wrote s k (Od.fpoEnable f) (.u (if enable then 1 else 0))) f) k))
  ∧ (∀ (o s : State) (f : Nat),
    (s.flag (Od.fpoEnable f) = true → o.flag (Od.fpoEnable f) = false → (fpoEnabled o s f).fpo f =
      { period := s.nat (Od.fpoPeriod f), err := 0, firstAt := (fpoNextTarget s f).toNat })
    ∧ (s.flag (Od.fpoEnable f) = false → (fpoEnabled o s f).fpo f = {} ∧ (fpoEnabled o s f).nat (Od.fpoCommand f) = 0
      ∧ fpoLevel (fpoEnabled o s f) f = false))
  ∧ ∀ (s : State) (k f : Nat), Admits s k (Od.fpoCommand f) 1 →
    (s.nat (Od.fpoCommand f) ≠ 0 → Yields (.fpoAlign k f) s (s.refuse k .busy))
    ∧ (s.nat (Od.fpoCommand f) = 0 → s.flag (Od.fpoEnable f) = false → Yields (.fpoAlign k f) s (noted s k (Od.fpoCommand f)))
    ∧ (s.nat (Od.fpoCommand f) = 0 → s.flag (Od.fpoEnable f) = true → ∃ t, Yields (.fpoAlign k f) s t
      ∧ (t.fpo f).jumpAt = some (fpoNextTarget s f).toNat ∧ t.nat (Od.fpoCommand f) = 1)

/-! ### Measurement (chapter 16, and the crossings of chapter 01) -/

/-- R40, R475–R478: a 1 s boundary latches every counter's interval and counts the interval; an occupancy sample counts each occupancy counter at or
above its threshold, unless the counters are frozen; a snapshot runs until its copy; freeze, unfreeze and deselect take effect at once; a written
counter restarts at 0; the high-water marks and crossing counters are cleared as commanded. -/
def Obligations.CountersLatchAtTheBoundary : Prop :=
  (∀ (s : State) (corrected : Nat) (latencies : List (Nat × Nat)) (clients : List (Nat × PcsCount)),
      (s.pins.aux3v3 = false ∨ s.boot.resetting = .full) →
    Yields (.pmBoundary corrected latencies clients) s s)
  ∧ (∀ (s : State) (corrected : Nat) (latencies : List (Nat × Nat)) (clients : List (Nat × PcsCount)), s.pins.aux3v3 = true →
      s.boot.resetting ≠ .full →
    ∃ t, Yields (.pmBoundary corrected latencies clients) s t ∧ t.nat Od.intervalNumber = (s.bump Od.intervalNumber).nat Od.intervalNumber
      ∧ (∀ c, t.nat (Od.counterInterval c) = s.nat (Od.counterCurrent c)) ∧ t.moduleTime = s.moduleTime ∧ t.pages = s.pages
      ∧ (s.boot.railsOn = true → t.nat Od.correctedWords = (s.bumpBy Od.correctedWords corrected).nat Od.correctedWords))
  ∧ (∀ (s : State) (levels : List (Nat × Nat)) (slips : List (Nat × Bool)) (lanes : List (Nat × LaneReport)), Tidy s → s.countingHeld = false →
    ∃ t, Yields (.occupancySample levels slips lanes) s t ∧ t.sources = s.sources ∧ ∀ c,
      t.nat (Od.counterCurrent c) = (if 0x80 ≤ s.nat (Od.eventSelect c) / 256 % 256
          ∧ s.nat (Od.counterThreshold c) ≤ levelOf s levels (s.nat (Od.eventSelect c))
        then min (s.nat (Od.counterCurrent c) + 1) 281474976710655 else s.nat (Od.counterCurrent c)))
  ∧ (∀ (s : State) (levels : List (Nat × Nat)) (slips : List (Nat × Bool)) (lanes : List (Nat × LaneReport)), s.countingHeld = true →
    ∃ t, Yields (.occupancySample levels slips lanes) s t ∧ ∀ c, t.nat (Od.counterCurrent c) = s.nat (Od.counterCurrent c))
  ∧ (∀ (s : State) (k : Nat), Admits s k Od.counterCommand 1 →
    (s.nat Od.counterCommand ≠ 0 → Yields (.counterSnapshot k) s (s.refuse k .busy))
    ∧ (s.nat Od.counterCommand = 0 → ∃ t, Yields (.counterSnapshot k) s t ∧ t.perf.snapAt = some ((s.moduleTime / 1000 + 1) * 1000)
      ∧ t.nat Od.counterCommand = 1 ∧ t.bytes Od.snapshotTime = stamp ((s.moduleTime / 1000 + 1) * 1000)))
  ∧ (∀ s : State, (s.nat Od.counterCommand = 1 → Yields .snapshotCopyDone s ((takeSnapshot s).setN Od.counterCommand 0))
    ∧ (s.nat Od.counterCommand ≠ 1 → Yields .snapshotCopyDone s s)
    ∧ (∀ a c, s.perf.snapAt = some a → (takeSnapshot s).perf.snapAt = none
      ∧ (takeSnapshot s).nat (Od.counterCurrent c) = s.nat (Od.counterCurrent c)
      ∧ (s.nat (Od.counterCurrent c) ≠ 0 → (takeSnapshot s).nat (Od.counterSnapshot c) = s.nat (Od.counterCurrent c))))
  ∧ (∀ (s : State) (k : Nat), s.nat Od.counterCommand = 0 →
    (Admits s k Od.counterCommand 2 → ∃ t, Yields (.counterFreeze k) s t ∧ t.flag Od.countersFrozen = true
      ∧ (s.flag Od.countersFrozen = false → t.perf.frozenFrom = (s.moduleTime / 1000 + 1) * 1000)
      ∧ ∀ c, t.nat (Od.counterCurrent c) = s.nat (Od.counterCurrent c))
    ∧ (Admits s k Od.counterCommand 3 → ∃ t, Yields (.counterUnfreeze k) s t ∧ t.flag Od.countersFrozen = false
      ∧ ∀ c, t.nat (Od.counterCurrent c) = s.nat (Od.counterCurrent c))
    ∧ (Admits s k Od.counterCommand 4 → ∃ t, Yields (.counterDeselectAll k) s t
      ∧ ∀ c, t.nat (Od.eventSelect c) = 0 ∧ (s.nat (Od.eventSelect c) ≠ 0 → t.nat (Od.counterCurrent c) = 0)))
  ∧ (∀ (s : State) (k c sel code : Nat), sel < 2 ^ 32 → Allows s k (Od.eventSelect c) code (.u sel) →
    Yields (.perfCounterSelect k c (some sel) none) s (commissioningEnds s (counterRestart (wrote s k (Od.eventSelect c) (.u sel)) c) k))
  ∧ (∀ (s : State) (k c threshold code : Nat), threshold < 2 ^ 32 → Allows s k (Od.counterThreshold c) code (.u threshold) →
    Yields (.perfCounterSelect k c none (some threshold)) s
      (commissioningEnds s (counterRestart (wrote s k (Od.counterThreshold c) (.u threshold)) c) k))
  ∧ (∀ (s u : State) (k c sel threshold : Nat), s.answers k = true → writeGate s k 0x7200 c 1 sel = .ok → writeGate s k 0x7200 c 2 threshold = .ok →
      eventSelectOk sel = true → sel < 2 ^ 32 → threshold < 2 ^ 32 →
      u = (s.setVal (Od.eventSelect c) (.u sel)).setVal (Od.counterThreshold c) (.u threshold) →
    Yields (.perfCounterSelect k c (some sel) (some threshold)) s (commissioningEnds s
      (counterRestart ((counterRestart (u.journalBy k 1 0x7200 c 1) c).journalBy k 1 0x7200 c 2) c) k))
  ∧ (∀ (s : State) (c : Nat), (counterRestart s c).nat (Od.counterCurrent c) = 0 ∧ (counterRestart s c).nat (Od.eventSelect c) = s.nat (Od.eventSelect c)
    ∧ (counterRestart s c).nat (Od.counterThreshold c) = s.nat (Od.counterThreshold c))
  ∧ (∀ (s : State) (k c : Nat), Yields (.perfCounterSelect k c none none) s s)
  ∧ ∀ (s : State) (k : Nat),
    (Admits s k Od.clearCrossingMarks 1 → ∃ t, Yields (.clearHighWater k) s t ∧ ∀ key, (isCrossingMark key = true → t.val key = odDefault key)
      ∧ (isCrossingMark key = false → t.val key = s.val key))
    ∧ (Admits s k Od.clearCrossingMarks 2 → ∃ t, Yields (.clearCrossingCounters k) s t ∧ ∀ key, (isCrossingCounter key = true →
      t.val key = odDefault key) ∧ (isCrossingCounter key = false → t.val key = s.val key))
    ∧ (Admits s k Od.clearCrossingMarks 3 → ∃ t, Yields (.clearCrossingAll k) s t ∧ ∀ key,
      (isCrossingMark key = true → t.val key = odDefault key) ∧ (isCrossingCounter key = true → t.val key = odDefault key)
      ∧ (isCrossingMark key = false → isCrossingCounter key = false → t.val key = s.val key))

/-- R469–R474, R479–R485: a conversion's code stands in its entry and the sequence goes on; an urgent conversion runs and ends; a window's rate
follows from its bits; the Probe samples, ends an event into its log of 256 entries, and clears. -/
def Obligations.ConvertersAndProbeRecord : Prop :=
  (∀ (s : State) (m code ch w gain : Nat), m < 9 →
      ((s.flag (Od.suspended m) = false ∧ (s.monitor m).urgent = none) ∨ (s.monitor m).finishing = true) →
      (s.monitor m).pass[(s.monitor m).pos]? = some (ch, w, gain) →
    ∃ t, Yields (.monitorConversionDone m code) s t ∧ t.nat (Od.lastCode (16 * m + (s.monitor m).pos)) = code % 4096
      ∧ t.f32 (Od.lastValue (16 * m + (s.monitor m).pos)) = channelValue ch (code % 4096) gain
      ∧ ((s.monitor m).pos + 1 < (s.monitor m).pass.length → (t.monitor m).pos = (s.monitor m).pos + 1)
      ∧ ((s.monitor m).pass.length ≤ (s.monitor m).pos + 1 → (t.monitor m).pos = 0 ∧ (t.monitor m).pass = sequenceNow s m
        ∧ t.nat (Od.passes m) = (s.bump (Od.passes m)).nat (Od.passes m)))
  ∧ (∀ (s : State) (m code : Nat), m < 9 →
      (((s.flag (Od.suspended m) = true ∨ (s.monitor m).urgent ≠ none) ∧ (s.monitor m).finishing = false) ∨ (s.monitor m).pass = []) →
    Yields (.monitorConversionDone m code) s s)
  ∧ (∀ (s : State) (k m : Nat), Admits s k (Od.urgentCommand m) 1 →
    (s.nat (Od.urgentCommand m) ≠ 0 → Yields (.urgentConversion k m) s (s.refuse k .busy))
    ∧ (s.nat (Od.urgentCommand m) = 0 → s.flag (Od.suspended m) = true → Yields (.urgentConversion k m) s (s.refuse k .state))
    ∧ (s.nat (Od.urgentCommand m) = 0 → s.flag (Od.suspended m) = false → (m < 8 → s.domUp (domPort m) = true) →
      ∃ t, Yields (.urgentConversion k m) s t ∧ t.nat (Od.urgentCommand m) = 1
        ∧ (t.monitor m).urgent = some (s.nat (Od.urgentChannel m), s.nat (Od.urgentSampleTime m), s.nat (Od.urgentGain m))
        ∧ (t.monitor m).pos = (s.monitor m).pos))
  ∧ (∀ (s : State) (m code : Nat), m < 9 → ((s.monitor m).urgent = none → Yields (.urgentConversionDone m code) s s)
    ∧ (∀ ch w gain, (s.monitor m).urgent = some (ch, w, gain) → ∃ t, Yields (.urgentConversionDone m code) s t
      ∧ t.nat (Od.urgentCode m) = code % 4096 ∧ t.f32 (Od.urgentValue m) = channelValue ch (code % 4096) gain
      ∧ t.nat (Od.urgentCommand m) = 0 ∧ (t.monitor m).urgent = none ∧ (t.monitor m).pos = (s.monitor m).pos))
  ∧ (∀ (s : State) (k : Nat), Admits s k Od.clearMonitorPeaks 1 → ∃ t, Yields (.clearMonitorPeaks k) s t
    ∧ (∀ m, m < 9 → t.nat (Od.passes m) = 0 ∧ (t.monitor m).seen = [] ∧ (t.monitor m).pos = (s.monitor m).pos)
    ∧ ∀ i, t.nat (Od.lastCode i) = s.nat (Od.lastCode i))
  ∧ (∀ (s : State) (w : Nat), w < 64 → ∃ t, Yields (.bandwidthWindowEnd w) s t
    ∧ t.f32 (Od.rateNow w) = rateOf (s.window w).acc (s.nat (Od.windowMillis w)) ∧ (t.window w).acc = 0
    ∧ (t.window w).interval = (s.window w).interval ∧ ∀ v, v ≠ w → t.window v = s.window v)
  ∧ (∀ (s : State) (p : Nat) (residuals : List (Nat × Int)), p < 8 → ∃ t, Yields (.probeSample p residuals) s t
    ∧ t.nat (Od.probeMembers p) = probeMembers s p ∧ t.engines = s.engines ∧ t.pages = s.pages)
  ∧ (∀ (s : State) (p : Nat), p < 8 →
    ((s.probe p).event = none → Yields (.probeEventEnd p) s s)
    ∧ (probeInjected s p = true → Yields (.probeEventEnd p) s s)
    ∧ ((s.probe p).event ≠ none → probeInjected s p = false → ∃ t, Yields (.probeEventEnd p) s t ∧ (t.probe p).event = none ∧ t.flag (Od.eventActive p) = false
      ∧ (t.probe p).log.length = min ((s.probe p).log.length + 1) 256)
    ∧ Yields (.fibreDisturbanceClear p) s (s.setCond (srcPort p 1) false))
  ∧ ∀ (s : State) (k : Nat), Admits s k Od.clearProbe 1 → ∃ t, Yields (.clearProbe k) s t
    ∧ (∀ p, p < 8 → (t.probe p).log = [] ∧ (t.probe p).event = (s.probe p).event ∧ t.nat (Od.eventsTotal p) = 0) ∧ t.sources = s.sources

/-! ### Temperature, power domains, calibration and engine resets (chapters 02, 03 and 17) -/

/-- R64, R66, R67, R69: the 1 ms sample takes its readings; with a cause that outlasts `GraceTime` shedding begins, `ShedInterval` lets the next
carrier follow, and `ExitHold` without a cause returns the module from `SAFE`. R41, R90, R499–R503: an accepted power-down starts (R500) or waits for
an engine reset to end, an accepted power-up starts; a request for the state that the domain is in changes nothing; one that another domain stands
against is refused; the ends leave the domain down or up. -/
def Obligations.ThermalPolicyAndDomainsMovePower : Prop :=
  ((∀ (s : State) (r : ThermalReading), s.pins.aux3v3 = true → s.boot.resetting ≠ .full → s.boot.railsOn = false →
       s.boot.st = .standby →
     ∃ t, Yields (.thermalSample r) s t ∧ t.f32 (Od.junctionNow 22) = highestJunction 22 (r.junctions.getD 22 []) ∧ t.f32 (Od.junctionNow 0) = 0
       ∧ t.f32 Od.vinWatts = 0 ∧ t.boot.railsOn = false ∧ t.boot.st = .standby)
   ∧ (∀ s : State, safeCausesNow s ≠ 0 → s.boot.railsOn = true → s.thermal.shedding = false →
     ∃ t, Yields .graceTimeExpired s t ∧ t.thermal.shedding = true ∧ 1 < t.thermal.shedPos)
   ∧ (∀ s : State, safeCausesNow s ≠ 0 → s.boot.railsOn = true → s.thermal.shedding = true → 64 < s.thermal.shedPos →
       s.boot.st ≠ .calibrate → Yields .shedIntervalExpired s { s with thermal := { s.thermal with shedPos := 65 } })
   ∧ (∀ (s : State) (n : Nat), safeCausesNow s ≠ 0 → s.boot.railsOn = true → s.thermal.shedding = true → 1 ≤ s.thermal.shedPos →
       s.thermal.shedPos ≤ 64 → s.nat (Od.shedEntry (s.thermal.shedPos - 1)) = n → n < 64 → s.nat (Od.powerState n) = 2 →
       (s.domain n).waiting = false → s.boot.st ≠ .calibrate →
     ∃ t, Yields .shedIntervalExpired s t ∧ t.nat (Od.powerState n) = 3 ∧ (t.engine n).shed = true
       ∧ t.thermal.shedPos = s.thermal.shedPos + 1)
   ∧ (∀ s : State, s.boot.st = .safe → safeCausesNow s = 0 →
     ∃ t, Yields .exitHoldExpired s t ∧ (t.boot.st = .traffic ∨ (t.boot.st = .ready ∧ (List.range 64).any (inService s) = false)))
   ∧ (∀ (s : State) (k : Nat), Admits s k Od.clearThermalPeaks 1 →
     ∃ t, Yields (.clearThermalPeaks k) s t ∧ t.f32 Od.vinPeakWatts = 0 ∧ t.f32 Od.casePeak = 0 ∧ t.nat Od.safeEntries = 0
       ∧ (∀ d, d < 27 → t.f32 (Od.junctionPeak d) = 0 ∧ t.f32 (Od.peakWatts d) = 0)
       ∧ t.f32 Od.caseNow = s.f32 Od.caseNow ∧ ∀ d, d < 27 → t.f32 (Od.junctionNow d) = s.f32 (Od.junctionNow d)))
  ∧ ((∀ (s : State) (k d : Nat), Admits s k (Od.powerCommand d) 1 → s.running = true →
     (s.nat (Od.powerState d) = 2 → (s.domain d).waiting = false → downRefused s d = false →
       (d < 64 ∧ (s.engine d).resetting = true → Yields (.powerDown k d) s
         (((noted s k (Od.powerCommand d)).setN (Od.powerCommand d) 1).setDomain d { s.domain d with waiting := true }))
       ∧ (¬ (d < 64 ∧ (s.engine d).resetting = true) → Yields (.powerDown k d) s
         (powerDownStart ((noted s k (Od.powerCommand d)).setN (Od.powerCommand d) 1) d false)))
     ∧ (s.nat (Od.powerState d) = 2 → (s.domain d).waiting = false → downRefused s d = true →
       Yields (.powerDown k d) s (s.refuse k .state))
     ∧ (s.nat (Od.powerState d) = 0 → Yields (.powerDown k d) s (noted s k (Od.powerCommand d))))
   ∧ (∀ (s : State) (k d : Nat), Admits s k (Od.powerCommand d) 1 → s.running = false →
     Yields (.powerDown k d) s (s.refuse k .state))
   ∧ (∀ (s : State) (k d : Nat), Admits s k (Od.powerCommand d) 2 → s.running = true → s.boot.st ≠ .safe →
       s.nat (Od.powerState d) = 0 → (∀ r, requiredDomain d = some r → s.domUp r = true) →
     Yields (.powerUp k d) s ((((noted s k (Od.powerCommand d)).setN (Od.powerCommand d) 2).setN (Od.powerState d) 1).setDomain d
       { changeAt := s.uptime }))
   ∧ (∀ (s : State) (k d r : Nat), Admits s k (Od.powerCommand d) 2 → s.nat (Od.powerState d) = 0 → requiredDomain d = some r →
       s.domUp r = false → Yields (.powerUp k d) s (s.refuse k .state))
   ∧ (∀ (s : State) (k d : Nat), Admits s k (Od.powerCommand d) 2 → s.boot.st = .safe → Yields (.powerUp k d) s (s.refuse k .state))
   ∧ (∀ (s : State) (d : Nat), d < 112 → s.nat (Od.powerState d) = 3 → Yields (.powerDownDone d) s
       (domainSourcesEnd (domainDown (((((dmaPoweredDown s d).setN (Od.powerState d) 0).setN (Od.lastPowerMicros d)
         (min (s.uptime - (s.domain d).changeAt) 4294967295)).setN (Od.powerCommand d) 0).setDomain d {}) d) d))
   ∧ (∀ (s : State) (d : Nat), d < 112 → s.nat (Od.powerState d) = 1 → s.running = true →
     Yields (.powerUpDone d) s (domainUp s d false))
   ∧ (∀ (s : State) (d : Nat), d < 112 → s.nat (Od.powerState d) = 3 →
     ∃ t, Yields (.powerDownDone d) s t ∧ t.nat (Od.powerState d) = 0 ∧ t.nat (Od.powerCommand d) = 0)
   ∧ ∀ (s : State) (d : Nat) (shed : Bool), d < 112 → (domainUp s d false).nat (Od.powerState d) = 2 ∧ (domainUp s d false).nat (Od.powerCommand d) = 0
       ∧ (powerDownStart s d shed).nat (Od.powerState d) = 3)

/-! ### Fault sources, acknowledgement and injection (chapter 17) -/

/-- R490, R492, R493: an occurrence of a source that is `CLEAR` makes it `RAISED` (`NOTIFIED` once a path has delivered it) with one entry, unless
4,032 non-critical entries fill the queue; one of an open source adds no entry; a condition's end leaves an open source open. R144, R146: an
occurrence of a leaf's first source or of a tray's source 6 sets the hold bit that the status RAM gives it, and sets no other; an occurrence of any
other source sets none. -/
def Obligations.SourcesOccurAndHold : Prop :=
  ((∀ (s : State) (key unit : Nat), srcExists key = true → s.pins.aux3v3 = true → srcDown s key = false → key ≠ 0x12 →
     Yields (.sourceOccurrence key unit) s (condJudge (occurHold
       (s.occur key (if 0xD ≤ key ∧ key ≤ 0x10 then unit else srcUnit key) false) key) key))
   ∧ (∀ (s : State) (key : Nat), srcExists key = true → Yields (.conditionEnd key) s (condJudge (s.setCond key false) key))
   ∧ (∀ (s : State) (key : Nat), ((0x1000 ≤ key ∧ key < 0x2000) ∨ 0xA000 ≤ key) → condJudge s key = s)
   ∧ (∀ (s : State) (key unit : Nat), srcExists key = false →
     exec (.sourceOccurrence key unit) s = .fault .noSuchUnit ∧ exec (.conditionEnd key) s = .fault .noSuchUnit)
   ∧ (∀ (s : State) (key unit : Nat) (inj : Bool), key ≠ 0 → (s.source key).st = 0 → (s.source key).present = false →
       (srcCritical key = true ∨ s.entriesOf false < 4032) →
     (((s.occur key unit inj).source key).st = 1 ∨ ((s.occur key unit inj).source key).st = 2)
       ∧ ((s.occur key unit inj).source key).entry.isSome = true
       ∧ ((s.occur key unit inj).source key).occurrences = min ((s.source key).occurrences + 1) 4294967295
       ∧ (s.occur key unit inj).nat Od.nextEntrySeq = s.nat Od.nextEntrySeq + 1)
   ∧ (∀ (s : State) (key unit : Nat) (inj : Bool), (s.source key).st = 1 ∨ (s.source key).st = 2 → srcMomentary key = true →
     ((s.occur key unit inj).source key).st = (s.source key).st
       ∧ ((s.occur key unit inj).source key).occurrences = min ((s.source key).occurrences + 1) 4294967295
       ∧ ((s.occur key unit inj).source key).entry.isSome = (s.source key).entry.isSome
       ∧ (s.occur key unit inj).od = s.od ∧ (s.occur key unit inj).outbox = s.outbox)
   ∧ ∀ (s : State) (key : Nat) (inj : Bool), (s.source key).st ≠ 3 → ((s.endCond key inj).source key).st = (s.source key).st)
  ∧ (∀ (s : State) (key addr bit : Nat), bit < 8 →
     (occurHold s key).held addr bit = (s.held addr bit
       || (decide (0x10000 ≤ key ∧ (key - 0x10000) % 4 = 0) && decide (addr = fsHub (s.ctx (srcUnit key)).home ∧ bit = 2))
       || (decide (0x2000 ≤ key ∧ key < 0x10000 ∧ (key - 0x2000) % 16 = 6) && decide (addr = fsTray (srcUnit key) ∧ bit = 3))))

/-- R492, R495: acknowledging an open source whose condition holds makes it `ACKED` and keeps its entry; any other open source returns to `CLEAR`; a
source that is not open stays as it is. An `AckSource` that no source has answers `RANGE`. R496–R498: an accepted start makes the first occurrence at
once; a stop releases the condition and idles the injector, and leaves one that does not run as it is; `InjectDuration` ends a held condition;
`InjectGap` brings the next occurrence; a running injector, and a source that another one drives, answer `BUSY`. -/
def Obligations.SourcesAreAckedAndInjected : Prop :=
  ((∀ (s : State) (k : Nat), Admits s k Od.eventCommand 1 →
     (srcAssigned (s.nat Od.ackSource) = true → s.nat Od.ackSource ≠ 0xFFFE →
       Yields (.eventAckSource k) s ((noted s k Od.eventCommand).ack k (s.nat Od.ackSource)))
     ∧ (srcAssigned (s.nat Od.ackSource) = false → s.nat Od.ackSource ≠ 0xFFFE → Yields (.eventAckSource k) s (s.refuse k .range))
     ∧ (s.nat Od.ackSource = 0xFFFE → Yields (.eventAckSource k) s
       ((List.range 4).foldl (fun t i => t.ack k (srcLeaf (t.nat Od.ackUnit) i)) (noted s k Od.eventCommand))))
   ∧ (∀ (s : State) (k : Nat), Admits s k Od.eventCommand 2 → Yields (.eventAckAll k) s
       ((s.sources.map (·.1)).foldl (fun t x => t.ack k x) (noted s k Od.eventCommand)))
   ∧ (∀ (s : State) (k : Nat), Admits s k Od.eventCommand 3 → Yields (.eventClearLost k) s
       (((noted s k Od.eventCommand).setN Od.eventsLost 0).setN Od.entriesHighWater s.queueLen))
   ∧ (∀ (s : State) (k key : Nat), (s.source key).openAlarm = true → (s.source key).present = true → srcMomentary key = false →
     (s.ack k key).source key = { s.source key with st := 3, entry := (s.source key).entry.map fun e => { e with ackedBy := k } })
   ∧ (∀ (s : State) (k key : Nat), key ≠ 0 → (s.source key).openAlarm = true →
       ((s.source key).present = false ∨ srcMomentary key = true) →
     ((s.ack k key).source key).st = 0 ∧ ((s.ack k key).source key).entry = none)
   ∧ ∀ (s : State) (k key : Nat), (s.source key).openAlarm = false → s.ack k key = s)
  ∧ ((∀ (s : State) (k j left : Nat), Admits s k (Od.injectCommand j) 1 → j < 8 → s.nat (Od.injectState j) ≠ 1 →
       left = (if s.nat (Od.injectorInjectMode j) = 3 then s.nat (Od.injectorInjectCount j) else 1) → srcExists (injectKey s j) = true → s.nat (Od.injectScope j) = 0 →
       (∀ i, i < 8 → s.nat (Od.injectState i) = 1 → (s.injector i).src ≠ injectKey s j) →
     Yields (.injectStart k j) s (injectOne ((((noted s k (Od.injectCommand j)).setInjector j
       { src := injectKey s j, remaining := left }).setN (Od.injectState j) 1).setN (Od.injectCommand j) 1) j))
   ∧ (∀ (s : State) (j : Nat), s.nat (Od.injectScope j) = 0 →
     (injectOne s j).nat (Od.injectedOccurrences j) = (s.bump (Od.injectedOccurrences j)).nat (Od.injectedOccurrences j))
   ∧ (∀ (s : State) (key : Nat), injectAfter s key false = s)
   ∧ (∀ (s : State) (k j : Nat), Admits s k (Od.injectCommand j) 1 → s.nat (Od.injectState j) = 1 →
     Yields (.injectStart k j) s (s.refuse k .busy))
   ∧ (∀ (s : State) (k j : Nat), Admits s k (Od.injectCommand j) 1 → s.nat (Od.injectState j) ≠ 1 → srcExists (injectKey s j) = false →
     Yields (.injectStart k j) s (s.refuse k .range))
   ∧ (∀ (s : State) (k j : Nat), Admits s k (Od.injectCommand j) 2 →
     (s.nat (Od.injectState j) = 1 → Yields (.injectStop k j) s (injectAfter (injectorIdle (noted s k (Od.injectCommand j)) j)
       (s.injector j).src (decide (s.nat (Od.injectScope j) = 1))))
     ∧ (s.nat (Od.injectState j) ≠ 1 → Yields (.injectStop k j) s (noted s k (Od.injectCommand j))))
   ∧ (∀ (s : State) (j : Nat), j < 8 → s.nat (Od.injectState j) = 1 → (s.injector j).holding = true →
       s.nat (Od.injectorInjectMode j) ≠ 2 → s.nat (Od.injectScope j) = 0 →
     ((s.injector j).remaining = 0 → Yields (.injectHoldEnd j) s (injectorIdle s j))
     ∧ ((s.injector j).remaining ≠ 0 → Yields (.injectHoldEnd j) s
       (((s.setInjector j { s.injector j with holding := false }).endCond (s.injector j).src true).overflowCheck)))
   ∧ (∀ (s : State) (j : Nat), j < 8 → s.nat (Od.injectState j) = 1 → (s.injector j).holding = false → (s.injector j).remaining ≠ 0 →
     Yields (.injectGapExpired j) s (injectOne s j))
   ∧ ∀ (s : State) (j : Nat), j < 8 → (injectorIdle s j).nat (Od.injectState j) = 0 ∧ (injectorIdle s j).nat (Od.injectCommand j) = 0)
end

