-- ==== Sys2Proof/Laws/Tbl.lean ====
section
/-! SUPPORT. Laws of the keyed tables: reading after writing, and every operation keeps the canonical form. -/

namespace Sys2Proof.Machine

variable {α : Type} {d : Nat → α}

theorem Tbl.get_ins_same (t : List (Nat × α)) (i : Nat) (x : α) : Tbl.get d (Tbl.ins t i x) i = x := by
  induction t with
  | nil => simp [Tbl.ins, Tbl.get]
  | cons p t ih =>
    obtain ⟨k, v⟩ := p
    unfold Tbl.ins
    split
    · simp [Tbl.get]
    · split
      · simp [Tbl.get]
      · rename_i h
        have : ¬ k = i := fun e => h e.symm
        simp [Tbl.get, this, ih]

theorem Tbl.get_ins_other (t : List (Nat × α)) {i j : Nat} (x : α) (h : j ≠ i) :
    Tbl.get d (Tbl.ins t i x) j = Tbl.get d t j := by
  have h' : ¬ i = j := fun e => h e.symm
  induction t with
  | nil => simp [Tbl.ins, Tbl.get, h']
  | cons p t ih =>
    obtain ⟨k, v⟩ := p
    unfold Tbl.ins
    split
    · simp [Tbl.get, h']
    · split
      · rename_i hk
        subst hk
        simp [Tbl.get, h']
      · simp only [Tbl.get, ih]

theorem Tbl.get_drop_same (t : List (Nat × α)) (i : Nat) : Tbl.get d (Tbl.drop t i) i = d i := by
  induction t with
  | nil => rfl
  | cons p t ih =>
    obtain ⟨k, v⟩ := p
    by_cases h : k = i
    · subst h
      simpa [Tbl.drop] using ih
    · simpa [Tbl.drop, h, Tbl.get] using ih

theorem Tbl.get_drop_other (t : List (Nat × α)) {i j : Nat} (h : j ≠ i) : Tbl.get d (Tbl.drop t i) j = Tbl.get d t j := by
  induction t with
  | nil => rfl
  | cons p t ih =>
    obtain ⟨k, v⟩ := p
    by_cases hk : k = i
    · subst hk
      have h' : ¬ k = j := fun e => h e.symm
      simpa [Tbl.drop, Tbl.get, h'] using ih
    · by_cases hj : k = j
      · subst hj
        simp [Tbl.drop, hk, Tbl.get]
      · simpa [Tbl.drop, hk, Tbl.get, hj] using ih

/-- What is read back after a write. -/
theorem Tbl.get_put [DecidableEq α] (t : List (Nat × α)) (i j : Nat) (x : α) :
    Tbl.get d (Tbl.put d t i x) j = if j = i then x else Tbl.get d t j := by
  unfold Tbl.put
  by_cases hx : x = d i
  · rw [if_pos hx]
    by_cases h : j = i
    · subst h
      simp [Tbl.get_drop_same, hx]
    · simp [Tbl.get_drop_other t h, h]
  · rw [if_neg hx]
    by_cases h : j = i
    · subst h
      simp [Tbl.get_ins_same]
    · simp [Tbl.get_ins_other t x h, h]

theorem Tbl.get_clear (p : Nat → Bool) (t : List (Nat × α)) (j : Nat) :
    Tbl.get d (Tbl.clear p t) j = if p j then d j else Tbl.get d t j := by
  induction t with
  | nil => simp [Tbl.clear, Tbl.get]
  | cons q t ih =>
    obtain ⟨k, v⟩ := q
    by_cases hk : p k
    · by_cases hj : k = j
      · subst hj
        simpa [Tbl.clear, hk] using ih
      · simpa [Tbl.clear, hk, Tbl.get, hj] using ih
    · by_cases hj : k = j
      · subst hj
        simp [Tbl.clear, hk, Tbl.get]
      · simpa [Tbl.clear, hk, Tbl.get, hj] using ih

/-! ### The canonical form -/

theorem Tbl.sorted_iff (t : List (Nat × α)) : Tbl.sorted t = true ↔ t.Pairwise (fun a b => a.1 < b.1) := by
  induction t with
  | nil => simp [Tbl.sorted]
  | cons a t ih =>
    match t with
    | [] => simp [Tbl.sorted]
    | b :: u =>
      simp only [Tbl.sorted, Bool.and_eq_true, decide_eq_true_eq, ih, List.pairwise_cons, List.mem_cons, forall_eq_or_imp]
      constructor
      · rintro ⟨h, h1, h2⟩
        exact ⟨⟨h, fun c hc => Nat.lt_trans h (h1 c hc)⟩, h1, h2⟩
      · rintro ⟨⟨h, _⟩, h1, h2⟩
        exact ⟨h, h1, h2⟩

theorem Tbl.wf_iff [DecidableEq α] (t : List (Nat × α)) :
    Tbl.wf d t = true ↔ t.Pairwise (fun a b => a.1 < b.1) ∧ ∀ a ∈ t, a.2 ≠ d a.1 := by
  simp [Tbl.wf, Tbl.sorted_iff]

theorem Tbl.wf_nil [DecidableEq α] : Tbl.wf d [] = true := rfl

theorem Tbl.wf_filter [DecidableEq α] {t : List (Nat × α)} (p : Nat × α → Bool) (h : Tbl.wf d t = true) :
    Tbl.wf d (t.filter p) = true := by
  rw [Tbl.wf_iff] at *
  exact ⟨h.1.filter p, fun a ha => h.2 a (List.mem_filter.mp ha).1⟩

theorem Tbl.wf_drop [DecidableEq α] {t : List (Nat × α)} (i : Nat) (h : Tbl.wf d t = true) : Tbl.wf d (Tbl.drop t i) = true :=
  Tbl.wf_filter _ h

theorem Tbl.wf_clear [DecidableEq α] {t : List (Nat × α)} (p : Nat → Bool) (h : Tbl.wf d t = true) :
    Tbl.wf d (Tbl.clear p t) = true :=
  Tbl.wf_filter _ h

theorem Tbl.mem_ins {t : List (Nat × α)} {i : Nat} {x : α} {a : Nat × α} (h : a ∈ Tbl.ins t i x) : a = (i, x) ∨ a ∈ t := by
  induction t with
  | nil => simpa [Tbl.ins] using h
  | cons p t ih =>
    obtain ⟨k, v⟩ := p
    unfold Tbl.ins at h
    split at h
    · simpa using h
    · split at h
      · rcases List.mem_cons.mp h with h | h
        · exact .inl h
        · exact .inr (List.mem_cons_of_mem _ h)
      · rcases List.mem_cons.mp h with h | h
        · exact .inr (h ▸ List.mem_cons_self)
        · rcases ih h with h | h
          · exact .inl h
          · exact .inr (List.mem_cons_of_mem _ h)

theorem Tbl.wf_ins [DecidableEq α] {t : List (Nat × α)} {i : Nat} {x : α} (h : Tbl.wf d t = true) (hx : x ≠ d i) :
    Tbl.wf d (Tbl.ins t i x) = true := by
  rw [Tbl.wf_iff] at *
  refine ⟨?_, fun a ha => ?_⟩
  · obtain ⟨hs, -⟩ := h
    induction t with
    | nil => simp [Tbl.ins]
    | cons p t ih =>
      obtain ⟨k, v⟩ := p
      obtain ⟨h1, h2⟩ := List.pairwise_cons.mp hs
      unfold Tbl.ins
      split
      · rename_i hlt
        refine List.pairwise_cons.mpr ⟨fun a ha => ?_, hs⟩
        rcases List.mem_cons.mp ha with rfl | ha
        · exact hlt
        · exact Nat.lt_trans hlt (h1 a ha)
      · split
        · rename_i he
          subst he
          exact List.pairwise_cons.mpr ⟨h1, h2⟩
        · refine List.pairwise_cons.mpr ⟨fun a ha => ?_, ih h2⟩
          rcases Tbl.mem_ins ha with rfl | ha
          · simp only
            omega
          · exact h1 a ha
  · rcases Tbl.mem_ins ha with rfl | ha
    · exact hx
    · exact h.2 a ha

/-- A write keeps the canonical form. -/
theorem Tbl.wf_put [DecidableEq α] {t : List (Nat × α)} (i : Nat) (x : α) (h : Tbl.wf d t = true) :
    Tbl.wf d (Tbl.put d t i x) = true := by
  unfold Tbl.put
  split
  · exact Tbl.wf_drop i h
  · exact Tbl.wf_ins h ‹_›

/-! ### Sorting -/

theorem insertBy_perm (le : α → α → Bool) (x : α) (l : List α) : (insertBy le x l).Perm (x :: l) := by
  induction l with
  | nil => exact .refl _
  | cons y t ih =>
    unfold insertBy
    split
    · exact .refl _
    · exact (ih.cons y).trans (.swap x y t)

theorem sortBy_perm (le : α → α → Bool) (l : List α) : (sortBy le l).Perm l := by
  induction l with
  | nil => exact .refl _
  | cons x t ih => exact (insertBy_perm le x _).trans (ih.cons x)

@[simp] theorem mem_sortBy (le : α → α → Bool) (l : List α) (x : α) : x ∈ sortBy le l ↔ x ∈ l := (sortBy_perm le l).mem_iff

theorem insertBy_pairwise {le : α → α → Bool} (total : ∀ a b, le a b = true ∨ le b a = true)
    (trans : ∀ a b c, le a b = true → le b c = true → le a c = true) {x : α} {l : List α} (h : l.Pairwise fun a b => le a b = true) :
    (insertBy le x l).Pairwise fun a b => le a b = true := by
  induction l with
  | nil => simp [insertBy]
  | cons y t ih =>
    unfold insertBy
    rw [List.pairwise_cons] at h
    split
    · next hx =>
      refine List.pairwise_cons.2 ⟨fun z hz => ?_, List.pairwise_cons.2 h⟩
      rcases List.mem_cons.1 hz with rfl | hz
      · exact hx
      · exact trans _ _ _ hx (h.1 z hz)
    · next hx =>
      refine List.pairwise_cons.2 ⟨fun z hz => ?_, ih h.2⟩
      rcases List.mem_cons.1 ((insertBy_perm le x t).mem_iff.1 hz) with rfl | hz
      · exact (total _ _).resolve_left hx
      · exact h.1 z hz

/-- A sorted list is in order. -/
theorem sortBy_pairwise {le : α → α → Bool} (total : ∀ a b, le a b = true ∨ le b a = true)
    (trans : ∀ a b c, le a b = true → le b c = true → le a c = true) (l : List α) : (sortBy le l).Pairwise fun a b => le a b = true := by
  induction l with
  | nil => exact .nil
  | cons x t ih => exact insertBy_pairwise total trans ih

end Sys2Proof.Machine
end

