-- ==== Sys2Proof/Laws/State.lean ====
section
/-! SUPPORT. What each update of the state leaves in each field: one law per field and update, each true by definition. -/

namespace Sys2Proof.Machine

variable (s : State)

@[simp] theorem State.setVal_pending (k : Nat) (v : Val) : (s.setVal k v).pending = s.pending := rfl
@[simp] theorem State.setVal_od (k : Nat) (v : Val) : (s.setVal k v).od = Tbl.put odDefault s.od k v := rfl
@[simp] theorem State.setVal_shadow (k : Nat) (v : Val) : (s.setVal k v).shadow = s.shadow := rfl
@[simp] theorem State.setVal_pins (k : Nat) (v : Val) : (s.setVal k v).pins = s.pins := rfl
@[simp] theorem State.setVal_flash (k : Nat) (v : Val) : (s.setVal k v).flash = s.flash := rfl
@[simp] theorem State.setVal_boot (k : Nat) (v : Val) : (s.setVal k v).boot = s.boot := rfl
@[simp] theorem State.setVal_thermal (k : Nat) (v : Val) : (s.setVal k v).thermal = s.thermal := rfl
@[simp] theorem State.setVal_uptime (k : Nat) (v : Val) : (s.setVal k v).uptime = s.uptime := rfl
@[simp] theorem State.setVal_sessions (k : Nat) (v : Val) : (s.setVal k v).sessions = s.sessions := rfl
@[simp] theorem State.setVal_conns (k : Nat) (v : Val) : (s.setVal k v).conns = s.conns := rfl
@[simp] theorem State.setVal_journal (k : Nat) (v : Val) : (s.setVal k v).journal = s.journal := rfl
@[simp] theorem State.setVal_journalNext (k : Nat) (v : Val) : (s.setVal k v).journalNext = s.journalNext := rfl
@[simp] theorem State.setVal_can (k : Nat) (v : Val) : (s.setVal k v).can = s.can := rfl
@[simp] theorem State.setVal_mgmtPorts (k : Nat) (v : Val) : (s.setVal k v).mgmtPorts = s.mgmtPorts := rfl
@[simp] theorem State.setVal_scopes (k : Nat) (v : Val) : (s.setVal k v).scopes = s.scopes := rfl
@[simp] theorem State.setVal_sources (k : Nat) (v : Val) : (s.setVal k v).sources = s.sources := rfl
@[simp] theorem State.setVal_injectors (k : Nat) (v : Val) : (s.setVal k v).injectors = s.injectors := rfl
@[simp] theorem State.setVal_domains (k : Nat) (v : Val) : (s.setVal k v).domains = s.domains := rfl
@[simp] theorem State.setVal_holds (k : Nat) (v : Val) : (s.setVal k v).holds = s.holds := rfl
@[simp] theorem State.setVal_outbox (k : Nat) (v : Val) : (s.setVal k v).outbox = s.outbox := rfl
@[simp] theorem State.setVal_freeCount (k : Nat) (v : Val) : (s.setVal k v).freeCount = s.freeCount := rfl
@[simp] theorem State.setVal_moduleTime (k : Nat) (v : Val) : (s.setVal k v).moduleTime = s.moduleTime := rfl
@[simp] theorem State.setVal_perfInjected (k : Nat) (v : Val) : (s.setVal k v).perfInjected = s.perfInjected := rfl
@[simp] theorem State.setVal_engines (k : Nat) (v : Val) : (s.setVal k v).engines = s.engines := rfl
@[simp] theorem State.setVal_lanes (k : Nat) (v : Val) : (s.setVal k v).lanes = s.lanes := rfl
@[simp] theorem State.setVal_members (k : Nat) (v : Val) : (s.setVal k v).members = s.members := rfl
@[simp] theorem State.setVal_pfcSent (k : Nat) (v : Val) : (s.setVal k v).pfcSent = s.pfcSent := rfl
@[simp] theorem State.setVal_trays (k : Nat) (v : Val) : (s.setVal k v).trays = s.trays := rfl
@[simp] theorem State.setVal_keys (k : Nat) (v : Val) : (s.setVal k v).keys = s.keys := rfl
@[simp] theorem State.setVal_kek (k : Nat) (v : Val) : (s.setVal k v).kek = s.kek := rfl
@[simp] theorem State.setVal_hubs (k : Nat) (v : Val) : (s.setVal k v).hubs = s.hubs := rfl
@[simp] theorem State.setVal_contexts (k : Nat) (v : Val) : (s.setVal k v).contexts = s.contexts := rfl
@[simp] theorem State.setVal_hotCopies (k : Nat) (v : Val) : (s.setVal k v).hotCopies = s.hotCopies := rfl
@[simp] theorem State.setVal_hotOrder (k : Nat) (v : Val) : (s.setVal k v).hotOrder = s.hotOrder := rfl
@[simp] theorem State.setVal_leafRuns (k : Nat) (v : Val) : (s.setVal k v).leafRuns = s.leafRuns := rfl
@[simp] theorem State.setVal_hubEgress (k : Nat) (v : Val) : (s.setVal k v).hubEgress = s.hubEgress := rfl
@[simp] theorem State.setVal_pages (k : Nat) (v : Val) : (s.setVal k v).pages = s.pages := rfl
@[simp] theorem State.setVal_stockpot (k : Nat) (v : Val) : (s.setVal k v).stockpot = s.stockpot := rfl
@[simp] theorem State.setVal_dmas (k : Nat) (v : Val) : (s.setVal k v).dmas = s.dmas := rfl
@[simp] theorem State.setVal_tgEntries (k : Nat) (v : Val) : (s.setVal k v).tgEntries = s.tgEntries := rfl
@[simp] theorem State.setVal_tgs (k : Nat) (v : Val) : (s.setVal k v).tgs = s.tgs := rfl
@[simp] theorem State.setVal_timeCtl (k : Nat) (v : Val) : (s.setVal k v).timeCtl = s.timeCtl := rfl
@[simp] theorem State.setVal_fpos (k : Nat) (v : Val) : (s.setVal k v).fpos = s.fpos := rfl
@[simp] theorem State.setVal_monitors (k : Nat) (v : Val) : (s.setVal k v).monitors = s.monitors := rfl
@[simp] theorem State.setVal_perf (k : Nat) (v : Val) : (s.setVal k v).perf = s.perf := rfl
@[simp] theorem State.setVal_windows (k : Nat) (v : Val) : (s.setVal k v).windows = s.windows := rfl
@[simp] theorem State.setVal_probes (k : Nat) (v : Val) : (s.setVal k v).probes = s.probes := rfl

@[simp] theorem State.clearObjs_pending (p : Nat → Bool) : (s.clearObjs p).pending = s.pending := rfl
@[simp] theorem State.clearObjs_od (p : Nat → Bool) : (s.clearObjs p).od = Tbl.clear p s.od := rfl
@[simp] theorem State.clearObjs_shadow (p : Nat → Bool) : (s.clearObjs p).shadow = s.shadow := rfl
@[simp] theorem State.clearObjs_pins (p : Nat → Bool) : (s.clearObjs p).pins = s.pins := rfl
@[simp] theorem State.clearObjs_flash (p : Nat → Bool) : (s.clearObjs p).flash = s.flash := rfl
@[simp] theorem State.clearObjs_boot (p : Nat → Bool) : (s.clearObjs p).boot = s.boot := rfl
@[simp] theorem State.clearObjs_thermal (p : Nat → Bool) : (s.clearObjs p).thermal = s.thermal := rfl
@[simp] theorem State.clearObjs_uptime (p : Nat → Bool) : (s.clearObjs p).uptime = s.uptime := rfl
@[simp] theorem State.clearObjs_sessions (p : Nat → Bool) : (s.clearObjs p).sessions = s.sessions := rfl
@[simp] theorem State.clearObjs_conns (p : Nat → Bool) : (s.clearObjs p).conns = s.conns := rfl
@[simp] theorem State.clearObjs_journal (p : Nat → Bool) : (s.clearObjs p).journal = s.journal := rfl
@[simp] theorem State.clearObjs_journalNext (p : Nat → Bool) : (s.clearObjs p).journalNext = s.journalNext := rfl
@[simp] theorem State.clearObjs_can (p : Nat → Bool) : (s.clearObjs p).can = s.can := rfl
@[simp] theorem State.clearObjs_mgmtPorts (p : Nat → Bool) : (s.clearObjs p).mgmtPorts = s.mgmtPorts := rfl
@[simp] theorem State.clearObjs_scopes (p : Nat → Bool) : (s.clearObjs p).scopes = s.scopes := rfl
@[simp] theorem State.clearObjs_sources (p : Nat → Bool) : (s.clearObjs p).sources = s.sources := rfl
@[simp] theorem State.clearObjs_injectors (p : Nat → Bool) : (s.clearObjs p).injectors = s.injectors := rfl
@[simp] theorem State.clearObjs_domains (p : Nat → Bool) : (s.clearObjs p).domains = s.domains := rfl
@[simp] theorem State.clearObjs_holds (p : Nat → Bool) : (s.clearObjs p).holds = s.holds := rfl
@[simp] theorem State.clearObjs_outbox (p : Nat → Bool) : (s.clearObjs p).outbox = s.outbox := rfl
@[simp] theorem State.clearObjs_freeCount (p : Nat → Bool) : (s.clearObjs p).freeCount = s.freeCount := rfl
@[simp] theorem State.clearObjs_moduleTime (p : Nat → Bool) : (s.clearObjs p).moduleTime = s.moduleTime := rfl
@[simp] theorem State.clearObjs_perfInjected (p : Nat → Bool) : (s.clearObjs p).perfInjected = s.perfInjected := rfl
@[simp] theorem State.clearObjs_engines (p : Nat → Bool) : (s.clearObjs p).engines = s.engines := rfl
@[simp] theorem State.clearObjs_lanes (p : Nat → Bool) : (s.clearObjs p).lanes = s.lanes := rfl
@[simp] theorem State.clearObjs_members (p : Nat → Bool) : (s.clearObjs p).members = s.members := rfl
@[simp] theorem State.clearObjs_pfcSent (p : Nat → Bool) : (s.clearObjs p).pfcSent = s.pfcSent := rfl
@[simp] theorem State.clearObjs_trays (p : Nat → Bool) : (s.clearObjs p).trays = s.trays := rfl
@[simp] theorem State.clearObjs_keys (p : Nat → Bool) : (s.clearObjs p).keys = s.keys := rfl
@[simp] theorem State.clearObjs_kek (p : Nat → Bool) : (s.clearObjs p).kek = s.kek := rfl
@[simp] theorem State.clearObjs_hubs (p : Nat → Bool) : (s.clearObjs p).hubs = s.hubs := rfl
@[simp] theorem State.clearObjs_contexts (p : Nat → Bool) : (s.clearObjs p).contexts = s.contexts := rfl
@[simp] theorem State.clearObjs_hotCopies (p : Nat → Bool) : (s.clearObjs p).hotCopies = s.hotCopies := rfl
@[simp] theorem State.clearObjs_hotOrder (p : Nat → Bool) : (s.clearObjs p).hotOrder = s.hotOrder := rfl
@[simp] theorem State.clearObjs_leafRuns (p : Nat → Bool) : (s.clearObjs p).leafRuns = s.leafRuns := rfl
@[simp] theorem State.clearObjs_hubEgress (p : Nat → Bool) : (s.clearObjs p).hubEgress = s.hubEgress := rfl
@[simp] theorem State.clearObjs_pages (p : Nat → Bool) : (s.clearObjs p).pages = s.pages := rfl
@[simp] theorem State.clearObjs_stockpot (p : Nat → Bool) : (s.clearObjs p).stockpot = s.stockpot := rfl
@[simp] theorem State.clearObjs_dmas (p : Nat → Bool) : (s.clearObjs p).dmas = s.dmas := rfl
@[simp] theorem State.clearObjs_tgEntries (p : Nat → Bool) : (s.clearObjs p).tgEntries = s.tgEntries := rfl
@[simp] theorem State.clearObjs_tgs (p : Nat → Bool) : (s.clearObjs p).tgs = s.tgs := rfl
@[simp] theorem State.clearObjs_timeCtl (p : Nat → Bool) : (s.clearObjs p).timeCtl = s.timeCtl := rfl
@[simp] theorem State.clearObjs_fpos (p : Nat → Bool) : (s.clearObjs p).fpos = s.fpos := rfl
@[simp] theorem State.clearObjs_monitors (p : Nat → Bool) : (s.clearObjs p).monitors = s.monitors := rfl
@[simp] theorem State.clearObjs_perf (p : Nat → Bool) : (s.clearObjs p).perf = s.perf := rfl
@[simp] theorem State.clearObjs_windows (p : Nat → Bool) : (s.clearObjs p).windows = s.windows := rfl
@[simp] theorem State.clearObjs_probes (p : Nat → Bool) : (s.clearObjs p).probes = s.probes := rfl

@[simp] theorem State.setShadow_pending (k : Nat) (v : Val) : (s.setShadow k v).pending = s.pending := rfl
@[simp] theorem State.setShadow_od (k : Nat) (v : Val) : (s.setShadow k v).od = s.od := rfl
@[simp] theorem State.setShadow_shadow (k : Nat) (v : Val) : (s.setShadow k v).shadow = Tbl.put s.val s.shadow k v := rfl
@[simp] theorem State.setShadow_pins (k : Nat) (v : Val) : (s.setShadow k v).pins = s.pins := rfl
@[simp] theorem State.setShadow_flash (k : Nat) (v : Val) : (s.setShadow k v).flash = s.flash := rfl
@[simp] theorem State.setShadow_boot (k : Nat) (v : Val) : (s.setShadow k v).boot = s.boot := rfl
@[simp] theorem State.setShadow_thermal (k : Nat) (v : Val) : (s.setShadow k v).thermal = s.thermal := rfl
@[simp] theorem State.setShadow_uptime (k : Nat) (v : Val) : (s.setShadow k v).uptime = s.uptime := rfl
@[simp] theorem State.setShadow_sessions (k : Nat) (v : Val) : (s.setShadow k v).sessions = s.sessions := rfl
@[simp] theorem State.setShadow_conns (k : Nat) (v : Val) : (s.setShadow k v).conns = s.conns := rfl
@[simp] theorem State.setShadow_journal (k : Nat) (v : Val) : (s.setShadow k v).journal = s.journal := rfl
@[simp] theorem State.setShadow_journalNext (k : Nat) (v : Val) : (s.setShadow k v).journalNext = s.journalNext := rfl
@[simp] theorem State.setShadow_can (k : Nat) (v : Val) : (s.setShadow k v).can = s.can := rfl
@[simp] theorem State.setShadow_mgmtPorts (k : Nat) (v : Val) : (s.setShadow k v).mgmtPorts = s.mgmtPorts := rfl
@[simp] theorem State.setShadow_scopes (k : Nat) (v : Val) : (s.setShadow k v).scopes = s.scopes := rfl
@[simp] theorem State.setShadow_sources (k : Nat) (v : Val) : (s.setShadow k v).sources = s.sources := rfl
@[simp] theorem State.setShadow_injectors (k : Nat) (v : Val) : (s.setShadow k v).injectors = s.injectors := rfl
@[simp] theorem State.setShadow_domains (k : Nat) (v : Val) : (s.setShadow k v).domains = s.domains := rfl
@[simp] theorem State.setShadow_holds (k : Nat) (v : Val) : (s.setShadow k v).holds = s.holds := rfl
@[simp] theorem State.setShadow_outbox (k : Nat) (v : Val) : (s.setShadow k v).outbox = s.outbox := rfl
@[simp] theorem State.setShadow_freeCount (k : Nat) (v : Val) : (s.setShadow k v).freeCount = s.freeCount := rfl
@[simp] theorem State.setShadow_moduleTime (k : Nat) (v : Val) : (s.setShadow k v).moduleTime = s.moduleTime := rfl
@[simp] theorem State.setShadow_perfInjected (k : Nat) (v : Val) : (s.setShadow k v).perfInjected = s.perfInjected := rfl
@[simp] theorem State.setShadow_engines (k : Nat) (v : Val) : (s.setShadow k v).engines = s.engines := rfl
@[simp] theorem State.setShadow_lanes (k : Nat) (v : Val) : (s.setShadow k v).lanes = s.lanes := rfl
@[simp] theorem State.setShadow_members (k : Nat) (v : Val) : (s.setShadow k v).members = s.members := rfl
@[simp] theorem State.setShadow_pfcSent (k : Nat) (v : Val) : (s.setShadow k v).pfcSent = s.pfcSent := rfl
@[simp] theorem State.setShadow_trays (k : Nat) (v : Val) : (s.setShadow k v).trays = s.trays := rfl
@[simp] theorem State.setShadow_keys (k : Nat) (v : Val) : (s.setShadow k v).keys = s.keys := rfl
@[simp] theorem State.setShadow_kek (k : Nat) (v : Val) : (s.setShadow k v).kek = s.kek := rfl
@[simp] theorem State.setShadow_hubs (k : Nat) (v : Val) : (s.setShadow k v).hubs = s.hubs := rfl
@[simp] theorem State.setShadow_contexts (k : Nat) (v : Val) : (s.setShadow k v).contexts = s.contexts := rfl
@[simp] theorem State.setShadow_hotCopies (k : Nat) (v : Val) : (s.setShadow k v).hotCopies = s.hotCopies := rfl
@[simp] theorem State.setShadow_hotOrder (k : Nat) (v : Val) : (s.setShadow k v).hotOrder = s.hotOrder := rfl
@[simp] theorem State.setShadow_leafRuns (k : Nat) (v : Val) : (s.setShadow k v).leafRuns = s.leafRuns := rfl
@[simp] theorem State.setShadow_hubEgress (k : Nat) (v : Val) : (s.setShadow k v).hubEgress = s.hubEgress := rfl
@[simp] theorem State.setShadow_pages (k : Nat) (v : Val) : (s.setShadow k v).pages = s.pages := rfl
@[simp] theorem State.setShadow_stockpot (k : Nat) (v : Val) : (s.setShadow k v).stockpot = s.stockpot := rfl
@[simp] theorem State.setShadow_dmas (k : Nat) (v : Val) : (s.setShadow k v).dmas = s.dmas := rfl
@[simp] theorem State.setShadow_tgEntries (k : Nat) (v : Val) : (s.setShadow k v).tgEntries = s.tgEntries := rfl
@[simp] theorem State.setShadow_tgs (k : Nat) (v : Val) : (s.setShadow k v).tgs = s.tgs := rfl
@[simp] theorem State.setShadow_timeCtl (k : Nat) (v : Val) : (s.setShadow k v).timeCtl = s.timeCtl := rfl
@[simp] theorem State.setShadow_fpos (k : Nat) (v : Val) : (s.setShadow k v).fpos = s.fpos := rfl
@[simp] theorem State.setShadow_monitors (k : Nat) (v : Val) : (s.setShadow k v).monitors = s.monitors := rfl
@[simp] theorem State.setShadow_perf (k : Nat) (v : Val) : (s.setShadow k v).perf = s.perf := rfl
@[simp] theorem State.setShadow_windows (k : Nat) (v : Val) : (s.setShadow k v).windows = s.windows := rfl
@[simp] theorem State.setShadow_probes (k : Nat) (v : Val) : (s.setShadow k v).probes = s.probes := rfl

@[simp] theorem State.send_pending (m : Msg) : (s.send m).pending = s.pending := rfl
@[simp] theorem State.send_od (m : Msg) : (s.send m).od = s.od := rfl
@[simp] theorem State.send_shadow (m : Msg) : (s.send m).shadow = s.shadow := rfl
@[simp] theorem State.send_pins (m : Msg) : (s.send m).pins = s.pins := rfl
@[simp] theorem State.send_flash (m : Msg) : (s.send m).flash = s.flash := rfl
@[simp] theorem State.send_boot (m : Msg) : (s.send m).boot = s.boot := rfl
@[simp] theorem State.send_thermal (m : Msg) : (s.send m).thermal = s.thermal := rfl
@[simp] theorem State.send_uptime (m : Msg) : (s.send m).uptime = s.uptime := rfl
@[simp] theorem State.send_sessions (m : Msg) : (s.send m).sessions = s.sessions := rfl
@[simp] theorem State.send_conns (m : Msg) : (s.send m).conns = s.conns := rfl
@[simp] theorem State.send_journal (m : Msg) : (s.send m).journal = s.journal := rfl
@[simp] theorem State.send_journalNext (m : Msg) : (s.send m).journalNext = s.journalNext := rfl
@[simp] theorem State.send_can (m : Msg) : (s.send m).can = s.can := rfl
@[simp] theorem State.send_mgmtPorts (m : Msg) : (s.send m).mgmtPorts = s.mgmtPorts := rfl
@[simp] theorem State.send_scopes (m : Msg) : (s.send m).scopes = s.scopes := rfl
@[simp] theorem State.send_sources (m : Msg) : (s.send m).sources = s.sources := rfl
@[simp] theorem State.send_injectors (m : Msg) : (s.send m).injectors = s.injectors := rfl
@[simp] theorem State.send_domains (m : Msg) : (s.send m).domains = s.domains := rfl
@[simp] theorem State.send_holds (m : Msg) : (s.send m).holds = s.holds := rfl
@[simp] theorem State.send_outbox (m : Msg) : (s.send m).outbox = m :: s.outbox := rfl
@[simp] theorem State.send_freeCount (m : Msg) : (s.send m).freeCount = s.freeCount := rfl
@[simp] theorem State.send_moduleTime (m : Msg) : (s.send m).moduleTime = s.moduleTime := rfl
@[simp] theorem State.send_perfInjected (m : Msg) : (s.send m).perfInjected = s.perfInjected := rfl
@[simp] theorem State.send_engines (m : Msg) : (s.send m).engines = s.engines := rfl
@[simp] theorem State.send_lanes (m : Msg) : (s.send m).lanes = s.lanes := rfl
@[simp] theorem State.send_members (m : Msg) : (s.send m).members = s.members := rfl
@[simp] theorem State.send_pfcSent (m : Msg) : (s.send m).pfcSent = s.pfcSent := rfl
@[simp] theorem State.send_trays (m : Msg) : (s.send m).trays = s.trays := rfl
@[simp] theorem State.send_keys (m : Msg) : (s.send m).keys = s.keys := rfl
@[simp] theorem State.send_kek (m : Msg) : (s.send m).kek = s.kek := rfl
@[simp] theorem State.send_hubs (m : Msg) : (s.send m).hubs = s.hubs := rfl
@[simp] theorem State.send_contexts (m : Msg) : (s.send m).contexts = s.contexts := rfl
@[simp] theorem State.send_hotCopies (m : Msg) : (s.send m).hotCopies = s.hotCopies := rfl
@[simp] theorem State.send_hotOrder (m : Msg) : (s.send m).hotOrder = s.hotOrder := rfl
@[simp] theorem State.send_leafRuns (m : Msg) : (s.send m).leafRuns = s.leafRuns := rfl
@[simp] theorem State.send_hubEgress (m : Msg) : (s.send m).hubEgress = s.hubEgress := rfl
@[simp] theorem State.send_pages (m : Msg) : (s.send m).pages = s.pages := rfl
@[simp] theorem State.send_stockpot (m : Msg) : (s.send m).stockpot = s.stockpot := rfl
@[simp] theorem State.send_dmas (m : Msg) : (s.send m).dmas = s.dmas := rfl
@[simp] theorem State.send_tgEntries (m : Msg) : (s.send m).tgEntries = s.tgEntries := rfl
@[simp] theorem State.send_tgs (m : Msg) : (s.send m).tgs = s.tgs := rfl
@[simp] theorem State.send_timeCtl (m : Msg) : (s.send m).timeCtl = s.timeCtl := rfl
@[simp] theorem State.send_fpos (m : Msg) : (s.send m).fpos = s.fpos := rfl
@[simp] theorem State.send_monitors (m : Msg) : (s.send m).monitors = s.monitors := rfl
@[simp] theorem State.send_perf (m : Msg) : (s.send m).perf = s.perf := rfl
@[simp] theorem State.send_windows (m : Msg) : (s.send m).windows = s.windows := rfl
@[simp] theorem State.send_probes (m : Msg) : (s.send m).probes = s.probes := rfl

@[simp] theorem State.enter_pending (m : ModState) : (s.enter m).pending = s.pending := rfl
@[simp] theorem State.enter_od (m : ModState) : (s.enter m).od = s.od := rfl
@[simp] theorem State.enter_shadow (m : ModState) : (s.enter m).shadow = s.shadow := rfl
@[simp] theorem State.enter_pins (m : ModState) : (s.enter m).pins = s.pins := rfl
@[simp] theorem State.enter_flash (m : ModState) : (s.enter m).flash = s.flash := rfl
@[simp] theorem State.enter_boot (m : ModState) : (s.enter m).boot = { s.boot with st := m, enteredAt := s.uptime } := rfl
@[simp] theorem State.enter_thermal (m : ModState) : (s.enter m).thermal = s.thermal := rfl
@[simp] theorem State.enter_uptime (m : ModState) : (s.enter m).uptime = s.uptime := rfl
@[simp] theorem State.enter_sessions (m : ModState) : (s.enter m).sessions = s.sessions := rfl
@[simp] theorem State.enter_conns (m : ModState) : (s.enter m).conns = s.conns := rfl
@[simp] theorem State.enter_journal (m : ModState) : (s.enter m).journal = s.journal := rfl
@[simp] theorem State.enter_journalNext (m : ModState) : (s.enter m).journalNext = s.journalNext := rfl
@[simp] theorem State.enter_can (m : ModState) : (s.enter m).can = s.can := rfl
@[simp] theorem State.enter_mgmtPorts (m : ModState) : (s.enter m).mgmtPorts = s.mgmtPorts := rfl
@[simp] theorem State.enter_scopes (m : ModState) : (s.enter m).scopes = s.scopes := rfl
@[simp] theorem State.enter_sources (m : ModState) : (s.enter m).sources = s.sources := rfl
@[simp] theorem State.enter_injectors (m : ModState) : (s.enter m).injectors = s.injectors := rfl
@[simp] theorem State.enter_domains (m : ModState) : (s.enter m).domains = s.domains := rfl
@[simp] theorem State.enter_holds (m : ModState) : (s.enter m).holds = s.holds := rfl
@[simp] theorem State.enter_outbox (m : ModState) : (s.enter m).outbox = s.outbox := rfl
@[simp] theorem State.enter_freeCount (m : ModState) : (s.enter m).freeCount = s.freeCount := rfl
@[simp] theorem State.enter_moduleTime (m : ModState) : (s.enter m).moduleTime = s.moduleTime := rfl
@[simp] theorem State.enter_perfInjected (m : ModState) : (s.enter m).perfInjected = s.perfInjected := rfl
@[simp] theorem State.enter_engines (m : ModState) : (s.enter m).engines = s.engines := rfl
@[simp] theorem State.enter_lanes (m : ModState) : (s.enter m).lanes = s.lanes := rfl
@[simp] theorem State.enter_members (m : ModState) : (s.enter m).members = s.members := rfl
@[simp] theorem State.enter_pfcSent (m : ModState) : (s.enter m).pfcSent = s.pfcSent := rfl
@[simp] theorem State.enter_trays (m : ModState) : (s.enter m).trays = s.trays := rfl
@[simp] theorem State.enter_keys (m : ModState) : (s.enter m).keys = s.keys := rfl
@[simp] theorem State.enter_kek (m : ModState) : (s.enter m).kek = s.kek := rfl
@[simp] theorem State.enter_hubs (m : ModState) : (s.enter m).hubs = s.hubs := rfl
@[simp] theorem State.enter_contexts (m : ModState) : (s.enter m).contexts = s.contexts := rfl
@[simp] theorem State.enter_hotCopies (m : ModState) : (s.enter m).hotCopies = s.hotCopies := rfl
@[simp] theorem State.enter_hotOrder (m : ModState) : (s.enter m).hotOrder = s.hotOrder := rfl
@[simp] theorem State.enter_leafRuns (m : ModState) : (s.enter m).leafRuns = s.leafRuns := rfl
@[simp] theorem State.enter_hubEgress (m : ModState) : (s.enter m).hubEgress = s.hubEgress := rfl
@[simp] theorem State.enter_pages (m : ModState) : (s.enter m).pages = s.pages := rfl
@[simp] theorem State.enter_stockpot (m : ModState) : (s.enter m).stockpot = s.stockpot := rfl
@[simp] theorem State.enter_dmas (m : ModState) : (s.enter m).dmas = s.dmas := rfl
@[simp] theorem State.enter_tgEntries (m : ModState) : (s.enter m).tgEntries = s.tgEntries := rfl
@[simp] theorem State.enter_tgs (m : ModState) : (s.enter m).tgs = s.tgs := rfl
@[simp] theorem State.enter_timeCtl (m : ModState) : (s.enter m).timeCtl = s.timeCtl := rfl
@[simp] theorem State.enter_fpos (m : ModState) : (s.enter m).fpos = s.fpos := rfl
@[simp] theorem State.enter_monitors (m : ModState) : (s.enter m).monitors = s.monitors := rfl
@[simp] theorem State.enter_perf (m : ModState) : (s.enter m).perf = s.perf := rfl
@[simp] theorem State.enter_windows (m : ModState) : (s.enter m).windows = s.windows := rfl
@[simp] theorem State.enter_probes (m : ModState) : (s.enter m).probes = s.probes := rfl

@[simp] theorem State.setSession_pending (k : Nat) (x : Session) : (s.setSession k x).pending = s.pending := rfl
@[simp] theorem State.setSession_od (k : Nat) (x : Session) : (s.setSession k x).od = s.od := rfl
@[simp] theorem State.setSession_shadow (k : Nat) (x : Session) : (s.setSession k x).shadow = s.shadow := rfl
@[simp] theorem State.setSession_pins (k : Nat) (x : Session) : (s.setSession k x).pins = s.pins := rfl
@[simp] theorem State.setSession_flash (k : Nat) (x : Session) : (s.setSession k x).flash = s.flash := rfl
@[simp] theorem State.setSession_boot (k : Nat) (x : Session) : (s.setSession k x).boot = s.boot := rfl
@[simp] theorem State.setSession_thermal (k : Nat) (x : Session) : (s.setSession k x).thermal = s.thermal := rfl
@[simp] theorem State.setSession_uptime (k : Nat) (x : Session) : (s.setSession k x).uptime = s.uptime := rfl
@[simp] theorem State.setSession_sessions (k : Nat) (x : Session) : (s.setSession k x).sessions = Tbl.put (fun _ => {}) s.sessions k x := rfl
@[simp] theorem State.setSession_conns (k : Nat) (x : Session) : (s.setSession k x).conns = s.conns := rfl
@[simp] theorem State.setSession_journal (k : Nat) (x : Session) : (s.setSession k x).journal = s.journal := rfl
@[simp] theorem State.setSession_journalNext (k : Nat) (x : Session) : (s.setSession k x).journalNext = s.journalNext := rfl
@[simp] theorem State.setSession_can (k : Nat) (x : Session) : (s.setSession k x).can = s.can := rfl
@[simp] theorem State.setSession_mgmtPorts (k : Nat) (x : Session) : (s.setSession k x).mgmtPorts = s.mgmtPorts := rfl
@[simp] theorem State.setSession_scopes (k : Nat) (x : Session) : (s.setSession k x).scopes = s.scopes := rfl
@[simp] theorem State.setSession_sources (k : Nat) (x : Session) : (s.setSession k x).sources = s.sources := rfl
@[simp] theorem State.setSession_injectors (k : Nat) (x : Session) : (s.setSession k x).injectors = s.injectors := rfl
@[simp] theorem State.setSession_domains (k : Nat) (x : Session) : (s.setSession k x).domains = s.domains := rfl
@[simp] theorem State.setSession_holds (k : Nat) (x : Session) : (s.setSession k x).holds = s.holds := rfl
@[simp] theorem State.setSession_outbox (k : Nat) (x : Session) : (s.setSession k x).outbox = s.outbox := rfl
@[simp] theorem State.setSession_freeCount (k : Nat) (x : Session) : (s.setSession k x).freeCount = s.freeCount := rfl
@[simp] theorem State.setSession_moduleTime (k : Nat) (x : Session) : (s.setSession k x).moduleTime = s.moduleTime := rfl
@[simp] theorem State.setSession_perfInjected (k : Nat) (x : Session) : (s.setSession k x).perfInjected = s.perfInjected := rfl
@[simp] theorem State.setSession_engines (k : Nat) (x : Session) : (s.setSession k x).engines = s.engines := rfl
@[simp] theorem State.setSession_lanes (k : Nat) (x : Session) : (s.setSession k x).lanes = s.lanes := rfl
@[simp] theorem State.setSession_members (k : Nat) (x : Session) : (s.setSession k x).members = s.members := rfl
@[simp] theorem State.setSession_pfcSent (k : Nat) (x : Session) : (s.setSession k x).pfcSent = s.pfcSent := rfl
@[simp] theorem State.setSession_trays (k : Nat) (x : Session) : (s.setSession k x).trays = s.trays := rfl
@[simp] theorem State.setSession_keys (k : Nat) (x : Session) : (s.setSession k x).keys = s.keys := rfl
@[simp] theorem State.setSession_kek (k : Nat) (x : Session) : (s.setSession k x).kek = s.kek := rfl
@[simp] theorem State.setSession_hubs (k : Nat) (x : Session) : (s.setSession k x).hubs = s.hubs := rfl
@[simp] theorem State.setSession_contexts (k : Nat) (x : Session) : (s.setSession k x).contexts = s.contexts := rfl
@[simp] theorem State.setSession_hotCopies (k : Nat) (x : Session) : (s.setSession k x).hotCopies = s.hotCopies := rfl
@[simp] theorem State.setSession_hotOrder (k : Nat) (x : Session) : (s.setSession k x).hotOrder = s.hotOrder := rfl
@[simp] theorem State.setSession_leafRuns (k : Nat) (x : Session) : (s.setSession k x).leafRuns = s.leafRuns := rfl
@[simp] theorem State.setSession_hubEgress (k : Nat) (x : Session) : (s.setSession k x).hubEgress = s.hubEgress := rfl
@[simp] theorem State.setSession_pages (k : Nat) (x : Session) : (s.setSession k x).pages = s.pages := rfl
@[simp] theorem State.setSession_stockpot (k : Nat) (x : Session) : (s.setSession k x).stockpot = s.stockpot := rfl
@[simp] theorem State.setSession_dmas (k : Nat) (x : Session) : (s.setSession k x).dmas = s.dmas := rfl
@[simp] theorem State.setSession_tgEntries (k : Nat) (x : Session) : (s.setSession k x).tgEntries = s.tgEntries := rfl
@[simp] theorem State.setSession_tgs (k : Nat) (x : Session) : (s.setSession k x).tgs = s.tgs := rfl
@[simp] theorem State.setSession_timeCtl (k : Nat) (x : Session) : (s.setSession k x).timeCtl = s.timeCtl := rfl
@[simp] theorem State.setSession_fpos (k : Nat) (x : Session) : (s.setSession k x).fpos = s.fpos := rfl
@[simp] theorem State.setSession_monitors (k : Nat) (x : Session) : (s.setSession k x).monitors = s.monitors := rfl
@[simp] theorem State.setSession_perf (k : Nat) (x : Session) : (s.setSession k x).perf = s.perf := rfl
@[simp] theorem State.setSession_windows (k : Nat) (x : Session) : (s.setSession k x).windows = s.windows := rfl
@[simp] theorem State.setSession_probes (k : Nat) (x : Session) : (s.setSession k x).probes = s.probes := rfl

@[simp] theorem State.setCanPort_pending (k : Nat) (x : CanPort) : (s.setCanPort k x).pending = s.pending := rfl
@[simp] theorem State.setCanPort_od (k : Nat) (x : CanPort) : (s.setCanPort k x).od = s.od := rfl
@[simp] theorem State.setCanPort_shadow (k : Nat) (x : CanPort) : (s.setCanPort k x).shadow = s.shadow := rfl
@[simp] theorem State.setCanPort_pins (k : Nat) (x : CanPort) : (s.setCanPort k x).pins = s.pins := rfl
@[simp] theorem State.setCanPort_flash (k : Nat) (x : CanPort) : (s.setCanPort k x).flash = s.flash := rfl
@[simp] theorem State.setCanPort_boot (k : Nat) (x : CanPort) : (s.setCanPort k x).boot = s.boot := rfl
@[simp] theorem State.setCanPort_thermal (k : Nat) (x : CanPort) : (s.setCanPort k x).thermal = s.thermal := rfl
@[simp] theorem State.setCanPort_uptime (k : Nat) (x : CanPort) : (s.setCanPort k x).uptime = s.uptime := rfl
@[simp] theorem State.setCanPort_sessions (k : Nat) (x : CanPort) : (s.setCanPort k x).sessions = s.sessions := rfl
@[simp] theorem State.setCanPort_conns (k : Nat) (x : CanPort) : (s.setCanPort k x).conns = s.conns := rfl
@[simp] theorem State.setCanPort_journal (k : Nat) (x : CanPort) : (s.setCanPort k x).journal = s.journal := rfl
@[simp] theorem State.setCanPort_journalNext (k : Nat) (x : CanPort) : (s.setCanPort k x).journalNext = s.journalNext := rfl
@[simp] theorem State.setCanPort_can (k : Nat) (x : CanPort) : (s.setCanPort k x).can = Tbl.put (fun _ => {}) s.can k x := rfl
@[simp] theorem State.setCanPort_mgmtPorts (k : Nat) (x : CanPort) : (s.setCanPort k x).mgmtPorts = s.mgmtPorts := rfl
@[simp] theorem State.setCanPort_scopes (k : Nat) (x : CanPort) : (s.setCanPort k x).scopes = s.scopes := rfl
@[simp] theorem State.setCanPort_sources (k : Nat) (x : CanPort) : (s.setCanPort k x).sources = s.sources := rfl
@[simp] theorem State.setCanPort_injectors (k : Nat) (x : CanPort) : (s.setCanPort k x).injectors = s.injectors := rfl
@[simp] theorem State.setCanPort_domains (k : Nat) (x : CanPort) : (s.setCanPort k x).domains = s.domains := rfl
@[simp] theorem State.setCanPort_holds (k : Nat) (x : CanPort) : (s.setCanPort k x).holds = s.holds := rfl
@[simp] theorem State.setCanPort_outbox (k : Nat) (x : CanPort) : (s.setCanPort k x).outbox = s.outbox := rfl
@[simp] theorem State.setCanPort_freeCount (k : Nat) (x : CanPort) : (s.setCanPort k x).freeCount = s.freeCount := rfl
@[simp] theorem State.setCanPort_moduleTime (k : Nat) (x : CanPort) : (s.setCanPort k x).moduleTime = s.moduleTime := rfl
@[simp] theorem State.setCanPort_perfInjected (k : Nat) (x : CanPort) : (s.setCanPort k x).perfInjected = s.perfInjected := rfl
@[simp] theorem State.setCanPort_engines (k : Nat) (x : CanPort) : (s.setCanPort k x).engines = s.engines := rfl
@[simp] theorem State.setCanPort_lanes (k : Nat) (x : CanPort) : (s.setCanPort k x).lanes = s.lanes := rfl
@[simp] theorem State.setCanPort_members (k : Nat) (x : CanPort) : (s.setCanPort k x).members = s.members := rfl
@[simp] theorem State.setCanPort_pfcSent (k : Nat) (x : CanPort) : (s.setCanPort k x).pfcSent = s.pfcSent := rfl
@[simp] theorem State.setCanPort_trays (k : Nat) (x : CanPort) : (s.setCanPort k x).trays = s.trays := rfl
@[simp] theorem State.setCanPort_keys (k : Nat) (x : CanPort) : (s.setCanPort k x).keys = s.keys := rfl
@[simp] theorem State.setCanPort_kek (k : Nat) (x : CanPort) : (s.setCanPort k x).kek = s.kek := rfl
@[simp] theorem State.setCanPort_hubs (k : Nat) (x : CanPort) : (s.setCanPort k x).hubs = s.hubs := rfl
@[simp] theorem State.setCanPort_contexts (k : Nat) (x : CanPort) : (s.setCanPort k x).contexts = s.contexts := rfl
@[simp] theorem State.setCanPort_hotCopies (k : Nat) (x : CanPort) : (s.setCanPort k x).hotCopies = s.hotCopies := rfl
@[simp] theorem State.setCanPort_hotOrder (k : Nat) (x : CanPort) : (s.setCanPort k x).hotOrder = s.hotOrder := rfl
@[simp] theorem State.setCanPort_leafRuns (k : Nat) (x : CanPort) : (s.setCanPort k x).leafRuns = s.leafRuns := rfl
@[simp] theorem State.setCanPort_hubEgress (k : Nat) (x : CanPort) : (s.setCanPort k x).hubEgress = s.hubEgress := rfl
@[simp] theorem State.setCanPort_pages (k : Nat) (x : CanPort) : (s.setCanPort k x).pages = s.pages := rfl
@[simp] theorem State.setCanPort_stockpot (k : Nat) (x : CanPort) : (s.setCanPort k x).stockpot = s.stockpot := rfl
@[simp] theorem State.setCanPort_dmas (k : Nat) (x : CanPort) : (s.setCanPort k x).dmas = s.dmas := rfl
@[simp] theorem State.setCanPort_tgEntries (k : Nat) (x : CanPort) : (s.setCanPort k x).tgEntries = s.tgEntries := rfl
@[simp] theorem State.setCanPort_tgs (k : Nat) (x : CanPort) : (s.setCanPort k x).tgs = s.tgs := rfl
@[simp] theorem State.setCanPort_timeCtl (k : Nat) (x : CanPort) : (s.setCanPort k x).timeCtl = s.timeCtl := rfl
@[simp] theorem State.setCanPort_fpos (k : Nat) (x : CanPort) : (s.setCanPort k x).fpos = s.fpos := rfl
@[simp] theorem State.setCanPort_monitors (k : Nat) (x : CanPort) : (s.setCanPort k x).monitors = s.monitors := rfl
@[simp] theorem State.setCanPort_perf (k : Nat) (x : CanPort) : (s.setCanPort k x).perf = s.perf := rfl
@[simp] theorem State.setCanPort_windows (k : Nat) (x : CanPort) : (s.setCanPort k x).windows = s.windows := rfl
@[simp] theorem State.setCanPort_probes (k : Nat) (x : CanPort) : (s.setCanPort k x).probes = s.probes := rfl

@[simp] theorem State.setMgmtPort_pending (k : Nat) (x : MgmtPort) : (s.setMgmtPort k x).pending = s.pending := rfl
@[simp] theorem State.setMgmtPort_od (k : Nat) (x : MgmtPort) : (s.setMgmtPort k x).od = s.od := rfl
@[simp] theorem State.setMgmtPort_shadow (k : Nat) (x : MgmtPort) : (s.setMgmtPort k x).shadow = s.shadow := rfl
@[simp] theorem State.setMgmtPort_pins (k : Nat) (x : MgmtPort) : (s.setMgmtPort k x).pins = s.pins := rfl
@[simp] theorem State.setMgmtPort_flash (k : Nat) (x : MgmtPort) : (s.setMgmtPort k x).flash = s.flash := rfl
@[simp] theorem State.setMgmtPort_boot (k : Nat) (x : MgmtPort) : (s.setMgmtPort k x).boot = s.boot := rfl
@[simp] theorem State.setMgmtPort_thermal (k : Nat) (x : MgmtPort) : (s.setMgmtPort k x).thermal = s.thermal := rfl
@[simp] theorem State.setMgmtPort_uptime (k : Nat) (x : MgmtPort) : (s.setMgmtPort k x).uptime = s.uptime := rfl
@[simp] theorem State.setMgmtPort_sessions (k : Nat) (x : MgmtPort) : (s.setMgmtPort k x).sessions = s.sessions := rfl
@[simp] theorem State.setMgmtPort_conns (k : Nat) (x : MgmtPort) : (s.setMgmtPort k x).conns = s.conns := rfl
@[simp] theorem State.setMgmtPort_journal (k : Nat) (x : MgmtPort) : (s.setMgmtPort k x).journal = s.journal := rfl
@[simp] theorem State.setMgmtPort_journalNext (k : Nat) (x : MgmtPort) : (s.setMgmtPort k x).journalNext = s.journalNext := rfl
@[simp] theorem State.setMgmtPort_can (k : Nat) (x : MgmtPort) : (s.setMgmtPort k x).can = s.can := rfl
@[simp] theorem State.setMgmtPort_mgmtPorts (k : Nat) (x : MgmtPort) : (s.setMgmtPort k x).mgmtPorts = Tbl.put (fun _ => {}) s.mgmtPorts k x := rfl
@[simp] theorem State.setMgmtPort_scopes (k : Nat) (x : MgmtPort) : (s.setMgmtPort k x).scopes = s.scopes := rfl
@[simp] theorem State.setMgmtPort_sources (k : Nat) (x : MgmtPort) : (s.setMgmtPort k x).sources = s.sources := rfl
@[simp] theorem State.setMgmtPort_injectors (k : Nat) (x : MgmtPort) : (s.setMgmtPort k x).injectors = s.injectors := rfl
@[simp] theorem State.setMgmtPort_domains (k : Nat) (x : MgmtPort) : (s.setMgmtPort k x).domains = s.domains := rfl
@[simp] theorem State.setMgmtPort_holds (k : Nat) (x : MgmtPort) : (s.setMgmtPort k x).holds = s.holds := rfl
@[simp] theorem State.setMgmtPort_outbox (k : Nat) (x : MgmtPort) : (s.setMgmtPort k x).outbox = s.outbox := rfl
@[simp] theorem State.setMgmtPort_freeCount (k : Nat) (x : MgmtPort) : (s.setMgmtPort k x).freeCount = s.freeCount := rfl
@[simp] theorem State.setMgmtPort_moduleTime (k : Nat) (x : MgmtPort) : (s.setMgmtPort k x).moduleTime = s.moduleTime := rfl
@[simp] theorem State.setMgmtPort_perfInjected (k : Nat) (x : MgmtPort) : (s.setMgmtPort k x).perfInjected = s.perfInjected := rfl
@[simp] theorem State.setMgmtPort_engines (k : Nat) (x : MgmtPort) : (s.setMgmtPort k x).engines = s.engines := rfl
@[simp] theorem State.setMgmtPort_lanes (k : Nat) (x : MgmtPort) : (s.setMgmtPort k x).lanes = s.lanes := rfl
@[simp] theorem State.setMgmtPort_members (k : Nat) (x : MgmtPort) : (s.setMgmtPort k x).members = s.members := rfl
@[simp] theorem State.setMgmtPort_pfcSent (k : Nat) (x : MgmtPort) : (s.setMgmtPort k x).pfcSent = s.pfcSent := rfl
@[simp] theorem State.setMgmtPort_trays (k : Nat) (x : MgmtPort) : (s.setMgmtPort k x).trays = s.trays := rfl
@[simp] theorem State.setMgmtPort_keys (k : Nat) (x : MgmtPort) : (s.setMgmtPort k x).keys = s.keys := rfl
@[simp] theorem State.setMgmtPort_kek (k : Nat) (x : MgmtPort) : (s.setMgmtPort k x).kek = s.kek := rfl
@[simp] theorem State.setMgmtPort_hubs (k : Nat) (x : MgmtPort) : (s.setMgmtPort k x).hubs = s.hubs := rfl
@[simp] theorem State.setMgmtPort_contexts (k : Nat) (x : MgmtPort) : (s.setMgmtPort k x).contexts = s.contexts := rfl
@[simp] theorem State.setMgmtPort_hotCopies (k : Nat) (x : MgmtPort) : (s.setMgmtPort k x).hotCopies = s.hotCopies := rfl
@[simp] theorem State.setMgmtPort_hotOrder (k : Nat) (x : MgmtPort) : (s.setMgmtPort k x).hotOrder = s.hotOrder := rfl
@[simp] theorem State.setMgmtPort_leafRuns (k : Nat) (x : MgmtPort) : (s.setMgmtPort k x).leafRuns = s.leafRuns := rfl
@[simp] theorem State.setMgmtPort_hubEgress (k : Nat) (x : MgmtPort) : (s.setMgmtPort k x).hubEgress = s.hubEgress := rfl
@[simp] theorem State.setMgmtPort_pages (k : Nat) (x : MgmtPort) : (s.setMgmtPort k x).pages = s.pages := rfl
@[simp] theorem State.setMgmtPort_stockpot (k : Nat) (x : MgmtPort) : (s.setMgmtPort k x).stockpot = s.stockpot := rfl
@[simp] theorem State.setMgmtPort_dmas (k : Nat) (x : MgmtPort) : (s.setMgmtPort k x).dmas = s.dmas := rfl
@[simp] theorem State.setMgmtPort_tgEntries (k : Nat) (x : MgmtPort) : (s.setMgmtPort k x).tgEntries = s.tgEntries := rfl
@[simp] theorem State.setMgmtPort_tgs (k : Nat) (x : MgmtPort) : (s.setMgmtPort k x).tgs = s.tgs := rfl
@[simp] theorem State.setMgmtPort_timeCtl (k : Nat) (x : MgmtPort) : (s.setMgmtPort k x).timeCtl = s.timeCtl := rfl
@[simp] theorem State.setMgmtPort_fpos (k : Nat) (x : MgmtPort) : (s.setMgmtPort k x).fpos = s.fpos := rfl
@[simp] theorem State.setMgmtPort_monitors (k : Nat) (x : MgmtPort) : (s.setMgmtPort k x).monitors = s.monitors := rfl
@[simp] theorem State.setMgmtPort_perf (k : Nat) (x : MgmtPort) : (s.setMgmtPort k x).perf = s.perf := rfl
@[simp] theorem State.setMgmtPort_windows (k : Nat) (x : MgmtPort) : (s.setMgmtPort k x).windows = s.windows := rfl
@[simp] theorem State.setMgmtPort_probes (k : Nat) (x : MgmtPort) : (s.setMgmtPort k x).probes = s.probes := rfl

@[simp] theorem State.setScope_pending (k : Nat) (x : Scope) : (s.setScope k x).pending = s.pending := rfl
@[simp] theorem State.setScope_od (k : Nat) (x : Scope) : (s.setScope k x).od = s.od := rfl
@[simp] theorem State.setScope_shadow (k : Nat) (x : Scope) : (s.setScope k x).shadow = s.shadow := rfl
@[simp] theorem State.setScope_pins (k : Nat) (x : Scope) : (s.setScope k x).pins = s.pins := rfl
@[simp] theorem State.setScope_flash (k : Nat) (x : Scope) : (s.setScope k x).flash = s.flash := rfl
@[simp] theorem State.setScope_boot (k : Nat) (x : Scope) : (s.setScope k x).boot = s.boot := rfl
@[simp] theorem State.setScope_thermal (k : Nat) (x : Scope) : (s.setScope k x).thermal = s.thermal := rfl
@[simp] theorem State.setScope_uptime (k : Nat) (x : Scope) : (s.setScope k x).uptime = s.uptime := rfl
@[simp] theorem State.setScope_sessions (k : Nat) (x : Scope) : (s.setScope k x).sessions = s.sessions := rfl
@[simp] theorem State.setScope_conns (k : Nat) (x : Scope) : (s.setScope k x).conns = s.conns := rfl
@[simp] theorem State.setScope_journal (k : Nat) (x : Scope) : (s.setScope k x).journal = s.journal := rfl
@[simp] theorem State.setScope_journalNext (k : Nat) (x : Scope) : (s.setScope k x).journalNext = s.journalNext := rfl
@[simp] theorem State.setScope_can (k : Nat) (x : Scope) : (s.setScope k x).can = s.can := rfl
@[simp] theorem State.setScope_mgmtPorts (k : Nat) (x : Scope) : (s.setScope k x).mgmtPorts = s.mgmtPorts := rfl
@[simp] theorem State.setScope_scopes (k : Nat) (x : Scope) : (s.setScope k x).scopes = Tbl.put (fun _ => {}) s.scopes k x := rfl
@[simp] theorem State.setScope_sources (k : Nat) (x : Scope) : (s.setScope k x).sources = s.sources := rfl
@[simp] theorem State.setScope_injectors (k : Nat) (x : Scope) : (s.setScope k x).injectors = s.injectors := rfl
@[simp] theorem State.setScope_domains (k : Nat) (x : Scope) : (s.setScope k x).domains = s.domains := rfl
@[simp] theorem State.setScope_holds (k : Nat) (x : Scope) : (s.setScope k x).holds = s.holds := rfl
@[simp] theorem State.setScope_outbox (k : Nat) (x : Scope) : (s.setScope k x).outbox = s.outbox := rfl
@[simp] theorem State.setScope_freeCount (k : Nat) (x : Scope) : (s.setScope k x).freeCount = s.freeCount := rfl
@[simp] theorem State.setScope_moduleTime (k : Nat) (x : Scope) : (s.setScope k x).moduleTime = s.moduleTime := rfl
@[simp] theorem State.setScope_perfInjected (k : Nat) (x : Scope) : (s.setScope k x).perfInjected = s.perfInjected := rfl
@[simp] theorem State.setScope_engines (k : Nat) (x : Scope) : (s.setScope k x).engines = s.engines := rfl
@[simp] theorem State.setScope_lanes (k : Nat) (x : Scope) : (s.setScope k x).lanes = s.lanes := rfl
@[simp] theorem State.setScope_members (k : Nat) (x : Scope) : (s.setScope k x).members = s.members := rfl
@[simp] theorem State.setScope_pfcSent (k : Nat) (x : Scope) : (s.setScope k x).pfcSent = s.pfcSent := rfl
@[simp] theorem State.setScope_trays (k : Nat) (x : Scope) : (s.setScope k x).trays = s.trays := rfl
@[simp] theorem State.setScope_keys (k : Nat) (x : Scope) : (s.setScope k x).keys = s.keys := rfl
@[simp] theorem State.setScope_kek (k : Nat) (x : Scope) : (s.setScope k x).kek = s.kek := rfl
@[simp] theorem State.setScope_hubs (k : Nat) (x : Scope) : (s.setScope k x).hubs = s.hubs := rfl
@[simp] theorem State.setScope_contexts (k : Nat) (x : Scope) : (s.setScope k x).contexts = s.contexts := rfl
@[simp] theorem State.setScope_hotCopies (k : Nat) (x : Scope) : (s.setScope k x).hotCopies = s.hotCopies := rfl
@[simp] theorem State.setScope_hotOrder (k : Nat) (x : Scope) : (s.setScope k x).hotOrder = s.hotOrder := rfl
@[simp] theorem State.setScope_leafRuns (k : Nat) (x : Scope) : (s.setScope k x).leafRuns = s.leafRuns := rfl
@[simp] theorem State.setScope_hubEgress (k : Nat) (x : Scope) : (s.setScope k x).hubEgress = s.hubEgress := rfl
@[simp] theorem State.setScope_pages (k : Nat) (x : Scope) : (s.setScope k x).pages = s.pages := rfl
@[simp] theorem State.setScope_stockpot (k : Nat) (x : Scope) : (s.setScope k x).stockpot = s.stockpot := rfl
@[simp] theorem State.setScope_dmas (k : Nat) (x : Scope) : (s.setScope k x).dmas = s.dmas := rfl
@[simp] theorem State.setScope_tgEntries (k : Nat) (x : Scope) : (s.setScope k x).tgEntries = s.tgEntries := rfl
@[simp] theorem State.setScope_tgs (k : Nat) (x : Scope) : (s.setScope k x).tgs = s.tgs := rfl
@[simp] theorem State.setScope_timeCtl (k : Nat) (x : Scope) : (s.setScope k x).timeCtl = s.timeCtl := rfl
@[simp] theorem State.setScope_fpos (k : Nat) (x : Scope) : (s.setScope k x).fpos = s.fpos := rfl
@[simp] theorem State.setScope_monitors (k : Nat) (x : Scope) : (s.setScope k x).monitors = s.monitors := rfl
@[simp] theorem State.setScope_perf (k : Nat) (x : Scope) : (s.setScope k x).perf = s.perf := rfl
@[simp] theorem State.setScope_windows (k : Nat) (x : Scope) : (s.setScope k x).windows = s.windows := rfl
@[simp] theorem State.setScope_probes (k : Nat) (x : Scope) : (s.setScope k x).probes = s.probes := rfl

@[simp] theorem State.setSource_pending (k : Nat) (x : Source) : (s.setSource k x).pending = s.pending := rfl
@[simp] theorem State.setSource_od (k : Nat) (x : Source) : (s.setSource k x).od = s.od := rfl
@[simp] theorem State.setSource_shadow (k : Nat) (x : Source) : (s.setSource k x).shadow = s.shadow := rfl
@[simp] theorem State.setSource_pins (k : Nat) (x : Source) : (s.setSource k x).pins = s.pins := rfl
@[simp] theorem State.setSource_flash (k : Nat) (x : Source) : (s.setSource k x).flash = s.flash := rfl
@[simp] theorem State.setSource_boot (k : Nat) (x : Source) : (s.setSource k x).boot = s.boot := rfl
@[simp] theorem State.setSource_thermal (k : Nat) (x : Source) : (s.setSource k x).thermal = s.thermal := rfl
@[simp] theorem State.setSource_uptime (k : Nat) (x : Source) : (s.setSource k x).uptime = s.uptime := rfl
@[simp] theorem State.setSource_sessions (k : Nat) (x : Source) : (s.setSource k x).sessions = s.sessions := rfl
@[simp] theorem State.setSource_conns (k : Nat) (x : Source) : (s.setSource k x).conns = s.conns := rfl
@[simp] theorem State.setSource_journal (k : Nat) (x : Source) : (s.setSource k x).journal = s.journal := rfl
@[simp] theorem State.setSource_journalNext (k : Nat) (x : Source) : (s.setSource k x).journalNext = s.journalNext := rfl
@[simp] theorem State.setSource_can (k : Nat) (x : Source) : (s.setSource k x).can = s.can := rfl
@[simp] theorem State.setSource_mgmtPorts (k : Nat) (x : Source) : (s.setSource k x).mgmtPorts = s.mgmtPorts := rfl
@[simp] theorem State.setSource_scopes (k : Nat) (x : Source) : (s.setSource k x).scopes = s.scopes := rfl
@[simp] theorem State.setSource_sources (k : Nat) (x : Source) : (s.setSource k x).sources = Tbl.put (fun _ => {}) s.sources k x := rfl
@[simp] theorem State.setSource_injectors (k : Nat) (x : Source) : (s.setSource k x).injectors = s.injectors := rfl
@[simp] theorem State.setSource_domains (k : Nat) (x : Source) : (s.setSource k x).domains = s.domains := rfl
@[simp] theorem State.setSource_holds (k : Nat) (x : Source) : (s.setSource k x).holds = s.holds := rfl
@[simp] theorem State.setSource_outbox (k : Nat) (x : Source) : (s.setSource k x).outbox = s.outbox := rfl
@[simp] theorem State.setSource_freeCount (k : Nat) (x : Source) : (s.setSource k x).freeCount = s.freeCount := rfl
@[simp] theorem State.setSource_moduleTime (k : Nat) (x : Source) : (s.setSource k x).moduleTime = s.moduleTime := rfl
@[simp] theorem State.setSource_perfInjected (k : Nat) (x : Source) : (s.setSource k x).perfInjected = s.perfInjected := rfl
@[simp] theorem State.setSource_engines (k : Nat) (x : Source) : (s.setSource k x).engines = s.engines := rfl
@[simp] theorem State.setSource_lanes (k : Nat) (x : Source) : (s.setSource k x).lanes = s.lanes := rfl
@[simp] theorem State.setSource_members (k : Nat) (x : Source) : (s.setSource k x).members = s.members := rfl
@[simp] theorem State.setSource_pfcSent (k : Nat) (x : Source) : (s.setSource k x).pfcSent = s.pfcSent := rfl
@[simp] theorem State.setSource_trays (k : Nat) (x : Source) : (s.setSource k x).trays = s.trays := rfl
@[simp] theorem State.setSource_keys (k : Nat) (x : Source) : (s.setSource k x).keys = s.keys := rfl
@[simp] theorem State.setSource_kek (k : Nat) (x : Source) : (s.setSource k x).kek = s.kek := rfl
@[simp] theorem State.setSource_hubs (k : Nat) (x : Source) : (s.setSource k x).hubs = s.hubs := rfl
@[simp] theorem State.setSource_contexts (k : Nat) (x : Source) : (s.setSource k x).contexts = s.contexts := rfl
@[simp] theorem State.setSource_hotCopies (k : Nat) (x : Source) : (s.setSource k x).hotCopies = s.hotCopies := rfl
@[simp] theorem State.setSource_hotOrder (k : Nat) (x : Source) : (s.setSource k x).hotOrder = s.hotOrder := rfl
@[simp] theorem State.setSource_leafRuns (k : Nat) (x : Source) : (s.setSource k x).leafRuns = s.leafRuns := rfl
@[simp] theorem State.setSource_hubEgress (k : Nat) (x : Source) : (s.setSource k x).hubEgress = s.hubEgress := rfl
@[simp] theorem State.setSource_pages (k : Nat) (x : Source) : (s.setSource k x).pages = s.pages := rfl
@[simp] theorem State.setSource_stockpot (k : Nat) (x : Source) : (s.setSource k x).stockpot = s.stockpot := rfl
@[simp] theorem State.setSource_dmas (k : Nat) (x : Source) : (s.setSource k x).dmas = s.dmas := rfl
@[simp] theorem State.setSource_tgEntries (k : Nat) (x : Source) : (s.setSource k x).tgEntries = s.tgEntries := rfl
@[simp] theorem State.setSource_tgs (k : Nat) (x : Source) : (s.setSource k x).tgs = s.tgs := rfl
@[simp] theorem State.setSource_timeCtl (k : Nat) (x : Source) : (s.setSource k x).timeCtl = s.timeCtl := rfl
@[simp] theorem State.setSource_fpos (k : Nat) (x : Source) : (s.setSource k x).fpos = s.fpos := rfl
@[simp] theorem State.setSource_monitors (k : Nat) (x : Source) : (s.setSource k x).monitors = s.monitors := rfl
@[simp] theorem State.setSource_perf (k : Nat) (x : Source) : (s.setSource k x).perf = s.perf := rfl
@[simp] theorem State.setSource_windows (k : Nat) (x : Source) : (s.setSource k x).windows = s.windows := rfl
@[simp] theorem State.setSource_probes (k : Nat) (x : Source) : (s.setSource k x).probes = s.probes := rfl

@[simp] theorem State.setInjector_pending (k : Nat) (x : Injector) : (s.setInjector k x).pending = s.pending := rfl
@[simp] theorem State.setInjector_od (k : Nat) (x : Injector) : (s.setInjector k x).od = s.od := rfl
@[simp] theorem State.setInjector_shadow (k : Nat) (x : Injector) : (s.setInjector k x).shadow = s.shadow := rfl
@[simp] theorem State.setInjector_pins (k : Nat) (x : Injector) : (s.setInjector k x).pins = s.pins := rfl
@[simp] theorem State.setInjector_flash (k : Nat) (x : Injector) : (s.setInjector k x).flash = s.flash := rfl
@[simp] theorem State.setInjector_boot (k : Nat) (x : Injector) : (s.setInjector k x).boot = s.boot := rfl
@[simp] theorem State.setInjector_thermal (k : Nat) (x : Injector) : (s.setInjector k x).thermal = s.thermal := rfl
@[simp] theorem State.setInjector_uptime (k : Nat) (x : Injector) : (s.setInjector k x).uptime = s.uptime := rfl
@[simp] theorem State.setInjector_sessions (k : Nat) (x : Injector) : (s.setInjector k x).sessions = s.sessions := rfl
@[simp] theorem State.setInjector_conns (k : Nat) (x : Injector) : (s.setInjector k x).conns = s.conns := rfl
@[simp] theorem State.setInjector_journal (k : Nat) (x : Injector) : (s.setInjector k x).journal = s.journal := rfl
@[simp] theorem State.setInjector_journalNext (k : Nat) (x : Injector) : (s.setInjector k x).journalNext = s.journalNext := rfl
@[simp] theorem State.setInjector_can (k : Nat) (x : Injector) : (s.setInjector k x).can = s.can := rfl
@[simp] theorem State.setInjector_mgmtPorts (k : Nat) (x : Injector) : (s.setInjector k x).mgmtPorts = s.mgmtPorts := rfl
@[simp] theorem State.setInjector_scopes (k : Nat) (x : Injector) : (s.setInjector k x).scopes = s.scopes := rfl
@[simp] theorem State.setInjector_sources (k : Nat) (x : Injector) : (s.setInjector k x).sources = s.sources := rfl
@[simp] theorem State.setInjector_injectors (k : Nat) (x : Injector) : (s.setInjector k x).injectors = Tbl.put (fun _ => {}) s.injectors k x := rfl
@[simp] theorem State.setInjector_domains (k : Nat) (x : Injector) : (s.setInjector k x).domains = s.domains := rfl
@[simp] theorem State.setInjector_holds (k : Nat) (x : Injector) : (s.setInjector k x).holds = s.holds := rfl
@[simp] theorem State.setInjector_outbox (k : Nat) (x : Injector) : (s.setInjector k x).outbox = s.outbox := rfl
@[simp] theorem State.setInjector_freeCount (k : Nat) (x : Injector) : (s.setInjector k x).freeCount = s.freeCount := rfl
@[simp] theorem State.setInjector_moduleTime (k : Nat) (x : Injector) : (s.setInjector k x).moduleTime = s.moduleTime := rfl
@[simp] theorem State.setInjector_perfInjected (k : Nat) (x : Injector) : (s.setInjector k x).perfInjected = s.perfInjected := rfl
@[simp] theorem State.setInjector_engines (k : Nat) (x : Injector) : (s.setInjector k x).engines = s.engines := rfl
@[simp] theorem State.setInjector_lanes (k : Nat) (x : Injector) : (s.setInjector k x).lanes = s.lanes := rfl
@[simp] theorem State.setInjector_members (k : Nat) (x : Injector) : (s.setInjector k x).members = s.members := rfl
@[simp] theorem State.setInjector_pfcSent (k : Nat) (x : Injector) : (s.setInjector k x).pfcSent = s.pfcSent := rfl
@[simp] theorem State.setInjector_trays (k : Nat) (x : Injector) : (s.setInjector k x).trays = s.trays := rfl
@[simp] theorem State.setInjector_keys (k : Nat) (x : Injector) : (s.setInjector k x).keys = s.keys := rfl
@[simp] theorem State.setInjector_kek (k : Nat) (x : Injector) : (s.setInjector k x).kek = s.kek := rfl
@[simp] theorem State.setInjector_hubs (k : Nat) (x : Injector) : (s.setInjector k x).hubs = s.hubs := rfl
@[simp] theorem State.setInjector_contexts (k : Nat) (x : Injector) : (s.setInjector k x).contexts = s.contexts := rfl
@[simp] theorem State.setInjector_hotCopies (k : Nat) (x : Injector) : (s.setInjector k x).hotCopies = s.hotCopies := rfl
@[simp] theorem State.setInjector_hotOrder (k : Nat) (x : Injector) : (s.setInjector k x).hotOrder = s.hotOrder := rfl
@[simp] theorem State.setInjector_leafRuns (k : Nat) (x : Injector) : (s.setInjector k x).leafRuns = s.leafRuns := rfl
@[simp] theorem State.setInjector_hubEgress (k : Nat) (x : Injector) : (s.setInjector k x).hubEgress = s.hubEgress := rfl
@[simp] theorem State.setInjector_pages (k : Nat) (x : Injector) : (s.setInjector k x).pages = s.pages := rfl
@[simp] theorem State.setInjector_stockpot (k : Nat) (x : Injector) : (s.setInjector k x).stockpot = s.stockpot := rfl
@[simp] theorem State.setInjector_dmas (k : Nat) (x : Injector) : (s.setInjector k x).dmas = s.dmas := rfl
@[simp] theorem State.setInjector_tgEntries (k : Nat) (x : Injector) : (s.setInjector k x).tgEntries = s.tgEntries := rfl
@[simp] theorem State.setInjector_tgs (k : Nat) (x : Injector) : (s.setInjector k x).tgs = s.tgs := rfl
@[simp] theorem State.setInjector_timeCtl (k : Nat) (x : Injector) : (s.setInjector k x).timeCtl = s.timeCtl := rfl
@[simp] theorem State.setInjector_fpos (k : Nat) (x : Injector) : (s.setInjector k x).fpos = s.fpos := rfl
@[simp] theorem State.setInjector_monitors (k : Nat) (x : Injector) : (s.setInjector k x).monitors = s.monitors := rfl
@[simp] theorem State.setInjector_perf (k : Nat) (x : Injector) : (s.setInjector k x).perf = s.perf := rfl
@[simp] theorem State.setInjector_windows (k : Nat) (x : Injector) : (s.setInjector k x).windows = s.windows := rfl
@[simp] theorem State.setInjector_probes (k : Nat) (x : Injector) : (s.setInjector k x).probes = s.probes := rfl

@[simp] theorem State.setDomain_pending (k : Nat) (x : Domain) : (s.setDomain k x).pending = s.pending := rfl
@[simp] theorem State.setDomain_od (k : Nat) (x : Domain) : (s.setDomain k x).od = s.od := rfl
@[simp] theorem State.setDomain_shadow (k : Nat) (x : Domain) : (s.setDomain k x).shadow = s.shadow := rfl
@[simp] theorem State.setDomain_pins (k : Nat) (x : Domain) : (s.setDomain k x).pins = s.pins := rfl
@[simp] theorem State.setDomain_flash (k : Nat) (x : Domain) : (s.setDomain k x).flash = s.flash := rfl
@[simp] theorem State.setDomain_boot (k : Nat) (x : Domain) : (s.setDomain k x).boot = s.boot := rfl
@[simp] theorem State.setDomain_thermal (k : Nat) (x : Domain) : (s.setDomain k x).thermal = s.thermal := rfl
@[simp] theorem State.setDomain_uptime (k : Nat) (x : Domain) : (s.setDomain k x).uptime = s.uptime := rfl
@[simp] theorem State.setDomain_sessions (k : Nat) (x : Domain) : (s.setDomain k x).sessions = s.sessions := rfl
@[simp] theorem State.setDomain_conns (k : Nat) (x : Domain) : (s.setDomain k x).conns = s.conns := rfl
@[simp] theorem State.setDomain_journal (k : Nat) (x : Domain) : (s.setDomain k x).journal = s.journal := rfl
@[simp] theorem State.setDomain_journalNext (k : Nat) (x : Domain) : (s.setDomain k x).journalNext = s.journalNext := rfl
@[simp] theorem State.setDomain_can (k : Nat) (x : Domain) : (s.setDomain k x).can = s.can := rfl
@[simp] theorem State.setDomain_mgmtPorts (k : Nat) (x : Domain) : (s.setDomain k x).mgmtPorts = s.mgmtPorts := rfl
@[simp] theorem State.setDomain_scopes (k : Nat) (x : Domain) : (s.setDomain k x).scopes = s.scopes := rfl
@[simp] theorem State.setDomain_sources (k : Nat) (x : Domain) : (s.setDomain k x).sources = s.sources := rfl
@[simp] theorem State.setDomain_injectors (k : Nat) (x : Domain) : (s.setDomain k x).injectors = s.injectors := rfl
@[simp] theorem State.setDomain_domains (k : Nat) (x : Domain) : (s.setDomain k x).domains = Tbl.put (fun _ => {}) s.domains k x := rfl
@[simp] theorem State.setDomain_holds (k : Nat) (x : Domain) : (s.setDomain k x).holds = s.holds := rfl
@[simp] theorem State.setDomain_outbox (k : Nat) (x : Domain) : (s.setDomain k x).outbox = s.outbox := rfl
@[simp] theorem State.setDomain_freeCount (k : Nat) (x : Domain) : (s.setDomain k x).freeCount = s.freeCount := rfl
@[simp] theorem State.setDomain_moduleTime (k : Nat) (x : Domain) : (s.setDomain k x).moduleTime = s.moduleTime := rfl
@[simp] theorem State.setDomain_perfInjected (k : Nat) (x : Domain) : (s.setDomain k x).perfInjected = s.perfInjected := rfl
@[simp] theorem State.setDomain_engines (k : Nat) (x : Domain) : (s.setDomain k x).engines = s.engines := rfl
@[simp] theorem State.setDomain_lanes (k : Nat) (x : Domain) : (s.setDomain k x).lanes = s.lanes := rfl
@[simp] theorem State.setDomain_members (k : Nat) (x : Domain) : (s.setDomain k x).members = s.members := rfl
@[simp] theorem State.setDomain_pfcSent (k : Nat) (x : Domain) : (s.setDomain k x).pfcSent = s.pfcSent := rfl
@[simp] theorem State.setDomain_trays (k : Nat) (x : Domain) : (s.setDomain k x).trays = s.trays := rfl
@[simp] theorem State.setDomain_keys (k : Nat) (x : Domain) : (s.setDomain k x).keys = s.keys := rfl
@[simp] theorem State.setDomain_kek (k : Nat) (x : Domain) : (s.setDomain k x).kek = s.kek := rfl
@[simp] theorem State.setDomain_hubs (k : Nat) (x : Domain) : (s.setDomain k x).hubs = s.hubs := rfl
@[simp] theorem State.setDomain_contexts (k : Nat) (x : Domain) : (s.setDomain k x).contexts = s.contexts := rfl
@[simp] theorem State.setDomain_hotCopies (k : Nat) (x : Domain) : (s.setDomain k x).hotCopies = s.hotCopies := rfl
@[simp] theorem State.setDomain_hotOrder (k : Nat) (x : Domain) : (s.setDomain k x).hotOrder = s.hotOrder := rfl
@[simp] theorem State.setDomain_leafRuns (k : Nat) (x : Domain) : (s.setDomain k x).leafRuns = s.leafRuns := rfl
@[simp] theorem State.setDomain_hubEgress (k : Nat) (x : Domain) : (s.setDomain k x).hubEgress = s.hubEgress := rfl
@[simp] theorem State.setDomain_pages (k : Nat) (x : Domain) : (s.setDomain k x).pages = s.pages := rfl
@[simp] theorem State.setDomain_stockpot (k : Nat) (x : Domain) : (s.setDomain k x).stockpot = s.stockpot := rfl
@[simp] theorem State.setDomain_dmas (k : Nat) (x : Domain) : (s.setDomain k x).dmas = s.dmas := rfl
@[simp] theorem State.setDomain_tgEntries (k : Nat) (x : Domain) : (s.setDomain k x).tgEntries = s.tgEntries := rfl
@[simp] theorem State.setDomain_tgs (k : Nat) (x : Domain) : (s.setDomain k x).tgs = s.tgs := rfl
@[simp] theorem State.setDomain_timeCtl (k : Nat) (x : Domain) : (s.setDomain k x).timeCtl = s.timeCtl := rfl
@[simp] theorem State.setDomain_fpos (k : Nat) (x : Domain) : (s.setDomain k x).fpos = s.fpos := rfl
@[simp] theorem State.setDomain_monitors (k : Nat) (x : Domain) : (s.setDomain k x).monitors = s.monitors := rfl
@[simp] theorem State.setDomain_perf (k : Nat) (x : Domain) : (s.setDomain k x).perf = s.perf := rfl
@[simp] theorem State.setDomain_windows (k : Nat) (x : Domain) : (s.setDomain k x).windows = s.windows := rfl
@[simp] theorem State.setDomain_probes (k : Nat) (x : Domain) : (s.setDomain k x).probes = s.probes := rfl

@[simp] theorem State.setEngine_pending (k : Nat) (x : Engine) : (s.setEngine k x).pending = s.pending := rfl
@[simp] theorem State.setEngine_od (k : Nat) (x : Engine) : (s.setEngine k x).od = s.od := rfl
@[simp] theorem State.setEngine_shadow (k : Nat) (x : Engine) : (s.setEngine k x).shadow = s.shadow := rfl
@[simp] theorem State.setEngine_pins (k : Nat) (x : Engine) : (s.setEngine k x).pins = s.pins := rfl
@[simp] theorem State.setEngine_flash (k : Nat) (x : Engine) : (s.setEngine k x).flash = s.flash := rfl
@[simp] theorem State.setEngine_boot (k : Nat) (x : Engine) : (s.setEngine k x).boot = s.boot := rfl
@[simp] theorem State.setEngine_thermal (k : Nat) (x : Engine) : (s.setEngine k x).thermal = s.thermal := rfl
@[simp] theorem State.setEngine_uptime (k : Nat) (x : Engine) : (s.setEngine k x).uptime = s.uptime := rfl
@[simp] theorem State.setEngine_sessions (k : Nat) (x : Engine) : (s.setEngine k x).sessions = s.sessions := rfl
@[simp] theorem State.setEngine_conns (k : Nat) (x : Engine) : (s.setEngine k x).conns = s.conns := rfl
@[simp] theorem State.setEngine_journal (k : Nat) (x : Engine) : (s.setEngine k x).journal = s.journal := rfl
@[simp] theorem State.setEngine_journalNext (k : Nat) (x : Engine) : (s.setEngine k x).journalNext = s.journalNext := rfl
@[simp] theorem State.setEngine_can (k : Nat) (x : Engine) : (s.setEngine k x).can = s.can := rfl
@[simp] theorem State.setEngine_mgmtPorts (k : Nat) (x : Engine) : (s.setEngine k x).mgmtPorts = s.mgmtPorts := rfl
@[simp] theorem State.setEngine_scopes (k : Nat) (x : Engine) : (s.setEngine k x).scopes = s.scopes := rfl
@[simp] theorem State.setEngine_sources (k : Nat) (x : Engine) : (s.setEngine k x).sources = s.sources := rfl
@[simp] theorem State.setEngine_injectors (k : Nat) (x : Engine) : (s.setEngine k x).injectors = s.injectors := rfl
@[simp] theorem State.setEngine_domains (k : Nat) (x : Engine) : (s.setEngine k x).domains = s.domains := rfl
@[simp] theorem State.setEngine_holds (k : Nat) (x : Engine) : (s.setEngine k x).holds = s.holds := rfl
@[simp] theorem State.setEngine_outbox (k : Nat) (x : Engine) : (s.setEngine k x).outbox = s.outbox := rfl
@[simp] theorem State.setEngine_freeCount (k : Nat) (x : Engine) : (s.setEngine k x).freeCount = s.freeCount := rfl
@[simp] theorem State.setEngine_moduleTime (k : Nat) (x : Engine) : (s.setEngine k x).moduleTime = s.moduleTime := rfl
@[simp] theorem State.setEngine_perfInjected (k : Nat) (x : Engine) : (s.setEngine k x).perfInjected = s.perfInjected := rfl
@[simp] theorem State.setEngine_engines (k : Nat) (x : Engine) : (s.setEngine k x).engines = Tbl.put (fun _ => {}) s.engines k x := rfl
@[simp] theorem State.setEngine_lanes (k : Nat) (x : Engine) : (s.setEngine k x).lanes = s.lanes := rfl
@[simp] theorem State.setEngine_members (k : Nat) (x : Engine) : (s.setEngine k x).members = s.members := rfl
@[simp] theorem State.setEngine_pfcSent (k : Nat) (x : Engine) : (s.setEngine k x).pfcSent = s.pfcSent := rfl
@[simp] theorem State.setEngine_trays (k : Nat) (x : Engine) : (s.setEngine k x).trays = s.trays := rfl
@[simp] theorem State.setEngine_keys (k : Nat) (x : Engine) : (s.setEngine k x).keys = s.keys := rfl
@[simp] theorem State.setEngine_kek (k : Nat) (x : Engine) : (s.setEngine k x).kek = s.kek := rfl
@[simp] theorem State.setEngine_hubs (k : Nat) (x : Engine) : (s.setEngine k x).hubs = s.hubs := rfl
@[simp] theorem State.setEngine_contexts (k : Nat) (x : Engine) : (s.setEngine k x).contexts = s.contexts := rfl
@[simp] theorem State.setEngine_hotCopies (k : Nat) (x : Engine) : (s.setEngine k x).hotCopies = s.hotCopies := rfl
@[simp] theorem State.setEngine_hotOrder (k : Nat) (x : Engine) : (s.setEngine k x).hotOrder = s.hotOrder := rfl
@[simp] theorem State.setEngine_leafRuns (k : Nat) (x : Engine) : (s.setEngine k x).leafRuns = s.leafRuns := rfl
@[simp] theorem State.setEngine_hubEgress (k : Nat) (x : Engine) : (s.setEngine k x).hubEgress = s.hubEgress := rfl
@[simp] theorem State.setEngine_pages (k : Nat) (x : Engine) : (s.setEngine k x).pages = s.pages := rfl
@[simp] theorem State.setEngine_stockpot (k : Nat) (x : Engine) : (s.setEngine k x).stockpot = s.stockpot := rfl
@[simp] theorem State.setEngine_dmas (k : Nat) (x : Engine) : (s.setEngine k x).dmas = s.dmas := rfl
@[simp] theorem State.setEngine_tgEntries (k : Nat) (x : Engine) : (s.setEngine k x).tgEntries = s.tgEntries := rfl
@[simp] theorem State.setEngine_tgs (k : Nat) (x : Engine) : (s.setEngine k x).tgs = s.tgs := rfl
@[simp] theorem State.setEngine_timeCtl (k : Nat) (x : Engine) : (s.setEngine k x).timeCtl = s.timeCtl := rfl
@[simp] theorem State.setEngine_fpos (k : Nat) (x : Engine) : (s.setEngine k x).fpos = s.fpos := rfl
@[simp] theorem State.setEngine_monitors (k : Nat) (x : Engine) : (s.setEngine k x).monitors = s.monitors := rfl
@[simp] theorem State.setEngine_perf (k : Nat) (x : Engine) : (s.setEngine k x).perf = s.perf := rfl
@[simp] theorem State.setEngine_windows (k : Nat) (x : Engine) : (s.setEngine k x).windows = s.windows := rfl
@[simp] theorem State.setEngine_probes (k : Nat) (x : Engine) : (s.setEngine k x).probes = s.probes := rfl

@[simp] theorem State.setProbe_pending (k : Nat) (x : ProbePort) : (s.setProbe k x).pending = s.pending := rfl
@[simp] theorem State.setProbe_od (k : Nat) (x : ProbePort) : (s.setProbe k x).od = s.od := rfl
@[simp] theorem State.setProbe_shadow (k : Nat) (x : ProbePort) : (s.setProbe k x).shadow = s.shadow := rfl
@[simp] theorem State.setProbe_pins (k : Nat) (x : ProbePort) : (s.setProbe k x).pins = s.pins := rfl
@[simp] theorem State.setProbe_flash (k : Nat) (x : ProbePort) : (s.setProbe k x).flash = s.flash := rfl
@[simp] theorem State.setProbe_boot (k : Nat) (x : ProbePort) : (s.setProbe k x).boot = s.boot := rfl
@[simp] theorem State.setProbe_thermal (k : Nat) (x : ProbePort) : (s.setProbe k x).thermal = s.thermal := rfl
@[simp] theorem State.setProbe_uptime (k : Nat) (x : ProbePort) : (s.setProbe k x).uptime = s.uptime := rfl
@[simp] theorem State.setProbe_sessions (k : Nat) (x : ProbePort) : (s.setProbe k x).sessions = s.sessions := rfl
@[simp] theorem State.setProbe_conns (k : Nat) (x : ProbePort) : (s.setProbe k x).conns = s.conns := rfl
@[simp] theorem State.setProbe_journal (k : Nat) (x : ProbePort) : (s.setProbe k x).journal = s.journal := rfl
@[simp] theorem State.setProbe_journalNext (k : Nat) (x : ProbePort) : (s.setProbe k x).journalNext = s.journalNext := rfl
@[simp] theorem State.setProbe_can (k : Nat) (x : ProbePort) : (s.setProbe k x).can = s.can := rfl
@[simp] theorem State.setProbe_mgmtPorts (k : Nat) (x : ProbePort) : (s.setProbe k x).mgmtPorts = s.mgmtPorts := rfl
@[simp] theorem State.setProbe_scopes (k : Nat) (x : ProbePort) : (s.setProbe k x).scopes = s.scopes := rfl
@[simp] theorem State.setProbe_sources (k : Nat) (x : ProbePort) : (s.setProbe k x).sources = s.sources := rfl
@[simp] theorem State.setProbe_injectors (k : Nat) (x : ProbePort) : (s.setProbe k x).injectors = s.injectors := rfl
@[simp] theorem State.setProbe_domains (k : Nat) (x : ProbePort) : (s.setProbe k x).domains = s.domains := rfl
@[simp] theorem State.setProbe_holds (k : Nat) (x : ProbePort) : (s.setProbe k x).holds = s.holds := rfl
@[simp] theorem State.setProbe_outbox (k : Nat) (x : ProbePort) : (s.setProbe k x).outbox = s.outbox := rfl
@[simp] theorem State.setProbe_freeCount (k : Nat) (x : ProbePort) : (s.setProbe k x).freeCount = s.freeCount := rfl
@[simp] theorem State.setProbe_moduleTime (k : Nat) (x : ProbePort) : (s.setProbe k x).moduleTime = s.moduleTime := rfl
@[simp] theorem State.setProbe_perfInjected (k : Nat) (x : ProbePort) : (s.setProbe k x).perfInjected = s.perfInjected := rfl
@[simp] theorem State.setProbe_engines (k : Nat) (x : ProbePort) : (s.setProbe k x).engines = s.engines := rfl
@[simp] theorem State.setProbe_lanes (k : Nat) (x : ProbePort) : (s.setProbe k x).lanes = s.lanes := rfl
@[simp] theorem State.setProbe_members (k : Nat) (x : ProbePort) : (s.setProbe k x).members = s.members := rfl
@[simp] theorem State.setProbe_pfcSent (k : Nat) (x : ProbePort) : (s.setProbe k x).pfcSent = s.pfcSent := rfl
@[simp] theorem State.setProbe_trays (k : Nat) (x : ProbePort) : (s.setProbe k x).trays = s.trays := rfl
@[simp] theorem State.setProbe_keys (k : Nat) (x : ProbePort) : (s.setProbe k x).keys = s.keys := rfl
@[simp] theorem State.setProbe_kek (k : Nat) (x : ProbePort) : (s.setProbe k x).kek = s.kek := rfl
@[simp] theorem State.setProbe_hubs (k : Nat) (x : ProbePort) : (s.setProbe k x).hubs = s.hubs := rfl
@[simp] theorem State.setProbe_contexts (k : Nat) (x : ProbePort) : (s.setProbe k x).contexts = s.contexts := rfl
@[simp] theorem State.setProbe_hotCopies (k : Nat) (x : ProbePort) : (s.setProbe k x).hotCopies = s.hotCopies := rfl
@[simp] theorem State.setProbe_hotOrder (k : Nat) (x : ProbePort) : (s.setProbe k x).hotOrder = s.hotOrder := rfl
@[simp] theorem State.setProbe_leafRuns (k : Nat) (x : ProbePort) : (s.setProbe k x).leafRuns = s.leafRuns := rfl
@[simp] theorem State.setProbe_hubEgress (k : Nat) (x : ProbePort) : (s.setProbe k x).hubEgress = s.hubEgress := rfl
@[simp] theorem State.setProbe_pages (k : Nat) (x : ProbePort) : (s.setProbe k x).pages = s.pages := rfl
@[simp] theorem State.setProbe_stockpot (k : Nat) (x : ProbePort) : (s.setProbe k x).stockpot = s.stockpot := rfl
@[simp] theorem State.setProbe_dmas (k : Nat) (x : ProbePort) : (s.setProbe k x).dmas = s.dmas := rfl
@[simp] theorem State.setProbe_tgEntries (k : Nat) (x : ProbePort) : (s.setProbe k x).tgEntries = s.tgEntries := rfl
@[simp] theorem State.setProbe_tgs (k : Nat) (x : ProbePort) : (s.setProbe k x).tgs = s.tgs := rfl
@[simp] theorem State.setProbe_timeCtl (k : Nat) (x : ProbePort) : (s.setProbe k x).timeCtl = s.timeCtl := rfl
@[simp] theorem State.setProbe_fpos (k : Nat) (x : ProbePort) : (s.setProbe k x).fpos = s.fpos := rfl
@[simp] theorem State.setProbe_monitors (k : Nat) (x : ProbePort) : (s.setProbe k x).monitors = s.monitors := rfl
@[simp] theorem State.setProbe_perf (k : Nat) (x : ProbePort) : (s.setProbe k x).perf = s.perf := rfl
@[simp] theorem State.setProbe_windows (k : Nat) (x : ProbePort) : (s.setProbe k x).windows = s.windows := rfl
@[simp] theorem State.setProbe_probes (k : Nat) (x : ProbePort) : (s.setProbe k x).probes = Tbl.put (fun _ => {}) s.probes k x := rfl

@[simp] theorem State.setLane_pending (k : Nat) (x : Lane) : (s.setLane k x).pending = s.pending := rfl
@[simp] theorem State.setLane_od (k : Nat) (x : Lane) : (s.setLane k x).od = s.od := rfl
@[simp] theorem State.setLane_shadow (k : Nat) (x : Lane) : (s.setLane k x).shadow = s.shadow := rfl
@[simp] theorem State.setLane_pins (k : Nat) (x : Lane) : (s.setLane k x).pins = s.pins := rfl
@[simp] theorem State.setLane_flash (k : Nat) (x : Lane) : (s.setLane k x).flash = s.flash := rfl
@[simp] theorem State.setLane_boot (k : Nat) (x : Lane) : (s.setLane k x).boot = s.boot := rfl
@[simp] theorem State.setLane_thermal (k : Nat) (x : Lane) : (s.setLane k x).thermal = s.thermal := rfl
@[simp] theorem State.setLane_uptime (k : Nat) (x : Lane) : (s.setLane k x).uptime = s.uptime := rfl
@[simp] theorem State.setLane_sessions (k : Nat) (x : Lane) : (s.setLane k x).sessions = s.sessions := rfl
@[simp] theorem State.setLane_conns (k : Nat) (x : Lane) : (s.setLane k x).conns = s.conns := rfl
@[simp] theorem State.setLane_journal (k : Nat) (x : Lane) : (s.setLane k x).journal = s.journal := rfl
@[simp] theorem State.setLane_journalNext (k : Nat) (x : Lane) : (s.setLane k x).journalNext = s.journalNext := rfl
@[simp] theorem State.setLane_can (k : Nat) (x : Lane) : (s.setLane k x).can = s.can := rfl
@[simp] theorem State.setLane_mgmtPorts (k : Nat) (x : Lane) : (s.setLane k x).mgmtPorts = s.mgmtPorts := rfl
@[simp] theorem State.setLane_scopes (k : Nat) (x : Lane) : (s.setLane k x).scopes = s.scopes := rfl
@[simp] theorem State.setLane_sources (k : Nat) (x : Lane) : (s.setLane k x).sources = s.sources := rfl
@[simp] theorem State.setLane_injectors (k : Nat) (x : Lane) : (s.setLane k x).injectors = s.injectors := rfl
@[simp] theorem State.setLane_domains (k : Nat) (x : Lane) : (s.setLane k x).domains = s.domains := rfl
@[simp] theorem State.setLane_holds (k : Nat) (x : Lane) : (s.setLane k x).holds = s.holds := rfl
@[simp] theorem State.setLane_outbox (k : Nat) (x : Lane) : (s.setLane k x).outbox = s.outbox := rfl
@[simp] theorem State.setLane_freeCount (k : Nat) (x : Lane) : (s.setLane k x).freeCount = s.freeCount := rfl
@[simp] theorem State.setLane_moduleTime (k : Nat) (x : Lane) : (s.setLane k x).moduleTime = s.moduleTime := rfl
@[simp] theorem State.setLane_perfInjected (k : Nat) (x : Lane) : (s.setLane k x).perfInjected = s.perfInjected := rfl
@[simp] theorem State.setLane_engines (k : Nat) (x : Lane) : (s.setLane k x).engines = s.engines := rfl
@[simp] theorem State.setLane_lanes (k : Nat) (x : Lane) : (s.setLane k x).lanes = Tbl.put (fun _ => {}) s.lanes k x := rfl
@[simp] theorem State.setLane_members (k : Nat) (x : Lane) : (s.setLane k x).members = s.members := rfl
@[simp] theorem State.setLane_pfcSent (k : Nat) (x : Lane) : (s.setLane k x).pfcSent = s.pfcSent := rfl
@[simp] theorem State.setLane_trays (k : Nat) (x : Lane) : (s.setLane k x).trays = s.trays := rfl
@[simp] theorem State.setLane_keys (k : Nat) (x : Lane) : (s.setLane k x).keys = s.keys := rfl
@[simp] theorem State.setLane_kek (k : Nat) (x : Lane) : (s.setLane k x).kek = s.kek := rfl
@[simp] theorem State.setLane_hubs (k : Nat) (x : Lane) : (s.setLane k x).hubs = s.hubs := rfl
@[simp] theorem State.setLane_contexts (k : Nat) (x : Lane) : (s.setLane k x).contexts = s.contexts := rfl
@[simp] theorem State.setLane_hotCopies (k : Nat) (x : Lane) : (s.setLane k x).hotCopies = s.hotCopies := rfl
@[simp] theorem State.setLane_hotOrder (k : Nat) (x : Lane) : (s.setLane k x).hotOrder = s.hotOrder := rfl
@[simp] theorem State.setLane_leafRuns (k : Nat) (x : Lane) : (s.setLane k x).leafRuns = s.leafRuns := rfl
@[simp] theorem State.setLane_hubEgress (k : Nat) (x : Lane) : (s.setLane k x).hubEgress = s.hubEgress := rfl
@[simp] theorem State.setLane_pages (k : Nat) (x : Lane) : (s.setLane k x).pages = s.pages := rfl
@[simp] theorem State.setLane_stockpot (k : Nat) (x : Lane) : (s.setLane k x).stockpot = s.stockpot := rfl
@[simp] theorem State.setLane_dmas (k : Nat) (x : Lane) : (s.setLane k x).dmas = s.dmas := rfl
@[simp] theorem State.setLane_tgEntries (k : Nat) (x : Lane) : (s.setLane k x).tgEntries = s.tgEntries := rfl
@[simp] theorem State.setLane_tgs (k : Nat) (x : Lane) : (s.setLane k x).tgs = s.tgs := rfl
@[simp] theorem State.setLane_timeCtl (k : Nat) (x : Lane) : (s.setLane k x).timeCtl = s.timeCtl := rfl
@[simp] theorem State.setLane_fpos (k : Nat) (x : Lane) : (s.setLane k x).fpos = s.fpos := rfl
@[simp] theorem State.setLane_monitors (k : Nat) (x : Lane) : (s.setLane k x).monitors = s.monitors := rfl
@[simp] theorem State.setLane_perf (k : Nat) (x : Lane) : (s.setLane k x).perf = s.perf := rfl
@[simp] theorem State.setLane_windows (k : Nat) (x : Lane) : (s.setLane k x).windows = s.windows := rfl
@[simp] theorem State.setLane_probes (k : Nat) (x : Lane) : (s.setLane k x).probes = s.probes := rfl

@[simp] theorem State.setMember_pending (k : Nat) (x : Member) : (s.setMember k x).pending = s.pending := rfl
@[simp] theorem State.setMember_od (k : Nat) (x : Member) : (s.setMember k x).od = s.od := rfl
@[simp] theorem State.setMember_shadow (k : Nat) (x : Member) : (s.setMember k x).shadow = s.shadow := rfl
@[simp] theorem State.setMember_pins (k : Nat) (x : Member) : (s.setMember k x).pins = s.pins := rfl
@[simp] theorem State.setMember_flash (k : Nat) (x : Member) : (s.setMember k x).flash = s.flash := rfl
@[simp] theorem State.setMember_boot (k : Nat) (x : Member) : (s.setMember k x).boot = s.boot := rfl
@[simp] theorem State.setMember_thermal (k : Nat) (x : Member) : (s.setMember k x).thermal = s.thermal := rfl
@[simp] theorem State.setMember_uptime (k : Nat) (x : Member) : (s.setMember k x).uptime = s.uptime := rfl
@[simp] theorem State.setMember_sessions (k : Nat) (x : Member) : (s.setMember k x).sessions = s.sessions := rfl
@[simp] theorem State.setMember_conns (k : Nat) (x : Member) : (s.setMember k x).conns = s.conns := rfl
@[simp] theorem State.setMember_journal (k : Nat) (x : Member) : (s.setMember k x).journal = s.journal := rfl
@[simp] theorem State.setMember_journalNext (k : Nat) (x : Member) : (s.setMember k x).journalNext = s.journalNext := rfl
@[simp] theorem State.setMember_can (k : Nat) (x : Member) : (s.setMember k x).can = s.can := rfl
@[simp] theorem State.setMember_mgmtPorts (k : Nat) (x : Member) : (s.setMember k x).mgmtPorts = s.mgmtPorts := rfl
@[simp] theorem State.setMember_scopes (k : Nat) (x : Member) : (s.setMember k x).scopes = s.scopes := rfl
@[simp] theorem State.setMember_sources (k : Nat) (x : Member) : (s.setMember k x).sources = s.sources := rfl
@[simp] theorem State.setMember_injectors (k : Nat) (x : Member) : (s.setMember k x).injectors = s.injectors := rfl
@[simp] theorem State.setMember_domains (k : Nat) (x : Member) : (s.setMember k x).domains = s.domains := rfl
@[simp] theorem State.setMember_holds (k : Nat) (x : Member) : (s.setMember k x).holds = s.holds := rfl
@[simp] theorem State.setMember_outbox (k : Nat) (x : Member) : (s.setMember k x).outbox = s.outbox := rfl
@[simp] theorem State.setMember_freeCount (k : Nat) (x : Member) : (s.setMember k x).freeCount = s.freeCount := rfl
@[simp] theorem State.setMember_moduleTime (k : Nat) (x : Member) : (s.setMember k x).moduleTime = s.moduleTime := rfl
@[simp] theorem State.setMember_perfInjected (k : Nat) (x : Member) : (s.setMember k x).perfInjected = s.perfInjected := rfl
@[simp] theorem State.setMember_engines (k : Nat) (x : Member) : (s.setMember k x).engines = s.engines := rfl
@[simp] theorem State.setMember_lanes (k : Nat) (x : Member) : (s.setMember k x).lanes = s.lanes := rfl
@[simp] theorem State.setMember_members (k : Nat) (x : Member) : (s.setMember k x).members = Tbl.put (fun _ => {}) s.members k x := rfl
@[simp] theorem State.setMember_pfcSent (k : Nat) (x : Member) : (s.setMember k x).pfcSent = s.pfcSent := rfl
@[simp] theorem State.setMember_trays (k : Nat) (x : Member) : (s.setMember k x).trays = s.trays := rfl
@[simp] theorem State.setMember_keys (k : Nat) (x : Member) : (s.setMember k x).keys = s.keys := rfl
@[simp] theorem State.setMember_kek (k : Nat) (x : Member) : (s.setMember k x).kek = s.kek := rfl
@[simp] theorem State.setMember_hubs (k : Nat) (x : Member) : (s.setMember k x).hubs = s.hubs := rfl
@[simp] theorem State.setMember_contexts (k : Nat) (x : Member) : (s.setMember k x).contexts = s.contexts := rfl
@[simp] theorem State.setMember_hotCopies (k : Nat) (x : Member) : (s.setMember k x).hotCopies = s.hotCopies := rfl
@[simp] theorem State.setMember_hotOrder (k : Nat) (x : Member) : (s.setMember k x).hotOrder = s.hotOrder := rfl
@[simp] theorem State.setMember_leafRuns (k : Nat) (x : Member) : (s.setMember k x).leafRuns = s.leafRuns := rfl
@[simp] theorem State.setMember_hubEgress (k : Nat) (x : Member) : (s.setMember k x).hubEgress = s.hubEgress := rfl
@[simp] theorem State.setMember_pages (k : Nat) (x : Member) : (s.setMember k x).pages = s.pages := rfl
@[simp] theorem State.setMember_stockpot (k : Nat) (x : Member) : (s.setMember k x).stockpot = s.stockpot := rfl
@[simp] theorem State.setMember_dmas (k : Nat) (x : Member) : (s.setMember k x).dmas = s.dmas := rfl
@[simp] theorem State.setMember_tgEntries (k : Nat) (x : Member) : (s.setMember k x).tgEntries = s.tgEntries := rfl
@[simp] theorem State.setMember_tgs (k : Nat) (x : Member) : (s.setMember k x).tgs = s.tgs := rfl
@[simp] theorem State.setMember_timeCtl (k : Nat) (x : Member) : (s.setMember k x).timeCtl = s.timeCtl := rfl
@[simp] theorem State.setMember_fpos (k : Nat) (x : Member) : (s.setMember k x).fpos = s.fpos := rfl
@[simp] theorem State.setMember_monitors (k : Nat) (x : Member) : (s.setMember k x).monitors = s.monitors := rfl
@[simp] theorem State.setMember_perf (k : Nat) (x : Member) : (s.setMember k x).perf = s.perf := rfl
@[simp] theorem State.setMember_windows (k : Nat) (x : Member) : (s.setMember k x).windows = s.windows := rfl
@[simp] theorem State.setMember_probes (k : Nat) (x : Member) : (s.setMember k x).probes = s.probes := rfl

@[simp] theorem State.setTray_pending (k : Nat) (x : Tray) : (s.setTray k x).pending = s.pending := rfl
@[simp] theorem State.setTray_od (k : Nat) (x : Tray) : (s.setTray k x).od = s.od := rfl
@[simp] theorem State.setTray_shadow (k : Nat) (x : Tray) : (s.setTray k x).shadow = s.shadow := rfl
@[simp] theorem State.setTray_pins (k : Nat) (x : Tray) : (s.setTray k x).pins = s.pins := rfl
@[simp] theorem State.setTray_flash (k : Nat) (x : Tray) : (s.setTray k x).flash = s.flash := rfl
@[simp] theorem State.setTray_boot (k : Nat) (x : Tray) : (s.setTray k x).boot = s.boot := rfl
@[simp] theorem State.setTray_thermal (k : Nat) (x : Tray) : (s.setTray k x).thermal = s.thermal := rfl
@[simp] theorem State.setTray_uptime (k : Nat) (x : Tray) : (s.setTray k x).uptime = s.uptime := rfl
@[simp] theorem State.setTray_sessions (k : Nat) (x : Tray) : (s.setTray k x).sessions = s.sessions := rfl
@[simp] theorem State.setTray_conns (k : Nat) (x : Tray) : (s.setTray k x).conns = s.conns := rfl
@[simp] theorem State.setTray_journal (k : Nat) (x : Tray) : (s.setTray k x).journal = s.journal := rfl
@[simp] theorem State.setTray_journalNext (k : Nat) (x : Tray) : (s.setTray k x).journalNext = s.journalNext := rfl
@[simp] theorem State.setTray_can (k : Nat) (x : Tray) : (s.setTray k x).can = s.can := rfl
@[simp] theorem State.setTray_mgmtPorts (k : Nat) (x : Tray) : (s.setTray k x).mgmtPorts = s.mgmtPorts := rfl
@[simp] theorem State.setTray_scopes (k : Nat) (x : Tray) : (s.setTray k x).scopes = s.scopes := rfl
@[simp] theorem State.setTray_sources (k : Nat) (x : Tray) : (s.setTray k x).sources = s.sources := rfl
@[simp] theorem State.setTray_injectors (k : Nat) (x : Tray) : (s.setTray k x).injectors = s.injectors := rfl
@[simp] theorem State.setTray_domains (k : Nat) (x : Tray) : (s.setTray k x).domains = s.domains := rfl
@[simp] theorem State.setTray_holds (k : Nat) (x : Tray) : (s.setTray k x).holds = s.holds := rfl
@[simp] theorem State.setTray_outbox (k : Nat) (x : Tray) : (s.setTray k x).outbox = s.outbox := rfl
@[simp] theorem State.setTray_freeCount (k : Nat) (x : Tray) : (s.setTray k x).freeCount = s.freeCount := rfl
@[simp] theorem State.setTray_moduleTime (k : Nat) (x : Tray) : (s.setTray k x).moduleTime = s.moduleTime := rfl
@[simp] theorem State.setTray_perfInjected (k : Nat) (x : Tray) : (s.setTray k x).perfInjected = s.perfInjected := rfl
@[simp] theorem State.setTray_engines (k : Nat) (x : Tray) : (s.setTray k x).engines = s.engines := rfl
@[simp] theorem State.setTray_lanes (k : Nat) (x : Tray) : (s.setTray k x).lanes = s.lanes := rfl
@[simp] theorem State.setTray_members (k : Nat) (x : Tray) : (s.setTray k x).members = s.members := rfl
@[simp] theorem State.setTray_pfcSent (k : Nat) (x : Tray) : (s.setTray k x).pfcSent = s.pfcSent := rfl
@[simp] theorem State.setTray_trays (k : Nat) (x : Tray) : (s.setTray k x).trays = Tbl.put (fun _ => {}) s.trays k x := rfl
@[simp] theorem State.setTray_keys (k : Nat) (x : Tray) : (s.setTray k x).keys = s.keys := rfl
@[simp] theorem State.setTray_kek (k : Nat) (x : Tray) : (s.setTray k x).kek = s.kek := rfl
@[simp] theorem State.setTray_hubs (k : Nat) (x : Tray) : (s.setTray k x).hubs = s.hubs := rfl
@[simp] theorem State.setTray_contexts (k : Nat) (x : Tray) : (s.setTray k x).contexts = s.contexts := rfl
@[simp] theorem State.setTray_hotCopies (k : Nat) (x : Tray) : (s.setTray k x).hotCopies = s.hotCopies := rfl
@[simp] theorem State.setTray_hotOrder (k : Nat) (x : Tray) : (s.setTray k x).hotOrder = s.hotOrder := rfl
@[simp] theorem State.setTray_leafRuns (k : Nat) (x : Tray) : (s.setTray k x).leafRuns = s.leafRuns := rfl
@[simp] theorem State.setTray_hubEgress (k : Nat) (x : Tray) : (s.setTray k x).hubEgress = s.hubEgress := rfl
@[simp] theorem State.setTray_pages (k : Nat) (x : Tray) : (s.setTray k x).pages = s.pages := rfl
@[simp] theorem State.setTray_stockpot (k : Nat) (x : Tray) : (s.setTray k x).stockpot = s.stockpot := rfl
@[simp] theorem State.setTray_dmas (k : Nat) (x : Tray) : (s.setTray k x).dmas = s.dmas := rfl
@[simp] theorem State.setTray_tgEntries (k : Nat) (x : Tray) : (s.setTray k x).tgEntries = s.tgEntries := rfl
@[simp] theorem State.setTray_tgs (k : Nat) (x : Tray) : (s.setTray k x).tgs = s.tgs := rfl
@[simp] theorem State.setTray_timeCtl (k : Nat) (x : Tray) : (s.setTray k x).timeCtl = s.timeCtl := rfl
@[simp] theorem State.setTray_fpos (k : Nat) (x : Tray) : (s.setTray k x).fpos = s.fpos := rfl
@[simp] theorem State.setTray_monitors (k : Nat) (x : Tray) : (s.setTray k x).monitors = s.monitors := rfl
@[simp] theorem State.setTray_perf (k : Nat) (x : Tray) : (s.setTray k x).perf = s.perf := rfl
@[simp] theorem State.setTray_windows (k : Nat) (x : Tray) : (s.setTray k x).windows = s.windows := rfl
@[simp] theorem State.setTray_probes (k : Nat) (x : Tray) : (s.setTray k x).probes = s.probes := rfl

@[simp] theorem State.setKeySlot_pending (k : Nat) (x : Key) : (s.setKeySlot k x).pending = s.pending := rfl
@[simp] theorem State.setKeySlot_od (k : Nat) (x : Key) : (s.setKeySlot k x).od = s.od := rfl
@[simp] theorem State.setKeySlot_shadow (k : Nat) (x : Key) : (s.setKeySlot k x).shadow = s.shadow := rfl
@[simp] theorem State.setKeySlot_pins (k : Nat) (x : Key) : (s.setKeySlot k x).pins = s.pins := rfl
@[simp] theorem State.setKeySlot_flash (k : Nat) (x : Key) : (s.setKeySlot k x).flash = s.flash := rfl
@[simp] theorem State.setKeySlot_boot (k : Nat) (x : Key) : (s.setKeySlot k x).boot = s.boot := rfl
@[simp] theorem State.setKeySlot_thermal (k : Nat) (x : Key) : (s.setKeySlot k x).thermal = s.thermal := rfl
@[simp] theorem State.setKeySlot_uptime (k : Nat) (x : Key) : (s.setKeySlot k x).uptime = s.uptime := rfl
@[simp] theorem State.setKeySlot_sessions (k : Nat) (x : Key) : (s.setKeySlot k x).sessions = s.sessions := rfl
@[simp] theorem State.setKeySlot_conns (k : Nat) (x : Key) : (s.setKeySlot k x).conns = s.conns := rfl
@[simp] theorem State.setKeySlot_journal (k : Nat) (x : Key) : (s.setKeySlot k x).journal = s.journal := rfl
@[simp] theorem State.setKeySlot_journalNext (k : Nat) (x : Key) : (s.setKeySlot k x).journalNext = s.journalNext := rfl
@[simp] theorem State.setKeySlot_can (k : Nat) (x : Key) : (s.setKeySlot k x).can = s.can := rfl
@[simp] theorem State.setKeySlot_mgmtPorts (k : Nat) (x : Key) : (s.setKeySlot k x).mgmtPorts = s.mgmtPorts := rfl
@[simp] theorem State.setKeySlot_scopes (k : Nat) (x : Key) : (s.setKeySlot k x).scopes = s.scopes := rfl
@[simp] theorem State.setKeySlot_sources (k : Nat) (x : Key) : (s.setKeySlot k x).sources = s.sources := rfl
@[simp] theorem State.setKeySlot_injectors (k : Nat) (x : Key) : (s.setKeySlot k x).injectors = s.injectors := rfl
@[simp] theorem State.setKeySlot_domains (k : Nat) (x : Key) : (s.setKeySlot k x).domains = s.domains := rfl
@[simp] theorem State.setKeySlot_holds (k : Nat) (x : Key) : (s.setKeySlot k x).holds = s.holds := rfl
@[simp] theorem State.setKeySlot_outbox (k : Nat) (x : Key) : (s.setKeySlot k x).outbox = s.outbox := rfl
@[simp] theorem State.setKeySlot_freeCount (k : Nat) (x : Key) : (s.setKeySlot k x).freeCount = s.freeCount := rfl
@[simp] theorem State.setKeySlot_moduleTime (k : Nat) (x : Key) : (s.setKeySlot k x).moduleTime = s.moduleTime := rfl
@[simp] theorem State.setKeySlot_perfInjected (k : Nat) (x : Key) : (s.setKeySlot k x).perfInjected = s.perfInjected := rfl
@[simp] theorem State.setKeySlot_engines (k : Nat) (x : Key) : (s.setKeySlot k x).engines = s.engines := rfl
@[simp] theorem State.setKeySlot_lanes (k : Nat) (x : Key) : (s.setKeySlot k x).lanes = s.lanes := rfl
@[simp] theorem State.setKeySlot_members (k : Nat) (x : Key) : (s.setKeySlot k x).members = s.members := rfl
@[simp] theorem State.setKeySlot_pfcSent (k : Nat) (x : Key) : (s.setKeySlot k x).pfcSent = s.pfcSent := rfl
@[simp] theorem State.setKeySlot_trays (k : Nat) (x : Key) : (s.setKeySlot k x).trays = s.trays := rfl
@[simp] theorem State.setKeySlot_keys (k : Nat) (x : Key) : (s.setKeySlot k x).keys = Tbl.put (fun _ => {}) s.keys k x := rfl
@[simp] theorem State.setKeySlot_kek (k : Nat) (x : Key) : (s.setKeySlot k x).kek = s.kek := rfl
@[simp] theorem State.setKeySlot_hubs (k : Nat) (x : Key) : (s.setKeySlot k x).hubs = s.hubs := rfl
@[simp] theorem State.setKeySlot_contexts (k : Nat) (x : Key) : (s.setKeySlot k x).contexts = s.contexts := rfl
@[simp] theorem State.setKeySlot_hotCopies (k : Nat) (x : Key) : (s.setKeySlot k x).hotCopies = s.hotCopies := rfl
@[simp] theorem State.setKeySlot_hotOrder (k : Nat) (x : Key) : (s.setKeySlot k x).hotOrder = s.hotOrder := rfl
@[simp] theorem State.setKeySlot_leafRuns (k : Nat) (x : Key) : (s.setKeySlot k x).leafRuns = s.leafRuns := rfl
@[simp] theorem State.setKeySlot_hubEgress (k : Nat) (x : Key) : (s.setKeySlot k x).hubEgress = s.hubEgress := rfl
@[simp] theorem State.setKeySlot_pages (k : Nat) (x : Key) : (s.setKeySlot k x).pages = s.pages := rfl
@[simp] theorem State.setKeySlot_stockpot (k : Nat) (x : Key) : (s.setKeySlot k x).stockpot = s.stockpot := rfl
@[simp] theorem State.setKeySlot_dmas (k : Nat) (x : Key) : (s.setKeySlot k x).dmas = s.dmas := rfl
@[simp] theorem State.setKeySlot_tgEntries (k : Nat) (x : Key) : (s.setKeySlot k x).tgEntries = s.tgEntries := rfl
@[simp] theorem State.setKeySlot_tgs (k : Nat) (x : Key) : (s.setKeySlot k x).tgs = s.tgs := rfl
@[simp] theorem State.setKeySlot_timeCtl (k : Nat) (x : Key) : (s.setKeySlot k x).timeCtl = s.timeCtl := rfl
@[simp] theorem State.setKeySlot_fpos (k : Nat) (x : Key) : (s.setKeySlot k x).fpos = s.fpos := rfl
@[simp] theorem State.setKeySlot_monitors (k : Nat) (x : Key) : (s.setKeySlot k x).monitors = s.monitors := rfl
@[simp] theorem State.setKeySlot_perf (k : Nat) (x : Key) : (s.setKeySlot k x).perf = s.perf := rfl
@[simp] theorem State.setKeySlot_windows (k : Nat) (x : Key) : (s.setKeySlot k x).windows = s.windows := rfl
@[simp] theorem State.setKeySlot_probes (k : Nat) (x : Key) : (s.setKeySlot k x).probes = s.probes := rfl

@[simp] theorem State.setHub_pending (k : Nat) (x : Hub) : (s.setHub k x).pending = s.pending := rfl
@[simp] theorem State.setHub_od (k : Nat) (x : Hub) : (s.setHub k x).od = s.od := rfl
@[simp] theorem State.setHub_shadow (k : Nat) (x : Hub) : (s.setHub k x).shadow = s.shadow := rfl
@[simp] theorem State.setHub_pins (k : Nat) (x : Hub) : (s.setHub k x).pins = s.pins := rfl
@[simp] theorem State.setHub_flash (k : Nat) (x : Hub) : (s.setHub k x).flash = s.flash := rfl
@[simp] theorem State.setHub_boot (k : Nat) (x : Hub) : (s.setHub k x).boot = s.boot := rfl
@[simp] theorem State.setHub_thermal (k : Nat) (x : Hub) : (s.setHub k x).thermal = s.thermal := rfl
@[simp] theorem State.setHub_uptime (k : Nat) (x : Hub) : (s.setHub k x).uptime = s.uptime := rfl
@[simp] theorem State.setHub_sessions (k : Nat) (x : Hub) : (s.setHub k x).sessions = s.sessions := rfl
@[simp] theorem State.setHub_conns (k : Nat) (x : Hub) : (s.setHub k x).conns = s.conns := rfl
@[simp] theorem State.setHub_journal (k : Nat) (x : Hub) : (s.setHub k x).journal = s.journal := rfl
@[simp] theorem State.setHub_journalNext (k : Nat) (x : Hub) : (s.setHub k x).journalNext = s.journalNext := rfl
@[simp] theorem State.setHub_can (k : Nat) (x : Hub) : (s.setHub k x).can = s.can := rfl
@[simp] theorem State.setHub_mgmtPorts (k : Nat) (x : Hub) : (s.setHub k x).mgmtPorts = s.mgmtPorts := rfl
@[simp] theorem State.setHub_scopes (k : Nat) (x : Hub) : (s.setHub k x).scopes = s.scopes := rfl
@[simp] theorem State.setHub_sources (k : Nat) (x : Hub) : (s.setHub k x).sources = s.sources := rfl
@[simp] theorem State.setHub_injectors (k : Nat) (x : Hub) : (s.setHub k x).injectors = s.injectors := rfl
@[simp] theorem State.setHub_domains (k : Nat) (x : Hub) : (s.setHub k x).domains = s.domains := rfl
@[simp] theorem State.setHub_holds (k : Nat) (x : Hub) : (s.setHub k x).holds = s.holds := rfl
@[simp] theorem State.setHub_outbox (k : Nat) (x : Hub) : (s.setHub k x).outbox = s.outbox := rfl
@[simp] theorem State.setHub_freeCount (k : Nat) (x : Hub) : (s.setHub k x).freeCount = s.freeCount := rfl
@[simp] theorem State.setHub_moduleTime (k : Nat) (x : Hub) : (s.setHub k x).moduleTime = s.moduleTime := rfl
@[simp] theorem State.setHub_perfInjected (k : Nat) (x : Hub) : (s.setHub k x).perfInjected = s.perfInjected := rfl
@[simp] theorem State.setHub_engines (k : Nat) (x : Hub) : (s.setHub k x).engines = s.engines := rfl
@[simp] theorem State.setHub_lanes (k : Nat) (x : Hub) : (s.setHub k x).lanes = s.lanes := rfl
@[simp] theorem State.setHub_members (k : Nat) (x : Hub) : (s.setHub k x).members = s.members := rfl
@[simp] theorem State.setHub_pfcSent (k : Nat) (x : Hub) : (s.setHub k x).pfcSent = s.pfcSent := rfl
@[simp] theorem State.setHub_trays (k : Nat) (x : Hub) : (s.setHub k x).trays = s.trays := rfl
@[simp] theorem State.setHub_keys (k : Nat) (x : Hub) : (s.setHub k x).keys = s.keys := rfl
@[simp] theorem State.setHub_kek (k : Nat) (x : Hub) : (s.setHub k x).kek = s.kek := rfl
@[simp] theorem State.setHub_hubs (k : Nat) (x : Hub) : (s.setHub k x).hubs = Tbl.put (fun _ => {}) s.hubs k x := rfl
@[simp] theorem State.setHub_contexts (k : Nat) (x : Hub) : (s.setHub k x).contexts = s.contexts := rfl
@[simp] theorem State.setHub_hotCopies (k : Nat) (x : Hub) : (s.setHub k x).hotCopies = s.hotCopies := rfl
@[simp] theorem State.setHub_hotOrder (k : Nat) (x : Hub) : (s.setHub k x).hotOrder = s.hotOrder := rfl
@[simp] theorem State.setHub_leafRuns (k : Nat) (x : Hub) : (s.setHub k x).leafRuns = s.leafRuns := rfl
@[simp] theorem State.setHub_hubEgress (k : Nat) (x : Hub) : (s.setHub k x).hubEgress = s.hubEgress := rfl
@[simp] theorem State.setHub_pages (k : Nat) (x : Hub) : (s.setHub k x).pages = s.pages := rfl
@[simp] theorem State.setHub_stockpot (k : Nat) (x : Hub) : (s.setHub k x).stockpot = s.stockpot := rfl
@[simp] theorem State.setHub_dmas (k : Nat) (x : Hub) : (s.setHub k x).dmas = s.dmas := rfl
@[simp] theorem State.setHub_tgEntries (k : Nat) (x : Hub) : (s.setHub k x).tgEntries = s.tgEntries := rfl
@[simp] theorem State.setHub_tgs (k : Nat) (x : Hub) : (s.setHub k x).tgs = s.tgs := rfl
@[simp] theorem State.setHub_timeCtl (k : Nat) (x : Hub) : (s.setHub k x).timeCtl = s.timeCtl := rfl
@[simp] theorem State.setHub_fpos (k : Nat) (x : Hub) : (s.setHub k x).fpos = s.fpos := rfl
@[simp] theorem State.setHub_monitors (k : Nat) (x : Hub) : (s.setHub k x).monitors = s.monitors := rfl
@[simp] theorem State.setHub_perf (k : Nat) (x : Hub) : (s.setHub k x).perf = s.perf := rfl
@[simp] theorem State.setHub_windows (k : Nat) (x : Hub) : (s.setHub k x).windows = s.windows := rfl
@[simp] theorem State.setHub_probes (k : Nat) (x : Hub) : (s.setHub k x).probes = s.probes := rfl

@[simp] theorem State.setLeafRun_pending (k : Nat) (x : LeafRun) : (s.setLeafRun k x).pending = s.pending := rfl
@[simp] theorem State.setLeafRun_od (k : Nat) (x : LeafRun) : (s.setLeafRun k x).od = s.od := rfl
@[simp] theorem State.setLeafRun_shadow (k : Nat) (x : LeafRun) : (s.setLeafRun k x).shadow = s.shadow := rfl
@[simp] theorem State.setLeafRun_pins (k : Nat) (x : LeafRun) : (s.setLeafRun k x).pins = s.pins := rfl
@[simp] theorem State.setLeafRun_flash (k : Nat) (x : LeafRun) : (s.setLeafRun k x).flash = s.flash := rfl
@[simp] theorem State.setLeafRun_boot (k : Nat) (x : LeafRun) : (s.setLeafRun k x).boot = s.boot := rfl
@[simp] theorem State.setLeafRun_thermal (k : Nat) (x : LeafRun) : (s.setLeafRun k x).thermal = s.thermal := rfl
@[simp] theorem State.setLeafRun_uptime (k : Nat) (x : LeafRun) : (s.setLeafRun k x).uptime = s.uptime := rfl
@[simp] theorem State.setLeafRun_sessions (k : Nat) (x : LeafRun) : (s.setLeafRun k x).sessions = s.sessions := rfl
@[simp] theorem State.setLeafRun_conns (k : Nat) (x : LeafRun) : (s.setLeafRun k x).conns = s.conns := rfl
@[simp] theorem State.setLeafRun_journal (k : Nat) (x : LeafRun) : (s.setLeafRun k x).journal = s.journal := rfl
@[simp] theorem State.setLeafRun_journalNext (k : Nat) (x : LeafRun) : (s.setLeafRun k x).journalNext = s.journalNext := rfl
@[simp] theorem State.setLeafRun_can (k : Nat) (x : LeafRun) : (s.setLeafRun k x).can = s.can := rfl
@[simp] theorem State.setLeafRun_mgmtPorts (k : Nat) (x : LeafRun) : (s.setLeafRun k x).mgmtPorts = s.mgmtPorts := rfl
@[simp] theorem State.setLeafRun_scopes (k : Nat) (x : LeafRun) : (s.setLeafRun k x).scopes = s.scopes := rfl
@[simp] theorem State.setLeafRun_sources (k : Nat) (x : LeafRun) : (s.setLeafRun k x).sources = s.sources := rfl
@[simp] theorem State.setLeafRun_injectors (k : Nat) (x : LeafRun) : (s.setLeafRun k x).injectors = s.injectors := rfl
@[simp] theorem State.setLeafRun_domains (k : Nat) (x : LeafRun) : (s.setLeafRun k x).domains = s.domains := rfl
@[simp] theorem State.setLeafRun_holds (k : Nat) (x : LeafRun) : (s.setLeafRun k x).holds = s.holds := rfl
@[simp] theorem State.setLeafRun_outbox (k : Nat) (x : LeafRun) : (s.setLeafRun k x).outbox = s.outbox := rfl
@[simp] theorem State.setLeafRun_freeCount (k : Nat) (x : LeafRun) : (s.setLeafRun k x).freeCount = s.freeCount := rfl
@[simp] theorem State.setLeafRun_moduleTime (k : Nat) (x : LeafRun) : (s.setLeafRun k x).moduleTime = s.moduleTime := rfl
@[simp] theorem State.setLeafRun_perfInjected (k : Nat) (x : LeafRun) : (s.setLeafRun k x).perfInjected = s.perfInjected := rfl
@[simp] theorem State.setLeafRun_engines (k : Nat) (x : LeafRun) : (s.setLeafRun k x).engines = s.engines := rfl
@[simp] theorem State.setLeafRun_lanes (k : Nat) (x : LeafRun) : (s.setLeafRun k x).lanes = s.lanes := rfl
@[simp] theorem State.setLeafRun_members (k : Nat) (x : LeafRun) : (s.setLeafRun k x).members = s.members := rfl
@[simp] theorem State.setLeafRun_pfcSent (k : Nat) (x : LeafRun) : (s.setLeafRun k x).pfcSent = s.pfcSent := rfl
@[simp] theorem State.setLeafRun_trays (k : Nat) (x : LeafRun) : (s.setLeafRun k x).trays = s.trays := rfl
@[simp] theorem State.setLeafRun_keys (k : Nat) (x : LeafRun) : (s.setLeafRun k x).keys = s.keys := rfl
@[simp] theorem State.setLeafRun_kek (k : Nat) (x : LeafRun) : (s.setLeafRun k x).kek = s.kek := rfl
@[simp] theorem State.setLeafRun_hubs (k : Nat) (x : LeafRun) : (s.setLeafRun k x).hubs = s.hubs := rfl
@[simp] theorem State.setLeafRun_contexts (k : Nat) (x : LeafRun) : (s.setLeafRun k x).contexts = s.contexts := rfl
@[simp] theorem State.setLeafRun_hotCopies (k : Nat) (x : LeafRun) : (s.setLeafRun k x).hotCopies = s.hotCopies := rfl
@[simp] theorem State.setLeafRun_hotOrder (k : Nat) (x : LeafRun) : (s.setLeafRun k x).hotOrder = s.hotOrder := rfl
@[simp] theorem State.setLeafRun_leafRuns (k : Nat) (x : LeafRun) : (s.setLeafRun k x).leafRuns = Tbl.put (fun _ => {}) s.leafRuns k x := rfl
@[simp] theorem State.setLeafRun_hubEgress (k : Nat) (x : LeafRun) : (s.setLeafRun k x).hubEgress = s.hubEgress := rfl
@[simp] theorem State.setLeafRun_pages (k : Nat) (x : LeafRun) : (s.setLeafRun k x).pages = s.pages := rfl
@[simp] theorem State.setLeafRun_stockpot (k : Nat) (x : LeafRun) : (s.setLeafRun k x).stockpot = s.stockpot := rfl
@[simp] theorem State.setLeafRun_dmas (k : Nat) (x : LeafRun) : (s.setLeafRun k x).dmas = s.dmas := rfl
@[simp] theorem State.setLeafRun_tgEntries (k : Nat) (x : LeafRun) : (s.setLeafRun k x).tgEntries = s.tgEntries := rfl
@[simp] theorem State.setLeafRun_tgs (k : Nat) (x : LeafRun) : (s.setLeafRun k x).tgs = s.tgs := rfl
@[simp] theorem State.setLeafRun_timeCtl (k : Nat) (x : LeafRun) : (s.setLeafRun k x).timeCtl = s.timeCtl := rfl
@[simp] theorem State.setLeafRun_fpos (k : Nat) (x : LeafRun) : (s.setLeafRun k x).fpos = s.fpos := rfl
@[simp] theorem State.setLeafRun_monitors (k : Nat) (x : LeafRun) : (s.setLeafRun k x).monitors = s.monitors := rfl
@[simp] theorem State.setLeafRun_perf (k : Nat) (x : LeafRun) : (s.setLeafRun k x).perf = s.perf := rfl
@[simp] theorem State.setLeafRun_windows (k : Nat) (x : LeafRun) : (s.setLeafRun k x).windows = s.windows := rfl
@[simp] theorem State.setLeafRun_probes (k : Nat) (x : LeafRun) : (s.setLeafRun k x).probes = s.probes := rfl

@[simp] theorem State.setPage_pending (k : Nat) (x : Page) : (s.setPage k x).pending = s.pending := rfl
@[simp] theorem State.setPage_od (k : Nat) (x : Page) : (s.setPage k x).od = s.od := rfl
@[simp] theorem State.setPage_shadow (k : Nat) (x : Page) : (s.setPage k x).shadow = s.shadow := rfl
@[simp] theorem State.setPage_pins (k : Nat) (x : Page) : (s.setPage k x).pins = s.pins := rfl
@[simp] theorem State.setPage_flash (k : Nat) (x : Page) : (s.setPage k x).flash = s.flash := rfl
@[simp] theorem State.setPage_boot (k : Nat) (x : Page) : (s.setPage k x).boot = s.boot := rfl
@[simp] theorem State.setPage_thermal (k : Nat) (x : Page) : (s.setPage k x).thermal = s.thermal := rfl
@[simp] theorem State.setPage_uptime (k : Nat) (x : Page) : (s.setPage k x).uptime = s.uptime := rfl
@[simp] theorem State.setPage_sessions (k : Nat) (x : Page) : (s.setPage k x).sessions = s.sessions := rfl
@[simp] theorem State.setPage_conns (k : Nat) (x : Page) : (s.setPage k x).conns = s.conns := rfl
@[simp] theorem State.setPage_journal (k : Nat) (x : Page) : (s.setPage k x).journal = s.journal := rfl
@[simp] theorem State.setPage_journalNext (k : Nat) (x : Page) : (s.setPage k x).journalNext = s.journalNext := rfl
@[simp] theorem State.setPage_can (k : Nat) (x : Page) : (s.setPage k x).can = s.can := rfl
@[simp] theorem State.setPage_mgmtPorts (k : Nat) (x : Page) : (s.setPage k x).mgmtPorts = s.mgmtPorts := rfl
@[simp] theorem State.setPage_scopes (k : Nat) (x : Page) : (s.setPage k x).scopes = s.scopes := rfl
@[simp] theorem State.setPage_sources (k : Nat) (x : Page) : (s.setPage k x).sources = s.sources := rfl
@[simp] theorem State.setPage_injectors (k : Nat) (x : Page) : (s.setPage k x).injectors = s.injectors := rfl
@[simp] theorem State.setPage_domains (k : Nat) (x : Page) : (s.setPage k x).domains = s.domains := rfl
@[simp] theorem State.setPage_holds (k : Nat) (x : Page) : (s.setPage k x).holds = s.holds := rfl
@[simp] theorem State.setPage_outbox (k : Nat) (x : Page) : (s.setPage k x).outbox = s.outbox := rfl
@[simp] theorem State.setPage_freeCount (k : Nat) (x : Page) : (s.setPage k x).freeCount = s.freeCount := rfl
@[simp] theorem State.setPage_moduleTime (k : Nat) (x : Page) : (s.setPage k x).moduleTime = s.moduleTime := rfl
@[simp] theorem State.setPage_perfInjected (k : Nat) (x : Page) : (s.setPage k x).perfInjected = s.perfInjected := rfl
@[simp] theorem State.setPage_engines (k : Nat) (x : Page) : (s.setPage k x).engines = s.engines := rfl
@[simp] theorem State.setPage_lanes (k : Nat) (x : Page) : (s.setPage k x).lanes = s.lanes := rfl
@[simp] theorem State.setPage_members (k : Nat) (x : Page) : (s.setPage k x).members = s.members := rfl
@[simp] theorem State.setPage_pfcSent (k : Nat) (x : Page) : (s.setPage k x).pfcSent = s.pfcSent := rfl
@[simp] theorem State.setPage_trays (k : Nat) (x : Page) : (s.setPage k x).trays = s.trays := rfl
@[simp] theorem State.setPage_keys (k : Nat) (x : Page) : (s.setPage k x).keys = s.keys := rfl
@[simp] theorem State.setPage_kek (k : Nat) (x : Page) : (s.setPage k x).kek = s.kek := rfl
@[simp] theorem State.setPage_hubs (k : Nat) (x : Page) : (s.setPage k x).hubs = s.hubs := rfl
@[simp] theorem State.setPage_contexts (k : Nat) (x : Page) : (s.setPage k x).contexts = s.contexts := rfl
@[simp] theorem State.setPage_hotCopies (k : Nat) (x : Page) : (s.setPage k x).hotCopies = s.hotCopies := rfl
@[simp] theorem State.setPage_hotOrder (k : Nat) (x : Page) : (s.setPage k x).hotOrder = s.hotOrder := rfl
@[simp] theorem State.setPage_leafRuns (k : Nat) (x : Page) : (s.setPage k x).leafRuns = s.leafRuns := rfl
@[simp] theorem State.setPage_hubEgress (k : Nat) (x : Page) : (s.setPage k x).hubEgress = s.hubEgress := rfl
@[simp] theorem State.setPage_pages (k : Nat) (x : Page) : (s.setPage k x).pages = Tbl.put (fun _ => {}) s.pages k x := rfl
@[simp] theorem State.setPage_stockpot (k : Nat) (x : Page) : (s.setPage k x).stockpot = s.stockpot := rfl
@[simp] theorem State.setPage_dmas (k : Nat) (x : Page) : (s.setPage k x).dmas = s.dmas := rfl
@[simp] theorem State.setPage_tgEntries (k : Nat) (x : Page) : (s.setPage k x).tgEntries = s.tgEntries := rfl
@[simp] theorem State.setPage_tgs (k : Nat) (x : Page) : (s.setPage k x).tgs = s.tgs := rfl
@[simp] theorem State.setPage_timeCtl (k : Nat) (x : Page) : (s.setPage k x).timeCtl = s.timeCtl := rfl
@[simp] theorem State.setPage_fpos (k : Nat) (x : Page) : (s.setPage k x).fpos = s.fpos := rfl
@[simp] theorem State.setPage_monitors (k : Nat) (x : Page) : (s.setPage k x).monitors = s.monitors := rfl
@[simp] theorem State.setPage_perf (k : Nat) (x : Page) : (s.setPage k x).perf = s.perf := rfl
@[simp] theorem State.setPage_windows (k : Nat) (x : Page) : (s.setPage k x).windows = s.windows := rfl
@[simp] theorem State.setPage_probes (k : Nat) (x : Page) : (s.setPage k x).probes = s.probes := rfl

@[simp] theorem State.setDma_pending (k : Nat) (x : Dma) : (s.setDma k x).pending = s.pending := rfl
@[simp] theorem State.setDma_od (k : Nat) (x : Dma) : (s.setDma k x).od = s.od := rfl
@[simp] theorem State.setDma_shadow (k : Nat) (x : Dma) : (s.setDma k x).shadow = s.shadow := rfl
@[simp] theorem State.setDma_pins (k : Nat) (x : Dma) : (s.setDma k x).pins = s.pins := rfl
@[simp] theorem State.setDma_flash (k : Nat) (x : Dma) : (s.setDma k x).flash = s.flash := rfl
@[simp] theorem State.setDma_boot (k : Nat) (x : Dma) : (s.setDma k x).boot = s.boot := rfl
@[simp] theorem State.setDma_thermal (k : Nat) (x : Dma) : (s.setDma k x).thermal = s.thermal := rfl
@[simp] theorem State.setDma_uptime (k : Nat) (x : Dma) : (s.setDma k x).uptime = s.uptime := rfl
@[simp] theorem State.setDma_sessions (k : Nat) (x : Dma) : (s.setDma k x).sessions = s.sessions := rfl
@[simp] theorem State.setDma_conns (k : Nat) (x : Dma) : (s.setDma k x).conns = s.conns := rfl
@[simp] theorem State.setDma_journal (k : Nat) (x : Dma) : (s.setDma k x).journal = s.journal := rfl
@[simp] theorem State.setDma_journalNext (k : Nat) (x : Dma) : (s.setDma k x).journalNext = s.journalNext := rfl
@[simp] theorem State.setDma_can (k : Nat) (x : Dma) : (s.setDma k x).can = s.can := rfl
@[simp] theorem State.setDma_mgmtPorts (k : Nat) (x : Dma) : (s.setDma k x).mgmtPorts = s.mgmtPorts := rfl
@[simp] theorem State.setDma_scopes (k : Nat) (x : Dma) : (s.setDma k x).scopes = s.scopes := rfl
@[simp] theorem State.setDma_sources (k : Nat) (x : Dma) : (s.setDma k x).sources = s.sources := rfl
@[simp] theorem State.setDma_injectors (k : Nat) (x : Dma) : (s.setDma k x).injectors = s.injectors := rfl
@[simp] theorem State.setDma_domains (k : Nat) (x : Dma) : (s.setDma k x).domains = s.domains := rfl
@[simp] theorem State.setDma_holds (k : Nat) (x : Dma) : (s.setDma k x).holds = s.holds := rfl
@[simp] theorem State.setDma_outbox (k : Nat) (x : Dma) : (s.setDma k x).outbox = s.outbox := rfl
@[simp] theorem State.setDma_freeCount (k : Nat) (x : Dma) : (s.setDma k x).freeCount = s.freeCount := rfl
@[simp] theorem State.setDma_moduleTime (k : Nat) (x : Dma) : (s.setDma k x).moduleTime = s.moduleTime := rfl
@[simp] theorem State.setDma_perfInjected (k : Nat) (x : Dma) : (s.setDma k x).perfInjected = s.perfInjected := rfl
@[simp] theorem State.setDma_engines (k : Nat) (x : Dma) : (s.setDma k x).engines = s.engines := rfl
@[simp] theorem State.setDma_lanes (k : Nat) (x : Dma) : (s.setDma k x).lanes = s.lanes := rfl
@[simp] theorem State.setDma_members (k : Nat) (x : Dma) : (s.setDma k x).members = s.members := rfl
@[simp] theorem State.setDma_pfcSent (k : Nat) (x : Dma) : (s.setDma k x).pfcSent = s.pfcSent := rfl
@[simp] theorem State.setDma_trays (k : Nat) (x : Dma) : (s.setDma k x).trays = s.trays := rfl
@[simp] theorem State.setDma_keys (k : Nat) (x : Dma) : (s.setDma k x).keys = s.keys := rfl
@[simp] theorem State.setDma_kek (k : Nat) (x : Dma) : (s.setDma k x).kek = s.kek := rfl
@[simp] theorem State.setDma_hubs (k : Nat) (x : Dma) : (s.setDma k x).hubs = s.hubs := rfl
@[simp] theorem State.setDma_contexts (k : Nat) (x : Dma) : (s.setDma k x).contexts = s.contexts := rfl
@[simp] theorem State.setDma_hotCopies (k : Nat) (x : Dma) : (s.setDma k x).hotCopies = s.hotCopies := rfl
@[simp] theorem State.setDma_hotOrder (k : Nat) (x : Dma) : (s.setDma k x).hotOrder = s.hotOrder := rfl
@[simp] theorem State.setDma_leafRuns (k : Nat) (x : Dma) : (s.setDma k x).leafRuns = s.leafRuns := rfl
@[simp] theorem State.setDma_hubEgress (k : Nat) (x : Dma) : (s.setDma k x).hubEgress = s.hubEgress := rfl
@[simp] theorem State.setDma_pages (k : Nat) (x : Dma) : (s.setDma k x).pages = s.pages := rfl
@[simp] theorem State.setDma_stockpot (k : Nat) (x : Dma) : (s.setDma k x).stockpot = s.stockpot := rfl
@[simp] theorem State.setDma_dmas (k : Nat) (x : Dma) : (s.setDma k x).dmas = Tbl.put (fun _ => {}) s.dmas k x := rfl
@[simp] theorem State.setDma_tgEntries (k : Nat) (x : Dma) : (s.setDma k x).tgEntries = s.tgEntries := rfl
@[simp] theorem State.setDma_tgs (k : Nat) (x : Dma) : (s.setDma k x).tgs = s.tgs := rfl
@[simp] theorem State.setDma_timeCtl (k : Nat) (x : Dma) : (s.setDma k x).timeCtl = s.timeCtl := rfl
@[simp] theorem State.setDma_fpos (k : Nat) (x : Dma) : (s.setDma k x).fpos = s.fpos := rfl
@[simp] theorem State.setDma_monitors (k : Nat) (x : Dma) : (s.setDma k x).monitors = s.monitors := rfl
@[simp] theorem State.setDma_perf (k : Nat) (x : Dma) : (s.setDma k x).perf = s.perf := rfl
@[simp] theorem State.setDma_windows (k : Nat) (x : Dma) : (s.setDma k x).windows = s.windows := rfl
@[simp] theorem State.setDma_probes (k : Nat) (x : Dma) : (s.setDma k x).probes = s.probes := rfl

@[simp] theorem State.setTg_pending (k : Nat) (x : Tg) : (s.setTg k x).pending = s.pending := rfl
@[simp] theorem State.setTg_od (k : Nat) (x : Tg) : (s.setTg k x).od = s.od := rfl
@[simp] theorem State.setTg_shadow (k : Nat) (x : Tg) : (s.setTg k x).shadow = s.shadow := rfl
@[simp] theorem State.setTg_pins (k : Nat) (x : Tg) : (s.setTg k x).pins = s.pins := rfl
@[simp] theorem State.setTg_flash (k : Nat) (x : Tg) : (s.setTg k x).flash = s.flash := rfl
@[simp] theorem State.setTg_boot (k : Nat) (x : Tg) : (s.setTg k x).boot = s.boot := rfl
@[simp] theorem State.setTg_thermal (k : Nat) (x : Tg) : (s.setTg k x).thermal = s.thermal := rfl
@[simp] theorem State.setTg_uptime (k : Nat) (x : Tg) : (s.setTg k x).uptime = s.uptime := rfl
@[simp] theorem State.setTg_sessions (k : Nat) (x : Tg) : (s.setTg k x).sessions = s.sessions := rfl
@[simp] theorem State.setTg_conns (k : Nat) (x : Tg) : (s.setTg k x).conns = s.conns := rfl
@[simp] theorem State.setTg_journal (k : Nat) (x : Tg) : (s.setTg k x).journal = s.journal := rfl
@[simp] theorem State.setTg_journalNext (k : Nat) (x : Tg) : (s.setTg k x).journalNext = s.journalNext := rfl
@[simp] theorem State.setTg_can (k : Nat) (x : Tg) : (s.setTg k x).can = s.can := rfl
@[simp] theorem State.setTg_mgmtPorts (k : Nat) (x : Tg) : (s.setTg k x).mgmtPorts = s.mgmtPorts := rfl
@[simp] theorem State.setTg_scopes (k : Nat) (x : Tg) : (s.setTg k x).scopes = s.scopes := rfl
@[simp] theorem State.setTg_sources (k : Nat) (x : Tg) : (s.setTg k x).sources = s.sources := rfl
@[simp] theorem State.setTg_injectors (k : Nat) (x : Tg) : (s.setTg k x).injectors = s.injectors := rfl
@[simp] theorem State.setTg_domains (k : Nat) (x : Tg) : (s.setTg k x).domains = s.domains := rfl
@[simp] theorem State.setTg_holds (k : Nat) (x : Tg) : (s.setTg k x).holds = s.holds := rfl
@[simp] theorem State.setTg_outbox (k : Nat) (x : Tg) : (s.setTg k x).outbox = s.outbox := rfl
@[simp] theorem State.setTg_freeCount (k : Nat) (x : Tg) : (s.setTg k x).freeCount = s.freeCount := rfl
@[simp] theorem State.setTg_moduleTime (k : Nat) (x : Tg) : (s.setTg k x).moduleTime = s.moduleTime := rfl
@[simp] theorem State.setTg_perfInjected (k : Nat) (x : Tg) : (s.setTg k x).perfInjected = s.perfInjected := rfl
@[simp] theorem State.setTg_engines (k : Nat) (x : Tg) : (s.setTg k x).engines = s.engines := rfl
@[simp] theorem State.setTg_lanes (k : Nat) (x : Tg) : (s.setTg k x).lanes = s.lanes := rfl
@[simp] theorem State.setTg_members (k : Nat) (x : Tg) : (s.setTg k x).members = s.members := rfl
@[simp] theorem State.setTg_pfcSent (k : Nat) (x : Tg) : (s.setTg k x).pfcSent = s.pfcSent := rfl
@[simp] theorem State.setTg_trays (k : Nat) (x : Tg) : (s.setTg k x).trays = s.trays := rfl
@[simp] theorem State.setTg_keys (k : Nat) (x : Tg) : (s.setTg k x).keys = s.keys := rfl
@[simp] theorem State.setTg_kek (k : Nat) (x : Tg) : (s.setTg k x).kek = s.kek := rfl
@[simp] theorem State.setTg_hubs (k : Nat) (x : Tg) : (s.setTg k x).hubs = s.hubs := rfl
@[simp] theorem State.setTg_contexts (k : Nat) (x : Tg) : (s.setTg k x).contexts = s.contexts := rfl
@[simp] theorem State.setTg_hotCopies (k : Nat) (x : Tg) : (s.setTg k x).hotCopies = s.hotCopies := rfl
@[simp] theorem State.setTg_hotOrder (k : Nat) (x : Tg) : (s.setTg k x).hotOrder = s.hotOrder := rfl
@[simp] theorem State.setTg_leafRuns (k : Nat) (x : Tg) : (s.setTg k x).leafRuns = s.leafRuns := rfl
@[simp] theorem State.setTg_hubEgress (k : Nat) (x : Tg) : (s.setTg k x).hubEgress = s.hubEgress := rfl
@[simp] theorem State.setTg_pages (k : Nat) (x : Tg) : (s.setTg k x).pages = s.pages := rfl
@[simp] theorem State.setTg_stockpot (k : Nat) (x : Tg) : (s.setTg k x).stockpot = s.stockpot := rfl
@[simp] theorem State.setTg_dmas (k : Nat) (x : Tg) : (s.setTg k x).dmas = s.dmas := rfl
@[simp] theorem State.setTg_tgEntries (k : Nat) (x : Tg) : (s.setTg k x).tgEntries = s.tgEntries := rfl
@[simp] theorem State.setTg_tgs (k : Nat) (x : Tg) : (s.setTg k x).tgs = Tbl.put (fun _ => {}) s.tgs k x := rfl
@[simp] theorem State.setTg_timeCtl (k : Nat) (x : Tg) : (s.setTg k x).timeCtl = s.timeCtl := rfl
@[simp] theorem State.setTg_fpos (k : Nat) (x : Tg) : (s.setTg k x).fpos = s.fpos := rfl
@[simp] theorem State.setTg_monitors (k : Nat) (x : Tg) : (s.setTg k x).monitors = s.monitors := rfl
@[simp] theorem State.setTg_perf (k : Nat) (x : Tg) : (s.setTg k x).perf = s.perf := rfl
@[simp] theorem State.setTg_windows (k : Nat) (x : Tg) : (s.setTg k x).windows = s.windows := rfl
@[simp] theorem State.setTg_probes (k : Nat) (x : Tg) : (s.setTg k x).probes = s.probes := rfl

@[simp] theorem State.setFpo_pending (k : Nat) (x : Fpo) : (s.setFpo k x).pending = s.pending := rfl
@[simp] theorem State.setFpo_od (k : Nat) (x : Fpo) : (s.setFpo k x).od = s.od := rfl
@[simp] theorem State.setFpo_shadow (k : Nat) (x : Fpo) : (s.setFpo k x).shadow = s.shadow := rfl
@[simp] theorem State.setFpo_pins (k : Nat) (x : Fpo) : (s.setFpo k x).pins = s.pins := rfl
@[simp] theorem State.setFpo_flash (k : Nat) (x : Fpo) : (s.setFpo k x).flash = s.flash := rfl
@[simp] theorem State.setFpo_boot (k : Nat) (x : Fpo) : (s.setFpo k x).boot = s.boot := rfl
@[simp] theorem State.setFpo_thermal (k : Nat) (x : Fpo) : (s.setFpo k x).thermal = s.thermal := rfl
@[simp] theorem State.setFpo_uptime (k : Nat) (x : Fpo) : (s.setFpo k x).uptime = s.uptime := rfl
@[simp] theorem State.setFpo_sessions (k : Nat) (x : Fpo) : (s.setFpo k x).sessions = s.sessions := rfl
@[simp] theorem State.setFpo_conns (k : Nat) (x : Fpo) : (s.setFpo k x).conns = s.conns := rfl
@[simp] theorem State.setFpo_journal (k : Nat) (x : Fpo) : (s.setFpo k x).journal = s.journal := rfl
@[simp] theorem State.setFpo_journalNext (k : Nat) (x : Fpo) : (s.setFpo k x).journalNext = s.journalNext := rfl
@[simp] theorem State.setFpo_can (k : Nat) (x : Fpo) : (s.setFpo k x).can = s.can := rfl
@[simp] theorem State.setFpo_mgmtPorts (k : Nat) (x : Fpo) : (s.setFpo k x).mgmtPorts = s.mgmtPorts := rfl
@[simp] theorem State.setFpo_scopes (k : Nat) (x : Fpo) : (s.setFpo k x).scopes = s.scopes := rfl
@[simp] theorem State.setFpo_sources (k : Nat) (x : Fpo) : (s.setFpo k x).sources = s.sources := rfl
@[simp] theorem State.setFpo_injectors (k : Nat) (x : Fpo) : (s.setFpo k x).injectors = s.injectors := rfl
@[simp] theorem State.setFpo_domains (k : Nat) (x : Fpo) : (s.setFpo k x).domains = s.domains := rfl
@[simp] theorem State.setFpo_holds (k : Nat) (x : Fpo) : (s.setFpo k x).holds = s.holds := rfl
@[simp] theorem State.setFpo_outbox (k : Nat) (x : Fpo) : (s.setFpo k x).outbox = s.outbox := rfl
@[simp] theorem State.setFpo_freeCount (k : Nat) (x : Fpo) : (s.setFpo k x).freeCount = s.freeCount := rfl
@[simp] theorem State.setFpo_moduleTime (k : Nat) (x : Fpo) : (s.setFpo k x).moduleTime = s.moduleTime := rfl
@[simp] theorem State.setFpo_perfInjected (k : Nat) (x : Fpo) : (s.setFpo k x).perfInjected = s.perfInjected := rfl
@[simp] theorem State.setFpo_engines (k : Nat) (x : Fpo) : (s.setFpo k x).engines = s.engines := rfl
@[simp] theorem State.setFpo_lanes (k : Nat) (x : Fpo) : (s.setFpo k x).lanes = s.lanes := rfl
@[simp] theorem State.setFpo_members (k : Nat) (x : Fpo) : (s.setFpo k x).members = s.members := rfl
@[simp] theorem State.setFpo_pfcSent (k : Nat) (x : Fpo) : (s.setFpo k x).pfcSent = s.pfcSent := rfl
@[simp] theorem State.setFpo_trays (k : Nat) (x : Fpo) : (s.setFpo k x).trays = s.trays := rfl
@[simp] theorem State.setFpo_keys (k : Nat) (x : Fpo) : (s.setFpo k x).keys = s.keys := rfl
@[simp] theorem State.setFpo_kek (k : Nat) (x : Fpo) : (s.setFpo k x).kek = s.kek := rfl
@[simp] theorem State.setFpo_hubs (k : Nat) (x : Fpo) : (s.setFpo k x).hubs = s.hubs := rfl
@[simp] theorem State.setFpo_contexts (k : Nat) (x : Fpo) : (s.setFpo k x).contexts = s.contexts := rfl
@[simp] theorem State.setFpo_hotCopies (k : Nat) (x : Fpo) : (s.setFpo k x).hotCopies = s.hotCopies := rfl
@[simp] theorem State.setFpo_hotOrder (k : Nat) (x : Fpo) : (s.setFpo k x).hotOrder = s.hotOrder := rfl
@[simp] theorem State.setFpo_leafRuns (k : Nat) (x : Fpo) : (s.setFpo k x).leafRuns = s.leafRuns := rfl
@[simp] theorem State.setFpo_hubEgress (k : Nat) (x : Fpo) : (s.setFpo k x).hubEgress = s.hubEgress := rfl
@[simp] theorem State.setFpo_pages (k : Nat) (x : Fpo) : (s.setFpo k x).pages = s.pages := rfl
@[simp] theorem State.setFpo_stockpot (k : Nat) (x : Fpo) : (s.setFpo k x).stockpot = s.stockpot := rfl
@[simp] theorem State.setFpo_dmas (k : Nat) (x : Fpo) : (s.setFpo k x).dmas = s.dmas := rfl
@[simp] theorem State.setFpo_tgEntries (k : Nat) (x : Fpo) : (s.setFpo k x).tgEntries = s.tgEntries := rfl
@[simp] theorem State.setFpo_tgs (k : Nat) (x : Fpo) : (s.setFpo k x).tgs = s.tgs := rfl
@[simp] theorem State.setFpo_timeCtl (k : Nat) (x : Fpo) : (s.setFpo k x).timeCtl = s.timeCtl := rfl
@[simp] theorem State.setFpo_fpos (k : Nat) (x : Fpo) : (s.setFpo k x).fpos = Tbl.put (fun _ => {}) s.fpos k x := rfl
@[simp] theorem State.setFpo_monitors (k : Nat) (x : Fpo) : (s.setFpo k x).monitors = s.monitors := rfl
@[simp] theorem State.setFpo_perf (k : Nat) (x : Fpo) : (s.setFpo k x).perf = s.perf := rfl
@[simp] theorem State.setFpo_windows (k : Nat) (x : Fpo) : (s.setFpo k x).windows = s.windows := rfl
@[simp] theorem State.setFpo_probes (k : Nat) (x : Fpo) : (s.setFpo k x).probes = s.probes := rfl

@[simp] theorem State.setMonitor_pending (k : Nat) (x : Monitor) : (s.setMonitor k x).pending = s.pending := rfl
@[simp] theorem State.setMonitor_od (k : Nat) (x : Monitor) : (s.setMonitor k x).od = s.od := rfl
@[simp] theorem State.setMonitor_shadow (k : Nat) (x : Monitor) : (s.setMonitor k x).shadow = s.shadow := rfl
@[simp] theorem State.setMonitor_pins (k : Nat) (x : Monitor) : (s.setMonitor k x).pins = s.pins := rfl
@[simp] theorem State.setMonitor_flash (k : Nat) (x : Monitor) : (s.setMonitor k x).flash = s.flash := rfl
@[simp] theorem State.setMonitor_boot (k : Nat) (x : Monitor) : (s.setMonitor k x).boot = s.boot := rfl
@[simp] theorem State.setMonitor_thermal (k : Nat) (x : Monitor) : (s.setMonitor k x).thermal = s.thermal := rfl
@[simp] theorem State.setMonitor_uptime (k : Nat) (x : Monitor) : (s.setMonitor k x).uptime = s.uptime := rfl
@[simp] theorem State.setMonitor_sessions (k : Nat) (x : Monitor) : (s.setMonitor k x).sessions = s.sessions := rfl
@[simp] theorem State.setMonitor_conns (k : Nat) (x : Monitor) : (s.setMonitor k x).conns = s.conns := rfl
@[simp] theorem State.setMonitor_journal (k : Nat) (x : Monitor) : (s.setMonitor k x).journal = s.journal := rfl
@[simp] theorem State.setMonitor_journalNext (k : Nat) (x : Monitor) : (s.setMonitor k x).journalNext = s.journalNext := rfl
@[simp] theorem State.setMonitor_can (k : Nat) (x : Monitor) : (s.setMonitor k x).can = s.can := rfl
@[simp] theorem State.setMonitor_mgmtPorts (k : Nat) (x : Monitor) : (s.setMonitor k x).mgmtPorts = s.mgmtPorts := rfl
@[simp] theorem State.setMonitor_scopes (k : Nat) (x : Monitor) : (s.setMonitor k x).scopes = s.scopes := rfl
@[simp] theorem State.setMonitor_sources (k : Nat) (x : Monitor) : (s.setMonitor k x).sources = s.sources := rfl
@[simp] theorem State.setMonitor_injectors (k : Nat) (x : Monitor) : (s.setMonitor k x).injectors = s.injectors := rfl
@[simp] theorem State.setMonitor_domains (k : Nat) (x : Monitor) : (s.setMonitor k x).domains = s.domains := rfl
@[simp] theorem State.setMonitor_holds (k : Nat) (x : Monitor) : (s.setMonitor k x).holds = s.holds := rfl
@[simp] theorem State.setMonitor_outbox (k : Nat) (x : Monitor) : (s.setMonitor k x).outbox = s.outbox := rfl
@[simp] theorem State.setMonitor_freeCount (k : Nat) (x : Monitor) : (s.setMonitor k x).freeCount = s.freeCount := rfl
@[simp] theorem State.setMonitor_moduleTime (k : Nat) (x : Monitor) : (s.setMonitor k x).moduleTime = s.moduleTime := rfl
@[simp] theorem State.setMonitor_perfInjected (k : Nat) (x : Monitor) : (s.setMonitor k x).perfInjected = s.perfInjected := rfl
@[simp] theorem State.setMonitor_engines (k : Nat) (x : Monitor) : (s.setMonitor k x).engines = s.engines := rfl
@[simp] theorem State.setMonitor_lanes (k : Nat) (x : Monitor) : (s.setMonitor k x).lanes = s.lanes := rfl
@[simp] theorem State.setMonitor_members (k : Nat) (x : Monitor) : (s.setMonitor k x).members = s.members := rfl
@[simp] theorem State.setMonitor_pfcSent (k : Nat) (x : Monitor) : (s.setMonitor k x).pfcSent = s.pfcSent := rfl
@[simp] theorem State.setMonitor_trays (k : Nat) (x : Monitor) : (s.setMonitor k x).trays = s.trays := rfl
@[simp] theorem State.setMonitor_keys (k : Nat) (x : Monitor) : (s.setMonitor k x).keys = s.keys := rfl
@[simp] theorem State.setMonitor_kek (k : Nat) (x : Monitor) : (s.setMonitor k x).kek = s.kek := rfl
@[simp] theorem State.setMonitor_hubs (k : Nat) (x : Monitor) : (s.setMonitor k x).hubs = s.hubs := rfl
@[simp] theorem State.setMonitor_contexts (k : Nat) (x : Monitor) : (s.setMonitor k x).contexts = s.contexts := rfl
@[simp] theorem State.setMonitor_hotCopies (k : Nat) (x : Monitor) : (s.setMonitor k x).hotCopies = s.hotCopies := rfl
@[simp] theorem State.setMonitor_hotOrder (k : Nat) (x : Monitor) : (s.setMonitor k x).hotOrder = s.hotOrder := rfl
@[simp] theorem State.setMonitor_leafRuns (k : Nat) (x : Monitor) : (s.setMonitor k x).leafRuns = s.leafRuns := rfl
@[simp] theorem State.setMonitor_hubEgress (k : Nat) (x : Monitor) : (s.setMonitor k x).hubEgress = s.hubEgress := rfl
@[simp] theorem State.setMonitor_pages (k : Nat) (x : Monitor) : (s.setMonitor k x).pages = s.pages := rfl
@[simp] theorem State.setMonitor_stockpot (k : Nat) (x : Monitor) : (s.setMonitor k x).stockpot = s.stockpot := rfl
@[simp] theorem State.setMonitor_dmas (k : Nat) (x : Monitor) : (s.setMonitor k x).dmas = s.dmas := rfl
@[simp] theorem State.setMonitor_tgEntries (k : Nat) (x : Monitor) : (s.setMonitor k x).tgEntries = s.tgEntries := rfl
@[simp] theorem State.setMonitor_tgs (k : Nat) (x : Monitor) : (s.setMonitor k x).tgs = s.tgs := rfl
@[simp] theorem State.setMonitor_timeCtl (k : Nat) (x : Monitor) : (s.setMonitor k x).timeCtl = s.timeCtl := rfl
@[simp] theorem State.setMonitor_fpos (k : Nat) (x : Monitor) : (s.setMonitor k x).fpos = s.fpos := rfl
@[simp] theorem State.setMonitor_monitors (k : Nat) (x : Monitor) : (s.setMonitor k x).monitors = Tbl.put (fun _ => {}) s.monitors k x := rfl
@[simp] theorem State.setMonitor_perf (k : Nat) (x : Monitor) : (s.setMonitor k x).perf = s.perf := rfl
@[simp] theorem State.setMonitor_windows (k : Nat) (x : Monitor) : (s.setMonitor k x).windows = s.windows := rfl
@[simp] theorem State.setMonitor_probes (k : Nat) (x : Monitor) : (s.setMonitor k x).probes = s.probes := rfl

@[simp] theorem State.setWindow_pending (k : Nat) (x : Window) : (s.setWindow k x).pending = s.pending := rfl
@[simp] theorem State.setWindow_od (k : Nat) (x : Window) : (s.setWindow k x).od = s.od := rfl
@[simp] theorem State.setWindow_shadow (k : Nat) (x : Window) : (s.setWindow k x).shadow = s.shadow := rfl
@[simp] theorem State.setWindow_pins (k : Nat) (x : Window) : (s.setWindow k x).pins = s.pins := rfl
@[simp] theorem State.setWindow_flash (k : Nat) (x : Window) : (s.setWindow k x).flash = s.flash := rfl
@[simp] theorem State.setWindow_boot (k : Nat) (x : Window) : (s.setWindow k x).boot = s.boot := rfl
@[simp] theorem State.setWindow_thermal (k : Nat) (x : Window) : (s.setWindow k x).thermal = s.thermal := rfl
@[simp] theorem State.setWindow_uptime (k : Nat) (x : Window) : (s.setWindow k x).uptime = s.uptime := rfl
@[simp] theorem State.setWindow_sessions (k : Nat) (x : Window) : (s.setWindow k x).sessions = s.sessions := rfl
@[simp] theorem State.setWindow_conns (k : Nat) (x : Window) : (s.setWindow k x).conns = s.conns := rfl
@[simp] theorem State.setWindow_journal (k : Nat) (x : Window) : (s.setWindow k x).journal = s.journal := rfl
@[simp] theorem State.setWindow_journalNext (k : Nat) (x : Window) : (s.setWindow k x).journalNext = s.journalNext := rfl
@[simp] theorem State.setWindow_can (k : Nat) (x : Window) : (s.setWindow k x).can = s.can := rfl
@[simp] theorem State.setWindow_mgmtPorts (k : Nat) (x : Window) : (s.setWindow k x).mgmtPorts = s.mgmtPorts := rfl
@[simp] theorem State.setWindow_scopes (k : Nat) (x : Window) : (s.setWindow k x).scopes = s.scopes := rfl
@[simp] theorem State.setWindow_sources (k : Nat) (x : Window) : (s.setWindow k x).sources = s.sources := rfl
@[simp] theorem State.setWindow_injectors (k : Nat) (x : Window) : (s.setWindow k x).injectors = s.injectors := rfl
@[simp] theorem State.setWindow_domains (k : Nat) (x : Window) : (s.setWindow k x).domains = s.domains := rfl
@[simp] theorem State.setWindow_holds (k : Nat) (x : Window) : (s.setWindow k x).holds = s.holds := rfl
@[simp] theorem State.setWindow_outbox (k : Nat) (x : Window) : (s.setWindow k x).outbox = s.outbox := rfl
@[simp] theorem State.setWindow_freeCount (k : Nat) (x : Window) : (s.setWindow k x).freeCount = s.freeCount := rfl
@[simp] theorem State.setWindow_moduleTime (k : Nat) (x : Window) : (s.setWindow k x).moduleTime = s.moduleTime := rfl
@[simp] theorem State.setWindow_perfInjected (k : Nat) (x : Window) : (s.setWindow k x).perfInjected = s.perfInjected := rfl
@[simp] theorem State.setWindow_engines (k : Nat) (x : Window) : (s.setWindow k x).engines = s.engines := rfl
@[simp] theorem State.setWindow_lanes (k : Nat) (x : Window) : (s.setWindow k x).lanes = s.lanes := rfl
@[simp] theorem State.setWindow_members (k : Nat) (x : Window) : (s.setWindow k x).members = s.members := rfl
@[simp] theorem State.setWindow_pfcSent (k : Nat) (x : Window) : (s.setWindow k x).pfcSent = s.pfcSent := rfl
@[simp] theorem State.setWindow_trays (k : Nat) (x : Window) : (s.setWindow k x).trays = s.trays := rfl
@[simp] theorem State.setWindow_keys (k : Nat) (x : Window) : (s.setWindow k x).keys = s.keys := rfl
@[simp] theorem State.setWindow_kek (k : Nat) (x : Window) : (s.setWindow k x).kek = s.kek := rfl
@[simp] theorem State.setWindow_hubs (k : Nat) (x : Window) : (s.setWindow k x).hubs = s.hubs := rfl
@[simp] theorem State.setWindow_contexts (k : Nat) (x : Window) : (s.setWindow k x).contexts = s.contexts := rfl
@[simp] theorem State.setWindow_hotCopies (k : Nat) (x : Window) : (s.setWindow k x).hotCopies = s.hotCopies := rfl
@[simp] theorem State.setWindow_hotOrder (k : Nat) (x : Window) : (s.setWindow k x).hotOrder = s.hotOrder := rfl
@[simp] theorem State.setWindow_leafRuns (k : Nat) (x : Window) : (s.setWindow k x).leafRuns = s.leafRuns := rfl
@[simp] theorem State.setWindow_hubEgress (k : Nat) (x : Window) : (s.setWindow k x).hubEgress = s.hubEgress := rfl
@[simp] theorem State.setWindow_pages (k : Nat) (x : Window) : (s.setWindow k x).pages = s.pages := rfl
@[simp] theorem State.setWindow_stockpot (k : Nat) (x : Window) : (s.setWindow k x).stockpot = s.stockpot := rfl
@[simp] theorem State.setWindow_dmas (k : Nat) (x : Window) : (s.setWindow k x).dmas = s.dmas := rfl
@[simp] theorem State.setWindow_tgEntries (k : Nat) (x : Window) : (s.setWindow k x).tgEntries = s.tgEntries := rfl
@[simp] theorem State.setWindow_tgs (k : Nat) (x : Window) : (s.setWindow k x).tgs = s.tgs := rfl
@[simp] theorem State.setWindow_timeCtl (k : Nat) (x : Window) : (s.setWindow k x).timeCtl = s.timeCtl := rfl
@[simp] theorem State.setWindow_fpos (k : Nat) (x : Window) : (s.setWindow k x).fpos = s.fpos := rfl
@[simp] theorem State.setWindow_monitors (k : Nat) (x : Window) : (s.setWindow k x).monitors = s.monitors := rfl
@[simp] theorem State.setWindow_perf (k : Nat) (x : Window) : (s.setWindow k x).perf = s.perf := rfl
@[simp] theorem State.setWindow_windows (k : Nat) (x : Window) : (s.setWindow k x).windows = Tbl.put (fun _ => {}) s.windows k x := rfl
@[simp] theorem State.setWindow_probes (k : Nat) (x : Window) : (s.setWindow k x).probes = s.probes := rfl

end Sys2Proof.Machine
end

