-- ==== Sys2Proof/Laws/Journal.lean ====
section
/-! SUPPORT. What a journal entry and its notifications leave as it was, and what a command of a host does in each case. -/

namespace Sys2Proof.Machine

variable (s : State)

/-- A notification changes only its session's record and the outbox. -/
theorem State.notify_eq (k kind : Nat) (c : Bytes) :
    (s.notify k kind c).2 = { s with sessions := (s.notify k kind c).2.sessions, outbox := (s.notify k kind c).2.outbox } := by
  unfold State.notify
  extract_lets x sec cnt seq
  split <;> rfl

theorem State.notifyAll_eq (bit kind : Nat) (c : Bytes) :
    (s.notifyAll bit kind c).2
      = { s with sessions := (s.notifyAll bit kind c).2.sessions, outbox := (s.notifyAll bit kind c).2.outbox } := by
  unfold State.notifyAll
  generalize List.range 8 = l
  suffices h : ∀ (r : Bool × State), ∀ u : State, (r.2 = { u with sessions := r.2.sessions, outbox := r.2.outbox }) →
      (l.foldl (fun (r : Bool × State) k =>
        let x := r.2.session k
        if x.isOpen && (x.subs / 2 ^ bit % 2 = 1) && r.2.boot.fwReady then
          let q := r.2.notify k kind c
          (r.1 || q.1, q.2)
        else r) r).2 = { u with
          sessions := (l.foldl (fun (r : Bool × State) k =>
            let x := r.2.session k
            if x.isOpen && (x.subs / 2 ^ bit % 2 = 1) && r.2.boot.fwReady then
              let q := r.2.notify k kind c
              (r.1 || q.1, q.2)
            else r) r).2.sessions
          outbox := (l.foldl (fun (r : Bool × State) k =>
            let x := r.2.session k
            if x.isOpen && (x.subs / 2 ^ bit % 2 = 1) && r.2.boot.fwReady then
              let q := r.2.notify k kind c
              (r.1 || q.1, q.2)
            else r) r).2.outbox } from h (false, s) s rfl
  induction l with
  | nil => exact fun r u h => h
  | cons a l ih =>
    intro r u h
    rw [List.foldl_cons]
    apply ih
    dsimp only
    split
    · rw [State.notify_eq, h]
    · exact h

/-- A journal entry changes only the journal, its counter, sessions and the outbox. -/
theorem State.journalAdd_eq (slot kind idx inst sub role gen : Nat) :
    s.journalAdd slot kind idx inst sub role gen = { s with
      journal := (⟨s.journalNext, s.stampNow, slot, kind, idx, inst, sub, role, gen⟩ :: s.journal).take 1024
      journalNext := s.journalNext + 1
      sessions := (s.journalAdd slot kind idx inst sub role gen).sessions
      outbox := (s.journalAdd slot kind idx inst sub role gen).outbox } := by
  unfold State.journalAdd
  exact State.notifyAll_eq _ _ _ _

@[simp] theorem State.journalAdd_pending (slot kind idx inst sub role gen : Nat) :
    (s.journalAdd slot kind idx inst sub role gen).pending = s.pending := by rw [State.journalAdd_eq]
@[simp] theorem State.journalAdd_od (slot kind idx inst sub role gen : Nat) :
    (s.journalAdd slot kind idx inst sub role gen).od = s.od := by rw [State.journalAdd_eq]
@[simp] theorem State.journalAdd_shadow (slot kind idx inst sub role gen : Nat) :
    (s.journalAdd slot kind idx inst sub role gen).shadow = s.shadow := by rw [State.journalAdd_eq]
@[simp] theorem State.journalAdd_pins (slot kind idx inst sub role gen : Nat) :
    (s.journalAdd slot kind idx inst sub role gen).pins = s.pins := by rw [State.journalAdd_eq]
@[simp] theorem State.journalAdd_flash (slot kind idx inst sub role gen : Nat) :
    (s.journalAdd slot kind idx inst sub role gen).flash = s.flash := by rw [State.journalAdd_eq]
@[simp] theorem State.journalAdd_boot (slot kind idx inst sub role gen : Nat) :
    (s.journalAdd slot kind idx inst sub role gen).boot = s.boot := by rw [State.journalAdd_eq]
@[simp] theorem State.journalAdd_thermal (slot kind idx inst sub role gen : Nat) :
    (s.journalAdd slot kind idx inst sub role gen).thermal = s.thermal := by rw [State.journalAdd_eq]
@[simp] theorem State.journalAdd_uptime (slot kind idx inst sub role gen : Nat) :
    (s.journalAdd slot kind idx inst sub role gen).uptime = s.uptime := by rw [State.journalAdd_eq]
@[simp] theorem State.journalAdd_conns (slot kind idx inst sub role gen : Nat) :
    (s.journalAdd slot kind idx inst sub role gen).conns = s.conns := by rw [State.journalAdd_eq]
@[simp] theorem State.journalAdd_journal (slot kind idx inst sub role gen : Nat) :
    (s.journalAdd slot kind idx inst sub role gen).journal = (⟨s.journalNext, s.stampNow, slot, kind, idx, inst, sub, role, gen⟩ :: s.journal).take 1024 := by rw [State.journalAdd_eq]
@[simp] theorem State.journalAdd_journalNext (slot kind idx inst sub role gen : Nat) :
    (s.journalAdd slot kind idx inst sub role gen).journalNext = s.journalNext + 1 := by rw [State.journalAdd_eq]
@[simp] theorem State.journalAdd_can (slot kind idx inst sub role gen : Nat) :
    (s.journalAdd slot kind idx inst sub role gen).can = s.can := by rw [State.journalAdd_eq]
@[simp] theorem State.journalAdd_mgmtPorts (slot kind idx inst sub role gen : Nat) :
    (s.journalAdd slot kind idx inst sub role gen).mgmtPorts = s.mgmtPorts := by rw [State.journalAdd_eq]
@[simp] theorem State.journalAdd_scopes (slot kind idx inst sub role gen : Nat) :
    (s.journalAdd slot kind idx inst sub role gen).scopes = s.scopes := by rw [State.journalAdd_eq]
@[simp] theorem State.journalAdd_sources (slot kind idx inst sub role gen : Nat) :
    (s.journalAdd slot kind idx inst sub role gen).sources = s.sources := by rw [State.journalAdd_eq]
@[simp] theorem State.journalAdd_injectors (slot kind idx inst sub role gen : Nat) :
    (s.journalAdd slot kind idx inst sub role gen).injectors = s.injectors := by rw [State.journalAdd_eq]
@[simp] theorem State.journalAdd_domains (slot kind idx inst sub role gen : Nat) :
    (s.journalAdd slot kind idx inst sub role gen).domains = s.domains := by rw [State.journalAdd_eq]
@[simp] theorem State.journalAdd_holds (slot kind idx inst sub role gen : Nat) :
    (s.journalAdd slot kind idx inst sub role gen).holds = s.holds := by rw [State.journalAdd_eq]
@[simp] theorem State.journalAdd_freeCount (slot kind idx inst sub role gen : Nat) :
    (s.journalAdd slot kind idx inst sub role gen).freeCount = s.freeCount := by rw [State.journalAdd_eq]
@[simp] theorem State.journalAdd_moduleTime (slot kind idx inst sub role gen : Nat) :
    (s.journalAdd slot kind idx inst sub role gen).moduleTime = s.moduleTime := by rw [State.journalAdd_eq]
@[simp] theorem State.journalAdd_perfInjected (slot kind idx inst sub role gen : Nat) :
    (s.journalAdd slot kind idx inst sub role gen).perfInjected = s.perfInjected := by rw [State.journalAdd_eq]
@[simp] theorem State.journalAdd_engines (slot kind idx inst sub role gen : Nat) :
    (s.journalAdd slot kind idx inst sub role gen).engines = s.engines := by rw [State.journalAdd_eq]
@[simp] theorem State.journalAdd_lanes (slot kind idx inst sub role gen : Nat) :
    (s.journalAdd slot kind idx inst sub role gen).lanes = s.lanes := by rw [State.journalAdd_eq]
@[simp] theorem State.journalAdd_members (slot kind idx inst sub role gen : Nat) :
    (s.journalAdd slot kind idx inst sub role gen).members = s.members := by rw [State.journalAdd_eq]
@[simp] theorem State.journalAdd_pfcSent (slot kind idx inst sub role gen : Nat) :
    (s.journalAdd slot kind idx inst sub role gen).pfcSent = s.pfcSent := by rw [State.journalAdd_eq]
@[simp] theorem State.journalAdd_trays (slot kind idx inst sub role gen : Nat) :
    (s.journalAdd slot kind idx inst sub role gen).trays = s.trays := by rw [State.journalAdd_eq]
@[simp] theorem State.journalAdd_keys (slot kind idx inst sub role gen : Nat) :
    (s.journalAdd slot kind idx inst sub role gen).keys = s.keys := by rw [State.journalAdd_eq]
@[simp] theorem State.journalAdd_kek (slot kind idx inst sub role gen : Nat) :
    (s.journalAdd slot kind idx inst sub role gen).kek = s.kek := by rw [State.journalAdd_eq]
@[simp] theorem State.journalAdd_hubs (slot kind idx inst sub role gen : Nat) :
    (s.journalAdd slot kind idx inst sub role gen).hubs = s.hubs := by rw [State.journalAdd_eq]
@[simp] theorem State.journalAdd_contexts (slot kind idx inst sub role gen : Nat) :
    (s.journalAdd slot kind idx inst sub role gen).contexts = s.contexts := by rw [State.journalAdd_eq]
@[simp] theorem State.journalAdd_hotCopies (slot kind idx inst sub role gen : Nat) :
    (s.journalAdd slot kind idx inst sub role gen).hotCopies = s.hotCopies := by rw [State.journalAdd_eq]
@[simp] theorem State.journalAdd_hotOrder (slot kind idx inst sub role gen : Nat) :
    (s.journalAdd slot kind idx inst sub role gen).hotOrder = s.hotOrder := by rw [State.journalAdd_eq]
@[simp] theorem State.journalAdd_leafRuns (slot kind idx inst sub role gen : Nat) :
    (s.journalAdd slot kind idx inst sub role gen).leafRuns = s.leafRuns := by rw [State.journalAdd_eq]
@[simp] theorem State.journalAdd_hubEgress (slot kind idx inst sub role gen : Nat) :
    (s.journalAdd slot kind idx inst sub role gen).hubEgress = s.hubEgress := by rw [State.journalAdd_eq]
@[simp] theorem State.journalAdd_pages (slot kind idx inst sub role gen : Nat) :
    (s.journalAdd slot kind idx inst sub role gen).pages = s.pages := by rw [State.journalAdd_eq]
@[simp] theorem State.journalAdd_stockpot (slot kind idx inst sub role gen : Nat) :
    (s.journalAdd slot kind idx inst sub role gen).stockpot = s.stockpot := by rw [State.journalAdd_eq]
@[simp] theorem State.journalAdd_dmas (slot kind idx inst sub role gen : Nat) :
    (s.journalAdd slot kind idx inst sub role gen).dmas = s.dmas := by rw [State.journalAdd_eq]
@[simp] theorem State.journalAdd_tgEntries (slot kind idx inst sub role gen : Nat) :
    (s.journalAdd slot kind idx inst sub role gen).tgEntries = s.tgEntries := by rw [State.journalAdd_eq]
@[simp] theorem State.journalAdd_tgs (slot kind idx inst sub role gen : Nat) :
    (s.journalAdd slot kind idx inst sub role gen).tgs = s.tgs := by rw [State.journalAdd_eq]
@[simp] theorem State.journalAdd_timeCtl (slot kind idx inst sub role gen : Nat) :
    (s.journalAdd slot kind idx inst sub role gen).timeCtl = s.timeCtl := by rw [State.journalAdd_eq]
@[simp] theorem State.journalAdd_fpos (slot kind idx inst sub role gen : Nat) :
    (s.journalAdd slot kind idx inst sub role gen).fpos = s.fpos := by rw [State.journalAdd_eq]
@[simp] theorem State.journalAdd_monitors (slot kind idx inst sub role gen : Nat) :
    (s.journalAdd slot kind idx inst sub role gen).monitors = s.monitors := by rw [State.journalAdd_eq]
@[simp] theorem State.journalAdd_perf (slot kind idx inst sub role gen : Nat) :
    (s.journalAdd slot kind idx inst sub role gen).perf = s.perf := by rw [State.journalAdd_eq]
@[simp] theorem State.journalAdd_windows (slot kind idx inst sub role gen : Nat) :
    (s.journalAdd slot kind idx inst sub role gen).windows = s.windows := by rw [State.journalAdd_eq]
@[simp] theorem State.journalAdd_probes (slot kind idx inst sub role gen : Nat) :
    (s.journalAdd slot kind idx inst sub role gen).probes = s.probes := by rw [State.journalAdd_eq]

@[simp] theorem State.journalBy_pending (k kind idx inst sub gen : Nat) :
    (s.journalBy k kind idx inst sub gen).pending = s.pending := State.journalAdd_pending ..
@[simp] theorem State.journalBy_od (k kind idx inst sub gen : Nat) :
    (s.journalBy k kind idx inst sub gen).od = s.od := State.journalAdd_od ..
@[simp] theorem State.journalBy_shadow (k kind idx inst sub gen : Nat) :
    (s.journalBy k kind idx inst sub gen).shadow = s.shadow := State.journalAdd_shadow ..
@[simp] theorem State.journalBy_pins (k kind idx inst sub gen : Nat) :
    (s.journalBy k kind idx inst sub gen).pins = s.pins := State.journalAdd_pins ..
@[simp] theorem State.journalBy_flash (k kind idx inst sub gen : Nat) :
    (s.journalBy k kind idx inst sub gen).flash = s.flash := State.journalAdd_flash ..
@[simp] theorem State.journalBy_boot (k kind idx inst sub gen : Nat) :
    (s.journalBy k kind idx inst sub gen).boot = s.boot := State.journalAdd_boot ..
@[simp] theorem State.journalBy_thermal (k kind idx inst sub gen : Nat) :
    (s.journalBy k kind idx inst sub gen).thermal = s.thermal := State.journalAdd_thermal ..
@[simp] theorem State.journalBy_uptime (k kind idx inst sub gen : Nat) :
    (s.journalBy k kind idx inst sub gen).uptime = s.uptime := State.journalAdd_uptime ..
@[simp] theorem State.journalBy_conns (k kind idx inst sub gen : Nat) :
    (s.journalBy k kind idx inst sub gen).conns = s.conns := State.journalAdd_conns ..
@[simp] theorem State.journalBy_journal (k kind idx inst sub gen : Nat) :
    (s.journalBy k kind idx inst sub gen).journal = (⟨s.journalNext, s.stampNow, k, kind, idx, inst, sub, (s.session k).role, gen⟩ :: s.journal).take 1024 := State.journalAdd_journal ..
@[simp] theorem State.journalBy_journalNext (k kind idx inst sub gen : Nat) :
    (s.journalBy k kind idx inst sub gen).journalNext = s.journalNext + 1 := State.journalAdd_journalNext ..
@[simp] theorem State.journalBy_can (k kind idx inst sub gen : Nat) :
    (s.journalBy k kind idx inst sub gen).can = s.can := State.journalAdd_can ..
@[simp] theorem State.journalBy_mgmtPorts (k kind idx inst sub gen : Nat) :
    (s.journalBy k kind idx inst sub gen).mgmtPorts = s.mgmtPorts := State.journalAdd_mgmtPorts ..
@[simp] theorem State.journalBy_scopes (k kind idx inst sub gen : Nat) :
    (s.journalBy k kind idx inst sub gen).scopes = s.scopes := State.journalAdd_scopes ..
@[simp] theorem State.journalBy_sources (k kind idx inst sub gen : Nat) :
    (s.journalBy k kind idx inst sub gen).sources = s.sources := State.journalAdd_sources ..
@[simp] theorem State.journalBy_injectors (k kind idx inst sub gen : Nat) :
    (s.journalBy k kind idx inst sub gen).injectors = s.injectors := State.journalAdd_injectors ..
@[simp] theorem State.journalBy_domains (k kind idx inst sub gen : Nat) :
    (s.journalBy k kind idx inst sub gen).domains = s.domains := State.journalAdd_domains ..
@[simp] theorem State.journalBy_holds (k kind idx inst sub gen : Nat) :
    (s.journalBy k kind idx inst sub gen).holds = s.holds := State.journalAdd_holds ..
@[simp] theorem State.journalBy_freeCount (k kind idx inst sub gen : Nat) :
    (s.journalBy k kind idx inst sub gen).freeCount = s.freeCount := State.journalAdd_freeCount ..
@[simp] theorem State.journalBy_moduleTime (k kind idx inst sub gen : Nat) :
    (s.journalBy k kind idx inst sub gen).moduleTime = s.moduleTime := State.journalAdd_moduleTime ..
@[simp] theorem State.journalBy_perfInjected (k kind idx inst sub gen : Nat) :
    (s.journalBy k kind idx inst sub gen).perfInjected = s.perfInjected := State.journalAdd_perfInjected ..
@[simp] theorem State.journalBy_engines (k kind idx inst sub gen : Nat) :
    (s.journalBy k kind idx inst sub gen).engines = s.engines := State.journalAdd_engines ..
@[simp] theorem State.journalBy_lanes (k kind idx inst sub gen : Nat) :
    (s.journalBy k kind idx inst sub gen).lanes = s.lanes := State.journalAdd_lanes ..
@[simp] theorem State.journalBy_members (k kind idx inst sub gen : Nat) :
    (s.journalBy k kind idx inst sub gen).members = s.members := State.journalAdd_members ..
@[simp] theorem State.journalBy_pfcSent (k kind idx inst sub gen : Nat) :
    (s.journalBy k kind idx inst sub gen).pfcSent = s.pfcSent := State.journalAdd_pfcSent ..
@[simp] theorem State.journalBy_trays (k kind idx inst sub gen : Nat) :
    (s.journalBy k kind idx inst sub gen).trays = s.trays := State.journalAdd_trays ..
@[simp] theorem State.journalBy_keys (k kind idx inst sub gen : Nat) :
    (s.journalBy k kind idx inst sub gen).keys = s.keys := State.journalAdd_keys ..
@[simp] theorem State.journalBy_kek (k kind idx inst sub gen : Nat) :
    (s.journalBy k kind idx inst sub gen).kek = s.kek := State.journalAdd_kek ..
@[simp] theorem State.journalBy_hubs (k kind idx inst sub gen : Nat) :
    (s.journalBy k kind idx inst sub gen).hubs = s.hubs := State.journalAdd_hubs ..
@[simp] theorem State.journalBy_contexts (k kind idx inst sub gen : Nat) :
    (s.journalBy k kind idx inst sub gen).contexts = s.contexts := State.journalAdd_contexts ..
@[simp] theorem State.journalBy_hotCopies (k kind idx inst sub gen : Nat) :
    (s.journalBy k kind idx inst sub gen).hotCopies = s.hotCopies := State.journalAdd_hotCopies ..
@[simp] theorem State.journalBy_hotOrder (k kind idx inst sub gen : Nat) :
    (s.journalBy k kind idx inst sub gen).hotOrder = s.hotOrder := State.journalAdd_hotOrder ..
@[simp] theorem State.journalBy_leafRuns (k kind idx inst sub gen : Nat) :
    (s.journalBy k kind idx inst sub gen).leafRuns = s.leafRuns := State.journalAdd_leafRuns ..
@[simp] theorem State.journalBy_hubEgress (k kind idx inst sub gen : Nat) :
    (s.journalBy k kind idx inst sub gen).hubEgress = s.hubEgress := State.journalAdd_hubEgress ..
@[simp] theorem State.journalBy_pages (k kind idx inst sub gen : Nat) :
    (s.journalBy k kind idx inst sub gen).pages = s.pages := State.journalAdd_pages ..
@[simp] theorem State.journalBy_stockpot (k kind idx inst sub gen : Nat) :
    (s.journalBy k kind idx inst sub gen).stockpot = s.stockpot := State.journalAdd_stockpot ..
@[simp] theorem State.journalBy_dmas (k kind idx inst sub gen : Nat) :
    (s.journalBy k kind idx inst sub gen).dmas = s.dmas := State.journalAdd_dmas ..
@[simp] theorem State.journalBy_tgEntries (k kind idx inst sub gen : Nat) :
    (s.journalBy k kind idx inst sub gen).tgEntries = s.tgEntries := State.journalAdd_tgEntries ..
@[simp] theorem State.journalBy_tgs (k kind idx inst sub gen : Nat) :
    (s.journalBy k kind idx inst sub gen).tgs = s.tgs := State.journalAdd_tgs ..
@[simp] theorem State.journalBy_timeCtl (k kind idx inst sub gen : Nat) :
    (s.journalBy k kind idx inst sub gen).timeCtl = s.timeCtl := State.journalAdd_timeCtl ..
@[simp] theorem State.journalBy_fpos (k kind idx inst sub gen : Nat) :
    (s.journalBy k kind idx inst sub gen).fpos = s.fpos := State.journalAdd_fpos ..
@[simp] theorem State.journalBy_monitors (k kind idx inst sub gen : Nat) :
    (s.journalBy k kind idx inst sub gen).monitors = s.monitors := State.journalAdd_monitors ..
@[simp] theorem State.journalBy_perf (k kind idx inst sub gen : Nat) :
    (s.journalBy k kind idx inst sub gen).perf = s.perf := State.journalAdd_perf ..
@[simp] theorem State.journalBy_windows (k kind idx inst sub gen : Nat) :
    (s.journalBy k kind idx inst sub gen).windows = s.windows := State.journalAdd_windows ..
@[simp] theorem State.journalBy_probes (k kind idx inst sub gen : Nat) :
    (s.journalBy k kind idx inst sub gen).probes = s.probes := State.journalAdd_probes ..

theorem State.journalBy_val (k kind idx inst sub gen key : Nat) : (s.journalBy k kind idx inst sub gen).val key = s.val key := by
  simp [State.val]
@[simp] theorem State.journalBy_nat (k kind idx inst sub gen key : Nat) :
    (s.journalBy k kind idx inst sub gen).nat key = s.nat key := by
  simp [State.nat, State.val]
@[simp] theorem State.journalBy_flag (k kind idx inst sub gen key : Nat) :
    (s.journalBy k kind idx inst sub gen).flag key = s.flag key := by
  simp [State.flag, State.val]
@[simp] theorem State.journalBy_engine (k kind idx inst sub gen n : Nat) :
    (s.journalBy k kind idx inst sub gen).engine n = s.engine n := by
  simp [State.engine]
@[simp] theorem State.journalBy_domain (k kind idx inst sub gen n : Nat) :
    (s.journalBy k kind idx inst sub gen).domain n = s.domain n := by
  simp [State.domain]

/-! ### Commands of a host -/

variable {s}

/-- An admitted command whose effect is accepted. -/
theorem hostCmd_accepts {k key code : Nat} {effect : State → Status × State} {t : State} (ha : s.answers k = true)
    (hg : writeGate s k (keyIdx key) (keyInst key) (keySub key) code = .ok)
    (he : effect (s.journalBy k 3 (keyIdx key) (keyInst key) (keySub key)) = (.ok, t)) : hostCmd s k key code effect = t := by
  simp [hostCmd, ha, hg, he]

/-- An admitted command whose effect refuses. -/
theorem hostCmd_refuses {k key code : Nat} {effect : State → Status × State} (ha : s.answers k = true)
    (hg : writeGate s k (keyIdx key) (keyInst key) (keySub key) code = .ok)
    (he : (effect (s.journalBy k 3 (keyIdx key) (keyInst key) (keySub key))).1 ≠ .ok) :
    hostCmd s k key code effect = ((effect s).2).refuse k (effect (s.journalBy k 3 (keyIdx key) (keyInst key) (keySub key))).1 := by
  simp [hostCmd, ha, hg, he]

/-- A command that a common check refuses leaves only `LastStatus` (R98). -/
theorem hostCmd_gate {k key code : Nat} {effect : State → Status × State} (ha : s.answers k = true)
    (hg : writeGate s k (keyIdx key) (keyInst key) (keySub key) code ≠ .ok) :
    hostCmd s k key code effect = s.refuse k (writeGate s k (keyIdx key) (keyInst key) (keySub key) code) := by
  unfold hostCmd
  simp only [ha, Bool.not_true, Bool.false_eq_true, if_false]

/-- Without an open session that a transport answers nothing happens. -/
theorem hostCmd_silent {k key code : Nat} {effect : State → Status × State} (ha : s.answers k = false) :
    hostCmd s k key code effect = s := by
  simp [hostCmd, ha]

end Sys2Proof.Machine
end

