-- ==== Sys2Proof/Laws/Kept.lean ====
section
/-! SUPPORT. Keeping the queue and the well-formedness of the state: the notion, the shapes of results it is said of, and the
operations that everything else is made of. -/

namespace Sys2Proof.Machine

/-- The state is well-formed and its queue is `p`. -/
structure Kept (p : List Instr) (s : State) : Prop where
  queue : s.pending = p
  tidy : Tidy s

/-- The same of the state in a result with one, two or three further values, of a state that may be absent, and of an outcome. -/
structure Kept2 (p : List Instr) {α : Type} (r : α × State) : Prop where
  out : Kept p r.2
structure Kept3 (p : List Instr) {α β : Type} (r : α × β × State) : Prop where
  out : Kept p r.2.2
structure Kept4 (p : List Instr) {α β γ : Type} (r : α × β × γ × State) : Prop where
  out : Kept p r.2.2.2
structure KeptOpt (p : List Instr) (o : Option State) : Prop where
  out : ∀ t, o = some t → Kept p t
structure KeptOut (p : List Instr) (o : Out) : Prop where
  out : ∀ t, o = .next t → Kept p t

variable {p : List Instr} {α β γ ι : Type} {s : State}

/-! ### Shapes -/

theorem kept2_mk {a : α} (h : Kept p s) : Kept2 p (a, s) := ⟨h⟩
theorem kept3_mk {a : α} {b : β} (h : Kept p s) : Kept3 p (a, b, s) := ⟨h⟩
theorem kept3_mk' {a : α} {r : β × State} (h : Kept2 p r) : Kept3 p (a, r) := ⟨h.out⟩
theorem kept4_mk {a : α} {b : β} {c : γ} (h : Kept p s) : Kept4 p (a, b, c, s) := ⟨h⟩
theorem kept4_mk' {a : α} {b : β} {r : γ × State} (h : Kept2 p r) : Kept4 p (a, b, r) := ⟨h.out⟩
theorem keptOpt_some (h : Kept p s) : KeptOpt p (some s) := ⟨fun _ e => Option.some.inj e ▸ h⟩
theorem keptOpt_none : KeptOpt p none := ⟨fun _ e => nomatch e⟩
theorem keptOut_next (h : Kept p s) : KeptOut p (.next s) := ⟨fun _ e => Host.Outcome.next.inj e ▸ h⟩
theorem keptOut_fault {f : Fault} : KeptOut p (.fault f) := ⟨fun _ e => nomatch e⟩
theorem keptOut_refused {f : Refusal} : KeptOut p (.refused f) := ⟨fun _ e => nomatch e⟩

theorem kept_ite {c : Prop} [Decidable c] {a b : State} (ha : Kept p a) (hb : Kept p b) : Kept p (if c then a else b) := by
  split <;> assumption
theorem kept2_ite {c : Prop} [Decidable c] {a b : α × State} (ha : Kept2 p a) (hb : Kept2 p b) : Kept2 p (if c then a else b) := by
  split <;> assumption
theorem kept3_ite {c : Prop} [Decidable c] {a b : α × β × State} (ha : Kept3 p a) (hb : Kept3 p b) :
    Kept3 p (if c then a else b) := by
  split <;> assumption
theorem kept4_ite {c : Prop} [Decidable c] {a b : α × β × γ × State} (ha : Kept4 p a) (hb : Kept4 p b) :
    Kept4 p (if c then a else b) := by
  split <;> assumption
theorem keptOpt_ite {c : Prop} [Decidable c] {a b : Option State} (ha : KeptOpt p a) (hb : KeptOpt p b) :
    KeptOpt p (if c then a else b) := by
  split <;> assumption
theorem keptOut_ite {c : Prop} [Decidable c] {a b : Out} (ha : KeptOut p a) (hb : KeptOut p b) : KeptOut p (if c then a else b) := by
  split <;> assumption

theorem kept_foldl {f : State → ι → State} {l : List ι} (h : Kept p s) (hf : ∀ t a, Kept p t → Kept p (f t a)) :
    Kept p (l.foldl f s) := by
  induction l generalizing s with
  | nil => exact h
  | cons a l ih => exact ih (hf s a h)
theorem kept2_foldl {f : α × State → ι → α × State} {l : List ι} {r : α × State} (h : Kept2 p r)
    (hf : ∀ t a, Kept2 p t → Kept2 p (f t a)) : Kept2 p (l.foldl f r) := by
  induction l generalizing r with
  | nil => exact h
  | cons a l ih => exact ih (hf r a h)
theorem kept3_foldl {f : α × β × State → ι → α × β × State} {l : List ι} {r : α × β × State} (h : Kept3 p r)
    (hf : ∀ t a, Kept3 p t → Kept3 p (f t a)) : Kept3 p (l.foldl f r) := by
  induction l generalizing r with
  | nil => exact h
  | cons a l ih => exact ih (hf r a h)
theorem kept4_foldl {f : α × β × γ × State → ι → α × β × γ × State} {l : List ι} {r : α × β × γ × State} (h : Kept4 p r)
    (hf : ∀ t a, Kept4 p t → Kept4 p (f t a)) : Kept4 p (l.foldl f r) := by
  induction l generalizing r with
  | nil => exact h
  | cons a l ih => exact ih (hf r a h)
theorem kept_forUnits {n : Nat} {f : Nat → State → State} (h : Kept p s) (hf : ∀ i t, Kept p t → Kept p (f i t)) :
    Kept p (forUnits n f s) := by
  induction n with
  | zero => exact h
  | succ n ih => exact hf n _ ih
theorem keptOut_onUnit {b : Bool} {f : State → State} (h : Kept p s) (hf : ∀ t, Kept p t → Kept p (f t)) :
    KeptOut p (onUnit b s f) := by
  unfold onUnit
  split
  · exact keptOut_next (hf s h)
  · exact keptOut_fault

/-! ### Updates of fields that carry no table -/

theorem kept_mk {shadow : List (Nat × Val)} {pins : Pins} {flash : Flash} {boot : Boot} {thermal : Thermal} {uptime : Nat} {conns : List Conn} {holds : List Nat} {outbox : List Msg} {freeCount : Nat} {moduleTime : Nat} {perfInjected : List Nat} {pfcSent : List (Nat × Nat × Nat)} {kek : Bytes} {hubEgress : List (Nat × List Bytes)} {stockpot : Stockpot} {timeCtl : TimeCtl} {perf : Perf} (h : Kept p s) :
    Kept p { pending := s.pending, od := s.od, shadow := shadow, pins := pins, flash := flash, boot := boot, thermal := thermal, uptime := uptime, sessions := s.sessions, conns := conns, journal := s.journal, journalNext := s.journalNext, can := s.can, mgmtPorts := s.mgmtPorts, scopes := s.scopes, sources := s.sources, injectors := s.injectors, domains := s.domains, holds := holds, outbox := outbox, freeCount := freeCount, moduleTime := moduleTime, perfInjected := perfInjected, engines := s.engines, lanes := s.lanes, members := s.members, pfcSent := pfcSent, trays := s.trays, keys := s.keys, kek := kek, hubs := s.hubs, contexts := s.contexts, hotCopies := s.hotCopies, hotOrder := s.hotOrder, leafRuns := s.leafRuns, hubEgress := hubEgress, pages := s.pages, stockpot := stockpot, dmas := s.dmas, tgEntries := s.tgEntries, tgs := s.tgs, timeCtl := timeCtl, fpos := s.fpos, monitors := s.monitors, perf := perf, windows := s.windows, probes := s.probes } :=  ⟨h.queue, { od := h.tidy.od, sessions := h.tidy.sessions, can := h.tidy.can, scopes := h.tidy.scopes, sources := h.tidy.sources, injectors := h.tidy.injectors, domains := h.tidy.domains, engines := h.tidy.engines, lanes := h.tidy.lanes, members := h.tidy.members, trays := h.tidy.trays, keys := h.tidy.keys, hubs := h.tidy.hubs, contexts := h.tidy.contexts, hotCopies := h.tidy.hotCopies, leafRuns := h.tidy.leafRuns, pages := h.tidy.pages, dmas := h.tidy.dmas, tgEntries := h.tidy.tgEntries, tgs := h.tidy.tgs, fpos := h.tidy.fpos, monitors := h.tidy.monitors, windows := h.tidy.windows, probes := h.tidy.probes, mgmtPorts := h.tidy.mgmtPorts, journal := h.tidy.journal, journalLength := h.tidy.journalLength, hotCache := h.tidy.hotCache }⟩

theorem kept_mk_tables {shadow : List (Nat × Val)} {pins : Pins} {flash : Flash} {boot : Boot} {thermal : Thermal} {uptime : Nat} {conns : List Conn} {holds : List Nat} {outbox : List Msg} {freeCount : Nat} {moduleTime : Nat} {perfInjected : List Nat} {pfcSent : List (Nat × Nat × Nat)} {kek : Bytes} {hubEgress : List (Nat × List Bytes)} {stockpot : Stockpot} {timeCtl : TimeCtl} {perf : Perf} {can : List (Nat × CanPort)} {scopes : List (Nat × Scope)} {pages : List (Nat × Page)} {keys : List (Nat × Key)} (h : Kept p s)
    (hcan : Tbl.wf (fun _ => {}) can = true) (hscopes : Tbl.wf (fun _ => {}) scopes = true) (hpages : Tbl.wf (fun _ => {}) pages = true) (hkeys : Tbl.wf (fun _ => {}) keys = true) :
    Kept p { pending := s.pending, od := s.od, shadow := shadow, pins := pins, flash := flash, boot := boot, thermal := thermal, uptime := uptime, sessions := s.sessions, conns := conns, journal := s.journal, journalNext := s.journalNext, can := can, mgmtPorts := s.mgmtPorts, scopes := scopes, sources := s.sources, injectors := s.injectors, domains := s.domains, holds := holds, outbox := outbox, freeCount := freeCount, moduleTime := moduleTime, perfInjected := perfInjected, engines := s.engines, lanes := s.lanes, members := s.members, pfcSent := pfcSent, trays := s.trays, keys := keys, kek := kek, hubs := s.hubs, contexts := s.contexts, hotCopies := s.hotCopies, hotOrder := s.hotOrder, leafRuns := s.leafRuns, hubEgress := hubEgress, pages := pages, stockpot := stockpot, dmas := s.dmas, tgEntries := s.tgEntries, tgs := s.tgs, timeCtl := timeCtl, fpos := s.fpos, monitors := s.monitors, perf := perf, windows := s.windows, probes := s.probes } :=  ⟨h.queue, { od := h.tidy.od, sessions := h.tidy.sessions, can := hcan, scopes := hscopes, sources := h.tidy.sources, injectors := h.tidy.injectors, domains := h.tidy.domains, engines := h.tidy.engines, lanes := h.tidy.lanes, members := h.tidy.members, trays := h.tidy.trays, keys := hkeys, hubs := h.tidy.hubs, contexts := h.tidy.contexts, hotCopies := h.tidy.hotCopies, leafRuns := h.tidy.leafRuns, pages := hpages, dmas := h.tidy.dmas, tgEntries := h.tidy.tgEntries, tgs := h.tidy.tgs, fpos := h.tidy.fpos, monitors := h.tidy.monitors, windows := h.tidy.windows, probes := h.tidy.probes, mgmtPorts := h.tidy.mgmtPorts, journal := h.tidy.journal, journalLength := h.tidy.journalLength, hotCache := h.tidy.hotCache }⟩

/-! ### The tables -/

theorem kept_setSession (h : Kept p s) (k : Nat) (x : Session) : Kept p (s.setSession k x) :=
  ⟨h.queue, { h.tidy with sessions := Tbl.wf_put k x h.tidy.sessions }⟩
theorem kept_setCanPort (h : Kept p s) (k : Nat) (x : CanPort) : Kept p (s.setCanPort k x) :=
  ⟨h.queue, { h.tidy with can := Tbl.wf_put k x h.tidy.can }⟩
theorem kept_setMgmtPort (h : Kept p s) (k : Nat) (x : MgmtPort) : Kept p (s.setMgmtPort k x) :=
  ⟨h.queue, { h.tidy with mgmtPorts := Tbl.wf_put k x h.tidy.mgmtPorts }⟩
theorem kept_setScope (h : Kept p s) (k : Nat) (x : Scope) : Kept p (s.setScope k x) :=
  ⟨h.queue, { h.tidy with scopes := Tbl.wf_put k x h.tidy.scopes }⟩
theorem kept_setSource (h : Kept p s) (k : Nat) (x : Source) : Kept p (s.setSource k x) :=
  ⟨h.queue, { h.tidy with sources := Tbl.wf_put k x h.tidy.sources }⟩
theorem kept_setInjector (h : Kept p s) (k : Nat) (x : Injector) : Kept p (s.setInjector k x) :=
  ⟨h.queue, { h.tidy with injectors := Tbl.wf_put k x h.tidy.injectors }⟩
theorem kept_setDomain (h : Kept p s) (k : Nat) (x : Domain) : Kept p (s.setDomain k x) :=
  ⟨h.queue, { h.tidy with domains := Tbl.wf_put k x h.tidy.domains }⟩
theorem kept_setEngine (h : Kept p s) (k : Nat) (x : Engine) : Kept p (s.setEngine k x) :=
  ⟨h.queue, { h.tidy with engines := Tbl.wf_put k x h.tidy.engines }⟩
theorem kept_setProbe (h : Kept p s) (k : Nat) (x : ProbePort) : Kept p (s.setProbe k x) :=
  ⟨h.queue, { h.tidy with probes := Tbl.wf_put k x h.tidy.probes }⟩
theorem kept_setLane (h : Kept p s) (k : Nat) (x : Lane) : Kept p (s.setLane k x) :=
  ⟨h.queue, { h.tidy with lanes := Tbl.wf_put k x h.tidy.lanes }⟩
theorem kept_setMember (h : Kept p s) (k : Nat) (x : Member) : Kept p (s.setMember k x) :=
  ⟨h.queue, { h.tidy with members := Tbl.wf_put k x h.tidy.members }⟩
theorem kept_setTray (h : Kept p s) (k : Nat) (x : Tray) : Kept p (s.setTray k x) :=
  ⟨h.queue, { h.tidy with trays := Tbl.wf_put k x h.tidy.trays }⟩
theorem kept_setKeySlot (h : Kept p s) (k : Nat) (x : Key) : Kept p (s.setKeySlot k x) :=
  ⟨h.queue, { h.tidy with keys := Tbl.wf_put k x h.tidy.keys }⟩
theorem kept_setHub (h : Kept p s) (k : Nat) (x : Hub) : Kept p (s.setHub k x) :=
  ⟨h.queue, { h.tidy with hubs := Tbl.wf_put k x h.tidy.hubs }⟩
theorem kept_setLeafRun (h : Kept p s) (k : Nat) (x : LeafRun) : Kept p (s.setLeafRun k x) :=
  ⟨h.queue, { h.tidy with leafRuns := Tbl.wf_put k x h.tidy.leafRuns }⟩
theorem kept_setPage (h : Kept p s) (k : Nat) (x : Page) : Kept p (s.setPage k x) :=
  ⟨h.queue, { h.tidy with pages := Tbl.wf_put k x h.tidy.pages }⟩
theorem kept_setDma (h : Kept p s) (k : Nat) (x : Dma) : Kept p (s.setDma k x) :=
  ⟨h.queue, { h.tidy with dmas := Tbl.wf_put k x h.tidy.dmas }⟩
theorem kept_setTg (h : Kept p s) (k : Nat) (x : Tg) : Kept p (s.setTg k x) :=
  ⟨h.queue, { h.tidy with tgs := Tbl.wf_put k x h.tidy.tgs }⟩
theorem kept_setFpo (h : Kept p s) (k : Nat) (x : Fpo) : Kept p (s.setFpo k x) :=
  ⟨h.queue, { h.tidy with fpos := Tbl.wf_put k x h.tidy.fpos }⟩
theorem kept_setMonitor (h : Kept p s) (k : Nat) (x : Monitor) : Kept p (s.setMonitor k x) :=
  ⟨h.queue, { h.tidy with monitors := Tbl.wf_put k x h.tidy.monitors }⟩
theorem kept_setWindow (h : Kept p s) (k : Nat) (x : Window) : Kept p (s.setWindow k x) :=
  ⟨h.queue, { h.tidy with windows := Tbl.wf_put k x h.tidy.windows }⟩
theorem kept_setVal (h : Kept p s) (k : Nat) (x : Val) : Kept p (s.setVal k x) :=
  ⟨h.queue, { h.tidy with od := Tbl.wf_put k x h.tidy.od }⟩
theorem kept_clearObjs (h : Kept p s) (q : Nat → Bool) : Kept p (s.clearObjs q) :=
  ⟨h.queue, { h.tidy with od := Tbl.wf_clear q h.tidy.od }⟩
theorem kept_setCtx (h : Kept p s) (l : Nat) (c : Context) : Kept p (s.setCtx l c) := by
  unfold State.setCtx
  split
  · exact ⟨h.queue, { h.tidy with hotCopies := Tbl.wf_put l c h.tidy.hotCopies }⟩
  · exact ⟨h.queue, { h.tidy with contexts := Tbl.wf_put l c h.tidy.contexts }⟩
theorem kept_setTgEntry (h : Kept p s) (g e : Nat) (x : TgEntry) : Kept p (s.setTgEntry g e x) :=
  ⟨h.queue, { h.tidy with tgEntries := Tbl.wf_put _ x h.tidy.tgEntries }⟩

/-! ### The journal -/

theorem journalOk_take {n k : Nat} {l : List JournalEntry} (h : journalOk n l) : journalOk n (l.take k) := by
  induction l generalizing n k with
  | nil => simp [journalOk]
  | cons e t ih =>
    cases k with
    | zero => simp [journalOk]
    | succ k => exact ⟨h.1, ih h.2⟩

theorem kept_notify (h : Kept p s) (k kind : Nat) (c : Bytes) : Kept2 p (s.notify k kind c) := by
  unfold State.notify
  extract_lets x sec cnt seq
  split
  · exact ⟨kept_mk (kept_setSession h k _)⟩
  · exact ⟨kept_setSession h k _⟩
theorem kept_notifyAll (h : Kept p s) (bit kind : Nat) (c : Bytes) : Kept2 p (s.notifyAll bit kind c) := by
  unfold State.notifyAll
  apply kept2_foldl ⟨h⟩
  intro r k hr
  extract_lets x q
  split
  · exact ⟨(kept_notify hr.out k kind c).out⟩
  · exact hr
/-- A new entry takes the next number, and the oldest beyond 1,024 is dropped. -/
theorem kept_journalAdd (h : Kept p s) (slot kind idx inst sub role gen : Nat) :
    Kept p (s.journalAdd slot kind idx inst sub role gen) := by
  unfold State.journalAdd
  extract_lets e s'
  have h' : Kept p s' :=
    ⟨h.queue, { h.tidy with
      journal := journalOk_take (n := s.journalNext + 1) (k := 1024) ⟨rfl, h.tidy.journal⟩
      journalLength := List.length_take_le _ _ }⟩
  exact (kept_notifyAll h' 1 1 e.encode).out
theorem kept_journalBy (h : Kept p s) (k kind idx inst sub gen : Nat) : Kept p (s.journalBy k kind idx inst sub gen) :=
  kept_journalAdd h k kind idx inst sub _ gen

/-! ### Commands of a host -/

theorem kept_refuse (h : Kept p s) (k : Nat) (st : Status) : Kept p (s.refuse k st) := kept_setSession h k _
theorem kept_hostCmd (h : Kept p s) (k key code : Nat) {effect : State → Status × State}
    (hf : ∀ t, Kept p t → Kept2 p (effect t)) : Kept p (hostCmd s k key code effect) := by
  unfold hostCmd
  split
  · exact h
  · split
    · extract_lets r
      split
      · exact (hf _ (kept_journalBy h k 3 _ _ _ 0)).out
      · exact kept_refuse (hf s h).out k r.1
    · exact kept_refuse h k _
theorem kept_hostCmdQuiet (h : Kept p s) (k key code : Nat) {effect : State → Status × State}
    (hf : ∀ t, Kept p t → Kept2 p (effect t)) : Kept p (hostCmdQuiet s k key code effect) := by
  unfold hostCmdQuiet
  split
  · exact h
  · split
    · extract_lets r
      split
      · exact (hf s h).out
      · exact kept_refuse h k r.1
    · exact kept_refuse h k _
theorem kept_getD {o : Option State} (ho : KeptOpt p o) (h : Kept p s) : Kept p (o.getD s) := by
  cases o with
  | none => exact h
  | some t => exact ho.out t rfl
theorem kept3_snd {r : α × β × State} (h : Kept3 p r) : Kept2 p r.2 := ⟨h.out⟩
theorem kept4_snd {r : α × β × γ × State} (h : Kept4 p r) : Kept3 p r.2 := ⟨h.out⟩

end Sys2Proof.Machine
end

