-- ==== Sys2Proof/Laws/KeptOps.lean ====
section
/-! SUPPORT. Every operation of Machine/Ops.lean keeps the queue and the well-formedness of the state. -/

namespace Sys2Proof.Machine

theorem kept_setN {pq : List Instr} {s : State} (k : Nat) (n : Nat) (hs : Kept pq s) : Kept pq (State.setN s k n) := by
  unfold State.setN
  apply kept_setVal
  exact hs

theorem kept_setI {pq : List Instr} {s : State} (k : Nat) (z : Int) (hs : Kept pq s) : Kept pq (State.setI s k z) := by
  unfold State.setI
  apply kept_setVal
  exact hs

theorem kept_setF {pq : List Instr} {s : State} (k : Nat) (x : F32) (hs : Kept pq s) : Kept pq (State.setF s k x) := by
  unfold State.setF
  apply kept_setVal
  exact hs

theorem kept_setO {pq : List Instr} {s : State} (k : Nat) (b : Bytes) (hs : Kept pq s) : Kept pq (State.setO s k b) := by
  unfold State.setO
  apply kept_setVal
  exact hs

theorem kept_setB {pq : List Instr} {s : State} (k : Nat) (b : Bool) (hs : Kept pq s) : Kept pq (State.setB s k b) := by
  unfold State.setB
  apply kept_setVal
  exact hs

theorem kept_bumpBy {pq : List Instr} {s : State} (k : Nat) (n : Nat) (hs : Kept pq s) : Kept pq (State.bumpBy s k n) := by
  unfold State.bumpBy
  apply kept_setN
  exact hs

theorem kept_bump {pq : List Instr} {s : State} (k : Nat) (hs : Kept pq s) : Kept pq (State.bump s k) := by
  unfold State.bump
  apply kept_bumpBy
  exact hs

theorem kept_peak {pq : List Instr} {s : State} (k : Nat) (n : Nat) (hs : Kept pq s) : Kept pq (State.peak s k n) := by
  unfold State.peak
  apply kept_ite
  · apply kept_setN
    exact hs
  · exact hs

theorem kept_peakF {pq : List Instr} {s : State} (k : Nat) (x : F32) (hs : Kept pq s) : Kept pq (State.peakF s k x) := by
  unfold State.peakF
  apply kept_setF
  exact hs

theorem kept_freeNat {pq : List Instr} {s : State} (hs : Kept pq s) : Kept2 pq (State.freeNat s) := by
  unfold State.freeNat
  apply kept2_mk
  apply kept_mk
  exact hs

theorem kept_send {pq : List Instr} {s : State} (m : Msg) (hs : Kept pq s) : Kept pq (State.send s m) := by
  unfold State.send
  apply kept_mk
  exact hs

theorem kept_enter {pq : List Instr} {s : State} (m : ModState) (hs : Kept pq s) : Kept pq (State.enter s m) := by
  unfold State.enter
  apply kept_mk
  exact hs

theorem kept_countEv {pq : List Instr} {s : State} (cls : Nat) (inst : Nat) (ev : Nat) (n : Nat) (injected : Bool) (hs : Kept pq
    s) : Kept pq (State.countEv s cls inst ev n injected) := by
  unfold State.countEv
  apply kept_ite
  · exact hs
  · apply kept_foldl
    · exact hs
    · intro t1
      intro t2
      intro h3
      extract_lets +onlyGivenNames x4
      have h4 : Kept pq x4 := by
        unfold x4
        apply kept_setN
        exact h3
      clear_value x4
      apply kept_ite
      · apply kept_mk
        exact h4
      · exact h4

theorem kept_noteInjected {pq : List Instr} {s : State} (hs : Kept pq s) (cls : Nat) (a2 : Nat) (ev : Nat) : Kept pq
    (State.noteInjected s cls a2 ev) := by
  unfold State.noteInjected
  apply kept_foldl
  · exact hs
  · intro t1 t2 h3
    apply kept_mk
    exact h3

theorem kept_delivered {pq : List Instr} {s : State} (key : Nat) (hs : Kept pq s) : Kept pq (State.delivered s key) := by
  unfold State.delivered
  extract_lets +onlyGivenNames x1
  clear_value x1
  apply kept_ite
  · apply kept_setSource
    exact hs
  · exact hs

theorem kept_emcyPort {pq : List Instr} {s : State} (hs : Kept pq s) (p : Nat) (key : Nat) (raised : Bool) (flags : Nat) :
    Kept pq (State.emcyPort s p key raised flags) := by
  unfold State.emcyPort
  extract_lets +onlyGivenNames x1
  clear_value x1
  apply kept_ite
  · exact hs
  · extract_lets +onlyGivenNames x2
    clear_value x2
    apply kept_ite
    · apply kept_ite
      · apply kept_setCanPort
        exact hs
      · apply kept_bump
        exact hs
    · extract_lets +onlyGivenNames x3
      have h3 : Kept pq x3 := by
        unfold x3
        apply kept_setCanPort
        apply kept_send
        exact hs
      clear_value x3
      apply kept_ite
      · apply kept_delivered
        exact h3
      · exact h3

theorem kept_emcy {pq : List Instr} {s : State} (hs : Kept pq s) (key : Nat) (raised : Bool) (flags : Nat) : Kept pq
    (State.emcy s key raised flags) := by
  unfold State.emcy
  apply kept_emcyPort
  apply kept_emcyPort
  exact hs

theorem kept_raiseEntry {pq : List Instr} {s : State} (key : Nat) (unit : Nat) (injected : Bool) (hs : Kept pq s) : Kept pq
    (State.raiseEntry s key unit injected) := by
  unfold State.raiseEntry
  extract_lets +onlyGivenNames x1
  clear_value x1
  extract_lets +onlyGivenNames x2
  clear_value x2
  extract_lets +onlyGivenNames x3
  clear_value x3
  extract_lets +onlyGivenNames x4
  clear_value x4
  extract_lets +onlyGivenNames x5
  have h5 : Kept pq x5 := by
    unfold x5
    apply kept_setSource
    exact hs
  clear_value x5
  extract_lets +onlyGivenNames x6
  have h6 : Kept pq x6 := by
    unfold x6
    apply kept_ite
    · apply kept_countEv
      apply kept_bump
      exact h5
    · apply kept_countEv
      apply kept_peak
      apply kept_setN
      exact h5
  clear_value x6
  extract_lets +onlyGivenNames x7
  have h7 : Kept2 pq x7 := by
    unfold x7
    apply kept_notifyAll
    exact h6
  clear_value x7
  extract_lets +onlyGivenNames x8
  have h8 : Kept pq x8 := by
    unfold x8
    apply kept_ite
    · exact h6
    · apply kept_ite
      · apply kept_delivered
        apply Kept2.out
        exact h7
      · apply Kept2.out
        exact h7
  clear_value x8
  apply kept_emcy
  exact h8

theorem kept_raiseAgain {pq : List Instr} {s : State} (key : Nat) (unit : Nat) (injected : Bool) (hs : Kept pq s) : Kept pq
    (State.raiseAgain s key unit injected) := by
  unfold State.raiseAgain
  extract_lets +onlyGivenNames x1
  clear_value x1
  extract_lets +onlyGivenNames x2
  clear_value x2
  apply kept_setSource
  exact hs

theorem kept_occur {pq : List Instr} {s : State} (key : Nat) (unit : Nat) (injected : Bool) (hs : Kept pq s) : Kept pq
    (State.occur s key unit injected) := by
  unfold State.occur
  extract_lets +onlyGivenNames x1
  clear_value x1
  extract_lets +onlyGivenNames x2
  clear_value x2
  extract_lets +onlyGivenNames x3
  clear_value x3
  extract_lets +onlyGivenNames x4
  have h4 : Kept pq x4 := by
    unfold x4
    apply kept_setSource
    exact hs
  clear_value x4
  apply kept_ite
  · exact h4
  · apply kept_ite
    · extract_lets +onlyGivenNames x5
      have h5 : Kept pq x5 := by
        unfold x5
        apply kept_raiseEntry
        exact h4
      clear_value x5
      apply kept_ite
      · extract_lets +onlyGivenNames x6
        clear_value x6
        apply kept_ite
        · exact h5
        · extract_lets +onlyGivenNames x7
          have h7 : Kept pq x7 := by
            unfold x7
            apply kept_setSource
            exact h5
          clear_value x7
          apply kept_ite
          · apply kept_raiseEntry
            exact h7
          · apply kept_raiseAgain
            exact h7
      · exact h5
    · apply kept_raiseAgain
      exact h4

theorem kept_raise {pq : List Instr} {s : State} (key : Nat) (hs : Kept pq s) : Kept pq (State.raise s key) := by
  unfold State.raise
  apply kept_occur
  exact hs

theorem kept_toClear {pq : List Instr} {s : State} (key : Nat) (hs : Kept pq s) : Kept pq (State.toClear s key) := by
  unfold State.toClear
  extract_lets +onlyGivenNames x1
  clear_value x1
  apply kept_emcy
  apply kept_setSource
  exact hs

theorem kept_endCond {pq : List Instr} {s : State} (key : Nat) (injected : Bool) (hs : Kept pq s) : Kept pq (State.endCond s key
    injected) := by
  unfold State.endCond
  extract_lets +onlyGivenNames x1
  clear_value x1
  extract_lets +onlyGivenNames x2
  clear_value x2
  extract_lets +onlyGivenNames x3
  have h3 : Kept pq x3 := by
    unfold x3
    apply kept_setSource
    exact hs
  clear_value x3
  apply kept_ite
  · apply kept_toClear
    exact h3
  · exact h3

theorem kept_overflowCheck {pq : List Instr} {s : State} (hs : Kept pq s) : Kept pq (State.overflowCheck s) := by
  unfold State.overflowCheck
  apply kept_ite
  · apply kept_endCond
    exact hs
  · exact hs

theorem kept_clearCond {pq : List Instr} {s : State} (key : Nat) (hs : Kept pq s) : Kept pq (State.clearCond s key) := by
  unfold State.clearCond
  apply kept_overflowCheck
  apply kept_endCond
  exact hs

theorem kept_setCond {pq : List Instr} {s : State} (key : Nat) (present : Bool) (hs : Kept pq s) : Kept pq (State.setCond s key
    present) := by
  unfold State.setCond
  apply kept_ite
  · apply kept_ite
    · exact hs
    · apply kept_raise
      exact hs
  · apply kept_ite
    · apply kept_clearCond
      exact hs
    · exact hs

theorem kept_ack {pq : List Instr} {s : State} (slot : Nat) (key : Nat) (hs : Kept pq s) : Kept pq (State.ack s slot key) := by
  unfold State.ack
  extract_lets +onlyGivenNames x1
  clear_value x1
  apply kept_ite
  · apply kept_ite
    · apply kept_setSource
      exact hs
    · apply kept_overflowCheck
      apply kept_toClear
      exact hs
  · exact hs

theorem kept_hold {pq : List Instr} {s : State} (addr : Nat) (bit : Nat) (hs : Kept pq s) : Kept pq (State.hold s addr bit) := by
  unfold State.hold
  extract_lets +onlyGivenNames x1
  clear_value x1
  apply kept_mk
  exact hs

end Sys2Proof.Machine
end

