-- ==== Sys2Proof/Laws/KeptAccess.lean ====
section
/-! SUPPORT. Every operation of Machine/Access.lean keeps the queue and the well-formedness of the state. -/

namespace Sys2Proof.Machine

theorem kept_setShadow {pq : List Instr} {s : State} (k : Nat) (v : Val) (hs : Kept pq s) : Kept pq (State.setShadow s k v) := by
  unfold State.setShadow
  apply kept_mk
  exact hs

theorem kept_releaseGroup {pq : List Instr} {s : State} (k : Nat) (g : Nat) (hs : Kept pq s) : Kept pq (releaseGroup s k g) := by
  unfold releaseGroup
  apply kept_journalBy
  apply kept_setN
  exact hs

theorem kept_releaseAll {pq : List Instr} {s : State} (k : Nat) (hs : Kept pq s) : Kept pq (releaseAll s k) := by
  unfold releaseAll
  apply kept_foldl
  · exact hs
  · intro t1
    intro t2
    intro h3
    apply kept_releaseGroup
    exact h3

theorem kept_lidFree {pq : List Instr} {s : State} (hs : Kept pq s) : Kept pq (lidFree s) := by
  unfold lidFree
  apply kept_setO
  apply kept_setN
  exact hs

theorem kept_blockDropped {pq : List Instr} {s : State} (k : Nat) (hs : Kept pq s) : Kept pq (blockDropped s k) := by
  unfold blockDropped
  extract_lets +onlyGivenNames x1
  clear_value x1
  extract_lets +onlyGivenNames x2
  clear_value x2
  extract_lets +onlyGivenNames x3
  have h3 : Kept pq x3 := by
    unfold x3
    apply kept_setSession
    exact hs
  clear_value x3
  apply kept_mk
  exact h3

theorem kept_endSession {pq : List Instr} {s : State} (k : Nat) (hs : Kept pq s) : Kept pq (endSession s k) := by
  have wf_scopes : ∀ (l t : List (Nat × Scope)), Tbl.wf (fun _ => {}) t = true → Tbl.wf (fun _ => {}) (l.foldl (fun t p =>
      if p.2.armSlot = k then Tbl.put (fun _ => {}) t p.1 { p.2 with armSlot := 255 } else t) t) = true := by
    intro l
    induction l with
    | nil => exact fun t h => h
    | cons a l ih =>
      intro t h
      rw [List.foldl_cons]
      apply ih
      by_cases hk : a.2.armSlot = k
      · rw [if_pos hk]
        exact Tbl.wf_put _ _ h
      · rw [if_neg hk]
        exact h
  have main : ∀ u : State, Kept pq u → ∀ c sc, Tbl.wf (fun _ => {}) sc = true → Kept pq { u with conns := c, scopes := sc } :=
    fun u hu c sc h => ⟨hu.queue, { hu.tidy with scopes := h }⟩
  have hr : Kept pq (if (releaseAll s k).nat Od.lockHolder = k then lidFree (releaseAll s k) else releaseAll s k) :=
    kept_ite (kept_lidFree (kept_releaseAll k hs)) (kept_releaseAll k hs)
  unfold endSession
  apply kept_ite hs
  have hj := kept_journalBy hr k 10 0 0 0 0
  exact kept_setSession (kept_blockDropped k (main _ hj _ _ (wf_scopes _ _ hj.tidy.scopes))) k {}

end Sys2Proof.Machine
end

