-- ==== Sys2Proof/Laws/KeptTiming.lean ====
section
/-! SUPPORT. Every operation of Machine/Timing.lean keeps the queue and the well-formedness of the state. -/

namespace Sys2Proof.Machine

theorem kept_tgAcquire {pq : List Instr} {s : State} (g : Nat) (hs : Kept pq s) : Kept pq (tgAcquire s g) := by
  unfold tgAcquire
  apply kept_setN
  exact hs

theorem kept_tgLocked {pq : List Instr} {s : State} (g : Nat) (hs : Kept pq s) : Kept pq (tgLocked s g) := by
  unfold tgLocked
  extract_lets +onlyGivenNames x1
  clear_value x1
  extract_lets +onlyGivenNames x2
  have h2 : Kept pq x2 := by
    unfold x2
    apply kept_clearCond
    apply kept_clearCond
    apply kept_setN
    exact hs
  clear_value x2
  apply kept_ite
  · apply kept_setB
    exact h2
  · exact h2

theorem kept_tgLost {pq : List Instr} {s : State} (g : Nat) (hs : Kept pq s) : Kept pq (tgLost s g) := by
  unfold tgLost
  apply kept_setCond
  apply kept_setN
  exact hs

theorem kept_tgHold {pq : List Instr} {s : State} (g : Nat) (hs : Kept pq s) : Kept pq (tgHold s g) := by
  unfold tgHold
  apply kept_ite
  · apply kept_bump
    apply kept_setCond
    apply kept_setI
    apply kept_setN
    exact hs
  · apply kept_tgLost
    exact hs

theorem kept_tgSelect {pq : List Instr} {s : State} (g : Nat) (e : Nat) (cause : Nat) (hs : Kept pq s) : Kept pq (tgSelect s g e
    cause) := by
  unfold tgSelect
  extract_lets +onlyGivenNames x1
  have h1 : Kept pq x1 := by
    unfold x1
    apply kept_setN
    apply kept_bump
    apply kept_setN
    exact hs
  clear_value x1
  extract_lets +onlyGivenNames x2
  clear_value x2
  extract_lets +onlyGivenNames x3
  have h3 : Kept pq x3 := by
    unfold x3
    apply kept_setTg
    exact h1
  clear_value x3
  apply kept_ite
  · exact h3
  · apply kept_tgAcquire
    exact h3

theorem kept_tgDeselect {pq : List Instr} {s : State} (g : Nat) (cause : Nat) (hs : Kept pq s) : Kept pq (tgDeselect s g cause)
    := by
  unfold tgDeselect
  apply kept_setTg
  apply kept_setN
  exact hs

theorem kept_tgRunSelection {pq : List Instr} {s : State} (g : Nat) (hs : Kept pq s) : Kept pq (tgRunSelection s g) := by
  unfold tgRunSelection
  apply kept_ite
  · exact hs
  · split
    · apply kept_tgSelect
      exact hs
    · extract_lets +onlyGivenNames x1
      clear_value x1
      apply kept_ite
      · exact hs
      · apply kept_ite
        · apply kept_tgHold
          exact hs
        · exact hs

theorem kept_disqualify {pq : List Instr} {s : State} (g : Nat) (e : Nat) (reason : Nat) (hs : Kept pq s) : Kept pq (disqualify
    s g e reason) := by
  unfold disqualify
  extract_lets +onlyGivenNames x1
  have h1 : Kept pq x1 := by
    unfold x1
    apply kept_setN
    apply kept_setN
    exact hs
  clear_value x1
  apply kept_setCond
  apply kept_setN
  exact h1

theorem kept_evalVote {pq : List Instr} {s : State} (g : Nat) (hs : Kept pq s) : Kept pq (evalVote s g) := by
  unfold evalVote
  extract_lets +onlyGivenNames x1
  clear_value x1
  extract_lets +onlyGivenNames x2
  clear_value x2
  extract_lets +onlyGivenNames x3
  clear_value x3
  apply kept_ite
  · apply kept_setCond
    exact hs
  · extract_lets +onlyGivenNames x4
    clear_value x4
    extract_lets +onlyGivenNames x5
    clear_value x5
    apply kept_ite
    · apply kept_setCond
      exact hs
    · extract_lets +onlyGivenNames x6
      have h6 : Kept pq x6 := by
        unfold x6
        apply kept_setCond
        exact hs
      clear_value x6
      apply kept_foldl
      · exact h6
      · intro t7
        intro t8
        intro h9
        extract_lets +onlyGivenNames x10
        have h10 : Kept pq x10 := by
          unfold x10
          apply kept_bump
          apply kept_disqualify
          exact h9
        clear_value x10
        extract_lets +onlyGivenNames x11
        clear_value x11
        extract_lets +onlyGivenNames x12
        have h12 : Kept pq x12 := by
          unfold x12
          apply kept_setTgEntry
          exact h10
        clear_value x12
        apply kept_ite
        · apply kept_tgDeselect
          exact h12
        · exact h12

theorem kept_disqualifyNow {pq : List Instr} {s : State} (hs : Kept pq s) (g : Nat) (e : Nat) (reason : Nat) (cause : Nat) :
    Kept pq (disqualifyNow s g e reason cause) := by
  unfold disqualifyNow
  extract_lets +onlyGivenNames x1
  have h1 : Kept pq x1 := by
    unfold x1
    apply kept_disqualify
    exact hs
  clear_value x1
  apply kept_ite
  · apply kept_tgRunSelection
    apply kept_evalVote
    apply kept_tgDeselect
    exact h1
  · exact h1

theorem kept_timingSourceLost {pq : List Instr} {s : State} (code : Nat) (reason : Nat) (hs : Kept pq s) : Kept pq
    (timingSourceLost s code reason) := by
  unfold timingSourceLost
  apply kept_foldl
  · exact hs
  · intro t1
    intro t2
    intro h3
    apply kept_foldl
    · exact h3
    · intro t4
      intro t5
      intro h6
      extract_lets +onlyGivenNames x7
      clear_value x7
      apply kept_ite
      · exact h6
      · extract_lets +onlyGivenNames x8
        have h8 : Kept pq x8 := by
          unfold x8
          apply kept_setTgEntry
          exact h6
        clear_value x8
        apply kept_ite
        · exact h8
        · apply kept_disqualifyNow
          exact h8

theorem kept_carrierClockLost {pq : List Instr} {s : State} (n : Nat) (hs : Kept pq s) : Kept pq (carrierClockLost s n) := by
  unfold carrierClockLost
  apply kept_timingSourceLost
  exact hs

theorem kept_laneClockLost {pq : List Instr} {s : State} (k : Nat) (hs : Kept pq s) : Kept pq (laneClockLost s k) := by
  unfold laneClockLost
  apply kept_timingSourceLost
  exact hs

theorem kept_evalTable {pq : List Instr} {s : State} (g : Nat) (e : Nat) (hs : Kept pq s) : Kept pq (evalTable s g e) := by
  unfold evalTable
  extract_lets +onlyGivenNames x1
  clear_value x1
  extract_lets +onlyGivenNames x2
  clear_value x2
  extract_lets +onlyGivenNames x3
  clear_value x3
  extract_lets +onlyGivenNames x4
  clear_value x4
  extract_lets +onlyGivenNames x5
  clear_value x5
  extract_lets +onlyGivenNames x6
  clear_value x6
  extract_lets +onlyGivenNames x7
  have h7 : Kept pq x7 := by
    unfold x7
    apply kept_setTgEntry
    exact hs
  clear_value x7
  extract_lets +onlyGivenNames x8
  have h8 : Kept pq x8 := by
    unfold x8
    apply kept_ite
    · apply kept_setN
      apply kept_disqualify
      exact h7
    · apply kept_ite
      · apply kept_setCond
        apply kept_setN
        apply kept_setN
        apply kept_setN
        exact h7
      · exact h7
  clear_value x8
  apply kept_ite
  · apply kept_tgDeselect
    exact h8
  · exact h8

theorem kept_evalEntry {pq : List Instr} (means : List (Nat × Int)) {s : State} (g : Nat) (e : Nat) (hs : Kept pq s) : Kept pq
    (evalEntry means s g e) := by
  unfold evalEntry
  extract_lets +onlyGivenNames x1
  clear_value x1
  apply kept_ite
  · exact hs
  · extract_lets +onlyGivenNames x2
    clear_value x2
    extract_lets +onlyGivenNames x3
    clear_value x3
    apply kept_ite
    · extract_lets +onlyGivenNames x4
      have h4 : Kept pq x4 := by
        unfold x4
        apply kept_setTgEntry
        exact hs
      clear_value x4
      apply kept_ite
      · exact h4
      · apply kept_disqualify
        exact h4
    · extract_lets +onlyGivenNames x5
      clear_value x5
      extract_lets +onlyGivenNames x6
      clear_value x6
      extract_lets +onlyGivenNames x7
      clear_value x7
      extract_lets +onlyGivenNames x8
      have h8 : Kept pq x8 := by
        unfold x8
        apply kept_setI
        apply kept_setI
        exact hs
      clear_value x8
      extract_lets +onlyGivenNames x9
      clear_value x9
      extract_lets +onlyGivenNames x10
      clear_value x10
      extract_lets +onlyGivenNames x11
      have h11 : Kept pq x11 := by
        unfold x11
        apply kept_setTgEntry
        exact h8
      clear_value x11
      extract_lets +onlyGivenNames x12
      have h12 : Kept pq x12 := by
        unfold x12
        apply kept_ite
        · apply kept_setCond
          apply kept_setN
          exact h11
        · apply kept_ite
          · apply kept_setCond
            apply kept_setN
            exact h11
          · exact h11
      clear_value x12
      extract_lets +onlyGivenNames x13
      have h13 : Kept pq x13 := by
        unfold x13
        apply kept_ite
        · apply kept_setB
          exact h12
        · exact h12
      clear_value x13
      extract_lets +onlyGivenNames x14
      clear_value x14
      apply kept_ite
      · apply kept_ite
        · exact h13
        · apply kept_disqualify
          exact h13
      · apply kept_ite
        · exact h13
        · extract_lets +onlyGivenNames x15
          have h15 : Kept pq x15 := by
            unfold x15
            apply kept_setN
            exact h13
          clear_value x15
          apply kept_setN
          exact h15

theorem kept_evalHistory {pq : List Instr} {s : State} (g : Nat) (hs : Kept pq s) : Kept pq (evalHistory s g) := by
  unfold evalHistory
  apply kept_ite
  · extract_lets +onlyGivenNames x1
    clear_value x1
    extract_lets +onlyGivenNames x2
    have h2 : Kept pq x2 := by
      unfold x2
      apply kept_ite
      · apply kept_setB
        exact hs
      · exact hs
    clear_value x2
    apply kept_ite
    · exact h2
    · extract_lets +onlyGivenNames x3
      clear_value x3
      apply kept_setI
      apply kept_setTg
      exact h2
  · exact hs

theorem kept_evalOutput {pq : List Instr} {s : State} (g : Nat) (out : Int) (hs : Kept pq s) : Kept pq (evalOutput s g out) := by
  unfold evalOutput
  extract_lets +onlyGivenNames x1
  clear_value x1
  extract_lets +onlyGivenNames x2
  clear_value x2
  extract_lets +onlyGivenNames x3
  clear_value x3
  apply kept_ite
  · exact hs
  · apply kept_ite
    · apply kept_setI
      exact hs
    · apply kept_ite
      · apply kept_setI
        exact hs
      · exact hs

theorem kept_timingEvaluate {pq : List Instr} {s : State} (g : Nat) (means : List (Nat × Int)) (out : Int) (hs : Kept pq s) :
    Kept pq (timingEvaluate s g means out) := by
  unfold timingEvaluate
  extract_lets +onlyGivenNames x1
  have h1 : Kept pq x1 := by
    unfold x1
    apply kept_foldl
    · exact hs
    · intro t2
      intro t3
      intro h4
      apply kept_evalTable
      exact h4
  clear_value x1
  extract_lets +onlyGivenNames x5
  have h5 : Kept pq x5 := by
    unfold x5
    apply kept_foldl
    · exact h1
    · intro t6
      intro t7
      intro h8
      split
      · apply kept_ite
        · apply kept_setI
          exact h8
        · exact h8
      · exact h8
  clear_value x5
  extract_lets +onlyGivenNames x9
  have h9 : Kept pq x9 := by
    unfold x9
    apply kept_evalOutput
    exact h5
  clear_value x9
  extract_lets +onlyGivenNames x10
  have h10 : Kept pq x10 := by
    unfold x10
    apply kept_foldl
    · exact h9
    · intro t11
      intro t12
      intro h13
      apply kept_evalEntry
      exact h13
  clear_value x10
  extract_lets +onlyGivenNames x14
  have h14 : Kept pq x14 := by
    unfold x14
    apply kept_evalVote
    exact h10
  clear_value x14
  extract_lets +onlyGivenNames x15
  clear_value x15
  extract_lets +onlyGivenNames x16
  have h16 : Kept pq x16 := by
    unfold x16
    apply kept_ite
    · apply kept_tgDeselect
      exact h14
    · exact h14
  clear_value x16
  extract_lets +onlyGivenNames x17
  have h17 : Kept pq x17 := by
    unfold x17
    apply kept_evalHistory
    exact h16
  clear_value x17
  extract_lets +onlyGivenNames x18
  have h18 : Kept pq x18 := by
    unfold x18
    apply kept_ite
    · apply kept_bump
      exact h17
    · exact h17
  clear_value x18
  apply kept_ite
  · exact h18
  · apply kept_tgRunSelection
    exact h18

theorem kept_execTimingEvaluation {pq : List Instr} (g : Nat) (means : List (Nat × Int)) (out : Int) {s : State} (hs : Kept pq
    s) : KeptOut pq (execTimingEvaluation g means out s) := by
  unfold execTimingEvaluation
  apply keptOut_onUnit
  · exact hs
  · intro t1
    intro h2
    apply kept_timingEvaluate
    exact h2

theorem kept_execRefActivityLoss {pq : List Instr} (x : Nat) {s : State} (hs : Kept pq s) : KeptOut pq (execRefActivityLoss x s)
    := by
  unfold execRefActivityLoss
  apply keptOut_onUnit
  · exact hs
  · intro t1
    intro h2
    apply kept_timingSourceLost
    apply kept_setB
    exact h2

theorem kept_execRefActivityReturn {pq : List Instr} (x : Nat) {s : State} (hs : Kept pq s) : KeptOut pq (execRefActivityReturn
    x s) := by
  unfold execRefActivityReturn
  apply keptOut_onUnit
  · exact hs
  · intro t1
    intro h2
    extract_lets +onlyGivenNames x3
    have h3 : Kept pq x3 := by
      unfold x3
      apply kept_setB
      exact h2
    clear_value x3
    apply kept_foldl
    · exact h3
    · intro t4
      intro t5
      intro h6
      apply kept_foldl
      · exact h6
      · intro t7
        intro t8
        intro h9
        extract_lets +onlyGivenNames x10
        clear_value x10
        apply kept_ite
        · apply kept_setN
          apply kept_setN
          exact h9
        · exact h9

theorem kept_execOscinLoss {pq : List Instr} {s : State} (hs : Kept pq s) : KeptOut pq (execOscinLoss s) := by
  unfold execOscinLoss
  apply keptOut_next
  apply kept_ite
  · exact hs
  · apply kept_timingSourceLost
    apply kept_setCond
    apply kept_bump
    apply kept_mk
    exact hs

theorem kept_execOscinReturn {pq : List Instr} {s : State} (hs : Kept pq s) : KeptOut pq (execOscinReturn s) := by
  unfold execOscinReturn
  apply keptOut_next
  apply kept_mk
  exact hs

theorem kept_execOscinAlarmClear {pq : List Instr} {s : State} (hs : Kept pq s) : KeptOut pq (execOscinAlarmClear s) := by
  unfold execOscinAlarmClear
  apply keptOut_next
  apply kept_ite
  · exact hs
  · apply kept_setCond
    exact hs

theorem kept_execGeneratorLock {pq : List Instr} (g : Nat) {s : State} (hs : Kept pq s) : KeptOut pq (execGeneratorLock g s) := by
  unfold execGeneratorLock
  apply keptOut_onUnit
  · exact hs
  · intro t1
    intro h2
    apply kept_ite
    · apply kept_tgLocked
      exact h2
    · exact h2

theorem kept_execGeneratorLockTimeout {pq : List Instr} (g : Nat) {s : State} (hs : Kept pq s) : KeptOut pq
    (execGeneratorLockTimeout g s) := by
  unfold execGeneratorLockTimeout
  apply keptOut_onUnit
  · exact hs
  · intro t1
    intro h2
    extract_lets +onlyGivenNames x3
    clear_value x3
    apply kept_ite
    · apply kept_disqualifyNow
      apply kept_setTgEntry
      exact h2
    · exact h2

theorem kept_execHoldoverLimit {pq : List Instr} (g : Nat) {s : State} (hs : Kept pq s) : KeptOut pq (execHoldoverLimit g s) := by
  unfold execHoldoverLimit
  apply keptOut_onUnit
  · exact hs
  · intro t1
    intro h2
    apply kept_ite
    · apply kept_tgLost
      exact h2
    · exact h2

theorem kept_execTgWaitToRestore {pq : List Instr} (g : Nat) {s : State} (hs : Kept pq s) : KeptOut pq (execTgWaitToRestore g s)
    := by
  unfold execTgWaitToRestore
  apply keptOut_onUnit
  · exact hs
  · intro t1
    intro h2
    extract_lets +onlyGivenNames x3
    clear_value x3
    apply kept_ite
    · split
      · apply kept_tgSelect
        exact h2
      · exact h2
    · exact h2

theorem kept_tgReselect {pq : List Instr} (g : Nat) {s : State} (hs : Kept pq s) : Kept2 pq (tgReselect g s) := by
  unfold tgReselect
  extract_lets +onlyGivenNames x1
  clear_value x1
  apply kept2_ite
  · apply kept2_mk
    exact hs
  · apply kept2_ite
    · apply kept2_mk
      exact hs
    · split
      · apply kept2_mk
        apply kept_tgSelect
        exact hs
      · apply kept2_mk
        exact hs

theorem kept_tgForceHoldover {pq : List Instr} (g : Nat) {s : State} (hs : Kept pq s) : Kept2 pq (tgForceHoldover g s) := by
  unfold tgForceHoldover
  extract_lets +onlyGivenNames x1
  clear_value x1
  extract_lets +onlyGivenNames x2
  have h2 : Kept pq x2 := by
    unfold x2
    apply kept_tgDeselect
    exact hs
  clear_value x2
  extract_lets +onlyGivenNames x3
  clear_value x3
  extract_lets +onlyGivenNames x4
  have h4 : Kept pq x4 := by
    unfold x4
    apply kept_setTg
    exact h2
  clear_value x4
  apply kept2_ite
  · apply kept2_mk
    exact h4
  · apply kept2_ite
    · apply kept2_mk
      apply kept_tgLost
      exact h4
    · apply kept2_mk
      apply kept_tgHold
      exact h4

theorem kept_tgReleaseHoldover {pq : List Instr} (g : Nat) {s : State} (hs : Kept pq s) : Kept2 pq (tgReleaseHoldover g s) := by
  unfold tgReleaseHoldover
  apply kept2_ite
  · apply kept2_mk
    apply kept_tgRunSelection
    apply kept_setTg
    exact hs
  · apply kept2_mk
    exact hs

theorem kept_execTgReselect {pq : List Instr} (k : Nat) (g : Nat) {s : State} (hs : Kept pq s) : KeptOut pq (execTgReselect k g
    s) := by
  unfold execTgReselect
  apply keptOut_next
  apply kept_hostCmd
  · exact hs
  · intro t1
    intro h2
    apply kept_tgReselect
    exact h2

theorem kept_execTgForceHoldover {pq : List Instr} (k : Nat) (g : Nat) {s : State} (hs : Kept pq s) : KeptOut pq
    (execTgForceHoldover k g s) := by
  unfold execTgForceHoldover
  apply keptOut_next
  apply kept_hostCmd
  · exact hs
  · intro t1
    intro h2
    apply kept_tgForceHoldover
    exact h2

theorem kept_execTgReleaseHoldover {pq : List Instr} (k : Nat) (g : Nat) {s : State} (hs : Kept pq s) : KeptOut pq
    (execTgReleaseHoldover k g s) := by
  unfold execTgReleaseHoldover
  apply keptOut_next
  apply kept_hostCmd
  · exact hs
  · intro t1
    intro h2
    apply kept_tgReleaseHoldover
    exact h2

theorem kept_loopWritten {pq : List Instr} {old : State} {s : State} (g : Nat) (hs : Kept pq s) : Kept pq (loopWritten old s g)
    := by
  unfold loopWritten
  extract_lets +onlyGivenNames x1
  clear_value x1
  extract_lets +onlyGivenNames x2
  clear_value x2
  apply kept_ite
  · apply kept_setN
    apply kept_setI
    exact hs
  · apply kept_ite
    · extract_lets +onlyGivenNames x3
      clear_value x3
      apply kept_ite
      · apply kept_setN
        apply kept_tgAcquire
        exact hs
      · apply kept_tgHold
        exact hs
    · exact hs

theorem kept_steerWritten {pq : List Instr} {s : State} (g : Nat) (hs : Kept pq s) : Kept pq (steerWritten s g) := by
  unfold steerWritten
  apply kept_ite
  · apply kept_setI
    exact hs
  · exact hs

theorem kept_timeMoved {pq : List Instr} {s : State} (d : Int) (hs : Kept pq s) : Kept pq (timeMoved s d) := by
  unfold timeMoved
  extract_lets +onlyGivenNames x1
  have h1 : Kept pq x1 := by
    unfold x1
    apply kept_foldl
    · exact hs
    · intro t2
      intro t3
      intro h4
      apply kept_ite
      · exact h4
      · apply kept_setTg
        exact h4
  clear_value x1
  apply kept_foldl
  · exact h1
  · intro t5
    intro t6
    intro h7
    apply kept_ite
    · apply kept_setFpo
      exact h7
    · exact h7

theorem kept_advance {pq : List Instr} {s : State} (d : Int) (hs : Kept pq s) : Kept pq (advance s d) := by
  unfold advance
  extract_lets +onlyGivenNames x1
  clear_value x1
  apply kept_mk
  exact hs

theorem kept_startSlew {pq : List Instr} {s : State} (ns : Int) (hs : Kept pq s) : Kept pq (startSlew s ns) := by
  unfold startSlew
  apply kept_mk
  exact hs

theorem kept_timeStep {pq : List Instr} {s : State} (hs : Kept pq s) : Kept2 pq (timeStep s) := by
  unfold timeStep
  apply kept2_ite
  · apply kept2_mk
    exact hs
  · apply kept2_ite
    · apply kept2_mk
      exact hs
    · apply kept2_ite
      · apply kept2_mk
        exact hs
      · apply kept2_mk
        apply kept_setN
        apply kept_mk
        exact hs

theorem kept_ppsStart {pq : List Instr} {s : State} (hs : Kept pq s) : Kept pq (ppsStart s) := by
  unfold ppsStart
  apply kept_ite
  · apply kept_startSlew
    apply kept_mk
    exact hs
  · exact hs

theorem kept_slewEnded {pq : List Instr} {s : State} (hs : Kept pq s) : Kept pq (slewEnded s) := by
  unfold slewEnded
  apply kept_ppsStart
  apply kept_setN
  exact hs

theorem kept_timeSlew {pq : List Instr} {s : State} (hs : Kept pq s) : Kept2 pq (timeSlew s) := by
  unfold timeSlew
  apply kept2_ite
  · apply kept2_mk
    exact hs
  · extract_lets +onlyGivenNames x1
    clear_value x1
    apply kept2_mk
    apply kept_setN
    apply kept_startSlew
    exact hs

theorem kept_timeSlewCancel {pq : List Instr} {s : State} (hs : Kept pq s) : Kept2 pq (timeSlewCancel s) := by
  unfold timeSlewCancel
  apply kept2_ite
  · apply kept2_mk
    exact hs
  · apply kept2_mk
    apply kept_slewEnded
    apply kept_startSlew
    exact hs

theorem kept_execTimeStep {pq : List Instr} (k : Nat) {s : State} (hs : Kept pq s) : KeptOut pq (execTimeStep k s) := by
  unfold execTimeStep
  apply keptOut_next
  apply kept_hostCmd
  · exact hs
  · intro t1
    intro h2
    apply kept_timeStep
    exact h2

theorem kept_execTimeSlew {pq : List Instr} (k : Nat) {s : State} (hs : Kept pq s) : KeptOut pq (execTimeSlew k s) := by
  unfold execTimeSlew
  apply keptOut_next
  apply kept_hostCmd
  · exact hs
  · intro t1
    intro h2
    apply kept_timeSlew
    exact h2

theorem kept_execTimeSlewCancel {pq : List Instr} (k : Nat) {s : State} (hs : Kept pq s) : KeptOut pq (execTimeSlewCancel k s)
    := by
  unfold execTimeSlewCancel
  apply keptOut_next
  apply kept_hostCmd
  · exact hs
  · intro t1
    intro h2
    apply kept_timeSlewCancel
    exact h2

theorem kept_execSlewDone {pq : List Instr} {s : State} (hs : Kept pq s) : KeptOut pq (execSlewDone s) := by
  unfold execSlewDone
  extract_lets +onlyGivenNames x1
  clear_value x1
  apply keptOut_next
  apply kept_ite
  · exact hs
  · apply kept_slewEnded
    apply kept_timeMoved
    apply kept_advance
    apply kept_startSlew
    exact hs

theorem kept_execPpsEdge {pq : List Instr} (t : Nat) {s : State} (hs : Kept pq s) : KeptOut pq (execPpsEdge t s) := by
  unfold execPpsEdge
  extract_lets +onlyGivenNames x1
  clear_value x1
  extract_lets +onlyGivenNames x2
  clear_value x2
  apply keptOut_next
  apply kept_ite
  · extract_lets +onlyGivenNames x3
    clear_value x3
    extract_lets +onlyGivenNames x4
    clear_value x4
    extract_lets +onlyGivenNames x5
    have h5 : Kept pq x5 := by
      unfold x5
      apply kept_setI
      exact hs
    clear_value x5
    apply kept_ite
    · exact h5
    · apply kept_ite
      · apply kept_ite
        · apply kept_mk
          exact h5
        · exact h5
      · apply kept_startSlew
        exact h5
  · exact hs

theorem kept_fpoEnabled {pq : List Instr} {old : State} {s : State} (f : Nat) (hs : Kept pq s) : Kept pq (fpoEnabled old s f) :=
    by
  unfold fpoEnabled
  apply kept_ite
  · apply kept_setFpo
    exact hs
  · apply kept_ite
    · exact hs
    · apply kept_setN
      apply kept_setFpo
      exact hs

theorem kept_fpoMoved {pq : List Instr} {old : State} {s : State} (f : Nat) (hs : Kept pq s) : Kept pq (fpoMoved old s f) := by
  unfold fpoMoved
  apply kept_ite
  · exact hs
  · extract_lets +onlyGivenNames x1
    clear_value x1
    extract_lets +onlyGivenNames x2
    clear_value x2
    extract_lets +onlyGivenNames x3
    clear_value x3
    extract_lets +onlyGivenNames x4
    clear_value x4
    extract_lets +onlyGivenNames x5
    clear_value x5
    extract_lets +onlyGivenNames x6
    clear_value x6
    extract_lets +onlyGivenNames x7
    clear_value x7
    extract_lets +onlyGivenNames x8
    clear_value x8
    extract_lets +onlyGivenNames x9
    clear_value x9
    apply kept_setFpo
    exact hs

theorem kept_fpoNewPeriod {pq : List Instr} {s : State} (f : Nat) (edge : Nat) (hs : Kept pq s) : Kept pq (fpoNewPeriod s f
    edge) := by
  unfold fpoNewPeriod
  extract_lets +onlyGivenNames x1
  clear_value x1
  extract_lets +onlyGivenNames x2
  clear_value x2
  apply kept_setFpo
  exact hs

theorem kept_fpoAlign {pq : List Instr} (f : Nat) {s : State} (hs : Kept pq s) : Kept2 pq (fpoAlign f s) := by
  unfold fpoAlign
  apply kept2_ite
  · apply kept2_mk
    exact hs
  · apply kept2_ite
    · apply kept2_mk
      exact hs
    · apply kept2_mk
      apply kept_setN
      apply kept_setFpo
      exact hs

theorem kept_execFpoAlign {pq : List Instr} (k : Nat) (f : Nat) {s : State} (hs : Kept pq s) : KeptOut pq (execFpoAlign k f s)
    := by
  unfold execFpoAlign
  apply keptOut_next
  apply kept_hostCmd
  · exact hs
  · intro t1
    intro h2
    apply kept_fpoAlign
    exact h2

theorem kept_fpoTick {pq : List Instr} {s : State} (f : Nat) (hs : Kept pq s) : Kept pq (fpoTick s f) := by
  unfold fpoTick
  apply kept_ite
  · exact hs
  · extract_lets +onlyGivenNames x1
    extract_lets +onlyGivenNames x2
    have h2 : Kept pq x2 := by
      unfold x2
      split
      · apply kept_ite
        · apply kept_fpoNewPeriod
          exact hs
        · exact hs
      · exact hs
    extract_lets +onlyGivenNames x3
    extract_lets +onlyGivenNames x4
    clear_value x4
    extract_lets +onlyGivenNames x5
    clear_value x5
    split
    · apply kept_ite
      · apply kept_setN
        apply kept_setFpo
        exact h2
      · apply kept_setFpo
        exact h2
    · apply kept_setFpo
      exact h2

theorem kept_timeTick {pq : List Instr} {s : State} (hs : Kept pq s) : Kept pq (timeTick s) := by
  unfold timeTick
  extract_lets +onlyGivenNames x1
  clear_value x1
  extract_lets +onlyGivenNames x2
  have h2 : Kept pq x2 := by
    unfold x2
    apply kept_advance
    exact hs
  clear_value x2
  extract_lets +onlyGivenNames x3
  have h3 : Kept pq x3 := by
    unfold x3
    apply kept_foldl
    · exact h2
    · intro t4 t5 h6
      apply kept_ite
      · exact h6
      · apply kept_setTg
        exact h6
  clear_value x3
  extract_lets +onlyGivenNames x7
  clear_value x7
  extract_lets +onlyGivenNames x8
  clear_value x8
  extract_lets +onlyGivenNames x9
  clear_value x9
  extract_lets +onlyGivenNames x10
  clear_value x10
  extract_lets +onlyGivenNames x11
  have h11 : Kept pq x11 := by
    unfold x11
    apply kept_ite
    · exact h3
    · apply kept_timeMoved
      apply kept_advance
      apply kept_mk
      exact h3
  clear_value x11
  extract_lets +onlyGivenNames x12
  have h12 : Kept pq x12 := by
    unfold x12
    apply kept_ite
    · apply kept_slewEnded
      exact h11
    · exact h11
  clear_value x12
  apply kept_foldl
  · exact h12
  · intro t13 t14 h15
    apply kept_fpoTick
    exact h15

theorem kept_clearTimingCounters {pq : List Instr} {s : State} (hs : Kept pq s) : Kept2 pq (clearTimingCounters s) := by
  unfold clearTimingCounters
  apply kept2_mk
  apply kept_clearObjs
  exact hs

theorem kept_execClearTimingCounters {pq : List Instr} (k : Nat) {s : State} (hs : Kept pq s) : KeptOut pq
    (execClearTimingCounters k s) := by
  unfold execClearTimingCounters
  apply keptOut_next
  apply kept_hostCmd
  · exact hs
  · intro t1
    intro h2
    apply kept_clearTimingCounters
    exact h2

theorem kept_timingAfter {pq : List Instr} {old : State} {s : State} (key : Nat) (hs : Kept pq s) : Kept pq (timingAfter old s
    key) := by
  unfold timingAfter
  extract_lets +onlyGivenNames x1
  clear_value x1
  extract_lets +onlyGivenNames x2
  clear_value x2
  extract_lets +onlyGivenNames x3
  clear_value x3
  apply kept_ite
  · apply kept_loopWritten
    exact hs
  · apply kept_ite
    · apply kept_steerWritten
      exact hs
    · apply kept_ite
      · apply kept_fpoEnabled
        exact hs
      · apply kept_ite
        · apply kept_ite
          · apply kept_fpoMoved
            exact hs
          · exact hs
        · exact hs

end Sys2Proof.Machine
end

