-- ==== Sys2Proof/Laws/KeptLanes.lean ====
section
/-! SUPPORT. Every operation of Machine/Lanes.lean keeps the queue and the well-formedness of the state. -/

namespace Sys2Proof.Machine

theorem kept_clientJudge {pq : List Instr} {s : State} (t : Nat) (hs : Kept pq s) : Kept pq (clientJudge s t) := by
  unfold clientJudge
  extract_lets +onlyGivenNames x1
  have h1 : Kept pq x1 := by
    unfold x1
    apply kept_ite
    · apply kept_setCond
      exact hs
    · exact hs
  clear_value x1
  extract_lets +onlyGivenNames x2
  clear_value x2
  extract_lets +onlyGivenNames x3
  have h3 : Kept pq x3 := by
    unfold x3
    apply kept_ite
    · apply kept_setMember
      exact h1
    · exact h1
  clear_value x3
  apply kept_setCond
  exact h3

theorem kept_clientLanes {pq : List Instr} {s : State} (t : Nat) (hs : Kept pq s) : Kept pq (clientLanes s t) := by
  unfold clientLanes
  extract_lets +onlyGivenNames x1
  clear_value x1
  extract_lets +onlyGivenNames x2
  clear_value x2
  extract_lets +onlyGivenNames x3
  clear_value x3
  extract_lets +onlyGivenNames x4
  have h4 : Kept pq x4 := by
    unfold x4
    apply kept_setN
    exact hs
  clear_value x4
  apply kept_clientJudge
  exact h4

theorem kept_execPcsAligned {pq : List Instr} (t : Nat) (st : Nat) {s : State} (hs : Kept pq s) : KeptOut pq (execPcsAligned t
    st s) := by
  unfold execPcsAligned
  apply keptOut_onUnit
  · exact hs
  · intro t1
    intro h2
    extract_lets +onlyGivenNames x3
    clear_value x3
    extract_lets +onlyGivenNames x4
    clear_value x4
    extract_lets +onlyGivenNames x5
    clear_value x5
    apply kept_ite
    · apply kept_clientJudge
      apply kept_setN
      exact h2
    · exact h2

theorem kept_execClientFailClearTimer {pq : List Instr} (t : Nat) {s : State} (hs : Kept pq s) : KeptOut pq
    (execClientFailClearTimer t s) := by
  unfold execClientFailClearTimer
  apply keptOut_onUnit
  · exact hs
  · intro t1
    intro h2
    apply kept_ite
    · exact h2
    · apply kept_setCond
      exact h2

theorem kept_laneEnter {pq : List Instr} {s : State} (hs : Kept pq s) (k : Nat) (st : Nat) : Kept pq (laneEnter s k st) := by
  unfold laneEnter
  extract_lets +onlyGivenNames x1
  clear_value x1
  extract_lets +onlyGivenNames x2
  have h2 : Kept pq x2 := by
    unfold x2
    apply kept_setN
    exact hs
  clear_value x2
  extract_lets +onlyGivenNames x3
  have h3 : Kept pq x3 := by
    unfold x3
    apply kept_ite
    · apply kept_laneClockLost
      exact h2
    · exact h2
  clear_value x3
  extract_lets +onlyGivenNames x4
  clear_value x4
  extract_lets +onlyGivenNames x5
  have h5 : Kept pq x5 := by
    unfold x5
    apply kept_ite
    · apply kept_setLane
      apply kept_setB
      exact h3
    · exact h3
  clear_value x5
  extract_lets +onlyGivenNames x6
  clear_value x6
  extract_lets +onlyGivenNames x7
  have h7 : Kept pq x7 := by
    unfold x7
    apply kept_ite
    · apply kept_setLane
      exact h5
    · exact h5
  clear_value x7
  extract_lets +onlyGivenNames x8
  clear_value x8
  extract_lets +onlyGivenNames x9
  have h9 : Kept pq x9 := by
    unfold x9
    apply kept_ite
    · apply kept_setLane
      exact h7
    · exact h7
  clear_value x9
  apply kept_ite
  · split
    · apply kept_clientLanes
      exact h9
    · exact h9
  · exact h9

theorem kept_laneOff {pq : List Instr} {s : State} (k : Nat) (hs : Kept pq s) : Kept pq (laneOff s k) := by
  unfold laneOff
  extract_lets +onlyGivenNames x1
  have h1 : Kept pq x1 := by
    unfold x1
    apply kept_laneEnter
    exact hs
  clear_value x1
  apply kept_setN
  apply kept_setLane
  exact h1

theorem kept_laneUnresolved {pq : List Instr} {s : State} (hs : Kept pq s) (k : Nat) : Kept pq (laneUnresolved s k) := by
  unfold laneUnresolved
  extract_lets +onlyGivenNames x1
  clear_value x1
  extract_lets +onlyGivenNames x2
  have h2 : Kept pq x2 := by
    unfold x2
    apply kept_setLane
    exact hs
  clear_value x2
  apply kept_setN
  apply kept_setN
  apply kept_setN
  apply kept_setN
  exact h2

theorem kept_laneDetect {pq : List Instr} {s : State} (hs : Kept pq s) (k : Nat) (cause : Nat) : Kept pq (laneDetect s k
    cause) := by
  unfold laneDetect
  apply kept_ite
  · apply kept_laneOff
    exact hs
  · extract_lets +onlyGivenNames x1
    clear_value x1
    extract_lets +onlyGivenNames x2
    have h2 : Kept pq x2 := by
      unfold x2
      apply kept_ite
      · apply kept_countEv
        apply kept_setN
        apply kept_bump
        exact hs
      · exact hs
    clear_value x2
    extract_lets +onlyGivenNames x3
    have h3 : Kept pq x3 := by
      unfold x3
      apply kept_laneEnter
      exact h2
    clear_value x3
    extract_lets +onlyGivenNames x4
    clear_value x4
    extract_lets +onlyGivenNames x5
    have h5 : Kept pq x5 := by
      unfold x5
      apply kept_setLane
      exact h3
    clear_value x5
    apply kept_laneUnresolved
    exact h5

theorem kept_lanePreset {pq : List Instr} {s : State} (hs : Kept pq s) (k : Nat) : Kept pq (lanePreset s k) := by
  unfold lanePreset
  apply kept_setLane
  exact hs

theorem kept_laneLock {pq : List Instr} {s : State} (hs : Kept pq s) (k : Nat) (train : Nat) : Kept pq (laneLock s k train) :=
    by
  unfold laneLock
  apply kept_setN
  apply kept_laneEnter
  apply kept_ite
  · exact hs
  · apply kept_lanePreset
    exact hs

theorem kept_laneActive {pq : List Instr} {s : State} (hs : Kept pq s) (k : Nat) (exch : Nat) : Kept pq (laneActive s k exch)
    := by
  unfold laneActive
  extract_lets +onlyGivenNames x1
  have h1 : Kept pq x1 := by
    unfold x1
    apply kept_setN
    exact hs
  clear_value x1
  extract_lets +onlyGivenNames x2
  clear_value x2
  extract_lets +onlyGivenNames x3
  have h3 : Kept pq x3 := by
    unfold x3
    apply kept_ite
    · apply kept_setLane
      apply kept_setN
      exact h1
    · exact h1
  clear_value x3
  extract_lets +onlyGivenNames x4
  have h4 : Kept pq x4 := by
    unfold x4
    apply kept_laneEnter
    exact h3
  clear_value x4
  apply kept_setCond
  apply kept_setCond
  exact h4

theorem kept_clientResolve {pq : List Instr} {s : State} (t : Nat) (ty : Nat) (how : Nat) (hs : Kept pq s) : Kept pq
    (clientResolve s t ty how) := by
  unfold clientResolve
  extract_lets +onlyGivenNames x1
  have h1 : Kept pq x1 := by
    unfold x1
    apply kept_setN
    exact hs
  clear_value x1
  apply kept_foldl
  · exact h1
  · intro t2
    intro t3
    intro h4
    apply kept_setN
    apply kept_setN
    exact h4

theorem kept_laneTrain {pq : List Instr} {s : State} (hs : Kept pq s) (k : Nat) : Kept pq (laneTrain s k) := by
  unfold laneTrain
  extract_lets +onlyGivenNames x1
  have h1 : Kept pq x1 := by
    unfold x1
    apply kept_laneEnter
    apply kept_lanePreset
    exact hs
  clear_value x1
  apply kept_ite
  · exact h1
  · apply kept_laneLock
    exact h1

theorem kept_laneRejoin {pq : List Instr} {s : State} (hs : Kept pq s) (k : Nat) (t : Nat) : Kept pq (laneRejoin s k t) := by
  unfold laneRejoin
  extract_lets +onlyGivenNames x1
  clear_value x1
  extract_lets +onlyGivenNames x2
  have h2 : Kept pq x2 := by
    unfold x2
    apply kept_setN
    apply kept_setN
    exact hs
  clear_value x2
  apply kept_ite
  · apply kept_laneTrain
    exact h2
  · apply kept_laneLock
    exact h2

theorem kept_execFarTerminationDetected {pq : List Instr} (k : Nat) {s : State} (hs : Kept pq s) : KeptOut pq
    (execFarTerminationDetected k s) := by
  unfold execFarTerminationDetected
  apply keptOut_onUnit
  · exact hs
  · intro t1 h2
    apply kept_ite
    · exact h2
    · extract_lets +onlyGivenNames x3
      clear_value x3
      extract_lets +onlyGivenNames x4
      have h4 : Kept pq x4 := by
        unfold x4
        apply kept_laneEnter
        apply kept_setLane
        exact h2
      clear_value x4
      split
      · apply kept_laneLock
        apply kept_setN
        apply kept_setN
        exact h4
      · extract_lets +onlyGivenNames x5
        clear_value x5
        apply kept_ite
        · apply kept_ite
          · apply kept_laneRejoin
            exact h4
          · apply kept_ite
            · exact h4
            · apply kept_setLane
              exact h4
        · apply kept_laneLock
          apply kept_setN
          apply kept_setN
          exact h4

theorem kept_execDmePagesReceived {pq : List Instr} (k : Nat) (abilities : Nat) {s : State} (hs : Kept pq s) : KeptOut pq
    (execDmePagesReceived k abilities s) := by
  unfold execDmePagesReceived
  apply keptOut_onUnit
  · exact hs
  · intro t1 h2
    extract_lets +onlyGivenNames x3
    clear_value x3
    split
    · apply kept_ite
      · apply kept_laneLock
        apply kept_setN
        apply kept_setN
        apply kept_laneUnresolved
        apply kept_laneEnter
        exact h2
      · exact h2
    · apply kept_ite
      · exact h2
      · apply kept_ite
        · apply kept_foldl
          · exact h2
          · intro t4 t5 h6
            apply kept_ite
            · apply kept_laneUnresolved
              apply kept_laneEnter
              exact h6
            · exact h6
        · apply kept_ite
          · split
            · exact h2
            · apply kept_foldl
              · apply kept_clientResolve
                exact h2
              · intro t7 t8 h9
                apply kept_ite
                · apply kept_laneTrain
                  exact h9
                · exact h9
          · exact h2

theorem kept_execAnTimeout {pq : List Instr} (k : Nat) {s : State} (hs : Kept pq s) : KeptOut pq (execAnTimeout k s) := by
  unfold execAnTimeout
  apply keptOut_onUnit
  · exact hs
  · intro t1
    intro h2
    apply kept_ite
    · apply kept_setLane
      exact h2
    · exact h2

theorem kept_execParallelDetectDone {pq : List Instr} (t : Nat) (ty : Nat) {s : State} (hs : Kept pq s) : KeptOut pq
    (execParallelDetectDone t ty s) := by
  unfold execParallelDetectDone
  apply keptOut_onUnit
  · exact hs
  · intro t1 h2
    extract_lets +onlyGivenNames x3
    clear_value x3
    apply kept_ite
    · exact h2
    · apply kept_ite
      · apply kept_foldl
        · apply kept_clientResolve
          exact h2
        · intro t4 t5 h6
          apply kept_ite
          · apply kept_laneLock
            exact h6
          · exact h6
      · apply kept_foldl
        · exact h2
        · intro t7 t8 h9
          apply kept_laneDetect
          exact h9

theorem kept_execTrainingDone {pq : List Instr} (k : Nat) (taps : List Int) {s : State} (hs : Kept pq s) : KeptOut pq
    (execTrainingDone k taps s) := by
  unfold execTrainingDone
  apply keptOut_onUnit
  · exact hs
  · intro t1 h2
    apply kept_ite
    · apply kept_laneLock
      apply kept_setLane
      exact h2
    · exact h2

theorem kept_execTrainTimeout {pq : List Instr} (k : Nat) (started : Bool) {s : State} (hs : Kept pq s) : KeptOut pq
    (execTrainTimeout k started s) := by
  unfold execTrainTimeout
  apply keptOut_onUnit
  · exact hs
  · intro t1
    intro h2
    apply kept_ite
    · exact h2
    · apply kept_ite
      · apply kept_setN
        apply kept_laneDetect
        exact h2
      · apply kept_laneLock
        exact h2

theorem kept_fomUpdate {pq : List Instr} {s : State} (k : Nat) (fom : F32) (hs : Kept pq s) : Kept pq (fomUpdate s k fom) := by
  unfold fomUpdate
  extract_lets +onlyGivenNames x1
  clear_value x1
  apply kept_setF
  apply kept_setLane
  exact hs

theorem kept_laneMeasured {pq : List Instr} {s : State} (hs : Kept pq s) (k : Nat) (r : LaneReport) : Kept pq (laneMeasured s
    k r) := by
  unfold laneMeasured
  apply kept_ite
  · exact hs
  · extract_lets +onlyGivenNames x1
    have h1 : Kept pq x1 := by
      unfold x1
      apply kept_fomUpdate
      exact hs
    clear_value x1
    extract_lets +onlyGivenNames x2
    clear_value x2
    extract_lets +onlyGivenNames x3
    have h3 : Kept pq x3 := by
      unfold x3
      apply kept_setLane
      exact h1
    clear_value x3
    apply kept_ite
    · exact h3
    · extract_lets +onlyGivenNames x4
      clear_value x4
      extract_lets +onlyGivenNames x5
      clear_value x5
      apply kept_setF
      apply kept_setLane
      exact h3

theorem kept_execLockQualified {pq : List Instr} (k : Nat) (r : LaneReport) {s : State} (hs : Kept pq s) : KeptOut pq
    (execLockQualified k r s) := by
  unfold execLockQualified
  apply keptOut_onUnit
  · exact hs
  · intro t1 h2
    extract_lets +onlyGivenNames x3
    have h3 : Kept pq x3 := by
      unfold x3
      apply kept_laneMeasured
      exact h2
    clear_value x3
    apply kept_ite
    · exact h3
    · apply kept_ite
      · apply kept_laneActive
        exact h3
      · apply kept_laneEnter
        apply kept_setLane
        exact h3

theorem kept_execLockTimeout {pq : List Instr} (k : Nat) {s : State} (hs : Kept pq s) : KeptOut pq (execLockTimeout k s) := by
  unfold execLockTimeout
  apply keptOut_onUnit
  · exact hs
  · intro t1
    intro h2
    apply kept_ite
    · apply kept_laneDetect
      exact h2
    · exact h2

theorem kept_execCapabilityFrameReceived {pq : List Instr} (k : Nat) (frame : Nat) {s : State} (hs : Kept pq s) : KeptOut pq
    (execCapabilityFrameReceived k frame s) := by
  unfold execCapabilityFrameReceived
  apply keptOut_onUnit
  · exact hs
  · intro t1
    intro h2
    extract_lets +onlyGivenNames x3
    clear_value x3
    extract_lets +onlyGivenNames x4
    clear_value x4
    apply kept_ite
    · exact h2
    · apply kept_ite
      · apply kept_setLane
        exact h2
      · apply kept_ite
        · exact h2
        · extract_lets +onlyGivenNames x5
          have h5 : Kept pq x5 := by
            unfold x5
            apply kept_setO
            exact h2
          clear_value x5
          extract_lets +onlyGivenNames x6
          clear_value x6
          extract_lets +onlyGivenNames x7
          clear_value x7
          extract_lets +onlyGivenNames x8
          clear_value x8
          extract_lets +onlyGivenNames x9
          have h9 : Kept pq x9 := by
            unfold x9
            apply kept_setLane
            exact h5
          clear_value x9
          apply kept_ite
          · exact h9
          · split
            · exact h9
            · extract_lets +onlyGivenNames x10
              clear_value x10
              extract_lets +onlyGivenNames x11
              clear_value x11
              apply kept_setCond
              apply kept_setB
              exact h9

theorem kept_execExchangeDone {pq : List Instr} (k : Nat) {s : State} (hs : Kept pq s) : KeptOut pq (execExchangeDone k s) := by
  unfold execExchangeDone
  apply keptOut_onUnit
  · exact hs
  · intro t1
    intro h2
    apply kept_ite
    · apply kept_laneActive
      exact h2
    · exact h2

theorem kept_execExchangeTimeout {pq : List Instr} (k : Nat) {s : State} (hs : Kept pq s) : KeptOut pq (execExchangeTimeout k s)
    := by
  unfold execExchangeTimeout
  apply keptOut_onUnit
  · exact hs
  · intro t1
    intro h2
    apply kept_ite
    · exact h2
    · apply kept_ite
      · apply kept_setN
        apply kept_laneDetect
        exact h2
      · apply kept_laneActive
        exact h2

theorem kept_execLaneSignalLoss {pq : List Instr} (k : Nat) {s : State} (hs : Kept pq s) : KeptOut pq (execLaneSignalLoss k s)
    := by
  unfold execLaneSignalLoss
  apply keptOut_onUnit
  · exact hs
  · intro t1
    intro h2
    extract_lets +onlyGivenNames x3
    clear_value x3
    apply kept_ite
    · exact h2
    · apply kept_setCond
      apply kept_countEv
      apply kept_bump
      apply kept_laneDetect
      exact h2

theorem kept_execLaneFomFail {pq : List Instr} (k : Nat) (r : LaneReport) (clockLost : Bool) {s : State} (hs : Kept pq s) :
    KeptOut pq (execLaneFomFail k r clockLost s) := by
  unfold execLaneFomFail
  apply keptOut_onUnit
  · exact hs
  · intro t1 h2
    extract_lets +onlyGivenNames x3
    clear_value x3
    extract_lets +onlyGivenNames x4
    have h4 : Kept pq x4 := by
      unfold x4
      apply kept_laneMeasured
      exact h2
    clear_value x4
    apply kept_ite
    · apply kept_laneEnter
      exact h4
    · exact h4

theorem kept_execBringupAlarmTimer {pq : List Instr} (k : Nat) {s : State} (hs : Kept pq s) : KeptOut pq (execBringupAlarmTimer
    k s) := by
  unfold execBringupAlarmTimer
  apply keptOut_onUnit
  · exact hs
  · intro t1
    intro h2
    extract_lets +onlyGivenNames x3
    clear_value x3
    apply kept_ite
    · apply kept_setCond
      exact h2
    · exact h2

theorem kept_laneInject {pq : List Instr} {s : State} (k : Nat) (n : Nat) (hs : Kept pq s) : Kept pq (laneInject s k n) := by
  unfold laneInject
  apply kept_bumpBy
  exact hs

theorem kept_laneRestart {pq : List Instr} (k : Nat) {s : State} (hs : Kept pq s) : Kept2 pq (laneRestart k s) := by
  unfold laneRestart
  apply kept2_ite
  · apply kept2_mk
    exact hs
  · apply kept2_mk
    apply kept_laneDetect
    exact hs

theorem kept_laneInjectStart {pq : List Instr} (k : Nat) {s : State} (hs : Kept pq s) : Kept2 pq (laneInjectStart k s) := by
  unfold laneInjectStart
  extract_lets +onlyGivenNames x1
  clear_value x1
  extract_lets +onlyGivenNames x2
  clear_value x2
  apply kept2_ite
  · apply kept2_mk
    exact hs
  · apply kept2_ite
    · apply kept2_mk
      exact hs
    · split
      · apply kept2_mk
        apply kept_laneInject
        exact hs
      · apply kept2_mk
        apply kept_setLane
        exact hs
      · apply kept2_mk
        apply kept_setLane
        exact hs
      · apply kept2_mk
        exact hs

theorem kept_laneInjectStop {pq : List Instr} (k : Nat) {s : State} (hs : Kept pq s) : Kept2 pq (laneInjectStop k s) := by
  unfold laneInjectStop
  apply kept2_mk
  apply kept_setLane
  exact hs

theorem kept_laneClearCounters {pq : List Instr} (k : Nat) {s : State} (hs : Kept pq s) : Kept2 pq (laneClearCounters k s) :=
    by
  unfold laneClearCounters
  apply kept2_ite
  · apply kept2_mk
    exact hs
  · apply kept2_mk
    apply kept_setN
    apply kept_setN
    apply kept_setN
    exact hs

theorem kept_execLaneRestart {pq : List Instr} (k : Nat) (l : Nat) {s : State} (hs : Kept pq s) : KeptOut pq (execLaneRestart k
    l s) := by
  unfold execLaneRestart
  apply keptOut_next
  apply kept_hostCmd
  · exact hs
  · intro t1
    intro h2
    apply kept_laneRestart
    exact h2

theorem kept_execLaneInjectStart {pq : List Instr} (k : Nat) (l : Nat) {s : State} (hs : Kept pq s) : KeptOut pq
    (execLaneInjectStart k l s) := by
  unfold execLaneInjectStart
  apply keptOut_next
  apply kept_hostCmd
  · exact hs
  · intro t1
    intro h2
    apply kept_laneInjectStart
    exact h2

theorem kept_execLaneInjectStop {pq : List Instr} (k : Nat) (l : Nat) {s : State} (hs : Kept pq s) : KeptOut pq
    (execLaneInjectStop k l s) := by
  unfold execLaneInjectStop
  apply keptOut_next
  apply kept_hostCmd
  · exact hs
  · intro t1
    intro h2
    apply kept_laneInjectStop
    exact h2

theorem kept_execLaneClearCounters {pq : List Instr} (k : Nat) (l : Nat) {s : State} (hs : Kept pq s) : KeptOut pq
    (execLaneClearCounters k l s) := by
  unfold execLaneClearCounters
  apply keptOut_next
  apply kept_hostCmd
  · exact hs
  · intro t1
    intro h2
    apply kept_laneClearCounters
    exact h2

theorem kept_laneTick {pq : List Instr} {s : State} (hs : Kept pq s) (k : Nat) : Kept pq (laneTick s k) := by
  unfold laneTick
  extract_lets +onlyGivenNames x1
  clear_value x1
  apply kept_ite
  · exact hs
  · apply kept_ite
    · extract_lets +onlyGivenNames x2
      clear_value x2
      extract_lets +onlyGivenNames x3
      clear_value x3
      apply kept_laneInject
      apply kept_setLane
      exact hs
    · extract_lets +onlyGivenNames x4
      clear_value x4
      extract_lets +onlyGivenNames x5
      clear_value x5
      apply kept_laneInject
      apply kept_setLane
      exact hs

theorem kept_lanesTick {pq : List Instr} {s : State} (hs : Kept pq s) : Kept pq (lanesTick s) := by
  unfold lanesTick
  apply kept_foldl
  · exact hs
  · intro t1
    intro t2
    intro h3
    apply kept_laneTick
    exact h3

theorem kept_checkerBit {pq : List Instr} {s : State} (hs : Kept pq s) (k : Nat) (b : Bool) : Kept pq (checkerBit s k b) := by
  unfold checkerBit
  extract_lets +onlyGivenNames x1
  clear_value x1
  extract_lets +onlyGivenNames x2
  clear_value x2
  apply kept_ite
  · extract_lets +onlyGivenNames x3
    clear_value x3
    extract_lets +onlyGivenNames x4
    have h4 : Kept pq x4 := by
      unfold x4
      apply kept_bump
      exact hs
    clear_value x4
    extract_lets +onlyGivenNames x5
    have h5 : Kept pq x5 := by
      unfold x5
      apply kept_ite
      · apply kept_countEv
        apply kept_bump
        exact h4
      · exact h4
    clear_value x5
    apply kept_ite
    · apply kept_setLane
      apply kept_setB
      exact h5
    · apply kept_setLane
      exact h5
  · extract_lets +onlyGivenNames x6
    clear_value x6
    extract_lets +onlyGivenNames x7
    have h7 : Kept pq x7 := by
      unfold x7
      apply kept_setLane
      exact hs
    clear_value x7
    apply kept_ite
    · apply kept_setB
      exact h7
    · exact h7

theorem kept_checkerRun {pq : List Instr} {s : State} (hs : Kept pq s) (k : Nat) (run : List Bool) : Kept pq (checkerRun s k
    run) := by
  unfold checkerRun
  apply kept_ite
  · exact hs
  · apply kept_foldl
    · exact hs
    · intro t1 t2 h3
      apply kept_checkerBit
      exact h3

theorem kept_execPrbsCheckerLocked {pq : List Instr} (k : Nat) (run : List Bool) {s : State} (hs : Kept pq s) : KeptOut pq
    (execPrbsCheckerLocked k run s) := by
  unfold execPrbsCheckerLocked
  apply keptOut_onUnit
  · exact hs
  · intro t1 h2
    apply kept_checkerRun
    exact h2

theorem kept_execPrbsCheckerLockLost {pq : List Instr} (k : Nat) (run : List Bool) {s : State} (hs : Kept pq s) : KeptOut pq
    (execPrbsCheckerLockLost k run s) := by
  unfold execPrbsCheckerLockLost
  apply keptOut_onUnit
  · exact hs
  · intro t1 h2
    apply kept_checkerRun
    exact h2

theorem kept_sendPfc {pq : List Instr} {s : State} (t : Nat) (q : Nat) (time : Nat) (hs : Kept pq s) : Kept pq (sendPfc s t q
    time) := by
  unfold sendPfc
  extract_lets +onlyGivenNames x1
  have h1 : Kept pq x1 := by
    unfold x1
    apply kept_mk
    exact hs
  clear_value x1
  apply kept_ite
  · exact h1
  · apply kept_bump
    exact h1

theorem kept_execClientFrameIngress {pq : List Instr} (t : Nat) (frame : Bytes) {s : State} (hs : Kept pq s) : KeptOut pq
    (execClientFrameIngress t frame s) := by
  unfold execClientFrameIngress
  apply keptOut_onUnit
  · exact hs
  · intro t1
    intro h2
    apply kept_ite
    · exact h2
    · extract_lets +onlyGivenNames x3
      clear_value x3
      extract_lets +onlyGivenNames x4
      clear_value x4
      extract_lets +onlyGivenNames x5
      clear_value x5
      extract_lets +onlyGivenNames x6
      clear_value x6
      extract_lets +onlyGivenNames x7
      clear_value x7
      extract_lets +onlyGivenNames x8
      clear_value x8
      extract_lets +onlyGivenNames x9
      have h9 : Kept pq x9 := by
        unfold x9
        apply kept_countEv
        exact h2
      clear_value x9
      apply kept_ite
      · extract_lets +onlyGivenNames x10
        have h10 : Kept pq x10 := by
          unfold x10
          apply kept_countEv
          apply kept_bump
          exact h9
        clear_value x10
        apply kept_ite
        · apply kept_setCond
          exact h10
        · exact h10
      · extract_lets +onlyGivenNames x11
        clear_value x11
        extract_lets +onlyGivenNames x12
        have h12 : Kept pq x12 := by
          unfold x12
          apply kept_peak
          apply kept_setMember
          exact h9
        clear_value x12
        extract_lets +onlyGivenNames x13
        have h13 : Kept pq x13 := by
          unfold x13
          apply kept_peak
          exact h12
        clear_value x13
        apply kept_ite
        · extract_lets +onlyGivenNames x14
          clear_value x14
          apply kept_sendPfc
          apply kept_setMember
          exact h13
        · exact h13

theorem kept_memberTake {pq : List Instr} {s : State} (t : Nat) (q : Nat) (hs : Kept pq s) : Kept2 pq (memberTake s t q) := by
  unfold memberTake
  extract_lets +onlyGivenNames x1
  clear_value x1
  split
  · apply kept2_mk
    exact hs
  · extract_lets +onlyGivenNames x2
    clear_value x2
    apply kept2_ite
    · apply kept2_mk
      apply kept_sendPfc
      apply kept_setMember
      exact hs
    · apply kept2_mk
      apply kept_setMember
      exact hs

theorem kept_execPfcRefreshTimer {pq : List Instr} (t : Nat) (q : Nat) {s : State} (hs : Kept pq s) : KeptOut pq
    (execPfcRefreshTimer t q s) := by
  unfold execPfcRefreshTimer
  apply keptOut_onUnit
  · exact hs
  · intro t1
    intro h2
    extract_lets +onlyGivenNames x3
    clear_value x3
    apply kept_ite
    · apply kept_sendPfc
      exact h2
    · exact h2

theorem kept_memberEgress {pq : List Instr} {s : State} (hs : Kept pq s) (t : Nat) (q : Nat) (frame : Bytes) : Kept pq
    (memberEgress s t q frame) := by
  unfold memberEgress
  extract_lets +onlyGivenNames x1
  clear_value x1
  apply kept_ite
  · apply kept_ite
    · apply kept_countEv
      apply kept_bump
      exact hs
    · extract_lets +onlyGivenNames x2
      have h2 : Kept pq x2 := by
        unfold x2
        apply kept_setMember
        exact hs
      clear_value x2
      apply kept_peak
      exact h2
  · apply kept_setMember
    exact hs

theorem kept_memberRelease {pq : List Instr} {s : State} (t : Nat) (q : Nat) (hs : Kept pq s) : Kept pq (memberRelease s t q) :=
    by
  unfold memberRelease
  extract_lets +onlyGivenNames x1
  clear_value x1
  apply kept_setMember
  exact hs

theorem kept_pauseTick {pq : List Instr} {s : State} (hs : Kept pq s) : Kept pq (pauseTick s) := by
  unfold pauseTick
  apply kept_foldl
  · exact hs
  · intro t1
    intro t2
    intro h3
    apply kept_foldl
    · exact h3
    · intro t4
      intro t5
      intro h6
      apply kept_ite
      · exact h6
      · apply kept_memberRelease
        exact h6

theorem kept_execPfcFrameReceived {pq : List Instr} (t : Nat) (enables : Nat) (times : List Nat) {s : State} (hs : Kept pq s) :
    KeptOut pq (execPfcFrameReceived t enables times s) := by
  unfold execPfcFrameReceived
  apply keptOut_onUnit
  · exact hs
  · intro t1
    intro h2
    apply kept_ite
    · exact h2
    · extract_lets +onlyGivenNames x3
      have h3 : Kept pq x3 := by
        unfold x3
        apply kept_bump
        exact h2
      clear_value x3
      extract_lets +onlyGivenNames x4
      clear_value x4
      apply kept_foldl
      · exact h3
      · intro t5
        intro t6
        intro h7
        apply kept_ite
        · exact h7
        · extract_lets +onlyGivenNames x8
          clear_value x8
          extract_lets +onlyGivenNames x9
          clear_value x9
          extract_lets +onlyGivenNames x10
          have h10 : Kept pq x10 := by
            unfold x10
            apply kept_setMember
            exact h7
          clear_value x10
          apply kept_ite
          · apply kept_memberRelease
            exact h10
          · exact h10

theorem kept_execHeadroomOverrunClear {pq : List Instr} (t : Nat) {s : State} (hs : Kept pq s) : KeptOut pq
    (execHeadroomOverrunClear t s) := by
  unfold execHeadroomOverrunClear
  apply keptOut_onUnit
  · exact hs
  · intro t1
    intro h2
    apply kept_setCond
    exact h2

theorem kept_laneGroupRestart {pq : List Instr} {s : State} (g : Nat) (hs : Kept pq s) : Kept pq (laneGroupRestart s g) := by
  unfold laneGroupRestart
  apply kept_foldl
  · exact hs
  · intro t1
    intro t2
    intro h3
    apply kept_laneDetect
    exact h3

theorem kept_laneGroupDown {pq : List Instr} {s : State} (g : Nat) (hs : Kept pq s) : Kept pq (laneGroupDown s g) := by
  unfold laneGroupDown
  apply kept_foldl
  · exact hs
  · intro t1
    intro t2
    intro h3
    extract_lets +onlyGivenNames x4
    clear_value x4
    apply kept_clearCond
    apply kept_clearCond
    apply kept_clearCond
    apply kept_laneOff
    exact h3

theorem kept_laneGroupUp {pq : List Instr} {s : State} (g : Nat) (hs : Kept pq s) : Kept pq (laneGroupUp s g) := by
  unfold laneGroupUp
  apply kept_foldl
  · exact hs
  · intro t1
    intro t2
    intro h3
    apply kept_laneDetect
    exact h3

theorem kept_bindingWritten {pq : List Instr} {old : State} {s : State} (hs : Kept pq s) (t : Nat) : Kept pq (bindingWritten
    old s t) := by
  unfold bindingWritten
  extract_lets +onlyGivenNames x1
  have h1 : Kept pq x1 := by
    unfold x1
    apply kept_setN
    apply kept_setN
    exact hs
  clear_value x1
  extract_lets +onlyGivenNames x2
  have h2 : Kept pq x2 := by
    unfold x2
    apply kept_foldl
    · exact h1
    · intro t3 t4 h5
      apply kept_laneDetect
      apply kept_setLane
      exact h5
  clear_value x2
  apply kept_ite
  · extract_lets +onlyGivenNames x6
    have h6 : Kept pq x6 := by
      unfold x6
      apply kept_clearObjs
      exact h2
    clear_value x6
    apply kept_setCond
    apply kept_setCond
    apply kept_setCond
    apply kept_setMember
    exact h6
  · apply kept_clientJudge
    exact h2

theorem kept_clearLaneCounters {pq : List Instr} {s : State} (hs : Kept pq s) : Kept2 pq (clearLaneCounters s) := by
  unfold clearLaneCounters
  apply kept2_mk
  apply kept_clearObjs
  exact hs

theorem kept_execClearLaneCounters {pq : List Instr} (k : Nat) {s : State} (hs : Kept pq s) : KeptOut pq (execClearLaneCounters
    k s) := by
  unfold execClearLaneCounters
  apply keptOut_next
  apply kept_hostCmd
  · exact hs
  · intro t1
    intro h2
    apply kept_clearLaneCounters
    exact h2

theorem kept_pcsCounted {pq : List Instr} {s : State} (hs : Kept pq s) (t : Nat) (c : PcsCount) : Kept pq (pcsCounted s t c)
    := by
  unfold pcsCounted
  extract_lets +onlyGivenNames x1
  clear_value x1
  extract_lets +onlyGivenNames x2
  clear_value x2
  apply kept_ite
  · apply kept_setF
    exact hs
  · extract_lets +onlyGivenNames x3
    have h3 : Kept pq x3 := by
      unfold x3
      apply kept_ite
      · apply kept_bumpBy
        exact hs
      · exact hs
    clear_value x3
    apply kept_ite
    · apply kept_setF
      exact h3
    · apply kept_setF
      apply kept_bumpBy
      apply kept_bumpBy
      exact h3

theorem kept_clientsCounted {pq : List Instr} {s : State} (hs : Kept pq s) (clients : List (Nat × PcsCount)) : Kept pq
    (clientsCounted s clients) := by
  unfold clientsCounted
  apply kept_foldl
  · exact hs
  · intro t1 t2 h3
    apply kept_pcsCounted
    exact h3

theorem kept_lanesLatch {pq : List Instr} {s : State} (hs : Kept pq s) : Kept pq (lanesLatch s) := by
  unfold lanesLatch
  apply kept_foldl
  · exact hs
  · intro t1
    intro t2
    intro h3
    extract_lets +onlyGivenNames x4
    clear_value x4
    apply kept_setLane
    split
    · apply kept_setF
      exact h3
    · apply kept_setF
      exact h3

theorem kept_lanesAfter {pq : List Instr} {old : State} {s : State} (hs : Kept pq s) (key : Nat) : Kept pq (lanesAfter old s
    key) := by
  unfold lanesAfter
  extract_lets +onlyGivenNames x1
  clear_value x1
  extract_lets +onlyGivenNames x2
  clear_value x2
  extract_lets +onlyGivenNames x3
  clear_value x3
  apply kept_ite
  · apply kept_ite
    · apply kept_laneOff
      exact hs
    · apply kept_ite
      · apply kept_laneDetect
        exact hs
      · exact hs
  · apply kept_ite
    · apply kept_ite
      · apply kept_laneDetect
        exact hs
      · exact hs
    · apply kept_ite
      · apply kept_setLane
        apply kept_setB
        exact hs
      · apply kept_ite
        · apply kept_bindingWritten
          exact hs
        · apply kept_ite
          · apply kept_setMember
            exact hs
          · apply kept_ite
            · apply kept_foldl
              · exact hs
              · intro t4 t5 h6
                apply kept_setCond
                apply kept_setB
                exact h6
            · exact hs

end Sys2Proof.Machine
end

