-- ==== Sys2Proof/Laws/KeptMonitor.lean ====
section
/-! SUPPORT. Every operation of Machine/Monitor.lean keeps the queue and the well-formedness of the state. -/

namespace Sys2Proof.Machine

theorem kept_monitorStart {pq : List Instr} {s : State} (m : Nat) (hs : Kept pq s) : Kept pq (monitorStart s m) := by
  unfold monitorStart
  apply kept_setMonitor
  exact hs

theorem kept_monitorStop {pq : List Instr} {s : State} (m : Nat) (hs : Kept pq s) : Kept pq (monitorStop s m) := by
  unfold monitorStop
  apply kept_setB
  apply kept_setN
  apply kept_setMonitor
  exact hs

theorem kept_monitorSuspend {pq : List Instr} {s : State} (m : Nat) (hs : Kept pq s) : Kept pq (monitorSuspend s m) := by
  unfold monitorSuspend
  apply kept_ite
  · exact hs
  · apply kept_setB
    apply kept_setMonitor
    exact hs

theorem kept_monitorResume {pq : List Instr} {s : State} (hs : Kept pq s) (m : Nat) : Kept pq (monitorResume s m) := by
  unfold monitorResume
  apply kept_ite
  · exact hs
  · apply kept_setB
    apply kept_setMonitor
    exact hs

theorem kept_monitorRef {pq : List Instr} {s : State} (m : Nat) (code : Nat) (gain : Nat) (hs : Kept pq s) : Kept pq (monitorRef
    s m code gain) := by
  unfold monitorRef
  extract_lets +onlyGivenNames x1
  clear_value x1
  extract_lets +onlyGivenNames x2
  clear_value x2
  extract_lets +onlyGivenNames x3
  clear_value x3
  extract_lets +onlyGivenNames x4
  have h4 : Kept pq x4 := by
    unfold x4
    apply kept_setMonitor
    exact hs
  clear_value x4
  apply kept_ite
  · apply kept_setCond
    apply kept_setB
    exact h4
  · apply kept_ite
    · apply kept_setCond
      apply kept_setB
      exact h4
    · exact h4

theorem kept_execMonitorConversionDone {pq : List Instr} (m : Nat) (code : Nat) {s : State} (hs : Kept pq s) : KeptOut pq
    (execMonitorConversionDone m code s) := by
  unfold execMonitorConversionDone
  apply keptOut_onUnit
  · exact hs
  · intro t1
    intro h2
    extract_lets +onlyGivenNames x3
    clear_value x3
    apply kept_ite
    · exact h2
    · split
      · exact h2
      · extract_lets +onlyGivenNames x4
        clear_value x4
        extract_lets +onlyGivenNames x5
        clear_value x5
        extract_lets +onlyGivenNames x6
        clear_value x6
        extract_lets +onlyGivenNames x7
        have h7 : Kept pq x7 := by
          unfold x7
          apply kept_setO
          apply kept_setF
          apply kept_setN
          exact h2
        clear_value x7
        extract_lets +onlyGivenNames x8
        clear_value x8
        extract_lets +onlyGivenNames x9
        have h9 : Kept pq x9 := by
          unfold x9
          apply kept_setF
          apply kept_setF
          exact h7
        clear_value x9
        extract_lets +onlyGivenNames x10
        have h10 : Kept pq x10 := by
          unfold x10
          apply kept_setMonitor
          exact h9
        clear_value x10
        extract_lets +onlyGivenNames x11
        have h11 : Kept pq x11 := by
          unfold x11
          apply kept_ite
          · apply kept_monitorRef
            exact h10
          · exact h10
        clear_value x11
        apply kept_ite
        · apply kept_setMonitor
          exact h11
        · apply kept_monitorStart
          apply kept_bump
          exact h11

theorem kept_urgentStart {pq : List Instr} (m : Nat) {s : State} (hs : Kept pq s) : Kept2 pq (urgentStart m s) := by
  unfold urgentStart
  apply kept2_ite
  · apply kept2_mk
    exact hs
  · apply kept2_ite
    · apply kept2_mk
      exact hs
    · apply kept2_mk
      apply kept_setN
      apply kept_setMonitor
      exact hs

theorem kept_execUrgentConversion {pq : List Instr} (k : Nat) (m : Nat) {s : State} (hs : Kept pq s) : KeptOut pq
    (execUrgentConversion k m s) := by
  unfold execUrgentConversion
  apply keptOut_next
  apply kept_hostCmd
  · exact hs
  · intro t1
    intro h2
    apply kept_urgentStart
    exact h2

theorem kept_execUrgentConversionDone {pq : List Instr} (m : Nat) (code : Nat) {s : State} (hs : Kept pq s) : KeptOut pq
    (execUrgentConversionDone m code s) := by
  unfold execUrgentConversionDone
  apply keptOut_onUnit
  · exact hs
  · intro t1
    intro h2
    split
    · exact h2
    · extract_lets +onlyGivenNames x3
      clear_value x3
      extract_lets +onlyGivenNames x4
      have h4 : Kept pq x4 := by
        unfold x4
        apply kept_setO
        apply kept_setF
        apply kept_setN
        exact h2
      clear_value x4
      apply kept_setN
      apply kept_bump
      apply kept_setMonitor
      exact h4

theorem kept_clearMonitorPeaks {pq : List Instr} {s : State} (hs : Kept pq s) : Kept2 pq (clearMonitorPeaks s) := by
  unfold clearMonitorPeaks
  extract_lets +onlyGivenNames x1
  have h1 : Kept pq x1 := by
    unfold x1
    apply kept_clearObjs
    exact hs
  clear_value x1
  apply kept2_mk
  apply kept_foldl
  · exact h1
  · intro t2
    intro t3
    intro h4
    apply kept_setMonitor
    exact h4

theorem kept_execClearMonitorPeaks {pq : List Instr} (k : Nat) {s : State} (hs : Kept pq s) : KeptOut pq (execClearMonitorPeaks
    k s) := by
  unfold execClearMonitorPeaks
  apply keptOut_next
  apply kept_hostCmd
  · exact hs
  · intro t1
    intro h2
    apply kept_clearMonitorPeaks
    exact h2

theorem kept_counterRestart {pq : List Instr} {s : State} (c : Nat) (hs : Kept pq s) : Kept pq (counterRestart s c) := by
  unfold counterRestart
  extract_lets +onlyGivenNames x1
  have h1 : Kept pq x1 := by
    unfold x1
    apply kept_setN
    exact hs
  clear_value x1
  apply kept_mk
  exact h1

theorem kept_countersRestartDatapath {pq : List Instr} {s : State} (hs : Kept pq s) : Kept pq (countersRestartDatapath s) := by
  unfold countersRestartDatapath
  apply kept_foldl
  · exact hs
  · intro t1
    intro t2
    intro h3
    apply kept_ite
    · apply kept_counterRestart
      exact h3
    · exact h3

theorem kept_takeSnapshot {pq : List Instr} {s : State} (hs : Kept pq s) : Kept pq (takeSnapshot s) := by
  unfold takeSnapshot
  apply kept_ite
  · extract_lets +onlyGivenNames x1
    clear_value x1
    extract_lets +onlyGivenNames x2
    have h2 : Kept pq x2 := by
      unfold x2
      apply kept_mk
      exact hs
    clear_value x2
    apply kept_foldl
    · exact h2
    · intro t3
      intro t4
      intro h5
      apply kept_setN
      exact h5
  · exact hs

theorem kept_counterSnapshot {pq : List Instr} {s : State} (hs : Kept pq s) : Kept2 pq (counterSnapshot s) := by
  unfold counterSnapshot
  apply kept2_ite
  · apply kept2_mk
    exact hs
  · extract_lets +onlyGivenNames x1
    clear_value x1
    apply kept2_mk
    apply kept_setN
    apply kept_setO
    apply kept_mk
    exact hs

theorem kept_counterFreeze {pq : List Instr} {s : State} (hs : Kept pq s) : Kept2 pq (counterFreeze s) := by
  unfold counterFreeze
  apply kept2_ite
  · apply kept2_mk
    exact hs
  · apply kept2_ite
    · apply kept2_mk
      exact hs
    · apply kept2_mk
      apply kept_setB
      apply kept_mk
      exact hs

theorem kept_counterUnfreeze {pq : List Instr} {s : State} (hs : Kept pq s) : Kept2 pq (counterUnfreeze s) := by
  unfold counterUnfreeze
  apply kept2_ite
  · apply kept2_mk
    exact hs
  · apply kept2_ite
    · apply kept2_mk
      exact hs
    · apply kept2_mk
      apply kept_setB
      apply kept_mk
      exact hs

theorem kept_counterDeselect {pq : List Instr} {s : State} (hs : Kept pq s) : Kept2 pq (counterDeselect s) := by
  unfold counterDeselect
  apply kept2_ite
  · apply kept2_mk
    exact hs
  · apply kept2_mk
    apply kept_foldl
    · exact hs
    · intro t1
      intro t2
      intro h3
      apply kept_counterRestart
      apply kept_setN
      exact h3

theorem kept_execCounterSnapshot {pq : List Instr} (k : Nat) {s : State} (hs : Kept pq s) : KeptOut pq (execCounterSnapshot k s)
    := by
  unfold execCounterSnapshot
  apply keptOut_next
  apply kept_hostCmd
  · exact hs
  · intro t1
    intro h2
    apply kept_counterSnapshot
    exact h2

theorem kept_execCounterFreeze {pq : List Instr} (k : Nat) {s : State} (hs : Kept pq s) : KeptOut pq (execCounterFreeze k s) := by
  unfold execCounterFreeze
  apply keptOut_next
  apply kept_hostCmd
  · exact hs
  · intro t1
    intro h2
    apply kept_counterFreeze
    exact h2

theorem kept_execCounterUnfreeze {pq : List Instr} (k : Nat) {s : State} (hs : Kept pq s) : KeptOut pq (execCounterUnfreeze k s)
    := by
  unfold execCounterUnfreeze
  apply keptOut_next
  apply kept_hostCmd
  · exact hs
  · intro t1
    intro h2
    apply kept_counterUnfreeze
    exact h2

theorem kept_execCounterDeselectAll {pq : List Instr} (k : Nat) {s : State} (hs : Kept pq s) : KeptOut pq
    (execCounterDeselectAll k s) := by
  unfold execCounterDeselectAll
  apply keptOut_next
  apply kept_hostCmd
  · exact hs
  · intro t1
    intro h2
    apply kept_counterDeselect
    exact h2

theorem kept_execSnapshotCopyDone {pq : List Instr} {s : State} (hs : Kept pq s) : KeptOut pq (execSnapshotCopyDone s) := by
  unfold execSnapshotCopyDone
  apply keptOut_next
  apply kept_ite
  · apply kept_setN
    apply kept_takeSnapshot
    exact hs
  · exact hs

theorem kept_countersLatch {pq : List Instr} {s : State} (hs : Kept pq s) : Kept pq (countersLatch s) := by
  unfold countersLatch
  extract_lets +onlyGivenNames x1
  have h1 : Kept pq x1 := by
    unfold x1
    apply kept_takeSnapshot
    exact hs
  clear_value x1
  extract_lets +onlyGivenNames x2
  clear_value x2
  extract_lets +onlyGivenNames x3
  have h3 : Kept pq x3 := by
    unfold x3
    apply kept_foldl
    · exact h1
    · intro t4
      intro t5
      intro h6
      extract_lets +onlyGivenNames x7
      have h7 : Kept pq x7 := by
        unfold x7
        apply kept_setN
        apply kept_setN
        exact h6
      clear_value x7
      apply kept_setB
      apply kept_setB
      exact h7
  clear_value x3
  extract_lets +onlyGivenNames x8
  have h8 : Kept pq x8 := by
    unfold x8
    apply kept_setN
    exact h3
  clear_value x8
  extract_lets +onlyGivenNames x9
  have h9 : Kept pq x9 := by
    unfold x9
    apply kept_setN
    exact h8
  clear_value x9
  apply kept_mk
  exact h9

theorem kept_windowCount {pq : List Instr} {s : State} (cls : Nat) (inst : Nat) (dir : Nat) (eighths : Nat) (hs : Kept pq s) :
    Kept pq (windowCount s cls inst dir eighths) := by
  unfold windowCount
  apply kept_ite
  · exact hs
  · apply kept_foldl
    · exact hs
    · intro t1
      intro t2
      intro h3
      apply kept_ite
      · apply kept_setWindow
        exact h3
      · exact h3

theorem kept_execBandwidthWindowEnd {pq : List Instr} (w : Nat) {s : State} (hs : Kept pq s) : KeptOut pq
    (execBandwidthWindowEnd w s) := by
  unfold execBandwidthWindowEnd
  apply keptOut_onUnit
  · exact hs
  · intro t1
    intro h2
    extract_lets +onlyGivenNames x3
    clear_value x3
    extract_lets +onlyGivenNames x4
    clear_value x4
    extract_lets +onlyGivenNames x5
    have h5 : Kept pq x5 := by
      unfold x5
      apply kept_setF
      exact h2
    clear_value x5
    extract_lets +onlyGivenNames x6
    apply kept_setWindow
    exact h5

theorem kept_windowsLatch {pq : List Instr} {s : State} (hs : Kept pq s) : Kept pq (windowsLatch s) := by
  unfold windowsLatch
  apply kept_foldl
  · exact hs
  · intro t1 t2 h3
    extract_lets +onlyGivenNames x4
    clear_value x4
    apply kept_ite
    · apply kept_setWindow
      exact h3
    · apply kept_setWindow
      apply kept_setF
      apply kept_setF
      exact h3

theorem kept_windowsRestart {pq : List Instr} {s : State} (hs : Kept pq s) : Kept pq (windowsRestart s) := by
  unfold windowsRestart
  apply kept_foldl
  · exact hs
  · intro t1
    intro t2
    intro h3
    apply kept_setWindow
    exact h3

theorem kept_monitorAfter {pq : List Instr} {s : State} (key : Nat) (hs : Kept pq s) : Kept pq (monitorAfter s key) := by
  unfold monitorAfter
  extract_lets +onlyGivenNames x1
  clear_value x1
  extract_lets +onlyGivenNames x2
  clear_value x2
  extract_lets +onlyGivenNames x3
  clear_value x3
  apply kept_ite
  · apply kept_ite
    · apply kept_monitorStart
      exact hs
    · exact hs
  · apply kept_ite
    · apply kept_counterRestart
      exact hs
    · apply kept_ite
      · apply kept_setWindow
        exact hs
      · exact hs

end Sys2Proof.Machine
end

