-- ==== Sys2Proof/Laws/KeptStockpot.lean ====
section
/-! SUPPORT. Every operation of Machine/Stockpot.lean keeps the queue and the well-formedness of the state. -/

namespace Sys2Proof.Machine

theorem kept_setRuns {pq : List Instr} {s : State} (key : Nat) (r : List (Nat × Nat)) (hs : Kept pq s) : Kept pq (State.setRuns
    s key r) := by
  unfold State.setRuns
  apply kept_mk
  exact hs

theorem kept_releaseRuns {pq : List Instr} {s : State} (key : Nat) (hs : Kept pq s) : Kept pq (releaseRuns s key) := by
  unfold releaseRuns
  extract_lets +onlyGivenNames x1
  clear_value x1
  extract_lets +onlyGivenNames x2
  have h2 : Kept pq x2 := by
    unfold x2
    apply kept_mk_tables
    · exact hs
    · exact hs.tidy.can
    · exact hs.tidy.scopes
    · apply Tbl.wf_filter
      exact hs.tidy.pages
    · exact hs.tidy.keys
  clear_value x2
  apply kept_setRuns
  exact h2

theorem kept_allocRuns {pq : List Instr} {s : State} (key : Nat) (x : Nat) (n : Nat) (hs : Kept pq s) : KeptOpt pq (allocRuns s
    key x n) := by
  unfold allocRuns
  apply keptOpt_ite
  · exact keptOpt_none
  · apply keptOpt_some
    apply kept_setRuns
    exact hs

theorem kept_reallocRuns {pq : List Instr} {s : State} (key : Nat) (x : Nat) (n : Nat) (hs : Kept pq s) : KeptOpt pq
    (reallocRuns s key x n) := by
  unfold reallocRuns
  apply kept_allocRuns
  apply kept_releaseRuns
  exact hs

theorem kept_stockpotLog {pq : List Instr} {s : State} (a : Nat) (kind : Nat) (errors : Nat) (hs : Kept pq s) : Kept pq
    (stockpotLog s a kind errors) := by
  unfold stockpotLog
  extract_lets +onlyGivenNames x1
  clear_value x1
  extract_lets +onlyGivenNames x2
  clear_value x2
  extract_lets +onlyGivenNames x3
  clear_value x3
  extract_lets +onlyGivenNames x4
  clear_value x4
  extract_lets +onlyGivenNames x5
  have h5 : Kept pq x5 := by
    unfold x5
    apply kept_mk
    exact hs
  clear_value x5
  apply kept_ite
  · apply kept_bump
    exact h5
  · exact h5

theorem kept_countPoisonedRead {pq : List Instr} {s : State} (a : Nat) (hs : Kept pq s) : Kept pq (countPoisonedRead s a) := by
  unfold countPoisonedRead
  extract_lets +onlyGivenNames x1
  have h1 : Kept pq x1 := by
    unfold x1
    apply kept_bump
    exact hs
  clear_value x1
  extract_lets +onlyGivenNames x2
  clear_value x2
  apply kept_ite
  · apply kept_bump
    exact h1
  · exact h1

theorem kept_poisonPage {pq : List Instr} {s : State} (a : Nat) (injected : Bool) (hs : Kept pq s) : Kept pq (poisonPage s a
    injected) := by
  unfold poisonPage
  extract_lets +onlyGivenNames x1
  have h1 : Kept pq x1 := by
    unfold x1
    apply kept_setPage
    exact hs
  clear_value x1
  apply kept_occur
  apply kept_stockpotLog
  exact h1

theorem kept_readPage {pq : List Instr} {s : State} (a : Nat) (errors : Nat) (scrub : Bool) (hs : Kept pq s) : Kept3 pq
    (readPage s a errors scrub) := by
  unfold readPage
  extract_lets +onlyGivenNames x1
  clear_value x1
  extract_lets +onlyGivenNames x2
  clear_value x2
  extract_lets +onlyGivenNames x3
  clear_value x3
  extract_lets +onlyGivenNames x4
  clear_value x4
  extract_lets +onlyGivenNames x5
  clear_value x5
  extract_lets +onlyGivenNames x6
  have h6 : Kept pq x6 := by
    unfold x6
    apply kept_countEv
    exact hs
  clear_value x6
  apply kept3_ite
  · apply kept3_mk
    apply kept_countPoisonedRead
    exact h6
  · apply kept3_ite
    · extract_lets +onlyGivenNames x7
      have h7 : Kept pq x7 := by
        unfold x7
        apply kept_bump
        exact h6
      clear_value x7
      extract_lets +onlyGivenNames x8
      have h8 : Kept pq x8 := by
        unfold x8
        apply kept_ite
        · apply kept_bump
          exact h7
        · exact h7
      clear_value x8
      extract_lets +onlyGivenNames x9
      have h9 : Kept pq x9 := by
        unfold x9
        apply kept_ite
        · apply kept_occur
          apply kept_stockpotLog
          exact h8
        · exact h8
      clear_value x9
      apply kept3_mk
      exact h9
    · apply kept3_ite
      · apply kept3_mk
        apply kept_ite
        · apply kept_setPage
          exact h6
        · exact h6
      · extract_lets +onlyGivenNames x10
        clear_value x10
        apply kept3_ite
        · extract_lets +onlyGivenNames x11
          have h11 : Kept pq x11 := by
            unfold x11
            apply kept_poisonPage
            exact h6
          clear_value x11
          apply kept3_mk
          apply kept_countPoisonedRead
          exact h11
        · extract_lets +onlyGivenNames x12
          clear_value x12
          extract_lets +onlyGivenNames x13
          have h13 : Kept pq x13 := by
            unfold x13
            apply kept_bumpBy
            apply kept_bump
            exact h6
          clear_value x13
          extract_lets +onlyGivenNames x14
          have h14 : Kept pq x14 := by
            unfold x14
            apply kept_countEv
            exact h13
          clear_value x14
          extract_lets +onlyGivenNames x15
          have h15 : Kept pq x15 := by
            unfold x15
            apply kept_setPage
            exact h14
          clear_value x15
          extract_lets +onlyGivenNames x16
          have h16 : Kept pq x16 := by
            unfold x16
            apply kept_ite
            · apply kept_occur
              apply kept_bump
              apply kept_stockpotLog
              exact h15
            · exact h15
          clear_value x16
          extract_lets +onlyGivenNames x17
          have h17 : Kept pq x17 := by
            unfold x17
            apply kept_ite
            · apply kept_occur
              apply kept_stockpotLog
              apply kept_setPage
              exact h16
            · exact h16
          clear_value x17
          apply kept3_mk
          exact h17

theorem kept_writePage {pq : List Instr} {s : State} (a : Nat) (data : Bytes) (hs : Kept pq s) : Kept pq (writePage s a data) :=
    by
  unfold writePage
  extract_lets +onlyGivenNames x1
  clear_value x1
  extract_lets +onlyGivenNames x2
  clear_value x2
  extract_lets +onlyGivenNames x3
  have h3 : Kept pq x3 := by
    unfold x3
    apply kept_countEv
    exact hs
  clear_value x3
  apply kept_ite
  · exact h3
  · apply kept_setPage
    exact h3

theorem kept_execStockpotPageRead {pq : List Instr} (a : Nat) (errors : Nat) {s : State} (hs : Kept pq s) : KeptOut pq
    (execStockpotPageRead a errors s) := by
  unfold execStockpotPageRead
  apply keptOut_onUnit
  · exact hs
  · intro t1
    intro h2
    apply kept_ite
    · apply Kept3.out
      apply kept_readPage
      exact h2
    · exact h2

theorem kept_execStockpotPageWrite {pq : List Instr} (a : Nat) (data : Bytes) {s : State} (hs : Kept pq s) : KeptOut pq
    (execStockpotPageWrite a data s) := by
  unfold execStockpotPageWrite
  apply keptOut_onUnit
  · exact hs
  · intro t1
    intro h2
    apply kept_ite
    · apply kept_writePage
      exact h2
    · exact h2

theorem kept_sweepEnd {pq : List Instr} {s : State} (x : Nat) (hs : Kept pq s) : Kept pq (sweepEnd s x) := by
  unfold sweepEnd
  extract_lets +onlyGivenNames x1
  clear_value x1
  extract_lets +onlyGivenNames x2
  have h2 : Kept pq x2 := by
    unfold x2
    apply kept_setF
    apply kept_setN
    exact hs
  clear_value x2
  extract_lets +onlyGivenNames x3
  clear_value x3
  extract_lets +onlyGivenNames x4
  clear_value x4
  extract_lets +onlyGivenNames x5
  have h5 : Kept pq x5 := by
    unfold x5
    apply kept_mk
    exact h2
  clear_value x5
  apply kept_ite
  · apply kept_bump
    exact h5
  · exact h5

theorem kept_execScrubRead {pq : List Instr} (x : Nat) (errors : Nat) {s : State} (hs : Kept pq s) : KeptOut pq (execScrubRead x
    errors s) := by
  unfold execScrubRead
  apply keptOut_onUnit
  · exact hs
  · intro t1
    intro h2
    apply kept_ite
    · exact h2
    · split
      · apply kept_sweepEnd
        exact h2
      · extract_lets +onlyGivenNames x3
        have h3 : Kept pq x3 := by
          unfold x3
          apply Kept3.out
          apply kept_readPage
          exact h2
        clear_value x3
        extract_lets +onlyGivenNames x4
        have h4 : Kept pq x4 := by
          unfold x4
          apply kept_setN
          exact h3
        clear_value x4
        apply kept_ite
        · apply kept_sweepEnd
          exact h4
        · exact h4

theorem kept_retirePage {pq : List Instr} {s : State} (hs : Kept pq s) : Kept2 pq (retirePage s) := by
  unfold retirePage
  extract_lets +onlyGivenNames x1
  clear_value x1
  extract_lets +onlyGivenNames x2
  clear_value x2
  apply kept2_ite
  · apply kept2_mk
    exact hs
  · apply kept2_ite
    · apply kept2_mk
      exact hs
    · apply kept2_ite
      · apply kept2_mk
        exact hs
      · extract_lets +onlyGivenNames x3
        clear_value x3
        extract_lets +onlyGivenNames x4
        clear_value x4
        extract_lets +onlyGivenNames x5
        clear_value x5
        extract_lets +onlyGivenNames x6
        have h6 : Kept pq x6 := by
          unfold x6
          apply kept_setPage
          apply kept_setPage
          exact hs
        clear_value x6
        extract_lets +onlyGivenNames x7
        clear_value x7
        extract_lets +onlyGivenNames x8
        clear_value x8
        extract_lets +onlyGivenNames x9
        have h9 : Kept pq x9 := by
          unfold x9
          apply kept_mk
          exact h6
        clear_value x9
        apply kept2_mk
        apply kept_stockpotLog
        exact h9

theorem kept_clearRuns {pq : List Instr} {s : State} (runs : List (Nat × Nat)) (hs : Kept pq s) : Kept pq (clearRuns s runs) := by
  unfold clearRuns
  apply kept_mk_tables
  · exact hs
  · exact hs.tidy.can
  · exact hs.tidy.scopes
  · apply Tbl.wf_filter
    exact hs.tidy.pages
  · exact hs.tidy.keys

theorem kept_initialiseRegion {pq : List Instr} {s : State} (hs : Kept pq s) : Kept2 pq (initialiseRegion s) := by
  unfold initialiseRegion
  extract_lets +onlyGivenNames x1
  clear_value x1
  apply kept2_ite
  · apply kept2_ite
    · apply kept2_mk
      exact hs
    · apply kept2_mk
      apply kept_clearRuns
      exact hs
  · apply kept2_ite
    · apply kept2_ite
      · apply kept2_mk
        exact hs
      · extract_lets +onlyGivenNames x2
        clear_value x2
        apply kept2_mk
        apply kept_mk_tables
        · exact hs
        · exact hs.tidy.can
        · exact hs.tidy.scopes
        · apply Tbl.wf_filter
          exact hs.tidy.pages
        · exact hs.tidy.keys
    · apply kept2_ite
      · apply kept2_mk
        exact hs
      · apply kept2_mk
        apply kept_clearRuns
        exact hs

theorem kept_stockpotClearCounters {pq : List Instr} {s : State} (hs : Kept pq s) : Kept2 pq (stockpotClearCounters s) := by
  unfold stockpotClearCounters
  apply kept2_mk
  apply kept_clearObjs
  exact hs

theorem kept_clearLog {pq : List Instr} {s : State} (hs : Kept pq s) : Kept2 pq (clearLog s) := by
  unfold clearLog
  apply kept2_mk
  extract_lets +onlyGivenNames x1
  have h1 : Kept pq x1 := by
    unfold x1
    apply kept_setN
    exact hs
  clear_value x1
  apply kept_mk
  exact h1

theorem kept_eraseRetirementList {pq : List Instr} {s : State} (hs : Kept pq s) : Kept2 pq (eraseRetirementList s) := by
  unfold eraseRetirementList
  apply kept2_mk
  apply kept_mk
  exact hs

theorem kept_execRetirePage {pq : List Instr} (k : Nat) {s : State} (hs : Kept pq s) : KeptOut pq (execRetirePage k s) := by
  unfold execRetirePage
  apply keptOut_next
  apply kept_hostCmd
  · exact hs
  · intro t1
    intro h2
    apply kept_retirePage
    exact h2

theorem kept_execInitialiseRegion {pq : List Instr} (k : Nat) {s : State} (hs : Kept pq s) : KeptOut pq (execInitialiseRegion k
    s) := by
  unfold execInitialiseRegion
  apply keptOut_next
  apply kept_hostCmd
  · exact hs
  · intro t1
    intro h2
    apply kept_initialiseRegion
    exact h2

theorem kept_execStockpotClearCounters {pq : List Instr} (k : Nat) {s : State} (hs : Kept pq s) : KeptOut pq
    (execStockpotClearCounters k s) := by
  unfold execStockpotClearCounters
  apply keptOut_next
  apply kept_hostCmd
  · exact hs
  · intro t1
    intro h2
    apply kept_stockpotClearCounters
    exact h2

theorem kept_execClearLog {pq : List Instr} (k : Nat) {s : State} (hs : Kept pq s) : KeptOut pq (execClearLog k s) := by
  unfold execClearLog
  apply keptOut_next
  apply kept_hostCmd
  · exact hs
  · intro t1
    intro h2
    apply kept_clearLog
    exact h2

theorem kept_execEraseRetirementList {pq : List Instr} (k : Nat) {s : State} (hs : Kept pq s) : KeptOut pq
    (execEraseRetirementList k s) := by
  unfold execEraseRetirementList
  apply keptOut_next
  apply kept_hostCmd
  · exact hs
  · intro t1
    intro h2
    apply kept_eraseRetirementList
    exact h2

theorem kept_pagesLost {pq : List Instr} {s : State} (hs : Kept pq s) : Kept pq (pagesLost s) :=
  ⟨hs.queue, { hs.tidy with pages := Tbl.wf_nil }⟩

theorem kept_placeRuns {pq : List Instr} {s : State} (hs : Kept pq s) (key : Nat) (x : Nat) (n : Nat) : Kept pq (placeRuns s
    key x n) := by
  unfold placeRuns
  apply kept_getD
  · apply kept_allocRuns
    exact hs
  · exact hs

theorem kept_stockpotInitialise {pq : List Instr} {s : State} (hs : Kept pq s) : Kept pq (stockpotInitialise s) := by
  unfold stockpotInitialise
  extract_lets +onlyGivenNames x1
  clear_value x1
  extract_lets +onlyGivenNames x2
  clear_value x2
  extract_lets +onlyGivenNames x3
  clear_value x3
  extract_lets +onlyGivenNames x4
  have h4 : Kept pq x4 := by
    unfold x4
    apply kept_pagesLost
    exact hs
  clear_value x4
  extract_lets +onlyGivenNames x5
  clear_value x5
  extract_lets +onlyGivenNames x6
  have h6 : Kept pq x6 := by
    unfold x6
    apply kept_mk
    exact h4
  clear_value x6
  extract_lets +onlyGivenNames x7
  clear_value x7
  extract_lets +onlyGivenNames x8
  have h8 : Kept pq x8 := by
    unfold x8
    apply kept_mk
    exact h6
  clear_value x8
  extract_lets +onlyGivenNames x9
  have h9 : Kept pq x9 := by
    unfold x9
    apply kept_setN
    exact h8
  clear_value x9
  extract_lets +onlyGivenNames x10
  have h10 : Kept pq x10 := by
    unfold x10
    apply kept_foldl
    · exact h9
    · intro t11 t12 h13
      apply kept_placeRuns
      exact h13
  clear_value x10
  extract_lets +onlyGivenNames x14
  have h14 : Kept pq x14 := by
    unfold x14
    apply kept_foldl
    · exact h10
    · intro t15 t16 h17
      apply kept_placeRuns
      exact h17
  clear_value x14
  apply kept_foldl
  · exact h14
  · intro t18 t19 h20
    extract_lets +onlyGivenNames x21
    clear_value x21
    apply kept_placeRuns
    exact h20

theorem kept_stockpotAfter {pq : List Instr} {s : State} (key : Nat) (hs : Kept pq s) : Kept pq (stockpotAfter s key) := by
  unfold stockpotAfter
  extract_lets +onlyGivenNames x1
  clear_value x1
  extract_lets +onlyGivenNames x2
  clear_value x2
  extract_lets +onlyGivenNames x3
  clear_value x3
  apply kept_ite
  · apply kept_getD
    · apply kept_reallocRuns
      exact hs
    · exact hs
  · apply kept_ite
    · extract_lets +onlyGivenNames x4
      clear_value x4
      extract_lets +onlyGivenNames x5
      have h5 : Kept pq x5 := by
        unfold x5
        apply kept_foldl
        · exact hs
        · intro t6
          intro t7
          intro h8
          apply kept_releaseRuns
          exact h8
      clear_value x5
      apply kept_getD
      · apply kept_allocRuns
        exact h5
      · exact h5
    · exact hs

end Sys2Proof.Machine
end

