-- ==== Sys2Proof/Laws/KeptTrays.lean ====
section
/-! SUPPORT. Every operation of Machine/Trays.lean keeps the queue and the well-formedness of the state. -/

namespace Sys2Proof.Machine

theorem kept_setTrayPath {pq : List Instr} {s : State} (t : Nat) (prot : Bool) (p : TrayPath) (hs : Kept pq s) : Kept pq
    (State.setTrayPath s t prot p) := by
  unfold State.setTrayPath
  apply kept_setTray
  exact hs

theorem kept_pathJudge {pq : List Instr} {s : State} (t : Nat) (prot : Bool) (hs : Kept pq s) : Kept pq (pathJudge s t prot) := by
  unfold pathJudge
  extract_lets +onlyGivenNames x1
  clear_value x1
  extract_lets +onlyGivenNames x2
  have h2 : Kept pq x2 := by
    unfold x2
    apply kept_setTrayPath
    exact hs
  clear_value x2
  extract_lets +onlyGivenNames x3
  clear_value x3
  extract_lets +onlyGivenNames x4
  clear_value x4
  extract_lets +onlyGivenNames x5
  clear_value x5
  extract_lets +onlyGivenNames x6
  apply kept_setTrayPath
  exact h2

theorem kept_trayFillOut {pq : List Instr} {s : State} (hs : Kept pq s) (t : Nat) : Kept pq (trayFillOut s t) := by
  unfold trayFillOut
  extract_lets +onlyGivenNames x1
  clear_value x1
  apply kept_setTray
  exact hs

theorem kept_trayRefresh {pq : List Instr} {s : State} (hs : Kept pq s) (t : Nat) : Kept pq (trayRefresh s t) := by
  unfold trayRefresh
  extract_lets +onlyGivenNames x1
  have h1 : Kept pq x1 := by
    unfold x1
    apply kept_pathJudge
    apply kept_pathJudge
    exact hs
  clear_value x1
  extract_lets +onlyGivenNames x2
  clear_value x2
  extract_lets +onlyGivenNames x3
  have h3 : Kept pq x3 := by
    unfold x3
    apply kept_setN
    apply kept_setN
    exact h1
  clear_value x3
  extract_lets +onlyGivenNames x4
  clear_value x4
  extract_lets +onlyGivenNames x5
  have h5 : Kept pq x5 := by
    unfold x5
    apply kept_ite
    · exact h3
    · apply kept_setTray
      exact h3
  clear_value x5
  extract_lets +onlyGivenNames x6
  have h6 : Kept pq x6 := by
    unfold x6
    apply kept_setN
    exact h5
  clear_value x6
  extract_lets +onlyGivenNames x7
  have h7 : Kept pq x7 := by
    unfold x7
    apply kept_ite
    · exact h6
    · apply kept_setB
      exact h6
  clear_value x7
  extract_lets +onlyGivenNames x8
  clear_value x8
  extract_lets +onlyGivenNames x9
  have h9 : Kept pq x9 := by
    unfold x9
    apply kept_ite
    · exact h7
    · apply kept_setTray
      apply kept_setCond
      apply kept_setI
      exact h7
  clear_value x9
  extract_lets +onlyGivenNames x10
  clear_value x10
  extract_lets +onlyGivenNames x11
  have h11 : Kept pq x11 := by
    unfold x11
    apply kept_setCond
    exact h9
  clear_value x11
  extract_lets +onlyGivenNames x12
  have h12 : Kept pq x12 := by
    unfold x12
    apply kept_ite
    · apply kept_setCond
      exact h11
    · exact h11
  clear_value x12
  extract_lets +onlyGivenNames x13
  clear_value x13
  extract_lets +onlyGivenNames x14
  have h14 : Kept pq x14 := by
    unfold x14
    split
    · apply kept_setTray
      exact h12
    · apply kept_setTray
      exact h12
    · exact h12
  clear_value x14
  extract_lets +onlyGivenNames x15
  have h15 : Kept pq x15 := by
    unfold x15
    apply kept_ite
    · apply kept_trayFillOut
      exact h14
    · exact h14
  clear_value x15
  apply kept_setN
  exact h15

theorem kept_traysRefresh {pq : List Instr} {s : State} (n : Nat) (hs : Kept pq s) : Kept pq (traysRefresh s n) := by
  unfold traysRefresh
  apply kept_foldl
  · exact hs
  · intro t1
    intro t2
    intro h3
    apply kept_ite
    · apply kept_trayRefresh
      exact h3
    · extract_lets +onlyGivenNames x4
      clear_value x4
      extract_lets +onlyGivenNames x5
      have h5 : Kept pq x5 := by
        unfold x5
        apply kept_ite
        · exact h3
        · apply kept_setTrayPath
          exact h3
      clear_value x5
      apply kept_trayRefresh
      exact h5

theorem kept_pathBlock {pq : List Instr} {s : State} (t : Nat) (prot : Bool) (ok : Bool) (marked : Bool) (hs : Kept pq s) : Kept
    pq (pathBlock s t prot ok marked) := by
  unfold pathBlock
  extract_lets +onlyGivenNames x1
  clear_value x1
  extract_lets +onlyGivenNames x2
  clear_value x2
  extract_lets +onlyGivenNames x3
  clear_value x3
  extract_lets +onlyGivenNames x4
  clear_value x4
  extract_lets +onlyGivenNames x5
  have h5 : Kept pq x5 := by
    unfold x5
    apply kept_setTrayPath
    exact hs
  clear_value x5
  apply kept_trayRefresh
  apply kept_ite
  · exact h5
  · apply kept_bump
    exact h5

theorem kept_execHoldOffExpired {pq : List Instr} (t : Nat) (prot : Bool) (degrade : Bool) {s : State} (hs : Kept pq s) :
    KeptOut pq (execHoldOffExpired t prot degrade s) := by
  unfold execHoldOffExpired
  apply keptOut_onUnit
  · exact hs
  · intro t1
    intro h2
    extract_lets +onlyGivenNames x3
    clear_value x3
    extract_lets +onlyGivenNames x4
    have h4 : Kept pq x4 := by
      unfold x4
      apply kept_ite
      · apply kept_setTrayPath
        exact h2
      · apply kept_setTrayPath
        exact h2
    clear_value x4
    apply kept_trayRefresh
    exact h4

theorem kept_execWaitToRestoreExpired {pq : List Instr} (t : Nat) {s : State} (hs : Kept pq s) : KeptOut pq
    (execWaitToRestoreExpired t s) := by
  unfold execWaitToRestoreExpired
  apply keptOut_onUnit
  · exact hs
  · intro t1
    intro h2
    apply kept_ite
    · apply kept_trayRefresh
      apply kept_setTray
      exact h2
    · exact h2

theorem kept_realign {pq : List Instr} {s : State} (t : Nat) (hs : Kept pq s) : Kept pq (realign s t) := by
  unfold realign
  extract_lets +onlyGivenNames x1
  clear_value x1
  apply kept_trayRefresh
  apply kept_setTray
  apply kept_bump
  exact hs

theorem kept_delayMeasured {pq : List Instr} {s : State} (t : Nat) (d : Int) (hs : Kept pq s) : Kept pq (delayMeasured s t d) :=
    by
  unfold delayMeasured
  apply kept_ite
  · exact hs
  · extract_lets +onlyGivenNames x1
    have h1 : Kept pq x1 := by
      unfold x1
      apply kept_setI
      exact hs
    clear_value x1
    extract_lets +onlyGivenNames x2
    clear_value x2
    extract_lets +onlyGivenNames x3
    have h3 : Kept pq x3 := by
      unfold x3
      apply kept_setCond
      exact h1
    clear_value x3
    extract_lets +onlyGivenNames x4
    have h4 : Kept pq x4 := by
      unfold x4
      apply kept_ite
      · apply kept_setB
        exact h3
      · exact h3
    clear_value x4
    extract_lets +onlyGivenNames x5
    clear_value x5
    split
    · exact h4
    · apply kept_ite
      · exact h4
      · extract_lets +onlyGivenNames x6
        clear_value x6
        apply kept_ite
        · exact h4
        · apply kept_ite
          · apply kept_realign
            apply kept_setB
            exact h4
          · apply kept_setTray
            apply kept_setB
            exact h4

theorem kept_execDelayEqualised {pq : List Instr} (t : Nat) {s : State} (hs : Kept pq s) : KeptOut pq (execDelayEqualised t s)
    := by
  unfold execDelayEqualised
  apply keptOut_onUnit
  · exact hs
  · intro t1
    intro h2
    extract_lets +onlyGivenNames x3
    clear_value x3
    extract_lets +onlyGivenNames x4
    clear_value x4
    apply kept_ite
    · exact h2
    · apply kept_trayRefresh
      apply kept_setTray
      apply kept_setB
      exact h2

theorem kept_delayRegionSet {pq : List Instr} {s : State} (t : Nat) (hs : Kept pq s) : Kept pq (delayRegionSet s t) := by
  unfold delayRegionSet
  extract_lets +onlyGivenNames x1
  clear_value x1
  extract_lets +onlyGivenNames x2
  clear_value x2
  extract_lets +onlyGivenNames x3
  clear_value x3
  extract_lets +onlyGivenNames x4
  have h4 : Kept pq x4 := by
    unfold x4
    apply kept_ite
    · exact hs
    · apply kept_ite
      · apply kept_releaseRuns
        exact hs
      · apply kept_getD
        · apply kept_reallocRuns
          exact hs
        · exact hs
  clear_value x4
  apply kept_setN
  exact h4

theorem kept_selectPath {pq : List Instr} {s : State} (hs : Kept pq s) (t : Nat) (prot : Bool) : Kept pq (selectPath s t prot)
    := by
  unfold selectPath
  extract_lets +onlyGivenNames x1
  clear_value x1
  extract_lets +onlyGivenNames x2
  clear_value x2
  extract_lets +onlyGivenNames x3
  have h3 : Kept pq x3 := by
    unfold x3
    apply kept_bump
    apply kept_setN
    exact hs
  clear_value x3
  extract_lets +onlyGivenNames x4
  clear_value x4
  extract_lets +onlyGivenNames x5
  have h5 : Kept pq x5 := by
    unfold x5
    apply kept_ite
    · apply kept_setTray
      apply kept_bump
      exact h3
    · exact h3
  clear_value x5
  extract_lets +onlyGivenNames x6
  have h6 : Kept pq x6 := by
    unfold x6
    apply kept_ite
    · exact h5
    · apply kept_trayFillOut
      apply kept_setCond
      exact h5
  clear_value x6
  apply kept_trayRefresh
  apply kept_setTray
  exact h6

theorem kept_execProtectionSwitch {pq : List Instr} (t : Nat) {s : State} (hs : Kept pq s) : KeptOut pq (execProtectionSwitch t
    s) := by
  unfold execProtectionSwitch
  apply keptOut_onUnit
  · exact hs
  · intro t1
    intro h2
    apply kept_ite
    · apply kept_selectPath
      exact h2
    · exact h2

theorem kept_execTrayFailClearTimer {pq : List Instr} (t : Nat) {s : State} (hs : Kept pq s) : KeptOut pq
    (execTrayFailClearTimer t s) := by
  unfold execTrayFailClearTimer
  apply keptOut_onUnit
  · exact hs
  · intro t1
    intro h2
    apply kept_ite
    · exact h2
    · apply kept_setCond
      exact h2

theorem kept_protCommand {pq : List Instr} (t : Nat) (code : Nat) {s : State} (hs : Kept pq s) : Kept2 pq (protCommand t code s)
    := by
  unfold protCommand
  extract_lets +onlyGivenNames x1
  clear_value x1
  extract_lets +onlyGivenNames x2
  have h2 : ∀ y2_1, Kept2 pq (x2 y2_1) := by
    unfold x2
    intro t3
    apply kept2_mk
    apply kept_trayRefresh
    apply kept_setTray
    exact hs
  clear_value x2
  apply kept2_ite
  · apply kept2_ite
    · apply kept2_mk
      exact hs
    · apply h2
  · split
    · apply h2
    · apply kept2_ite
      · apply kept2_mk
        exact hs
      · apply h2
    · apply kept2_ite
      · apply kept2_mk
        exact hs
      · apply h2
    · apply kept2_mk
      apply kept_realign
      exact hs
    · apply h2

theorem kept_execProtClear {pq : List Instr} (k : Nat) (t : Nat) {s : State} (hs : Kept pq s) : KeptOut pq (execProtClear k t s)
    := by
  unfold execProtClear
  apply keptOut_next
  apply kept_hostCmd
  · exact hs
  · intro t1
    intro h2
    apply kept_protCommand
    exact h2

theorem kept_execProtLockout {pq : List Instr} (k : Nat) (t : Nat) {s : State} (hs : Kept pq s) : KeptOut pq (execProtLockout k
    t s) := by
  unfold execProtLockout
  apply keptOut_next
  apply kept_hostCmd
  · exact hs
  · intro t1
    intro h2
    apply kept_protCommand
    exact h2

theorem kept_execProtForceProtection {pq : List Instr} (k : Nat) (t : Nat) {s : State} (hs : Kept pq s) : KeptOut pq
    (execProtForceProtection k t s) := by
  unfold execProtForceProtection
  apply keptOut_next
  apply kept_hostCmd
  · exact hs
  · intro t1
    intro h2
    apply kept_protCommand
    exact h2

theorem kept_execProtForceWorking {pq : List Instr} (k : Nat) (t : Nat) {s : State} (hs : Kept pq s) : KeptOut pq
    (execProtForceWorking k t s) := by
  unfold execProtForceWorking
  apply keptOut_next
  apply kept_hostCmd
  · exact hs
  · intro t1
    intro h2
    apply kept_protCommand
    exact h2

theorem kept_execProtManualProtection {pq : List Instr} (k : Nat) (t : Nat) {s : State} (hs : Kept pq s) : KeptOut pq
    (execProtManualProtection k t s) := by
  unfold execProtManualProtection
  apply keptOut_next
  apply kept_hostCmd
  · exact hs
  · intro t1
    intro h2
    apply kept_protCommand
    exact h2

theorem kept_execProtManualWorking {pq : List Instr} (k : Nat) (t : Nat) {s : State} (hs : Kept pq s) : KeptOut pq
    (execProtManualWorking k t s) := by
  unfold execProtManualWorking
  apply keptOut_next
  apply kept_hostCmd
  · exact hs
  · intro t1
    intro h2
    apply kept_protCommand
    exact h2

theorem kept_execProtRealign {pq : List Instr} (k : Nat) (t : Nat) {s : State} (hs : Kept pq s) : KeptOut pq (execProtRealign k
    t s) := by
  unfold execProtRealign
  apply keptOut_next
  apply kept_hostCmd
  · exact hs
  · intro t1
    intro h2
    apply kept_protCommand
    exact h2

theorem kept_placementChanged {pq : List Instr} {old : State} {s : State} (t : Nat) (hs : Kept pq s) : Kept pq (placementChanged
    old s t) := by
  unfold placementChanged
  extract_lets +onlyGivenNames x1
  clear_value x1
  extract_lets +onlyGivenNames x2
  clear_value x2
  extract_lets +onlyGivenNames x3
  clear_value x3
  extract_lets +onlyGivenNames x4
  clear_value x4
  extract_lets +onlyGivenNames x5
  clear_value x5
  extract_lets +onlyGivenNames x6
  have h6 : Kept pq x6 := by
    unfold x6
    apply kept_setTray
    exact hs
  clear_value x6
  extract_lets +onlyGivenNames x7
  have h7 : Kept pq x7 := by
    unfold x7
    apply kept_delayRegionSet
    exact h6
  clear_value x7
  extract_lets +onlyGivenNames x8
  have h8 : Kept pq x8 := by
    unfold x8
    apply kept_ite
    · apply kept_setN
      exact h7
    · apply kept_ite
      · apply kept_setN
        exact h7
      · apply kept_ite
        · apply kept_selectPath
          exact h7
        · apply kept_setN
          exact h7
  clear_value x8
  apply kept_trayRefresh
  exact h8

theorem kept_clearTrayCounters {pq : List Instr} {s : State} (hs : Kept pq s) : Kept2 pq (clearTrayCounters s) := by
  unfold clearTrayCounters
  apply kept2_mk
  apply kept_clearObjs
  exact hs

theorem kept_execClearTrayCounters {pq : List Instr} (k : Nat) {s : State} (hs : Kept pq s) : KeptOut pq (execClearTrayCounters
    k s) := by
  unfold execClearTrayCounters
  apply keptOut_next
  apply kept_hostCmd
  · exact hs
  · intro t1
    intro h2
    apply kept_clearTrayCounters
    exact h2

theorem kept_traysLatch {pq : List Instr} {s : State} (hs : Kept pq s) : Kept pq (traysLatch s) := by
  unfold traysLatch
  apply kept_foldl
  · exact hs
  · intro t1
    intro t2
    intro h3
    extract_lets +onlyGivenNames x4
    clear_value x4
    extract_lets +onlyGivenNames x5
    clear_value x5
    apply kept_setTray
    apply kept_setN
    exact h3

theorem kept_traysAfter {pq : List Instr} {s : State} (key : Nat) (hs : Kept pq s) : Kept pq (traysAfter s key) := by
  unfold traysAfter
  apply kept_ite
  · apply kept_trayRefresh
    exact hs
  · exact hs

end Sys2Proof.Machine
end

