-- ==== Sys2Proof/Laws/KeptSeal.lean ====
section
/-! SUPPORT. Every operation of Machine/Seal.lean keeps the queue and the well-formedness of the state. -/

namespace Sys2Proof.Machine

theorem kept_slotsRefresh {pq : List Instr} {s : State} (t : Nat) (hs : Kept pq s) : Kept pq (slotsRefresh s t) := by
  unfold slotsRefresh
  apply kept_foldl
  · exact hs
  · intro t1
    intro t2
    intro h3
    extract_lets +onlyGivenNames x4
    clear_value x4
    apply kept_setN
    exact h3

theorem kept_keyLoaded {pq : List Instr} {s : State} (x : Nat) (key : Bytes) (origin : Nat) (hs : Kept pq s) : Kept pq
    (keyLoaded s x key origin) := by
  unfold keyLoaded
  extract_lets +onlyGivenNames x1
  have h1 : Kept pq x1 := by
    unfold x1
    apply kept_setKeySlot
    exact hs
  clear_value x1
  extract_lets +onlyGivenNames x2
  have h2 : Kept pq x2 := by
    unfold x2
    apply kept_setO
    apply kept_setN
    apply kept_setN
    exact h1
  clear_value x2
  apply kept_slotsRefresh
  apply kept_setO
  exact h2

theorem kept_keyZeroised {pq : List Instr} {s : State} (x : Nat) (hs : Kept pq s) : Kept pq (keyZeroised s x) := by
  unfold keyZeroised
  extract_lets +onlyGivenNames x1
  have h1 : Kept pq x1 := by
    unfold x1
    apply kept_setKeySlot
    exact hs
  clear_value x1
  extract_lets +onlyGivenNames x2
  have h2 : Kept pq x2 := by
    unfold x2
    apply kept_setO
    apply kept_setN
    apply kept_setN
    exact h1
  clear_value x2
  apply kept_slotsRefresh
  apply kept_setO
  exact h2

theorem kept_utilZeroised {pq : List Instr} {s : State} (u : Nat) (hs : Kept pq s) : Kept pq (utilZeroised s u) := by
  unfold utilZeroised
  extract_lets +onlyGivenNames x1
  have h1 : Kept pq x1 := by
    unfold x1
    apply kept_setN
    apply kept_setKeySlot
    exact hs
  clear_value x1
  apply kept_setN
  apply kept_setO
  exact h1

theorem kept_zeroiseAll {pq : List Instr} {s : State} (hs : Kept pq s) : Kept pq (zeroiseAll s) := by
  unfold zeroiseAll
  extract_lets +onlyGivenNames x1
  have h1 : Kept pq x1 := by
    unfold x1
    apply kept_foldl
    · exact hs
    · intro t2
      intro t3
      intro h4
      apply kept_ite
      · apply kept_keyZeroised
        exact h4
      · apply kept_utilZeroised
        exact h4
  clear_value x1
  apply kept_mk_tables
  · exact h1
  · exact h1.tidy.can
  · exact h1.tidy.scopes
  · exact h1.tidy.pages
  · exact Tbl.wf_nil

theorem kept_loadFailed {pq : List Instr} {s : State} (hs : Kept pq s) : Kept pq (loadFailed s) := by
  unfold loadFailed
  apply kept_raise
  apply kept_bump
  exact hs

theorem kept_trayKeyWritten {pq : List Instr} {s : State} (x : Nat) (data : Bytes) (hs : Kept pq s) : Kept2 pq (trayKeyWritten s
    x data) := by
  unfold trayKeyWritten
  apply kept2_ite
  · apply kept2_mk
    exact hs
  · split
    · apply kept2_mk
      apply kept_loadFailed
      exact hs
    · apply kept2_mk
      apply kept_keyLoaded
      exact hs

theorem kept_utilityKeyWritten {pq : List Instr} {s : State} (u : Nat) (data : Bytes) (hs : Kept pq s) : Kept2 pq
    (utilityKeyWritten s u data) := by
  unfold utilityKeyWritten
  apply kept2_ite
  · apply kept2_mk
    exact hs
  · split
    · apply kept2_mk
      apply kept_loadFailed
      exact hs
    · extract_lets +onlyGivenNames x1
      have h1 : Kept pq x1 := by
        unfold x1
        apply kept_setN
        apply kept_setKeySlot
        exact hs
      clear_value x1
      apply kept2_mk
      apply kept_setN
      apply kept_setO
      exact h1

theorem kept_freeBytes {pq : List Instr} (a0 : Nat) {a1 : State} (ha1 : Kept pq a1) : Kept2 pq (freeBytes a0 a1) := by
  induction a0 generalizing a1 with
  | zero =>
    rw [freeBytes]
    apply kept2_mk
    exact ha1
  | succ a0 ih =>
    rw [freeBytes]
    apply kept2_mk
    apply Kept2.out
    apply ih
    apply Kept2.out
    apply kept_freeNat
    exact ha1

theorem kept_sharedSecret {pq : List Instr} {s : State} (d : Nat) (peer : Bytes) (hs : Kept pq s) : Kept2 pq (sharedSecret s d
    peer) := by
  unfold sharedSecret
  split
  · apply kept2_mk
    exact hs
  · apply kept_freeBytes
    exact hs

theorem kept_kekWritten {pq : List Instr} {s : State} (hs : Kept pq s) : Kept pq (kekWritten s) := by
  unfold kekWritten
  apply kept_ite
  · apply kept_mk
    exact hs
  · extract_lets +onlyGivenNames x1
    clear_value x1
    extract_lets +onlyGivenNames x2
    have h2 : Kept2 pq x2 := by
      unfold x2
      apply kept_sharedSecret
      exact hs
    clear_value x2
    extract_lets +onlyGivenNames x3
    have h3 : Kept pq x3 := by
      unfold x3
      apply Kept2.out
      exact h2
    clear_value x3
    apply kept_mk
    exact h3

theorem kept_execKeyDelivered {pq : List Instr} (x : Nat) {s : State} (hs : Kept pq s) : KeptOut pq (execKeyDelivered x s) := by
  unfold execKeyDelivered
  apply keptOut_onUnit
  · exact hs
  · intro t1
    intro h2
    extract_lets +onlyGivenNames x3
    clear_value x3
    apply kept_ite
    · exact h2
    · apply kept_slotsRefresh
      apply kept_setKeySlot
      exact h2

theorem kept_keySlotZeroise {pq : List Instr} (x : Nat) {s : State} (hs : Kept pq s) : Kept2 pq (keySlotZeroise x s) := by
  unfold keySlotZeroise
  apply kept2_ite
  · apply kept2_mk
    exact hs
  · apply kept2_mk
    apply kept_keyZeroised
    exact hs

theorem kept_utilityKeyZeroise {pq : List Instr} (u : Nat) {s : State} (hs : Kept pq s) : Kept2 pq (utilityKeyZeroise u s) := by
  unfold utilityKeyZeroise
  apply kept2_ite
  · apply kept2_mk
    exact hs
  · apply kept2_mk
    apply kept_utilZeroised
    exact hs

theorem kept_execKeySlotZeroise {pq : List Instr} (k : Nat) (x : Nat) {s : State} (hs : Kept pq s) : KeptOut pq
    (execKeySlotZeroise k x s) := by
  unfold execKeySlotZeroise
  apply keptOut_next
  apply kept_hostCmd
  · exact hs
  · intro t1
    intro h2
    apply kept_keySlotZeroise
    exact h2

theorem kept_execUtilityKeyZeroise {pq : List Instr} (k : Nat) (u : Nat) {s : State} (hs : Kept pq s) : KeptOut pq
    (execUtilityKeyZeroise k u s) := by
  unfold execUtilityKeyZeroise
  apply keptOut_next
  apply kept_hostCmd
  · exact hs
  · intro t1
    intro h2
    apply kept_utilityKeyZeroise
    exact h2

theorem kept_drawEpoch {pq : List Instr} {s : State} (x : Nat) (hs : Kept pq s) : Kept2 pq (drawEpoch s x) := by
  unfold drawEpoch
  extract_lets +onlyGivenNames x1
  clear_value x1
  apply kept2_ite
  · apply kept2_mk
    exact hs
  · apply kept2_mk
    apply kept_setN
    exact hs

theorem kept_epochJudge {pq : List Instr} {s : State} (t : Nat) (hs : Kept pq s) : Kept pq (epochJudge s t) := by
  unfold epochJudge
  extract_lets +onlyGivenNames x1
  clear_value x1
  apply kept_setCond
  exact hs

theorem kept_spanEnd {pq : List Instr} {s : State} (t : Nat) (prot : Bool) (hs : Kept pq s) : Kept pq (spanEnd s t prot) := by
  unfold spanEnd
  extract_lets +onlyGivenNames x1
  clear_value x1
  extract_lets +onlyGivenNames x2
  clear_value x2
  apply kept_ite
  · exact hs
  · extract_lets +onlyGivenNames x3
    clear_value x3
    extract_lets +onlyGivenNames x4
    clear_value x4
    extract_lets +onlyGivenNames x5
    clear_value x5
    apply kept_setTrayPath
    exact hs

theorem kept_spanBoundary {pq : List Instr} {s : State} (t : Nat) (prot : Bool) (n : Nat) (c : Nat) (hs : Kept pq s) : Kept pq
    (spanBoundary s t prot n c) := by
  unfold spanBoundary
  extract_lets +onlyGivenNames x1
  clear_value x1
  extract_lets +onlyGivenNames x2
  clear_value x2
  extract_lets +onlyGivenNames x3
  have h3 : Kept pq x3 := by
    unfold x3
    apply kept_ite
    · apply kept_setN
      exact hs
    · exact hs
  clear_value x3
  extract_lets +onlyGivenNames x4
  clear_value x4
  apply kept_ite
  · exact h3
  · extract_lets +onlyGivenNames x5
    have h5 : Kept pq x5 := by
      unfold x5
      apply kept_spanEnd
      exact h3
    clear_value x5
    extract_lets +onlyGivenNames x6
    clear_value x6
    extract_lets +onlyGivenNames x7
    clear_value x7
    apply kept_ite
    · apply kept_slotsRefresh
      apply kept_epochJudge
      apply kept_setN
      apply kept_setTrayPath
      exact h5
    · extract_lets +onlyGivenNames x8
      clear_value x8
      extract_lets +onlyGivenNames x9
      clear_value x9
      apply kept_ite
      · extract_lets +onlyGivenNames x10
        clear_value x10
        extract_lets +onlyGivenNames x11
        have h11 : Kept2 pq x11 := by
          unfold x11
          apply kept_drawEpoch
          exact h5
        clear_value x11
        extract_lets +onlyGivenNames x12
        clear_value x12
        apply kept_slotsRefresh
        apply kept_epochJudge
        apply kept_setTrayPath
        apply Kept2.out
        exact h11
      · apply kept_setTrayPath
        exact h5

theorem kept_sealArea {pq : List Instr} {s : State} (t : Nat) (prot : Bool) (overhead : Nat) (bits : List Bool) (hs : Kept pq s)
    : Kept2 pq (sealArea s t prot overhead bits) := by
  unfold sealArea
  extract_lets +onlyGivenNames x1
  clear_value x1
  extract_lets +onlyGivenNames x2
  clear_value x2
  apply kept2_ite
  · apply kept2_mk
    exact hs
  · extract_lets +onlyGivenNames x3
    clear_value x3
    extract_lets +onlyGivenNames x4
    clear_value x4
    extract_lets +onlyGivenNames x5
    clear_value x5
    apply kept2_mk
    apply kept_setTrayPath
    exact hs

theorem kept_takeTags {pq : List Instr} {s : State} (n : Nat) (cap : Nat) (hs : Kept pq s) : Kept2 pq (takeTags s n cap) := by
  unfold takeTags
  extract_lets +onlyGivenNames x1
  clear_value x1
  extract_lets +onlyGivenNames x2
  clear_value x2
  extract_lets +onlyGivenNames x3
  have h3 : Kept pq x3 := by
    unfold x3
    apply kept_foldl
    · exact hs
    · intro t4
      intro t5
      intro h6
      extract_lets +onlyGivenNames x7
      clear_value x7
      apply kept_setTrayPath
      exact h6
  clear_value x3
  apply kept2_mk
  exact h3

theorem kept_sealRestart {pq : List Instr} {s : State} (n : Nat) (hs : Kept pq s) : Kept pq (sealRestart s n) := by
  unfold sealRestart
  apply kept_foldl
  · exact hs
  · intro t1
    intro t2
    intro h3
    extract_lets +onlyGivenNames x4
    clear_value x4
    extract_lets +onlyGivenNames x5
    clear_value x5
    extract_lets +onlyGivenNames x6
    clear_value x6
    extract_lets +onlyGivenNames x7
    clear_value x7
    apply kept_setTrayPath
    exact h3

theorem kept_serviceSegment {pq : List Instr} {s : State} (hs : Kept pq s) (n : Nat) (c : Nat) (cursor : Nat) : Kept2 pq
    (serviceSegment s n c cursor) := by
  unfold serviceSegment
  split
  · split
    · apply kept2_mk
      exact hs
    · extract_lets +onlyGivenNames x1
      clear_value x1
      extract_lets +onlyGivenNames x2
      clear_value x2
      extract_lets +onlyGivenNames x3
      clear_value x3
      extract_lets +onlyGivenNames x4
      clear_value x4
      extract_lets +onlyGivenNames x5
      have h5 : Kept pq x5 := by
        unfold x5
        apply kept_ite
        · apply kept_setTray
          exact hs
        · exact hs
      clear_value x5
      apply kept2_mk
      exact h5
  · extract_lets +onlyGivenNames x6
    clear_value x6
    extract_lets +onlyGivenNames x7
    clear_value x7
    extract_lets +onlyGivenNames x8
    clear_value x8
    split
    · extract_lets +onlyGivenNames x9
      clear_value x9
      split
      · apply kept2_mk
        exact hs
      · extract_lets +onlyGivenNames x10
        clear_value x10
        extract_lets +onlyGivenNames x11
        clear_value x11
        extract_lets +onlyGivenNames x12
        clear_value x12
        extract_lets +onlyGivenNames x13
        have h13 : Kept2 pq x13 := by
          unfold x13
          apply kept2_ite
          · apply kept2_mk
            exact hs
          · apply kept_drawEpoch
            exact hs
        clear_value x13
        extract_lets +onlyGivenNames x14
        clear_value x14
        extract_lets +onlyGivenNames x15
        have h15 : Kept pq x15 := by
          unfold x15
          apply kept_ite
          · apply kept_foldl
            · apply Kept2.out
              exact h13
            · intro t16 t17 h18
              extract_lets +onlyGivenNames x19
              clear_value x19
              apply kept_setTrayPath
              exact h18
          · apply Kept2.out
            exact h13
        clear_value x15
        extract_lets +onlyGivenNames x20
        clear_value x20
        extract_lets +onlyGivenNames x21
        clear_value x21
        extract_lets +onlyGivenNames x22
        clear_value x22
        extract_lets +onlyGivenNames x23
        have h23 : Kept pq x23 := by
          unfold x23
          apply kept_setTrayPath
          exact h15
        clear_value x23
        apply kept2_mk
        exact h23
    · split
      · apply kept2_mk
        exact hs
      · extract_lets +onlyGivenNames x24
        clear_value x24
        apply kept2_mk
        apply kept_setTrayPath
        exact hs

theorem kept_rxSelect {pq : List Instr} {s : State} (t : Nat) (hs : Kept pq s) : Kept pq (rxSelect s t) := by
  unfold rxSelect
  extract_lets +onlyGivenNames x1
  clear_value x1
  split
  · apply kept_setN
    exact hs
  · apply kept_setN
    exact hs
  · exact hs

theorem kept_sealMismatch {pq : List Instr} {s : State} (t : Nat) (hs : Kept pq s) : Kept pq (sealMismatch s t) := by
  unfold sealMismatch
  apply kept_trayRefresh
  apply kept_setCond
  exact hs

theorem kept_execSealNoticeReceived {pq : List Instr} (n : Nat) (seg : Nat) {s : State} (hs : Kept pq s) : KeptOut pq
    (execSealNoticeReceived n seg s) := by
  unfold execSealNoticeReceived
  apply keptOut_onUnit
  · exact hs
  · intro t1 h2
    extract_lets +onlyGivenNames x3
    clear_value x3
    extract_lets +onlyGivenNames x4
    clear_value x4
    extract_lets +onlyGivenNames x5
    clear_value x5
    extract_lets +onlyGivenNames x6
    clear_value x6
    extract_lets +onlyGivenNames x7
    apply kept_ite
    · exact h2
    · split
      · exact h2
      · apply kept_ite
        · apply kept_sealMismatch
          exact h2
        · apply kept_ite
          · apply kept_sealMismatch
            exact h2
          · apply kept_ite
            · exact h2
            · extract_lets +onlyGivenNames x8
              clear_value x8
              extract_lets +onlyGivenNames x9
              clear_value x9
              extract_lets +onlyGivenNames x10
              clear_value x10
              extract_lets +onlyGivenNames x11
              have h11 : Kept pq x11 := by
                unfold x11
                apply kept_ite
                · apply kept_setTrayPath
                  exact h2
                · apply kept_setN
                  apply kept_setTrayPath
                  exact h2
              clear_value x11
              apply kept_slotsRefresh
              apply kept_trayRefresh
              apply kept_rxSelect
              exact h11

theorem kept_rxUnsync {pq : List Instr} {s : State} (t : Nat) (prot : Bool) (hs : Kept pq s) : Kept pq (rxUnsync s t prot) := by
  unfold rxUnsync
  extract_lets +onlyGivenNames x1
  clear_value x1
  extract_lets +onlyGivenNames x2
  have h2 : Kept pq x2 := by
    unfold x2
    apply kept_setTrayPath
    exact hs
  clear_value x2
  apply kept_setN
  exact h2

theorem kept_sealTrackEntry {pq : List Instr} {s : State} (n : Nat) (hs : Kept pq s) : Kept pq (sealTrackEntry s n) := by
  unfold sealTrackEntry
  apply kept_foldl
  · exact hs
  · intro t1
    intro t2
    intro h3
    apply kept_ite
    · apply kept_slotsRefresh
      apply kept_trayRefresh
      apply kept_rxUnsync
      exact h3
    · exact h3

theorem kept_spanFailed {pq : List Instr} {s : State} (t : Nat) (prot : Bool) (missing : Bool) (hs : Kept pq s) : Kept pq
    (spanFailed s t prot missing) := by
  unfold spanFailed
  extract_lets +onlyGivenNames x1
  clear_value x1
  extract_lets +onlyGivenNames x2
  clear_value x2
  extract_lets +onlyGivenNames x3
  have h3 : Kept pq x3 := by
    unfold x3
    apply kept_setTrayPath
    exact hs
  clear_value x3
  extract_lets +onlyGivenNames x4
  have h4 : Kept pq x4 := by
    unfold x4
    apply kept_countEv
    apply kept_bump
    exact h3
  clear_value x4
  extract_lets +onlyGivenNames x5
  have h5 : Kept pq x5 := by
    unfold x5
    apply kept_ite
    · apply kept_bump
      exact h4
    · exact h4
  clear_value x5
  apply kept_trayRefresh
  apply kept_hold
  apply kept_setCond
  exact h5

theorem kept_spanVerified {pq : List Instr} {s : State} (t : Nat) (prot : Bool) (hs : Kept pq s) : Kept pq (spanVerified s t
    prot) := by
  unfold spanVerified
  extract_lets +onlyGivenNames x1
  clear_value x1
  extract_lets +onlyGivenNames x2
  clear_value x2
  extract_lets +onlyGivenNames x3
  have h3 : Kept pq x3 := by
    unfold x3
    apply kept_setTrayPath
    exact hs
  clear_value x3
  apply kept_trayRefresh
  apply kept_rxSelect
  apply kept_countEv
  apply kept_bump
  exact h3

theorem kept_execSealAlarmClearTimer {pq : List Instr} (t : Nat) (kind : Nat) {s : State} (hs : Kept pq s) : KeptOut pq
    (execSealAlarmClearTimer t kind s) := by
  unfold execSealAlarmClearTimer
  apply keptOut_onUnit
  · exact hs
  · intro t1
    intro h2
    apply kept_ite
    · apply kept_setCond
      exact h2
    · apply kept_trayRefresh
      apply kept_setCond
      exact h2

theorem kept_sealRollover {pq : List Instr} (t : Nat) {s : State} (hs : Kept pq s) : Kept2 pq (sealRollover t s) := by
  unfold sealRollover
  extract_lets +onlyGivenNames x1
  clear_value x1
  apply kept2_ite
  · apply kept2_mk
    exact hs
  · apply kept2_ite
    · apply kept2_mk
      exact hs
    · extract_lets +onlyGivenNames x2
      have h2 : Kept pq x2 := by
        unfold x2
        apply kept_foldl
        · exact hs
        · intro t3 t4 h5
          apply kept_ite
          · extract_lets +onlyGivenNames x6
            clear_value x6
            apply kept_setTrayPath
            exact h5
          · exact h5
      clear_value x2
      extract_lets +onlyGivenNames x7
      have h7 : Kept pq x7 := by
        unfold x7
        apply kept_ite
        · apply kept_setN
          exact h2
        · apply kept_setN
          exact h2
      clear_value x7
      apply kept2_mk
      apply kept_slotsRefresh
      exact h7

theorem kept_execSealRollover {pq : List Instr} (k : Nat) (t : Nat) {s : State} (hs : Kept pq s) : KeptOut pq (execSealRollover
    k t s) := by
  unfold execSealRollover
  apply keptOut_next
  apply kept_hostCmd
  · exact hs
  · intro t1
    intro h2
    apply kept_sealRollover
    exact h2

theorem kept_execRolloverSwitch {pq : List Instr} (t : Nat) (prot : Bool) {s : State} (hs : Kept pq s) : KeptOut pq
    (execRolloverSwitch t prot s) := by
  unfold execRolloverSwitch
  apply keptOut_onUnit
  · exact hs
  · intro t1
    intro h2
    extract_lets +onlyGivenNames x3
    clear_value x3
    split
    · exact h2
    · apply kept_ite
      · exact h2
      · extract_lets +onlyGivenNames x4
        have h4 : Kept pq x4 := by
          unfold x4
          apply kept_spanEnd
          exact h2
        clear_value x4
        extract_lets +onlyGivenNames x5
        clear_value x5
        extract_lets +onlyGivenNames x6
        clear_value x6
        extract_lets +onlyGivenNames x7
        clear_value x7
        extract_lets +onlyGivenNames x8
        clear_value x8
        extract_lets +onlyGivenNames x9
        have h9 : Kept pq x9 := by
          unfold x9
          apply kept_setN
          apply kept_setTrayPath
          exact h4
        clear_value x9
        extract_lets +onlyGivenNames x10
        clear_value x10
        extract_lets +onlyGivenNames x11
        have h11 : Kept pq x11 := by
          unfold x11
          apply kept_ite
          · apply kept_setN
            exact h9
          · exact h9
        clear_value x11
        apply kept_slotsRefresh
        apply kept_epochJudge
        exact h11

theorem kept_sealCommitted {pq : List Instr} {old : State} {s : State} (hs : Kept pq s) (t : Nat) (block : Nat → Nat) : Kept
    pq (sealCommitted old s t block) := by
  unfold sealCommitted
  extract_lets +onlyGivenNames x1
  clear_value x1
  extract_lets +onlyGivenNames x2
  have h2 : Kept pq x2 := by
    unfold x2
    apply kept_foldl
    · exact hs
    · intro t3 t4 h5
      extract_lets +onlyGivenNames x6
      clear_value x6
      extract_lets +onlyGivenNames x7
      clear_value x7
      extract_lets +onlyGivenNames x8
      clear_value x8
      apply kept_ite
      · apply kept_setN
        apply kept_setN
        apply kept_setTrayPath
        exact h5
      · extract_lets +onlyGivenNames x9
        have h9 : Kept pq x9 := by
          unfold x9
          apply kept_ite
          · apply kept_setN
            exact h5
          · exact h5
        clear_value x9
        extract_lets +onlyGivenNames x10
        clear_value x10
        extract_lets +onlyGivenNames x11
        have h11 : Kept pq x11 := by
          unfold x11
          apply kept_ite
          · apply kept_setTrayPath
            exact h9
          · apply kept_ite
            · apply kept_setTrayPath
              exact h9
            · exact h9
        clear_value x11
        apply kept_ite
        · apply kept_rxUnsync
          exact h11
        · exact h11
  clear_value x2
  extract_lets +onlyGivenNames x12
  have h12 : Kept pq x12 := by
    unfold x12
    apply kept_ite
    · apply kept_setN
      exact h2
    · exact h2
  clear_value x12
  extract_lets +onlyGivenNames x13
  clear_value x13
  extract_lets +onlyGivenNames x14
  clear_value x14
  extract_lets +onlyGivenNames x15
  clear_value x15
  extract_lets +onlyGivenNames x16
  have h16 : Kept pq x16 := by
    unfold x16
    apply kept_ite
    · apply kept_trayFillOut
      apply kept_setCond
      apply kept_setTray
      exact h12
    · exact h12
  clear_value x16
  apply kept_slotsRefresh
  apply kept_epochJudge
  apply kept_trayRefresh
  exact h16

theorem kept_agreeEnd {pq : List Instr} {s : State} (t : Nat) (result : Nat) (abort : Bool) (hs : Kept pq s) : Kept pq (agreeEnd
    s t result abort) := by
  unfold agreeEnd
  extract_lets +onlyGivenNames x1
  clear_value x1
  extract_lets +onlyGivenNames x2
  clear_value x2
  extract_lets +onlyGivenNames x3
  have h3 : Kept pq x3 := by
    unfold x3
    apply kept_setTray
    exact hs
  clear_value x3
  extract_lets +onlyGivenNames x4
  have h4 : Kept pq x4 := by
    unfold x4
    apply kept_setN
    apply kept_setN
    exact h3
  clear_value x4
  apply kept_setCond
  exact h4

theorem kept_agreeStart {pq : List Instr} (t : Nat) {s : State} (hs : Kept pq s) : Kept2 pq (agreeStart t s) := by
  unfold agreeStart
  extract_lets +onlyGivenNames x1
  clear_value x1
  apply kept2_ite
  · apply kept2_mk
    exact hs
  · apply kept2_ite
    · apply kept2_mk
      exact hs
    · apply kept2_ite
      · apply kept2_mk
        exact hs
      · extract_lets +onlyGivenNames x2
        have h2 : Kept2 pq x2 := by
          unfold x2
          apply kept_freeNat
          exact hs
        clear_value x2
        extract_lets +onlyGivenNames x3
        have h3 : Kept pq x3 := by
          unfold x3
          apply Kept2.out
          exact h2
        clear_value x3
        extract_lets +onlyGivenNames x4
        clear_value x4
        extract_lets +onlyGivenNames x5
        clear_value x5
        extract_lets +onlyGivenNames x6
        clear_value x6
        extract_lets +onlyGivenNames x7
        clear_value x7
        apply kept2_mk
        apply kept_setN
        apply kept_setN
        apply kept_setTray
        exact h3

theorem kept_agreeCancel {pq : List Instr} (t : Nat) {s : State} (hs : Kept pq s) : Kept2 pq (agreeCancel t s) := by
  unfold agreeCancel
  apply kept2_ite
  · apply kept2_mk
    apply kept_agreeEnd
    exact hs
  · apply kept2_mk
    exact hs

theorem kept_execAgreeStart {pq : List Instr} (k : Nat) (t : Nat) {s : State} (hs : Kept pq s) : KeptOut pq (execAgreeStart k t
    s) := by
  unfold execAgreeStart
  apply keptOut_next
  apply kept_hostCmd
  · exact hs
  · intro t1
    intro h2
    apply kept_agreeStart
    exact h2

theorem kept_execAgreeCancel {pq : List Instr} (k : Nat) (t : Nat) {s : State} (hs : Kept pq s) : KeptOut pq (execAgreeCancel k
    t s) := by
  unfold execAgreeCancel
  apply keptOut_next
  apply kept_hostCmd
  · exact hs
  · intro t1
    intro h2
    apply kept_agreeCancel
    exact h2

theorem kept_agreeKeys {pq : List Instr} {s : State} (t : Nat) (a : Agree) (offer : Bytes) (answer : Bytes) (hs : Kept pq s) :
    Kept2 pq (agreeKeys s t a offer answer) := by
  unfold agreeKeys
  extract_lets +onlyGivenNames x1
  clear_value x1
  extract_lets +onlyGivenNames x2
  have h2 : Kept2 pq x2 := by
    unfold x2
    apply kept_sharedSecret
    exact hs
  clear_value x2
  extract_lets +onlyGivenNames x3
  have h3 : Kept2 pq x3 := by
    unfold x3
    apply kept_sharedSecret
    apply Kept2.out
    exact h2
  clear_value x3
  extract_lets +onlyGivenNames x4
  clear_value x4
  apply kept2_mk
  apply Kept2.out
  exact h3

theorem kept_agreeSide0 {pq : List Instr} {s : State} (t : Nat) (a : Agree) (hs : Kept pq s) : Kept pq (agreeSide0 s t a) := by
  unfold agreeSide0
  split
  · extract_lets +onlyGivenNames x1
    clear_value x1
    extract_lets +onlyGivenNames x2
    clear_value x2
    extract_lets +onlyGivenNames x3
    have h3 : Kept2 pq x3 := by
      unfold x3
      apply kept_agreeKeys
      exact hs
    clear_value x3
    apply kept_ite
    · extract_lets +onlyGivenNames x4
      have h4 : Kept pq x4 := by
        unfold x4
        apply kept_keyLoaded
        apply Kept2.out
        exact h3
      clear_value x4
      extract_lets +onlyGivenNames x5
      have h5 : Kept pq x5 := by
        unfold x5
        apply kept_agreeEnd
        exact h4
      clear_value x5
      apply kept_setTray
      exact h5
    · apply kept_agreeEnd
      apply Kept2.out
      exact h3
  · apply kept_setTray
    exact hs

theorem kept_agreeSide1 {pq : List Instr} {s : State} (t : Nat) (a : Agree) (hs : Kept pq s) : Kept pq (agreeSide1 s t a) := by
  unfold agreeSide1
  split
  · apply kept_setTray
    exact hs
  · extract_lets +onlyGivenNames x1
    clear_value x1
    extract_lets +onlyGivenNames x2
    clear_value x2
    extract_lets +onlyGivenNames x3
    have h3 : Kept2 pq x3 := by
      unfold x3
      apply kept2_ite
      · apply kept_agreeKeys
        exact hs
      · apply kept2_mk
        exact hs
    clear_value x3
    extract_lets +onlyGivenNames x4
    have h4 : Kept pq x4 := by
      unfold x4
      apply Kept2.out
      exact h3
    clear_value x4
    split
    · apply kept_ite
      · apply kept_agreeEnd
        apply kept_keyLoaded
        exact h4
      · apply kept_agreeEnd
        exact h4
    · apply kept_setTray
      exact h4

theorem kept_execAgreementMessageReceived {pq : List Instr} (n : Nat) (seg : Nat) {s : State} (hs : Kept pq s) : KeptOut pq
    (execAgreementMessageReceived n seg s) := by
  unfold execAgreementMessageReceived
  apply keptOut_onUnit
  · exact hs
  · intro t1
    intro h2
    extract_lets +onlyGivenNames x3
    clear_value x3
    extract_lets +onlyGivenNames x4
    clear_value x4
    extract_lets +onlyGivenNames x5
    clear_value x5
    extract_lets +onlyGivenNames x6
    clear_value x6
    extract_lets +onlyGivenNames x7
    clear_value x7
    extract_lets +onlyGivenNames x8
    clear_value x8
    apply kept_ite
    · exact h2
    · split
      · exact h2
      · apply kept_ite
        · exact h2
        · apply kept_ite
          · apply kept_agreeEnd
            exact h2
          · apply kept_ite
            · apply kept_ite
              · apply kept_agreeEnd
                exact h2
              · exact h2
            · apply kept_ite
              · apply kept_ite
                · apply kept_agreeSide0
                  exact h2
                · exact h2
              · apply kept_ite
                · extract_lets +onlyGivenNames x9
                  clear_value x9
                  apply kept_agreeSide1
                  exact h2
                · apply kept_ite
                  · apply kept_agreeSide1
                    exact h2
                  · exact h2

theorem kept_execAgreeTimeout {pq : List Instr} (t : Nat) {s : State} (hs : Kept pq s) : KeptOut pq (execAgreeTimeout t s) := by
  unfold execAgreeTimeout
  apply keptOut_onUnit
  · exact hs
  · intro t1
    intro h2
    apply kept_ite
    · apply kept_agreeEnd
      exact h2
    · apply kept_setTray
      exact h2

theorem kept_lidAcquire {pq : List Instr} (k : Nat) {s : State} (hs : Kept pq s) : Kept2 pq (lidAcquire k s) := by
  unfold lidAcquire
  apply kept2_ite
  · apply kept2_mk
    exact hs
  · apply kept2_ite
    · apply kept2_mk
      exact hs
    · apply kept2_mk
      apply kept_setN
      exact hs

theorem kept_lidRelease {pq : List Instr} (k : Nat) {s : State} (hs : Kept pq s) : Kept2 pq (lidRelease k s) := by
  unfold lidRelease
  apply kept2_ite
  · apply kept2_mk
    exact hs
  · apply kept2_ite
    · apply kept2_mk
      exact hs
    · apply kept2_mk
      apply kept_lidFree
      exact hs

theorem kept_lidForce {pq : List Instr} {s : State} (hs : Kept pq s) : Kept2 pq (lidForce s) := by
  unfold lidForce
  apply kept2_mk
  apply kept_lidFree
  exact hs

theorem kept_execLidLockAcquire {pq : List Instr} (k : Nat) {s : State} (hs : Kept pq s) : KeptOut pq (execLidLockAcquire k s)
    := by
  unfold execLidLockAcquire
  apply keptOut_next
  apply kept_hostCmd
  · exact hs
  · intro t1
    intro h2
    apply kept_lidAcquire
    exact h2

theorem kept_execLidLockRelease {pq : List Instr} (k : Nat) {s : State} (hs : Kept pq s) : KeptOut pq (execLidLockRelease k s)
    := by
  unfold execLidLockRelease
  apply keptOut_next
  apply kept_hostCmd
  · exact hs
  · intro t1
    intro h2
    apply kept_lidRelease
    exact h2

theorem kept_execLidLockForceRelease {pq : List Instr} (k : Nat) {s : State} (hs : Kept pq s) : KeptOut pq
    (execLidLockForceRelease k s) := by
  unfold execLidLockForceRelease
  apply keptOut_next
  apply kept_hostCmd
  · exact hs
  · intro t1
    intro h2
    apply kept_lidForce
    exact h2

theorem kept_execLidLeaseExpired {pq : List Instr} {s : State} (hs : Kept pq s) : KeptOut pq (execLidLeaseExpired s) := by
  unfold execLidLeaseExpired
  apply keptOut_next
  apply kept_ite
  · exact hs
  · apply kept_lidFree
    apply kept_bump
    exact hs

theorem kept_lidRun {pq : List Instr} {s : State} (hs : Kept pq s) : Kept pq (lidRun s) := by
  unfold lidRun
  apply kept_ite
  · exact hs
  · extract_lets +onlyGivenNames x1
    clear_value x1
    extract_lets +onlyGivenNames x2
    clear_value x2
    apply kept_bump
    apply kept_setO
    exact hs

theorem kept_clearSealCounters {pq : List Instr} {s : State} (hs : Kept pq s) : Kept2 pq (clearSealCounters s) := by
  unfold clearSealCounters
  apply kept2_mk
  apply kept_clearObjs
  exact hs

theorem kept_execClearSealCounters {pq : List Instr} (k : Nat) {s : State} (hs : Kept pq s) : KeptOut pq (execClearSealCounters
    k s) := by
  unfold execClearSealCounters
  apply keptOut_next
  apply kept_hostCmd
  · exact hs
  · intro t1
    intro h2
    apply kept_clearSealCounters
    exact h2

theorem kept_sealAfter {pq : List Instr} {s : State} (key : Nat) (hs : Kept pq s) : Kept pq (sealAfter s key) := by
  unfold sealAfter
  apply kept_ite
  · apply kept_kekWritten
    exact hs
  · apply kept_ite
    · apply kept_lidRun
      exact hs
    · exact hs

end Sys2Proof.Machine
end

