-- ==== Sys2Proof/Laws/KeptProbe.lean ====
section
/-! SUPPORT. Every operation of Machine/Probe.lean keeps the queue and the well-formedness of the state. -/

namespace Sys2Proof.Machine

theorem kept_probeEnd {pq : List Instr} {s : State} (p : Nat) (hs : Kept pq s) : Kept pq (probeEnd s p) := by
  unfold probeEnd
  extract_lets +onlyGivenNames x1
  clear_value x1
  split
  · exact hs
  · extract_lets +onlyGivenNames x2
    clear_value x2
    extract_lets +onlyGivenNames x3
    clear_value x3
    extract_lets +onlyGivenNames x4
    clear_value x4
    extract_lets +onlyGivenNames x5
    have h5 : Kept pq x5 := by
      unfold x5
      apply kept_setProbe
      exact hs
    clear_value x5
    apply kept_setCond
    apply kept_setB
    exact h5

theorem kept_probeBegin {pq : List Instr} {s : State} (hs : Kept pq s) (p : Nat) (start : Nat) (slots : List Nat) (injected :
    Bool) : Kept pq (probeBegin s p start slots injected) := by
  unfold probeBegin
  extract_lets +onlyGivenNames x1
  have h1 : Kept pq x1 := by
    unfold x1
    apply kept_setO
    apply kept_bump
    exact hs
  clear_value x1
  extract_lets +onlyGivenNames x2
  clear_value x2
  extract_lets +onlyGivenNames x3
  clear_value x3
  extract_lets +onlyGivenNames x4
  have h4 : Kept pq x4 := by
    unfold x4
    apply kept_setProbe
    exact h1
  clear_value x4
  extract_lets +onlyGivenNames x5
  have h5 : Kept pq x5 := by
    unfold x5
    apply kept_setB
    exact h4
  clear_value x5
  extract_lets +onlyGivenNames x6
  have h6 : Kept pq x6 := by
    unfold x6
    apply kept_ite
    · exact h5
    · apply kept_setCond
      exact h5
  clear_value x6
  extract_lets +onlyGivenNames x7
  clear_value x7
  extract_lets +onlyGivenNames x8
  clear_value x8
  apply kept_ite
  · apply kept_setCond
    exact h6
  · exact h6

theorem kept_probeOne {pq : List Instr} (p : Nat) (residuals : List (Nat × Int)) {s : State} (hs : Kept pq s) (j : Nat) : Kept
    pq (probeOne p residuals s j) := by
  unfold probeOne
  apply kept_ite
  · exact hs
  · extract_lets +onlyGivenNames x1
    clear_value x1
    extract_lets +onlyGivenNames x2
    clear_value x2
    extract_lets +onlyGivenNames x3
    clear_value x3
    extract_lets +onlyGivenNames x4
    clear_value x4
    extract_lets +onlyGivenNames x5
    clear_value x5
    apply kept_setProbe
    exact hs

theorem kept_probeLeave {pq : List Instr} (p : Nat) {s : State} (hs : Kept pq s) : Kept pq (probeLeave p s) := by
  unfold probeLeave
  extract_lets +onlyGivenNames x1
  clear_value x1
  extract_lets +onlyGivenNames x2
  clear_value x2
  extract_lets +onlyGivenNames x3
  clear_value x3
  extract_lets +onlyGivenNames x4
  clear_value x4
  extract_lets +onlyGivenNames x5
  have h5 : Kept pq x5 := by
    unfold x5
    apply kept_setProbe
    exact hs
  clear_value x5
  apply kept_ite
  · apply kept_probeEnd
    exact h5
  · exact h5

theorem kept_probeDetect {pq : List Instr} (p : Nat) {s : State} (hs : Kept pq s) : Kept pq (probeDetect p s) := by
  unfold probeDetect
  extract_lets +onlyGivenNames x1
  clear_value x1
  apply kept_ite
  · exact hs
  · extract_lets +onlyGivenNames x2
    clear_value x2
    extract_lets +onlyGivenNames x3
    clear_value x3
    extract_lets +onlyGivenNames x4
    clear_value x4
    apply kept_ite
    · exact hs
    · apply kept_probeBegin
      exact hs

theorem kept_probeStream {pq : List Instr} (p : Nat) {s : State} (hs : Kept pq s) : Kept pq (probeStream p s) := by
  unfold probeStream
  extract_lets +onlyGivenNames x1
  clear_value x1
  extract_lets +onlyGivenNames x2
  clear_value x2
  apply kept_ite
  · apply kept_setProbe
    exact hs
  · extract_lets +onlyGivenNames x3
    clear_value x3
    extract_lets +onlyGivenNames x4
    clear_value x4
    apply kept_setProbe
    exact hs

theorem kept_execProbeSample {pq : List Instr} (p : Nat) (residuals : List (Nat × Int)) {s : State} (hs : Kept pq s) : KeptOut
    pq (execProbeSample p residuals s) := by
  unfold execProbeSample
  apply keptOut_onUnit
  · exact hs
  · intro t1 h2
    extract_lets +onlyGivenNames x3
    have h3 : Kept pq x3 := by
      unfold x3
      apply kept_probeLeave
      exact h2
    clear_value x3
    extract_lets +onlyGivenNames x4
    have h4 : Kept pq x4 := by
      unfold x4
      apply kept_foldl
      · exact h3
      · intro t5 t6 h7
        apply kept_probeOne
        exact h7
    clear_value x4
    extract_lets +onlyGivenNames x8
    have h8 : Kept pq x8 := by
      unfold x8
      apply kept_probeDetect
      exact h4
    clear_value x8
    extract_lets +onlyGivenNames x9
    have h9 : Kept pq x9 := by
      unfold x9
      apply kept_setN
      exact h8
    clear_value x9
    apply kept_ite
    · apply kept_probeStream
      exact h9
    · exact h9

theorem kept_execProbeEventEnd {pq : List Instr} (p : Nat) {s : State} (hs : Kept pq s) : KeptOut pq (execProbeEventEnd p s)
    := by
  unfold execProbeEventEnd
  apply keptOut_onUnit
  · exact hs
  · intro t1 h2
    apply kept_ite
    · exact h2
    · apply kept_probeEnd
      exact h2

theorem kept_execFibreDisturbanceClear {pq : List Instr} (p : Nat) {s : State} (hs : Kept pq s) : KeptOut pq
    (execFibreDisturbanceClear p s) := by
  unfold execFibreDisturbanceClear
  apply keptOut_onUnit
  · exact hs
  · intro t1
    intro h2
    apply kept_setCond
    exact h2

theorem kept_probeInject {pq : List Instr} {s : State} (hs : Kept pq s) (p : Nat) : Kept pq (probeInject s p) := by
  unfold probeInject
  apply kept_ite
  · exact hs
  · apply kept_probeBegin
    exact hs

theorem kept_clearProbe {pq : List Instr} {s : State} (hs : Kept pq s) : Kept2 pq (clearProbe s) := by
  unfold clearProbe
  extract_lets +onlyGivenNames x1
  have h1 : Kept pq x1 := by
    unfold x1
    apply kept_clearObjs
    exact hs
  clear_value x1
  apply kept2_mk
  apply kept_foldl
  · exact h1
  · intro t2
    intro t3
    intro h4
    apply kept_setProbe
    exact h4

theorem kept_execClearProbe {pq : List Instr} (k : Nat) {s : State} (hs : Kept pq s) : KeptOut pq (execClearProbe k s) := by
  unfold execClearProbe
  apply keptOut_next
  apply kept_hostCmd
  · exact hs
  · intro t1
    intro h2
    apply kept_clearProbe
    exact h2

theorem kept_probeLatch {pq : List Instr} {s : State} (hs : Kept pq s) : Kept pq (probeLatch s) := by
  unfold probeLatch
  apply kept_foldl
  · exact hs
  · intro t1
    intro t2
    intro h3
    extract_lets +onlyGivenNames x4
    clear_value x4
    apply kept_setProbe
    apply kept_setF
    apply kept_setN
    exact h3

end Sys2Proof.Machine
end

