-- ==== Sys2Proof/Laws/KeptRx.lean ====
section
/-! SUPPORT. Every operation of Machine/Rx.lean keeps the queue and the well-formedness of the state. -/

namespace Sys2Proof.Machine

theorem kept_dcRestart {pq : List Instr} {s : State} (hs : Kept pq s) (n : Nat) : Kept pq (dcRestart s n) := by
  unfold dcRestart
  extract_lets +onlyGivenNames x1
  clear_value x1
  apply kept_setEngine
  exact hs

theorem kept_dcNote {pq : List Instr} {s : State} (hs : Kept pq s) (n : Nat) : Kept pq (dcNote s n) := by
  unfold dcNote
  extract_lets +onlyGivenNames x1
  clear_value x1
  extract_lets +onlyGivenNames x2
  clear_value x2
  apply kept_ite
  · exact hs
  · apply kept_setEngine
    exact hs

theorem kept_setDsp {pq : List Instr} {s : State} (n : Nat) (x : Rx) (hs : Kept pq s) : Kept pq (State.setDsp s n x) := by
  unfold State.setDsp
  apply kept_setEngine
  exact hs

theorem kept_rxSilent {pq : List Instr} {s : State} (n : Nat) (hs : Kept pq s) : Kept pq (rxSilent s n) := by
  unfold rxSilent
  extract_lets +onlyGivenNames x1
  clear_value x1
  extract_lets +onlyGivenNames x2
  clear_value x2
  extract_lets +onlyGivenNames x3
  clear_value x3
  extract_lets +onlyGivenNames x4
  have h4 : Kept pq x4 := by
    unfold x4
    apply kept_setEngine
    exact hs
  clear_value x4
  apply kept_traysRefresh
  apply kept_carrierClockLost
  apply kept_setN
  exact h4

theorem kept_leaveTrack {pq : List Instr} {s : State} (n : Nat) (cause : Nat) (hs : Kept pq s) : Kept pq (leaveTrack s n cause)
    := by
  unfold leaveTrack
  apply kept_ite
  · exact hs
  · extract_lets +onlyGivenNames x1
    have h1 : Kept pq x1 := by
      unfold x1
      apply kept_setB
      apply kept_bump
      exact hs
    clear_value x1
    extract_lets +onlyGivenNames x2
    have h2 : Kept pq x2 := by
      unfold x2
      apply kept_ite
      · exact h1
      · apply kept_setN
        exact h1
    clear_value x2
    extract_lets +onlyGivenNames x3
    have h3 : Kept pq x3 := by
      unfold x3
      apply kept_ite
      · apply kept_bump
        exact h2
      · exact h2
    clear_value x3
    extract_lets +onlyGivenNames x4
    have h4 : Kept pq x4 := by
      unfold x4
      apply kept_ite
      · apply kept_setCond
        exact h3
      · exact h3
    clear_value x4
    extract_lets +onlyGivenNames x5
    have h5 : Kept pq x5 := by
      unfold x5
      apply kept_setCond
      exact h4
    clear_value x5
    extract_lets +onlyGivenNames x6
    clear_value x6
    extract_lets +onlyGivenNames x7
    clear_value x7
    extract_lets +onlyGivenNames x8
    clear_value x8
    extract_lets +onlyGivenNames x9
    clear_value x9
    extract_lets +onlyGivenNames x10
    clear_value x10
    extract_lets +onlyGivenNames x11
    have h11 : Kept pq x11 := by
      unfold x11
      apply kept_setEngine
      exact h5
    clear_value x11
    apply kept_ite
    · apply kept_setN
      exact h11
    · exact h11

theorem kept_acquire {pq : List Instr} {s : State} (hs : Kept pq s) (n : Nat) (kind : Nat) : Kept pq (acquire s n kind) := by
  unfold acquire
  extract_lets +onlyGivenNames x1
  have h1 : Kept pq x1 := by
    unfold x1
    apply kept_setN
    apply kept_setN
    exact hs
  clear_value x1
  extract_lets +onlyGivenNames x2
  clear_value x2
  extract_lets +onlyGivenNames x3
  clear_value x3
  extract_lets +onlyGivenNames x4
  clear_value x4
  extract_lets +onlyGivenNames x5
  have h5 : Kept pq x5 := by
    unfold x5
    apply kept_setB
    apply kept_setB
    apply kept_setN
    exact h1
  clear_value x5
  extract_lets +onlyGivenNames x6
  clear_value x6
  extract_lets +onlyGivenNames x7
  clear_value x7
  extract_lets +onlyGivenNames x8
  clear_value x8
  extract_lets +onlyGivenNames x9
  clear_value x9
  extract_lets +onlyGivenNames x10
  clear_value x10
  extract_lets +onlyGivenNames x11
  have h11 : Kept pq x11 := by
    unfold x11
    apply kept_setF
    apply kept_setF
    apply kept_setF
    exact h5
  clear_value x11
  extract_lets +onlyGivenNames x12
  have h12 : Kept pq x12 := by
    unfold x12
    apply kept_setF
    apply kept_setN
    exact h11
  clear_value x12
  extract_lets +onlyGivenNames x13
  have h13 : Kept pq x13 := by
    unfold x13
    split
    · extract_lets +onlyGivenNames x14
      clear_value x14
      extract_lets +onlyGivenNames x15
      have h15 : Kept pq x15 := by
        unfold x15
        apply kept_setF
        apply kept_setF
        apply kept_setI
        exact h5
      clear_value x15
      apply kept_setDsp
      exact h15
    · apply kept_setDsp
      apply kept_setCond
      exact h12
  clear_value x13
  apply kept_rxSilent
  exact h13

theorem kept_rxJudge {pq : List Instr} {s : State} (hs : Kept pq s) (n : Nat) : Kept pq (rxJudge s n) := by
  unfold rxJudge
  extract_lets +onlyGivenNames x1
  have h1 : Kept pq x1 := by
    unfold x1
    apply kept_dcNote
    exact hs
  clear_value x1
  extract_lets +onlyGivenNames x2
  clear_value x2
  split
  · apply kept_ite
    · apply kept_acquire
      exact h1
    · exact h1
  · apply kept_ite
    · exact h1
    · apply kept_rxSilent
      apply kept_setN
      exact h1
  · apply kept_ite
    · exact h1
    · apply kept_rxSilent
      apply kept_setN
      apply kept_leaveTrack
      exact h1
  · apply kept_ite
    · apply kept_acquire
      exact h1
    · exact h1
  · exact h1

theorem kept_rxStart {pq : List Instr} {s : State} (hs : Kept pq s) (n : Nat) : Kept pq (rxStart s n) := by
  unfold rxStart
  apply kept_ite
  · exact hs
  · apply kept_ite
    · apply kept_setEngine
      apply kept_setN
      exact hs
    · apply kept_rxJudge
      apply kept_setDsp
      apply kept_setN
      exact hs

theorem kept_rxStop {pq : List Instr} {s : State} (n : Nat) (hs : Kept pq s) : Kept pq (rxStop s n) := by
  unfold rxStop
  apply kept_ite
  · exact hs
  · extract_lets +onlyGivenNames x1
    have h1 : Kept pq x1 := by
      unfold x1
      apply kept_leaveTrack
      exact hs
    clear_value x1
    extract_lets +onlyGivenNames x2
    clear_value x2
    extract_lets +onlyGivenNames x3
    have h3 : Kept pq x3 := by
      unfold x3
      apply kept_setDsp
      apply kept_setN
      exact h1
    clear_value x3
    extract_lets +onlyGivenNames x4
    have h4 : Kept pq x4 := by
      unfold x4
      apply kept_rxSilent
      exact h3
    clear_value x4
    extract_lets +onlyGivenNames x5
    clear_value x5
    extract_lets +onlyGivenNames x6
    have h6 : Kept pq x6 := by
      unfold x6
      apply kept_setN
      apply kept_setN
      apply kept_setEngine
      exact h4
    clear_value x6
    apply kept_setCond
    apply kept_setCond
    apply kept_setCond
    exact h6

theorem kept_lockLost {pq : List Instr} {s : State} (n : Nat) (cause : Nat) (hs : Kept pq s) : Kept pq (lockLost s n cause) := by
  unfold lockLost
  apply kept_ite
  · exact hs
  · extract_lets +onlyGivenNames x1
    have h1 : Kept pq x1 := by
      unfold x1
      apply kept_leaveTrack
      exact hs
    clear_value x1
    apply kept_acquire
    exact h1

theorem kept_trackEntry {pq : List Instr} {s : State} (hs : Kept pq s) (n : Nat) : Kept pq (trackEntry s n) := by
  unfold trackEntry
  apply kept_ite
  · exact hs
  · extract_lets +onlyGivenNames x1
    clear_value x1
    extract_lets +onlyGivenNames x2
    have h2 : Kept pq x2 := by
      unfold x2
      apply kept_setN
      apply kept_setN
      exact hs
    clear_value x2
    extract_lets +onlyGivenNames x3
    have h3 : Kept pq x3 := by
      unfold x3
      apply kept_bump
      exact h2
    clear_value x3
    extract_lets +onlyGivenNames x4
    have h4 : Kept pq x4 := by
      unfold x4
      apply kept_setCond
      apply kept_setB
      exact h3
    clear_value x4
    extract_lets +onlyGivenNames x5
    clear_value x5
    extract_lets +onlyGivenNames x6
    clear_value x6
    extract_lets +onlyGivenNames x7
    clear_value x7
    extract_lets +onlyGivenNames x8
    have h8 : Kept pq x8 := by
      unfold x8
      apply kept_setEngine
      exact h4
    clear_value x8
    extract_lets +onlyGivenNames x9
    clear_value x9
    extract_lets +onlyGivenNames x10
    have h10 : Kept pq x10 := by
      unfold x10
      apply kept_ite
      · apply kept_setCond
        apply kept_setN
        exact h8
      · exact h8
    clear_value x10
    apply kept_traysRefresh
    apply kept_sealTrackEntry
    exact h10

theorem kept_demapStart {pq : List Instr} {s : State} (n : Nat) (hs : Kept pq s) : Kept pq (demapStart s n) := by
  unfold demapStart
  apply kept_setN
  apply kept_setDsp
  exact hs

theorem kept_attemptFailed {pq : List Instr} {s : State} (hs : Kept pq s) (n : Nat) : Kept pq (attemptFailed s n) := by
  unfold attemptFailed
  extract_lets +onlyGivenNames x1
  clear_value x1
  extract_lets +onlyGivenNames x2
  clear_value x2
  apply kept_acquire
  apply kept_setDsp
  exact hs

theorem kept_ladleLoad {pq : List Instr} {s : State} (hs : Kept pq s) (n : Nat) (lo : Int) (hi : Int) (found : Int) : Kept pq
    (ladleLoad s n lo hi found) := by
  unfold ladleLoad
  apply kept_setI
  exact hs

theorem kept_tapsAdapt {pq : List Instr} {s : State} (hs : Kept pq s) (n : Nat) (grad : List (Int × Int)) : Kept pq (tapsAdapt
    s n grad) := by
  unfold tapsAdapt
  apply kept_setDsp
  exact hs

theorem kept_pilotStep {pq : List Instr} {s : State} (hs : Kept pq s) (n : Nat) (a : Acquired) : Kept pq (pilotStep s n a) :=
    by
  unfold pilotStep
  apply kept_setB
  apply kept_setF
  apply kept_tapsAdapt
  exact hs

theorem kept_execAcquisitionStepDone {pq : List Instr} (n : Nat) (a : Acquired) {s : State} (hs : Kept pq s) : KeptOut pq
    (execAcquisitionStepDone n a s) := by
  unfold execAcquisitionStepDone
  apply keptOut_onUnit
  · exact hs
  · intro t1 h2
    extract_lets +onlyGivenNames x3
    clear_value x3
    extract_lets +onlyGivenNames x4
    clear_value x4
    extract_lets +onlyGivenNames x5
    apply kept_ite
    · exact h2
    · apply kept_ite
      · apply kept_trackEntry
        apply kept_setN
        apply kept_setN
        exact h2
      · apply kept_ite
        · apply kept_attemptFailed
          exact h2
        · extract_lets +onlyGivenNames x6
          have h6 : Kept pq x6 := by
            unfold x6
            apply kept_setDsp
            exact h2
          clear_value x6
          apply kept_ite
          · split
            · apply kept_setB
              exact h6
            · apply kept_tapsAdapt
              exact h6
            · apply kept_pilotStep
              exact h6
            · apply kept_demapStart
              exact h6
          · split
            · exact h6
            · apply kept_ladleLoad
              exact h6
            · apply kept_setB
              apply kept_ladleLoad
              apply kept_setF
              exact h6
            · apply kept_tapsAdapt
              exact h6
            · apply kept_setF
              exact h6
            · apply kept_pilotStep
              exact h6
            · apply kept_demapStart
              exact h6

theorem kept_execAcquisitionStepTimeout {pq : List Instr} (n : Nat) {s : State} (hs : Kept pq s) : KeptOut pq
    (execAcquisitionStepTimeout n s) := by
  unfold execAcquisitionStepTimeout
  apply keptOut_onUnit
  · exact hs
  · intro t1 h2
    apply kept_ite
    · exact h2
    · apply kept_attemptFailed
      apply kept_bump
      exact h2

theorem kept_execRxLolTimer {pq : List Instr} (n : Nat) {s : State} (hs : Kept pq s) : KeptOut pq (execRxLolTimer n s) := by
  unfold execRxLolTimer
  apply keptOut_onUnit
  · exact hs
  · intro t1
    intro h2
    apply kept_ite
    · apply kept_setCond
      exact h2
    · exact h2

theorem kept_execWarmHoldExpired {pq : List Instr} (n : Nat) {s : State} (hs : Kept pq s) : KeptOut pq (execWarmHoldExpired n s)
    := by
  unfold execWarmHoldExpired
  apply keptOut_onUnit
  · exact hs
  · intro t1
    intro h2
    apply kept_ite
    · exact h2
    · apply kept_rxJudge
      apply kept_setDsp
      apply kept_setN
      exact h2

theorem kept_execWarmSnapshot {pq : List Instr} (n : Nat) (tone : Nat) {s : State} (hs : Kept pq s) : KeptOut pq
    (execWarmSnapshot n tone s) := by
  unfold execWarmSnapshot
  apply keptOut_onUnit
  · exact hs
  · intro t1 h2
    apply kept_ite
    · exact h2
    · extract_lets +onlyGivenNames x3
      clear_value x3
      extract_lets +onlyGivenNames x4
      clear_value x4
      apply kept_setDsp
      exact h2

theorem kept_reacquire {pq : List Instr} (n : Nat) (code : Nat) {s : State} (hs : Kept pq s) : Kept2 pq (reacquire n code s) := by
  unfold reacquire
  apply kept2_ite
  · apply kept2_mk
    exact hs
  · apply kept2_ite
    · apply kept2_mk
      exact hs
    · apply kept2_ite
      · apply kept2_mk
        exact hs
      · extract_lets +onlyGivenNames x1
        have h1 : Kept pq x1 := by
          unfold x1
          apply kept_leaveTrack
          exact hs
        clear_value x1
        apply kept2_mk
        apply kept_acquire
        exact h1

theorem kept_execReacquire {pq : List Instr} (k : Nat) (n : Nat) (code : Nat) {s : State} (hs : Kept pq s) : KeptOut pq
    (execReacquire k n code s) := by
  unfold execReacquire
  apply keptOut_next
  apply kept_hostCmd
  · exact hs
  · intro t1
    intro h2
    apply kept_reacquire
    exact h2

theorem kept_ladleFadeTo {pq : List Instr} {s : State} (n : Nat) (d : Int) (hs : Kept pq s) : Kept pq (ladleFadeTo s n d) := by
  unfold ladleFadeTo
  extract_lets +onlyGivenNames x1
  clear_value x1
  extract_lets +onlyGivenNames x2
  clear_value x2
  apply kept_setI
  apply kept_setDsp
  exact hs

theorem kept_ladleTrack {pq : List Instr} {s : State} (hs : Kept pq s) (n : Nat) : Kept pq (ladleTrack s n) := by
  unfold ladleTrack
  extract_lets +onlyGivenNames x1
  clear_value x1
  extract_lets +onlyGivenNames x2
  clear_value x2
  apply kept_ite
  · apply kept_bump
    apply kept_ladleFadeTo
    exact hs
  · extract_lets +onlyGivenNames x3
    clear_value x3
    extract_lets +onlyGivenNames x4
    have h4 : Kept pq x4 := by
      unfold x4
      apply kept_setCond
      exact hs
    clear_value x4
    apply kept_ite
    · exact h4
    · apply kept_bump
      apply kept_ladleFadeTo
      exact h4

theorem kept_execLadleTrackUpdate {pq : List Instr} (n : Nat) {s : State} (hs : Kept pq s) : KeptOut pq (execLadleTrackUpdate
    n s) := by
  unfold execLadleTrackUpdate
  apply keptOut_onUnit
  · exact hs
  · intro t1 h2
    apply kept_ite
    · exact h2
    · apply kept_ite
      · apply kept_setDsp
        exact h2
      · apply kept_ladleTrack
        exact h2

theorem kept_execLadleFadeDone {pq : List Instr} (n : Nat) {s : State} (hs : Kept pq s) : KeptOut pq (execLadleFadeDone n s)
    := by
  unfold execLadleFadeDone
  apply keptOut_onUnit
  · exact hs
  · intro t1 h2
    extract_lets +onlyGivenNames x3
    clear_value x3
    apply kept_ite
    · exact h2
    · extract_lets +onlyGivenNames x4
      have h4 : Kept pq x4 := by
        unfold x4
        apply kept_setDsp
        exact h2
      clear_value x4
      apply kept_ite
      · apply kept_ladleTrack
        exact h4
      · exact h4

theorem kept_dispersionCopied {pq : List Instr} {s : State} (hs : Kept pq s) (n : Nat) : Kept pq (dispersionCopied s n) := by
  unfold dispersionCopied
  extract_lets +onlyGivenNames x1
  clear_value x1
  extract_lets +onlyGivenNames x2
  clear_value x2
  extract_lets +onlyGivenNames x3
  clear_value x3
  extract_lets +onlyGivenNames x4
  clear_value x4
  apply kept_ite
  · exact hs
  · split
    · apply kept_ite
      · apply kept_ladleFadeTo
        exact hs
      · apply kept_acquire
        apply kept_leaveTrack
        exact hs
    · extract_lets +onlyGivenNames x5
      have h5 : Kept pq x5 := by
        unfold x5
        apply kept_acquire
        exact hs
      clear_value x5
      apply kept_setI
      apply kept_setDsp
      exact h5
    · exact hs
    · apply kept_setDsp
      exact hs

theorem kept_whiskCopied {pq : List Instr} {s : State} (hs : Kept pq s) (n : Nat) : Kept pq (whiskCopied s n) := by
  unfold whiskCopied
  extract_lets +onlyGivenNames x1
  clear_value x1
  extract_lets +onlyGivenNames x2
  clear_value x2
  apply kept_ite
  · apply kept_setDsp
    exact hs
  · apply kept_ite
    · exact hs
    · extract_lets +onlyGivenNames x3
      clear_value x3
      apply kept_setN
      apply kept_setDsp
      exact hs

theorem kept_execTapGating {pq : List Instr} (n : Nat) (blind : List (Int × Int)) (aided : List (Int × Int)) (peaks : List
    Nat) {s : State} (hs : Kept pq s) : KeptOut pq (execTapGating n blind aided peaks s) := by
  unfold execTapGating
  apply keptOut_onUnit
  · exact hs
  · intro t1 h2
    apply kept_ite
    · exact h2
    · extract_lets +onlyGivenNames x3
      clear_value x3
      extract_lets +onlyGivenNames x4
      have h4 : Kept pq x4 := by
        unfold x4
        apply kept_ite
        · exact h2
        · apply kept_tapsAdapt
          exact h2
      clear_value x4
      extract_lets +onlyGivenNames x5
      clear_value x5
      extract_lets +onlyGivenNames x6
      clear_value x6
      extract_lets +onlyGivenNames x7
      clear_value x7
      extract_lets +onlyGivenNames x8
      clear_value x8
      apply kept_setN
      apply kept_setDsp
      exact h4

theorem kept_execWhiskEstimates {pq : List Instr} (n : Nat) (e : WhiskReport) {s : State} (hs : Kept pq s) : KeptOut pq
    (execWhiskEstimates n e s) := by
  unfold execWhiskEstimates
  apply keptOut_onUnit
  · exact hs
  · intro t1 h2
    apply kept_ite
    · exact h2
    · extract_lets +onlyGivenNames x3
      have h3 : Kept pq x3 := by
        unfold x3
        apply kept_peakF
        apply kept_setF
        apply kept_setF
        apply kept_setF
        exact h2
      clear_value x3
      extract_lets +onlyGivenNames x4
      have h4 : Kept pq x4 := by
        unfold x4
        apply kept_setF
        apply kept_setB
        apply kept_setF
        exact h3
      clear_value x4
      extract_lets +onlyGivenNames x5
      have h5 : Kept pq x5 := by
        unfold x5
        apply kept_setF
        apply kept_bumpBy
        exact h4
      clear_value x5
      apply kept_setDsp
      apply kept_setF
      exact h5

theorem kept_execSingularityCheck {pq : List Instr} (n : Nat) (run : List (List (Int × Int) × List (Int × Int))) {s : State}
    (hs : Kept pq s) : KeptOut pq (execSingularityCheck n run s) := by
  unfold execSingularityCheck
  apply keptOut_onUnit
  · exact hs
  · intro t1 h2
    extract_lets +onlyGivenNames x3
    clear_value x3
    apply kept_ite
    · exact h2
    · apply kept_ite
      · apply kept_lockLost
        exact h2
      · apply kept_ite
        · apply kept_setDsp
          apply kept_bump
          exact h2
        · exact h2

theorem kept_execTimingLockLoss {pq : List Instr} (n : Nat) {s : State} (hs : Kept pq s) : KeptOut pq (execTimingLockLoss n s)
    := by
  unfold execTimingLockLoss
  apply keptOut_onUnit
  · exact hs
  · intro t1
    intro h2
    apply kept_ite
    · apply kept_lockLost
      apply kept_setB
      exact h2
    · exact h2

theorem kept_execPilotSyncLoss {pq : List Instr} (n : Nat) {s : State} (hs : Kept pq s) : KeptOut pq (execPilotSyncLoss n s) := by
  unfold execPilotSyncLoss
  apply keptOut_onUnit
  · exact hs
  · intro t1
    intro h2
    apply kept_lockLost
    exact h2

theorem kept_execFrequencyOutOfRange {pq : List Instr} (n : Nat) {s : State} (hs : Kept pq s) : KeptOut pq
    (execFrequencyOutOfRange n s) := by
  unfold execFrequencyOutOfRange
  apply keptOut_onUnit
  · exact hs
  · intro t1
    intro h2
    apply kept_lockLost
    exact h2

theorem kept_phaseModes {pq : List Instr} {s : State} (hs : Kept pq s) (p : Nat) (members : List Nat) : Kept pq (phaseModes s
    p members) := by
  unfold phaseModes
  apply kept_foldl
  · exact hs
  · intro t1 t2 h3
    apply kept_setN
    exact h3

theorem kept_residualsReport {pq : List Instr} {s : State} (hs : Kept pq s) (p : Nat) (res : List (Nat × Nat)) : Kept pq
    (residualsReport s p res) := by
  unfold residualsReport
  apply kept_foldl
  · exact hs
  · intro t1 t2 h3
    extract_lets +onlyGivenNames x4
    clear_value x4
    apply kept_ite
    · apply kept_setF
      exact h3
    · split
      · apply kept_setF
        exact h3
      · exact h3

theorem kept_jointForm {pq : List Instr} {s : State} (hs : Kept pq s) (p : Nat) (js : List Nat) : Kept pq (jointForm s p js)
    := by
  unfold jointForm
  extract_lets +onlyGivenNames x1
  have h1 : Kept pq x1 := by
    unfold x1
    apply kept_setB
    apply kept_setN
    apply kept_phaseModes
    exact hs
  clear_value x1
  extract_lets +onlyGivenNames x2
  clear_value x2
  apply kept_foldl
  · exact h1
  · intro t3 t4 h5
    extract_lets +onlyGivenNames x6
    clear_value x6
    apply kept_setCond
    apply kept_setDsp
    exact h5

theorem kept_jointStop {pq : List Instr} {s : State} (hs : Kept pq s) (p : Nat) (left : List Nat) (alarm : Bool) : Kept pq
    (jointStop s p left alarm) := by
  unfold jointStop
  apply kept_ite
  · exact hs
  · extract_lets +onlyGivenNames x1
    have h1 : Kept pq x1 := by
      unfold x1
      apply kept_setB
      apply kept_setN
      apply kept_phaseModes
      exact hs
    clear_value x1
    apply kept_ite
    · exact h1
    · apply kept_foldl
      · apply kept_bump
        exact h1
      · intro t2 t3 h4
        apply kept_setCond
        exact h4

theorem kept_execJointQualifyTest {pq : List Instr} (p : Nat) (fits : List (Nat × List Nat)) {s : State} (hs : Kept pq s) :
    KeptOut pq (execJointQualifyTest p fits s) := by
  unfold execJointQualifyTest
  apply keptOut_onUnit
  · exact hs
  · intro t1 h2
    apply kept_ite
    · exact h2
    · extract_lets +onlyGivenNames x3
      clear_value x3
      extract_lets +onlyGivenNames x4
      clear_value x4
      extract_lets +onlyGivenNames x5
      have h5 : Kept pq x5 := by
        unfold x5
        apply kept_residualsReport
        exact h2
      clear_value x5
      apply kept_ite
      · apply kept_jointForm
        exact h5
      · apply kept_jointStop
        exact h5

theorem kept_pilotsTaken {pq : List Instr} {s : State} (hs : Kept pq s) (n : Nat) (pilots : List PilotSum) : Kept pq
    (pilotsTaken s n pilots) := by
  unfold pilotsTaken
  apply kept_ite
  · exact hs
  · extract_lets +onlyGivenNames x1
    clear_value x1
    extract_lets +onlyGivenNames x2
    clear_value x2
    extract_lets +onlyGivenNames x3
    clear_value x3
    extract_lets +onlyGivenNames x4
    clear_value x4
    extract_lets +onlyGivenNames x5
    clear_value x5
    extract_lets +onlyGivenNames x6
    clear_value x6
    apply kept_setDsp
    exact hs

theorem kept_execPilotGroupFit {pq : List Instr} (p : Nat) (residuals : List (Nat × Nat)) (slips : List (Nat × Nat)) (pilots :
    List PilotSum) {s : State} (hs : Kept pq s) : KeptOut pq (execPilotGroupFit p residuals slips pilots s) := by
  unfold execPilotGroupFit
  apply keptOut_onUnit
  · exact hs
  · intro t1 h2
    extract_lets +onlyGivenNames x3
    have h3 : Kept pq x3 := by
      unfold x3
      apply kept_foldl
      · exact h2
      · intro t4 t5 h6
        extract_lets +onlyGivenNames x7
        apply kept_ite
        · apply kept_countEv
          apply kept_bumpBy
          exact h6
        · exact h6
    clear_value x3
    extract_lets +onlyGivenNames x8
    have h8 : Kept pq x8 := by
      unfold x8
      apply kept_foldl
      · exact h3
      · intro t9 t10 h11
        apply kept_ite
        · apply kept_pilotsTaken
          exact h11
        · exact h11
    clear_value x8
    extract_lets +onlyGivenNames x12
    have h12 : Kept pq x12 := by
      unfold x12
      apply kept_residualsReport
      exact h8
    clear_value x12
    extract_lets +onlyGivenNames x13
    clear_value x13
    apply kept_ite
    · apply kept_jointStop
      exact h12
    · extract_lets +onlyGivenNames x14
      clear_value x14
      apply kept_ite
      · exact h12
      · apply kept_ite
        · apply kept_jointStop
          exact h12
        · apply kept_setN
          apply kept_phaseModes
          exact h12

theorem kept_execQualityUpdate {pq : List Instr} (n : Nat) (samples : List QualitySample) {s : State} (hs : Kept pq s) : KeptOut
    pq (execQualityUpdate n samples s) := by
  unfold execQualityUpdate
  apply keptOut_onUnit
  · exact hs
  · intro t1
    intro h2
    apply kept_ite
    · exact h2
    · extract_lets +onlyGivenNames x3
      clear_value x3
      extract_lets +onlyGivenNames x4
      clear_value x4
      extract_lets +onlyGivenNames x5
      clear_value x5
      extract_lets +onlyGivenNames x6
      clear_value x6
      extract_lets +onlyGivenNames x7
      clear_value x7
      extract_lets +onlyGivenNames x8
      clear_value x8
      extract_lets +onlyGivenNames x9
      clear_value x9
      extract_lets +onlyGivenNames x10
      have h10 : Kept pq x10 := by
        unfold x10
        apply kept_setF
        apply kept_setF
        apply kept_setF
        exact h2
      clear_value x10
      extract_lets +onlyGivenNames x11
      have h11 : Kept pq x11 := by
        unfold x11
        apply kept_setF
        apply kept_setF
        apply kept_setF
        exact h10
      clear_value x11
      extract_lets +onlyGivenNames x12
      have h12 : Kept pq x12 := by
        unfold x12
        apply kept_foldl
        · exact h11
        · intro t13
          intro t14
          intro h15
          extract_lets +onlyGivenNames x16
          clear_value x16
          apply kept_ite
          · extract_lets +onlyGivenNames x17
            clear_value x17
            apply kept_setF
            apply kept_setF
            apply kept_setF
            apply kept_setF
            exact h15
          · exact h15
      clear_value x12
      extract_lets +onlyGivenNames x18
      clear_value x18
      extract_lets +onlyGivenNames x19
      clear_value x19
      extract_lets +onlyGivenNames x20
      clear_value x20
      extract_lets +onlyGivenNames x21
      clear_value x21
      apply kept_setEngine
      exact h12

theorem kept_execQmarginTimer {pq : List Instr} (n : Nat) (low : Bool) {s : State} (hs : Kept pq s) : KeptOut pq
    (execQmarginTimer n low s) := by
  unfold execQmarginTimer
  apply keptOut_onUnit
  · exact hs
  · intro t1
    intro h2
    extract_lets +onlyGivenNames x3
    clear_value x3
    apply kept_ite
    · exact h2
    · apply kept_ite
      · apply kept_ite
        · apply kept_setCond
          exact h2
        · exact h2
      · apply kept_ite
        · apply kept_setCond
          exact h2
        · exact h2

theorem kept_rxLatch {pq : List Instr} {s : State} (hs : Kept pq s) : Kept pq (rxLatch s) := by
  unfold rxLatch
  apply kept_foldl
  · exact hs
  · intro t1
    intro t2
    intro h3
    extract_lets +onlyGivenNames x4
    clear_value x4
    extract_lets +onlyGivenNames x5
    clear_value x5
    extract_lets +onlyGivenNames x6
    extract_lets +onlyGivenNames x7
    clear_value x7
    extract_lets +onlyGivenNames x8
    clear_value x8
    extract_lets +onlyGivenNames x9
    extract_lets +onlyGivenNames x10
    have h10 : ∀ y10_1, ∀ y10_2, ∀ y10_3, Kept pq y10_3 → Kept pq (x10 y10_1 y10_2 y10_3) := by
      unfold x10
      intro t11
      intro t12
      intro t13
      intro h14
      apply kept_setF
      exact h14
    clear_value x10
    extract_lets +onlyGivenNames x15
    have h15 : Kept pq x15 := by
      unfold x15
      apply h10
      apply h10
      exact h3
    clear_value x15
    extract_lets +onlyGivenNames x16
    have h16 : Kept pq x16 := by
      unfold x16
      apply h10
      apply h10
      exact h15
    clear_value x16
    extract_lets +onlyGivenNames x17
    have h17 : Kept pq x17 := by
      unfold x17
      apply kept_setN
      apply kept_setN
      exact h16
    clear_value x17
    extract_lets +onlyGivenNames x18
    have h18 : Kept pq x18 := by
      unfold x18
      apply h10
      apply h10
      exact h17
    clear_value x18
    extract_lets +onlyGivenNames x19
    have h19 : Kept pq x19 := by
      unfold x19
      apply kept_setN
      exact h18
    clear_value x19
    extract_lets +onlyGivenNames x20
    have h20 : Kept pq x20 := by
      unfold x20
      apply kept_foldl
      · exact h19
      · intro t21
        intro t22
        intro h23
        extract_lets +onlyGivenNames x24
        clear_value x24
        extract_lets +onlyGivenNames x25
        clear_value x25
        extract_lets +onlyGivenNames x26
        have h26 : Kept pq x26 := by
          unfold x26
          apply h10
          apply h10
          exact h23
        clear_value x26
        extract_lets +onlyGivenNames x27
        have h27 : Kept pq x27 := by
          unfold x27
          apply h10
          apply h10
          exact h26
        clear_value x27
        apply h10
        exact h27
    clear_value x20
    apply kept_setDsp
    exact h20

theorem kept_clearRxCounters {pq : List Instr} {s : State} (hs : Kept pq s) : Kept2 pq (clearRxCounters s) := by
  unfold clearRxCounters
  apply kept2_mk
  apply kept_clearObjs
  exact hs

theorem kept_execClearRxCounters {pq : List Instr} (k : Nat) {s : State} (hs : Kept pq s) : KeptOut pq (execClearRxCounters k s)
    := by
  unfold execClearRxCounters
  apply keptOut_next
  apply kept_hostCmd
  · exact hs
  · intro t1
    intro h2
    apply kept_clearRxCounters
    exact h2

end Sys2Proof.Machine
end

