-- ==== Sys2Proof/Laws/KeptOptics.lean ====
section
/-! SUPPORT. Every operation of Machine/Optics.lean keeps the queue and the well-formedness of the state. -/

namespace Sys2Proof.Machine

theorem kept_setFront {pq : List Instr} {s : State} (n : Nat) (x : Front) (hs : Kept pq s) : Kept pq (State.setFront s n x) := by
  unfold State.setFront
  apply kept_setEngine
  exact hs

theorem kept_trafficJudge {pq : List Instr} {s : State} (hs : Kept pq s) : Kept pq (trafficJudge s) := by
  unfold trafficJudge
  extract_lets +onlyGivenNames x1
  clear_value x1
  apply kept_ite
  · apply kept_enter
    exact hs
  · apply kept_ite
    · apply kept_enter
      exact hs
    · exact hs

theorem kept_restartBlocks {pq : List Instr} {s : State} (n : Nat) (hs : Kept pq s) : Kept pq (restartBlocks s n) := by
  unfold restartBlocks
  extract_lets +onlyGivenNames x1
  clear_value x1
  extract_lets +onlyGivenNames x2
  clear_value x2
  extract_lets +onlyGivenNames x3
  clear_value x3
  extract_lets +onlyGivenNames x4
  clear_value x4
  extract_lets +onlyGivenNames x5
  have h5 : Kept pq x5 := by
    unfold x5
    apply kept_setN
    apply kept_setEngine
    exact hs
  clear_value x5
  extract_lets +onlyGivenNames x6
  have h6 : Kept pq x6 := by
    unfold x6
    split
    · split
      · apply kept_setN
        exact h5
      · exact h5
    · exact h5
  clear_value x6
  apply kept_sealRestart
  exact h6

theorem kept_goDark {pq : List Instr} {s : State} (n : Nat) (hs : Kept pq s) : Kept pq (goDark s n) := by
  unfold goDark
  apply kept_setN
  apply kept_setFront
  exact hs

theorem kept_startRamp {pq : List Instr} {s : State} (n : Nat) (lo : Int) (hi : Int) (micros : Nat) (dark : Bool) (hs : Kept pq
    s) : Kept pq (startRamp s n lo hi micros dark) := by
  unfold startRamp
  apply kept_setN
  apply kept_setFront
  exact hs

theorem kept_launchJudge {pq : List Instr} {s : State} (n : Nat) (hs : Kept pq s) : Kept pq (launchJudge s n) := by
  unfold launchJudge
  extract_lets +onlyGivenNames x1
  clear_value x1
  extract_lets +onlyGivenNames x2
  clear_value x2
  split
  · apply kept_ite
    · apply kept_startRamp
      exact hs
    · apply kept_setN
      exact hs
  · apply kept_ite
    · apply kept_goDark
      exact hs
    · apply kept_ite
      · apply kept_ite
        · apply kept_startRamp
          exact hs
        · exact hs
      · apply kept_ite
        · exact hs
        · apply kept_startRamp
          exact hs

theorem kept_execLaunchRampDone {pq : List Instr} (n : Nat) {s : State} (hs : Kept pq s) : KeptOut pq (execLaunchRampDone n s)
    := by
  unfold execLaunchRampDone
  apply keptOut_onUnit
  · exact hs
  · intro t1
    intro h2
    split
    · exact h2
    · apply kept_ite
      · apply kept_goDark
        exact h2
      · apply kept_setN
        apply kept_setFront
        exact h2

theorem kept_launchCopied {pq : List Instr} {old : State} {s : State} (n : Nat) (hs : Kept pq s) : Kept pq (launchCopied old s
    n) := by
  unfold launchCopied
  apply kept_ite
  · exact hs
  · split
    · exact hs
    · extract_lets +onlyGivenNames x1
      clear_value x1
      split
      · apply kept_ite
        · apply kept_startRamp
          exact hs
        · apply kept_ite
          · apply kept_startRamp
            exact hs
          · apply kept_setN
            apply kept_startRamp
            exact hs
      · extract_lets +onlyGivenNames x2
        have h2 : Kept pq x2 := by
          unfold x2
          apply kept_startRamp
          exact hs
        clear_value x2
        apply kept_setN
        exact h2

theorem kept_lineAbsent {pq : List Instr} {s : State} (hs : Kept pq s) (n : Nat) (power : F32) : Kept pq (lineAbsent s n
    power) := by
  unfold lineAbsent
  extract_lets +onlyGivenNames x1
  clear_value x1
  extract_lets +onlyGivenNames x2
  have h2 : Kept pq x2 := by
    unfold x2
    apply kept_setF
    apply kept_setN
    exact hs
  clear_value x2
  extract_lets +onlyGivenNames x3
  have h3 : Kept pq x3 := by
    unfold x3
    apply kept_ite
    · exact h2
    · apply kept_bump
      exact h2
  clear_value x3
  extract_lets +onlyGivenNames x4
  have h4 : Kept pq x4 := by
    unfold x4
    apply kept_ite
    · apply kept_setCond
      exact h3
    · exact h3
  clear_value x4
  extract_lets +onlyGivenNames x5
  clear_value x5
  extract_lets +onlyGivenNames x6
  have h6 : Kept pq x6 := by
    unfold x6
    apply kept_setB
    apply kept_setFront
    exact h4
  clear_value x6
  apply kept_launchJudge
  apply kept_rxJudge
  exact h6

theorem kept_execCombLineLost {pq : List Instr} (n : Nat) (power : F32) {s : State} (hs : Kept pq s) : KeptOut pq
    (execCombLineLost n power s) := by
  unfold execCombLineLost
  apply keptOut_onUnit
  · exact hs
  · intro t1 h2
    apply kept_ite
    · exact h2
    · apply kept_lineAbsent
      exact h2

theorem kept_execCombLineReturn {pq : List Instr} (n : Nat) (power : F32) {s : State} (hs : Kept pq s) : KeptOut pq
    (execCombLineReturn n power s) := by
  unfold execCombLineReturn
  apply keptOut_onUnit
  · exact hs
  · intro t1
    intro h2
    apply kept_ite
    · exact h2
    · extract_lets +onlyGivenNames x3
      have h3 : Kept pq x3 := by
        unfold x3
        apply kept_setF
        apply kept_setN
        exact h2
      clear_value x3
      apply kept_launchJudge
      apply kept_rxJudge
      exact h3

theorem kept_execCombLineStable {pq : List Instr} (n : Nat) {s : State} (hs : Kept pq s) : KeptOut pq (execCombLineStable n s)
    := by
  unfold execCombLineStable
  apply keptOut_onUnit
  · exact hs
  · intro t1 h2
    apply kept_ite
    · exact h2
    · extract_lets +onlyGivenNames x3
      have h3 : Kept pq x3 := by
        unfold x3
        apply kept_setCond
        exact h2
      clear_value x3
      extract_lets +onlyGivenNames x4
      clear_value x4
      extract_lets +onlyGivenNames x5
      have h5 : Kept pq x5 := by
        unfold x5
        apply kept_setFront
        exact h3
      clear_value x5
      apply kept_launchJudge
      apply kept_rxJudge
      exact h5

theorem kept_biasTo {pq : List Instr} {s : State} (hs : Kept pq s) (n : Nat) (bias : List Int) : Kept pq (biasTo s n bias) :=
    by
  unfold biasTo
  apply kept_foldl
  · exact hs
  · intro t1 t2 h3
    apply kept_setI
    exact h3

theorem kept_execBiasLockAchieved {pq : List Instr} (n : Nat) (bias : List Int) {s : State} (hs : Kept pq s) : KeptOut pq
    (execBiasLockAchieved n bias s) := by
  unfold execBiasLockAchieved
  apply keptOut_onUnit
  · exact hs
  · intro t1 h2
    apply kept_ite
    · exact h2
    · apply kept_launchJudge
      apply kept_setB
      apply kept_biasTo
      apply kept_setFront
      exact h2

theorem kept_execBiasErrorTimer {pq : List Instr} (n : Nat) (out : Bool) {s : State} (hs : Kept pq s) : KeptOut pq
    (execBiasErrorTimer n out s) := by
  unfold execBiasErrorTimer
  apply keptOut_onUnit
  · exact hs
  · intro t1
    intro h2
    apply kept_ite
    · exact h2
    · apply kept_ite
      · apply kept_ite
        · exact h2
        · apply kept_setB
          apply kept_bump
          apply kept_setCond
          exact h2
      · apply kept_ite
        · apply kept_setB
          apply kept_setCond
          exact h2
        · exact h2

theorem kept_heatersTo {pq : List Instr} {s : State} (hs : Kept pq s) (n : Nat) (tx : F32) (lo : F32) : Kept pq (heatersTo s n
    tx lo) := by
  unfold heatersTo
  apply kept_ite
  · exact hs
  · apply kept_setF
    apply kept_setF
    exact hs

theorem kept_execHeaterLimitTimer {pq : List Instr} (n : Nat) (limit : Bool) (tx : F32) (lo : F32) {s : State} (hs : Kept pq
    s) : KeptOut pq (execHeaterLimitTimer n limit tx lo s) := by
  unfold execHeaterLimitTimer
  apply keptOut_onUnit
  · exact hs
  · intro t1 h2
    apply kept_ite
    · exact h2
    · extract_lets +onlyGivenNames x3
      have h3 : Kept pq x3 := by
        unfold x3
        apply kept_heatersTo
        exact h2
      clear_value x3
      extract_lets +onlyGivenNames x4
      clear_value x4
      extract_lets +onlyGivenNames x5
      clear_value x5
      extract_lets +onlyGivenNames x6
      clear_value x6
      apply kept_ite
      · apply kept_ite
        · apply kept_setCond
          exact h3
        · exact h3
      · apply kept_ite
        · apply kept_setCond
          exact h3
        · exact h3

theorem kept_execLosSignalTimer {pq : List Instr} (n : Nat) (low : Bool) (power : F32) {s : State} (hs : Kept pq s) : KeptOut pq
    (execLosSignalTimer n low power s) := by
  unfold execLosSignalTimer
  apply keptOut_onUnit
  · exact hs
  · intro t1
    intro h2
    extract_lets +onlyGivenNames x3
    have h3 : Kept pq x3 := by
      unfold x3
      apply kept_setF
      exact h2
    clear_value x3
    extract_lets +onlyGivenNames x4
    clear_value x4
    apply kept_ite
    · exact h3
    · apply kept_ite
      · apply kept_ite
        · apply kept_rxJudge
          apply kept_setCond
          exact h3
        · exact h3
      · apply kept_ite
        · apply kept_rxJudge
          apply kept_setCond
          exact h3
        · exact h3

theorem kept_execRxOverloadTimer {pq : List Instr} (n : Nat) (high : Bool) (power : F32) {s : State} (hs : Kept pq s) : KeptOut
    pq (execRxOverloadTimer n high power s) := by
  unfold execRxOverloadTimer
  apply keptOut_onUnit
  · exact hs
  · intro t1
    intro h2
    extract_lets +onlyGivenNames x3
    have h3 : Kept pq x3 := by
      unfold x3
      apply kept_setF
      exact h2
    clear_value x3
    apply kept_ite
    · exact h3
    · apply kept_ite
      · apply kept_ite
        · apply kept_setCond
          exact h3
        · exact h3
      · apply kept_ite
        · apply kept_setCond
          exact h3
        · exact h3

theorem kept_agcChannel {pq : List Instr} {s : State} (n : Nat) (j : Nat) (rms : F32) (hs : Kept pq s) : Kept pq (agcChannel s n
    j rms) := by
  unfold agcChannel
  extract_lets +onlyGivenNames x1
  clear_value x1
  extract_lets +onlyGivenNames x2
  clear_value x2
  extract_lets +onlyGivenNames x3
  clear_value x3
  extract_lets +onlyGivenNames x4
  clear_value x4
  extract_lets +onlyGivenNames x5
  extract_lets +onlyGivenNames x6
  extract_lets +onlyGivenNames x7
  clear_value x7
  extract_lets +onlyGivenNames x8
  have h8 : ∀ y8_1, Kept pq (x8 y8_1) := by
    unfold x8
    intro t9
    extract_lets +onlyGivenNames x10
    clear_value x10
    apply kept_bump
    apply kept_setN
    apply kept_setN
    exact hs
  clear_value x8
  apply kept_ite
  · apply h8
  · apply kept_ite
    · apply h8
    · extract_lets +onlyGivenNames x11
      clear_value x11
      apply kept_setN
      exact hs

theorem kept_lightMeasured {pq : List Instr} {s : State} (hs : Kept pq s) (n : Nat) (light : LightReading) : Kept pq
    (lightMeasured s n light) := by
  unfold lightMeasured
  extract_lets +onlyGivenNames x1
  clear_value x1
  extract_lets +onlyGivenNames x2
  have h2 : Kept pq x2 := by
    unfold x2
    apply kept_setF
    apply kept_setF
    exact hs
  clear_value x2
  extract_lets +onlyGivenNames x3
  have h3 : Kept pq x3 := by
    unfold x3
    apply kept_setF
    apply kept_setF
    exact h2
  clear_value x3
  extract_lets +onlyGivenNames x4
  have h4 : Kept pq x4 := by
    unfold x4
    apply kept_ite
    · apply kept_biasTo
      exact h3
    · exact h3
  clear_value x4
  extract_lets +onlyGivenNames x5
  have h5 : Kept pq x5 := by
    unfold x5
    apply kept_heatersTo
    exact h4
  clear_value x5
  apply kept_ite
  · exact h5
  · apply kept_setI
    apply kept_setI
    apply kept_setI
    exact h5

theorem kept_execAgcWindowEnd {pq : List Instr} (n : Nat) (rms : List F32) (means : List (List (List Int))) (clips : List Nat)
    (light : LightReading) {s : State} (hs : Kept pq s) : KeptOut pq (execAgcWindowEnd n rms means clips light s) := by
  unfold execAgcWindowEnd
  apply keptOut_onUnit
  · exact hs
  · intro t1 h2
    apply kept_ite
    · exact h2
    · extract_lets +onlyGivenNames x3
      have h3 : Kept pq x3 := by
        unfold x3
        apply kept_lightMeasured
        exact h2
      clear_value x3
      extract_lets +onlyGivenNames x4
      clear_value x4
      extract_lets +onlyGivenNames x5
      clear_value x5
      extract_lets +onlyGivenNames x6
      have h6 : Kept pq x6 := by
        unfold x6
        apply kept_setFront
        exact h3
      clear_value x6
      extract_lets +onlyGivenNames x7
      have h7 : Kept pq x7 := by
        unfold x7
        apply kept_dcRestart
        exact h6
      clear_value x7
      extract_lets +onlyGivenNames x8
      have h8 : Kept pq x8 := by
        unfold x8
        apply kept_foldl
        · exact h7
        · intro t9 t10 h11
          apply kept_countEv
          exact h11
      clear_value x8
      extract_lets +onlyGivenNames x12
      clear_value x12
      apply kept_foldl
      · exact h8
      · intro t13 t14 h15
        extract_lets +onlyGivenNames x16
        have h16 : Kept pq x16 := by
          unfold x16
          apply kept_setF
          exact h15
        clear_value x16
        apply kept_ite
        · apply kept_agcChannel
          exact h16
        · exact h16

theorem kept_manualGain {pq : List Instr} {s : State} (n : Nat) (hs : Kept pq s) : Kept pq (manualGain s n) := by
  unfold manualGain
  apply kept_ite
  · exact hs
  · apply kept_foldl
    · exact hs
    · intro t1
      intro t2
      intro h3
      apply kept_setN
      apply kept_setN
      exact h3

theorem kept_frontLatch {pq : List Instr} {s : State} (hs : Kept pq s) : Kept pq (frontLatch s) := by
  unfold frontLatch
  apply kept_foldl
  · exact hs
  · intro t1 t2 h3
    extract_lets +onlyGivenNames x4
    clear_value x4
    extract_lets +onlyGivenNames x5
    have h5 : Kept pq x5 := by
      unfold x5
      apply kept_foldl
      · exact h3
      · intro t6 t7 h8
        apply kept_setN
        exact h8
    clear_value x5
    extract_lets +onlyGivenNames x9
    clear_value x9
    apply kept_setEngine
    apply kept_setN
    exact h5

theorem kept_skewJudge {pq : List Instr} {s : State} (n : Nat) (hs : Kept pq s) : Kept pq (skewJudge s n) := by
  unfold skewJudge
  extract_lets +onlyGivenNames x1
  clear_value x1
  apply kept_setCond
  apply kept_setCond
  exact hs

theorem kept_filterFade {pq : List Instr} {old : State} {s : State} (n : Nat) (tx : Bool) (hs : Kept pq s) : Kept pq (filterFade
    old s n tx) := by
  unfold filterFade
  extract_lets +onlyGivenNames x1
  clear_value x1
  extract_lets +onlyGivenNames x2
  clear_value x2
  apply kept_ite
  · exact hs
  · extract_lets +onlyGivenNames x3
    clear_value x3
    apply kept_ite
    · apply kept_setFront
      exact hs
    · apply kept_setFront
      exact hs

theorem kept_frontCopied {pq : List Instr} {old : State} {s : State} (n : Nat) (hs : Kept pq s) : Kept pq (frontCopied old s n)
    := by
  unfold frontCopied
  apply kept_launchCopied
  apply kept_skewJudge
  apply kept_filterFade
  apply kept_filterFade
  exact hs

theorem kept_execFrontEndFadeDone {pq : List Instr} (n : Nat) (tx : Bool) {s : State} (hs : Kept pq s) : KeptOut pq
    (execFrontEndFadeDone n tx s) := by
  unfold execFrontEndFadeDone
  apply keptOut_onUnit
  · exact hs
  · intro t1
    intro h2
    extract_lets +onlyGivenNames x3
    clear_value x3
    apply kept_setFront
    exact h2

theorem kept_carrierStart {pq : List Instr} {s : State} (hs : Kept pq s) (n : Nat) : Kept pq (carrierStart s n) := by
  unfold carrierStart
  extract_lets +onlyGivenNames x1
  have h1 : Kept pq x1 := by
    unfold x1
    apply kept_ite
    · apply kept_restartBlocks
      exact hs
    · exact hs
  clear_value x1
  extract_lets +onlyGivenNames x2
  have h2 : Kept pq x2 := by
    unfold x2
    apply kept_trafficJudge
    exact h1
  clear_value x2
  extract_lets +onlyGivenNames x3
  have h3 : Kept pq x3 := by
    unfold x3
    apply kept_ite
    · apply kept_setN
      exact h2
    · exact h2
  clear_value x3
  extract_lets +onlyGivenNames x4
  have h4 : Kept pq x4 := by
    unfold x4
    apply kept_ite
    · apply kept_rxStart
      exact h3
    · exact h3
  clear_value x4
  apply kept_traysRefresh
  apply kept_launchJudge
  exact h4

theorem kept_carrierStop {pq : List Instr} {s : State} (hs : Kept pq s) (n : Nat) : Kept pq (carrierStop s n) := by
  unfold carrierStop
  extract_lets +onlyGivenNames x1
  have h1 : Kept pq x1 := by
    unfold x1
    apply kept_dcNote
    apply kept_setN
    apply kept_rxStop
    apply kept_setCond
    exact hs
  clear_value x1
  extract_lets +onlyGivenNames x2
  clear_value x2
  extract_lets +onlyGivenNames x3
  have h3 : Kept pq x3 := by
    unfold x3
    apply kept_setEngine
    exact h1
  clear_value x3
  apply kept_traysRefresh
  apply kept_launchJudge
  apply kept_trafficJudge
  exact h3

theorem kept_heldRelease {pq : List Instr} {s : State} (n : Nat) (hs : Kept pq s) : Kept pq (heldRelease s n) := by
  unfold heldRelease
  extract_lets +onlyGivenNames x1
  clear_value x1
  apply kept_ite
  · apply kept_carrierStart
    apply kept_setEngine
    exact hs
  · exact hs

theorem kept_calMonitor {pq : List Instr} {s : State} (p : Nat) (hs : Kept pq s) : Kept pq (calMonitor s p) := by
  unfold calMonitor
  apply kept_ite
  · apply kept_monitorSuspend
    exact hs
  · apply kept_monitorResume
    exact hs

theorem kept_setCalState {pq : List Instr} {s : State} (n : Nat) (v : Nat) (hs : Kept pq s) : Kept pq (setCalState s n v) := by
  unfold setCalState
  apply kept_calMonitor
  apply kept_setCond
  apply kept_setN
  exact hs

theorem kept_calStart {pq : List Instr} {s : State} (n : Nat) (step : Nat) (hs : Kept pq s) : Kept pq (calStart s n step) := by
  unfold calStart
  apply kept_setCalState
  apply kept_setN
  apply kept_setEngine
  exact hs

theorem kept_portRecalibrate {pq : List Instr} {s : State} (p : Nat) (hs : Kept pq s) : Kept pq (portRecalibrate s p) := by
  unfold portRecalibrate
  apply kept_ite
  · exact hs
  · apply kept_foldl
    · exact hs
    · intro t1
      intro t2
      intro h3
      extract_lets +onlyGivenNames x4
      clear_value x4
      apply kept_ite
      · apply kept_calStart
        exact h3
      · apply kept_setCalState
        exact h3

theorem kept_portLightAfter {pq : List Instr} {old : State} {s : State} (p : Nat) (hs : Kept pq s) : Kept pq (portLightAfter old
    s p) := by
  unfold portLightAfter
  apply kept_ite
  · exact hs
  · apply kept_portRecalibrate
    exact hs

theorem kept_opticsAfter {pq : List Instr} {old : State} {s : State} (hs : Kept pq s) (key : Nat) : Kept pq (opticsAfter old s
    key) := by
  unfold opticsAfter
  extract_lets +onlyGivenNames x1
  clear_value x1
  extract_lets +onlyGivenNames x2
  clear_value x2
  extract_lets +onlyGivenNames x3
  clear_value x3
  apply kept_ite
  · apply kept_ite
    · apply kept_carrierStart
      exact hs
    · apply kept_ite
      · apply kept_carrierStop
        apply kept_setEngine
        exact hs
      · exact hs
  · apply kept_ite
    · apply kept_ite
      · exact hs
      · apply kept_setB
        exact hs
    · apply kept_ite
      · apply kept_dcNote
        exact hs
      · apply kept_ite
        · apply kept_manualGain
          exact hs
        · exact hs

end Sys2Proof.Machine
end

