-- ==== Sys2Proof/Laws/KeptTune.lean ====
section
/-! SUPPORT. Every operation of Machine/Tune.lean keeps the queue and the well-formedness of the state. -/

namespace Sys2Proof.Machine

theorem kept_setTune {pq : List Instr} {s : State} (n : Nat) (x : TuneSt) (hs : Kept pq s) : Kept pq (State.setTune s n x) := by
  unfold State.setTune
  apply kept_setEngine
  exact hs

theorem kept_setKlfTx {pq : List Instr} {s : State} (n : Nat) (x : KlfTx) (hs : Kept pq s) : Kept pq (State.setKlfTx s n x) := by
  unfold State.setKlfTx
  apply kept_setEngine
  exact hs

theorem kept_setKlfRx {pq : List Instr} {s : State} (n : Nat) (x : KlfRx) (hs : Kept pq s) : Kept pq (State.setKlfRx s n x) := by
  unfold State.setKlfRx
  apply kept_setEngine
  exact hs

theorem kept_tuneFloorJudge {pq : List Instr} {s : State} (n : Nat) (hs : Kept pq s) : Kept pq (tuneFloorJudge s n) := by
  unfold tuneFloorJudge
  apply kept_ite
  · apply kept_setCond
    exact hs
  · exact hs

theorem kept_recordAdopt {pq : List Instr} {s : State} (n : Nat) (record : Nat) (hs : Kept pq s) : Kept pq (recordAdopt s n
    record) := by
  unfold recordAdopt
  extract_lets +onlyGivenNames x1
  clear_value x1
  extract_lets +onlyGivenNames x2
  clear_value x2
  extract_lets +onlyGivenNames x3
  clear_value x3
  extract_lets +onlyGivenNames x4
  clear_value x4
  extract_lets +onlyGivenNames x5
  clear_value x5
  apply kept_setEngine
  exact hs

theorem kept_execTuningEvaluation {pq : List Instr} (n : Nat) {s : State} (hs : Kept pq s) : KeptOut pq (execTuningEvaluation
    n s) := by
  unfold execTuningEvaluation
  apply keptOut_onUnit
  · exact hs
  · intro t1 h2
    apply kept_ite
    · exact h2
    · extract_lets +onlyGivenNames x3
      extract_lets +onlyGivenNames x4
      clear_value x4
      extract_lets +onlyGivenNames x5
      clear_value x5
      extract_lets +onlyGivenNames x6
      have h6 : Kept pq x6 := by
        unfold x6
        apply kept_ite
        · exact h2
        · apply kept_foldl
          · exact h2
          · intro t7 t8 h9
            apply kept_setN
            exact h9
      clear_value x6
      extract_lets +onlyGivenNames x10
      clear_value x10
      apply kept_setTune
      exact h6

theorem kept_nextCell {pq : List Instr} {s : State} (n : Nat) (hs : Kept pq s) : Kept2 pq (nextCell s n) := by
  unfold nextCell
  extract_lets +onlyGivenNames x1
  clear_value x1
  apply kept2_ite
  · apply kept2_mk
    exact hs
  · apply kept2_ite
    · apply kept2_mk
      exact hs
    · extract_lets +onlyGivenNames x2
      clear_value x2
      apply kept2_mk
      apply kept_setTune
      exact hs

theorem kept_setTaken {pq : List Instr} {s : State} (n : Nat) (parts : List (Nat × List (Nat × Nat))) (hs : Kept pq s) : Kept pq
    (setTaken s n parts) := by
  unfold setTaken
  extract_lets +onlyGivenNames x1
  have h1 : Kept pq x1 := by
    unfold x1
    apply kept_foldl
    · exact hs
    · intro t2
      intro t3
      intro h4
      extract_lets +onlyGivenNames x5
      clear_value x5
      apply kept_setF
      apply kept_setN
      exact h4
  clear_value x1
  extract_lets +onlyGivenNames x6
  clear_value x6
  extract_lets +onlyGivenNames x7
  have h7 : Kept pq x7 := by
    unfold x7
    apply kept_setTune
    exact h1
  clear_value x7
  apply kept_ite
  · exact h7
  · extract_lets +onlyGivenNames x8
    clear_value x8
    extract_lets +onlyGivenNames x9
    have h9 : Kept pq x9 := by
      unfold x9
      apply kept_ite
      · apply kept_tuneFloorJudge
        exact h7
      · exact h7
    clear_value x9
    apply kept_setTune
    exact h9

theorem kept_partReceived {pq : List Instr} {s : State} (n : Nat) (cell : Nat) (hs : Kept pq s) : Kept pq (partReceived s n
    cell) := by
  unfold partReceived
  extract_lets +onlyGivenNames x1
  clear_value x1
  apply kept_ite
  · apply kept_setTune
    exact hs
  · apply kept_ite
    · apply kept_setTune
      exact hs
    · apply kept_ite
      · exact hs
      · extract_lets +onlyGivenNames x2
        clear_value x2
        extract_lets +onlyGivenNames x3
        clear_value x3
        apply kept_ite
        · apply kept_setTaken
          apply kept_setTune
          exact hs
        · apply kept_setTune
          exact hs

theorem kept_execBackchannelCellReceived {pq : List Instr} (n : Nat) (cell : Nat) {s : State} (hs : Kept pq s) : KeptOut pq
    (execBackchannelCellReceived n cell s) := by
  unfold execBackchannelCellReceived
  apply keptOut_onUnit
  · exact hs
  · intro t1
    intro h2
    apply kept_ite
    · exact h2
    · apply kept_ite
      · apply kept_countEv
        apply kept_bump
        exact h2
      · extract_lets +onlyGivenNames x3
        clear_value x3
        extract_lets +onlyGivenNames x4
        have h4 : Kept pq x4 := by
          unfold x4
          apply kept_setTune
          exact h2
        clear_value x4
        extract_lets +onlyGivenNames x5
        have h5 : Kept pq x5 := by
          unfold x5
          apply kept_ite
          · apply kept_setCond
            apply kept_setN
            exact h4
          · exact h4
        clear_value x5
        apply kept_ite
        · exact h5
        · extract_lets +onlyGivenNames x6
          clear_value x6
          extract_lets +onlyGivenNames x7
          clear_value x7
          extract_lets +onlyGivenNames x8
          clear_value x8
          extract_lets +onlyGivenNames x9
          have h9 : Kept pq x9 := by
            unfold x9
            apply kept_setTune
            apply kept_setN
            exact h5
          clear_value x9
          apply kept_ite
          · apply kept_partReceived
            exact h9
          · exact h9

theorem kept_execBackchannelTimeout {pq : List Instr} (n : Nat) {s : State} (hs : Kept pq s) : KeptOut pq
    (execBackchannelTimeout n s) := by
  unfold execBackchannelTimeout
  apply keptOut_onUnit
  · exact hs
  · intro t1
    intro h2
    apply kept_ite
    · exact h2
    · apply kept_setCond
      apply kept_setN
      exact h2

theorem kept_drawRequest {pq : List Instr} {s : State} (n : Nat) (hs : Kept pq s) : Kept2 pq (drawRequest s n) := by
  unfold drawRequest
  extract_lets +onlyGivenNames x1
  clear_value x1
  apply kept2_mk
  apply kept_setN
  exact hs

theorem kept_autoEnd {pq : List Instr} {s : State} (n : Nat) (result : Nat) (hs : Kept pq s) : Kept pq (autoEnd s n result) := by
  unfold autoEnd
  extract_lets +onlyGivenNames x1
  clear_value x1
  split
  · exact hs
  · extract_lets +onlyGivenNames x2
    have h2 : Kept pq x2 := by
      unfold x2
      apply kept_setKlfTx
      exact hs
    clear_value x2
    apply kept_ite
    · exact h2
    · apply kept_bump
      apply kept_setN
      exact h2

theorem kept_autoFloor {pq : List Instr} {s : State} (n : Nat) (hs : Kept pq s) : Kept pq (autoFloor s n) := by
  unfold autoFloor
  apply kept_setTune
  apply kept_setCond
  apply kept_setN
  exact hs

theorem kept_layoutTaken {pq : List Instr} {s : State} (hs : Kept pq s) (n : Nat) : Kept pq (layoutTaken s n) := by
  unfold layoutTaken
  apply kept_setTune
  exact hs

theorem kept_execAutoChangeStart {pq : List Instr} (n : Nat) {s : State} (hs : Kept pq s) : KeptOut pq (execAutoChangeStart n s)
    := by
  unfold execAutoChangeStart
  apply keptOut_onUnit
  · exact hs
  · intro t1
    intro h2
    extract_lets +onlyGivenNames x3
    clear_value x3
    apply kept_ite
    · exact h2
    · apply kept_ite
      · exact h2
      · apply kept_ite
        · apply kept_autoFloor
          exact h2
        · extract_lets +onlyGivenNames x4
          have h4 : Kept2 pq x4 := by
            unfold x4
            apply kept_drawRequest
            exact h2
          clear_value x4
          extract_lets +onlyGivenNames x5
          have h5 : Kept pq x5 := by
            unfold x5
            apply kept_setTune
            apply Kept2.out
            exact h4
          clear_value x5
          apply kept_setKlfTx
          exact h5

theorem kept_execRescue {pq : List Instr} (n : Nat) {s : State} (hs : Kept pq s) : KeptOut pq (execRescue n s) := by
  unfold execRescue
  apply keptOut_onUnit
  · exact hs
  · intro t1
    intro h2
    extract_lets +onlyGivenNames x3
    clear_value x3
    extract_lets +onlyGivenNames x4
    clear_value x4
    extract_lets +onlyGivenNames x5
    clear_value x5
    apply kept_ite
    · exact h2
    · extract_lets +onlyGivenNames x6
      clear_value x6
      extract_lets +onlyGivenNames x7
      have h7 : Kept pq x7 := by
        unfold x7
        apply kept_setTune
        exact h2
      clear_value x7
      extract_lets +onlyGivenNames x8
      clear_value x8
      extract_lets +onlyGivenNames x9
      clear_value x9
      extract_lets +onlyGivenNames x10
      clear_value x10
      extract_lets +onlyGivenNames x11
      clear_value x11
      apply kept_ite
      · exact h7
      · apply kept_ite
        · apply kept_autoFloor
          exact h7
        · extract_lets +onlyGivenNames x12
          clear_value x12
          extract_lets +onlyGivenNames x13
          clear_value x13
          apply kept_bump
          apply kept_setKlfTx
          exact h7

theorem kept_autoApplied {pq : List Instr} {s : State} (n : Nat) (c : Change) (hs : Kept pq s) : Kept pq (autoApplied s n c) := by
  unfold autoApplied
  extract_lets +onlyGivenNames x1
  have h1 : Kept pq x1 := by
    unfold x1
    apply kept_foldl
    · exact hs
    · intro t2
      intro t3
      intro h4
      extract_lets +onlyGivenNames x5
      clear_value x5
      extract_lets +onlyGivenNames x6
      clear_value x6
      extract_lets +onlyGivenNames x7
      clear_value x7
      extract_lets +onlyGivenNames x8
      have h8 : Kept pq x8 := by
        unfold x8
        apply kept_setN
        exact h4
      clear_value x8
      apply kept_setShadow
      exact h8
  clear_value x1
  extract_lets +onlyGivenNames x9
  clear_value x9
  extract_lets +onlyGivenNames x10
  have h10 : Kept pq x10 := by
    unfold x10
    apply kept_setKlfTx
    apply kept_setN
    exact h1
  clear_value x10
  extract_lets +onlyGivenNames x11
  have h11 : Kept pq x11 := by
    unfold x11
    apply kept_journalAdd
    exact h10
  clear_value x11
  extract_lets +onlyGivenNames x12
  clear_value x12
  extract_lets +onlyGivenNames x13
  have h13 : Kept pq x13 := by
    unfold x13
    apply kept_setTune
    exact h11
  clear_value x13
  apply kept_ite
  · extract_lets +onlyGivenNames x14
    have h14 : Kept pq x14 := by
      unfold x14
      apply kept_setN
      exact h13
    clear_value x14
    apply kept_setCond
    exact h14
  · apply kept_setCond
    apply kept_setN
    apply kept_bump
    exact h13

theorem kept_clearTuneCounters {pq : List Instr} {s : State} (hs : Kept pq s) : Kept2 pq (clearTuneCounters s) := by
  unfold clearTuneCounters
  apply kept2_mk
  apply kept_clearObjs
  exact hs

theorem kept_execClearTuneCounters {pq : List Instr} (k : Nat) {s : State} (hs : Kept pq s) : KeptOut pq (execClearTuneCounters
    k s) := by
  unfold execClearTuneCounters
  apply keptOut_next
  apply kept_hostCmd
  · exact hs
  · intro t1
    intro h2
    apply kept_clearTuneCounters
    exact h2

theorem kept_tuneAfter {pq : List Instr} {s : State} (hs : Kept pq s) (key : Nat) : Kept pq (tuneAfter s key) := by
  unfold tuneAfter
  apply kept_ite
  · apply kept_tuneFloorJudge
    exact hs
  · exact hs

end Sys2Proof.Machine
end

