-- ==== Sys2Proof/Laws/KeptHub.lean ====
section
/-! SUPPORT. Every operation of Machine/Hub.lean keeps the queue and the well-formedness of the state. -/

namespace Sys2Proof.Machine

theorem kept_bumpLeaf {pq : List Instr} {s : State} (l : Nat) (sub : Nat) (n : Nat) (hs : Kept pq s) : Kept pq (bumpLeaf s l sub
    n) := by
  unfold bumpLeaf
  extract_lets +onlyGivenNames x1
  clear_value x1
  apply kept_setCtx
  exact hs

theorem kept_evict {pq : List Instr} {s : State} (hs : Kept pq s) : Kept pq (evict s) := by
  have cut : ∀ l, Kept pq { s with hotOrder := s.hotOrder.filter (· != l), hotCopies := Tbl.drop s.hotCopies l } :=
    fun l => ⟨hs.queue, { hs.tidy with
      hotCopies := Tbl.wf_drop l hs.tidy.hotCopies
      hotCache := Nat.le_trans (List.length_filter_le _ _) hs.tidy.hotCache }⟩
  unfold evict
  split
  · exact hs
  · exact kept_setCtx (cut _) _ _

theorem kept_makeHot {pq : List Instr} {s : State} (l : Nat) (hs : Kept pq s) : Kept pq (makeHot s l) := by
  have add : ∀ u, Kept pq u → u.hotOrder.length < 16384 → Kept pq { u with hotOrder := l :: u.hotOrder } :=
    fun u hu h => ⟨hu.queue, { hu.tidy with hotCache := h }⟩
  unfold makeHot
  split
  · rename_i hot
    refine ⟨hs.queue, { hs.tidy with hotCache := ?_ }⟩
    have hm : l ∈ s.hotOrder := by simpa [State.isHot] using hot
    have hlt : (s.hotOrder.filter (· != l)).length < s.hotOrder.length :=
      List.length_filter_lt_length_iff_exists.mpr ⟨l, hm, by simp⟩
    have := hs.tidy.hotCache
    simp only [List.length_cons]
    omega
  · extract_lets u c
    have hu : Kept pq u := kept_ite (kept_evict hs) hs
    clear_value u
    split
    · exact hu
    · exact kept_setCtx (add u hu (by omega)) _ _

theorem kept_hotLost {pq : List Instr} {s : State} (hs : Kept pq s) : Kept pq (hotLost s) :=
  ⟨hs.queue, { hs.tidy with hotCopies := Tbl.wf_nil, hotCache := Nat.zero_le _ }⟩

theorem kept_execMapBuildDone {pq : List Instr} (i : Nat) (micros : F32) {s : State} (hs : Kept pq s) : KeptOut pq
    (execMapBuildDone i micros s) := by
  unfold execMapBuildDone
  apply keptOut_onUnit
  · exact hs
  · intro t1
    intro h2
    apply kept_ite
    · exact h2
    · extract_lets +onlyGivenNames x3
      clear_value x3
      extract_lets +onlyGivenNames x4
      have h4 : Kept pq x4 := by
        unfold x4
        apply kept_setHub
        exact h2
      clear_value x4
      apply kept_peak
      apply kept_peakF
      exact h4

theorem kept_issueGrants {pq : List Instr} {s : State} (i : Nat) (j : Nat) (m : List Grant) (hs : Kept pq s) : Kept pq
    (issueGrants s i j m) := by
  unfold issueGrants
  extract_lets +onlyGivenNames x1
  have h1 : Kept pq x1 := by
    unfold x1
    apply kept_countEv
    exact hs
  clear_value x1
  extract_lets +onlyGivenNames x2
  have h2 : Kept pq x2 := by
    unfold x2
    apply kept_countEv
    exact h1
  clear_value x2
  apply kept_foldl
  · exact h2
  · intro t3
    intro t4
    intro h5
    apply kept_ite
    · exact h5
    · extract_lets +onlyGivenNames x6
      clear_value x6
      apply kept_setLeafRun
      exact h5

theorem kept_execGrantMapSwap {pq : List Instr} (i : Nat) {s : State} (hs : Kept pq s) : KeptOut pq (execGrantMapSwap i s) := by
  unfold execGrantMapSwap
  apply keptOut_onUnit
  · exact hs
  · intro t1
    intro h2
    apply kept_ite
    · exact h2
    · extract_lets +onlyGivenNames x3
      clear_value x3
      extract_lets +onlyGivenNames x4
      clear_value x4
      extract_lets +onlyGivenNames x5
      clear_value x5
      extract_lets +onlyGivenNames x6
      clear_value x6
      extract_lets +onlyGivenNames x7
      have h7 : Kept pq x7 := by
        unfold x7
        apply kept_ite
        · apply kept_hold
          apply kept_bump
          exact h2
        · exact h2
      clear_value x7
      apply kept_issueGrants
      apply kept_setHub
      exact h7

theorem kept_sendControl {pq : List Instr} {s : State} (i : Nat) (l : Nat) (m : Bytes) (hs : Kept pq s) : Kept pq (sendControl s
    i l m) := by
  unfold sendControl
  extract_lets +onlyGivenNames x1
  clear_value x1
  apply kept_setHub
  exact hs

theorem kept_sendRanging {pq : List Instr} {s : State} (i : Nat) (l : Nat) (hs : Kept pq s) : Kept pq (sendRanging s i l) := by
  unfold sendRanging
  apply kept_sendControl
  exact hs

theorem kept_sendKeyInfo {pq : List Instr} {s : State} (hs : Kept pq s) (i : Nat) (l : Nat) (sel : Nat) (epoch : Nat) (frame :
    Nat) : Kept pq (sendKeyInfo s i l sel epoch frame) := by
  unfold sendKeyInfo
  apply kept_sendControl
  exact hs

theorem kept_leafEpochs {pq : List Instr} {s : State} (hs : Kept pq s) (i : Nat) (epoch : Nat) : Kept pq (leafEpochs s i
    epoch) := by
  unfold leafEpochs
  apply kept_foldl
  · exact hs
  · intro t1 t2 h3
    apply kept_setCtx
    exact h3

theorem kept_dataSegment {pq : List Instr} {s : State} (i : Nat) (l : Nat) (k : Nat) (room : Nat) (start : Nat) (hs : Kept pq s)
    : Kept2 pq (dataSegment s i l k room start) := by
  unfold dataSegment
  extract_lets +onlyGivenNames x1
  clear_value x1
  extract_lets +onlyGivenNames x2
  clear_value x2
  extract_lets +onlyGivenNames x3
  clear_value x3
  extract_lets +onlyGivenNames x4
  clear_value x4
  extract_lets +onlyGivenNames x5
  clear_value x5
  extract_lets +onlyGivenNames x6
  clear_value x6
  extract_lets +onlyGivenNames x7
  clear_value x7
  apply kept2_ite
  · apply kept2_mk
    apply kept_setLeafRun
    exact hs
  · extract_lets +onlyGivenNames x8
    clear_value x8
    extract_lets +onlyGivenNames x9
    clear_value x9
    extract_lets +onlyGivenNames x10
    clear_value x10
    extract_lets +onlyGivenNames x11
    clear_value x11
    extract_lets +onlyGivenNames x12
    clear_value x12
    extract_lets +onlyGivenNames x13
    clear_value x13
    extract_lets +onlyGivenNames x14
    clear_value x14
    extract_lets +onlyGivenNames x15
    clear_value x15
    extract_lets +onlyGivenNames x16
    have h16 : Kept pq x16 := by
      unfold x16
      apply kept_setLeafRun
      exact hs
    clear_value x16
    extract_lets +onlyGivenNames x17
    have h17 : Kept pq x17 := by
      unfold x17
      apply kept_setHub
      exact h16
    clear_value x17
    apply kept2_mk
    apply kept_countEv
    exact h17

theorem kept_dataSegments {pq : List Instr} (i : Nat) (k : Nat) (a2 : List Nat) (a3 : Nat) (a4 : Nat) (a5 : Bytes) {a6 : State}
    (ha6 : Kept pq a6) : Kept2 pq (dataSegments i k a2 a3 a4 a5 a6) := by
  induction a2 generalizing i k a3 a4 a5 a6 with
  | nil =>
    rw [dataSegments]
    apply kept2_mk
    exact ha6
  | cons a20 a2 ih =>
    rw [dataSegments]
    apply ih
    apply Kept2.out
    apply kept_dataSegment
    exact ha6

theorem kept_hubRewind {pq : List Instr} {s : State} (i : Nat) (hs : Kept pq s) : Kept pq (hubRewind s i) := by
  unfold hubRewind
  extract_lets +onlyGivenNames x1
  clear_value x1
  extract_lets +onlyGivenNames x2
  clear_value x2
  extract_lets +onlyGivenNames x3
  have h3 : Kept pq x3 := by
    unfold x3
    apply kept_foldl
    · exact hs
    · intro t4
      intro t5
      intro h6
      extract_lets +onlyGivenNames x7
      clear_value x7
      apply kept_bump
      apply kept_setLeafRun
      exact h6
  clear_value x3
  apply kept_setHub
  exact h3

theorem kept_hubStop {pq : List Instr} {s : State} (hs : Kept pq s) (n : Nat) : Kept pq (hubStop s n) := by
  unfold hubStop
  apply kept_dcNote
  apply kept_foldl
  · exact hs
  · intro t1 t2 h3
    extract_lets +onlyGivenNames x4
    clear_value x4
    extract_lets +onlyGivenNames x5
    have h5 : Kept pq x5 := by
      unfold x5
      apply kept_hubRewind
      exact h3
    clear_value x5
    apply kept_setHub
    exact h5

theorem kept_execHubDownstreamFrame_hubRewindLeft {pq : List Instr} {s : State} (i : Nat) (hs : Kept pq s) : Kept pq
    (execHubDownstreamFrame.hubRewindLeft s i) := by
  unfold execHubDownstreamFrame.hubRewindLeft
  apply kept_ite
  · exact hs
  · apply kept_hubRewind
    exact hs

theorem kept_hubDrawEpoch {pq : List Instr} {s : State} (hs : Kept pq s) (i : Nat) : Kept pq (hubDrawEpoch s i) := by
  unfold hubDrawEpoch
  extract_lets +onlyGivenNames x1
  clear_value x1
  apply kept_ite
  · exact hs
  · extract_lets +onlyGivenNames x2
    clear_value x2
    extract_lets +onlyGivenNames x3
    have h3 : Kept2 pq x3 := by
      unfold x3
      apply kept_drawEpoch
      exact hs
    clear_value x3
    extract_lets +onlyGivenNames x4
    have h4 : Kept pq x4 := by
      unfold x4
      apply kept_setCond
      apply Kept2.out
      exact h3
    clear_value x4
    split
    · apply kept_setHub
      exact h4
    · extract_lets +onlyGivenNames x5
      clear_value x5
      extract_lets +onlyGivenNames x6
      have h6 : Kept pq x6 := by
        unfold x6
        apply kept_setHub
        apply kept_setN
        exact h4
      clear_value x6
      apply kept_leafEpochs
      apply kept_foldl
      · exact h6
      · intro t7 t8 h9
        apply kept_sendKeyInfo
        exact h9

theorem kept_dropPoisoned {pq : List Instr} {s : State} (bad : List (Nat × Nat)) (hs : Kept pq s) : Kept pq (dropPoisoned s bad)
    := by
  unfold dropPoisoned
  apply kept_foldl
  · exact hs
  · intro t1
    intro t2
    intro h3
    extract_lets +onlyGivenNames x4
    clear_value x4
    apply kept_ite
    · apply kept_bump
      apply kept_setLeafRun
      exact h3
    · exact h3

theorem kept_execHubDownstreamFrame {pq : List Instr} (i : Nat) (offset : Nat) (poisoned : List (Nat × Nat)) {s : State} (hs :
    Kept pq s) : KeptOut pq (execHubDownstreamFrame i offset poisoned s) := by
  unfold execHubDownstreamFrame
  apply keptOut_onUnit
  · exact hs
  · intro t1
    intro h2
    apply kept_ite
    · exact h2
    · extract_lets +onlyGivenNames x3
      clear_value x3
      extract_lets +onlyGivenNames x4
      have h4 : Kept pq x4 := by
        unfold x4
        apply kept_hubDrawEpoch
        apply kept_dropPoisoned
        apply kept_execHubDownstreamFrame_hubRewindLeft
        exact h2
      clear_value x4
      extract_lets +onlyGivenNames x5
      clear_value x5
      extract_lets +onlyGivenNames x6
      clear_value x6
      extract_lets +onlyGivenNames x7
      clear_value x7
      extract_lets +onlyGivenNames x8
      clear_value x8
      extract_lets +onlyGivenNames x9
      clear_value x9
      extract_lets +onlyGivenNames x10
      clear_value x10
      extract_lets +onlyGivenNames x11
      have h11 : Kept pq x11 := by
        unfold x11
        apply kept_setHub
        exact h4
      clear_value x11
      extract_lets +onlyGivenNames x12
      clear_value x12
      extract_lets +onlyGivenNames x13
      clear_value x13
      extract_lets +onlyGivenNames x14
      have h14 : Kept2 pq x14 := by
        unfold x14
        apply kept2_ite
        · apply kept2_mk
          exact h11
        · apply kept_dataSegments
          exact h11
      clear_value x14
      extract_lets +onlyGivenNames x15
      have h15 : Kept pq x15 := by
        unfold x15
        apply Kept2.out
        exact h14
      clear_value x15
      extract_lets +onlyGivenNames x16
      clear_value x16
      apply kept_setHub
      exact h15

theorem kept_hubTake {pq : List Instr} {s : State} (i : Nat) (p : Nat) (hs : Kept pq s) : Kept4 pq (hubTake s i p) := by
  unfold hubTake
  extract_lets +onlyGivenNames x1
  clear_value x1
  extract_lets +onlyGivenNames x2
  clear_value x2
  extract_lets +onlyGivenNames x3
  clear_value x3
  extract_lets +onlyGivenNames x4
  clear_value x4
  extract_lets +onlyGivenNames x5
  clear_value x5
  extract_lets +onlyGivenNames x6
  have h6 : Kept pq x6 := by
    unfold x6
    apply kept_foldl
    · exact hs
    · intro t7
      intro t8
      intro h9
      extract_lets +onlyGivenNames x10
      clear_value x10
      apply kept_bump
      apply kept_setLeafRun
      exact h9
  clear_value x6
  extract_lets +onlyGivenNames x11
  have h11 : Kept pq x11 := by
    unfold x11
    apply kept_setHub
    exact h6
  clear_value x11
  apply kept4_mk
  exact h11

theorem kept_execContextPrefetch {pq : List Instr} (i : Nat) (frame : Nat) (poisoned : List Nat) {s : State} (hs : Kept pq s)
    : KeptOut pq (execContextPrefetch i frame poisoned s) := by
  unfold execContextPrefetch
  apply keptOut_onUnit
  · exact hs
  · intro t1 h2
    extract_lets +onlyGivenNames x3
    clear_value x3
    apply kept_foldl
    · exact h2
    · intro t4 t5 h6
      extract_lets +onlyGivenNames x7
      clear_value x7
      apply kept_ite
      · apply kept_makeHot
        exact h6
      · extract_lets +onlyGivenNames x8
        clear_value x8
        extract_lets +onlyGivenNames x9
        have h9 : Kept pq x9 := by
          unfold x9
          apply kept_setCtx
          apply kept_bump
          exact h6
        clear_value x9
        apply kept_setCond
        exact h9

theorem kept_leafActive {pq : List Instr} {s : State} (l : Nat) (hs : Kept pq s) : Kept pq (leafActive s l) := by
  unfold leafActive
  extract_lets +onlyGivenNames x1
  clear_value x1
  extract_lets +onlyGivenNames x2
  clear_value x2
  extract_lets +onlyGivenNames x3
  have h3 : Kept pq x3 := by
    unfold x3
    apply kept_setLeafRun
    apply kept_setCtx
    exact hs
  clear_value x3
  apply kept_setCond
  apply kept_setCond
  exact h3

theorem kept_rangingFailed {pq : List Instr} {s : State} (hs : Kept pq s) (l : Nat) : Kept pq (rangingFailed s l) := by
  unfold rangingFailed
  extract_lets +onlyGivenNames x1
  clear_value x1
  extract_lets +onlyGivenNames x2
  have h2 : Kept pq x2 := by
    unfold x2
    apply kept_setLeafRun
    exact hs
  clear_value x2
  apply kept_ite
  · apply kept_setCond
    apply kept_setLeafRun
    apply kept_setCtx
    exact h2
  · exact h2

theorem kept_grantMissed {pq : List Instr} {s : State} (hs : Kept pq s) (i : Nat) (l : Nat) : Kept pq (grantMissed s i l) :=
    by
  unfold grantMissed
  apply kept_ite
  · exact hs
  · extract_lets +onlyGivenNames x1
    have h1 : Kept pq x1 := by
      unfold x1
      apply kept_bumpLeaf
      exact hs
    clear_value x1
    extract_lets +onlyGivenNames x2
    clear_value x2
    apply kept_ite
    · apply kept_rangingFailed
      exact h1
    · apply kept_ite
      · extract_lets +onlyGivenNames x3
        clear_value x3
        extract_lets +onlyGivenNames x4
        have h4 : Kept pq x4 := by
          unfold x4
          apply kept_setLeafRun
          exact h1
        clear_value x4
        apply kept_ite
        · apply kept_setCond
          apply kept_setLeafRun
          apply kept_setCtx
          exact h4
        · exact h4
      · exact h1

theorem kept_suspectLeaf {pq : List Instr} {s : State} (hs : Kept pq s) (l : Nat) (b : Bool) : Kept pq (suspectLeaf s l b) :=
    by
  unfold suspectLeaf
  apply kept_setLeafRun
  apply kept_setCtx
  exact hs

theorem kept_setBurst {pq : List Instr} {s : State} (hs : Kept pq s) (i : Nat) (b : Burst) : Kept pq (setBurst s i b) := by
  unfold setBurst
  apply kept_dcNote
  apply kept_setHub
  exact hs

theorem kept_burstBegin {pq : List Instr} {s : State} (hs : Kept pq s) (i : Nat) (metric : Nat) (frame : Nat) (a : Int) : Kept
    pq (burstBegin s i metric frame a) := by
  unfold burstBegin
  extract_lets +onlyGivenNames x1
  clear_value x1
  extract_lets +onlyGivenNames x2
  clear_value x2
  extract_lets +onlyGivenNames x3
  clear_value x3
  extract_lets +onlyGivenNames x4
  clear_value x4
  apply kept_foldl
  · apply kept_setBurst
    exact hs
  · intro t5 t6 h7
    apply kept_setN
    exact h7

theorem kept_burstTrim {pq : List Instr} {s : State} (hs : Kept pq s) (n : Nat) (rms : List F32) : Kept pq (burstTrim s n rms)
    := by
  unfold burstTrim
  apply kept_foldl
  · exact hs
  · intro t1 t2 h3
    extract_lets +onlyGivenNames x4
    clear_value x4
    apply kept_setN
    exact h3

theorem kept_execPreambleDetected {pq : List Instr} (i : Nat) (metric : Nat) (frame : Nat) (a : Int) {s : State} (hs : Kept pq
    s) : KeptOut pq (execPreambleDetected i metric frame a s) := by
  unfold execPreambleDetected
  apply keptOut_onUnit
  · exact hs
  · intro t1 h2
    apply kept_ite
    · exact h2
    · extract_lets +onlyGivenNames x3
      clear_value x3
      apply kept_ite
      · apply kept_burstBegin
        exact h2
      · apply kept_ite
        · exact h2
        · apply kept_ite
          · apply kept_ite
            · apply kept_burstBegin
              apply kept_hold
              apply kept_bump
              exact h2
            · exact h2
          · extract_lets +onlyGivenNames x4
            have h4 : Kept pq x4 := by
              unfold x4
              apply kept_setBurst
              apply kept_bump
              exact h2
            clear_value x4
            split
            · apply kept_suspectLeaf
              apply kept_hold
              apply kept_setCond
              exact h4
            · exact h4

theorem kept_execSyncWordMatch {pq : List Instr} (i : Nat) (bits : List Bool) (rms : List F32) {s : State} (hs : Kept pq s) :
    KeptOut pq (execSyncWordMatch i bits rms s) := by
  unfold execSyncWordMatch
  apply keptOut_onUnit
  · exact hs
  · intro t1 h2
    extract_lets +onlyGivenNames x3
    clear_value x3
    apply kept_ite
    · exact h2
    · apply kept_setCond
      apply kept_burstTrim
      apply kept_setBurst
      exact h2

theorem kept_coldMiss {pq : List Instr} {s : State} (hs : Kept pq s) (i : Nat) (b : Burst) : Kept pq (coldMiss s i b) := by
  unfold coldMiss
  apply kept_ite
  · exact hs
  · extract_lets +onlyGivenNames x1
    have h1 : Kept pq x1 := by
      unfold x1
      apply kept_hold
      apply kept_bump
      exact hs
    clear_value x1
    split
    · apply kept_makeHot
      exact h1
    · exact h1

theorem kept_burstClear {pq : List Instr} {s : State} (hs : Kept pq s) (i : Nat) : Kept pq (burstClear s i) := by
  unfold burstClear
  apply kept_setBurst
  exact hs

theorem kept_execTentativeExpiry {pq : List Instr} (i : Nat) {s : State} (hs : Kept pq s) : KeptOut pq (execTentativeExpiry i
    s) := by
  unfold execTentativeExpiry
  apply keptOut_onUnit
  · exact hs
  · intro t1 h2
    extract_lets +onlyGivenNames x3
    clear_value x3
    apply kept_ite
    · exact h2
    · apply kept_burstClear
      apply kept_coldMiss
      apply kept_countEv
      apply kept_bump
      exact h2

theorem kept_discovery {pq : List Instr} {s : State} (hs : Kept pq s) (i : Nat) (b : Burst) (serial : Bytes) (r : Nat) (power
    : Int) (freq : Int) : Kept pq (discovery s i b serial r power freq) := by
  unfold discovery
  extract_lets +onlyGivenNames x1
  have h1 : Kept pq x1 := by
    unfold x1
    apply kept_countEv
    apply kept_bump
    apply kept_bump
    exact hs
  clear_value x1
  split
  · apply kept_bump
    exact h1
  · extract_lets +onlyGivenNames x2
    clear_value x2
    extract_lets +onlyGivenNames x3
    clear_value x3
    extract_lets +onlyGivenNames x4
    clear_value x4
    extract_lets +onlyGivenNames x5
    clear_value x5
    extract_lets +onlyGivenNames x6
    clear_value x6
    apply kept_ite
    · apply kept_sendControl
      exact h1
    · apply kept_ite
      · apply kept_bump
        apply kept_sendControl
        exact h1
      · apply kept_ite
        · apply kept_bump
          exact h1
        · apply kept_ite
          · apply kept_bump
            exact h1
          · apply kept_ite
            · apply kept_bump
              exact h1
            · extract_lets +onlyGivenNames x7
              have h7 : Kept pq x7 := by
                unfold x7
                apply kept_setCtx
                exact h1
              clear_value x7
              extract_lets +onlyGivenNames x8
              clear_value x8
              extract_lets +onlyGivenNames x9
              have h9 : Kept pq x9 := by
                unfold x9
                apply kept_setLeafRun
                exact h7
              clear_value x9
              extract_lets +onlyGivenNames x10
              have h10 : Kept pq x10 := by
                unfold x10
                apply kept_sendControl
                exact h9
              clear_value x10
              extract_lets +onlyGivenNames x11
              have h11 : Kept pq x11 := by
                unfold x11
                apply kept_sendRanging
                exact h10
              clear_value x11
              extract_lets +onlyGivenNames x12
              have h12 : Kept pq x12 := by
                unfold x12
                apply kept_sendControl
                exact h11
              clear_value x12
              apply kept_ite
              · apply kept_setCtx
                apply kept_sendKeyInfo
                exact h12
              · exact h12

theorem kept_arrivalJudge {pq : List Instr} {s : State} (i : Nat) (l : Nat) (e : Int) (kind : Nat) (hs : Kept pq s) : Kept pq
    (arrivalJudge s i l e kind) := by
  unfold arrivalJudge
  extract_lets +onlyGivenNames x1
  extract_lets +onlyGivenNames x2
  have h2 : Kept pq x2 := by
    unfold x2
    apply kept_setCtx
    exact hs
  extract_lets +onlyGivenNames x3
  extract_lets +onlyGivenNames x4
  clear_value x4
  apply kept_ite
  · apply kept_ite
    · apply kept_leafActive
      apply kept_suspectLeaf
      exact h2
    · extract_lets +onlyGivenNames x5
      have h5 : Kept pq x5 := by
        unfold x5
        apply kept_rangingFailed
        apply kept_setCtx
        exact h2
      clear_value x5
      apply kept_ite
      · apply kept_sendRanging
        exact h5
      · exact h5
  · apply kept_ite
    · apply kept_ite
      · apply kept_leafActive
        apply kept_suspectLeaf
        exact h2
      · exact h2
    · extract_lets +onlyGivenNames x6
      have h6 : Kept pq x6 := by
        unfold x6
        apply kept_suspectLeaf
        exact h2
      extract_lets +onlyGivenNames x7
      extract_lets +onlyGivenNames x8
      extract_lets +onlyGivenNames x9
      apply kept_ite
      · extract_lets +onlyGivenNames x10
        clear_value x10
        apply kept_sendRanging
        apply kept_setLeafRun
        apply kept_setCtx
        exact h6
      · apply kept_ite
        · extract_lets +onlyGivenNames x11
          clear_value x11
          apply kept_sendRanging
          apply kept_setLeafRun
          apply kept_setCtx
          exact h6
        · apply kept_setLeafRun
          exact h6

theorem kept_headerValid {pq : List Instr} {s : State} (hs : Kept pq s) (i : Nat) (l : Nat) (h : Nat) (frame : Nat) : Kept pq
    (headerValid s i l h frame) := by
  unfold headerValid
  extract_lets +onlyGivenNames x1
  have h1 : Kept pq x1 := by
    unfold x1
    apply kept_bumpLeaf
    apply kept_makeHot
    apply kept_countEv
    apply kept_bump
    exact hs
  clear_value x1
  extract_lets +onlyGivenNames x2
  clear_value x2
  extract_lets +onlyGivenNames x3
  extract_lets +onlyGivenNames x4
  clear_value x4
  extract_lets +onlyGivenNames x5
  have h5 : Kept pq x5 := by
    unfold x5
    apply kept_setCtx
    exact h1
  clear_value x5
  extract_lets +onlyGivenNames x6
  clear_value x6
  extract_lets +onlyGivenNames x7
  have h7 : Kept pq x7 := by
    unfold x7
    apply kept_setLeafRun
    exact h5
  clear_value x7
  extract_lets +onlyGivenNames x8
  clear_value x8
  apply kept_ite
  · apply kept_setCtx
    exact h7
  · apply kept_ite
    · apply kept_setCtx
      exact h7
    · exact h7

theorem kept_burstMissed {pq : List Instr} {s : State} (hs : Kept pq s) (i : Nat) (b : Burst) : Kept pq (burstMissed s i b) :=
    by
  unfold burstMissed
  split
  · apply kept_grantMissed
    exact hs
  · exact hs

theorem kept_burstPayload {pq : List Instr} {s : State} (hs : Kept pq s) (i : Nat) (l : Nat) (header : Nat) (blocks : Nat) (b
    : Burst) : Kept pq (burstPayload s i l header blocks b) := by
  unfold burstPayload
  apply kept_setBurst
  exact hs

theorem kept_dataHeader {pq : List Instr} {s : State} (hs : Kept pq s) (i : Nat) (l : Nat) (header : Nat) (b : Burst) : Kept
    pq (dataHeader s i l header b) := by
  unfold dataHeader
  extract_lets +onlyGivenNames x1
  clear_value x1
  split
  · apply kept_ite
    · apply kept_burstClear
      exact hs
    · extract_lets +onlyGivenNames x2
      clear_value x2
      apply kept_burstPayload
      apply kept_arrivalJudge
      apply kept_headerValid
      exact hs
  · extract_lets +onlyGivenNames x3
    have h3 : Kept pq x3 := by
      unfold x3
      apply kept_burstMissed
      apply kept_suspectLeaf
      apply kept_bump
      exact hs
    clear_value x3
    apply kept_ite
    · apply kept_burstPayload
      apply kept_headerValid
      exact h3
    · apply kept_burstClear
      exact h3

theorem kept_execBurstHeaderDecoded {pq : List Instr} (i : Nat) (soft : List Int) (power : Int) (freq : Int) {s : State} (hs :
    Kept pq s) : KeptOut pq (execBurstHeaderDecoded i soft power freq s) := by
  unfold execBurstHeaderDecoded
  apply keptOut_onUnit
  · exact hs
  · intro t1 h2
    extract_lets +onlyGivenNames x3
    extract_lets +onlyGivenNames x4
    clear_value x4
    apply kept_ite
    · exact h2
    · apply kept_ite
      · apply kept_burstClear
        apply kept_burstMissed
        apply kept_coldMiss
        apply kept_bump
        exact h2
      · extract_lets +onlyGivenNames x5
        apply kept_ite
        · apply kept_ite
          · apply kept_burstClear
            apply kept_discovery
            exact h2
          · apply kept_burstClear
            apply kept_bump
            exact h2
        · apply kept_ite
          · apply kept_burstClear
            apply kept_burstMissed
            exact h2
          · apply kept_dataHeader
            exact h2

theorem kept_execBurstPayloadBlock {pq : List Instr} (i : Nat) (coded : Bytes) {s : State} (hs : Kept pq s) : KeptOut pq
    (execBurstPayloadBlock i coded s) := by
  unfold execBurstPayloadBlock
  apply keptOut_onUnit
  · exact hs
  · intro t1 h2
    extract_lets +onlyGivenNames x3
    clear_value x3
    apply kept_ite
    · exact h2
    · extract_lets +onlyGivenNames x4
      clear_value x4
      extract_lets +onlyGivenNames x5
      have h5 : Kept pq x5 := by
        unfold x5
        apply kept_bump
        exact h2
      clear_value x5
      extract_lets +onlyGivenNames x6
      have h6 : Kept pq x6 := by
        unfold x6
        apply kept_ite
        · exact h5
        · apply kept_bump
          exact h5
      clear_value x6
      extract_lets +onlyGivenNames x7
      clear_value x7
      apply kept_setBurst
      exact h6

theorem kept_upFrame {pq : List Instr} {s : State} (i : Nat) (l : Nat) (frame : Bytes) (damaged : Bool) (hs : Kept pq s) : Kept
    pq (upFrame s i l frame damaged) := by
  unfold upFrame
  extract_lets +onlyGivenNames x1
  clear_value x1
  apply kept_ite
  · apply kept_bumpLeaf
    apply kept_bump
    exact hs
  · apply kept_ite
    · apply kept_bumpLeaf
      apply kept_bump
      exact hs
    · extract_lets +onlyGivenNames x2
      clear_value x2
      apply kept_ite
      · apply kept_bump
        apply kept_bump
        exact hs
      · apply kept_bumpLeaf
        apply kept_mk
        exact hs

theorem kept_upDrop {pq : List Instr} {s : State} (i : Nat) (l : Nat) (hs : Kept pq s) : Kept pq (upDrop s i l) := by
  unfold upDrop
  extract_lets +onlyGivenNames x1
  clear_value x1
  extract_lets +onlyGivenNames x2
  have h2 : Kept pq x2 := by
    unfold x2
    apply kept_ite
    · exact hs
    · apply kept_bump
      exact hs
  clear_value x2
  apply kept_setLeafRun
  exact h2

theorem kept_upPiece {pq : List Instr} {s : State} (i : Nat) (l : Nat) (frag : Nat) (data : Bytes) (bad : Bool) (hs : Kept pq s)
    : Kept pq (upPiece s i l frag data bad) := by
  unfold upPiece
  extract_lets +onlyGivenNames x1
  clear_value x1
  split
  · apply kept_upFrame
    apply kept_upDrop
    exact hs
  · apply kept_setLeafRun
    apply kept_upDrop
    exact hs
  · apply kept_ite
    · exact hs
    · apply kept_setLeafRun
      exact hs
  · apply kept_ite
    · exact hs
    · apply kept_upFrame
      apply kept_setLeafRun
      exact hs

theorem kept_upWords {pq : List Instr} (a0 : Nat) {a1 : State} (a2 : Nat) (a3 : Nat) (a4 : Nat) (a5 : List Nat) (a6 : Bytes)
    (ha1 : Kept pq a1) : Kept pq (upWords a0 a1 a2 a3 a4 a5 a6) := by
  induction a0 generalizing a1 a2 a3 a4 a5 a6 with
  | zero =>
    rw [upWords]
    exact ha1
  | succ a0 ih =>
    rw [upWords]
    apply kept_ite
    · exact ha1
    · extract_lets +onlyGivenNames x1
      clear_value x1
      extract_lets +onlyGivenNames x2
      clear_value x2
      apply kept_ite
      · apply kept_upDrop
        exact ha1
      · apply kept_ite
        · apply ih
          exact ha1
        · extract_lets +onlyGivenNames x3
          clear_value x3
          apply kept_ite
          · apply kept_upDrop
            exact ha1
          · extract_lets +onlyGivenNames x4
            clear_value x4
            apply ih
            apply kept_upPiece
            exact ha1

theorem kept_execBurstEnd {pq : List Instr} (i : Nat) (seeds : Bytes) {s : State} (hs : Kept pq s) : KeptOut pq (execBurstEnd i
    seeds s) := by
  unfold execBurstEnd
  apply keptOut_onUnit
  · exact hs
  · intro t1
    intro h2
    extract_lets +onlyGivenNames x3
    clear_value x3
    apply kept_ite
    · exact h2
    · extract_lets +onlyGivenNames x4
      clear_value x4
      extract_lets +onlyGivenNames x5
      clear_value x5
      extract_lets +onlyGivenNames x6
      have h6 : Kept pq x6 := by
        unfold x6
        apply kept_ite
        · exact h2
        · apply kept_setCtx
          exact h2
      clear_value x6
      extract_lets +onlyGivenNames x7
      have h7 : Kept pq x7 := by
        unfold x7
        apply kept_ite
        · exact h6
        · apply kept_setCond
          exact h6
      clear_value x7
      extract_lets +onlyGivenNames x8
      have h8 : Kept pq x8 := by
        unfold x8
        apply kept_burstClear
        exact h7
      clear_value x8
      apply kept_ite
      · exact h8
      · extract_lets +onlyGivenNames x9
        clear_value x9
        extract_lets +onlyGivenNames x10
        have h10 : Kept pq x10 := by
          unfold x10
          apply kept_countEv
          exact h8
        clear_value x10
        apply kept_ite
        · apply kept_upWords
          exact h10
        · extract_lets +onlyGivenNames x11
          clear_value x11
          extract_lets +onlyGivenNames x12
          clear_value x12
          split
          · apply kept_upWords
            apply kept_setCond
            exact h10
          · apply kept_setCond
            apply kept_bumpLeaf
            exact h10

theorem kept_execGrantedSlotEnd {pq : List Instr} (i : Nat) (frame : Nat) (leaf : Nat) {s : State} (hs : Kept pq s) : KeptOut pq
    (execGrantedSlotEnd i frame leaf s) := by
  unfold execGrantedSlotEnd
  apply keptOut_onUnit
  · exact hs
  · intro t1
    intro h2
    extract_lets +onlyGivenNames x3
    clear_value x3
    apply kept_ite
    · apply kept_grantMissed
      exact h2
    · exact h2

theorem kept_execHubBurstSilence {pq : List Instr} (n : Nat) {s : State} (hs : Kept pq s) : KeptOut pq (execHubBurstSilence n s)
    := by
  unfold execHubBurstSilence
  apply keptOut_onUnit
  · exact hs
  · intro t1
    intro h2
    apply kept_ite
    · apply kept_setCond
      exact h2
    · exact h2

theorem kept_leafRangeAgain {pq : List Instr} (l : Nat) {s : State} (hs : Kept pq s) : Kept2 pq (leafRangeAgain l s) := by
  unfold leafRangeAgain
  extract_lets +onlyGivenNames x1
  clear_value x1
  apply kept2_ite
  · apply kept2_mk
    apply kept_setLeafRun
    apply kept_setCtx
    exact hs
  · apply kept2_mk
    exact hs

theorem kept_leafDeregister {pq : List Instr} (l : Nat) {s : State} (hs : Kept pq s) : Kept2 pq (leafDeregister l s) := by
  unfold leafDeregister
  extract_lets +onlyGivenNames x1
  clear_value x1
  apply kept2_ite
  · apply kept2_mk
    apply kept_sendControl
    apply kept_setCond
    apply kept_setCtx
    exact hs
  · apply kept2_mk
    exact hs

theorem kept_execLeafRangeAgain {pq : List Instr} (k : Nat) (l : Nat) {s : State} (hs : Kept pq s) : KeptOut pq
    (execLeafRangeAgain k l s) := by
  unfold execLeafRangeAgain
  apply keptOut_next
  apply kept_hostCmd
  · exact hs
  · intro t1
    intro h2
    apply kept_leafRangeAgain
    exact h2

theorem kept_execLeafDeregister {pq : List Instr} (k : Nat) (l : Nat) {s : State} (hs : Kept pq s) : KeptOut pq
    (execLeafDeregister k l s) := by
  unfold execLeafDeregister
  apply keptOut_next
  apply kept_hostCmd
  · exact hs
  · intro t1
    intro h2
    apply kept_leafDeregister
    exact h2

theorem kept_markHostWrite {pq : List Instr} {s : State} (l : Nat) (hs : Kept pq s) : Kept pq (markHostWrite s l) := by
  unfold markHostWrite
  apply kept_foldl
  · exact hs
  · intro t1
    intro t2
    intro h3
    apply kept_ite
    · apply kept_setHub
      exact h3
    · exact h3

theorem kept_leafSet {pq : List Instr} {s : State} (l : Nat) (sub : Nat) (v : Val) (hs : Kept pq s) : Kept pq (leafSet s l sub
    v) := by
  unfold leafSet
  extract_lets +onlyGivenNames x1
  clear_value x1
  extract_lets +onlyGivenNames x2
  clear_value x2
  apply kept_setCtx
  exact hs

theorem kept_leafEnableAfter {pq : List Instr} {s : State} (l : Nat) (hs : Kept pq s) : Kept pq (leafEnableAfter s l) := by
  unfold leafEnableAfter
  extract_lets +onlyGivenNames x1
  clear_value x1
  extract_lets +onlyGivenNames x2
  have h2 : Kept pq x2 := by
    unfold x2
    apply kept_setCond
    exact hs
  clear_value x2
  apply kept_ite
  · apply kept_sendControl
    apply kept_setCond
    apply kept_setCtx
    exact h2
  · apply kept_ite
    · apply kept_setCtx
      exact h2
    · exact h2

theorem kept_hubKeyRollover {pq : List Instr} (i : Nat) {s : State} (hs : Kept pq s) : Kept2 pq (hubKeyRollover i s) := by
  unfold hubKeyRollover
  extract_lets +onlyGivenNames x1
  clear_value x1
  extract_lets +onlyGivenNames x2
  clear_value x2
  apply kept2_ite
  · apply kept2_mk
    exact hs
  · apply kept2_ite
    · apply kept2_mk
      exact hs
    · apply kept2_ite
      · apply kept2_mk
        exact hs
      · extract_lets +onlyGivenNames x3
        clear_value x3
        extract_lets +onlyGivenNames x4
        have h4 : Kept2 pq x4 := by
          unfold x4
          apply kept_drawEpoch
          exact hs
        clear_value x4
        extract_lets +onlyGivenNames x5
        have h5 : Kept pq x5 := by
          unfold x5
          apply kept_setN
          apply kept_setHub
          apply Kept2.out
          exact h4
        clear_value x5
        extract_lets +onlyGivenNames x6
        have h6 : Kept pq x6 := by
          unfold x6
          split
          · apply kept_foldl
            · exact h5
            · intro t7 t8 h9
              apply kept_sendKeyInfo
              exact h9
          · exact h5
        clear_value x6
        apply kept2_mk
        apply kept_slotsRefresh
        exact h6

theorem kept_execHubKeyRollover {pq : List Instr} (k : Nat) (i : Nat) {s : State} (hs : Kept pq s) : KeptOut pq
    (execHubKeyRollover k i s) := by
  unfold execHubKeyRollover
  apply keptOut_next
  apply kept_hostCmd
  · exact hs
  · intro t1
    intro h2
    apply kept_hubKeyRollover
    exact h2

theorem kept_execHubRolloverEffective {pq : List Instr} (i : Nat) {s : State} (hs : Kept pq s) : KeptOut pq
    (execHubRolloverEffective i s) := by
  unfold execHubRolloverEffective
  apply keptOut_onUnit
  · exact hs
  · intro t1 h2
    extract_lets +onlyGivenNames x3
    clear_value x3
    split
    · exact h2
    · extract_lets +onlyGivenNames x4
      clear_value x4
      extract_lets +onlyGivenNames x5
      have h5 : Kept pq x5 := by
        unfold x5
        apply kept_setN
        apply kept_setN
        exact h2
      clear_value x5
      extract_lets +onlyGivenNames x6
      have h6 : Kept pq x6 := by
        unfold x6
        apply kept_setCond
        exact h5
      clear_value x6
      extract_lets +onlyGivenNames x7
      have h7 : Kept pq x7 := by
        unfold x7
        split
        · apply kept_leafEpochs
          exact h6
        · exact h6
      clear_value x7
      apply kept_slotsRefresh
      apply kept_setHub
      exact h7

theorem kept_execHubRolloverEnd {pq : List Instr} (i : Nat) {s : State} (hs : Kept pq s) : KeptOut pq (execHubRolloverEnd i s)
    := by
  unfold execHubRolloverEnd
  apply keptOut_onUnit
  · exact hs
  · intro t1
    intro h2
    apply kept_ite
    · exact h2
    · apply kept_slotsRefresh
      apply kept_setN
      apply kept_setHub
      exact h2

theorem kept_hubCopied {pq : List Instr} {old : State} {s : State} (hs : Kept pq s) (i : Nat) : Kept pq (hubCopied old s i) :=
    by
  unfold hubCopied
  extract_lets +onlyGivenNames x1
  clear_value x1
  extract_lets +onlyGivenNames x2
  have h2 : Kept pq x2 := by
    unfold x2
    apply kept_ite
    · apply kept_setHub
      exact hs
    · exact hs
  clear_value x2
  extract_lets +onlyGivenNames x3
  have h3 : Kept pq x3 := by
    unfold x3
    apply kept_hubRewind
    exact h2
  clear_value x3
  extract_lets +onlyGivenNames x4
  clear_value x4
  extract_lets +onlyGivenNames x5
  have h5 : Kept pq x5 := by
    unfold x5
    apply kept_ite
    · apply kept_burstClear
      apply kept_setHub
      exact h3
    · exact h2
  clear_value x5
  extract_lets +onlyGivenNames x6
  clear_value x6
  extract_lets +onlyGivenNames x7
  have h7 : Kept pq x7 := by
    unfold x7
    apply kept_ite
    · exact h5
    · apply kept_setN
      apply kept_setHub
      exact h5
  clear_value x7
  apply kept_slotsRefresh
  apply kept_trayRefresh
  exact h7

theorem kept_execHubIngressFrame {pq : List Instr} (j : Nat) (frame : Bytes) {s : State} (hs : Kept pq s) : KeptOut pq
    (execHubIngressFrame j frame s) := by
  unfold execHubIngressFrame
  apply keptOut_onUnit
  · exact hs
  · intro t1
    intro h2
    extract_lets +onlyGivenNames x3
    clear_value x3
    apply kept_ite
    · exact h2
    · split
      · apply kept_bump
        exact h2
      · extract_lets +onlyGivenNames x4
        clear_value x4
        extract_lets +onlyGivenNames x5
        clear_value x5
        apply kept_ite
        · apply kept_bump
          exact h2
        · extract_lets +onlyGivenNames x6
          have h6 : Kept pq x6 := by
            unfold x6
            apply kept_setLeafRun
            exact h2
          clear_value x6
          apply kept_ite
          · apply kept_hold
            apply kept_bump
            exact h2
          · apply kept_peak
            exact h6

theorem kept_queueFlush {pq : List Instr} (q : Nat) {s : State} (hs : Kept pq s) : Kept2 pq (queueFlush q s) := by
  unfold queueFlush
  extract_lets +onlyGivenNames x1
  clear_value x1
  extract_lets +onlyGivenNames x2
  clear_value x2
  apply kept2_mk
  apply kept_bumpBy
  apply kept_bump
  apply kept_setLeafRun
  exact hs

theorem kept_execQueueFlush {pq : List Instr} (k : Nat) (q : Nat) {s : State} (hs : Kept pq s) : KeptOut pq (execQueueFlush k q
    s) := by
  unfold execQueueFlush
  apply keptOut_next
  apply kept_hostCmd
  · exact hs
  · intro t1
    intro h2
    apply kept_queueFlush
    exact h2

theorem kept_hubEgressTick {pq : List Instr} {s : State} (hs : Kept pq s) : Kept pq (hubEgressTick s) := by
  unfold hubEgressTick
  apply kept_foldl
  · exact hs
  · intro t1 t2 h3
    extract_lets +onlyGivenNames x4
    clear_value x4
    extract_lets +onlyGivenNames x5
    clear_value x5
    extract_lets +onlyGivenNames x6
    have h6 : Kept pq x6 := by
      unfold x6
      apply kept_mk
      exact h3
    clear_value x6
    split
    · apply kept_setTray
      exact h6
    · exact h6

theorem kept_clearHubCounters {pq : List Instr} {s : State} (hs : Kept pq s) : Kept2 pq (clearHubCounters s) := by
  unfold clearHubCounters
  extract_lets +onlyGivenNames x1
  have h1 : Kept pq x1 := by
    unfold x1
    apply kept_clearObjs
    exact hs
  clear_value x1
  apply kept2_mk
  apply kept_foldl
  · exact h1
  · intro t2
    intro t3
    intro h4
    apply kept_setCtx
    exact h4

theorem kept_execClearHubCounters {pq : List Instr} (k : Nat) {s : State} (hs : Kept pq s) : KeptOut pq (execClearHubCounters k
    s) := by
  unfold execClearHubCounters
  apply keptOut_next
  apply kept_hostCmd
  · exact hs
  · intro t1
    intro h2
    apply kept_clearHubCounters
    exact h2

theorem kept_seedWritten {pq : List Instr} {s : State} (l : Nat) (b : Bytes) (hs : Kept pq s) : Kept pq (seedWritten s l b) := by
  unfold seedWritten
  apply kept_markHostWrite
  apply kept_setCtx
  exact hs

theorem kept_hubAfter {pq : List Instr} {old : State} {s : State} (hs : Kept pq s) (key : Nat) : Kept pq (hubAfter old s key)
    := by
  unfold hubAfter
  extract_lets +onlyGivenNames x1
  clear_value x1
  extract_lets +onlyGivenNames x2
  clear_value x2
  apply kept_ite
  · apply kept_ite
    · apply kept_leafEnableAfter
      exact hs
    · exact hs
  · apply kept_ite
    · extract_lets +onlyGivenNames x3
      have h3 : Kept pq x3 := by
        unfold x3
        apply kept_ite
        · exact hs
        · apply kept_hubStop
          exact hs
      clear_value x3
      extract_lets +onlyGivenNames x4
      have h4 : Kept pq x4 := by
        unfold x4
        apply kept_foldl
        · exact h3
        · intro t5 t6 h7
          apply kept_slotsRefresh
          apply kept_trayRefresh
          exact h7
      clear_value x4
      apply kept_skewJudge
      apply kept_dcNote
      exact h4
    · exact hs

end Sys2Proof.Machine
end

