-- ==== Sys2Proof/Laws/KeptTransmit.lean ====
section
/-! SUPPORT. Every operation of Machine/Transmit.lean keeps the queue and the well-formedness of the state. -/

namespace Sys2Proof.Machine

theorem kept_nextFrame {pq : List Instr} {s : State} (a q : Nat) (hs : Kept pq s) : Kept2 pq (nextFrame s a q) := by
  induction q with
  | zero => exact ⟨hs⟩
  | succ q ih =>
    rw [nextFrame]
    split
    · exact ih
    · rename_i m _
      have hm := (kept_memberTake m.1 q hs).out
      split
      · rename_i e
        rw [e] at hm
        exact ⟨hm⟩
      · rename_i e
        rw [e] at hm
        exact ⟨kept_setTray hm _ _⟩

theorem kept_aggStream {pq : List Instr} (a : Nat) (p : Nat) (a2 : Nat) (a3 : List Bool) {a4 : State} (ha4 : Kept pq a4) : Kept2
    pq (aggStream a p a2 a3 a4) := by
  induction a2 generalizing a p a3 a4 with
  | zero =>
    rw [aggStream]
    apply kept2_mk
    exact ha4
  | succ a2 ih =>
    rw [aggStream]
    apply kept2_ite
    · apply kept2_mk
      exact ha4
    · extract_lets +onlyGivenNames x1
      have h1 : Kept2 pq x1 := by
        unfold x1
        apply kept_nextFrame
        exact ha4
      clear_value x1
      apply ih
      apply Kept2.out
      exact h1

theorem kept_pathPayload {pq : List Instr} {s : State} (hs : Kept pq s) (t : Nat) (prot : Bool) (f : TrayFeed) (p : Nat) :
    Kept4 pq (pathPayload s t prot f p) := by
  unfold pathPayload
  extract_lets +onlyGivenNames x1
  clear_value x1
  extract_lets +onlyGivenNames x2
  clear_value x2
  split
  · extract_lets +onlyGivenNames x3
    clear_value x3
    extract_lets +onlyGivenNames x4
    clear_value x4
    extract_lets +onlyGivenNames x5
    have h5 : Kept pq x5 := by
      unfold x5
      apply kept_ite
      · apply kept_countEv
        exact hs
      · exact hs
    clear_value x5
    apply kept4_mk
    apply kept_setTrayPath
    exact h5
  · extract_lets +onlyGivenNames x6
    clear_value x6
    extract_lets +onlyGivenNames x7
    clear_value x7
    extract_lets +onlyGivenNames x8
    have h8 : Kept pq x8 := by
      unfold x8
      apply kept_countEv
      exact hs
    clear_value x8
    apply kept4_mk
    apply kept_setTrayPath
    exact h8
  · extract_lets +onlyGivenNames x9
    have h9 : Kept2 pq x9 := by
      unfold x9
      apply kept2_ite
      · apply kept2_mk
        exact hs
      · apply kept_aggStream
        exact hs
    clear_value x9
    extract_lets +onlyGivenNames x10
    have h10 : Kept pq x10 := by
      unfold x10
      apply kept_countEv
      apply Kept2.out
      exact h9
    clear_value x10
    extract_lets +onlyGivenNames x11
    clear_value x11
    apply kept4_mk
    apply kept_setTrayPath
    exact h10
  · apply kept_hubTake
    exact hs

theorem kept_pathArea {pq : List Instr} {s : State} (q : Placed) (f : TrayFeed) (len : Nat) (hs : Kept pq s) : Kept2 pq
    (pathArea s q f len) := by
  unfold pathArea
  extract_lets +onlyGivenNames x1
  clear_value x1
  extract_lets +onlyGivenNames x2
  clear_value x2
  extract_lets +onlyGivenNames x3
  clear_value x3
  extract_lets +onlyGivenNames x4
  have h4 : Kept4 pq x4 := by
    unfold x4
    apply kept_pathPayload
    exact hs
  clear_value x4
  extract_lets +onlyGivenNames x5
  clear_value x5
  extract_lets +onlyGivenNames x6
  have h6 : Kept2 pq x6 := by
    unfold x6
    apply kept2_ite
    · apply kept2_mk
      apply Kept4.out
      exact h4
    · apply kept_sealArea
      apply Kept4.out
      exact h4
  clear_value x6
  apply kept2_mk
  apply Kept2.out
  exact h6

theorem kept_blockPayload {pq : List Instr} {s : State} (n : Nat) (c : Nat) (feeds : List TrayFeed) (hs : Kept pq s) : Kept2 pq
    (blockPayload s n c feeds) := by
  unfold blockPayload
  extract_lets +onlyGivenNames x1
  clear_value x1
  extract_lets +onlyGivenNames x2
  clear_value x2
  extract_lets +onlyGivenNames x3
  clear_value x3
  extract_lets +onlyGivenNames x4
  clear_value x4
  extract_lets +onlyGivenNames x5
  clear_value x5
  extract_lets +onlyGivenNames x6
  have h6 : Kept2 pq x6 := by
    unfold x6
    apply kept2_foldl
    · apply kept2_mk
      exact hs
    · intro t7
      intro t8
      intro h9
      extract_lets +onlyGivenNames x10
      clear_value x10
      extract_lets +onlyGivenNames x11
      have h11 : Kept2 pq x11 := by
        unfold x11
        apply kept_pathArea
        apply Kept2.out
        exact h9
      clear_value x11
      apply kept2_mk
      apply Kept2.out
      exact h11
  clear_value x6
  apply kept2_mk
  apply Kept2.out
  exact h6

theorem kept_controlAt {pq : List Instr} {s : State} (n : Nat) (c : Nat) (hs : Kept pq s) : Kept2 pq (controlAt s n c) := by
  unfold controlAt
  split
  · apply kept2_mk
    exact hs
  · split
    · apply kept2_mk
      exact hs
    · extract_lets +onlyGivenNames x1
      clear_value x1
      extract_lets +onlyGivenNames x2
      have h2 : Kept2 pq x2 := by
        unfold x2
        apply kept_serviceSegment
        exact hs
      clear_value x2
      split
      · apply kept2_mk
        apply kept_setKlfTx
        apply Kept2.out
        exact h2
      · apply kept2_mk
        apply Kept2.out
        exact h2

theorem kept_confirmationAt {pq : List Instr} {s : State} (n : Nat) (hs : Kept pq s) : Kept2 pq (confirmationAt s n) := by
  unfold confirmationAt
  extract_lets +onlyGivenNames x1
  clear_value x1
  apply kept2_ite
  · apply kept2_mk
    exact hs
  · apply kept2_mk
    apply kept_setKlfTx
    exact hs

theorem kept_spansAt {pq : List Instr} {s : State} (n : Nat) (c : Nat) (hs : Kept pq s) : Kept pq (spansAt s n c) := by
  unfold spansAt
  apply kept_foldl
  · exact hs
  · intro t1
    intro t2
    intro h3
    apply kept_ite
    · exact h3
    · apply kept_spanBoundary
      exact h3

theorem kept_sendBlock {pq : List Instr} {s : State} (n : Nat) (c : Nat) (feeds : List TrayFeed) (hs : Kept pq s) : Kept pq
    (sendBlock s n c feeds) := by
  unfold sendBlock
  extract_lets +onlyGivenNames x1
  clear_value x1
  extract_lets +onlyGivenNames x2
  clear_value x2
  extract_lets +onlyGivenNames x3
  have h3 : Kept pq x3 := by
    unfold x3
    apply kept_spansAt
    exact hs
  clear_value x3
  extract_lets +onlyGivenNames x4
  have h4 : Kept2 pq x4 := by
    unfold x4
    apply kept_controlAt
    exact h3
  clear_value x4
  extract_lets +onlyGivenNames x5
  have h5 : Kept2 pq x5 := by
    unfold x5
    apply kept_takeTags
    apply Kept2.out
    exact h4
  clear_value x5
  extract_lets +onlyGivenNames x6
  have h6 : Kept2 pq x6 := by
    unfold x6
    apply kept_confirmationAt
    apply Kept2.out
    exact h5
  clear_value x6
  extract_lets +onlyGivenNames x7
  have h7 : Kept2 pq x7 := by
    unfold x7
    apply kept_nextCell
    apply Kept2.out
    exact h6
  clear_value x7
  extract_lets +onlyGivenNames x8
  have h8 : Kept pq x8 := by
    unfold x8
    apply Kept2.out
    exact h7
  clear_value x8
  extract_lets +onlyGivenNames x9
  clear_value x9
  extract_lets +onlyGivenNames x10
  have h10 : Kept2 pq x10 := by
    unfold x10
    apply kept_blockPayload
    exact h8
  clear_value x10
  extract_lets +onlyGivenNames x11
  have h11 : Kept pq x11 := by
    unfold x11
    apply Kept2.out
    exact h10
  clear_value x11
  extract_lets +onlyGivenNames x12
  clear_value x12
  extract_lets +onlyGivenNames x13
  clear_value x13
  extract_lets +onlyGivenNames x14
  clear_value x14
  extract_lets +onlyGivenNames x15
  clear_value x15
  extract_lets +onlyGivenNames x16
  clear_value x16
  apply kept_setKlfTx
  exact h11

theorem kept_dacCount {pq : List Instr} {s : State} (hs : Kept pq s) (n : Nat) : Kept pq (dacCount s n) := by
  unfold dacCount
  apply kept_ite
  · exact hs
  · extract_lets +onlyGivenNames x1
    clear_value x1
    apply kept_setEngine
    exact hs

theorem kept_txUnderrun {pq : List Instr} {s : State} (hs : Kept pq s) (n : Nat) (trays : List Nat) : Kept pq (txUnderrun s n
    trays) := by
  unfold txUnderrun
  apply kept_foldl
  · apply kept_setN
    apply kept_bump
    exact hs
  · intro t1 t2 h3
    apply kept_hold
    exact h3

theorem kept_execKlfBlockTransmit {pq : List Instr} (n : Nat) (feeds : List TrayFeed) (fill : Nat) {s : State} (hs : Kept pq
    s) : KeptOut pq (execKlfBlockTransmit n feeds fill s) := by
  unfold execKlfBlockTransmit
  apply keptOut_onUnit
  · exact hs
  · intro t1 h2
    extract_lets +onlyGivenNames x3
    clear_value x3
    apply kept_ite
    · exact h2
    · extract_lets +onlyGivenNames x4
      clear_value x4
      extract_lets +onlyGivenNames x5
      clear_value x5
      extract_lets +onlyGivenNames x6
      have h6 : Kept pq x6 := by
        unfold x6
        apply kept_setN
        apply kept_setEngine
        exact h2
      clear_value x6
      apply kept_ite
      · exact h6
      · extract_lets +onlyGivenNames x7
        have h7 : Kept pq x7 := by
          unfold x7
          apply kept_peak
          apply kept_setN
          exact h6
        clear_value x7
        extract_lets +onlyGivenNames x8
        clear_value x8
        extract_lets +onlyGivenNames x9
        have h9 : Kept pq x9 := by
          unfold x9
          apply kept_ite
          · exact h7
          · apply kept_txUnderrun
            exact h7
        clear_value x9
        apply kept_ite
        · extract_lets +onlyGivenNames x10
          clear_value x10
          extract_lets +onlyGivenNames x11
          have h11 : Kept pq x11 := by
            unfold x11
            apply kept_sendBlock
            exact h9
          clear_value x11
          apply kept_ite
          · apply kept_dacCount
            exact h11
          · exact h11
        · apply kept_foldl
          · exact h9
          · intro t12 t13 h14
            apply kept_countEv
            exact h14

end Sys2Proof.Machine
end

