-- ==== Sys2Proof/Laws/KeptReceive.lean ====
section
/-! SUPPORT. Every operation of Machine/Receive.lean keeps the queue and the well-formedness of the state. -/

namespace Sys2Proof.Machine

theorem kept_headerAccept {pq : List Instr} {s : State} (n : Nat) (record : Nat) (hs : Kept pq s) : Kept pq (headerAccept s n
    record) := by
  unfold headerAccept
  extract_lets +onlyGivenNames x1
  have h1 : Kept pq x1 := by
    unfold x1
    apply kept_recordAdopt
    exact hs
  clear_value x1
  extract_lets +onlyGivenNames x2
  clear_value x2
  extract_lets +onlyGivenNames x3
  clear_value x3
  apply kept_demapStart
  apply kept_setEngine
  exact h1

theorem kept_execHeaderSignsRead {pq : List Instr} (n : Nat) (header : Nat) {s : State} (hs : Kept pq s) : KeptOut pq
    (execHeaderSignsRead n header s) := by
  unfold execHeaderSignsRead
  apply keptOut_onUnit
  · exact hs
  · intro t1
    intro h2
    apply kept_ite
    · exact h2
    · extract_lets +onlyGivenNames x3
      clear_value x3
      extract_lets +onlyGivenNames x4
      clear_value x4
      extract_lets +onlyGivenNames x5
      clear_value x5
      extract_lets +onlyGivenNames x6
      clear_value x6
      split
      · apply kept_ite
        · exact h2
        · apply kept_ite
          · apply kept_setKlfRx
            exact h2
          · extract_lets +onlyGivenNames x7
            clear_value x7
            apply kept_ite
            · apply kept_headerAccept
              exact h2
            · apply kept_setKlfRx
              exact h2
      · apply kept_ite
        · exact h2
        · apply kept_ite
          · apply kept_ite
            · extract_lets +onlyGivenNames x8
              have h8 : Kept pq x8 := by
                unfold x8
                apply kept_recordAdopt
                exact h2
              clear_value x8
              apply kept_bump
              apply kept_setKlfRx
              exact h8
            · exact h2
          · apply kept_setKlfRx
            exact h2
      · exact h2

theorem kept_mapCompare {pq : List Instr} {s : State} (n : Nat) (counter : Nat) (cell : Nat) (hs : Kept pq s) : Kept pq
    (mapCompare s n counter cell) := by
  unfold mapCompare
  extract_lets +onlyGivenNames x1
  clear_value x1
  extract_lets +onlyGivenNames x2
  clear_value x2
  extract_lets +onlyGivenNames x3
  clear_value x3
  extract_lets +onlyGivenNames x4
  clear_value x4
  extract_lets +onlyGivenNames x5
  clear_value x5
  extract_lets +onlyGivenNames x6
  clear_value x6
  extract_lets +onlyGivenNames x7
  clear_value x7
  extract_lets +onlyGivenNames x8
  have h8 : Kept pq x8 := by
    unfold x8
    apply kept_setKlfRx
    exact hs
  clear_value x8
  apply kept_ite
  · apply kept_setCond
    apply kept_setB
    exact h8
  · apply kept_ite
    · apply kept_setCond
      apply kept_setB
      exact h8
    · exact h8

theorem kept_trayGives {pq : List Instr} {s : State} (hs : Kept pq s) (t : Nat) (bits : List Bool) : Kept pq (trayGives s t
    bits) := by
  unfold trayGives
  extract_lets +onlyGivenNames x1
  clear_value x1
  apply kept_setTray
  exact hs

theorem kept_giveBlocks {pq : List Instr} {s : State} (hs : Kept pq s) (t : Nat) (prot : Bool) (pos : Nat) (off : Nat) (bs :
    List (Bool × Bool)) : Kept pq (giveBlocks s t prot pos off bs) := by
  unfold giveBlocks
  extract_lets +onlyGivenNames x1
  clear_value x1
  extract_lets +onlyGivenNames x2
  clear_value x2
  extract_lets +onlyGivenNames x3
  clear_value x3
  extract_lets +onlyGivenNames x4
  clear_value x4
  extract_lets +onlyGivenNames x5
  clear_value x5
  extract_lets +onlyGivenNames x6
  have h6 : Kept pq x6 := by
    unfold x6
    apply kept_setTrayPath
    exact hs
  clear_value x6
  apply kept_bumpBy
  apply kept_trayGives
  exact h6

theorem kept_giveClient {pq : List Instr} {s : State} (hs : Kept pq s) (t : Nat) (prot : Bool) (pos : Nat) (off : Nat) (bs :
    List (Bool × Bool)) : Kept pq (giveClient s t prot pos off bs) := by
  unfold giveClient
  apply kept_ite
  · apply kept_giveBlocks
    exact hs
  · apply kept_trayGives
    exact hs

theorem kept_clockTaken {pq : List Instr} {s : State} (hs : Kept pq s) (t : Nat) (cm : Nat) : Kept pq (clockTaken s t cm) :=
    by
  unfold clockTaken
  extract_lets +onlyGivenNames x1
  clear_value x1
  apply kept_setTray
  exact hs

theorem kept_frameDropped {pq : List Instr} {s : State} (t : Nat) (hs : Kept pq s) : Kept pq (frameDropped s t) := by
  unfold frameDropped
  apply kept_countEv
  apply kept_bump
  exact hs

theorem kept_aggLost {pq : List Instr} {s : State} (t : Nat) (hs : Kept pq s) : Kept pq (aggLost s t) := by
  unfold aggLost
  extract_lets +onlyGivenNames x1
  have h1 : Kept pq x1 := by
    unfold x1
    apply kept_ite
    · apply kept_frameDropped
      exact hs
    · exact hs
  clear_value x1
  apply kept_setTray
  exact h1

theorem kept_aggWord {pq : List Instr} {s : State} (t : Nat) (w : List (Bool × Bool)) (hs : Kept pq s) : Kept pq (aggWord s t w)
    := by
  unfold aggWord
  extract_lets +onlyGivenNames x1
  clear_value x1
  extract_lets +onlyGivenNames x2
  clear_value x2
  extract_lets +onlyGivenNames x3
  clear_value x3
  apply kept_ite
  · extract_lets +onlyGivenNames x4
    clear_value x4
    apply kept_ite
    · apply kept_setTray
      apply kept_frameDropped
      exact hs
    · apply kept_ite
      · exact hs
      · extract_lets +onlyGivenNames x5
        clear_value x5
        apply kept_setTray
        exact hs
  · extract_lets +onlyGivenNames x6
    clear_value x6
    extract_lets +onlyGivenNames x7
    clear_value x7
    apply kept_ite
    · apply kept_setTray
      exact hs
    · extract_lets +onlyGivenNames x8
      clear_value x8
      extract_lets +onlyGivenNames x9
      have h9 : Kept pq x9 := by
        unfold x9
        apply kept_setTray
        exact hs
      clear_value x9
      apply kept_ite
      · apply kept_frameDropped
        exact h9
      · split
        · apply kept_frameDropped
          exact h9
        · apply kept_countEv
          apply kept_memberEgress
          exact h9

theorem kept_aggRun {pq : List Instr} (t : Nat) (a1 : Nat) {a2 : State} (ha2 : Kept pq a2) : Kept pq (aggRun t a1 a2) := by
  induction a1 generalizing t a2 with
  | zero =>
    rw [aggRun]
    exact ha2
  | succ a1 ih =>
    rw [aggRun]
    apply kept_ite
    · exact ha2
    · apply ih
      apply kept_aggWord
      apply kept_setTray
      exact ha2

theorem kept_aggReceive {pq : List Instr} {s : State} (t : Nat) (count : Nat) (bs : List (Bool × Bool)) (hs : Kept pq s) : Kept
    pq (aggReceive s t count bs) := by
  unfold aggReceive
  extract_lets +onlyGivenNames x1
  clear_value x1
  apply kept_ite
  · apply kept_aggRun
    apply kept_setTray
    exact hs
  · apply kept_ite
    · apply kept_aggRun
      apply kept_setTray
      exact hs
    · exact hs

theorem kept_deliverArea {pq : List Instr} {s : State} (hs : Kept pq s) (t : Nat) (prot : Bool) (h : Nat) (ok : Bool) (bs :
    List (Bool × Bool)) : Kept pq (deliverArea s t prot h ok bs) := by
  unfold deliverArea
  apply kept_ite
  · exact hs
  · apply kept_ite
    · apply kept_ite
      · apply kept_aggLost
        exact hs
      · exact hs
    · split
      · extract_lets +onlyGivenNames x1
        clear_value x1
        extract_lets +onlyGivenNames x2
        clear_value x2
        apply kept_giveClient
        apply kept_clockTaken
        apply kept_countEv
        exact hs
      · apply kept_giveClient
        apply kept_countEv
        exact hs
      · apply kept_aggReceive
        exact hs
      · exact hs

theorem kept_deliverSpan {pq : List Instr} {s : State} (t : Nat) (prot : Bool) (sp : Span) (plain : List (Bool × Bool)) (hs :
    Kept pq s) : Kept pq (deliverSpan s t prot sp plain) := by
  unfold deliverSpan
  apply kept_foldl
  · exact hs
  · intro t1
    intro t2
    intro h3
    apply kept_deliverArea
    exact h3

theorem kept_spanOut {pq : List Instr} {s : State} (hs : Kept pq s) (t : Nat) (prot : Bool) : Kept pq (spanOut s t prot) := by
  unfold spanOut
  apply kept_ite
  · exact hs
  · apply kept_ite
    · apply kept_aggLost
      exact hs
    · apply kept_ite
      · apply kept_setTray
        exact hs
      · exact hs

theorem kept_spanCheck {pq : List Instr} {s : State} (hs : Kept pq s) (t : Nat) (prot : Bool) (n : Notice) (sp : Span) (tags :
    List (Nat × Nat × Nat)) : Kept pq (spanCheck s t prot n sp tags) := by
  unfold spanCheck
  split
  · apply kept_spanOut
    apply kept_spanFailed
    exact hs
  · split
    · apply kept_spanOut
      apply kept_spanFailed
      exact hs
    · extract_lets +onlyGivenNames x1
      have h1 : Kept pq x1 := by
        unfold x1
        apply kept_spanVerified
        exact hs
      clear_value x1
      apply kept_ite
      · apply kept_deliverSpan
        exact h1
      · exact h1

theorem kept_sealedBlock {pq : List Instr} {s : State} (hs : Kept pq s) (t : Nat) (prot : Bool) (c : Nat) (h : Nat) (bs : List
    (Bool × Bool)) (tags : List (Nat × Nat × Nat)) : Kept pq (sealedBlock s t prot c h bs tags) := by
  unfold sealedBlock
  extract_lets +onlyGivenNames x1
  clear_value x1
  extract_lets +onlyGivenNames x2
  have h2 : Kept pq x2 := by
    unfold x2
    split
    · apply kept_ite
      · apply kept_spanCheck
        exact hs
      · exact hs
    · exact hs
  clear_value x2
  extract_lets +onlyGivenNames x3
  clear_value x3
  extract_lets +onlyGivenNames x4
  clear_value x4
  extract_lets +onlyGivenNames x5
  clear_value x5
  extract_lets +onlyGivenNames x6
  clear_value x6
  extract_lets +onlyGivenNames x7
  clear_value x7
  extract_lets +onlyGivenNames x8
  clear_value x8
  extract_lets +onlyGivenNames x9
  have h9 : Kept pq x9 := by
    unfold x9
    apply kept_setTrayPath
    exact h2
  clear_value x9
  split
  · extract_lets +onlyGivenNames x10
    clear_value x10
    extract_lets +onlyGivenNames x11
    clear_value x11
    extract_lets +onlyGivenNames x12
    have h12 : Kept pq x12 := by
      unfold x12
      apply kept_setTrayPath
      exact h9
    clear_value x12
    apply kept_ite
    · apply kept_deliverArea
      exact h12
    · exact h12
  · apply kept_slotsRefresh
    exact h9

theorem kept_alignStep {pq : List Instr} {s : State} (n : Nat) (pass : Bool) (hs : Kept pq s) : Kept pq (alignStep s n pass) := by
  unfold alignStep
  extract_lets +onlyGivenNames x1
  clear_value x1
  extract_lets +onlyGivenNames x2
  clear_value x2
  extract_lets +onlyGivenNames x3
  clear_value x3
  extract_lets +onlyGivenNames x4
  have h4 : Kept pq x4 := by
    unfold x4
    apply kept_setKlfRx
    exact hs
  clear_value x4
  extract_lets +onlyGivenNames x5
  clear_value x5
  apply kept_ite
  · extract_lets +onlyGivenNames x6
    have h6 : Kept pq x6 := by
      unfold x6
      apply kept_setCond
      apply kept_setN
      exact h4
    clear_value x6
    extract_lets +onlyGivenNames x7
    have h7 : Kept pq x7 := by
      unfold x7
      apply kept_ite
      · exact h6
      · apply kept_setN
        exact h6
    clear_value x7
    extract_lets +onlyGivenNames x8
    have h8 : Kept pq x8 := by
      unfold x8
      apply kept_ite
      · apply kept_trackEntry
        exact h7
      · exact h7
    clear_value x8
    apply kept_traysRefresh
    exact h8
  · apply kept_ite
    · apply kept_traysRefresh
      apply kept_raise
      apply kept_bump
      apply kept_setN
      exact h4
    · exact h4

theorem kept_controlTaken {pq : List Instr} {s : State} (hs : Kept pq s) (n : Nat) (cell : Nat) : Kept pq (controlTaken s n
    cell) := by
  unfold controlTaken
  extract_lets +onlyGivenNames x1
  clear_value x1
  extract_lets +onlyGivenNames x2
  clear_value x2
  apply kept_ite
  · exact hs
  · apply kept_ite
    · extract_lets +onlyGivenNames x3
      clear_value x3
      apply kept_setKlfRx
      exact hs
    · extract_lets +onlyGivenNames x4
      clear_value x4
      apply kept_setKlfRx
      exact hs

theorem kept_pathReceive {pq : List Instr} {s : State} (hs : Kept pq s) (q : Placed) (c : Nat) (off : Nat) (area : List (Bool
    × Bool)) (tags : List (Nat × Nat × Nat)) : Kept pq (pathReceive s q c off area tags) := by
  unfold pathReceive
  extract_lets +onlyGivenNames x1
  clear_value x1
  extract_lets +onlyGivenNames x2
  clear_value x2
  extract_lets +onlyGivenNames x3
  have h3 : Kept pq x3 := by
    unfold x3
    apply kept_ite
    · apply kept_setTray
      exact hs
    · exact hs
  clear_value x3
  extract_lets +onlyGivenNames x4
  clear_value x4
  extract_lets +onlyGivenNames x5
  clear_value x5
  extract_lets +onlyGivenNames x6
  have h6 : Kept pq x6 := by
    unfold x6
    apply kept_ite
    · apply kept_setN
      exact h3
    · exact h3
  clear_value x6
  extract_lets +onlyGivenNames x7
  have h7 : Kept pq x7 := by
    unfold x7
    apply kept_pathBlock
    exact h6
  clear_value x7
  extract_lets +onlyGivenNames x8
  clear_value x8
  apply kept_ite
  · apply kept_ite
    · apply kept_sealedBlock
      exact h7
    · exact h7
  · apply kept_deliverArea
    exact h7

theorem kept_payloadReceive {pq : List Instr} {s : State} (hs : Kept pq s) (n : Nat) (c : Nat) (data : List (Bool × Bool))
    (tags : List (Nat × Nat × Nat)) : Kept pq (payloadReceive s n c data tags) := by
  unfold payloadReceive
  extract_lets +onlyGivenNames x1
  clear_value x1
  extract_lets +onlyGivenNames x2
  clear_value x2
  extract_lets +onlyGivenNames x3
  clear_value x3
  extract_lets +onlyGivenNames x4
  clear_value x4
  extract_lets +onlyGivenNames x5
  clear_value x5
  extract_lets +onlyGivenNames x6
  clear_value x6
  apply kept_foldl
  · exact hs
  · intro t7 t8 h9
    extract_lets +onlyGivenNames x10
    clear_value x10
    apply kept_ite
    · exact h9
    · apply kept_pathReceive
      exact h9

theorem kept_spansDropped {pq : List Instr} {s : State} (n : Nat) (hs : Kept pq s) : Kept pq (spansDropped s n) := by
  unfold spansDropped
  apply kept_foldl
  · exact hs
  · intro t1
    intro t2
    intro h3
    extract_lets +onlyGivenNames x4
    clear_value x4
    apply kept_ite
    · apply kept_setTrayPath
      exact h3
    · exact h3

theorem kept_slipOut {pq : List Instr} {s : State} (hs : Kept pq s) (t : Nat) : Kept pq (slipOut s t) := by
  unfold slipOut
  split
  · apply kept_setTray
    exact hs
  · exact hs
  · apply kept_setTray
    exact hs

theorem kept_rxOverrun {pq : List Instr} {s : State} (hs : Kept pq s) (n : Nat) : Kept pq (rxOverrun s n) := by
  unfold rxOverrun
  apply kept_foldl
  · apply kept_spansDropped
    apply kept_setN
    apply kept_bump
    exact hs
  · intro t1 t2 h3
    extract_lets +onlyGivenNames x4
    have h4 : Kept pq x4 := by
      unfold x4
      apply kept_aggLost
      apply kept_hold
      exact h3
    clear_value x4
    apply kept_ite
    · apply kept_slipOut
      exact h4
    · exact h4

theorem kept_blockReceive {pq : List Instr} {s : State} (hs : Kept pq s) (n : Nat) (b : DecodedBlock) : Kept pq (blockReceive
    s n b) := by
  unfold blockReceive
  extract_lets +onlyGivenNames x1
  clear_value x1
  extract_lets +onlyGivenNames x2
  clear_value x2
  extract_lets +onlyGivenNames x3
  clear_value x3
  extract_lets +onlyGivenNames x4
  clear_value x4
  extract_lets +onlyGivenNames x5
  clear_value x5
  extract_lets +onlyGivenNames x6
  have h6 : Kept pq x6 := by
    unfold x6
    apply kept_ite
    · apply kept_bump
      exact hs
    · exact hs
  clear_value x6
  extract_lets +onlyGivenNames x7
  clear_value x7
  extract_lets +onlyGivenNames x8
  clear_value x8
  extract_lets +onlyGivenNames x9
  clear_value x9
  extract_lets +onlyGivenNames x10
  clear_value x10
  extract_lets +onlyGivenNames x11
  clear_value x11
  extract_lets +onlyGivenNames x12
  have h12 : Kept pq x12 := by
    unfold x12
    apply kept_setN
    apply kept_setKlfRx
    exact h6
  clear_value x12
  extract_lets +onlyGivenNames x13
  have h13 : Kept pq x13 := by
    unfold x13
    apply kept_ite
    · apply kept_mapCompare
      apply kept_countEv
      exact h12
    · apply kept_setKlfRx
      exact h6
  clear_value x13
  extract_lets +onlyGivenNames x14
  have h14 : Kept pq x14 := by
    unfold x14
    apply kept_ite
    · apply kept_controlTaken
      exact h13
    · exact h13
  clear_value x14
  extract_lets +onlyGivenNames x15
  clear_value x15
  extract_lets +onlyGivenNames x16
  have h16 : Kept pq x16 := by
    unfold x16
    apply kept_foldl
    · exact h14
    · intro t17 t18 h19
      apply kept_ite
      · apply kept_sealMismatch
        exact h19
      · exact h19
  clear_value x16
  extract_lets +onlyGivenNames x20
  have h20 : Kept pq x20 := by
    unfold x20
    apply kept_alignStep
    exact h16
  clear_value x20
  apply kept_ite
  · apply kept_rxOverrun
    exact h20
  · apply kept_ite
    · apply kept_payloadReceive
      exact h20
    · apply kept_spansDropped
      exact h20

theorem kept_frameReceive {pq : List Instr} {s : State} (n : Nat) (b : DecodedBlock) (hs : Kept pq s) : Kept pq (frameReceive s
    n b) := by
  unfold frameReceive
  extract_lets +onlyGivenNames x1
  have h1 : Kept pq x1 := by
    unfold x1
    apply kept_ite
    · apply kept_setN
      exact hs
    · exact hs
  clear_value x1
  extract_lets +onlyGivenNames x2
  have h2 : Kept pq x2 := by
    unfold x2
    apply kept_alignStep
    exact h1
  clear_value x2
  apply kept_ite
  · apply kept_rxOverrun
    exact h2
  · apply kept_ite
    · apply kept_foldl
      · exact h2
      · intro t3
        intro t4
        intro h5
        apply kept_ite
        · exact h5
        · apply kept_countEv
          exact h5
    · exact h2

theorem kept_execKlfBlockDecoded {pq : List Instr} (n : Nat) (b : DecodedBlock) {s : State} (hs : Kept pq s) : KeptOut pq
    (execKlfBlockDecoded n b s) := by
  unfold execKlfBlockDecoded
  apply keptOut_onUnit
  · exact hs
  · intro t1
    intro h2
    apply kept_ite
    · exact h2
    · extract_lets +onlyGivenNames x3
      have h3 : Kept pq x3 := by
        unfold x3
        apply kept_peak
        apply kept_setN
        exact h2
      clear_value x3
      extract_lets +onlyGivenNames x4
      have h4 : Kept pq x4 := by
        unfold x4
        apply kept_ite
        · apply kept_blockReceive
          exact h3
        · apply kept_frameReceive
          exact h3
      clear_value x4
      apply kept_foldl
      · exact h4
      · intro t5
        intro t6
        intro h7
        apply kept_ite
        · apply kept_trayRefresh
          apply kept_delayMeasured
          exact h7
        · exact h7

theorem kept_execLofTimer {pq : List Instr} (n : Nat) {s : State} (hs : Kept pq s) : KeptOut pq (execLofTimer n s) := by
  unfold execLofTimer
  apply keptOut_onUnit
  · exact hs
  · intro t1
    intro h2
    apply kept_ite
    · apply kept_lockLost
      exact h2
    · exact h2

theorem kept_execChangeRequestDecoded {pq : List Instr} (n : Nat) {s : State} (hs : Kept pq s) : KeptOut pq
    (execChangeRequestDecoded n s) := by
  unfold execChangeRequestDecoded
  apply keptOut_onUnit
  · exact hs
  · intro t1
    intro h2
    extract_lets +onlyGivenNames x3
    clear_value x3
    extract_lets +onlyGivenNames x4
    clear_value x4
    split
    · exact h2
    · apply kept_ite
      · exact h2
      · extract_lets +onlyGivenNames x5
        clear_value x5
        extract_lets +onlyGivenNames x6
        clear_value x6
        extract_lets +onlyGivenNames x7
        clear_value x7
        extract_lets +onlyGivenNames x8
        have h8 : Kept pq x8 := by
          unfold x8
          apply kept_setKlfRx
          apply kept_bump
          exact h2
        clear_value x8
        apply kept_ite
        · apply kept_setKlfTx
          apply kept_bump
          exact h8
        · apply kept_bump
          exact h8

theorem kept_execConfirmationDecoded {pq : List Instr} (n : Nat) (id : Nat) {s : State} (hs : Kept pq s) : KeptOut pq
    (execConfirmationDecoded n id s) := by
  unfold execConfirmationDecoded
  apply keptOut_onUnit
  · exact hs
  · intro t1
    intro h2
    extract_lets +onlyGivenNames x3
    clear_value x3
    extract_lets +onlyGivenNames x4
    clear_value x4
    extract_lets +onlyGivenNames x5
    clear_value x5
    apply kept_ite
    · exact h2
    · split
      · apply kept_setKlfTx
        exact h2
      · apply kept_ite
        · apply kept_setScope
          apply kept_setKlfTx
          exact h2
        · apply kept_setN
          apply kept_setScope
          apply kept_setKlfTx
          exact h2
      · exact h2

theorem kept_targetDropped {pq : List Instr} {s : State} (n : Nat) (hs : Kept pq s) : Kept pq (targetDropped s n) := by
  unfold targetDropped
  apply kept_setN
  apply kept_setN
  apply kept_setKlfRx
  exact hs

theorem kept_execAnnouncementDecoded {pq : List Instr} (n : Nat) (ann : Nat) {s : State} (hs : Kept pq s) : KeptOut pq
    (execAnnouncementDecoded n ann s) := by
  unfold execAnnouncementDecoded
  apply keptOut_onUnit
  · exact hs
  · intro t1
    intro h2
    extract_lets +onlyGivenNames x3
    clear_value x3
    extract_lets +onlyGivenNames x4
    clear_value x4
    apply kept_ite
    · exact h2
    · apply kept_ite
      · split
        · extract_lets +onlyGivenNames x5
          clear_value x5
          apply kept_ite
          · apply kept_bump
            apply kept_targetDropped
            exact h2
          · exact h2
        · exact h2
      · apply kept_ite
        · exact h2
        · extract_lets +onlyGivenNames x6
          clear_value x6
          extract_lets +onlyGivenNames x7
          have h7 : Kept pq x7 := by
            unfold x7
            apply kept_ite
            · apply kept_setKlfTx
              exact h2
            · exact h2
          clear_value x7
          extract_lets +onlyGivenNames x8
          clear_value x8
          extract_lets +onlyGivenNames x9
          clear_value x9
          extract_lets +onlyGivenNames x10
          clear_value x10
          split
          · apply kept_setN
            apply kept_setN
            apply kept_setKlfRx
            exact h7
          · apply kept_ite
            · exact h7
            · apply kept_bump
              exact h7

theorem kept_execRxTargetBlock {pq : List Instr} (n : Nat) {s : State} (hs : Kept pq s) : KeptOut pq (execRxTargetBlock n s) := by
  unfold execRxTargetBlock
  apply keptOut_onUnit
  · exact hs
  · intro t1
    intro h2
    extract_lets +onlyGivenNames x3
    clear_value x3
    split
    · exact h2
    · extract_lets +onlyGivenNames x4
      have h4 : Kept pq x4 := by
        unfold x4
        split
        · apply kept_ite
          · apply kept_recordAdopt
            exact h2
          · exact h2
        · exact h2
      clear_value x4
      apply kept_targetDropped
      exact h4

theorem kept_execConfirmationLimit {pq : List Instr} (n : Nat) {s : State} (hs : Kept pq s) : KeptOut pq (execConfirmationLimit
    n s) := by
  unfold execConfirmationLimit
  apply keptOut_onUnit
  · exact hs
  · intro t1
    intro h2
    extract_lets +onlyGivenNames x3
    clear_value x3
    apply kept_ite
    · apply kept_setKlfTx
      exact h2
    · exact h2

theorem kept_poolPeak {pq : List Instr} {s : State} (hs : Kept pq s) (p : Nat) : Kept pq (poolPeak s p) := by
  unfold poolPeak
  apply kept_peak
  exact hs

theorem kept_releaseCounted {pq : List Instr} {s : State} (hs : Kept pq s) (n : Nat) (r : CodedRelease) : Kept pq
    (releaseCounted s n r) := by
  unfold releaseCounted
  apply kept_countEv
  apply kept_countEv
  apply kept_countEv
  exact hs

theorem kept_execCodedBlockRelease {pq : List Instr} (n : Nat) (r : CodedRelease) {s : State} (hs : Kept pq s) : KeptOut pq
    (execCodedBlockRelease n r s) := by
  unfold execCodedBlockRelease
  apply keptOut_onUnit
  · exact hs
  · intro t1 h2
    apply kept_ite
    · exact h2
    · extract_lets +onlyGivenNames x3
      clear_value x3
      extract_lets +onlyGivenNames x4
      clear_value x4
      apply kept_ite
      · apply kept_releaseCounted
        exact h2
      · extract_lets +onlyGivenNames x5
        clear_value x5
        extract_lets +onlyGivenNames x6
        have h6 : Kept pq x6 := by
          unfold x6
          apply kept_poolPeak
          apply kept_setEngine
          exact h2
        clear_value x6
        apply kept_ite
        · apply kept_setEngine
          exact h6
        · extract_lets +onlyGivenNames x7
          clear_value x7
          extract_lets +onlyGivenNames x8
          clear_value x8
          extract_lets +onlyGivenNames x9
          clear_value x9
          extract_lets +onlyGivenNames x10
          have h10 : Kept pq x10 := by
            unfold x10
            apply kept_setEngine
            exact h6
          clear_value x10
          extract_lets +onlyGivenNames x11
          have h11 : Kept pq x11 := by
            unfold x11
            apply kept_releaseCounted
            apply kept_bump
            exact h10
          clear_value x11
          extract_lets +onlyGivenNames x12
          have h12 : Kept pq x12 := by
            unfold x12
            apply kept_ite
            · apply kept_bump
              exact h11
            · exact h11
          clear_value x12
          apply kept_ite
          · apply kept_bump
            exact h12
          · apply kept_ite
            · exact h12
            · apply kept_bumpBy
              apply kept_bumpBy
              apply kept_bumpBy
              apply kept_bump
              exact h12

theorem kept_fecLatch {pq : List Instr} {s : State} (hs : Kept pq s) : Kept pq (fecLatch s) := by
  unfold fecLatch
  apply kept_forUnits
  · exact hs
  · intro t1
    intro t2
    intro h3
    extract_lets +onlyGivenNames x4
    clear_value x4
    extract_lets +onlyGivenNames x5
    clear_value x5
    extract_lets +onlyGivenNames x6
    clear_value x6
    extract_lets +onlyGivenNames x7
    have h7 : Kept pq x7 := by
      unfold x7
      apply kept_setN
      apply kept_setN
      exact h3
    clear_value x7
    extract_lets +onlyGivenNames x8
    have h8 : Kept pq x8 := by
      unfold x8
      apply kept_setF
      exact h7
    clear_value x8
    extract_lets +onlyGivenNames x9
    have h9 : Kept pq x9 := by
      unfold x9
      apply kept_setEngine
      exact h8
    clear_value x9
    apply kept_ite
    · apply kept_setCond
      exact h9
    · apply kept_ite
      · apply kept_setCond
        exact h9
      · exact h9

theorem kept_clearFecCounters {pq : List Instr} {s : State} (hs : Kept pq s) : Kept2 pq (clearFecCounters s) := by
  unfold clearFecCounters
  apply kept2_mk
  apply kept_clearObjs
  exact hs

theorem kept_execClearFecCounters {pq : List Instr} (k : Nat) {s : State} (hs : Kept pq s) : KeptOut pq (execClearFecCounters k
    s) := by
  unfold execClearFecCounters
  apply keptOut_next
  apply kept_hostCmd
  · exact hs
  · intro t1
    intro h2
    apply kept_clearFecCounters
    exact h2

end Sys2Proof.Machine
end

