-- ==== Sys2Proof/Laws/KeptCommit.lean ====
section
/-! SUPPORT. Every operation of Machine/Commit.lean keeps the queue and the well-formedness of the state. -/

namespace Sys2Proof.Machine

theorem kept_armScope {pq : List Instr} {s : State} (k : Nat) (n : Nat) (alone : Bool) (hs : Kept pq s) : Kept pq (armScope s k
    n alone) := by
  unfold armScope
  extract_lets +onlyGivenNames x1
  clear_value x1
  extract_lets +onlyGivenNames x2
  have h2 : Kept pq x2 := by
    unfold x2
    apply kept_setScope
    exact hs
  clear_value x2
  extract_lets +onlyGivenNames x3
  have h3 : Kept pq x3 := by
    unfold x3
    apply kept_setN
    apply kept_setN
    apply kept_setN
    exact h2
  clear_value x3
  apply kept_ite
  · exact h3
  · extract_lets +onlyGivenNames x4
    have h4 : Kept pq x4 := by
      unfold x4
      split
      · apply kept_ite
        · apply kept_autoEnd
          exact h3
        · exact h3
      · exact h3
    clear_value x4
    extract_lets +onlyGivenNames x5
    clear_value x5
    extract_lets +onlyGivenNames x6
    clear_value x6
    apply kept_ite
    · extract_lets +onlyGivenNames x7
      have h7 : Kept2 pq x7 := by
        unfold x7
        apply kept_drawRequest
        exact h4
      clear_value x7
      apply kept_setKlfTx
      apply Kept2.out
      exact h7
    · apply kept_ite
      · apply kept_setKlfTx
        exact h4
      · extract_lets +onlyGivenNames x8
        clear_value x8
        extract_lets +onlyGivenNames x9
        clear_value x9
        extract_lets +onlyGivenNames x10
        clear_value x10
        extract_lets +onlyGivenNames x11
        clear_value x11
        apply kept_setN
        apply kept_setKlfTx
        exact h4

theorem kept_commitArm {pq : List Instr} (k : Nat) (n : Nat) {s : State} (hs : Kept pq s) : Kept2 pq (commitArm k n s) := by
  unfold commitArm
  split
  · apply kept2_mk
    apply kept_armScope
    exact hs
  · apply kept2_mk
    exact hs

theorem kept_groupJudge {pq : List Instr} {s : State} (hs : Kept pq s) : Kept pq (groupJudge s) := by
  unfold groupJudge
  apply kept_ite
  · exact hs
  · extract_lets +onlyGivenNames x1
    clear_value x1
    extract_lets +onlyGivenNames x2
    clear_value x2
    extract_lets +onlyGivenNames x3
    have h3 : Kept pq x3 := by
      unfold x3
      apply kept_setN
      apply kept_setN
      exact hs
    clear_value x3
    apply kept_mk_tables
    · exact h3
    · exact h3.tidy.can
    · apply Tbl.wf_clear
      exact h3.tidy.scopes
    · exact h3.tidy.pages
    · exact h3.tidy.keys

theorem kept_scopeEnd {pq : List Instr} {s : State} (n : Nat) (kind : Nat) (result : Nat) (hs : Kept pq s) : Kept pq (scopeEnd s
    n kind result) := by
  unfold scopeEnd
  extract_lets +onlyGivenNames x1
  clear_value x1
  extract_lets +onlyGivenNames x2
  clear_value x2
  extract_lets +onlyGivenNames x3
  have h3 : Kept pq x3 := by
    unfold x3
    apply kept_journalAdd
    exact hs
  clear_value x3
  extract_lets +onlyGivenNames x4
  have h4 : Kept pq x4 := by
    unfold x4
    apply kept_setN
    apply kept_setN
    exact h3
  clear_value x4
  extract_lets +onlyGivenNames x5
  clear_value x5
  extract_lets +onlyGivenNames x6
  have h6 : Kept pq x6 := by
    unfold x6
    apply kept_ite
    · apply kept_setKlfTx
      exact h4
    · exact h4
  clear_value x6
  apply kept_groupJudge
  apply kept_setScope
  exact h6

theorem kept_commitEnd {pq : List Instr} {s : State} (n : Nat) (result : Nat) (hs : Kept pq s) : Kept pq (commitEnd s n result)
    := by
  unfold commitEnd
  apply kept_ite
  · apply kept_scopeEnd
    exact hs
  · exact hs

theorem kept_commitAborted {pq : List Instr} {s : State} (n : Nat) (hs : Kept pq s) : Kept pq (commitAborted s n) := by
  unfold commitAborted
  apply kept_autoEnd
  apply kept_commitEnd
  exact hs

theorem kept_commitCancel {pq : List Instr} (k : Nat) (n : Nat) {s : State} (hs : Kept pq s) : Kept2 pq (commitCancel k n s) := by
  unfold commitCancel
  extract_lets +onlyGivenNames x1
  clear_value x1
  apply kept2_ite
  · apply kept2_mk
    exact hs
  · apply kept2_ite
    · apply kept2_mk
      exact hs
    · apply kept2_ite
      · apply kept2_mk
        exact hs
      · apply kept2_mk
        apply kept_commitEnd
        exact hs

theorem kept_commitRevert {pq : List Instr} (n : Nat) {s : State} (hs : Kept pq s) : Kept2 pq (commitRevert n s) := by
  unfold commitRevert
  apply kept2_ite
  · apply kept2_mk
    exact hs
  · apply kept2_mk
    apply kept_mk
    exact hs

theorem kept_execCommitArm {pq : List Instr} (k : Nat) (n : Nat) {s : State} (hs : Kept pq s) : KeptOut pq (execCommitArm k n s)
    := by
  unfold execCommitArm
  apply keptOut_next
  apply kept_hostCmd
  · exact hs
  · intro t1
    intro h2
    apply kept_commitArm
    exact h2

theorem kept_execCommitCancel {pq : List Instr} (k : Nat) (n : Nat) {s : State} (hs : Kept pq s) : KeptOut pq (execCommitCancel
    k n s) := by
  unfold execCommitCancel
  apply keptOut_next
  apply kept_hostCmd
  · exact hs
  · intro t1
    intro h2
    apply kept_commitCancel
    exact h2

theorem kept_execCommitRevert {pq : List Instr} (k : Nat) (n : Nat) {s : State} (hs : Kept pq s) : KeptOut pq (execCommitRevert
    k n s) := by
  unfold execCommitRevert
  apply keptOut_next
  apply kept_hostCmd
  · exact hs
  · intro t1
    intro h2
    apply kept_commitRevert
    exact h2

theorem kept_groupArm {pq : List Instr} (k : Nat) {s : State} (hs : Kept pq s) : Kept2 pq (groupArm k s) := by
  unfold groupArm
  extract_lets +onlyGivenNames x1
  clear_value x1
  apply kept2_ite
  · apply kept2_mk
    exact hs
  · apply kept2_ite
    · apply kept2_mk
      exact hs
    · apply kept2_ite
      · apply kept2_mk
        exact hs
      · apply kept2_ite
        · apply kept2_mk
          exact hs
        · split
          · apply kept2_mk
            apply kept_setN
            apply kept_setN
            apply kept_foldl
            · exact hs
            · intro t2
              intro t3
              intro h4
              apply kept_armScope
              exact h4
          · apply kept2_mk
            exact hs

theorem kept_groupCancel {pq : List Instr} {s : State} (hs : Kept pq s) : Kept2 pq (groupCancel s) := by
  unfold groupCancel
  split
  · apply kept2_mk
    exact hs
  · apply kept2_mk
    apply kept_foldl
    · exact hs
    · intro t1
      intro t2
      intro h3
      apply kept_commitEnd
      exact h3
  · apply kept2_mk
    exact hs

theorem kept_execGroupArm {pq : List Instr} (k : Nat) {s : State} (hs : Kept pq s) : KeptOut pq (execGroupArm k s) := by
  unfold execGroupArm
  apply keptOut_next
  apply kept_hostCmd
  · exact hs
  · intro t1
    intro h2
    apply kept_groupArm
    exact h2

theorem kept_execGroupCancel {pq : List Instr} (k : Nat) {s : State} (hs : Kept pq s) : KeptOut pq (execGroupCancel k s) := by
  unfold execGroupCancel
  apply keptOut_next
  apply kept_hostCmd
  · exact hs
  · intro t1
    intro h2
    apply kept_groupCancel
    exact h2

theorem kept_execGroupDecisionTime {pq : List Instr} (targets : List (Nat × Nat)) {s : State} (hs : Kept pq s) : KeptOut pq
    (execGroupDecisionTime targets s) := by
  unfold execGroupDecisionTime
  apply keptOut_next
  apply kept_ite
  · exact hs
  · extract_lets +onlyGivenNames x1
    clear_value x1
    extract_lets +onlyGivenNames x2
    clear_value x2
    apply kept_ite
    · apply kept_foldl
      · exact hs
      · intro t3
        intro t4
        intro h5
        apply kept_commitEnd
        exact h5
    · apply kept_foldl
      · apply kept_setN
        exact hs
      · intro t6
        intro t7
        intro h8
        extract_lets +onlyGivenNames x9
        clear_value x9
        extract_lets +onlyGivenNames x10
        clear_value x10
        split
        · apply kept_setN
          apply kept_setKlfTx
          exact h8
        · exact h8

theorem kept_execPeerTimeout {pq : List Instr} (n : Nat) (auto : Bool) {s : State} (hs : Kept pq s) : KeptOut pq
    (execPeerTimeout n auto s) := by
  unfold execPeerTimeout
  apply keptOut_onUnit
  · exact hs
  · intro t1
    intro h2
    apply kept_ite
    · apply kept_ite
      · apply kept_autoEnd
        exact h2
      · exact h2
    · apply kept_ite
      · apply kept_raise
        apply kept_commitEnd
        exact h2
      · exact h2

theorem kept_execCountdownStart {pq : List Instr} (n : Nat) {s : State} (hs : Kept pq s) : KeptOut pq (execCountdownStart n s)
    := by
  unfold execCountdownStart
  apply keptOut_onUnit
  · exact hs
  · intro t1
    intro h2
    extract_lets +onlyGivenNames x3
    clear_value x3
    split
    · apply kept_ite
      · apply kept_setN
        exact h2
      · exact h2
    · exact h2

theorem kept_copyShadows {pq : List Instr} {s : State} (n : Nat) (hs : Kept pq s) : Kept pq (copyShadows s n) := by
  unfold copyShadows
  apply kept_foldl
  · exact hs
  · intro t1
    intro t2
    intro h3
    apply kept_setShadow
    apply kept_setVal
    exact h3

theorem kept_copyEffects {pq : List Instr} {old : State} {s : State} (n : Nat) (hs : Kept pq s) : Kept pq (copyEffects old s n)
    := by
  unfold copyEffects
  extract_lets +onlyGivenNames x1
  clear_value x1
  extract_lets +onlyGivenNames x2
  clear_value x2
  extract_lets +onlyGivenNames x3
  clear_value x3
  extract_lets +onlyGivenNames x4
  clear_value x4
  extract_lets +onlyGivenNames x5
  clear_value x5
  extract_lets +onlyGivenNames x6
  have h6 : Kept pq x6 := by
    unfold x6
    apply kept_foldl
    · exact hs
    · intro t7
      intro t8
      intro h9
      apply kept_placementChanged
      exact h9
  clear_value x6
  extract_lets +onlyGivenNames x10
  have h10 : Kept pq x10 := by
    unfold x10
    apply kept_foldl
    · exact h6
    · intro t11
      intro t12
      intro h13
      apply kept_sealCommitted
      exact h13
  clear_value x10
  extract_lets +onlyGivenNames x14
  have h14 : Kept pq x14 := by
    unfold x14
    apply kept_foldl
    · exact h10
    · intro t15
      intro t16
      intro h17
      apply kept_hubCopied
      exact h17
  clear_value x14
  extract_lets +onlyGivenNames x18
  clear_value x18
  apply kept_foldl
  · exact h14
  · intro t19
    intro t20
    intro h21
    extract_lets +onlyGivenNames x22
    clear_value x22
    extract_lets +onlyGivenNames x23
    have h23 : Kept pq x23 := by
      unfold x23
      apply kept_ite
      · exact h21
      · apply kept_setKlfTx
        exact h21
    clear_value x23
    apply kept_tuneFloorJudge
    apply kept_traysRefresh
    exact h23

theorem kept_carrierCopied {pq : List Instr} {old : State} {s : State} (hs : Kept pq s) (n : Nat) : Kept pq (carrierCopied old
    s n) := by
  unfold carrierCopied
  extract_lets +onlyGivenNames x1
  clear_value x1
  extract_lets +onlyGivenNames x2
  have h2 : Kept pq x2 := by
    unfold x2
    apply kept_ite
    · exact hs
    · apply kept_layoutTaken
      apply kept_setN
      exact hs
  clear_value x2
  extract_lets +onlyGivenNames x3
  have h3 : Kept pq x3 := by
    unfold x3
    apply kept_frontCopied
    exact h2
  clear_value x3
  extract_lets +onlyGivenNames x4
  have h4 : Kept pq x4 := by
    unfold x4
    apply kept_ite
    · apply kept_dispersionCopied
      exact h3
    · exact h3
  clear_value x4
  apply kept_ite
  · apply kept_whiskCopied
    exact h4
  · exact h4

theorem kept_commitCopy {pq : List Instr} {s : State} (hs : Kept pq s) (n : Nat) : Kept pq (commitCopy s n) := by
  unfold commitCopy
  extract_lets +onlyGivenNames x1
  have h1 : Kept pq x1 := by
    unfold x1
    apply kept_copyShadows
    exact hs
  clear_value x1
  extract_lets +onlyGivenNames x2
  have h2 : Kept pq x2 := by
    unfold x2
    apply kept_ite
    · apply kept_carrierCopied
      exact h1
    · exact h1
  clear_value x2
  apply kept_scopeEnd
  apply kept_bump
  apply kept_copyEffects
  exact h2

theorem kept_execCommitCopy {pq : List Instr} (n : Nat) (auto : Bool) {s : State} (hs : Kept pq s) : KeptOut pq (execCommitCopy
    n auto s) := by
  unfold execCommitCopy
  apply keptOut_onUnit
  · exact hs
  · intro t1
    intro h2
    extract_lets +onlyGivenNames x3
    clear_value x3
    extract_lets +onlyGivenNames x4
    clear_value x4
    apply kept_ite
    · split
      · apply kept_ite
        · apply kept_traysRefresh
          apply kept_autoApplied
          exact h2
        · exact h2
      · exact h2
    · split
      · apply kept_ite
        · apply kept_commitCopy
          exact h2
        · exact h2
      · exact h2

theorem kept_execModuleScopeTarget {pq : List Instr} {s : State} (hs : Kept pq s) : KeptOut pq (execModuleScopeTarget s) := by
  unfold execModuleScopeTarget
  apply keptOut_next
  extract_lets +onlyGivenNames x1
  clear_value x1
  extract_lets +onlyGivenNames x2
  clear_value x2
  apply kept_ite
  · apply kept_commitCopy
    exact hs
  · exact hs

end Sys2Proof.Machine
end

