-- ==== Sys2Proof/Laws/KeptDma.lean ====
section
/-! SUPPORT. Every operation of Machine/Dma.lean keeps the queue and the well-formedness of the state. -/

namespace Sys2Proof.Machine

theorem kept_dmaStart {pq : List Instr} (c : Nat) {s : State} (hs : Kept pq s) : Kept2 pq (dmaStart c s) := by
  unfold dmaStart
  extract_lets +onlyGivenNames x1
  clear_value x1
  extract_lets +onlyGivenNames x2
  clear_value x2
  extract_lets +onlyGivenNames x3
  clear_value x3
  extract_lets +onlyGivenNames x4
  clear_value x4
  apply kept2_ite
  · apply kept2_mk
    exact hs
  · apply kept2_ite
    · apply kept2_mk
      exact hs
    · apply kept2_ite
      · apply kept2_mk
        exact hs
      · apply kept2_ite
        · apply kept2_mk
          apply kept_occur
          apply kept_setN
          exact hs
        · apply kept2_ite
          · apply kept2_mk
            apply kept_setN
            exact hs
          · apply kept2_ite
            · apply kept2_mk
              exact hs
            · apply kept2_ite
              · apply kept2_mk
                exact hs
              · apply kept2_ite
                · apply kept2_mk
                  exact hs
                · extract_lets +onlyGivenNames x5
                  have h5 : Kept pq x5 := by
                    unfold x5
                    apply kept_setDma
                    exact hs
                  clear_value x5
                  extract_lets +onlyGivenNames x6
                  have h6 : Kept pq x6 := by
                    unfold x6
                    apply kept_setN
                    apply kept_setN
                    apply kept_setN
                    apply kept_setN
                    exact h5
                  clear_value x6
                  apply kept2_mk
                  apply kept_setN
                  apply kept_setN
                  exact h6

theorem kept_execSourcePageProduced {pq : List Instr} (c : Nat) (t : Nat) (data : Bytes) {s : State} (hs : Kept pq s) : KeptOut
    pq (execSourcePageProduced c t data s) := by
  unfold execSourcePageProduced
  apply keptOut_onUnit
  · exact hs
  · intro t1
    intro h2
    extract_lets +onlyGivenNames x3
    clear_value x3
    extract_lets +onlyGivenNames x4
    clear_value x4
    extract_lets +onlyGivenNames x5
    clear_value x5
    extract_lets +onlyGivenNames x6
    clear_value x6
    apply kept_ite
    · exact h2
    · extract_lets +onlyGivenNames x7
      clear_value x7
      extract_lets +onlyGivenNames x8
      clear_value x8
      extract_lets +onlyGivenNames x9
      have h9 : Kept pq x9 := by
        unfold x9
        apply kept_ite
        · apply kept_setProbe
          exact h2
        · exact h2
      clear_value x9
      extract_lets +onlyGivenNames x10
      clear_value x10
      extract_lets +onlyGivenNames x11
      clear_value x11
      extract_lets +onlyGivenNames x12
      clear_value x12
      extract_lets +onlyGivenNames x13
      clear_value x13
      extract_lets +onlyGivenNames x14
      clear_value x14
      apply kept_ite
      · apply kept_countEv
        apply kept_bump
        apply kept_setDma
        exact h9
      · extract_lets +onlyGivenNames x15
        clear_value x15
        extract_lets +onlyGivenNames x16
        clear_value x16
        extract_lets +onlyGivenNames x17
        have h17 : Kept pq x17 := by
          unfold x17
          apply kept_setDma
          exact h9
        clear_value x17
        apply kept_ite
        · apply kept_bump
          exact h17
        · exact h17

theorem kept_execDmaEventRelease {pq : List Instr} (kind : Nat) (arg : Nat) {s : State} (hs : Kept pq s) : KeptOut pq
    (execDmaEventRelease kind arg s) := by
  unfold execDmaEventRelease
  apply keptOut_next
  apply kept_foldl
  · exact hs
  · intro t1
    intro t2
    intro h3
    apply kept_ite
    · apply kept_ite
      · apply kept_setDma
        exact h3
      · apply kept_bumpBy
        exact h3
    · exact h3

theorem kept_flushBuffer {pq : List Instr} {s : State} (hs : Kept pq s) (c : Nat) (stop : Nat) : Kept pq (flushBuffer s c
    stop) := by
  unfold flushBuffer
  extract_lets +onlyGivenNames x1
  clear_value x1
  apply kept_ite
  · exact hs
  · extract_lets +onlyGivenNames x2
    clear_value x2
    extract_lets +onlyGivenNames x3
    clear_value x3
    split
    · apply kept_setDma
      exact hs
    · extract_lets +onlyGivenNames x4
      clear_value x4
      extract_lets +onlyGivenNames x5
      have h5 : Kept2 pq x5 := by
        unfold x5
        apply kept2_ite
        · apply kept3_snd
          apply kept_readPage
          exact hs
        · apply kept2_mk
          exact hs
      clear_value x5
      extract_lets +onlyGivenNames x6
      clear_value x6
      apply kept_setDma
      apply kept_writePage
      apply Kept2.out
      exact h5

theorem kept_takeSource {pq : List Instr} {s : State} (c : Nat) (errors : Nat) (hs : Kept pq s) : Kept2 pq (takeSource s c
    errors) := by
  unfold takeSource
  extract_lets +onlyGivenNames x1
  clear_value x1
  apply kept2_ite
  · extract_lets +onlyGivenNames x2
    clear_value x2
    extract_lets +onlyGivenNames x3
    clear_value x3
    split
    · apply kept2_mk
      exact hs
    · extract_lets +onlyGivenNames x4
      have h4 : Kept3 pq x4 := by
        unfold x4
        apply kept_readPage
        exact hs
      clear_value x4
      apply kept2_mk
      apply Kept3.out
      exact h4
  · split
    · apply kept2_mk
      exact hs
    · apply kept2_mk
      apply kept_setDma
      exact hs

theorem kept_execDmaBurstDone {pq : List Instr} (c : Nat) (errors : Nat) {s : State} (hs : Kept pq s) : KeptOut pq
    (execDmaBurstDone c errors s) := by
  unfold execDmaBurstDone
  apply keptOut_onUnit
  · exact hs
  · intro t1 h2
    extract_lets +onlyGivenNames x3
    clear_value x3
    apply kept_ite
    · exact h2
    · apply kept_ite
      · exact h2
      · extract_lets +onlyGivenNames x4
        have h4 : Kept2 pq x4 := by
          unfold x4
          apply kept2_ite
          · apply kept_takeSource
            exact h2
          · apply kept2_mk
            exact h2
        clear_value x4
        extract_lets +onlyGivenNames x5
        clear_value x5
        apply kept_ite
        · exact h2
        · extract_lets +onlyGivenNames x6
          have h6 : Kept pq x6 := by
            unfold x6
            apply kept_ite
            · apply kept_setN
              apply Kept2.out
              exact h4
            · apply Kept2.out
              exact h4
          clear_value x6
          extract_lets +onlyGivenNames x7
          clear_value x7
          extract_lets +onlyGivenNames x8
          clear_value x8
          extract_lets +onlyGivenNames x9
          clear_value x9
          extract_lets +onlyGivenNames x10
          clear_value x10
          extract_lets +onlyGivenNames x11
          have h11 : Kept pq x11 := by
            unfold x11
            apply kept_setDma
            exact h6
          clear_value x11
          extract_lets +onlyGivenNames x12
          have h12 : Kept pq x12 := by
            unfold x12
            apply kept_countEv
            apply kept_bump
            apply kept_setN
            exact h11
          clear_value x12
          extract_lets +onlyGivenNames x13
          extract_lets +onlyGivenNames x14
          have h14 : Kept pq x14 := by
            unfold x14
            apply kept_ite
            · apply kept_flushBuffer
              exact h12
            · exact h12
          clear_value x14
          extract_lets +onlyGivenNames x15
          have h15 : Kept pq x15 := by
            unfold x15
            apply kept_ite
            · apply kept_bump
              exact h14
            · exact h14
          clear_value x15
          extract_lets +onlyGivenNames x16
          clear_value x16
          extract_lets +onlyGivenNames x17
          have h17 : Kept pq x17 := by
            unfold x17
            apply kept_ite
            · apply kept_setDma
              apply kept_setN
              apply kept_setN
              exact h15
            · exact h15
          clear_value x17
          apply kept_setN
          exact h17

theorem kept_dmaIdle {pq : List Instr} {s : State} (hs : Kept pq s) (c : Nat) : Kept pq (dmaIdle s c) := by
  unfold dmaIdle
  apply kept_setN
  apply kept_setN
  apply kept_setDma
  exact hs

theorem kept_dmaPause {pq : List Instr} (c : Nat) {s : State} (hs : Kept pq s) : Kept2 pq (dmaPause c s) := by
  unfold dmaPause
  apply kept2_ite
  · apply kept2_mk
    exact hs
  · apply kept2_ite
    · apply kept2_mk
      exact hs
    · apply kept2_mk
      apply kept_setDma
      exact hs

theorem kept_dmaStop {pq : List Instr} (c : Nat) {s : State} (hs : Kept pq s) : Kept2 pq (dmaStop c s) := by
  unfold dmaStop
  apply kept2_ite
  · apply kept2_mk
    apply kept_setDma
    exact hs
  · apply kept2_mk
    apply kept_dmaIdle
    exact hs

theorem kept_dmaResume {pq : List Instr} (c : Nat) {s : State} (hs : Kept pq s) : Kept2 pq (dmaResume c s) := by
  unfold dmaResume
  extract_lets +onlyGivenNames x1
  clear_value x1
  apply kept2_ite
  · apply kept2_mk
    exact hs
  · apply kept2_ite
    · apply kept2_mk
      apply kept_occur
      apply kept_setN
      apply kept_setN
      exact hs
    · apply kept2_ite
      · apply kept2_mk
        exact hs
      · apply kept2_mk
        apply kept_setN
        apply kept_setN
        exact hs

theorem kept_execDmaStart {pq : List Instr} (k : Nat) (c : Nat) {s : State} (hs : Kept pq s) : KeptOut pq (execDmaStart k c s)
    := by
  unfold execDmaStart
  apply keptOut_next
  apply kept_hostCmd
  · exact hs
  · intro t1
    intro h2
    apply kept_dmaStart
    exact h2

theorem kept_execDmaPause {pq : List Instr} (k : Nat) (c : Nat) {s : State} (hs : Kept pq s) : KeptOut pq (execDmaPause k c s)
    := by
  unfold execDmaPause
  apply keptOut_next
  apply kept_hostCmd
  · exact hs
  · intro t1
    intro h2
    apply kept_dmaPause
    exact h2

theorem kept_execDmaResume {pq : List Instr} (k : Nat) (c : Nat) {s : State} (hs : Kept pq s) : KeptOut pq (execDmaResume k c s)
    := by
  unfold execDmaResume
  apply keptOut_next
  apply kept_hostCmd
  · exact hs
  · intro t1
    intro h2
    apply kept_dmaResume
    exact h2

theorem kept_execDmaStop {pq : List Instr} (k : Nat) (c : Nat) {s : State} (hs : Kept pq s) : KeptOut pq (execDmaStop k c s) := by
  unfold execDmaStop
  apply keptOut_next
  apply kept_hostCmd
  · exact hs
  · intro t1
    intro h2
    apply kept_dmaStop
    exact h2

theorem kept_dmaDrained {pq : List Instr} {s : State} (c : Nat) (hs : Kept pq s) : Kept pq (dmaDrained s c) := by
  unfold dmaDrained
  split
  · exact hs
  · extract_lets +onlyGivenNames x1
    have h1 : Kept pq x1 := by
      unfold x1
      apply kept_flushBuffer
      exact hs
    clear_value x1
    extract_lets +onlyGivenNames x2
    clear_value x2
    extract_lets +onlyGivenNames x3
    have h3 : Kept pq x3 := by
      unfold x3
      apply kept_setN
      apply kept_setDma
      exact h1
    clear_value x3
    split
    · apply kept_dmaIdle
      exact h3
    · apply kept_setN
      apply kept_setN
      exact h3
    · apply kept_setN
      exact h3

theorem kept_execDmaDrainDone {pq : List Instr} (c : Nat) {s : State} (hs : Kept pq s) : KeptOut pq (execDmaDrainDone c s) := by
  unfold execDmaDrainDone
  apply keptOut_onUnit
  · exact hs
  · intro t1
    intro h2
    apply kept_dmaDrained
    exact h2

theorem kept_dmaForce {pq : List Instr} {s : State} (c : Nat) (error : Nat) (hs : Kept pq s) : Kept pq (dmaForce s c error) := by
  unfold dmaForce
  apply kept_ite
  · apply kept_setDma
    exact hs
  · exact hs

theorem kept_dmaPowerDown {pq : List Instr} {s : State} (d : Nat) (hs : Kept pq s) : Kept pq (dmaPowerDown s d) := by
  unfold dmaPowerDown
  apply kept_foldl
  · exact hs
  · intro t1
    intro t2
    intro h3
    extract_lets +onlyGivenNames x4
    clear_value x4
    apply kept_ite
    · exact h3
    · apply kept_dmaForce
      exact h3

theorem kept_dmaPoweredDown {pq : List Instr} {s : State} (d : Nat) (hs : Kept pq s) : Kept pq (dmaPoweredDown s d) := by
  unfold dmaPoweredDown
  apply kept_foldl
  · exact hs
  · intro t1
    intro t2
    intro h3
    extract_lets +onlyGivenNames x4
    clear_value x4
    extract_lets +onlyGivenNames x5
    have h5 : Kept pq x5 := by
      unfold x5
      apply kept_ite
      · apply kept_dmaDrained
        exact h3
      · exact h3
    clear_value x5
    extract_lets +onlyGivenNames x6
    clear_value x6
    extract_lets +onlyGivenNames x7
    have h7 : Kept pq x7 := by
      unfold x7
      apply kept_ite
      · apply kept_setDma
        exact h5
      · exact h5
    clear_value x7
    apply kept_ite
    · apply kept_ite
      · apply kept_setN
        exact h7
      · apply kept_ite
        · apply kept_setN
          exact h7
        · exact h7
    · exact h7

theorem kept_dmaReset {pq : List Instr} {s : State} (hs : Kept pq s) : Kept pq (dmaReset s) := by
  unfold dmaReset
  apply kept_foldl
  · exact hs
  · intro t1 t2 h3
    apply kept_dmaIdle
    exact h3

theorem kept_captureContent {pq : List Instr} {s : State} (cr : Nat) (errors : List Nat) (hs : Kept pq s) : Kept2 pq
    (captureContent s cr errors) := by
  unfold captureContent
  apply kept2_foldl
  · apply kept2_mk
    exact hs
  · intro t1
    intro t2
    intro h3
    split
    · exact h3
    · extract_lets +onlyGivenNames x4
      have h4 : Kept3 pq x4 := by
        unfold x4
        apply kept_readPage
        apply Kept2.out
        exact h3
      clear_value x4
      apply kept2_mk
      apply Kept3.out
      exact h4

theorem kept_inspectContent {pq : List Instr} {s : State} (errors : Nat) (hs : Kept pq s) : Kept2 pq (inspectContent s errors)
    := by
  unfold inspectContent
  extract_lets +onlyGivenNames x1
  clear_value x1
  extract_lets +onlyGivenNames x2
  clear_value x2
  extract_lets +onlyGivenNames x3
  clear_value x3
  extract_lets +onlyGivenNames x4
  have h4 : Kept3 pq x4 := by
    unfold x4
    apply kept_readPage
    exact hs
  clear_value x4
  extract_lets +onlyGivenNames x5
  clear_value x5
  extract_lets +onlyGivenNames x6
  clear_value x6
  apply kept2_mk
  apply kept_setN
  apply kept_setN
  apply kept_setN
  apply Kept3.out
  exact h4

end Sys2Proof.Machine
end

