-- ==== Sys2Proof/Laws/KeptDomains.lean ====
section
/-! SUPPORT. Every operation of Machine/Domains.lean keeps the queue and the well-formedness of the state. -/

namespace Sys2Proof.Machine

theorem kept_thermJudge {pq : List Instr} {s : State} (hs : Kept pq s) : Kept pq (thermJudge s) := by
  unfold thermJudge
  extract_lets +onlyGivenNames x1
  clear_value x1
  extract_lets +onlyGivenNames x2
  clear_value x2
  extract_lets +onlyGivenNames x3
  have h3 : Kept pq x3 := by
    unfold x3
    apply kept_mk
    exact hs
  clear_value x3
  apply kept_ite
  · extract_lets +onlyGivenNames x4
    have h4 : Kept pq x4 := by
      unfold x4
      apply kept_setN
      exact h3
    clear_value x4
    apply kept_mk
    exact h4
  · apply kept_ite
    · extract_lets +onlyGivenNames x5
      have h5 : Kept pq x5 := by
        unfold x5
        apply kept_bump
        apply kept_enter
        exact h3
      clear_value x5
      apply kept_mk
      exact h5
    · apply kept_mk
      exact h3

theorem kept_injectorIdle {pq : List Instr} {s : State} (hs : Kept pq s) (j : Nat) : Kept pq (injectorIdle s j) := by
  unfold injectorIdle
  extract_lets +onlyGivenNames x1
  clear_value x1
  extract_lets +onlyGivenNames x2
  have h2 : Kept pq x2 := by
    unfold x2
    apply kept_setN
    apply kept_setN
    apply kept_setInjector
    exact hs
  clear_value x2
  apply kept_ite
  · apply kept_overflowCheck
    apply kept_endCond
    exact h2
  · exact h2

theorem kept_domainSourcesEnd {pq : List Instr} {s : State} (d : Nat) (hs : Kept pq s) : Kept pq (domainSourcesEnd s d) := by
  unfold domainSourcesEnd
  extract_lets +onlyGivenNames x1
  have h1 : Kept pq x1 := by
    unfold x1
    apply kept_foldl
    · exact hs
    · intro t2
      intro t3
      intro h4
      extract_lets +onlyGivenNames x5
      clear_value x5
      apply kept_ite
      · apply kept_injectorIdle
        exact h4
      · exact h4
  clear_value x1
  apply kept_thermJudge
  apply kept_foldl
  · exact h1
  · intro t6
    intro t7
    intro h8
    apply kept_ite
    · apply kept_clearCond
      exact h8
    · exact h8

theorem kept_powerDownStart {pq : List Instr} {s : State} (d : Nat) (shed : Bool) (hs : Kept pq s) : Kept pq (powerDownStart s d
    shed) := by
  unfold powerDownStart
  extract_lets +onlyGivenNames x1
  have h1 : Kept pq x1 := by
    unfold x1
    apply kept_setDomain
    apply kept_bump
    apply kept_setN
    exact hs
  clear_value x1
  extract_lets +onlyGivenNames x2
  have h2 : Kept pq x2 := by
    unfold x2
    apply kept_dmaPowerDown
    exact h1
  clear_value x2
  apply kept_ite
  · extract_lets +onlyGivenNames x3
    have h3 : Kept pq x3 := by
      unfold x3
      apply kept_commitAborted
      exact h2
    clear_value x3
    extract_lets +onlyGivenNames x4
    clear_value x4
    extract_lets +onlyGivenNames x5
    have h5 : Kept pq x5 := by
      unfold x5
      apply kept_setEngine
      exact h3
    clear_value x5
    extract_lets +onlyGivenNames x6
    have h6 : Kept pq x6 := by
      unfold x6
      apply kept_ite
      · apply kept_setCalState
        exact h5
      · exact h5
    clear_value x6
    extract_lets +onlyGivenNames x7
    have h7 : Kept pq x7 := by
      unfold x7
      apply kept_setN
      apply kept_setN
      exact h6
    clear_value x7
    apply kept_goDark
    apply kept_rxStop
    exact h7
  · exact h2

theorem kept_shedCarrier {pq : List Instr} {s : State} (hs : Kept pq s) (n : Nat) : Kept2 pq (shedCarrier s n) := by
  unfold shedCarrier
  extract_lets +onlyGivenNames x1
  clear_value x1
  apply kept2_ite
  · extract_lets +onlyGivenNames x2
    have h2 : Kept pq x2 := by
      unfold x2
      apply kept_powerDownStart
      apply kept_setN
      exact hs
    clear_value x2
    apply kept2_mk
    apply kept_raise
    apply kept_setEngine
    exact h2
  · apply kept2_mk
    exact hs

theorem kept_halfDown {pq : List Instr} {s : State} (h : Nat) (hs : Kept pq s) : Kept pq (halfDown s h) := by
  unfold halfDown
  extract_lets +onlyGivenNames x1
  have h1 : Kept pq x1 := by
    unfold x1
    apply kept_foldl
    · exact hs
    · intro t2
      intro t3
      intro h4
      apply kept_ite
      · apply kept_setMember
        exact h4
      · exact h4
  clear_value x1
  apply kept_ite
  · apply kept_hotLost
    exact h1
  · exact h1

theorem kept_domainDown {pq : List Instr} {s : State} (hs : Kept pq s) (d : Nat) : Kept pq (domainDown s d) := by
  unfold domainDown
  apply kept_ite
  · extract_lets +onlyGivenNames x1
    have h1 : Kept pq x1 := by
      unfold x1
      apply kept_hubStop
      exact hs
    clear_value x1
    extract_lets +onlyGivenNames x2
    clear_value x2
    extract_lets +onlyGivenNames x3
    have h3 : Kept pq x3 := by
      unfold x3
      apply kept_setB
      exact h1
    clear_value x3
    apply kept_traysRefresh
    apply kept_setEngine
    exact h3
  · apply kept_ite
    · apply kept_probeEnd
      apply kept_monitorStop
      exact hs
    · apply kept_ite
      · apply kept_laneGroupDown
        exact hs
      · apply kept_ite
        · apply kept_halfDown
          exact hs
        · exact hs

theorem kept_execPowerDownDone {pq : List Instr} (d : Nat) {s : State} (hs : Kept pq s) : KeptOut pq (execPowerDownDone d s) := by
  unfold execPowerDownDone
  apply keptOut_onUnit
  · exact hs
  · intro t1
    intro h2
    apply kept_ite
    · exact h2
    · extract_lets +onlyGivenNames x3
      clear_value x3
      extract_lets +onlyGivenNames x4
      have h4 : Kept pq x4 := by
        unfold x4
        apply kept_dmaPoweredDown
        exact h2
      clear_value x4
      extract_lets +onlyGivenNames x5
      have h5 : Kept pq x5 := by
        unfold x5
        apply kept_setN
        apply kept_setN
        exact h4
      clear_value x5
      extract_lets +onlyGivenNames x6
      have h6 : Kept pq x6 := by
        unfold x6
        apply kept_setDomain
        apply kept_setN
        exact h5
      clear_value x6
      apply kept_domainSourcesEnd
      apply kept_domainDown
      exact h6

theorem kept_powerDown {pq : List Instr} (d : Nat) {s : State} (hs : Kept pq s) : Kept2 pq (powerDown d s) := by
  unfold powerDown
  apply kept2_ite
  · apply kept2_mk
    exact hs
  · split
    · apply kept2_mk
      exact hs
    · apply kept2_ite
      · apply kept2_mk
        exact hs
      · apply kept2_ite
        · apply kept2_mk
          exact hs
        · extract_lets +onlyGivenNames x1
          have h1 : Kept pq x1 := by
            unfold x1
            apply kept_setN
            exact hs
          clear_value x1
          apply kept2_ite
          · apply kept2_mk
            apply kept_setDomain
            exact h1
          · apply kept2_mk
            apply kept_powerDownStart
            exact h1
    · apply kept2_mk
      exact hs

theorem kept_execPowerDown {pq : List Instr} (k : Nat) (d : Nat) {s : State} (hs : Kept pq s) : KeptOut pq (execPowerDown k d s)
    := by
  unfold execPowerDown
  apply keptOut_next
  apply kept_hostCmd
  · exact hs
  · intro t1
    intro h2
    apply kept_powerDown
    exact h2

theorem kept_powerUp {pq : List Instr} (d : Nat) {s : State} (hs : Kept pq s) : Kept2 pq (powerUp d s) := by
  unfold powerUp
  apply kept2_ite
  · apply kept2_mk
    exact hs
  · split
    · split
      · apply kept2_ite
        · apply kept2_mk
          exact hs
        · apply kept2_mk
          apply kept_setDomain
          apply kept_setN
          apply kept_setN
          exact hs
      · apply kept2_mk
        apply kept_setDomain
        apply kept_setN
        apply kept_setN
        exact hs
    · apply kept2_ite
      · apply kept2_mk
        exact hs
      · apply kept2_mk
        exact hs
    · apply kept2_mk
      exact hs

theorem kept_execPowerUp {pq : List Instr} (k : Nat) (d : Nat) {s : State} (hs : Kept pq s) : KeptOut pq (execPowerUp k d s) := by
  unfold execPowerUp
  apply keptOut_next
  apply kept_hostCmd
  · exact hs
  · intro t1
    intro h2
    apply kept_powerUp
    exact h2

theorem kept_engineRuns {pq : List Instr} {s : State} (hs : Kept pq s) (n : Nat) : Kept pq (engineRuns s n) := by
  unfold engineRuns
  apply kept_ite
  · exact hs
  · extract_lets +onlyGivenNames x1
    clear_value x1
    extract_lets +onlyGivenNames x2
    have h2 : Kept pq x2 := by
      unfold x2
      apply kept_ite
      · apply kept_setFront
        apply kept_setCond
        exact hs
      · exact hs
    clear_value x2
    apply kept_ite
    · apply kept_carrierStart
      exact h2
    · apply kept_launchJudge
      exact h2

theorem kept_domainUp {pq : List Instr} {s : State} (hs : Kept pq s) (d : Nat) (boot : Bool) : Kept pq (domainUp s d boot) :=
    by
  unfold domainUp
  extract_lets +onlyGivenNames x1
  have h1 : Kept pq x1 := by
    unfold x1
    apply kept_setN
    apply kept_setN
    exact hs
  clear_value x1
  extract_lets +onlyGivenNames x2
  have h2 : Kept pq x2 := by
    unfold x2
    apply kept_setDomain
    apply kept_setN
    exact h1
  clear_value x2
  apply kept_ite
  · extract_lets +onlyGivenNames x3
    clear_value x3
    extract_lets +onlyGivenNames x4
    have h4 : Kept pq x4 := by
      unfold x4
      apply kept_clearCond
      apply kept_setEngine
      exact h2
    clear_value x4
    extract_lets +onlyGivenNames x5
    have h5 : Kept pq x5 := by
      unfold x5
      apply kept_restartBlocks
      apply kept_skewJudge
      apply kept_dcRestart
      exact h4
    clear_value x5
    apply kept_ite
    · apply kept_calStart
      exact h5
    · apply kept_heldRelease
      apply kept_engineRuns
      apply kept_setCond
      exact h5
  · apply kept_ite
    · extract_lets +onlyGivenNames x6
      clear_value x6
      extract_lets +onlyGivenNames x7
      have h7 : Kept pq x7 := by
        unfold x7
        apply kept_foldl
        · exact h2
        · intro t8 t9 h10
          apply kept_setB
          apply kept_setFront
          exact h10
      clear_value x7
      apply kept_monitorStart
      exact h7
    · apply kept_ite
      · apply kept_laneGroupUp
        exact h2
      · apply kept_ite
        · apply kept_foldl
          · exact h2
          · intro t11 t12 h13
            apply kept_clientJudge
            exact h13
        · exact h2

theorem kept_execPowerUpDone {pq : List Instr} (d : Nat) {s : State} (hs : Kept pq s) : KeptOut pq (execPowerUpDone d s) := by
  unfold execPowerUpDone
  apply keptOut_onUnit
  · exact hs
  · intro t1
    intro h2
    apply kept_ite
    · exact h2
    · apply kept_domainUp
      exact h2

theorem kept_readyJudge {pq : List Instr} {s : State} (hs : Kept pq s) : Kept pq (readyJudge s) := by
  unfold readyJudge
  apply kept_ite
  · exact hs
  · extract_lets +onlyGivenNames x1
    have h1 : Kept pq x1 := by
      unfold x1
      apply kept_setN
      exact hs
    clear_value x1
    extract_lets +onlyGivenNames x2
    have h2 : Kept pq x2 := by
      unfold x2
      apply kept_enter
      exact h1
    clear_value x2
    extract_lets +onlyGivenNames x3
    clear_value x3
    extract_lets +onlyGivenNames x4
    have h4 : Kept pq x4 := by
      unfold x4
      apply kept_mk
      exact h2
    clear_value x4
    extract_lets +onlyGivenNames x5
    have h5 : Kept pq x5 := by
      unfold x5
      apply kept_trafficJudge
      apply kept_foldl
      · apply kept_thermJudge
        exact h4
      · intro t6 t7 h8
        apply kept_heldRelease
        exact h8
    clear_value x5
    apply kept_foldl
    · exact h5
    · intro t9 t10 h11
      apply kept_launchJudge
      exact h11

theorem kept_execCalibrationStepDone {pq : List Instr} (n : Nat) (r : CalResult) {s : State} (hs : Kept pq s) : KeptOut pq
    (execCalibrationStepDone n r s) := by
  unfold execCalibrationStepDone
  apply keptOut_onUnit
  · exact hs
  · intro t1 h2
    extract_lets +onlyGivenNames x3
    clear_value x3
    extract_lets +onlyGivenNames x4
    clear_value x4
    apply kept_ite
    · exact h2
    · apply kept_ite
      · apply kept_setEngine
        apply kept_setN
        exact h2
      · apply kept_ite
        · extract_lets +onlyGivenNames x5
          apply kept_ite
          · extract_lets +onlyGivenNames x6
            have h6 : Kept pq x6 := by
              unfold x6
              apply kept_setI
              apply kept_setF
              apply kept_setN
              exact h2
            clear_value x6
            apply kept_rxJudge
            apply kept_setEngine
            exact h6
          · extract_lets +onlyGivenNames x7
            have h7 : Kept pq x7 := by
              unfold x7
              apply kept_setEngine
              exact h2
            clear_value x7
            apply kept_ite
            · apply kept_lineAbsent
              exact h7
            · apply kept_setF
              exact h7
        · extract_lets +onlyGivenNames x8
          have h8 : Kept pq x8 := by
            unfold x8
            apply kept_setEngine
            exact h2
          clear_value x8
          apply kept_ite
          · apply kept_setF
            exact h8
          · apply kept_ite
            · extract_lets +onlyGivenNames x9
              clear_value x9
              extract_lets +onlyGivenNames x10
              have h10 : Kept pq x10 := by
                unfold x10
                apply kept_setFront
                apply kept_setB
                exact h8
              clear_value x10
              apply kept_biasTo
              exact h10
            · apply kept_ite
              · extract_lets +onlyGivenNames x11
                have h11 : Kept pq x11 := by
                  unfold x11
                  apply kept_foldl
                  · exact h8
                  · intro t12 t13 h14
                    apply kept_setI
                    exact h14
                clear_value x11
                extract_lets +onlyGivenNames x15
                have h15 : Kept pq x15 := by
                  unfold x15
                  apply kept_foldl
                  · exact h11
                  · intro t16 t17 h18
                    apply kept_setO
                    apply kept_setI
                    apply kept_setI
                    exact h18
                clear_value x15
                apply kept_skewJudge
                apply kept_setFront
                exact h15
              · exact h8

theorem kept_execCarrierCalibrationEnd {pq : List Instr} (n : Nat) {s : State} (hs : Kept pq s) : KeptOut pq
    (execCarrierCalibrationEnd n s) := by
  unfold execCarrierCalibrationEnd
  apply keptOut_onUnit
  · exact hs
  · intro t1
    intro h2
    extract_lets +onlyGivenNames x3
    clear_value x3
    apply kept_ite
    · exact h2
    · extract_lets +onlyGivenNames x4
      clear_value x4
      extract_lets +onlyGivenNames x5
      have h5 : Kept pq x5 := by
        unfold x5
        apply kept_setCalState
        apply kept_setEngine
        exact h2
      clear_value x5
      extract_lets +onlyGivenNames x6
      have h6 : Kept pq x6 := by
        unfold x6
        apply kept_setN
        exact h5
      clear_value x6
      extract_lets +onlyGivenNames x7
      have h7 : Kept pq x7 := by
        unfold x7
        apply kept_ite
        · apply kept_engineRuns
          exact h6
        · exact h6
      clear_value x7
      apply kept_ite
      · apply kept_readyJudge
        exact h7
      · apply kept_heldRelease
        exact h7

theorem kept_execHeldEnableRelease {pq : List Instr} (n : Nat) {s : State} (hs : Kept pq s) : KeptOut pq (execHeldEnableRelease
    n s) := by
  unfold execHeldEnableRelease
  apply keptOut_onUnit
  · exact hs
  · intro t1
    intro h2
    apply kept_heldRelease
    exact h2

theorem kept_execNoLightLineUsable {pq : List Instr} (n : Nat) (power : F32) {s : State} (hs : Kept pq s) : KeptOut pq
    (execNoLightLineUsable n power s) := by
  unfold execNoLightLineUsable
  apply keptOut_onUnit
  · exact hs
  · intro t1
    intro h2
    apply kept_ite
    · exact h2
    · apply kept_calStart
      apply kept_setF
      apply kept_setN
      exact h2

theorem kept_recalibrate {pq : List Instr} (n : Nat) {s : State} (hs : Kept pq s) : Kept2 pq (recalibrate n s) := by
  unfold recalibrate
  apply kept2_ite
  · apply kept2_mk
    exact hs
  · apply kept2_ite
    · apply kept2_mk
      exact hs
    · apply kept2_mk
      apply kept_calStart
      apply kept_setN
      exact hs

theorem kept_execRecalibrate {pq : List Instr} (k : Nat) (n : Nat) {s : State} (hs : Kept pq s) : KeptOut pq (execRecalibrate k
    n s) := by
  unfold execRecalibrate
  apply keptOut_next
  apply kept_hostCmd
  · exact hs
  · intro t1
    intro h2
    apply kept_recalibrate
    exact h2

theorem kept_engineReset {pq : List Instr} (n : Nat) {s : State} (hs : Kept pq s) : Kept2 pq (engineReset n s) := by
  unfold engineReset
  apply kept2_ite
  · apply kept2_mk
    exact hs
  · apply kept2_ite
    · apply kept2_mk
      exact hs
    · apply kept2_ite
      · apply kept2_mk
        exact hs
      · extract_lets +onlyGivenNames x1
        have h1 : Kept pq x1 := by
          unfold x1
          apply kept_autoEnd
          exact hs
        clear_value x1
        extract_lets +onlyGivenNames x2
        clear_value x2
        extract_lets +onlyGivenNames x3
        have h3 : Kept pq x3 := by
          unfold x3
          apply kept_setEngine
          apply kept_setN
          exact h1
        clear_value x3
        apply kept2_mk
        apply kept_hubStop
        apply kept_goDark
        apply kept_rxStop
        exact h3

theorem kept_execEngineReset {pq : List Instr} (k : Nat) (n : Nat) {s : State} (hs : Kept pq s) : KeptOut pq (execEngineReset k
    n s) := by
  unfold execEngineReset
  apply keptOut_next
  apply kept_hostCmd
  · exact hs
  · intro t1
    intro h2
    apply kept_engineReset
    exact h2

theorem kept_execEngineResetDone {pq : List Instr} (n : Nat) {s : State} (hs : Kept pq s) : KeptOut pq (execEngineResetDone n
    s) := by
  unfold execEngineResetDone
  apply keptOut_onUnit
  · exact hs
  · intro t1 h2
    apply kept_ite
    · exact h2
    · extract_lets +onlyGivenNames x3
      clear_value x3
      extract_lets +onlyGivenNames x4
      have h4 : Kept pq x4 := by
        unfold x4
        apply kept_setN
        apply kept_setEngine
        exact h2
      clear_value x4
      apply kept_ite
      · apply kept_powerDownStart
        exact h4
      · apply kept_engineRuns
        apply kept_restartBlocks
        exact h4

theorem kept_laneGroupReset {pq : List Instr} (g : Nat) {s : State} (hs : Kept pq s) : Kept2 pq (laneGroupReset g s) := by
  unfold laneGroupReset
  apply kept2_ite
  · apply kept2_mk
    exact hs
  · apply kept2_mk
    apply kept_laneGroupRestart
    exact hs

theorem kept_execLaneGroupReset {pq : List Instr} (k : Nat) (g : Nat) {s : State} (hs : Kept pq s) : KeptOut pq
    (execLaneGroupReset k g s) := by
  unfold execLaneGroupReset
  apply keptOut_next
  apply kept_hostCmd
  · exact hs
  · intro t1
    intro h2
    apply kept_laneGroupReset
    exact h2

end Sys2Proof.Machine
end

