-- ==== Sys2Proof/Laws/KeptBoot.lean ====
section
/-! SUPPORT. Every operation of Machine/Boot.lean keeps the queue and the well-formedness of the state. -/

namespace Sys2Proof.Machine

theorem kept_writeRecord {pq : List Instr} {s : State} (hs : Kept pq s) (f : BootCopy → BootCopy) : Kept pq (State.writeRecord
    s f) := by
  unfold State.writeRecord
  extract_lets +onlyGivenNames x1
  clear_value x1
  extract_lets +onlyGivenNames x2
  clear_value x2
  extract_lets +onlyGivenNames x3
  clear_value x3
  apply kept_mk
  exact hs

theorem kept_setSlotState {pq : List Instr} {s : State} (i : Nat) (st : Nat) (hs : Kept pq s) : Kept pq (State.setSlotState s i
    st) := by
  unfold State.setSlotState
  apply kept_writeRecord
  exact hs

theorem kept_slotsSpoiled {pq : List Instr} {s : State} (hs : Kept pq s) (spoiled : List Nat) : Kept pq (slotsSpoiled s
    spoiled) := by
  unfold slotsSpoiled
  apply kept_foldl
  · exact hs
  · intro t1 t2 h3
    apply kept_ite
    · apply kept_writeRecord
      exact h3
    · exact h3

theorem kept_mgmtApplied {pq : List Instr} {s : State} (hs : Kept pq s) : Kept pq (mgmtApplied s) := by
  unfold mgmtApplied
  apply kept_foldl
  · exact hs
  · intro t1 t2 h3
    apply kept_setMgmtPort
    exact h3

theorem kept_resetRecord {pq : List Instr} {s : State} (cause : Nat) (hs : Kept pq s) : Kept pq (resetRecord s cause) := by
  unfold resetRecord
  apply kept_setO
  apply kept_setN
  exact hs

theorem kept_firmwareStart {pq : List Instr} {s : State} (i : Nat) (hs : Kept pq s) : Kept pq (firmwareStart s i) := by
  unfold firmwareStart
  apply kept_mk
  exact hs

theorem kept_canSend {pq : List Instr} {s : State} (p : Nat) (base : Nat) (data : Bytes) (hs : Kept pq s) : Kept pq (canSend s p
    base data) := by
  unfold canSend
  apply kept_send
  exact hs

theorem kept_canStart {pq : List Instr} {s : State} (p : Nat) (hs : Kept pq s) : Kept pq (canStart s p) := by
  unfold canStart
  extract_lets +onlyGivenNames x1
  have h1 : Kept pq x1 := by
    unfold x1
    apply kept_setCanPort
    exact hs
  clear_value x1
  extract_lets +onlyGivenNames x2
  clear_value x2
  apply kept_journalBy
  apply kept_setSession
  apply kept_canSend
  exact h1

theorem kept_canStartAll {pq : List Instr} {s : State} (hs : Kept pq s) : Kept pq (canStartAll s) := by
  unfold canStartAll
  apply kept_foldl
  · exact hs
  · intro t1 t2 h3
    apply kept_ite
    · apply kept_canStart
      exact h3
    · exact h3

theorem kept_canRestart {pq : List Instr} {s : State} (hs : Kept pq s) : Kept pq (canRestart s) := by
  unfold canRestart
  apply kept_foldl
  · exact hs
  · intro t1
    intro t2
    intro h3
    apply kept_ite
    · apply kept_setCanPort
      exact h3
    · exact h3

theorem kept_enterRecovery {pq : List Instr} {s : State} (hs : Kept pq s) : Kept pq (enterRecovery s) := by
  unfold enterRecovery
  extract_lets +onlyGivenNames x1
  clear_value x1
  extract_lets +onlyGivenNames x2
  clear_value x2
  extract_lets +onlyGivenNames x3
  have h3 : Kept pq x3 := by
    unfold x3
    apply kept_mk
    exact hs
  clear_value x3
  apply kept_raise
  apply kept_canRestart
  apply kept_setN
  exact h3

theorem kept_fallBack {pq : List Instr} {s : State} (hs : Kept pq s) (bad : Nat) (may : optParam (Nat → Bool) fun x => true) :
    Kept pq (fallBack s bad may) := by
  unfold fallBack
  extract_lets +onlyGivenNames x1
  have h1 : Kept pq x1 := by
    unfold x1
    apply kept_setSlotState
    exact hs
  clear_value x1
  extract_lets +onlyGivenNames x2
  clear_value x2
  apply kept_ite
  · extract_lets +onlyGivenNames x3
    have h3 : Kept pq x3 := by
      unfold x3
      apply kept_writeRecord
      exact h1
    clear_value x3
    apply kept_raise
    apply kept_setN
    apply kept_firmwareStart
    exact h3
  · apply kept_enterRecovery
    exact h1

theorem kept_romStart {pq : List Instr} {s : State} (hs : Kept pq s) (spoiled : List Nat) : Kept pq (romStart s spoiled) := by
  unfold romStart
  extract_lets +onlyGivenNames x1
  have h1 : Kept pq x1 := by
    unfold x1
    apply kept_slotsSpoiled
    exact hs
  clear_value x1
  extract_lets +onlyGivenNames x2
  clear_value x2
  apply kept_ite
  · extract_lets +onlyGivenNames x3
    have h3 : Kept pq x3 := by
      unfold x3
      apply kept_ite
      · apply kept_setSlotState
        exact h1
      · exact h1
    clear_value x3
    apply kept_setN
    apply kept_firmwareStart
    exact h3
  · apply kept_fallBack
    exact h1

theorem kept_afterReset {pq : List Instr} {s : State} (keep : Nat → Bool) (hs : Kept pq s) : Kept pq (afterReset s keep) :=
  kept_mgmtApplied ⟨hs.queue, {
    od := Tbl.wf_filter _ hs.tidy.od, sessions := rfl, can := rfl, scopes := rfl, sources := rfl, injectors := rfl, domains := rfl,
    engines := rfl, lanes := rfl, members := rfl, trays := rfl, keys := rfl, hubs := rfl, contexts := rfl, hotCopies := rfl,
    leafRuns := rfl, pages := rfl, dmas := rfl, tgEntries := rfl, tgs := rfl, fpos := rfl, monitors := rfl, windows := rfl,
    probes := rfl, mgmtPorts := rfl, journal := trivial, journalLength := Nat.zero_le _, hotCache := Nat.zero_le _ }⟩

theorem kept_fullReset {pq : List Instr} {s : State} (hs : Kept pq s) (cause : Nat) : Kept pq (fullReset s cause) := by
  unfold fullReset
  apply kept_resetRecord
  apply kept_afterReset
  exact hs

theorem kept_fullResetLatched {pq : List Instr} {s : State} (hs : Kept pq s) (cause : Nat) : Kept pq (fullResetLatched s
    cause) := by
  unfold fullResetLatched
  extract_lets +onlyGivenNames x1
  have h1 : Kept pq x1 := by
    unfold x1
    apply kept_fullReset
    exact hs
  clear_value x1
  extract_lets +onlyGivenNames x2
  clear_value x2
  extract_lets +onlyGivenNames x3
  clear_value x3
  extract_lets +onlyGivenNames x4
  have h4 : Kept pq x4 := by
    unfold x4
    apply kept_mk
    exact h1
  clear_value x4
  apply kept_ite
  · apply kept_setCond
    exact h4
  · exact h4

theorem kept_datapathStops {pq : List Instr} {s : State} (hs : Kept pq s) : Kept pq (datapathStops s) := by
  unfold datapathStops
  extract_lets +onlyGivenNames x1
  have h1 : Kept pq x1 := by
    unfold x1
    apply kept_foldl
    · exact hs
    · intro t2
      intro t3
      intro h4
      apply kept_ite
      · apply kept_commitAborted
        exact h4
      · apply kept_commitEnd
        exact h4
  clear_value x1
  extract_lets +onlyGivenNames x5
  have h5 : Kept pq x5 := by
    unfold x5
    apply kept_clearObjs
    exact h1
  clear_value x5
  extract_lets +onlyGivenNames x6
  have h6 : Kept pq x6 := by
    unfold x6
    apply kept_foldl
    · exact h5
    · intro t7
      intro t8
      intro h9
      extract_lets +onlyGivenNames x10
      clear_value x10
      apply kept_ite
      · apply kept_injectorIdle
        exact h9
      · exact h9
  clear_value x6
  extract_lets +onlyGivenNames x11
  have h11 : Kept pq x11 := by
    unfold x11
    apply kept_foldl
    · exact h6
    · intro t12
      intro t13
      intro h14
      apply kept_ite
      · apply kept_clearCond
        exact h14
      · exact h14
  clear_value x11
  extract_lets +onlyGivenNames x15
  have h15 : Kept pq x15 := by
    unfold x15
    apply kept_foldl
    · exact h11
    · intro t16
      intro t17
      intro h18
      apply kept_ite
      · apply kept_timingSourceLost
        exact h18
      · exact h18
  clear_value x15
  extract_lets +onlyGivenNames x19
  have h19 : Kept pq x19 := by
    unfold x19
    apply kept_foldl
    · exact h15
    · intro t20
      intro t21
      intro h22
      apply kept_monitorStop
      exact h22
  clear_value x19
  extract_lets +onlyGivenNames x23
  have h23 : Kept pq x23 := by
    unfold x23
    apply kept_windowsRestart
    apply kept_countersRestartDatapath
    exact h19
  clear_value x23
  apply kept_clearObjs
  exact h23

theorem kept_datapathLost {pq : List Instr} {s : State} (hs : Kept pq s) : Kept pq (datapathLost s) := by
  have wf_engines : ∀ l : List (Nat × Engine), Tbl.wf (fun _ => {}) l = true → Tbl.wf (fun _ => {})
      (l.filterMap fun p => if p.2.shed then some (p.1, ({ shed := true } : Engine)) else none) = true := by
    intro l h
    rw [Tbl.wf_iff] at *
    refine ⟨h.1.filterMap _ ?_, ?_⟩
    · intro a b hab c hc d hd
      split at hc <;> split at hd <;> simp_all
      obtain rfl := hc
      obtain rfl := hd
      exact hab
    · intro a ha
      obtain ⟨b, _, hb⟩ := List.mem_filterMap.mp ha
      split at hb
      · obtain rfl := Option.some.inj hb
        intro e
        simpa using congrArg Engine.shed e
      · exact nomatch hb
  have wf_trays : ∀ l : List (Nat × Tray), Tbl.wf (fun _ => {}) l = true → Tbl.wf (fun _ => {})
      (l.filterMap fun p =>
        let x : Tray := { exchange := p.2.exchange, agree := p.2.agree }
        if x = {} then none else some (p.1, x)) = true := by
    intro l h
    rw [Tbl.wf_iff] at *
    refine ⟨h.1.filterMap _ ?_, ?_⟩
    · intro a b hab c hc d hd
      dsimp only at hc hd
      split at hc <;> split at hd <;> simp_all
      obtain rfl := hc
      obtain rfl := hd
      exact hab
    · intro a ha
      obtain ⟨b, _, hb⟩ := List.mem_filterMap.mp ha
      dsimp only at hb
      split at hb
      · exact nomatch hb
      · obtain rfl := Option.some.inj hb
        assumption
  exact ⟨hs.queue, { hs.tidy with
    engines := wf_engines _ hs.tidy.engines, lanes := rfl, members := rfl, trays := wf_trays _ hs.tidy.trays, hubs := rfl,
    contexts := rfl, hotCopies := rfl, leafRuns := rfl, pages := rfl, dmas := rfl, probes := rfl, domains := rfl,
    hotCache := Nat.zero_le _ }⟩

theorem kept_railsOff {pq : List Instr} {s : State} (hs : Kept pq s) : Kept pq (railsOff s) := by
  unfold railsOff
  extract_lets +onlyGivenNames x1
  have h1 : Kept pq x1 := by
    unfold x1
    apply kept_datapathLost
    apply kept_datapathStops
    exact hs
  clear_value x1
  extract_lets +onlyGivenNames x2
  have h2 : Kept pq x2 := by
    unfold x2
    apply kept_foldl
    · exact h1
    · intro t3 t4 h5
      apply kept_ite
      · apply kept_slotsRefresh
        exact h5
      · exact h5
  clear_value x2
  extract_lets +onlyGivenNames x6
  have h6 : Kept pq x6 := by
    unfold x6
    apply kept_setCond
    apply kept_setF
    exact h2
  clear_value x6
  apply kept_thermJudge
  apply kept_setN
  apply kept_enter
  apply kept_mk
  exact h6

theorem kept_enterBoot {pq : List Instr} {s : State} (hs : Kept pq s) : Kept pq (enterBoot s) := by
  unfold enterBoot
  extract_lets +onlyGivenNames x1
  clear_value x1
  extract_lets +onlyGivenNames x2
  have h2 : Kept pq x2 := by
    unfold x2
    apply kept_mk
    exact hs
  clear_value x2
  extract_lets +onlyGivenNames x3
  have h3 : Kept pq x3 := by
    unfold x3
    apply kept_ite
    · apply kept_resetRecord
      exact h2
    · exact h2
  clear_value x3
  extract_lets +onlyGivenNames x4
  have h4 : Kept pq x4 := by
    unfold x4
    apply kept_bump
    apply kept_enter
    exact h3
  clear_value x4
  apply kept_mk
  exact h4

theorem kept_supplyStart {pq : List Instr} {s : State} (hs : Kept pq s) : Kept pq (supplyStart s) := by
  unfold supplyStart
  apply kept_ite
  · exact hs
  · apply kept_ite
    · apply kept_enterBoot
      exact hs
    · apply kept_ite
      · apply kept_mk
        exact hs
      · split
        · apply kept_mk
          exact hs
        · apply kept_raise
          apply kept_mk
          exact hs
        · apply kept_raise
          apply kept_mk
          exact hs

theorem kept_execPwrEnAsserted {pq : List Instr} (vin : VinBand) {s : State} (hs : Kept pq s) : KeptOut pq (execPwrEnAsserted
    vin s) := by
  unfold execPwrEnAsserted
  apply keptOut_next
  apply kept_ite
  · exact hs
  · extract_lets +onlyGivenNames x1
    clear_value x1
    extract_lets +onlyGivenNames x2
    clear_value x2
    extract_lets +onlyGivenNames x3
    have h3 : Kept pq x3 := by
      unfold x3
      apply kept_mk
      exact hs
    clear_value x3
    apply kept_supplyStart
    exact h3

theorem kept_execVin12EntersRange {pq : List Instr} {s : State} (hs : Kept pq s) : KeptOut pq (execVin12EntersRange s) := by
  unfold execVin12EntersRange
  apply keptOut_next
  extract_lets +onlyGivenNames x1
  clear_value x1
  extract_lets +onlyGivenNames x2
  have h2 : Kept pq x2 := by
    unfold x2
    apply kept_mk
    exact hs
  clear_value x2
  apply kept_ite
  · apply kept_supplyStart
    exact h2
  · exact h2

theorem kept_domainFalls {pq : List Instr} {s : State} (d : Nat) (hs : Kept pq s) : Kept pq (domainFalls s d) := by
  unfold domainFalls
  apply kept_ite
  · extract_lets +onlyGivenNames x1
    clear_value x1
    apply kept_setN
    apply kept_powerDownStart
    exact hs
  · exact hs

theorem kept_execPwrEnNegated {pq : List Instr} {s : State} (hs : Kept pq s) : KeptOut pq (execPwrEnNegated s) := by
  unfold execPwrEnNegated
  apply keptOut_next
  extract_lets +onlyGivenNames x1
  clear_value x1
  extract_lets +onlyGivenNames x2
  have h2 : Kept pq x2 := by
    unfold x2
    apply kept_mk
    exact hs
  clear_value x2
  apply kept_ite
  · exact h2
  · extract_lets +onlyGivenNames x3
    clear_value x3
    extract_lets +onlyGivenNames x4
    clear_value x4
    extract_lets +onlyGivenNames x5
    have h5 : Kept pq x5 := by
      unfold x5
      apply kept_mk
      exact h2
    clear_value x5
    extract_lets +onlyGivenNames x6
    have h6 : Kept pq x6 := by
      unfold x6
      apply kept_thermJudge
      apply kept_setCond
      exact h5
    clear_value x6
    apply kept_ite
    · apply kept_foldl
      · exact h6
      · intro t7
        intro t8
        intro h9
        apply kept_domainFalls
        exact h9
    · exact h6

theorem kept_execRegulatorsOff {pq : List Instr} {s : State} (hs : Kept pq s) : KeptOut pq (execRegulatorsOff s) := by
  unfold execRegulatorsOff
  apply keptOut_next
  apply kept_ite
  · apply kept_supplyStart
    apply kept_railsOff
    exact hs
  · exact hs

theorem kept_execRailsGood {pq : List Instr} {s : State} (hs : Kept pq s) : KeptOut pq (execRailsGood s) := by
  unfold execRailsGood
  apply keptOut_next
  apply kept_ite
  · apply kept_enterBoot
    exact hs
  · exact hs

theorem kept_execRailGoodTimeout {pq : List Instr} {s : State} (hs : Kept pq s) : KeptOut pq (execRailGoodTimeout s) := by
  unfold execRailGoodTimeout
  apply keptOut_next
  apply kept_ite
  · exact hs
  · apply kept_raise
    apply kept_mk
    exact hs

theorem kept_restartRecord {pq : List Instr} {s : State} (hs : Kept pq s) : Kept pq (restartRecord s) := by
  unfold restartRecord
  apply kept_ite
  · extract_lets +onlyGivenNames x1
    have h1 : Kept pq x1 := by
      unfold x1
      apply kept_resetRecord
      exact hs
    clear_value x1
    apply kept_mk
    exact h1
  · exact hs

theorem kept_supplyFault {pq : List Instr} {s : State} (source : Nat) (hs : Kept pq s) : Kept pq (supplyFault s source) := by
  unfold supplyFault
  apply kept_ite
  · exact hs
  · extract_lets +onlyGivenNames x1
    have h1 : Kept pq x1 := by
      unfold x1
      apply kept_railsOff
      apply kept_restartRecord
      apply kept_raise
      exact hs
    clear_value x1
    apply kept_mk
    exact h1

theorem kept_execVin12Undervoltage {pq : List Instr} {s : State} (hs : Kept pq s) : KeptOut pq (execVin12Undervoltage s) := by
  unfold execVin12Undervoltage
  apply keptOut_next
  apply kept_supplyFault
  apply kept_mk
  exact hs

theorem kept_execVin12Overvoltage {pq : List Instr} {s : State} (hs : Kept pq s) : KeptOut pq (execVin12Overvoltage s) := by
  unfold execVin12Overvoltage
  apply keptOut_next
  apply kept_supplyFault
  apply kept_mk
  exact hs

theorem kept_thermalTrip {pq : List Instr} {s : State} (hs : Kept pq s) : Kept pq (thermalTrip s) := by
  unfold thermalTrip
  extract_lets +onlyGivenNames x1
  have h1 : Kept pq x1 := by
    unfold x1
    apply kept_railsOff
    apply kept_restartRecord
    apply kept_setCond
    exact hs
  clear_value x1
  apply kept_thermJudge
  apply kept_mk
  exact h1

theorem kept_execAux3v3InRange {pq : List Instr} (spoiled : List Nat) {s : State} (hs : Kept pq s) : KeptOut pq
    (execAux3v3InRange spoiled s) := by
  unfold execAux3v3InRange
  apply keptOut_next
  apply kept_ite
  · exact hs
  · extract_lets +onlyGivenNames x1
    clear_value x1
    extract_lets +onlyGivenNames x2
    clear_value x2
    extract_lets +onlyGivenNames x3
    have h3 : Kept pq x3 := by
      unfold x3
      apply kept_afterReset
      apply kept_mk
      exact hs
    clear_value x3
    extract_lets +onlyGivenNames x4
    clear_value x4
    extract_lets +onlyGivenNames x5
    have h5 : Kept pq x5 := by
      unfold x5
      apply kept_mk
      exact h3
    clear_value x5
    extract_lets +onlyGivenNames x6
    have h6 : Kept pq x6 := by
      unfold x6
      apply kept_monitorStart
      apply kept_resetRecord
      exact h5
    clear_value x6
    apply kept_ite
    · apply kept_romStart
      exact h6
    · apply kept_mk
      exact h6

theorem kept_execAux3v3Loss {pq : List Instr} (torn : Bool) {s : State} (hs : Kept pq s) : KeptOut pq (execAux3v3Loss torn s)
    := by
  unfold execAux3v3Loss
  apply keptOut_next
  apply kept_ite
  · exact hs
  · extract_lets +onlyGivenNames x1
    clear_value x1
    extract_lets +onlyGivenNames x2
    clear_value x2
    extract_lets +onlyGivenNames x3
    clear_value x3
    extract_lets +onlyGivenNames x4
    clear_value x4
    extract_lets +onlyGivenNames x5
    clear_value x5
    extract_lets +onlyGivenNames x6
    have h6 : Kept pq x6 := by
      unfold x6
      apply kept_afterReset
      apply kept_mk
      exact hs
    clear_value x6
    apply kept_mk
    exact h6

theorem kept_firmwareReady {pq : List Instr} {s : State} (hs : Kept pq s) : Kept pq (firmwareReady s) := by
  unfold firmwareReady
  apply kept_mk
  exact hs

theorem kept_execManagementFirmwareReady {pq : List Instr} {s : State} (hs : Kept pq s) : KeptOut pq
    (execManagementFirmwareReady s) := by
  unfold execManagementFirmwareReady
  apply keptOut_next
  apply kept_ite
  · exact hs
  · apply kept_supplyStart
    apply kept_canRestart
    apply kept_firmwareReady
    exact hs

theorem kept_execFirmwareReadyTimeout {pq : List Instr} {s : State} (hs : Kept pq s) : KeptOut pq (execFirmwareReadyTimeout s)
    := by
  unfold execFirmwareReadyTimeout
  apply keptOut_next
  apply kept_ite
  · exact hs
  · apply kept_resetRecord
    apply kept_fallBack
    exact hs

theorem kept_execResetNAsserted {pq : List Instr} {s : State} (hs : Kept pq s) : KeptOut pq (execResetNAsserted s) := by
  unfold execResetNAsserted
  apply keptOut_next
  extract_lets +onlyGivenNames x1
  clear_value x1
  extract_lets +onlyGivenNames x2
  have h2 : Kept pq x2 := by
    unfold x2
    apply kept_mk
    exact hs
  clear_value x2
  apply kept_ite
  · exact h2
  · extract_lets +onlyGivenNames x3
    have h3 : Kept pq x3 := by
      unfold x3
      apply kept_monitorStart
      apply kept_fullResetLatched
      exact h2
    clear_value x3
    apply kept_mk
    exact h3

theorem kept_execResetNReleased {pq : List Instr} (spoiled : List Nat) {s : State} (hs : Kept pq s) : KeptOut pq
    (execResetNReleased spoiled s) := by
  unfold execResetNReleased
  apply keptOut_next
  extract_lets +onlyGivenNames x1
  clear_value x1
  extract_lets +onlyGivenNames x2
  clear_value x2
  extract_lets +onlyGivenNames x3
  have h3 : Kept pq x3 := by
    unfold x3
    apply kept_mk
    exact hs
  clear_value x3
  apply kept_ite
  · apply kept_romStart
    apply kept_mk
    exact h3
  · exact h3

theorem kept_fullResetCommand {pq : List Instr} {s : State} (hs : Kept pq s) : Kept2 pq (fullResetCommand s) := by
  unfold fullResetCommand
  apply kept2_mk
  apply kept_romStart
  apply kept_monitorStart
  apply kept_fullResetLatched
  exact hs

theorem kept_execFullResetCommand {pq : List Instr} (k : Nat) {s : State} (hs : Kept pq s) : KeptOut pq (execFullResetCommand k
    s) := by
  unfold execFullResetCommand
  apply keptOut_next
  apply kept_hostCmd
  · exact hs
  · intro t1
    intro h2
    apply kept_fullResetCommand
    exact h2

theorem kept_transportsEnd {pq : List Instr} {s : State} (hs : Kept pq s) : Kept pq (transportsEnd s) :=
  ⟨hs.queue, { hs.tidy with can := Tbl.wf_nil }⟩

theorem kept_managementReset {pq : List Instr} {s : State} (hs : Kept pq s) (slot : Nat) (cause : Nat) : Kept pq
    (managementReset s slot cause) := by
  unfold managementReset
  extract_lets +onlyGivenNames x1
  have h1 : Kept pq x1 := by
    unfold x1
    apply kept_foldl
    · exact hs
    · intro t2 t3 h4
      apply kept_endSession
      exact h4
  clear_value x1
  extract_lets +onlyGivenNames x5
  have h5 : Kept pq x5 := by
    unfold x5
    apply kept_mgmtApplied
    apply kept_transportsEnd
    exact h1
  clear_value x5
  extract_lets +onlyGivenNames x6
  have h6 : Kept pq x6 := by
    unfold x6
    apply kept_resetRecord
    apply kept_bump
    exact h5
  clear_value x6
  extract_lets +onlyGivenNames x7
  clear_value x7
  extract_lets +onlyGivenNames x8
  have h8 : Kept pq x8 := by
    unfold x8
    apply kept_mk
    exact h6
  clear_value x8
  apply kept_ite
  · apply kept_firmwareStart
    exact h8
  · apply kept_fallBack
    exact h8

theorem kept_mgmtResetCommand {pq : List Instr} {s : State} (hs : Kept pq s) : Kept2 pq (mgmtResetCommand s) := by
  unfold mgmtResetCommand
  split
  · apply kept2_mk
    exact hs
  · apply kept2_mk
    apply kept_managementReset
    exact hs

theorem kept_execManagementReset {pq : List Instr} (k : Nat) {s : State} (hs : Kept pq s) : KeptOut pq (execManagementReset k s)
    := by
  unfold execManagementReset
  apply keptOut_next
  apply kept_hostCmd
  · exact hs
  · intro t1
    intro h2
    apply kept_mgmtResetCommand
    exact h2

theorem kept_execManagementResetDone {pq : List Instr} {s : State} (hs : Kept pq s) : KeptOut pq (execManagementResetDone s)
    := by
  unfold execManagementResetDone
  apply keptOut_next
  apply kept_ite
  · exact hs
  · extract_lets +onlyGivenNames x1
    have h1 : Kept pq x1 := by
      unfold x1
      apply kept_canStartAll
      apply kept_firmwareReady
      exact hs
    clear_value x1
    apply kept_ite
    · exact h1
    · apply kept_supplyStart
      exact h1

theorem kept_execDatapathPartStreamed {pq : List Instr} (ok : Bool) {s : State} (hs : Kept pq s) : KeptOut pq
    (execDatapathPartStreamed ok s) := by
  unfold execDatapathPartStreamed
  apply keptOut_next
  apply kept_ite
  · exact hs
  · apply kept_ite
    · apply kept_mk
      exact hs
    · extract_lets +onlyGivenNames x1
      have h1 : Kept pq x1 := by
        unfold x1
        apply kept_railsOff
        exact hs
      clear_value x1
      extract_lets +onlyGivenNames x2
      clear_value x2
      extract_lets +onlyGivenNames x3
      have h3 : Kept pq x3 := by
        unfold x3
        apply kept_fallBack
        exact h1
      clear_value x3
      apply kept_ite
      · extract_lets +onlyGivenNames x4
        have h4 : Kept pq x4 := by
          unfold x4
          apply kept_foldl
          · exact h3
          · intro t k ht
            exact kept_endSession k ht
        clear_value x4
        apply kept_mgmtApplied
        apply kept_mk_tables
        · exact h4
        · exact Tbl.wf_nil
        · exact h4.tidy.scopes
        · exact h4.tidy.pages
        · exact h4.tidy.keys
      · extract_lets +onlyGivenNames x8
        have h8 : Kept2 pq x8 := by
          unfold x8
          apply kept_freeNat
          exact h3
        clear_value x8
        extract_lets +onlyGivenNames x9
        have h9 : Kept pq x9 := by
          unfold x9
          apply kept_managementReset
          apply Kept2.out
          exact h8
        clear_value x9
        apply kept_mk
        exact h9

theorem kept_execDieLinksTrained {pq : List Instr} {s : State} (hs : Kept pq s) : KeptOut pq (execDieLinksTrained s) := by
  unfold execDieLinksTrained
  apply keptOut_next
  apply kept_ite
  · apply kept_mk
    exact hs
  · exact hs

theorem kept_savedValues {pq : List Instr} {s : State} (p : Nat → Bool) (hs : Kept pq s) : Kept pq (savedValues s p) := by
  unfold savedValues
  extract_lets +onlyGivenNames x1
  have h1 : Kept pq x1 := by
    unfold x1
    apply kept_clearObjs
    exact hs
  clear_value x1
  apply kept_foldl
  · exact h1
  · intro t2
    intro t3
    intro h4
    apply kept_ite
    · apply kept_setVal
      exact h4
    · exact h4

theorem kept_execStockpotInitialised {pq : List Instr} {s : State} (hs : Kept pq s) : KeptOut pq (execStockpotInitialised s)
    := by
  unfold execStockpotInitialised
  apply keptOut_next
  apply kept_ite
  · exact hs
  · extract_lets +onlyGivenNames x1
    have h1 : Kept pq x1 := by
      unfold x1
      apply kept_stockpotInitialise
      apply kept_savedValues
      exact hs
    clear_value x1
    apply kept_mk
    exact h1

theorem kept_configEffects {pq : List Instr} {old : State} {s : State} (hs : Kept pq s) (refused : List Nat) : Kept pq
    (configEffects old s refused) := by
  unfold configEffects
  extract_lets +onlyGivenNames x1
  have h1 : Kept pq x1 := by
    unfold x1
    apply kept_foldl
    · exact hs
    · intro t2 t3 h4
      apply kept_sealCommitted
      apply kept_placementChanged
      exact h4
  clear_value x1
  extract_lets +onlyGivenNames x5
  have h5 : Kept pq x5 := by
    unfold x5
    apply kept_foldl
    · exact h1
    · intro t6 t7 h8
      apply kept_hubCopied
      exact h8
  clear_value x5
  extract_lets +onlyGivenNames x9
  have h9 : Kept pq x9 := by
    unfold x9
    apply kept_foldl
    · exact h5
    · intro t10 t11 h12
      extract_lets +onlyGivenNames x13
      have h13 : Kept pq x13 := by
        unfold x13
        apply kept_leafSet
        exact h12
      clear_value x13
      apply kept_ite
      · apply kept_leafEnableAfter
        exact h13
      · exact h13
  clear_value x9
  extract_lets +onlyGivenNames x14
  have h14 : Kept pq x14 := by
    unfold x14
    apply kept_foldl
    · exact h9
    · intro t15 t16 h17
      apply kept_steerWritten
      apply kept_loopWritten
      exact h17
  clear_value x14
  extract_lets +onlyGivenNames x18
  have h18 : Kept pq x18 := by
    unfold x18
    apply kept_foldl
    · exact h14
    · intro t19 t20 h21
      apply kept_ite
      · apply kept_fpoMoved
        exact h21
      · apply kept_fpoEnabled
        exact h21
  clear_value x18
  apply kept_foldl
  · exact h18
  · intro t22 t23 h24
    apply kept_skewJudge
    apply kept_manualGain
    exact h24

theorem kept_execSavedConfigApplied {pq : List Instr} (refused : List Nat) {s : State} (hs : Kept pq s) : KeptOut pq
    (execSavedConfigApplied refused s) := by
  unfold execSavedConfigApplied
  apply keptOut_next
  apply kept_ite
  · exact hs
  · extract_lets +onlyGivenNames x1
    have h1 : Kept pq x1 := by
      unfold x1
      apply kept_mk
      exact hs
    clear_value x1
    extract_lets +onlyGivenNames x2
    have h2 : Kept pq x2 := by
      unfold x2
      apply kept_savedValues
      exact h1
    clear_value x2
    extract_lets +onlyGivenNames x3
    have h3 : Kept pq x3 := by
      unfold x3
      apply kept_clearObjs
      exact h2
    clear_value x3
    extract_lets +onlyGivenNames x4
    clear_value x4
    extract_lets +onlyGivenNames x5
    have h5 : Kept pq x5 := by
      unfold x5
      apply kept_setO
      exact h3
    clear_value x5
    extract_lets +onlyGivenNames x6
    have h6 : Kept pq x6 := by
      unfold x6
      apply kept_ite
      · exact h5
      · apply kept_raise
        exact h5
    clear_value x6
    extract_lets +onlyGivenNames x7
    have h7 : Kept pq x7 := by
      unfold x7
      apply kept_foldl
      · exact h6
      · intro t8 t9 h10
        apply kept_setEngine
        exact h10
    clear_value x7
    extract_lets +onlyGivenNames x11
    have h11 : Kept pq x11 := by
      unfold x11
      apply kept_configEffects
      exact h7
    clear_value x11
    extract_lets +onlyGivenNames x12
    have h12 : Kept pq x12 := by
      unfold x12
      apply kept_foldl
      · exact h11
      · intro t13 t14 h15
        apply kept_ite
        · apply kept_setDomain
          apply kept_setN
          exact h15
        · exact h15
    clear_value x12
    apply kept_mk
    exact h12

theorem kept_execBootPowerUpDone {pq : List Instr} {s : State} (hs : Kept pq s) : KeptOut pq (execBootPowerUpDone s) := by
  unfold execBootPowerUpDone
  apply keptOut_next
  apply kept_ite
  · exact hs
  · extract_lets +onlyGivenNames x1
    have h1 : Kept pq x1 := by
      unfold x1
      apply kept_enter
      apply kept_setN
      exact hs
    clear_value x1
    extract_lets +onlyGivenNames x2
    clear_value x2
    extract_lets +onlyGivenNames x3
    have h3 : Kept pq x3 := by
      unfold x3
      apply kept_mk
      exact h1
    clear_value x3
    extract_lets +onlyGivenNames x4
    have h4 : Kept pq x4 := by
      unfold x4
      apply kept_foldl
      · exact h3
      · intro t5
        intro t6
        intro h7
        apply kept_ite
        · apply kept_domainUp
          exact h7
        · exact h7
    clear_value x4
    apply kept_readyJudge
    exact h4

theorem kept_configSave {pq : List Instr} {s : State} (hs : Kept pq s) : Kept2 pq (configSave s) := by
  unfold configSave
  apply kept2_ite
  · apply kept2_mk
    exact hs
  · apply kept2_mk
    apply kept_bump
    apply kept_mk
    exact hs

theorem kept_configErase {pq : List Instr} {s : State} (hs : Kept pq s) : Kept2 pq (configErase s) := by
  unfold configErase
  apply kept2_ite
  · apply kept2_mk
    exact hs
  · apply kept2_mk
    apply kept_mk
    exact hs

theorem kept_execConfigSave {pq : List Instr} (k : Nat) {s : State} (hs : Kept pq s) : KeptOut pq (execConfigSave k s) := by
  unfold execConfigSave
  apply keptOut_next
  apply kept_hostCmd
  · exact hs
  · intro t1
    intro h2
    apply kept_configSave
    exact h2

theorem kept_execConfigErase {pq : List Instr} (k : Nat) {s : State} (hs : Kept pq s) : KeptOut pq (execConfigErase k s) := by
  unfold execConfigErase
  apply keptOut_next
  apply kept_hostCmd
  · exact hs
  · intro t1
    intro h2
    apply kept_configErase
    exact h2

theorem kept_firmwareVerify {pq : List Instr} (ok : Bool) (version : Bytes) (security : Nat) (datapath : Nat) {s : State} (hs :
    Kept pq s) : Kept2 pq (firmwareVerify ok version security datapath s) := by
  unfold firmwareVerify
  apply kept2_ite
  · apply kept2_mk
    exact hs
  · extract_lets +onlyGivenNames x1
    clear_value x1
    extract_lets +onlyGivenNames x2
    clear_value x2
    apply kept2_ite
    · apply kept2_mk
      exact hs
    · extract_lets +onlyGivenNames x3
      clear_value x3
      apply kept2_mk
      apply kept_writeRecord
      exact hs

theorem kept_execFirmwareVerify {pq : List Instr} (k : Nat) (ok : Bool) (version : Bytes) (security : Nat) (datapath : Nat) {s :
    State} (hs : Kept pq s) : KeptOut pq (execFirmwareVerify k ok version security datapath s) := by
  unfold execFirmwareVerify
  apply keptOut_next
  apply kept_hostCmd
  · exact hs
  · intro t1
    intro h2
    apply kept_firmwareVerify
    exact h2

theorem kept_firmwareActivate {pq : List Instr} {s : State} (hs : Kept pq s) : Kept2 pq (firmwareActivate s) := by
  unfold firmwareActivate
  extract_lets +onlyGivenNames x1
  clear_value x1
  apply kept2_ite
  · apply kept2_mk
    exact hs
  · split
    · apply kept2_mk
      exact hs
    · extract_lets +onlyGivenNames x2
      have h2 : Kept pq x2 := by
        unfold x2
        apply kept_writeRecord
        exact hs
      clear_value x2
      apply kept2_mk
      apply kept_setN
      apply kept_managementReset
      exact h2

theorem kept_execFirmwareActivate {pq : List Instr} (k : Nat) {s : State} (hs : Kept pq s) : KeptOut pq (execFirmwareActivate k
    s) := by
  unfold execFirmwareActivate
  apply keptOut_next
  apply kept_hostCmd
  · exact hs
  · intro t1
    intro h2
    apply kept_firmwareActivate
    exact h2

theorem kept_firmwareConfirm {pq : List Instr} {s : State} (hs : Kept pq s) : Kept2 pq (firmwareConfirm s) := by
  unfold firmwareConfirm
  extract_lets +onlyGivenNames x1
  clear_value x1
  apply kept2_ite
  · apply kept2_mk
    exact hs
  · extract_lets +onlyGivenNames x2
    have h2 : Kept pq x2 := by
      unfold x2
      apply kept_writeRecord
      exact hs
    clear_value x2
    apply kept2_mk
    apply kept_mk
    exact h2

theorem kept_execFirmwareConfirm {pq : List Instr} (k : Nat) {s : State} (hs : Kept pq s) : KeptOut pq (execFirmwareConfirm k s)
    := by
  unfold execFirmwareConfirm
  apply keptOut_next
  apply kept_hostCmd
  · exact hs
  · intro t1
    intro h2
    apply kept_firmwareConfirm
    exact h2

theorem kept_firmwareSwap {pq : List Instr} {s : State} (hs : Kept pq s) : Kept2 pq (firmwareSwap s) := by
  unfold firmwareSwap
  extract_lets +onlyGivenNames x1
  clear_value x1
  apply kept2_ite
  · apply kept2_mk
    apply kept_writeRecord
    exact hs
  · apply kept2_mk
    exact hs

theorem kept_execFirmwareSwapPreferred {pq : List Instr} (k : Nat) {s : State} (hs : Kept pq s) : KeptOut pq
    (execFirmwareSwapPreferred k s) := by
  unfold execFirmwareSwapPreferred
  apply keptOut_next
  apply kept_hostCmd
  · exact hs
  · intro t1
    intro h2
    apply kept_firmwareSwap
    exact h2

theorem kept_trialReset {pq : List Instr} {s : State} (hs : Kept pq s) : Kept pq (trialReset s) := by
  unfold trialReset
  apply kept_setN
  apply kept_managementReset
  exact hs

theorem kept_execTrialTimeout {pq : List Instr} {s : State} (hs : Kept pq s) : KeptOut pq (execTrialTimeout s) := by
  unfold execTrialTimeout
  apply keptOut_next
  apply kept_ite
  · exact hs
  · extract_lets +onlyGivenNames x1
    clear_value x1
    extract_lets +onlyGivenNames x2
    have h2 : Kept pq x2 := by
      unfold x2
      apply kept_writeRecord
      apply kept_raise
      exact hs
    clear_value x2
    extract_lets +onlyGivenNames x3
    clear_value x3
    extract_lets +onlyGivenNames x4
    have h4 : Kept pq x4 := by
      unfold x4
      apply kept_mk
      exact h2
    clear_value x4
    apply kept_ite
    · apply kept_mk
      exact h4
    · apply kept_trialReset
      exact h4

theorem kept_execDeferredTrialReset {pq : List Instr} {s : State} (hs : Kept pq s) : KeptOut pq (execDeferredTrialReset s) :=
    by
  unfold execDeferredTrialReset
  apply keptOut_next
  apply kept_ite
  · apply kept_trialReset
    exact hs
  · exact hs

end Sys2Proof.Machine
end

