-- ==== Sys2Proof/Laws/KeptFaults.lean ====
section
/-! SUPPORT. Every operation of Machine/Faults.lean keeps the queue and the well-formedness of the state. -/

namespace Sys2Proof.Machine

theorem kept_condJudge {pq : List Instr} {s : State} (key : Nat) (hs : Kept pq s) : Kept pq (condJudge s key) := by
  unfold condJudge
  apply kept_ite
  · apply kept_thermJudge
    exact hs
  · apply kept_ite
    · extract_lets +onlyGivenNames x1
      clear_value x1
      extract_lets +onlyGivenNames x2
      clear_value x2
      apply kept_ite
      · apply kept_launchJudge
        apply kept_rxJudge
        exact hs
      · apply kept_ite
        · apply kept_traysRefresh
          exact hs
        · exact hs
    · apply kept_ite
      · exact hs
      · apply kept_ite
        · extract_lets +onlyGivenNames x3
          clear_value x3
          apply kept_ite
          · apply kept_clientJudge
            exact hs
          · apply kept_trayRefresh
            exact hs
        · exact hs

theorem kept_occurHold {pq : List Instr} {s : State} (key : Nat) (hs : Kept pq s) : Kept pq (occurHold s key) := by
  unfold occurHold
  apply kept_ite
  · apply kept_ite
    · apply kept_hold
      exact hs
    · exact hs
  · apply kept_ite
    · apply kept_hold
      exact hs
    · exact hs

theorem kept_injectedHold {pq : List Instr} {s : State} (key : Nat) (hs : Kept pq s) : Kept pq (injectedHold s key) := by
  unfold injectedHold
  apply kept_ite
  · apply kept_ite
    · apply kept_hold
      exact hs
    · exact hs
  · apply kept_ite
    · apply kept_hold
      exact hs
    · exact hs

theorem kept_execSourceOccurrence {pq : List Instr} (key : Nat) (unit : Nat) {s : State} (hs : Kept pq s) : KeptOut pq
    (execSourceOccurrence key unit s) := by
  unfold execSourceOccurrence
  apply keptOut_onUnit
  · exact hs
  · intro t1
    intro h2
    apply kept_ite
    · exact h2
    · extract_lets +onlyGivenNames x3
      have h3 : Kept pq x3 := by
        unfold x3
        apply kept_ite
        · apply kept_bump
          exact h2
        · exact h2
      clear_value x3
      apply kept_condJudge
      apply kept_occurHold
      apply kept_occur
      exact h3

theorem kept_execConditionEnd {pq : List Instr} (key : Nat) {s : State} (hs : Kept pq s) : KeptOut pq (execConditionEnd key s)
    := by
  unfold execConditionEnd
  apply keptOut_onUnit
  · exact hs
  · intro t1
    intro h2
    apply kept_condJudge
    apply kept_setCond
    exact h2

theorem kept_ackSource {pq : List Instr} (k : Nat) {s : State} (hs : Kept pq s) : Kept2 pq (ackSource k s) := by
  unfold ackSource
  extract_lets +onlyGivenNames x1
  clear_value x1
  apply kept2_ite
  · apply kept2_mk
    apply kept_foldl
    · exact hs
    · intro t2
      intro t3
      intro h4
      apply kept_ack
      exact h4
  · apply kept2_ite
    · apply kept2_mk
      apply kept_ack
      exact hs
    · apply kept2_mk
      exact hs

theorem kept_ackAll {pq : List Instr} (k : Nat) {s : State} (hs : Kept pq s) : Kept2 pq (ackAll k s) := by
  unfold ackAll
  apply kept2_mk
  apply kept_foldl
  · exact hs
  · intro t1
    intro t2
    intro h3
    apply kept_ack
    exact h3

theorem kept_execEventAckSource {pq : List Instr} (k : Nat) {s : State} (hs : Kept pq s) : KeptOut pq (execEventAckSource k s)
    := by
  unfold execEventAckSource
  apply keptOut_next
  apply kept_hostCmd
  · exact hs
  · intro t1
    intro h2
    apply kept_ackSource
    exact h2

theorem kept_execEventAckAll {pq : List Instr} (k : Nat) {s : State} (hs : Kept pq s) : KeptOut pq (execEventAckAll k s) := by
  unfold execEventAckAll
  apply keptOut_next
  apply kept_hostCmd
  · exact hs
  · intro t1
    intro h2
    apply kept_ackAll
    exact h2

theorem kept_clearLost {pq : List Instr} {s : State} (hs : Kept pq s) : Kept2 pq (clearLost s) := by
  unfold clearLost
  apply kept2_mk
  apply kept_setN
  apply kept_setN
  exact hs

theorem kept_execEventClearLost {pq : List Instr} (k : Nat) {s : State} (hs : Kept pq s) : KeptOut pq (execEventClearLost k s)
    := by
  unfold execEventClearLost
  apply keptOut_next
  apply kept_hostCmd
  · exact hs
  · intro t1
    intro h2
    apply kept_clearLost
    exact h2

theorem kept_injectAct {pq : List Instr} {s : State} (hs : Kept pq s) (j : Nat) (key : Nat) : Kept pq (injectAct s j key) :=
    by
  unfold injectAct
  extract_lets +onlyGivenNames x1
  clear_value x1
  apply kept_ite
  · extract_lets +onlyGivenNames x2
    clear_value x2
    extract_lets +onlyGivenNames x3
    clear_value x3
    split
    · apply kept_setLeafRun
      apply kept_suspectLeaf
      apply kept_bump
      exact hs
    · apply kept_ite
      · apply kept_setLeafRun
        apply kept_setCtx
        exact hs
      · exact hs
    · apply kept_ite
      · apply kept_setLeafRun
        apply kept_setCtx
        exact hs
      · exact hs
    · apply kept_bumpLeaf
      exact hs
  · apply kept_ite
    · apply kept_bump
      exact hs
    · apply kept_ite
      · apply kept_bump
        exact hs
      · apply kept_ite
        · apply kept_ite
          · apply kept_stockpotLog
            exact hs
          · exact hs
        · apply kept_ite
          · apply kept_ite
            · apply kept_stockpotLog
              exact hs
            · exact hs
          · apply kept_ite
            · apply kept_ite
              · apply kept_stockpotLog
                exact hs
              · exact hs
            · apply kept_ite
              · exact hs
              · apply kept_ite
                · apply kept_setB
                  exact hs
                · apply kept_ite
                  · apply kept_ite
                    · apply kept_probeInject
                      exact hs
                    · exact hs
                  · apply kept_ite
                    · extract_lets +onlyGivenNames x4
                      clear_value x4
                      extract_lets +onlyGivenNames x5
                      clear_value x5
                      apply kept_ite
                      · extract_lets +onlyGivenNames x6
                        have h6 : Kept pq x6 := by
                          unfold x6
                          apply kept_setN
                          exact hs
                        clear_value x6
                        apply kept_ite
                        · apply kept_setB
                          exact h6
                        · exact h6
                      · apply kept_ite
                        · apply kept_tgHold
                          apply kept_tgDeselect
                          exact hs
                        · apply kept_ite
                          · apply kept_tgLost
                            apply kept_tgDeselect
                            exact hs
                          · exact hs
                    · apply kept_ite
                      · extract_lets +onlyGivenNames x7
                        clear_value x7
                        split
                        · apply kept_bump
                          exact hs
                        · apply kept_bump
                          apply kept_setB
                          exact hs
                        · apply kept_lockLost
                          exact hs
                        · apply kept_jointStop
                          exact hs
                        · apply kept_ite
                          · apply kept_setN
                            exact hs
                          · exact hs
                        · apply kept_setB
                          exact hs
                        · exact hs
                      · apply kept_ite
                        · extract_lets +onlyGivenNames x8
                          clear_value x8
                          split
                          · apply kept_ite
                            · extract_lets +onlyGivenNames x9
                              have h9 : Kept pq x9 := by
                                unfold x9
                                apply kept_bump
                                apply kept_laneDetect
                                exact hs
                              clear_value x9
                              apply kept_noteInjected
                              apply kept_setLane
                              exact h9
                            · exact hs
                          · apply kept_setB
                            exact hs
                          · exact hs
                        · apply kept_ite
                          · apply kept_ite
                            · apply kept_setB
                              exact hs
                            · exact hs
                          · exact hs

theorem kept_injectRelease {pq : List Instr} {s : State} (hs : Kept pq s) (key : Nat) : Kept pq (injectRelease s key) := by
  unfold injectRelease
  apply kept_ite
  · apply kept_ite
    · apply kept_probeEnd
      exact hs
    · exact hs
  · apply kept_ite
    · exact hs
    · apply kept_ite
      · apply kept_setB
        exact hs
      · apply kept_ite
        · apply kept_setB
          exact hs
        · apply kept_ite
          · apply kept_setB
            exact hs
          · apply kept_ite
            · apply kept_ite
              · apply kept_setN
                exact hs
              · apply kept_tgRunSelection
                exact hs
            · apply kept_ite
              · extract_lets +onlyGivenNames x1
                clear_value x1
                apply kept_setB
                exact hs
              · exact hs

theorem kept_injectCounted {pq : List Instr} {s : State} (hs : Kept pq s) (key : Nat) : Kept pq (injectCounted s key) := by
  unfold injectCounted
  extract_lets +onlyGivenNames x1
  clear_value x1
  apply kept_ite
  · apply kept_ite
    · apply kept_countEv
      exact hs
    · exact hs
  · apply kept_ite
    · apply kept_ite
      · apply kept_countEv
        exact hs
      · apply kept_ite
        · apply kept_countEv
          exact hs
        · exact hs
    · exact hs

theorem kept_injectLost {pq : List Instr} {was : State} (key : Nat) {s : State} (hs : Kept pq s) : Kept pq (injectLost was key
    s) := by
  unfold injectLost
  extract_lets +onlyGivenNames x1
  clear_value x1
  extract_lets +onlyGivenNames x2
  clear_value x2
  apply kept_ite
  · apply kept_setEngine
    exact hs
  · exact hs

theorem kept_injectOne {pq : List Instr} {s : State} (hs : Kept pq s) (j : Nat) : Kept pq (injectOne s j) := by
  unfold injectOne
  extract_lets +onlyGivenNames x1
  clear_value x1
  extract_lets +onlyGivenNames x2
  clear_value x2
  extract_lets +onlyGivenNames x3
  clear_value x3
  extract_lets +onlyGivenNames x4
  extract_lets +onlyGivenNames x5
  clear_value x5
  extract_lets +onlyGivenNames x6
  clear_value x6
  extract_lets +onlyGivenNames x7
  have h7 : Kept pq x7 := by
    unfold x7
    apply kept_bump
    apply kept_setInjector
    exact hs
  clear_value x7
  extract_lets +onlyGivenNames x8
  clear_value x8
  extract_lets +onlyGivenNames x9
  have h9 : Kept pq x9 := by
    unfold x9
    apply kept_ite
    · apply kept_poisonPage
      exact h7
    · apply kept_injectedHold
      apply kept_occurHold
      apply kept_occur
      apply kept_injectCounted
      exact h7
  clear_value x9
  extract_lets +onlyGivenNames x10
  have h10 : Kept pq x10 := by
    unfold x10
    apply kept_ite
    · apply kept_injectLost
      apply kept_condJudge
      apply kept_injectAct
      exact h9
    · exact h9
  clear_value x10
  apply kept_ite
  · apply kept_injectorIdle
    exact h10
  · exact h10

theorem kept_injectAfter {pq : List Instr} {s : State} (key : Nat) (act : Bool) (hs : Kept pq s) : Kept pq (injectAfter s key
    act) := by
  unfold injectAfter
  apply kept_ite
  · apply kept_condJudge
    apply kept_injectRelease
    exact hs
  · exact hs

theorem kept_injectStart {pq : List Instr} (j : Nat) {s : State} (hs : Kept pq s) : Kept2 pq (injectStart j s) := by
  unfold injectStart
  extract_lets +onlyGivenNames x1
  clear_value x1
  extract_lets +onlyGivenNames x2
  apply kept2_ite
  · apply kept2_mk
    exact hs
  · apply kept2_ite
    · apply kept2_mk
      exact hs
    · apply kept2_ite
      · apply kept2_mk
        exact hs
      · apply kept2_ite
        · apply kept2_mk
          exact hs
        · apply kept2_ite
          · apply kept2_mk
            exact hs
          · apply kept2_ite
            · apply kept2_mk
              exact hs
            · extract_lets +onlyGivenNames x3
              clear_value x3
              apply kept2_mk
              apply kept_injectOne
              apply kept_setN
              apply kept_setN
              apply kept_setInjector
              exact hs

theorem kept_injectStop {pq : List Instr} (j : Nat) {s : State} (hs : Kept pq s) : Kept2 pq (injectStop j s) := by
  unfold injectStop
  apply kept2_ite
  · apply kept2_mk
    exact hs
  · extract_lets +onlyGivenNames x1
    clear_value x1
    apply kept2_mk
    apply kept_injectAfter
    apply kept_injectorIdle
    exact hs

theorem kept_execInjectStart {pq : List Instr} (k : Nat) (j : Nat) {s : State} (hs : Kept pq s) : KeptOut pq (execInjectStart k
    j s) := by
  unfold execInjectStart
  apply keptOut_next
  apply kept_hostCmd
  · exact hs
  · intro t1
    intro h2
    apply kept_injectStart
    exact h2

theorem kept_execInjectStop {pq : List Instr} (k : Nat) (j : Nat) {s : State} (hs : Kept pq s) : KeptOut pq (execInjectStop k j
    s) := by
  unfold execInjectStop
  apply keptOut_next
  apply kept_hostCmd
  · exact hs
  · intro t1
    intro h2
    apply kept_injectStop
    exact h2

theorem kept_execInjectHoldEnd {pq : List Instr} (j : Nat) {s : State} (hs : Kept pq s) : KeptOut pq (execInjectHoldEnd j s) := by
  unfold execInjectHoldEnd
  apply keptOut_onUnit
  · exact hs
  · intro t1
    intro h2
    extract_lets +onlyGivenNames x3
    clear_value x3
    apply kept_ite
    · exact h2
    · extract_lets +onlyGivenNames x4
      clear_value x4
      extract_lets +onlyGivenNames x5
      have h5 : Kept pq x5 := by
        unfold x5
        apply kept_ite
        · apply kept_injectorIdle
          exact h2
        · apply kept_overflowCheck
          apply kept_endCond
          apply kept_setInjector
          exact h2
      clear_value x5
      apply kept_injectAfter
      exact h5

theorem kept_execInjectGapExpired {pq : List Instr} (j : Nat) {s : State} (hs : Kept pq s) : KeptOut pq (execInjectGapExpired j
    s) := by
  unfold execInjectGapExpired
  apply keptOut_onUnit
  · exact hs
  · intro t1
    intro h2
    extract_lets +onlyGivenNames x3
    clear_value x3
    extract_lets +onlyGivenNames x4
    clear_value x4
    apply kept_ite
    · exact h2
    · apply kept_injectOne
      exact h2

theorem kept_eventQueueOpened {pq : List Instr} {s : State} (hs : Kept pq s) : Kept pq (eventQueueOpened s) := by
  unfold eventQueueOpened
  apply kept_foldl
  · exact hs
  · intro t1
    intro t2
    intro h3
    apply kept_ite
    · apply kept_delivered
      exact h3
    · exact h3

end Sys2Proof.Machine
end

