-- ==== Sys2Proof/Laws/KeptPm.lean ====
section
/-! SUPPORT. Every operation of Machine/Pm.lean keeps the queue and the well-formedness of the state. -/

namespace Sys2Proof.Machine

theorem kept_pmLatch {pq : List Instr} {s : State} (hs : Kept pq s) : Kept pq (pmLatch s) := by
  unfold pmLatch
  apply kept_fecLatch
  apply kept_lanesLatch
  apply kept_probeLatch
  apply kept_windowsLatch
  apply kept_countersLatch
  apply kept_traysLatch
  apply kept_frontLatch
  apply kept_rxLatch
  exact hs

theorem kept_execPmBoundary {pq : List Instr} (corrected : Nat) (latencies : List (Nat × Nat)) (clients : List (Nat ×
    PcsCount)) {s : State} (hs : Kept pq s) : KeptOut pq (execPmBoundary corrected latencies clients s) := by
  unfold execPmBoundary
  apply keptOut_next
  apply kept_ite
  · exact hs
  · extract_lets +onlyGivenNames x1
    have h1 : Kept pq x1 := by
      unfold x1
      apply kept_pmLatch
      exact hs
    clear_value x1
    apply kept_ite
    · exact h1
    · extract_lets +onlyGivenNames x2
      have h2 : Kept pq x2 := by
        unfold x2
        apply kept_clientsCounted
        apply kept_bumpBy
        exact h1
      clear_value x2
      apply kept_foldl
      · exact h2
      · intro t3 t4 h5
        extract_lets +onlyGivenNames x6
        clear_value x6
        apply kept_peak
        apply kept_setN
        exact h5

theorem kept_execTimeStepApply {pq : List Instr} {s : State} (hs : Kept pq s) : KeptOut pq (execTimeStepApply s) := by
  unfold execTimeStepApply
  apply keptOut_next
  apply kept_ite
  · exact hs
  · extract_lets +onlyGivenNames x1
    have h1 : Kept pq x1 := by
      unfold x1
      apply kept_pmLatch
      exact hs
    clear_value x1
    extract_lets +onlyGivenNames x2
    clear_value x2
    extract_lets +onlyGivenNames x3
    clear_value x3
    extract_lets +onlyGivenNames x4
    clear_value x4
    extract_lets +onlyGivenNames x5
    clear_value x5
    extract_lets +onlyGivenNames x6
    have h6 : Kept pq x6 := by
      unfold x6
      apply kept_windowsRestart
      apply kept_timeMoved
      apply kept_advance
      exact h1
    clear_value x6
    extract_lets +onlyGivenNames x7
    clear_value x7
    extract_lets +onlyGivenNames x8
    have h8 : Kept pq x8 := by
      unfold x8
      apply kept_mk
      exact h6
    clear_value x8
    apply kept_bump
    apply kept_setN
    exact h8

theorem kept_fillSample {pq : List Instr} {s : State} (levels : List (Nat × Nat)) (sel : Nat) (fill : Nat) (high : Nat) (most :
    Nat) (hs : Kept pq s) : Kept pq (fillSample s levels sel fill high most) := by
  unfold fillSample
  split
  · exact hs
  · extract_lets +onlyGivenNames x1
    clear_value x1
    apply kept_peak
    apply kept_setN
    exact hs

theorem kept_clientSlip {pq : List Instr} {s : State} (hs : Kept pq s) (t : Nat) (egress : Bool) : Kept pq (clientSlip s t
    egress) := by
  unfold clientSlip
  extract_lets +onlyGivenNames x1
  have h1 : Kept pq x1 := by
    unfold x1
    apply kept_ite
    · apply kept_setN
      apply kept_bump
      exact hs
    · apply kept_setN
      apply kept_bump
      exact hs
  clear_value x1
  apply kept_hold
  exact h1

theorem kept_execOccupancySample {pq : List Instr} (levels : List (Nat × Nat)) (slips : List (Nat × Bool)) (lanes : List (Nat
    × LaneReport)) {s : State} (hs : Kept pq s) : KeptOut pq (execOccupancySample levels slips lanes s) := by
  unfold execOccupancySample
  apply keptOut_next
  extract_lets +onlyGivenNames x1
  have h1 : Kept pq x1 := by
    unfold x1
    apply kept_foldl
    · exact hs
    · intro t2 t3 h4
      apply kept_fillSample
      apply kept_fillSample
      exact h4
  clear_value x1
  extract_lets +onlyGivenNames x5
  have h5 : Kept pq x5 := by
    unfold x5
    apply kept_foldl
    · exact h1
    · intro t6 t7 h8
      apply kept_fillSample
      apply kept_fillSample
      exact h8
  clear_value x5
  extract_lets +onlyGivenNames x9
  have h9 : Kept pq x9 := by
    unfold x9
    apply kept_foldl
    · exact h5
    · intro t10 t11 h12
      apply kept_fillSample
      exact h12
  clear_value x9
  extract_lets +onlyGivenNames x13
  have h13 : Kept pq x13 := by
    unfold x13
    apply kept_foldl
    · exact h9
    · intro t14 t15 h16
      apply kept_ite
      · apply kept_clientSlip
        exact h16
      · exact h16
  clear_value x13
  extract_lets +onlyGivenNames x17
  have h17 : Kept pq x17 := by
    unfold x17
    apply kept_foldl
    · exact h13
    · intro t18 t19 h20
      apply kept_ite
      · apply kept_laneMeasured
        exact h20
      · exact h20
  clear_value x17
  apply kept_ite
  · exact h17
  · apply kept_foldl
    · exact h17
    · intro t21 t22 h23
      extract_lets +onlyGivenNames x24
      clear_value x24
      apply kept_ite
      · apply kept_setN
        exact h23
      · exact h23

theorem kept_clearCrossings {pq : List Instr} (code : Nat) {s : State} (hs : Kept pq s) : Kept2 pq (clearCrossings code s) := by
  unfold clearCrossings
  apply kept2_mk
  apply kept_clearObjs
  exact hs

theorem kept_execClearHighWater {pq : List Instr} (k : Nat) {s : State} (hs : Kept pq s) : KeptOut pq (execClearHighWater k s)
    := by
  unfold execClearHighWater
  apply keptOut_next
  apply kept_hostCmd
  · exact hs
  · intro t1
    intro h2
    apply kept_clearCrossings
    exact h2

theorem kept_execClearCrossingCounters {pq : List Instr} (k : Nat) {s : State} (hs : Kept pq s) : KeptOut pq
    (execClearCrossingCounters k s) := by
  unfold execClearCrossingCounters
  apply keptOut_next
  apply kept_hostCmd
  · exact hs
  · intro t1
    intro h2
    apply kept_clearCrossings
    exact h2

theorem kept_execClearCrossingAll {pq : List Instr} (k : Nat) {s : State} (hs : Kept pq s) : KeptOut pq (execClearCrossingAll k
    s) := by
  unfold execClearCrossingAll
  apply keptOut_next
  apply kept_hostCmd
  · exact hs
  · intro t1
    intro h2
    apply kept_clearCrossings
    exact h2

theorem kept_execEventHoldExpired {pq : List Instr} (addr : Nat) (bit : Nat) {s : State} (hs : Kept pq s) : KeptOut pq
    (execEventHoldExpired addr bit s) := by
  unfold execEventHoldExpired
  apply keptOut_next
  apply kept_mk
  exact hs

end Sys2Proof.Machine
end

