-- ==== Sys2Proof/Laws/KeptThermal.lean ====
section
/-! SUPPORT. Every operation of Machine/Thermal.lean keeps the queue and the well-formedness of the state. -/

namespace Sys2Proof.Machine

theorem kept_setLevel {pq : List Instr} {s : State} (key : Nat) (above : Bool) (below : Bool) (hs : Kept pq s) : Kept pq
    (setLevel s key above below) := by
  unfold setLevel
  apply kept_ite
  · apply kept_setCond
    exact hs
  · apply kept_ite
    · apply kept_setCond
      exact hs
    · exact hs

theorem kept_dieSample {pq : List Instr} {s : State} (d : Nat) (t : F32) (load : F32) (hs : Kept pq s) : Kept pq (dieSample s d
    t load) := by
  unfold dieSample
  extract_lets +onlyGivenNames x1
  clear_value x1
  extract_lets +onlyGivenNames x2
  clear_value x2
  extract_lets +onlyGivenNames x3
  clear_value x3
  extract_lets +onlyGivenNames x4
  have h4 : Kept pq x4 := by
    unfold x4
    apply kept_peakF
    apply kept_setF
    apply kept_setF
    exact hs
  clear_value x4
  extract_lets +onlyGivenNames x5
  have h5 : Kept pq x5 := by
    unfold x5
    apply kept_peakF
    exact h4
  clear_value x5
  extract_lets +onlyGivenNames x6
  clear_value x6
  extract_lets +onlyGivenNames x7
  clear_value x7
  extract_lets +onlyGivenNames x8
  clear_value x8
  extract_lets +onlyGivenNames x9
  have h9 : Kept pq x9 := by
    unfold x9
    apply kept_setLevel
    exact h5
  clear_value x9
  apply kept_setLevel
  exact h9

theorem kept_execThermalSample {pq : List Instr} (r : ThermalReading) {s : State} (hs : Kept pq s) : KeptOut pq
    (execThermalSample r s) := by
  unfold execThermalSample
  apply keptOut_next
  apply kept_ite
  · exact hs
  · extract_lets +onlyGivenNames x1
    clear_value x1
    extract_lets +onlyGivenNames x2
    clear_value x2
    extract_lets +onlyGivenNames x3
    have h3 : Kept pq x3 := by
      unfold x3
      apply kept_foldl
      · exact hs
      · intro t4 t5 h6
        apply kept_dieSample
        exact h6
    clear_value x3
    extract_lets +onlyGivenNames x7
    have h7 : Kept pq x7 := by
      unfold x7
      apply kept_foldl
      · exact h3
      · intro t8 t9 h10
        apply kept_setF
        exact h10
    clear_value x7
    extract_lets +onlyGivenNames x11
    clear_value x11
    extract_lets +onlyGivenNames x12
    clear_value x12
    extract_lets +onlyGivenNames x13
    have h13 : Kept pq x13 := by
      unfold x13
      apply kept_setF
      apply kept_setF
      apply kept_peakF
      apply kept_setF
      exact h7
    clear_value x13
    extract_lets +onlyGivenNames x14
    have h14 : Kept pq x14 := by
      unfold x14
      apply kept_setF
      apply kept_setF
      apply kept_peakF
      apply kept_setF
      exact h13
    clear_value x14
    extract_lets +onlyGivenNames x15
    clear_value x15
    extract_lets +onlyGivenNames x16
    clear_value x16
    extract_lets +onlyGivenNames x17
    clear_value x17
    extract_lets +onlyGivenNames x18
    have h18 : Kept pq x18 := by
      unfold x18
      apply kept_setLevel
      exact h14
    clear_value x18
    extract_lets +onlyGivenNames x19
    have h19 : Kept pq x19 := by
      unfold x19
      apply kept_setLevel
      exact h18
    clear_value x19
    extract_lets +onlyGivenNames x20
    clear_value x20
    apply kept_ite
    · apply kept_thermalTrip
      exact h19
    · extract_lets +onlyGivenNames x21
      have h21 : Kept pq x21 := by
        unfold x21
        apply kept_thermJudge
        exact h19
      clear_value x21
      apply kept_ite
      · apply kept_setN
        exact h21
      · exact h21

theorem kept_shedFrom {pq : List Instr} (a0 : Nat) (a1 : Nat) {a2 : State} (ha2 : Kept pq a2) : Kept pq (shedFrom a0 a1 a2) := by
  induction a0 generalizing a1 a2 with
  | zero =>
    rw [shedFrom]
    exact ha2
  | succ a0 ih =>
    rw [shedFrom]
    apply kept_ite
    · apply kept_mk
      exact ha2
    · extract_lets +onlyGivenNames x1
      clear_value x1
      apply kept_ite
      · apply kept_mk
        exact ha2
      · extract_lets +onlyGivenNames x2
        have h2 : Kept2 pq x2 := by
          unfold x2
          apply kept_shedCarrier
          exact ha2
        clear_value x2
        apply kept_ite
        · extract_lets +onlyGivenNames x3
          have h3 : Kept pq x3 := by
            unfold x3
            apply Kept2.out
            exact h2
          clear_value x3
          apply kept_mk
          exact h3
        · apply ih
          exact ha2

theorem kept_shedNext {pq : List Instr} {s : State} (hs : Kept pq s) : Kept pq (shedNext s) := by
  unfold shedNext
  apply kept_readyJudge
  apply kept_shedFrom
  exact hs

theorem kept_execGraceTimeExpired {pq : List Instr} {s : State} (hs : Kept pq s) : KeptOut pq (execGraceTimeExpired s) := by
  unfold execGraceTimeExpired
  apply keptOut_next
  apply kept_ite
  · exact hs
  · extract_lets +onlyGivenNames x1
    have h1 : Kept pq x1 := by
      unfold x1
      apply kept_peak
      exact hs
    clear_value x1
    apply kept_shedNext
    apply kept_mk
    exact h1

theorem kept_execShedIntervalExpired {pq : List Instr} {s : State} (hs : Kept pq s) : KeptOut pq (execShedIntervalExpired s) := by
  unfold execShedIntervalExpired
  apply keptOut_next
  apply kept_ite
  · exact hs
  · apply kept_shedNext
    exact hs

theorem kept_execExitHoldExpired {pq : List Instr} {s : State} (hs : Kept pq s) : KeptOut pq (execExitHoldExpired s) := by
  unfold execExitHoldExpired
  apply keptOut_next
  apply kept_ite
  · exact hs
  · apply kept_foldl
    · apply kept_thermJudge
      apply kept_enter
      exact hs
    · intro t1
      intro t2
      intro h3
      apply kept_heldRelease
      exact h3

theorem kept_clearThermalPeaks {pq : List Instr} {s : State} (hs : Kept pq s) : Kept2 pq (clearThermalPeaks s) := by
  unfold clearThermalPeaks
  apply kept2_mk
  apply kept_clearObjs
  exact hs

theorem kept_execClearThermalPeaks {pq : List Instr} (k : Nat) {s : State} (hs : Kept pq s) : KeptOut pq (execClearThermalPeaks
    k s) := by
  unfold execClearThermalPeaks
  apply keptOut_next
  apply kept_hostCmd
  · exact hs
  · intro t1
    intro h2
    apply kept_clearThermalPeaks
    exact h2

end Sys2Proof.Machine
end

