-- ==== Sys2Proof/Laws/KeptCommands.lean ====
section
/-! SUPPORT. Every operation of Machine/Commands.lean keeps the queue and the well-formedness of the state. -/

namespace Sys2Proof.Machine

theorem kept_groupClaim {pq : List Instr} (k : Nat) (g : Nat) {s : State} (hs : Kept pq s) : Kept2 pq (groupClaim k g s) := by
  unfold groupClaim
  extract_lets +onlyGivenNames x1
  clear_value x1
  apply kept2_ite
  · apply kept2_mk
    exact hs
  · apply kept2_ite
    · apply kept2_mk
      exact hs
    · apply kept2_ite
      · apply kept2_mk
        exact hs
      · apply kept2_mk
        apply kept_journalBy
        apply kept_setN
        exact hs

theorem kept_groupRelease {pq : List Instr} (k : Nat) (g : Nat) {s : State} (hs : Kept pq s) : Kept2 pq (groupRelease k g s) := by
  unfold groupRelease
  extract_lets +onlyGivenNames x1
  clear_value x1
  apply kept2_ite
  · apply kept2_mk
    exact hs
  · apply kept2_ite
    · apply kept2_mk
      exact hs
    · apply kept2_ite
      · apply kept2_mk
        exact hs
      · apply kept2_mk
        apply kept_releaseGroup
        exact hs

theorem kept_groupForce {pq : List Instr} (k : Nat) (g : Nat) {s : State} (hs : Kept pq s) : Kept2 pq (groupForce k g s) := by
  unfold groupForce
  extract_lets +onlyGivenNames x1
  clear_value x1
  apply kept2_ite
  · apply kept2_mk
    exact hs
  · apply kept2_ite
    · apply kept2_mk
      exact hs
    · extract_lets +onlyGivenNames x2
      have h2 : Kept pq x2 := by
        unfold x2
        apply kept_journalBy
        apply kept_setN
        exact hs
      clear_value x2
      apply kept2_mk
      apply kept_ite
      · exact h2
      · apply kept_journalBy
        exact h2

theorem kept_releaseMine {pq : List Instr} (k : Nat) {s : State} (hs : Kept pq s) : Kept2 pq (releaseMine k s) := by
  unfold releaseMine
  apply kept2_ite
  · apply kept2_mk
    exact hs
  · apply kept2_mk
    apply kept_releaseAll
    exact hs

theorem kept_execOwnershipClaim {pq : List Instr} (k : Nat) (x : Nat) {s : State} (hs : Kept pq s) : KeptOut pq
    (execOwnershipClaim k x s) := by
  unfold execOwnershipClaim
  apply keptOut_next
  apply kept_hostCmdQuiet
  · exact hs
  · intro t1
    intro h2
    apply kept_groupClaim
    exact h2

theorem kept_execOwnershipRelease {pq : List Instr} (k : Nat) (x : Nat) {s : State} (hs : Kept pq s) : KeptOut pq
    (execOwnershipRelease k x s) := by
  unfold execOwnershipRelease
  apply keptOut_next
  apply kept_hostCmdQuiet
  · exact hs
  · intro t1
    intro h2
    apply kept_groupRelease
    exact h2

theorem kept_execOwnershipForceRelease {pq : List Instr} (k : Nat) (x : Nat) {s : State} (hs : Kept pq s) : KeptOut pq
    (execOwnershipForceRelease k x s) := by
  unfold execOwnershipForceRelease
  apply keptOut_next
  apply kept_hostCmdQuiet
  · exact hs
  · intro t1
    intro h2
    apply kept_groupForce
    exact h2

theorem kept_execReleaseMine {pq : List Instr} (k : Nat) {s : State} (hs : Kept pq s) : KeptOut pq (execReleaseMine k s) := by
  unfold execReleaseMine
  apply keptOut_next
  apply kept_hostCmdQuiet
  · exact hs
  · intro t1
    intro h2
    apply kept_releaseMine
    exact h2

theorem kept_closeSession {pq : List Instr} (k : Nat) (x : Nat) {s : State} (hs : Kept pq s) : Kept2 pq (closeSession k x s) := by
  unfold closeSession
  apply kept2_ite
  · apply kept2_mk
    exact hs
  · apply kept2_mk
    apply kept_endSession
    exact hs

theorem kept_identityDisable {pq : List Instr} {s : State} (hs : Kept pq s) : Kept2 pq (identityDisable s) := by
  unfold identityDisable
  apply kept2_mk
  apply kept_clearObjs
  exact hs

theorem kept_execCloseSession {pq : List Instr} (k : Nat) (x : Nat) {s : State} (hs : Kept pq s) : KeptOut pq (execCloseSession
    k x s) := by
  unfold execCloseSession
  apply keptOut_next
  apply kept_hostCmd
  · exact hs
  · intro t1
    intro h2
    apply kept_closeSession
    exact h2

theorem kept_execIdentityCommand {pq : List Instr} (k : Nat) {s : State} (hs : Kept pq s) : KeptOut pq (execIdentityCommand k s)
    := by
  unfold execIdentityCommand
  apply keptOut_next
  apply kept_hostCmd
  · exact hs
  · intro t1
    intro h2
    apply kept_identityDisable
    exact h2

theorem kept_firmwareVerifyFree {pq : List Instr} {s : State} (hs : Kept pq s) : Kept2 pq (firmwareVerifyFree s) := by
  unfold firmwareVerifyFree
  extract_lets +onlyGivenNames x1
  have h1 : Kept2 pq x1 := by
    unfold x1
    apply kept_freeNat
    exact hs
  clear_value x1
  extract_lets +onlyGivenNames x2
  have h2 : Kept2 pq x2 := by
    unfold x2
    apply kept_freeBytes
    apply Kept2.out
    exact h1
  clear_value x2
  extract_lets +onlyGivenNames x3
  have h3 : Kept2 pq x3 := by
    unfold x3
    apply kept_freeNat
    apply Kept2.out
    exact h2
  clear_value x3
  extract_lets +onlyGivenNames x4
  have h4 : Kept2 pq x4 := by
    unfold x4
    apply kept_freeNat
    apply Kept2.out
    exact h3
  clear_value x4
  apply kept_firmwareVerify
  apply Kept2.out
  exact h4

end Sys2Proof.Machine
end

