-- ==== Sys2Proof/Laws/KeptObjects.lean ====
section
/-! SUPPORT. Every operation of Machine/Objects.lean keeps the queue and the well-formedness of the state. -/

namespace Sys2Proof.Machine

theorem kept_blockContent {pq : List Instr} {s : State} (idx : Nat) (inst : Nat) (errors : List Nat) (hs : Kept pq s) : Kept2 pq
    (blockContent s idx inst errors) := by
  unfold blockContent
  split
  · apply kept2_mk
    exact hs
  · apply kept2_mk
    exact hs
  · apply kept2_mk
    apply kept_eventQueueOpened
    exact hs
  · apply kept2_mk
    exact hs
  · apply kept2_mk
    exact hs
  · apply kept2_mk
    exact hs
  · apply kept2_mk
    exact hs
  · apply kept2_mk
    exact hs
  · apply kept_captureContent
    exact hs
  · apply kept_inspectContent
    exact hs
  · apply kept2_mk
    exact hs
  · apply kept2_mk
    exact hs
  · apply kept2_mk
    exact hs
  · apply kept2_mk
    exact hs

theorem kept_storeItem {pq : List Instr} (keys : Bool) {s : State} (p : Prep) (hs : Kept pq s) : Kept pq (storeItem keys s p) :=
    by
  unfold storeItem
  split
  · apply kept_ite
    · apply kept_leafSet
      exact hs
    · apply kept_ite
      · exact hs
      · apply kept_setVal
        exact hs
  · apply kept_setShadow
    exact hs
  · apply kept_ite
    · apply kept_setVal
      exact hs
    · exact hs
  · exact hs

theorem kept_canReconfigured {pq : List Instr} {old : State} {s : State} (p : Nat) (hs : Kept pq s) : Kept pq (canReconfigured
    old s p) := by
  unfold canReconfigured
  apply kept_ite
  · exact hs
  · apply kept_setCanPort
    exact kept_ite (kept_endSession _ hs) hs

theorem kept_commAfter {pq : List Instr} {old : State} {s : State} (key : Nat) (hs : Kept pq s) : Kept pq (commAfter old s key)
    := by
  unfold commAfter
  extract_lets +onlyGivenNames x1
  clear_value x1
  extract_lets +onlyGivenNames x2
  clear_value x2
  apply kept_ite
  · apply kept_canReconfigured
    exact hs
  · apply kept_ite
    · apply kept_setMgmtPort
      exact hs
    · apply kept_ite
      · apply kept_setCanPort
        exact hs
      · exact hs

theorem kept_writeEffect {pq : List Instr} {old : State} {s : State} (key : Nat) (hs : Kept pq s) : Kept pq (writeEffect old s
    key) := by
  unfold writeEffect
  extract_lets +onlyGivenNames x1
  have h1 : Kept pq x1 := by
    unfold x1
    apply kept_commAfter
    exact hs
  clear_value x1
  extract_lets +onlyGivenNames x2
  have h2 : Kept pq x2 := by
    unfold x2
    apply kept_ite
    · apply kept_portLightAfter
      exact h1
    · exact h1
  clear_value x2
  extract_lets +onlyGivenNames x3
  have h3 : Kept pq x3 := by
    unfold x3
    apply kept_tuneAfter
    apply kept_lanesAfter
    apply kept_opticsAfter
    exact h2
  clear_value x3
  extract_lets +onlyGivenNames x4
  have h4 : Kept pq x4 := by
    unfold x4
    apply kept_hubAfter
    apply kept_sealAfter
    apply kept_traysAfter
    exact h3
  clear_value x4
  apply kept_stockpotAfter
  apply kept_monitorAfter
  apply kept_timingAfter
  exact h4

theorem kept_ownCopy {pq : List Instr} {s : State} (k : Nat) (p : Prep) (hs : Kept pq s) : Kept pq (ownCopy s k p) := by
  unfold ownCopy
  apply kept_setSession
  exact hs

theorem kept_commandOf {pq : List Instr} {t : State} {f : State → Status × State} (k : Nat) (key : Nat) (code : Nat)
    (hf : commandOf k key code = some f) (ht : Kept pq t) : Kept2 pq (f t) := by
  have all : ∀ e ∈ commandTable k (keyInst key) code, ∀ t, Kept pq t → Kept2 pq (e.2.2 t) := by
    unfold commandTable
    refine List.forall_mem_cons.mpr ⟨fun t h => by apply kept_mgmtResetCommand; exact h, ?_⟩
    refine List.forall_mem_cons.mpr ⟨fun t h => by apply kept_fullResetCommand; exact h, ?_⟩
    refine List.forall_mem_cons.mpr ⟨fun t h => by apply kept_engineReset; exact h, ?_⟩
    refine List.forall_mem_cons.mpr ⟨fun t h => by apply kept_laneGroupReset; exact h, ?_⟩
    refine List.forall_mem_cons.mpr ⟨fun t h => by apply kept_recalibrate; exact h, ?_⟩
    refine List.forall_mem_cons.mpr ⟨fun t h => by apply kept_configSave; exact h, ?_⟩
    refine List.forall_mem_cons.mpr ⟨fun t h => by apply kept_configErase; exact h, ?_⟩
    refine List.forall_mem_cons.mpr ⟨fun t h => by apply kept_clearThermalPeaks; exact h, ?_⟩
    refine List.forall_mem_cons.mpr ⟨fun t h => by apply kept_powerDown; exact h, ?_⟩
    refine List.forall_mem_cons.mpr ⟨fun t h => by apply kept_powerUp; exact h, ?_⟩
    refine List.forall_mem_cons.mpr ⟨fun t h => by apply kept_clearCrossings; exact h, ?_⟩
    refine List.forall_mem_cons.mpr ⟨fun t h => by apply kept_closeSession; exact h, ?_⟩
    refine List.forall_mem_cons.mpr ⟨fun t h => by apply kept_identityDisable; exact h, ?_⟩
    refine List.forall_mem_cons.mpr ⟨fun t h => by apply kept_groupClaim; exact h, ?_⟩
    refine List.forall_mem_cons.mpr ⟨fun t h => by apply kept_groupRelease; exact h, ?_⟩
    refine List.forall_mem_cons.mpr ⟨fun t h => by apply kept_groupForce; exact h, ?_⟩
    refine List.forall_mem_cons.mpr ⟨fun t h => by apply kept_releaseMine; exact h, ?_⟩
    refine List.forall_mem_cons.mpr ⟨fun t h => by apply kept_commitArm; exact h, ?_⟩
    refine List.forall_mem_cons.mpr ⟨fun t h => by apply kept_commitCancel; exact h, ?_⟩
    refine List.forall_mem_cons.mpr ⟨fun t h => by apply kept_commitRevert; exact h, ?_⟩
    refine List.forall_mem_cons.mpr ⟨fun t h => by apply kept_groupArm; exact h, ?_⟩
    refine List.forall_mem_cons.mpr ⟨fun t h => by apply kept_groupCancel; exact h, ?_⟩
    refine List.forall_mem_cons.mpr ⟨fun t h => by apply kept_ackSource; exact h, ?_⟩
    refine List.forall_mem_cons.mpr ⟨fun t h => by apply kept_ackAll; exact h, ?_⟩
    refine List.forall_mem_cons.mpr ⟨fun t h => by apply kept_clearLost; exact h, ?_⟩
    refine List.forall_mem_cons.mpr ⟨fun t h => by apply kept_injectStart; exact h, ?_⟩
    refine List.forall_mem_cons.mpr ⟨fun t h => by apply kept_injectStop; exact h, ?_⟩
    refine List.forall_mem_cons.mpr ⟨fun t h => by apply kept_reacquire; exact h, ?_⟩
    refine List.forall_mem_cons.mpr ⟨fun t h => by apply kept_clearRxCounters; exact h, ?_⟩
    refine List.forall_mem_cons.mpr ⟨fun t h => by apply kept_clearFecCounters; exact h, ?_⟩
    refine List.forall_mem_cons.mpr ⟨fun t h => by apply kept_clearTuneCounters; exact h, ?_⟩
    refine List.forall_mem_cons.mpr ⟨fun t h => by apply kept_laneRestart; exact h, ?_⟩
    refine List.forall_mem_cons.mpr ⟨fun t h => by apply kept_laneInjectStart; exact h, ?_⟩
    refine List.forall_mem_cons.mpr ⟨fun t h => by apply kept_laneInjectStop; exact h, ?_⟩
    refine List.forall_mem_cons.mpr ⟨fun t h => by apply kept_laneClearCounters; exact h, ?_⟩
    refine List.forall_mem_cons.mpr ⟨fun t h => by apply kept_clearLaneCounters; exact h, ?_⟩
    refine List.forall_mem_cons.mpr ⟨fun t h => by apply kept_protCommand; exact h, ?_⟩
    refine List.forall_mem_cons.mpr ⟨fun t h => by apply kept_clearTrayCounters; exact h, ?_⟩
    refine List.forall_mem_cons.mpr ⟨fun t h => by apply kept_sealRollover; exact h, ?_⟩
    refine List.forall_mem_cons.mpr ⟨fun t h => by apply kept_keySlotZeroise; exact h, ?_⟩
    refine List.forall_mem_cons.mpr ⟨fun t h => by apply kept_utilityKeyZeroise; exact h, ?_⟩
    refine List.forall_mem_cons.mpr ⟨fun t h => by apply kept_agreeStart; exact h, ?_⟩
    refine List.forall_mem_cons.mpr ⟨fun t h => by apply kept_agreeCancel; exact h, ?_⟩
    refine List.forall_mem_cons.mpr ⟨fun t h => by apply kept_lidAcquire; exact h, ?_⟩
    refine List.forall_mem_cons.mpr ⟨fun t h => by apply kept_lidRelease; exact h, ?_⟩
    refine List.forall_mem_cons.mpr ⟨fun t h => by apply kept_lidForce; exact h, ?_⟩
    refine List.forall_mem_cons.mpr ⟨fun t h => by apply kept_clearSealCounters; exact h, ?_⟩
    refine List.forall_mem_cons.mpr ⟨fun t h => by apply kept_hubKeyRollover; exact h, ?_⟩
    refine List.forall_mem_cons.mpr ⟨fun t h => by apply kept_clearHubCounters; exact h, ?_⟩
    refine List.forall_mem_cons.mpr ⟨fun t h => by apply kept_leafRangeAgain; exact h, ?_⟩
    refine List.forall_mem_cons.mpr ⟨fun t h => by apply kept_leafDeregister; exact h, ?_⟩
    refine List.forall_mem_cons.mpr ⟨fun t h => by apply kept_queueFlush; exact h, ?_⟩
    refine List.forall_mem_cons.mpr ⟨fun t h => by apply kept_retirePage; exact h, ?_⟩
    refine List.forall_mem_cons.mpr ⟨fun t h => by apply kept_initialiseRegion; exact h, ?_⟩
    refine List.forall_mem_cons.mpr ⟨fun t h => by apply kept_stockpotClearCounters; exact h, ?_⟩
    refine List.forall_mem_cons.mpr ⟨fun t h => by apply kept_clearLog; exact h, ?_⟩
    refine List.forall_mem_cons.mpr ⟨fun t h => by apply kept_eraseRetirementList; exact h, ?_⟩
    refine List.forall_mem_cons.mpr ⟨fun t h => by apply kept_dmaStart; exact h, ?_⟩
    refine List.forall_mem_cons.mpr ⟨fun t h => by apply kept_dmaPause; exact h, ?_⟩
    refine List.forall_mem_cons.mpr ⟨fun t h => by apply kept_dmaResume; exact h, ?_⟩
    refine List.forall_mem_cons.mpr ⟨fun t h => by apply kept_dmaStop; exact h, ?_⟩
    refine List.forall_mem_cons.mpr ⟨fun t h => by apply kept_tgReselect; exact h, ?_⟩
    refine List.forall_mem_cons.mpr ⟨fun t h => by apply kept_tgForceHoldover; exact h, ?_⟩
    refine List.forall_mem_cons.mpr ⟨fun t h => by apply kept_tgReleaseHoldover; exact h, ?_⟩
    refine List.forall_mem_cons.mpr ⟨fun t h => by apply kept_timeStep; exact h, ?_⟩
    refine List.forall_mem_cons.mpr ⟨fun t h => by apply kept_timeSlew; exact h, ?_⟩
    refine List.forall_mem_cons.mpr ⟨fun t h => by apply kept_timeSlewCancel; exact h, ?_⟩
    refine List.forall_mem_cons.mpr ⟨fun t h => by apply kept_fpoAlign; exact h, ?_⟩
    refine List.forall_mem_cons.mpr ⟨fun t h => by apply kept_clearTimingCounters; exact h, ?_⟩
    refine List.forall_mem_cons.mpr ⟨fun t h => by apply kept_urgentStart; exact h, ?_⟩
    refine List.forall_mem_cons.mpr ⟨fun t h => by apply kept_clearMonitorPeaks; exact h, ?_⟩
    refine List.forall_mem_cons.mpr ⟨fun t h => by apply kept_counterSnapshot; exact h, ?_⟩
    refine List.forall_mem_cons.mpr ⟨fun t h => by apply kept_counterFreeze; exact h, ?_⟩
    refine List.forall_mem_cons.mpr ⟨fun t h => by apply kept_counterUnfreeze; exact h, ?_⟩
    refine List.forall_mem_cons.mpr ⟨fun t h => by apply kept_counterDeselect; exact h, ?_⟩
    refine List.forall_mem_cons.mpr ⟨fun t h => by apply kept_clearProbe; exact h, ?_⟩
    refine List.forall_mem_cons.mpr ⟨fun t h => by apply kept_firmwareVerifyFree; exact h, ?_⟩
    refine List.forall_mem_cons.mpr ⟨fun t h => by apply kept_firmwareActivate; exact h, ?_⟩
    refine List.forall_mem_cons.mpr ⟨fun t h => by apply kept_firmwareConfirm; exact h, ?_⟩
    refine List.forall_mem_cons.mpr ⟨fun t h => by apply kept_firmwareSwap; exact h, ?_⟩
    exact fun e he => nomatch he
  unfold commandOf at hf
  obtain ⟨e, he, rfl⟩ := Option.map_eq_some_iff.mp hf
  exact all e (List.mem_of_find?_eq_some he) t ht

theorem kept_keyEffect {pq : List Instr} (key : Nat) (v : Val) {s : State} (hs : Kept pq s) : Kept2 pq (keyEffect key v s) := by
  unfold keyEffect
  apply kept2_ite
  · apply kept_trayKeyWritten
    exact hs
  · apply kept_utilityKeyWritten
    exact hs

theorem kept_applyItems {pq : List Instr} {old : State} (k : Nat) (l : List Prep) (seen : List Nat) (i : Nat) {s : State}
    (hs : Kept pq s) : Kept3 pq (applyItems old k l seen i s) := by
  induction l generalizing seen i s with
  | nil => exact ⟨hs⟩
  | cons p t ih =>
    have noted : ∀ kind u, Kept pq u → Kept pq (u.journalBy k kind (keyIdx p.key) (keyInst p.key) (keySub p.key)) :=
      fun kind u hu => kept_journalBy hu k kind _ _ _ 0
    rw [applyItems]
    extract_lets idx note
    split
    · split
      · exact ⟨hs⟩
      · rename_i f hf
        exact kept3_ite (ih _ _ (kept_commandOf _ _ _ hf (kept_ite hs (noted 3 s hs))).out) ⟨hs⟩
    · exact kept3_ite (ih _ _ (kept_keyEffect _ _ (noted 11 s hs)).out) ⟨hs⟩
    · exact ih _ _ (noted 2 s hs)
    · apply kept3_ite
      · exact ih _ _ (kept_ownCopy _ _ hs)
      · have hu := noted 1 s hs
        exact kept3_ite (ih _ _ hu) (ih _ _ (kept_writeEffect _ hu))

theorem kept_refusalRecords {pq : List Instr} {s : State} (k : Nat) (p : Prep) (st : Status) (hs : Kept pq s) :
    Kept pq (refusalRecords s k p st) := by
  unfold refusalRecords
  extract_lets r
  have hr : Kept2 pq r := by
    unfold r
    split
    · split
      · rename_i hf
        exact kept_commandOf _ _ _ hf hs
      · exact ⟨hs⟩
    · exact kept_keyEffect _ _ hs
    · exact ⟨hs⟩
  clear_value r
  exact kept_ite hr.out hs

theorem kept_commissioningEnds {pq : List Instr} {old : State} {s : State} (k : Nat) (hs : Kept pq s) : Kept pq
    (commissioningEnds old s k) := by
  unfold commissioningEnds
  apply kept_ite
  · apply kept_foldl
    · exact hs
    · intro t1
      intro t2
      intro h3
      apply kept_ite
      · apply kept_endSession
        exact h3
      · exact h3
  · exact hs

theorem kept_writeRequest {pq : List Instr} {s : State} (k : Nat) (items : List WriteItem) (hs : Kept pq s) :
    Kept3 pq (writeRequest s k items) := by
  have stored : ∀ b l t, Kept pq t → Kept pq (List.foldl (storeItem b) t l) :=
    fun b l t ht => kept_foldl ht fun u a hu => kept_storeItem _ _ hu
  unfold writeRequest
  extract_lets ps
  split
  · exact ⟨kept_refuse hs _ _⟩
  · split
    · exact ⟨kept_refuse hs _ _⟩
    · have ha := kept_applyItems (old := s) k ps [] 0 (stored false ps s hs)
      split
      · rename_i e
        rw [e] at ha
        exact ⟨kept_commissioningEnds _ ha.out⟩
      · refine ⟨kept_refuse ?_ _ _⟩
        split
        · exact kept_refusalRecords _ _ _ hs
        · exact hs

theorem kept_hostWrite {pq : List Instr} {s : State} (k : Nat) (items : List WriteItem) (hs : Kept pq s) : Kept pq (hostWrite s
    k items) := by
  unfold hostWrite
  apply kept_ite
  · apply Kept3.out
    apply kept_writeRequest
    exact hs
  · exact hs

theorem kept_execObjectWrite {pq : List Instr} (k : Nat) (items : List WriteItem) {s : State} (hs : Kept pq s) : KeptOut pq
    (execObjectWrite k items s) := by
  unfold execObjectWrite
  apply keptOut_next
  apply kept_hostWrite
  exact hs

theorem kept_execIdentityEnableWrite {pq : List Instr} (k : Nat) (items : List WriteItem) {s : State} (hs : Kept pq s) : KeptOut
    pq (execIdentityEnableWrite k items s) := by
  unfold execIdentityEnableWrite
  apply keptOut_next
  apply kept_hostWrite
  exact hs

theorem kept_execClientBindingWrite {pq : List Instr} (k : Nat) (t : Nat) (items : List (Nat × Bytes)) {s : State} (hs : Kept pq
    s) : KeptOut pq (execClientBindingWrite k t items s) := by
  unfold execClientBindingWrite
  apply keptOut_next
  apply kept_hostWrite
  exact hs

theorem kept_execPortLightChange {pq : List Instr} (k : Nat) (p : Nat) (source : Nat) (anchor : Int) (spacing : Nat) {s : State}
    (hs : Kept pq s) : KeptOut pq (execPortLightChange k p source anchor spacing s) := by
  unfold execPortLightChange
  apply keptOut_next
  apply kept_hostWrite
  exact hs

theorem kept_execCarrierEnable {pq : List Instr} (k : Nat) (n : Nat) {s : State} (hs : Kept pq s) : KeptOut pq
    (execCarrierEnable k n s) := by
  unfold execCarrierEnable
  apply keptOut_next
  apply kept_hostWrite
  exact hs

theorem kept_execCarrierDisable {pq : List Instr} (k : Nat) (n : Nat) {s : State} (hs : Kept pq s) : KeptOut pq
    (execCarrierDisable k n s) := by
  unfold execCarrierDisable
  apply keptOut_next
  apply kept_hostWrite
  exact hs

theorem kept_execTrayKeyLoad {pq : List Instr} (k : Nat) (x : Nat) (data : Bytes) {s : State} (hs : Kept pq s) : KeptOut pq
    (execTrayKeyLoad k x data s) := by
  unfold execTrayKeyLoad
  apply keptOut_next
  apply kept_hostWrite
  exact hs

theorem kept_execUtilityKeyLoad {pq : List Instr} (k : Nat) (u : Nat) (data : Bytes) {s : State} (hs : Kept pq s) : KeptOut pq
    (execUtilityKeyLoad k u data s) := by
  unfold execUtilityKeyLoad
  apply keptOut_next
  apply kept_hostWrite
  exact hs

theorem kept_execKekPeerKeyWrite {pq : List Instr} (k : Nat) (data : Bytes) {s : State} (hs : Kept pq s) : KeptOut pq
    (execKekPeerKeyWrite k data s) := by
  unfold execKekPeerKeyWrite
  apply keptOut_next
  apply kept_hostWrite
  exact hs

theorem kept_execLidBlockOperation {pq : List Instr} (k : Nat) (data : Bytes) {s : State} (hs : Kept pq s) : KeptOut pq
    (execLidBlockOperation k data s) := by
  unfold execLidBlockOperation
  apply keptOut_next
  apply kept_hostWrite
  exact hs

theorem kept_execLeafEnableWrite {pq : List Instr} (k : Nat) (l : Nat) (enable : Bool) {s : State} (hs : Kept pq s) : KeptOut pq
    (execLeafEnableWrite k l enable s) := by
  unfold execLeafEnableWrite
  apply keptOut_next
  apply kept_hostWrite
  exact hs

theorem kept_execLoopOpenWrite {pq : List Instr} (k : Nat) (g : Nat) (isOpen : Bool) {s : State} (hs : Kept pq s) : KeptOut pq
    (execLoopOpenWrite k g isOpen s) := by
  unfold execLoopOpenWrite
  apply keptOut_next
  apply kept_hostWrite
  exact hs

theorem kept_execSteerOffsetWrite {pq : List Instr} (k : Nat) (g : Nat) (offset : Int) {s : State} (hs : Kept pq s) : KeptOut pq
    (execSteerOffsetWrite k g offset s) := by
  unfold execSteerOffsetWrite
  apply keptOut_next
  apply kept_hostWrite
  exact hs

theorem kept_execFpoEnableWrite {pq : List Instr} (k : Nat) (f : Nat) (enable : Bool) {s : State} (hs : Kept pq s) : KeptOut pq
    (execFpoEnableWrite k f enable s) := by
  unfold execFpoEnableWrite
  apply keptOut_next
  apply kept_hostWrite
  exact hs

theorem kept_execPerfCounterSelect {pq : List Instr} (k : Nat) (c : Nat) (sel : Option Nat) (threshold : Option Nat) {s : State}
    (hs : Kept pq s) : KeptOut pq (execPerfCounterSelect k c sel threshold s) := by
  unfold execPerfCounterSelect
  apply keptOut_next
  apply kept_hostWrite
  exact hs

theorem kept_execCanSessionReconfigure {pq : List Instr} (k : Nat) (p : Nat) (sub : Nat) (value : Nat) {s : State} (hs : Kept pq
    s) : KeptOut pq (execCanSessionReconfigure k p sub value s) := by
  unfold execCanSessionReconfigure
  apply keptOut_next
  apply kept_hostWrite
  exact hs

theorem kept_execCanAccessWrite {pq : List Instr} (k : Nat) (sub : Nat) (value : Nat) {s : State} (hs : Kept pq s) : KeptOut pq
    (execCanAccessWrite k sub value s) := by
  unfold execCanAccessWrite
  apply keptOut_next
  apply kept_hostWrite
  exact hs

end Sys2Proof.Machine
end

