-- ==== Sys2Proof/Laws/KeptTransport.lean ====
section
/-! SUPPORT. Every operation of Machine/Transport.lean keeps the queue and the well-formedness of the state. -/

namespace Sys2Proof.Machine

theorem kept_setConn {pq : List Instr} {s : State} (c : Conn) (hs : Kept pq s) : Kept pq (State.setConn s c) := by
  unfold State.setConn
  apply kept_mk
  exact hs

theorem kept_dropConn {pq : List Instr} {s : State} (id : Nat) (hs : Kept pq s) : Kept pq (State.dropConn s id) := by
  unfold State.dropConn
  apply kept_mk
  exact hs

theorem kept_execDtlsClientHello {pq : List Instr} (conn : Nat) (port : Nat) (cookie : Option Nat) (offer : HelloOffer) {s :
    State} (hs : Kept pq s) : KeptOut pq (execDtlsClientHello conn port cookie offer s) := by
  unfold execDtlsClientHello
  apply keptOut_onUnit
  · exact hs
  · intro t1 h2
    apply kept_ite
    · exact h2
    · split
      · apply kept_ite
        · exact h2
        · extract_lets +onlyGivenNames x3
          have h3 : Kept2 pq x3 := by
            unfold x3
            apply kept_freeNat
            exact h2
          clear_value x3
          apply kept_send
          apply kept_setConn
          apply Kept2.out
          exact h3
      · apply kept_ite
        · apply kept_ite
          · apply kept_ite
            · apply kept_send
              apply kept_setConn
              exact h2
            · apply kept_send
              apply kept_dropConn
              exact h2
          · apply kept_send
            exact h2
        · exact h2

theorem kept_execDtlsHandshakeComplete {pq : List Instr} (conn : Nat) (proof : ClientProof) {s : State} (hs : Kept pq s) :
    KeptOut pq (execDtlsHandshakeComplete conn proof s) := by
  unfold execDtlsHandshakeComplete
  apply keptOut_next
  split
  · exact hs
  · extract_lets +onlyGivenNames x1
    clear_value x1
    apply kept_ite
    · exact hs
    · apply kept_ite
      · apply kept_send
        apply kept_dropConn
        exact hs
      · apply kept_ite
        · apply kept_setConn
          exact hs
        · split
          · apply kept_setConn
            exact hs
          · apply kept_send
            apply kept_dropConn
            exact hs

theorem kept_execHandshakeTimeout {pq : List Instr} (conn : Nat) {s : State} (hs : Kept pq s) : KeptOut pq (execHandshakeTimeout
    conn s) := by
  unfold execHandshakeTimeout
  apply keptOut_next
  split
  · apply kept_ite
    · exact hs
    · apply kept_dropConn
      exact hs
  · exact hs

theorem kept_execDtlsAlert {pq : List Instr} (conn : Nat) {s : State} (hs : Kept pq s) : KeptOut pq (execDtlsAlert conn s) := by
  unfold execDtlsAlert
  apply keptOut_next
  split
  · apply kept_dropConn
    apply kept_ite
    · apply kept_endSession
      exact hs
    · exact hs
  · exact hs

theorem kept_respond {pq : List Instr} {s : State} (k : Nat) (seq : Nat) (opcode : Nat) (count : Nat) (st : Status) (body :
    Bytes) (hs : Kept pq s) : Kept pq (respond s k seq opcode count st body) := by
  unfold respond
  extract_lets +onlyGivenNames x1
  clear_value x1
  extract_lets +onlyGivenNames x2
  clear_value x2
  apply kept_send
  apply kept_setSession
  exact hs

theorem kept_sessionBegin {pq : List Instr} {s : State} (k : Nat) (c : Conn) (role : Nat) (subs : Nat) (hs : Kept pq s) : Kept
    pq (sessionBegin s k c role subs) := by
  unfold sessionBegin
  extract_lets +onlyGivenNames x1
  clear_value x1
  extract_lets +onlyGivenNames x2
  have h2 : Kept pq x2 := by
    unfold x2
    apply kept_setConn
    apply kept_setSession
    exact hs
  clear_value x2
  apply kept_journalBy
  exact h2

theorem kept_setBlock {pq : List Instr} {s : State} (k : Nat) (b : BlockXfer) (hs : Kept pq s) : Kept pq (setBlock s k b) := by
  unfold setBlock
  apply kept_setSession
  exact hs

theorem kept_blockOpenRead {pq : List Instr} {s : State} (k : Nat) (idx : Nat) (inst : Nat) (sub : Nat) (errors : List Nat) (hs
    : Kept pq s) : Kept3 pq (blockOpenRead s k idx inst sub errors) := by
  unfold blockOpenRead
  apply kept3_ite
  · apply kept3_mk
    exact hs
  · apply kept3_ite
    · apply kept3_mk
      exact hs
    · apply kept3_ite
      · apply kept3_mk
        exact hs
      · extract_lets +onlyGivenNames x1
        have h1 : Kept2 pq x1 := by
          unfold x1
          apply kept_blockContent
          exact hs
        clear_value x1
        apply kept3_ite
        · apply kept3_mk
          exact hs
        · apply kept3_mk
          apply kept_setBlock
          apply Kept2.out
          exact h1

theorem kept_blockOpenWrite {pq : List Instr} {s : State} (k : Nat) (idx : Nat) (inst : Nat) (sub : Nat) (total : Nat) (max :
    Nat) (hs : Kept pq s) : Kept3 pq (blockOpenWrite s k idx inst sub total max) := by
  unfold blockOpenWrite
  split
  · apply kept3_ite
    · apply kept3_mk
      exact hs
    · apply kept3_ite
      · apply kept3_mk
        exact hs
      · extract_lets +onlyGivenNames x1
        have h1 : Kept pq x1 := by
          unfold x1
          apply kept_setBlock
          exact hs
        clear_value x1
        apply kept3_mk
        apply kept_ite
        · extract_lets +onlyGivenNames x2
          have h2 : Kept pq x2 := by
            unfold x2
            apply kept_setSlotState
            exact h1
          clear_value x2
          apply kept_mk
          exact h2
        · exact h1
  · apply kept3_mk
    exact hs

theorem kept_blockOpen {pq : List Instr} {s : State} (k : Nat) (idx : Nat) (inst : Nat) (sub : Nat) (dir : Nat) (total : Nat)
    (errors : List Nat) (hs : Kept pq s) : Kept3 pq (blockOpen s k idx inst sub dir total errors) := by
  unfold blockOpen
  apply kept3_ite
  · apply kept3_mk
    exact hs
  · split
    · split
      · apply kept3_mk
        exact hs
      · apply kept3_ite
        · apply kept3_mk
          exact hs
        · apply kept3_ite
          · apply kept3_ite
            · apply kept3_mk
              exact hs
            · apply kept_blockOpenRead
              exact hs
          · apply kept_blockOpenWrite
            exact hs
    · apply kept3_mk
      exact hs

theorem kept_noTransfer {pq : List Instr} {s : State} (k : Nat) (hs : Kept pq s) : Kept2 pq (noTransfer s k) := by
  unfold noTransfer
  apply kept2_ite
  · apply kept2_mk
    apply kept_setSession
    exact hs
  · apply kept2_mk
    exact hs

theorem kept_blockPiece {pq : List Instr} {s : State} (k : Nat) (offset : Nat) (len : Nat) (data : Bytes) (hs : Kept pq s) :
    Kept3 pq (blockPiece s k offset len data) := by
  unfold blockPiece
  split
  · extract_lets +onlyGivenNames x1
    have h1 : Kept2 pq x1 := by
      unfold x1
      apply kept_noTransfer
      exact hs
    clear_value x1
    apply kept3_mk
    apply Kept2.out
    exact h1
  · apply kept3_ite
    · apply kept3_mk
      exact hs
    · apply kept3_ite
      · apply kept3_ite
        · apply kept3_mk
          exact hs
        · apply kept3_mk
          apply kept_setBlock
          exact hs
      · apply kept3_ite
        · apply kept3_mk
          exact hs
        · apply kept3_mk
          exact hs

theorem kept_blockWritten {pq : List Instr} {s : State} (k : Nat) (b : BlockXfer) (content : Bytes) (hs : Kept pq s) : Kept pq
    (blockWritten s k b content) := by
  unfold blockWritten
  extract_lets +onlyGivenNames x1
  have h1 : Kept pq x1 := by
    unfold x1
    apply kept_journalBy
    exact hs
  clear_value x1
  apply kept_ite
  · apply kept_seedWritten
    exact h1
  · exact h1

theorem kept_blockClose {pq : List Instr} {s : State} (k : Nat) (crc : Nat) (hs : Kept pq s) : Kept2 pq (blockClose s k crc) := by
  unfold blockClose
  split
  · apply kept_noTransfer
    exact hs
  · apply kept2_ite
    · apply kept2_mk
      apply kept_blockDropped
      exact hs
    · split
      · split
        · apply kept2_ite
          · apply kept2_mk
            apply kept_blockWritten
            apply kept_blockDropped
            exact hs
          · apply kept2_mk
            exact hs
        · apply kept2_mk
          exact hs
      · apply kept2_mk
        exact hs

theorem kept_blockAbort {pq : List Instr} {s : State} (k : Nat) (hs : Kept pq s) : Kept2 pq (blockAbort s k) := by
  unfold blockAbort
  split
  · apply kept_noTransfer
    exact hs
  · apply kept2_mk
    apply kept_blockDropped
    exact hs

theorem kept_execBlockTimeout {pq : List Instr} (k : Nat) {s : State} (hs : Kept pq s) : KeptOut pq (execBlockTimeout k s) := by
  unfold execBlockTimeout
  apply keptOut_onUnit
  · exact hs
  · intro t1
    intro h2
    split
    · exact h2
    · extract_lets +onlyGivenNames x3
      have h3 : Kept pq x3 := by
        unfold x3
        apply kept_blockDropped
        exact h2
      clear_value x3
      apply kept_setSession
      exact h3

theorem kept_deadRequest {pq : List Instr} {s : State} (k : Nat) (d : Nat) (b : SehalBody) (hs : Kept pq s) : Kept4 pq
    (deadRequest s k d b) := by
  unfold deadRequest
  extract_lets +onlyGivenNames x1
  have h1 : Kept2 pq x1 := by
    unfold x1
    apply kept_freeNat
    exact hs
  clear_value x1
  split
  · apply kept4_mk
    apply kept_raise
    exact hs
  · apply kept4_mk
    apply kept_raise
    apply kept_ite
    · apply Kept3.out
      apply kept_writeRequest
      apply Kept2.out
      exact h1
    · apply Kept2.out
      exact h1
  · apply kept4_mk
    apply kept_raise
    exact hs

theorem kept_serve {pq : List Instr} {s : State} (k : Nat) (h : SehalHdr) (b : SehalBody) (hs : Kept pq s) : Kept4 pq (serve s k
    h b) := by
  unfold serve
  apply kept4_ite
  · apply kept4_mk
    exact hs
  · split
    · apply kept_deadRequest
      exact hs
    · split
      · apply kept4_mk
        exact hs
      · apply kept4_mk
        exact hs
      · apply kept4_mk
        exact hs
      · apply kept4_mk
        exact hs
      · extract_lets +onlyGivenNames x1
        clear_value x1
        extract_lets +onlyGivenNames x2
        clear_value x2
        apply kept4_ite
        · apply kept4_mk
          exact hs
        · apply kept4_mk
          exact hs
      · extract_lets +onlyGivenNames x3
        have h3 : Kept3 pq x3 := by
          unfold x3
          apply kept_writeRequest
          exact hs
        clear_value x3
        apply kept4_mk
        apply Kept3.out
        exact h3
      · extract_lets +onlyGivenNames x4
        have h4 : Kept3 pq x4 := by
          unfold x4
          apply kept_blockOpen
          exact hs
        clear_value x4
        apply kept4_mk
        apply Kept3.out
        exact h4
      · extract_lets +onlyGivenNames x5
        have h5 : Kept3 pq x5 := by
          unfold x5
          apply kept_blockPiece
          exact hs
        clear_value x5
        apply kept4_mk
        apply Kept3.out
        exact h5
      · extract_lets +onlyGivenNames x6
        have h6 : Kept2 pq x6 := by
          unfold x6
          apply kept_blockClose
          exact hs
        clear_value x6
        apply kept4_mk
        apply Kept2.out
        exact h6
      · extract_lets +onlyGivenNames x7
        have h7 : Kept2 pq x7 := by
          unfold x7
          apply kept_blockAbort
          exact hs
        clear_value x7
        apply kept4_mk
        apply Kept2.out
        exact h7

theorem kept_serveNext {pq : List Instr} {s : State} (k : Nat) (h : SehalHdr) (b : SehalBody) (hs : Kept pq s) : Kept pq
    (serveNext s k h b) := by
  unfold serveNext
  extract_lets +onlyGivenNames x1
  have h1 : Kept4 pq x1 := by
    unfold x1
    apply kept_serve
    apply kept_countEv
    exact hs
  clear_value x1
  extract_lets +onlyGivenNames x2
  have h2 : Kept pq x2 := by
    unfold x2
    apply Kept4.out
    exact h1
  clear_value x2
  apply kept_ite
  · exact h2
  · extract_lets +onlyGivenNames x3
    have h3 : Kept pq x3 := by
      unfold x3
      apply kept_ite
      · exact h2
      · apply kept_refuse
        exact h2
    clear_value x3
    extract_lets +onlyGivenNames x4
    clear_value x4
    extract_lets +onlyGivenNames x5
    have h5 : Kept pq x5 := by
      unfold x5
      apply kept_setSession
      exact h3
    clear_value x5
    extract_lets +onlyGivenNames x6
    have h6 : Kept pq x6 := by
      unfold x6
      apply kept_respond
      exact h5
    clear_value x6
    apply kept_ite
    · apply kept_endSession
      exact h6
    · exact h6

theorem kept_serveBuffered {pq : List Instr} (a0 : Nat) (a1 : Nat) {a2 : State} (ha2 : Kept pq a2) : Kept pq (serveBuffered a0
    a1 a2) := by
  induction a0 generalizing a1 a2 with
  | zero =>
    rw [serveBuffered]
    exact ha2
  | succ a0 ih =>
    rw [serveBuffered]
    split
    · exact ha2
    · apply kept_ite
      · exact ha2
      · extract_lets +onlyGivenNames x1
        have h1 : Kept pq x1 := by
          unfold x1
          apply kept_setSession
          exact ha2
        clear_value x1
        apply ih
        apply kept_serveNext
        exact h1

theorem kept_request {pq : List Instr} {s : State} (k : Nat) (port : Nat) (h : SehalHdr) (b : SehalBody) (hs : Kept pq s) : Kept
    pq (request s k port h b) := by
  unfold request
  extract_lets +onlyGivenNames x1
  clear_value x1
  extract_lets +onlyGivenNames x2
  clear_value x2
  apply kept_ite
  · apply kept_serveBuffered
    apply kept_serveNext
    exact hs
  · apply kept_ite
    · apply kept_ite
      · exact hs
      · apply kept_setSession
        exact hs
    · apply kept_ite
      · split
        · apply kept_send
          exact hs
        · exact hs
      · apply kept_bump
        exact hs

theorem kept_onConn {pq : List Instr} {s : State} (hs : Kept pq s) (conn : Nat) (h : SehalHdr) (b : SehalBody) : Kept pq
    (onConn s conn h b) := by
  unfold onConn
  split
  · exact hs
  · apply kept_ite
    · exact hs
    · split
      · apply kept_request
        exact hs
      · apply kept_send
        exact hs
      · exact hs

theorem kept_execSehalOpen {pq : List Instr} (conn : Nat) (h : SehalHdr) (role : Nat) (subs : Nat) {s : State} (hs : Kept pq s)
    : KeptOut pq (execSehalOpen conn h role subs s) := by
  unfold execSehalOpen
  apply keptOut_next
  split
  · exact hs
  · apply kept_ite
    · exact hs
    · apply kept_ite
      · apply kept_onConn
        exact hs
      · extract_lets +onlyGivenNames x1
        clear_value x1
        apply kept_ite
        · apply kept_respond
          apply kept_countEv
          apply kept_sessionBegin
          exact hs
        · apply kept_send
          apply kept_dropConn
          apply kept_send
          exact hs

theorem kept_execSehalClose {pq : List Instr} (conn : Nat) (h : SehalHdr) {s : State} (hs : Kept pq s) : KeptOut pq
    (execSehalClose conn h s) := by
  unfold execSehalClose
  apply keptOut_next
  apply kept_onConn
  exact hs

theorem kept_execSehalRead {pq : List Instr} (conn : Nat) (h : SehalHdr) (items : List ReadItem) {s : State} (hs : Kept pq s) :
    KeptOut pq (execSehalRead conn h items s) := by
  unfold execSehalRead
  apply keptOut_next
  apply kept_onConn
  exact hs

theorem kept_execSehalWrite {pq : List Instr} (conn : Nat) (h : SehalHdr) (items : List WriteItem) {s : State} (hs : Kept pq s)
    : KeptOut pq (execSehalWrite conn h items s) := by
  unfold execSehalWrite
  apply keptOut_next
  apply kept_onConn
  exact hs

theorem kept_execBlockOpen {pq : List Instr} (conn : Nat) (h : SehalHdr) (idx : Nat) (inst : Nat) (sub : Nat) (dir : Nat) (total
    : Nat) (errors : List Nat) {s : State} (hs : Kept pq s) : KeptOut pq (execBlockOpen conn h idx inst sub dir total errors s)
    := by
  unfold execBlockOpen
  apply keptOut_next
  apply kept_onConn
  exact hs

theorem kept_execBlockPiece {pq : List Instr} (conn : Nat) (h : SehalHdr) (offset : Nat) (len : Nat) (data : Bytes) {s : State}
    (hs : Kept pq s) : KeptOut pq (execBlockPiece conn h offset len data s) := by
  unfold execBlockPiece
  apply keptOut_next
  apply kept_onConn
  exact hs

theorem kept_execBlockClose {pq : List Instr} (conn : Nat) (h : SehalHdr) (crc : Nat) {s : State} (hs : Kept pq s) : KeptOut pq
    (execBlockClose conn h crc s) := by
  unfold execBlockClose
  apply keptOut_next
  apply kept_onConn
  exact hs

theorem kept_execBlockAbort {pq : List Instr} (conn : Nat) (h : SehalHdr) {s : State} (hs : Kept pq s) : KeptOut pq
    (execBlockAbort conn h s) := by
  unfold execBlockAbort
  apply keptOut_next
  apply kept_onConn
  exact hs

theorem kept_execSehalNop {pq : List Instr} (conn : Nat) (h : SehalHdr) {s : State} (hs : Kept pq s) : KeptOut pq (execSehalNop
    conn h s) := by
  unfold execSehalNop
  apply keptOut_next
  apply kept_onConn
  exact hs

theorem kept_execIdleTimeout {pq : List Instr} (k : Nat) {s : State} (hs : Kept pq s) : KeptOut pq (execIdleTimeout k s) := by
  unfold execIdleTimeout
  apply keptOut_onUnit
  · exact hs
  · intro t1
    intro h2
    apply kept_ite
    · apply kept_endSession
      exact h2
    · exact h2

theorem kept_execMgmtFrameReceived {pq : List Instr} (p : Nat) (f : MgmtFrame) {s : State} (hs : Kept pq s) : KeptOut pq
    (execMgmtFrameReceived p f s) := by
  unfold execMgmtFrameReceived
  apply keptOut_onUnit
  · exact hs
  · intro t1 h2
    apply kept_ite
    · exact h2
    · apply kept_ite
      · apply kept_send
        exact h2
      · split
        · apply kept_ite
          · exact h2
          · apply kept_bump
            exact h2
        · apply kept_ite
          · apply kept_onConn
            exact h2
          · apply kept_bump
            exact h2
        · apply kept_bump
          exact h2

theorem kept_portSessionsEnd {pq : List Instr} {s : State} (p : Nat) (hs : Kept pq s) : Kept pq (portSessionsEnd s p) := by
  unfold portSessionsEnd
  extract_lets +onlyGivenNames x1
  have h1 : Kept pq x1 := by
    unfold x1
    apply kept_foldl
    · exact hs
    · intro t2
      intro t3
      intro h4
      apply kept_ite
      · apply kept_endSession
        exact h4
      · exact h4
  clear_value x1
  apply kept_mk
  exact h1

theorem kept_portConfigured {pq : List Instr} {s : State} (hs : Kept pq s) (p : Nat) (c : MgmtConf) (rest : List MgmtConf) :
    Kept pq (portConfigured s p c rest) := by
  unfold portConfigured
  extract_lets +onlyGivenNames x1
  have h1 : Kept pq x1 := by
    unfold x1
    apply kept_setMgmtPort
    apply kept_portSessionsEnd
    exact hs
  clear_value x1
  apply kept_ite
  · apply kept_setB
    exact h1
  · exact h1

theorem kept_execMgmtPortConfigApply {pq : List Instr} (p : Nat) {s : State} (hs : Kept pq s) : KeptOut pq
    (execMgmtPortConfigApply p s) := by
  unfold execMgmtPortConfigApply
  apply keptOut_onUnit
  · exact hs
  · intro t1 h2
    split
    · exact h2
    · apply kept_portConfigured
      exact h2

theorem kept_execMgmtLinkChange {pq : List Instr} (p : Nat) (up : Bool) {s : State} (hs : Kept pq s) : KeptOut pq
    (execMgmtLinkChange p up s) := by
  unfold execMgmtLinkChange
  apply keptOut_onUnit
  · exact hs
  · intro t1
    intro h2
    apply kept_setB
    exact h2

end Sys2Proof.Machine
end

