-- ==== Sys2Proof/Laws/KeptCan.lean ====
section
/-! SUPPORT. Every operation of Machine/Can.lean keeps the queue and the well-formedness of the state. -/

namespace Sys2Proof.Machine

theorem keptOut_onSdo {pq : List Instr} {s : State} {p : Nat} {f : SdoFrame} {g : State → State} (hs : Kept pq s)
    (hg : ∀ t, Kept pq t → Kept pq (g t)) : KeptOut pq (onSdo p f s g) :=
  keptOut_onUnit hs fun t ht => kept_ite (hg t ht) ht

theorem kept_execCanPortStart {pq : List Instr} (p : Nat) {s : State} (hs : Kept pq s) : KeptOut pq (execCanPortStart p s) := by
  unfold execCanPortStart
  apply keptOut_onUnit
  · exact hs
  · intro t1
    intro h2
    apply kept_ite
    · apply kept_canStart
      exact h2
    · exact h2

theorem kept_execHeartbeat {pq : List Instr} (p : Nat) {s : State} (hs : Kept pq s) : KeptOut pq (execHeartbeat p s) := by
  unfold execHeartbeat
  apply keptOut_onUnit
  · exact hs
  · intro t1
    intro h2
    apply kept_ite
    · apply kept_canSend
      exact h2
    · exact h2

theorem kept_execCanNmtFrame {pq : List Instr} (p : Nat) {s : State} (hs : Kept pq s) : KeptOut pq (execCanNmtFrame p s) := by
  unfold execCanNmtFrame
  apply keptOut_onUnit
  · exact hs
  · intro t1
    intro h2
    exact h2

theorem kept_execCanBusOff {pq : List Instr} (p : Nat) {s : State} (hs : Kept pq s) : KeptOut pq (execCanBusOff p s) := by
  unfold execCanBusOff
  apply keptOut_onUnit
  · exact hs
  · intro t1
    intro h2
    apply kept_bump
    exact h2

theorem kept_execCanErrorPassive {pq : List Instr} (p : Nat) {s : State} (hs : Kept pq s) : KeptOut pq (execCanErrorPassive p s)
    := by
  unfold execCanErrorPassive
  apply keptOut_onUnit
  · exact hs
  · intro t1
    intro h2
    apply kept_bump
    exact h2

theorem kept_setSdo {pq : List Instr} {s : State} (p : Nat) (x : Option SdoXfer) (hs : Kept pq s) : Kept pq (setSdo s p x) := by
  unfold setSdo
  apply kept_setCanPort
  exact hs

theorem kept_sdoSend {pq : List Instr} {s : State} (hs : Kept pq s) (p : Nat) (fd : Bool) (data : Bytes) : Kept pq (sdoSend s
    p fd data) := by
  unfold sdoSend
  apply kept_send
  exact hs

theorem kept_sdoReply {pq : List Instr} {s : State} (hs : Kept pq s) (p : Nat) (fd : Bool) (cmd : Nat) (idx : Nat) (sub : Nat)
    (data : Nat) : Kept pq (sdoReply s p fd cmd idx sub data) := by
  unfold sdoReply
  apply kept_sdoSend
  exact hs

theorem kept_sdoAbort {pq : List Instr} {s : State} (hs : Kept pq s) (p : Nat) (fd : Bool) (idx : Nat) (sub : Nat) (code :
    Nat) (st : Status) : Kept pq (sdoAbort s p fd idx sub code st) := by
  unfold sdoAbort
  apply kept_refuse
  apply kept_sdoReply
  apply kept_bump
  apply kept_setSdo
  exact hs

theorem kept_sdoWrite {pq : List Instr} {s : State} (hs : Kept pq s) (p : Nat) (idx : Nat) (sub : Nat) (data : Bytes) (dead :
    Option Nat) : Kept2 pq (sdoWrite s p idx sub data dead) := by
  unfold sdoWrite
  extract_lets +onlyGivenNames x1
  clear_value x1
  split
  · apply kept3_snd
    apply kept_writeRequest
    exact hs
  · extract_lets +onlyGivenNames x2
    have h2 : Kept4 pq x2 := by
      unfold x2
      apply kept_deadRequest
      exact hs
    clear_value x2
    apply kept2_mk
    apply kept_refuse
    apply Kept4.out
    exact h2

theorem kept_sdoFinish {pq : List Instr} {s : State} (hs : Kept pq s) (p : Nat) (f : SdoFrame) (idx : Nat) (sub : Nat) (data :
    Bytes) (confirm : Bytes) : Kept pq (sdoFinish s p f idx sub data confirm) := by
  unfold sdoFinish
  extract_lets +onlyGivenNames x1
  clear_value x1
  extract_lets +onlyGivenNames x2
  have h2 : Kept2 pq x2 := by
    unfold x2
    apply kept_sdoWrite
    apply kept_setSdo
    exact hs
  clear_value x2
  apply kept_ite
  · apply Kept2.out
    exact h2
  · apply kept_ite
    · apply kept_send
      apply Kept2.out
      exact h2
    · apply kept_sdoReply
      apply kept_bump
      apply Kept2.out
      exact h2

theorem kept_sdoDownload {pq : List Instr} {s : State} (hs : Kept pq s) (p : Nat) (f : SdoFrame) (idx : Nat) (sub : Nat) (size
    : Option Nat) (expedited : Bool) (data : Bytes) : Kept pq (sdoDownload s p f idx sub size expedited data) := by
  unfold sdoDownload
  extract_lets +onlyGivenNames x1
  have h1 : Kept pq x1 := by
    unfold x1
    apply kept_setSdo
    exact hs
  clear_value x1
  split
  · apply kept_sdoAbort
    exact h1
  · extract_lets +onlyGivenNames x2
    clear_value x2
    apply kept_ite
    · apply kept_sdoFinish
      exact h1
    · apply kept_sdoSend
      apply kept_setSdo
      exact h1

theorem kept_execSdoDownloadInitiate {pq : List Instr} (p : Nat) (f : SdoFrame) (idx : Nat) (sub : Nat) (size : Option Nat)
    (expedited : Bool) (data : Bytes) {s : State} (hs : Kept pq s) : KeptOut pq (execSdoDownloadInitiate p f idx sub size
    expedited data s) := by
  unfold execSdoDownloadInitiate
  apply keptOut_onSdo
  · exact hs
  · intro t1 h2
    apply kept_sdoDownload
    exact h2

theorem kept_sdoDownloadSegment {pq : List Instr} {s : State} (hs : Kept pq s) (p : Nat) (f : SdoFrame) (toggle : Bool) (data
    : Bytes) (last : Bool) : Kept pq (sdoDownloadSegment s p f toggle data last) := by
  unfold sdoDownloadSegment
  split
  · apply kept_sdoAbort
    exact hs
  · apply kept_ite
    · apply kept_sdoAbort
      exact hs
    · apply kept_ite
      · apply kept_sdoAbort
        exact hs
      · extract_lets +onlyGivenNames x1
        clear_value x1
        extract_lets +onlyGivenNames x2
        clear_value x2
        apply kept_ite
        · apply kept_sdoAbort
          exact hs
        · apply kept_ite
          · apply kept_sdoFinish
            exact hs
          · apply kept_sdoSend
            apply kept_setSdo
            exact hs

theorem kept_execSdoDownloadSegment {pq : List Instr} (p : Nat) (f : SdoFrame) (toggle : Bool) (data : Bytes) (last : Bool) {s
    : State} (hs : Kept pq s) : KeptOut pq (execSdoDownloadSegment p f toggle data last s) := by
  unfold execSdoDownloadSegment
  apply keptOut_onSdo
  · exact hs
  · intro t1 h2
    apply kept_sdoDownloadSegment
    exact h2

theorem kept_sdoRead {pq : List Instr} {s : State} (hs : Kept pq s) (p : Nat) (idx : Nat) (sub : Nat) (dead : Option Nat) :
    Kept3 pq (sdoRead s p idx sub dead) := by
  unfold sdoRead
  extract_lets +onlyGivenNames x1
  clear_value x1
  extract_lets +onlyGivenNames x2
  clear_value x2
  split
  · extract_lets +onlyGivenNames x3
    have h3 : Kept4 pq x3 := by
      unfold x3
      apply kept_deadRequest
      exact hs
    clear_value x3
    apply kept3_mk
    apply Kept4.out
    exact h3
  · extract_lets +onlyGivenNames x4
    clear_value x4
    apply kept3_mk
    exact hs

theorem kept_sdoUpload {pq : List Instr} {s : State} (hs : Kept pq s) (p : Nat) (f : SdoFrame) (idx : Nat) (sub : Nat) : Kept
    pq (sdoUpload s p f idx sub) := by
  unfold sdoUpload
  extract_lets +onlyGivenNames x1
  have h1 : Kept3 pq x1 := by
    unfold x1
    apply kept_sdoRead
    apply kept_setSdo
    exact hs
  clear_value x1
  extract_lets +onlyGivenNames x2
  clear_value x2
  extract_lets +onlyGivenNames x3
  have h3 : Kept pq x3 := by
    unfold x3
    apply Kept3.out
    exact h1
  clear_value x3
  apply kept_ite
  · apply kept_sdoAbort
    exact h3
  · apply kept_ite
    · apply kept_sdoReply
      exact h3
    · extract_lets +onlyGivenNames x4
      clear_value x4
      apply kept_sdoReply
      apply kept_setSdo
      exact h3

theorem kept_execSdoUploadInitiate {pq : List Instr} (p : Nat) (f : SdoFrame) (idx : Nat) (sub : Nat) {s : State} (hs : Kept
    pq s) : KeptOut pq (execSdoUploadInitiate p f idx sub s) := by
  unfold execSdoUploadInitiate
  apply keptOut_onSdo
  · exact hs
  · intro t1 h2
    apply kept_sdoUpload
    exact h2

theorem kept_sdoUploadSegment {pq : List Instr} {s : State} (hs : Kept pq s) (p : Nat) (f : SdoFrame) (toggle : Bool) : Kept
    pq (sdoUploadSegment s p f toggle) := by
  unfold sdoUploadSegment
  split
  · apply kept_sdoAbort
    exact hs
  · apply kept_ite
    · apply kept_sdoAbort
      exact hs
    · apply kept_ite
      · apply kept_sdoAbort
        exact hs
      · extract_lets +onlyGivenNames x1
        clear_value x1
        extract_lets +onlyGivenNames x2
        clear_value x2
        extract_lets +onlyGivenNames x3
        clear_value x3
        extract_lets +onlyGivenNames x4
        have h4 : Kept pq x4 := by
          unfold x4
          apply kept_setSdo
          exact hs
        clear_value x4
        apply kept_sdoSend
        exact h4

theorem kept_execSdoUploadSegment {pq : List Instr} (p : Nat) (f : SdoFrame) (toggle : Bool) {s : State} (hs : Kept pq s) :
    KeptOut pq (execSdoUploadSegment p f toggle s) := by
  unfold execSdoUploadSegment
  apply keptOut_onSdo
  · exact hs
  · intro t1 h2
    apply kept_sdoUploadSegment
    exact h2

theorem kept_execSdoBlockRequest {pq : List Instr} (p : Nat) (f : SdoFrame) (idx : Nat) (sub : Nat) {s : State} (hs : Kept pq
    s) : KeptOut pq (execSdoBlockRequest p f idx sub s) := by
  unfold execSdoBlockRequest
  apply keptOut_onSdo
  · exact hs
  · intro t1 h2
    apply kept_refuse
    apply kept_sdoReply
    apply kept_bump
    exact h2

theorem kept_execSdoSegmentTimeout {pq : List Instr} (p : Nat) {s : State} (hs : Kept pq s) : KeptOut pq (execSdoSegmentTimeout
    p s) := by
  unfold execSdoSegmentTimeout
  apply keptOut_onUnit
  · exact hs
  · intro t1
    intro h2
    split
    · apply kept_ite
      · apply kept_sdoAbort
        exact h2
      · exact h2
    · exact h2

theorem kept_setTpdo {pq : List Instr} {s : State} (p : Nat) (j : Nat) (x : Tpdo) (hs : Kept pq s) : Kept pq (setTpdo s p j x)
    := by
  unfold setTpdo
  apply kept_setCanPort
  exact hs

theorem kept_tpdoSend {pq : List Instr} {s : State} (p : Nat) (j : Nat) (v : Bytes) (hs : Kept pq s) : Kept pq (tpdoSend s p j
    v) := by
  unfold tpdoSend
  extract_lets +onlyGivenNames x1
  have h1 : Kept pq x1 := by
    unfold x1
    apply kept_send
    exact hs
  clear_value x1
  apply kept_setTpdo
  exact h1

theorem kept_tpdoJudge {pq : List Instr} {s : State} (hs : Kept pq s) (p : Nat) (j : Nat) : Kept pq (tpdoJudge s p j) := by
  unfold tpdoJudge
  extract_lets +onlyGivenNames x1
  clear_value x1
  split
  · exact hs
  · apply kept_ite
    · exact hs
    · apply kept_ite
      · apply kept_setTpdo
        exact hs
      · apply kept_tpdoSend
        exact hs

theorem kept_tpdoSample {pq : List Instr} {s : State} (hs : Kept pq s) (p : Nat) (j : Nat) : Kept pq (tpdoSample s p j) := by
  unfold tpdoSample
  apply kept_ite
  · exact hs
  · apply kept_tpdoJudge
    apply kept_setTpdo
    exact hs

theorem kept_execTpdoSample {pq : List Instr} {s : State} (hs : Kept pq s) : KeptOut pq (execTpdoSample s) := by
  unfold execTpdoSample
  apply keptOut_next
  apply kept_foldl
  · apply kept_foldl
    · exact hs
    · intro t1
      intro t2
      intro h3
      apply kept_tpdoSample
      exact h3
  · intro t4
    intro t5
    intro h6
    apply kept_tpdoSample
    exact h6

theorem kept_execTpdoEventTimer {pq : List Instr} (p : Nat) (j : Nat) {s : State} (hs : Kept pq s) : KeptOut pq
    (execTpdoEventTimer p j s) := by
  unfold execTpdoEventTimer
  apply keptOut_onUnit
  · exact hs
  · intro t1
    intro h2
    apply kept_ite
    · apply kept_tpdoSend
      exact h2
    · exact h2

theorem kept_execTpdoInhibitExpired {pq : List Instr} (p : Nat) (j : Nat) {s : State} (hs : Kept pq s) : KeptOut pq
    (execTpdoInhibitExpired p j s) := by
  unfold execTpdoInhibitExpired
  apply keptOut_onUnit
  · exact hs
  · intro t1 h2
    extract_lets +onlyGivenNames x3
    clear_value x3
    extract_lets +onlyGivenNames x4
    have h4 : Kept pq x4 := by
      unfold x4
      apply kept_setTpdo
      exact h2
    clear_value x4
    apply kept_ite
    · apply kept_tpdoJudge
      exact h4
    · exact h4

theorem kept_execEmcyInhibitExpired {pq : List Instr} (p : Nat) {s : State} (hs : Kept pq s) : KeptOut pq
    (execEmcyInhibitExpired p s) := by
  unfold execEmcyInhibitExpired
  apply keptOut_onUnit
  · exact hs
  · intro t1
    intro h2
    extract_lets +onlyGivenNames x3
    clear_value x3
    split
    · apply kept_setCanPort
      exact h2
    · extract_lets +onlyGivenNames x4
      have h4 : Kept pq x4 := by
        unfold x4
        apply kept_setCanPort
        apply kept_canSend
        exact h2
      clear_value x4
      apply kept_ite
      · apply kept_delivered
        exact h4
      · exact h4

end Sys2Proof.Machine
end

