-- ==== Sys2Proof/Laws/KeptIdle.lean ====
section
/-! SUPPORT. Every operation of Machine/Idle.lean keeps the queue and the well-formedness of the state. -/

namespace Sys2Proof.Machine

theorem kept_idleTick {pq : List Instr} {s : State} (hs : Kept pq s) : Kept pq (idleTick s) := by
  unfold idleTick
  apply kept_ite
  · exact hs
  · extract_lets +onlyGivenNames x1
    have h1 : Kept pq x1 := by
      unfold x1
      apply kept_mk
      exact hs
    clear_value x1
    apply kept_ite
    · exact h1
    · extract_lets +onlyGivenNames x2
      have h2 : Kept pq x2 := by
        unfold x2
        apply kept_timeTick
        exact h1
      clear_value x2
      extract_lets +onlyGivenNames x3
      have h3 : Kept pq x3 := by
        unfold x3
        apply kept_ite
        · apply kept_hubEgressTick
          apply kept_pauseTick
          apply kept_lanesTick
          exact h2
        · exact h2
      clear_value x3
      split
      · apply kept_ite
        · apply kept_takeSnapshot
          exact h3
        · exact h3
      · exact h3

end Sys2Proof.Machine
end

