-- ==== Sys2Proof/WellFormed.lean ====
section
/-! DEFINITION. Which terms are commands of the module: every unit that an event names exists (R3), and what an event brings has its
length. A host's command needs a session slot only; an instance outside a unit's range is answered with `OD_NO_OBJECT` (R8, R97). -/

namespace Sys2Proof

/-- A session slot (R99). -/
def slotOk (k : Nat) : Bool := decide (k < 8)

/-- A source key: a number that R489 assigns, or 0x1_0000 + 4 × leaf + kind for a leaf source. -/
def sourceKeyOk (x : Nat) : Bool :=
  decide (x ≤ 0x12) || decide (0x20 ≤ x ∧ x < 0x40) || decide (0x40 ≤ x ∧ x < 0x40 + 27) || decide (0x60 ≤ x ∧ x < 0x60 + 27)
  || decide (0x80 ≤ x ∧ x < 0x80 + 27) || decide (0xA0 ≤ x ∧ x < 0xC0) || decide (0xC0 ≤ x ∧ x < 0xC9)
  || (decide (0x200 ≤ x ∧ x < 0x300) && decide ((x - 0x200) % 32 < 2))
  || (decide (0x300 ≤ x ∧ x < 0x400) && decide ((x - 0x300) % 64 < 19))
  || (decide (0x800 ≤ x ∧ x < 0x1000) && decide ((x - 0x800) % 32 < 19))
  || (decide (0x1000 ≤ x ∧ x < 0x2000) && decide ((x - 0x1000) % 4 < 3))
  || (decide (0x2000 ≤ x ∧ x < 0xA000) && decide ((x - 0x2000) % 16 < 10))
  || decide (0x10000 ≤ x ∧ x < 0x10000 + 4 * 262144)

/-- The command is well formed. -/
def Instr.wf (i : Instr) : Bool :=
  match i with
  | .aux3v3InRange _ => true
  | .managementFirmwareReady => true
  | .firmwareReadyTimeout => true
  | .aux3v3Loss _ => true
  | .pwrEnAsserted _ => true
  | .vin12EntersRange => true
  | .pwrEnNegated => true
  | .railsGood => true
  | .railGoodTimeout => true
  | .vin12Undervoltage => true
  | .vin12Overvoltage => true
  | .regulatorsOff => true
  | .resetNAsserted => true
  | .resetNReleased _ => true
  | .datapathPartStreamed _ => true
  | .dieLinksTrained => true
  | .stockpotInitialised => true
  | .savedConfigApplied _ => true
  | .bootPowerUpDone => true
  | .calibrationStepDone n r => decide (n < 64) && decide (r.bias.length = 6) && decide (r.gains.length = 48) && decide (r.skew.length = 4)
      && decide (r.txSkew.length = 4) && decide (r.taps.length = 4) && decide (r.txTaps.length = 4)
  | .carrierCalibrationEnd n => decide (n < 64)
  | .heldEnableRelease n => decide (n < 64)
  | .noLightLineUsable n _ => decide (n < 64)
  | .managementReset k => slotOk k
  | .fullResetCommand k => slotOk k
  | .managementResetDone => true
  | .engineReset k _ => slotOk k
  | .laneGroupReset k _ => slotOk k
  | .recalibrate k _ => slotOk k
  | .configSave k => slotOk k
  | .configErase k => slotOk k
  | .firmwareVerify k _ _ _ _ => slotOk k
  | .firmwareActivate k => slotOk k
  | .firmwareConfirm k => slotOk k
  | .firmwareSwapPreferred k => slotOk k
  | .trialTimeout => true
  | .deferredTrialReset => true
  | .thermalSample r => decide (r.junctions.map List.length = List.replicate 8 8 ++ List.replicate 8 9 ++ List.replicate 6 4 ++ List.replicate 5 2)
      && decide (r.lid.length = 4) && decide (r.loads.length = 27)
  | .graceTimeExpired => true
  | .shedIntervalExpired => true
  | .exitHoldExpired => true
  | .clearThermalPeaks k => slotOk k
  | .dtlsClientHello _ port _ _ => decide (port < 2)
  | .dtlsHandshakeComplete _ _ => true
  | .handshakeTimeout _ => true
  | .dtlsAlert _ => true
  | .sehalOpen _ _ _ _ => true
  | .sehalClose _ _ => true
  | .sehalRead _ _ _ => true
  | .sehalWrite _ _ _ => true
  | .blockOpen _ _ _ _ _ _ _ _ => true
  | .blockPiece _ _ _ _ _ => true
  | .blockClose _ _ _ => true
  | .blockAbort _ _ => true
  | .sehalNop _ _ => true
  | .blockTimeout k => slotOk k
  | .idleTimeout k => slotOk k
  | .mgmtFrameReceived p _ => decide (p < 2)
  | .mgmtPortConfigApply p => decide (p < 2)
  | .closeSession k _ => slotOk k
  | .identityCommand k => slotOk k
  | .identityEnableWrite k _ => slotOk k
  | .ownershipClaim k _ => slotOk k
  | .ownershipRelease k _ => slotOk k
  | .ownershipForceRelease k _ => slotOk k
  | .releaseMine k => slotOk k
  | .commitArm k _ => slotOk k
  | .commitCancel k _ => slotOk k
  | .commitRevert k _ => slotOk k
  | .groupArm k => slotOk k
  | .groupCancel k => slotOk k
  | .groupDecisionTime _ => true
  | .peerTimeout n _ => decide (n < 64)
  | .countdownStart n => decide (n < 64)
  | .commitCopy n _ => decide (n < 64)
  | .moduleScopeTarget => true
  | .objectWrite k _ => slotOk k
  | .sdoDownloadInitiate p _ _ _ _ _ _ => decide (p < 2)
  | .sdoDownloadSegment p _ _ _ _ => decide (p < 2)
  | .sdoUploadInitiate p _ _ _ => decide (p < 2)
  | .sdoUploadSegment p _ _ => decide (p < 2)
  | .sdoBlockRequest p _ _ _ => decide (p < 2)
  | .sdoSegmentTimeout p => decide (p < 2)
  | .canNmtFrame p => decide (p < 2)
  | .canPortStart p => decide (p < 2)
  | .canSessionReconfigure k _ _ value => slotOk k && decide (value < 256)
  | .canAccessWrite k _ value => slotOk k && decide (value < 4294967296)
  | .heartbeat p => decide (p < 2)
  | .tpdoSample => true
  | .tpdoEventTimer p j => decide (p < 2) && decide (j < 4)
  | .tpdoInhibitExpired p j => decide (p < 2) && decide (j < 4)
  | .emcyInhibitExpired p => decide (p < 2)
  | .canBusOff p => decide (p < 2)
  | .eventHoldExpired _ _ => true
  | .combLineLost n _ => decide (n < 64)
  | .combLineReturn n _ => decide (n < 64)
  | .combLineStable n => decide (n < 64)
  | .biasLockAchieved n bias => decide (n < 64) && decide (bias.length = 6)
  | .launchRampDone n => decide (n < 64)
  | .carrierEnable k _ => slotOk k
  | .carrierDisable k _ => slotOk k
  | .portLightChange k _ source anchor spacing => slotOk k && decide (source < 256) && decide (-32768 ≤ anchor ∧ anchor < 32768) && decide (spacing < 256)
  | .biasErrorTimer n _ => decide (n < 64)
  | .heaterLimitTimer n _ _ _ => decide (n < 64)
  | .losSignalTimer n _ _ => decide (n < 64)
  | .rxOverloadTimer n _ _ => decide (n < 64)
  | .agcWindowEnd n rms means clips light => decide (n < 64) && decide (rms.length = 4) && means.all (fun m => decide (m.length = 4))
      && decide (clips.length = 4) && decide (light.bias.length = 6)
  | .frontEndFadeDone n _ => decide (n < 64)
  | .acquisitionStepDone n _ => decide (n < 64)
  | .acquisitionStepTimeout n => decide (n < 64)
  | .rxLolTimer n => decide (n < 64)
  | .warmHoldExpired n => decide (n < 64)
  | .warmSnapshot n _ => decide (n < 64)
  | .reacquire k _ _ => slotOk k
  | .ladleTrackUpdate n => decide (n < 64)
  | .ladleFadeDone n => decide (n < 64)
  | .tapGating n _ _ _ => decide (n < 64)
  | .whiskEstimates n _ => decide (n < 64)
  | .singularityCheck n _ => decide (n < 64)
  | .timingLockLoss n => decide (n < 64)
  | .pilotSyncLoss n => decide (n < 64)
  | .frequencyOutOfRange n => decide (n < 64)
  | .jointQualifyTest p _ => decide (p < 8)
  | .pilotGroupFit p _ _ pilots => decide (p < 8) && pilots.all (fun q => decide (q.slot < 8 ∧ q.sc < 32))
  | .qualityUpdate n _ => decide (n < 64)
  | .pmBoundary _ _ _ => true
  | .qmarginTimer n _ => decide (n < 64)
  | .tuningEvaluation n => decide (n < 64)
  | .backchannelCellReceived n _ => decide (n < 64)
  | .autoChangeStart n => decide (n < 64)
  | .backchannelTimeout n => decide (n < 64)
  | .rescue n => decide (n < 64)
  | .klfBlockTransmit n _ _ => decide (n < 64)
  | .headerSignsRead n _ => decide (n < 64)
  | .codedBlockRelease n _ => decide (n < 64)
  | .klfBlockDecoded n _ => decide (n < 64)
  | .changeRequestDecoded n => decide (n < 64)
  | .confirmationDecoded n _ => decide (n < 64)
  | .announcementDecoded n _ => decide (n < 64)
  | .rxTargetBlock n => decide (n < 64)
  | .confirmationLimit n => decide (n < 64)
  | .lofTimer n => decide (n < 64)
  | .farTerminationDetected k => decide (k < 1024)
  | .dmePagesReceived k _ => decide (k < 1024)
  | .anTimeout k => decide (k < 1024)
  | .parallelDetectDone t _ => decide (t < 2048)
  | .trainingDone k taps => decide (k < 1024) && decide (taps.length = 6) && taps.all fun c => decide (-32768 ≤ c ∧ c ≤ 32767)
  | .trainTimeout k _ => decide (k < 1024)
  | .lockQualified k _ => decide (k < 1024)
  | .lockTimeout k => decide (k < 1024)
  | .capabilityFrameReceived k _ => decide (k < 1024)
  | .exchangeDone k => decide (k < 1024)
  | .exchangeTimeout k => decide (k < 1024)
  | .laneSignalLoss k => decide (k < 1024)
  | .laneFomFail k _ _ => decide (k < 1024)
  | .pcsAligned t _ => decide (t < 2048)
  | .laneRestart k _ => slotOk k
  | .laneInjectStart k _ => slotOk k
  | .laneInjectStop k _ => slotOk k
  | .laneClearCounters k _ => slotOk k
  | .clearLaneCounters k => slotOk k
  | .bringupAlarmTimer k => decide (k < 1024)
  | .clientBindingWrite k _ _ => slotOk k
  | .clientFailClearTimer t => decide (t < 2048)
  | .clientFrameIngress t _ => decide (t < 2048)
  | .pfcRefreshTimer t q => decide (t < 2048) && decide (q < 8)
  | .pfcFrameReceived t _ _ => decide (t < 2048)
  | .headroomOverrunClear t => decide (t < 2048)
  | .holdOffExpired t _ _ => decide (t < 2048)
  | .waitToRestoreExpired t => decide (t < 2048)
  | .protectionSwitch t => decide (t < 2048)
  | .protClear k _ => slotOk k
  | .protLockout k _ => slotOk k
  | .protForceProtection k _ => slotOk k
  | .protForceWorking k _ => slotOk k
  | .protManualProtection k _ => slotOk k
  | .protManualWorking k _ => slotOk k
  | .protRealign k _ => slotOk k
  | .delayEqualised t => decide (t < 2048)
  | .trayFailClearTimer t => decide (t < 2048)
  | .clearTrayCounters k => slotOk k
  | .sealNoticeReceived n _ => decide (n < 64)
  | .sealRollover k _ => slotOk k
  | .rolloverSwitch t _ => decide (t < 2048)
  | .trayKeyLoad k _ _ => slotOk k
  | .utilityKeyLoad k _ _ => slotOk k
  | .keyDelivered x => decide (x < 4096)
  | .keySlotZeroise k _ => slotOk k
  | .utilityKeyZeroise k _ => slotOk k
  | .kekPeerKeyWrite k _ => slotOk k
  | .agreeStart k _ => slotOk k
  | .agreeCancel k _ => slotOk k
  | .agreementMessageReceived n _ => decide (n < 64)
  | .agreeTimeout t => decide (t < 2048)
  | .lidLockAcquire k => slotOk k
  | .lidLockRelease k => slotOk k
  | .lidLockForceRelease k => slotOk k
  | .lidLeaseExpired => true
  | .lidBlockOperation k _ => slotOk k
  | .sealAlarmClearTimer t kind => decide (t < 2048) && decide (kind < 2)
  | .clearSealCounters k => slotOk k
  | .grantMapSwap i => decide (i < 2048)
  | .mapBuildDone i _ => decide (i < 2048)
  | .hubDownstreamFrame i _ _ => decide (i < 2048)
  | .contextPrefetch i _ _ => decide (i < 2048)
  | .preambleDetected i _ _ _ => decide (i < 2048)
  | .syncWordMatch i _ _ => decide (i < 2048)
  | .tentativeExpiry i => decide (i < 2048)
  | .burstHeaderDecoded i _ _ _ => decide (i < 2048)
  | .burstPayloadBlock i _ => decide (i < 2048)
  | .burstEnd i _ => decide (i < 2048)
  | .grantedSlotEnd i _ _ => decide (i < 2048)
  | .hubBurstSilence n => decide (n < 64)
  | .leafRangeAgain k _ => slotOk k
  | .leafDeregister k _ => slotOk k
  | .leafEnableWrite k _ _ => slotOk k
  | .hubKeyRollover k _ => slotOk k
  | .hubRolloverEffective i => decide (i < 2048)
  | .hubRolloverEnd i => decide (i < 2048)
  | .hubIngressFrame j _ => decide (j < 16)
  | .queueFlush k _ => slotOk k
  | .clearHubCounters k => slotOk k
  | .stockpotPageRead a _ => decide (a < 16777216)
  | .stockpotPageWrite a data => decide (a < 16777216) && decide (data.length = 4096)
  | .scrubRead x _ => decide (x < 4)
  | .retirePage k => slotOk k
  | .initialiseRegion k => slotOk k
  | .stockpotClearCounters k => slotOk k
  | .clearLog k => slotOk k
  | .eraseRetirementList k => slotOk k
  | .dmaStart k _ => slotOk k
  | .dmaPause k _ => slotOk k
  | .dmaResume k _ => slotOk k
  | .dmaStop k _ => slotOk k
  | .dmaDrainDone c => decide (c < 32)
  | .sourcePageProduced c _ _ => decide (c < 32)
  | .dmaEventRelease _ _ => true
  | .dmaBurstDone c _ => decide (c < 32)
  | .timingEvaluation g _ _ => decide (g < 4)
  | .refActivityLoss x => decide (x < 4)
  | .oscinLoss => true
  | .oscinReturn => true
  | .oscinAlarmClear => true
  | .generatorLock g => decide (g < 4)
  | .generatorLockTimeout g => decide (g < 4)
  | .holdoverLimit g => decide (g < 4)
  | .tgReselect k _ => slotOk k
  | .tgForceHoldover k _ => slotOk k
  | .tgReleaseHoldover k _ => slotOk k
  | .tgWaitToRestore g => decide (g < 4)
  | .loopOpenWrite k _ _ => slotOk k
  | .steerOffsetWrite k _ offset => slotOk k && decide (-2147483648 ≤ offset ∧ offset < 2147483648)
  | .timeStep k => slotOk k
  | .timeStepApply => true
  | .timeSlew k => slotOk k
  | .timeSlewCancel k => slotOk k
  | .slewDone => true
  | .ppsEdge _ => true
  | .fpoEnableWrite k _ _ => slotOk k
  | .fpoAlign k _ => slotOk k
  | .clearTimingCounters k => slotOk k
  | .monitorConversionDone m _ => decide (m < 9)
  | .urgentConversion k _ => slotOk k
  | .urgentConversionDone m _ => decide (m < 9)
  | .clearMonitorPeaks k => slotOk k
  | .occupancySample _ _ _ => true
  | .perfCounterSelect k _ _ _ => slotOk k
  | .counterSnapshot k => slotOk k
  | .snapshotCopyDone => true
  | .counterFreeze k => slotOk k
  | .counterUnfreeze k => slotOk k
  | .counterDeselectAll k => slotOk k
  | .bandwidthWindowEnd w => decide (w < 64)
  | .probeSample p _ => decide (p < 8)
  | .probeEventEnd p => decide (p < 8)
  | .fibreDisturbanceClear p => decide (p < 8)
  | .clearProbe k => slotOk k
  | .sourceOccurrence key _ => sourceKeyOk key
  | .conditionEnd key => sourceKeyOk key
  | .eventAckSource k => slotOk k
  | .eventAckAll k => slotOk k
  | .eventClearLost k => slotOk k
  | .injectStart k _ => slotOk k
  | .injectStop k _ => slotOk k
  | .injectHoldEnd j => decide (j < 8)
  | .injectGapExpired j => decide (j < 8)
  | .powerDown k _ => slotOk k
  | .powerUp k _ => slotOk k
  | .powerDownDone d => decide (d < 112)
  | .powerUpDone d => decide (d < 112)
  | .clearHighWater k => slotOk k
  | .clearCrossingCounters k => slotOk k
  | .clearCrossingAll k => slotOk k
  | .clearRxCounters k => slotOk k
  | .clearTuneCounters k => slotOk k
  | .clearFecCounters k => slotOk k
  | .engineResetDone n => decide (n < 64)
  | .refActivityReturn x => decide (x < 4)
  | .prbsCheckerLocked k _ => decide (k < 1024)
  | .prbsCheckerLockLost k _ => decide (k < 1024)
  | .mgmtLinkChange p _ => decide (p < 2)
  | .canErrorPassive p => decide (p < 2)

end Sys2Proof
end

