-- ==== Sys2Proof/Tests/Slice0.lean ====
section
/-! SUPPORT. The model's own tests: ill-formed commands that `WellFormed` refuses, single steps with the results that the spec gives, and for
the statements witnesses that their hypotheses can be met. -/

open Sys2Proof Sys2Proof.Machine

namespace Sys2Proof.Tests.Slice0

set_option Elab.async false

/-! ### Small states -/

/-- An open DTLS session of a role. -/
def session (role conn : Nat) : Session := { isOpen := true, transport := 1, role := role, identity := 0, conn := conn }

/-- The module in `READY`: supplies on, every domain up, and one session of each role: 0 Maintainer, 1 Key Officer, 2 Operator, 3 Observer. -/
def ready : Machine.State :=
  { State.reset with
    pins := { aux3v3 := true, vin12 := .inRange, pwrEn := true, pwrgd := true },
    boot := { st := .ready, railsOn := true, fwReady := true, dpRunning := some 0, railsBefore := true },
    sessions := [(0, session 3 10), (1, session 4 11), (2, session 2 12), (3, session 1 13)],
    od := (List.range 112).map fun d => (Od.powerState d, .u 2) }

/-- `AUX3V3` alone: `STANDBY` with the firmware ready. -/
def standby : Machine.State :=
  { State.reset with
    pins := { aux3v3 := true, vin12 := .inRange }, boot := { st := .standby, fwReady := true }, sessions := [(0, session 3 10)] }

/-- A plain frame, and one of priority 2 with the tags 1 and 1, each without its FCS. -/
def rawFrame : Bytes := List.replicate 12 0 ++ [8, 0, 1, 2]
def tagFrame : Bytes := List.replicate 12 0 ++ [0x88, 0xA8, 0, 1, 0x81, 0, 0, 1]
def crcOf (f : Bytes) : Bytes := let c := crc32 f; (List.range 4).map fun i => BitVec.ofNat 8 (c / 256 ^ i)

/-! ### Aids -/

theorem admits_of {s : Machine.State} {k key code : Nat} (h : s.answers k = true)
    (g : writeGate s k (keyIdx key) (keyInst key) (keySub key) code = .ok) : Admits s k key code := ⟨h, g⟩

/-- The object's row admits a plain write of `v`. -/
def rowTakes (key : Nat) (v : Val) : Bool :=
  match subRow (keyIdx key) (keySub key) with
  | some r => decide (r.acc = .rw) && rngOk r.rng v
  | none => true

theorem allows_of {s : Machine.State} {k key code : Nat} {v : Val} (h : s.answers k = true)
    (g : writeGate s k (keyIdx key) (keyInst key) (keySub key) code = .ok) (t : rowTakes key v = true)
    (u : ruleCheck s (s.setVal key v) k ⟨.ok, .rw, key, code, v⟩ = .ok) : Allows s k key code v := by
  refine ⟨h, g, fun r hr => ?_, u⟩
  simp only [rowTakes, hr, Bool.and_eq_true, decide_eq_true_eq] at t
  exact t

theorem rangeOf (idx sub : Nat) (v : Val) (h : (match subRow idx sub with | some r => rngOk r.rng v | none => true) = true) :
    ∀ r, subRow idx sub = some r → rngOk r.rng v = true := by
  intro r hr
  rwa [hr] at h

theorem idle_of {s : Machine.State} (h : s.pending = []) : step s = .next (idleTick s) := by
  unfold step
  rw [h]

theorem idle_ready : step ready = .next (idleTick ready) := idle_of rfl

theorem tidy_ready : Tidy ready := by
  constructor <;> first | decide +kernel | trivial

/-- The example of RFC 3394, 4.6: 256 bits of key data under a 256-bit KEK. -/
def wrapped : Bytes := beBytes 40 0x28C9F404C4B810F4CBCCB35CFB87F8263F5786E2D80ED326CBC7F0E71A99F43BFB988B9B7A02DD21
def keyed : Machine.State :=
  { ready.setO Od.kekPeerKey [4] with kek := beBytes 32 0x000102030405060708090A0B0C0D0E0F101112131415161718191A1B1C1D1E1F }

theorem test_unwrap : (unwrapKey keyed wrapped).map beNat = some 0x00112233445566778899AABBCCDDEEFF000102030405060708090A0B0C0D0E0F := by
  decide +kernel

theorem unwrap_some : ∃ key, unwrapKey keyed wrapped = some key := by
  have h := test_unwrap
  cases e : unwrapKey keyed wrapped with
  | none => rw [e] at h; cases h
  | some key => exact ⟨key, rfl⟩

theorem light_gate : ∀ i, 1 ≤ i → i ≤ 3 →
    writeGate ready 0 12288 0 i (if i = 1 then 1 else if i = 2 then unsignedOf 16 (-128) else 64) = Status.ok := by
  intro i h1 h3
  have h : i = 1 ∨ i = 2 ∨ i = 3 := by omega
  rcases h with rfl | rfl | rfl <;> decide +kernel

/-! ### Ill-formed commands: one for each check of `Instr.wf` -/

theorem smoke_engine : (Instr.carrierCalibrationEnd 64).wf = false := by decide
theorem smoke_slot : (Instr.managementReset 8).wf = false := by decide
theorem smoke_port : (Instr.canPortStart 2).wf = false := by decide
theorem smoke_opticalPort : (Instr.probeEventEnd 8).wf = false := by decide
theorem smoke_lane : (Instr.trainingDone 1024 []).wf = false := by decide
theorem smoke_tray : (Instr.agreeTimeout 2048).wf = false := by decide
theorem smoke_priority : (Instr.pfcRefreshTimer 0 8).wf = false := by decide
theorem smoke_keySlot : (Instr.keyDelivered 4096).wf = false := by decide
theorem smoke_sealAlarm : (Instr.sealAlarmClearTimer 0 2).wf = false := by decide
theorem smoke_hubSubcarrier : (Instr.burstHeaderDecoded 2048 [] 0 0).wf = false := by decide
theorem smoke_ingressClient : (Instr.hubIngressFrame 16 []).wf = false := by decide
theorem smoke_page : (Instr.stockpotPageRead 16777216 0).wf = false := by decide
theorem smoke_pageData : (Instr.stockpotPageWrite 0 [0]).wf = false := by decide
theorem smoke_stack : (Instr.refActivityLoss 4).wf = false := by decide
theorem smoke_channel : (Instr.dmaDrainDone 32).wf = false := by decide
theorem smoke_generator : (Instr.generatorLock 4).wf = false := by decide
theorem smoke_steerOffset : (Instr.steerOffsetWrite 0 0 2147483648).wf = false := by decide
theorem smoke_monitor : (Instr.urgentConversionDone 9 0).wf = false := by decide
theorem smoke_window : (Instr.bandwidthWindowEnd 64).wf = false := by decide
theorem smoke_source : (Instr.conditionEnd 0x13).wf = false := by decide
theorem smoke_injector : (Instr.injectGapExpired 8).wf = false := by decide
theorem smoke_domain : (Instr.powerDownDone 112).wf = false := by decide
theorem smoke_tpdo : (Instr.tpdoEventTimer 0 4).wf = false := by decide
theorem smoke_canObject : (Instr.canSessionReconfigure 0 0 0 256).wf = false := by decide
theorem smoke_canCode : (Instr.canAccessWrite 0 0 4294967296).wf = false := by decide
theorem smoke_calResult : (Instr.calibrationStepDone 0 { ok := true, spur := 0, power := 0, offset := 0, bias := [], gains := [], skew := [], txSkew := [], taps := [], txTaps := [] }).wf = false := by decide
theorem smoke_biasPoints : (Instr.biasLockAchieved 0 []).wf = false := by decide
theorem smoke_trainedTaps : (Instr.trainingDone 0 [0, 0, 0, 0, 0, 32768]).wf = false := by decide
theorem smoke_pilotSlot : (Instr.pilotGroupFit 0 [] [] [⟨8, 0, false, 0, 0, 0⟩]).wf = false := by decide
theorem smoke_lightAnchor : (Instr.portLightChange 0 0 0 32768 0).wf = false := by decide
theorem smoke_thermal : (Instr.thermalSample { junctions := [], lid := [], loads := [], volts := 0, amps := 0, watts := 0, auxVolts := 0, auxWatts := 0 }).wf = false := by decide
theorem smoke_agcWindow : (Instr.agcWindowEnd 0 [] [] [] ⟨0, 0, 0, 0, 0, [], 0, 0, 0, 0⟩).wf = false := by decide

/-! ### The spec's worked examples and tables -/

/-- The machine in `READY` with the reference format: code 138 on all 32 subcarriers. -/
def fmt : Fmt := fmtOf ready 0
def codes138 : List Nat := List.replicate 32 138

/-- Chapter 9, worked example, items 1 to 7. -/
theorem test_codedBits : codedBits fmt 138 = 24192 := by decide +kernel
theorem test_parity : parityBits fmt 138 = 4839 := by decide +kernel
theorem test_infoBits : dataStreamBits fmt codes138 = 594808 := by decide +kernel
theorem test_payload : (payloadBits fmt codes138 0, payloadBits fmt codes138 1) = (592147, 592148) := by decide +kernel
theorem test_overheadMin : overheadBitsMin fmt codes138 = 2660 := by decide +kernel
theorem test_sealEntries : sealEntries fmt codes138 = 14 := by decide +kernel
theorem test_slotCapacity : slotCapacity fmt codes138 = 640 := by decide +kernel

/-- Chapter 8: the matcher's composition at code 32, and the frames of 1,921 and 1,922 bits at code 138. -/
theorem test_composition : composition 1008 2 252 = [965, 43] := by decide +kernel
theorem test_frameBits : (frameBits fmt 138 0, frameBits fmt 138 1) = (1921, 1922) := by decide +kernel

/-- Chapter 8, link tuning: SNRreq is 15.30 dB at code 138, and the 15.52 dB of code 130 include a margin of 1.0 dB. -/
theorem test_snrReq : ((snrReq 2 138 16 * 200 + 2 ^ 64) / 2 ^ 65, (snrReq 2 130 16 * 200 + 2 ^ 64) / 2 ^ 65) = (1530, 1452) := by decide +kernel

/-- Chapter 12: the IV of tray 300, side 0, epoch 5, span 62,500. -/
theorem test_sealIv : sealIv 0 300 5 62500 = beBytes 12 0x12C000000050000000F42400 := by decide +kernel

/-- FIPS 197, C.3: a test vector of AES-256, the block cipher of R348. -/
theorem test_aes :
    aesEncrypt (beBytes 32 0x000102030405060708090A0B0C0D0E0F101112131415161718191A1B1C1D1E1F) (beBytes 16 0x00112233445566778899AABBCCDDEEFF) =
      beBytes 16 0x8EA2B7CA516745BFEAFC49904B496089 := by decide +kernel

/-- Chapter 13: 2,178 grant units for 64 QPSK blocks, and 87,890 units in the upstream frame. -/
theorem test_burstUnits : burstUnits ready 1440 64 0 = 2178 := by decide +kernel
theorem test_frameUnits : frameUnits ready 1440 = 87890 := by decide +kernel

/-- Chapter 11: the delay region at 2,000 and 3,000 µs for 83 slots. -/
theorem test_delayPages : (delayPagesFor 83 2000, delayPagesFor 83 3000) = (25346, 38011) := by decide +kernel

/-- Chapter 10: `HeadroomRequired` of a 400GBASE-R member with every object at its default. -/
theorem test_headroom : headroomRequired (ready.setN (Od.clientType 200) 10) 200 = 104448 := by decide +kernel

/-- Chapter 17: source and event code of `LOS_SIGNAL` of CE19. -/
theorem test_losSignal : (srcCarrier 19 1, eventCode (srcCarrier 19 1)) = (0x0A61, 0x0401) := by decide

/-- Chapter 7: the transform for 250,000 and for 25,000 ps/nm on CE26. -/
theorem test_ladleSize : (fftSizeFor ready 26 250000, fftSizeFor ready 26 25000) = (1048576, 131072) := by decide +kernel

/-- Chapter 15, worked example, items 1 and 2: TG1 with REFIN0, REFIN1 and the recovered clock of CE17. -/
def threeRefs : Machine.State :=
  [(0, 0x2000, 1, 800000), (1, 0x2001, 1, 7100000), (2, 0x3011, 2, 500000)].foldl (fun s (x : Nat × Nat × Nat × Int) =>
    ((s.setTgEntry 1 x.1 { cand := x.2.1, rank := x.2.2.1 }).setN (Od.entryState x.1 1) 3).setI (Od.offset100s x.1 1) x.2.2.2) ready

theorem test_voters : (voters threeRefs 1).length = 4 := by decide +kernel
theorem test_majority : (hasMajority threeRefs 1 0, hasMajority threeRefs 1 1) = (true, false) := by decide +kernel
theorem test_outvoted : (evalVote threeRefs 1).nat (Od.entryState 1 1) ≠ 3 ∧ (evalVote threeRefs 1).nat (Od.entryState 0 1) = 3 := by
  decide +kernel

/-! ### Single steps -/

/-- What holds of the state that a command leaves, where it leaves one. -/
def after (i : Instr) (s : Machine.State) (p : Machine.State → Bool) : Bool :=
  match exec i s with
  | .next t => p t
  | .fault _ => false
  | .refused _ => false

/-- CAN0 with `NodeId` 32 and an Observer session (chapter 5, worked example). -/
def shelf : Machine.State :=
  ((ready.setCanPort 0 { ready.canPort 0 with started := true }).setSession 6 { session 1 0 with transport := 3 }).setN (Od.nodeId 0) 32

/-- Steps 1 and 2: the selector write is confirmed on 0x5A0 and selects instance 1,500. -/
theorem test_sdoSelector :
    after (.sdoDownloadInitiate 0 { cobId := 0x620 } 0x1F10 1 (some 4) true [0xDC, 5, 0, 0]) shelf (fun t =>
      t.outbox == [.can 0 0x5A0 false [0x60, 0x10, 0x1F, 1, 0, 0, 0, 0]] && (t.session 6).canInst == 1500) = true := by decide +kernel

/-- Steps 3 and 4: `IngressFill` of tray 1,500 is uploaded. -/
theorem test_sdoUpload :
    after (.sdoUploadInitiate 0 { cobId := 0x620 } 0x2041 1) (((shelf.setSession 6 { shelf.session 6 with canInst := 1500 }).setN (Od.ingressFill 1500) 4608).setN (Od.clientType 1500) 10) (fun t =>
      t.outbox == [.can 0 0x5A0 false [0x43, 0x41, 0x20, 1, 0, 0x12, 0, 0]]) = true := by decide +kernel

/-- R13: a value out of range gets `OD_RANGE`, and nothing is stored. -/
theorem test_writeRange :
    after (.objectWrite 0 [⟨0x2022, 0, 2, [200]⟩]) ready (fun t => t.nat Od.safeJunction == 100 && (t.session 0).lastStatus == 6) = true := by
  decide +kernel

theorem test_writeStored : after (.objectWrite 0 [⟨0x2022, 0, 2, [98]⟩]) ready (fun t => t.nat Od.safeJunction == 98) = true := by decide +kernel

/-- R107: an Operator claims group 17. -/
theorem test_claim :
    after (.ownershipClaim 2 17) ready (fun t => t.nat (Od.owner 17) == 2) = true := by decide +kernel

/-- Chapter 3: the supplies. -/
theorem test_aux3v3 : after (.aux3v3InRange []) State.reset (fun t => t.pins.aux3v3) = true := by decide +kernel
theorem test_powerOnReset : State.reset.boot.st = .off ∧ State.reset.pending = [] := by decide

/-- No word spells a command. -/
theorem test_noWord : decodeTableWord 16 0 = none := by decide

/-- A command whose unit does not exist stops the model by name. -/
theorem test_noSuchUnit :
    (match exec (.launchRampDone 64) ready with | .fault .noSuchUnit => true | .next _ => false | .refused _ => false) = true := by
  decide +kernel

/-- Chapter 17, worked example, steps 1 and 2: `LOS_SIGNAL` of CE19 raises ALM of entry 0x0_1013 and sends an EMCY on CAN0. -/
theorem test_losSignalStep :
    after (.losSignalTimer 19 true 0xC1F00000) (shelf.setB (Od.carrierEnable 19) true) (fun t =>
      decide (128 ≤ statusByte t 0x1013) && (t.source 0x0A61).st == 2
        && t.outbox.any fun m => match m with
          | .can p id _ d => p == 0 && id == 0xA0 && d.take 2 == [0, 0xFF] && (d.drop 3).take 4 == [0x61, 0x0A, 1, 4]
          | _ => false) = true := by decide +kernel

/-- The module in `READY` with one connection, on management port 0; and with a Sehal session on it, that of slot 0. -/
def connected (phase : ConnPhase) (slot : Nat) : Conn := { id := 10, port := 0, phase := phase, cookie := 7, slot := slot }
def calling (phase : ConnPhase) : Machine.State := ready.setConn (connected phase 255)
def served : Machine.State := ready.setConn (connected .sessionOpen 0)
def reading : BlockXfer := ⟨0x3121, 0, 0, false, 4, [1, 2, 3, 4], []⟩
def writing : BlockXfer := ⟨0x5102, 0, 0, true, 4, [], [(0, [1, 2, 3, 4])]⟩
def transferring (b : BlockXfer) : Machine.State := served.setSession 0 { served.session 0 with block := some b }

theorem inTurn_of {s : Machine.State} {conn : Nat} {h : SehalHdr} {c : Conn}
    (g : s.conn? conn = some c ∧ portOn s c.port = true ∧ c.phase = .sessionOpen ∧ (s.session c.slot).isOpen = true
      ∧ h.seq = (s.session c.slot).nextSeq ∧ (s.session c.slot).buffered = [] ∧ h.flags < 2 ∧ h.deadDie = none) : InTurn s conn h c :=
  ⟨g.1, g.2.1, g.2.2.1, g.2.2.2.1, g.2.2.2.2.1, g.2.2.2.2.2.1, g.2.2.2.2.2.2.1, g.2.2.2.2.2.2.2⟩

/-- The key and the signature of the message "sample" of RFC 6979, A.2.6 (P-384, SHA-384). -/
def rfcPoint : Bytes :=
  0x04 :: beBytes 48 0xEC3A4E415B4E19A4568618029F427FA5DA9A8BC4AE92E02E06AAE5286B300C64DEF8F0EA9055866064A254515480BC13
    ++ beBytes 48 0x8015D9B72D7D57244EA8EF9AC0C621896708A59367F9DFB9F54CA84B3F1C9DB1288B231C3AE0D4FE7344FD2533264720
def rfcProof : ClientProof :=
  { spki := spkiHeader ++ rfcPoint
    signed := [0x73, 0x61, 0x6D, 0x70, 0x6C, 0x65]
    r := 0x94EDBB92A5ECB8AAD4736E56C691916B3F88140666CE9FA73D64C4EA95AD133C81A648152E44ACF96E36DD1E80FABE46
    s := 0x99EF4AEB15F178CEA1FE40DB2603138F130E740A19624526203B6351D0A3A94FA329C145786E679E7B82C71A38628AC8 }

theorem test_proofOk : proofOk rfcProof = true := by decide +kernel

/-- The same signature over another message does not verify. -/
theorem test_proofForged : proofOk { rfcProof with signed := [0x74] } = false := by decide +kernel

/-- Identity entry 3 holds the key above. -/
def knowing : Machine.State :=
  (calling .handshaking).setVal (Od.keyHash 3) (.o (sha384 rfcProof.spki)) |>.setN (Od.identityEntryEnabled 3) 1

/-- Management port 0 at 10.0.0.7. -/
def addressed : Machine.State := ready.setMgmtPort 0 { conf := { ipv4 := [10, 0, 0, 7] } }

/-- CAN0 with `NodeId` 32 and the session of an Operator. -/
def officer : Machine.State := shelf.setSession 6 { session 2 0 with transport := 3 }

/-- A carrier in `ALIGN` whose layout has subcarrier 0 alone, uniform, and a block that carries the fixed part of block 5. -/
def hunting : Machine.State :=
  let s := ((ready.setB (Od.carrierEnable 0) true).setN (Od.rxState 0) 2).setN (Od.alignState 0) 1
  s.setKlfRx 0 { s.klfRx 0 with record := layoutRecord (fmtOf s 0) 0 [144] }
def opening : DecodedBlock :=
  { coded := (chunked 2 (bitsOf 568 ({ counter := 5 } : Fixed).encode)).flatMap (false :: ·)
    bad := [], frame := true, clients := [], rxFill := 0, overrun := false, delays := [] }

/-- Port 0 with `k` carriers long in `TRACK`; with the four of them joined; and a carrier in `TRACK` where joint recovery is off. -/
def joint (k : Nat) : Machine.State :=
  (List.range k).foldl (fun s j => (s.setN (Od.rxState j) 3).setEngine j { s.engine j with trackSince := some 0 }) { ready with uptime := 1000000000 }
def joined : Machine.State := (List.range 4).foldl (fun s j => s.setN (Od.lineState j) 1) ((joint 4).setN (Od.memberMask 0) 15)
def alone : Machine.State := (ready.setN (Od.rxState 0) 3).setB (Od.jointEnable 0) false

/-- A burst header with its CRC, and the LLRs of a header received without noise. -/
def headed (v : Nat) : Nat := v * 65536 + crc16 80 v
def softOf (header : Nat) : List Int := (headerCoded (bitsOf 96 header)).flatMap fun p => [if p.1 then -1 else 1, if p.2 then -1 else 1]

theorem witness_StepRunsTheFrontCommand :
    (∃ (c : Instr) (rest : List Instr) (s : Machine.State), s.pending = c :: rest)
    ∧ (∃ (s : Machine.State), s.pending = []) :=
  ⟨⟨(.aux3v3InRange [] : Instr), ([] : List Instr), (let s := ready; { s with pending := (.aux3v3InRange [] : Instr) :: ([] : List Instr) }), by
      decide +kernel⟩,
    ⟨(let s := ready; { s with pending := [] }), by decide +kernel⟩⟩

theorem witness_ResetLeavesTheDefaults :
    (∃ (j : Nat), j < 64)
    ∧ (∃ (g : Nat), g < 4164)
    ∧ (∃ (n : Nat), n < 64) :=
  ⟨⟨0, by decide +kernel⟩,
    ⟨0, by decide +kernel⟩,
    ⟨0, by decide +kernel⟩⟩

theorem witness_EveryStepKeepsTheStateTidy :
    (∃ (s : Machine.State) (t : Machine.State), Tidy s ∧ step s = Host.Outcome.next t) :=
  ⟨ready, idleTick ready, tidy_ready, idle_ready⟩

theorem witness_SuppliesStartAndStopTheModule_1 :
    (∃ (s : Machine.State), s.pins.aux3v3 = true)
    ∧ (∃ (s : Machine.State), s.boot.fwStarting = true ∧ s.boot.resetting ≠ ResetKind.management ∧ s.pins.pwrEn = false)
    ∧ (∃ (s : Machine.State), s.boot.fwStarting = true ∧ s.boot.running < 2 ∧ slotUsable (s.setSlotState s.boot.running 1) (1 - s.boot.running) = true)
    ∧ (∃ (s : Machine.State), s.pins.aux3v3 = true ∧ s.pins.pwrEn = false ∧ s.boot.fwReady = true ∧ s.boot.needNegate = false ∧ s.boot.recovery = false ∧
      s.boot.st = ModState.standby ∧ s.boot.step = BootStep.none ∧ s.boot.railsOn = false ∧ s.boot.afterTrip = false ∧ s.pins.vin12 = VinBand.inRange) :=
  ⟨⟨(let s := ready; { s with pins := { s.pins with aux3v3 := true } }), by decide +kernel⟩,
    ⟨(let s := ready; let s := { s with boot := { s.boot with fwStarting := true } }; { s with pins := { s.pins with pwrEn := false } }), by decide +kernel⟩,
    ⟨(let s := ready; let s := { s with boot := { s.boot with fwStarting := true } };
      { s with flash := { s.flash with copy0 := { s.flash.copy0 with slotA := { st := 4 }, slotB := { st := 2 } }, copy1 := { s.flash.copy1 with slotA := { st := 4 }, slotB := { st := 2 } } } }),
      by decide +kernel⟩,
    ⟨(let s := ready; let s := { s with pins := { s.pins with aux3v3 := true } }; let s := { s with pins := { s.pins with pwrEn := false } };
      let s := { s with boot := { s.boot with fwReady := true } }; let s := { s with boot := { s.boot with needNegate := false } };
      let s := { s with boot := { s.boot with recovery := false } }; let s := { s with boot := { s.boot with st := ModState.standby } };
      let s := { s with boot := { s.boot with step := BootStep.none } }; let s := { s with boot := { s.boot with railsOn := false } };
      let s := { s with boot := { s.boot with afterTrip := false } }; { s with pins := { s.pins with vin12 := VinBand.inRange } }), by decide +kernel⟩⟩

theorem witness_SuppliesStartAndStopTheModule_2 :
    (∃ (s : Machine.State), s.pins.aux3v3 = true ∧ s.pins.pwrEn = false ∧ s.boot.fwReady = true ∧ s.boot.needNegate = false ∧ s.boot.recovery = false ∧
      s.boot.st = ModState.standby ∧ s.boot.step = BootStep.none ∧ s.boot.railsOn = false ∧ s.boot.afterTrip = false ∧ s.pins.vin12 = VinBand.low)
    ∧ (∃ (s : Machine.State), s.pins.aux3v3 = true ∧ s.pins.pwrEn = false ∧ s.boot.fwReady = true ∧ s.boot.needNegate = false ∧ s.boot.recovery = false ∧
      s.boot.st = ModState.standby ∧ s.boot.step = BootStep.none ∧ s.boot.railsOn = false ∧ s.boot.afterTrip = false ∧ s.pins.vin12 = VinBand.high)
    ∧ (∃ (s : Machine.State), s.boot.vinWait = false)
    ∧ (∃ (s : Machine.State), s.pins.aux3v3 = true ∧ s.boot.vinWait = true ∧ s.pins.pwrEn = true ∧ s.boot.fwReady = true ∧ s.boot.needNegate = false ∧
      s.boot.recovery = false ∧ s.boot.st = ModState.standby ∧ s.boot.step = BootStep.none ∧ s.boot.railsOn = false ∧ s.boot.afterTrip = false)
    ∧ (∃ (s : Machine.State), s.boot.step = BootStep.rails)
    ∧ (∃ (s : Machine.State), s.boot.railsOn = true ∧ s.pins.pwrgd = false ∧ s.pins.pwrEn = false) :=
  ⟨⟨(let s := ready; let s := { s with pins := { s.pins with aux3v3 := true } }; let s := { s with pins := { s.pins with pwrEn := false } };
      let s := { s with boot := { s.boot with fwReady := true } }; let s := { s with boot := { s.boot with needNegate := false } };
      let s := { s with boot := { s.boot with recovery := false } }; let s := { s with boot := { s.boot with st := ModState.standby } };
      let s := { s with boot := { s.boot with step := BootStep.none } }; let s := { s with boot := { s.boot with railsOn := false } };
      let s := { s with boot := { s.boot with afterTrip := false } }; { s with pins := { s.pins with vin12 := VinBand.low } }), by decide +kernel⟩,
    ⟨(let s := ready; let s := { s with pins := { s.pins with aux3v3 := true } }; let s := { s with pins := { s.pins with pwrEn := false } };
      let s := { s with boot := { s.boot with fwReady := true } }; let s := { s with boot := { s.boot with needNegate := false } };
      let s := { s with boot := { s.boot with recovery := false } }; let s := { s with boot := { s.boot with st := ModState.standby } };
      let s := { s with boot := { s.boot with step := BootStep.none } }; let s := { s with boot := { s.boot with railsOn := false } };
      let s := { s with boot := { s.boot with afterTrip := false } }; { s with pins := { s.pins with vin12 := VinBand.high } }), by decide +kernel⟩,
    ⟨(let s := ready; { s with boot := { s.boot with vinWait := false } }), by decide +kernel⟩,
    ⟨(let s := ready; let s := { s with pins := { s.pins with aux3v3 := true } }; let s := { s with boot := { s.boot with vinWait := true } };
      let s := { s with pins := { s.pins with pwrEn := true } }; let s := { s with boot := { s.boot with fwReady := true } };
      let s := { s with boot := { s.boot with needNegate := false } }; let s := { s with boot := { s.boot with recovery := false } };
      let s := { s with boot := { s.boot with st := ModState.standby } }; let s := { s with boot := { s.boot with step := BootStep.none } };
      let s := { s with boot := { s.boot with railsOn := false } }; { s with boot := { s.boot with afterTrip := false } }), by decide +kernel⟩,
    ⟨(let s := ready; { s with boot := { s.boot with step := BootStep.rails } }), by decide +kernel⟩,
    ⟨(let s := ready; let s := { s with boot := { s.boot with railsOn := true } }; let s := { s with pins := { s.pins with pwrgd := false } };
      { s with pins := { s.pins with pwrEn := false } }), by decide +kernel⟩⟩

theorem witness_SuppliesStartAndStopTheModule_3 :
    (∃ (s : Machine.State) (spoiled : List Nat), s.pins.aux3v3 = false ∧ s.pins.resetN = true ∧
      slotUsable (slotsSpoiled s spoiled) (slotsSpoiled s spoiled).record.preferred = true)
    ∧ (∃ (s : Machine.State), (s.pins.aux3v3 = false ∨ s.boot.recovery = true) ∧ s.pins.pwrEn = false)
    ∧ (∃ (s : Machine.State), s.pins.aux3v3 = true ∧ s.boot.vinWait = true ∧ s.pins.pwrEn = true ∧ s.boot.fwReady = true ∧ s.boot.needNegate = false ∧
      s.boot.recovery = false ∧ s.boot.st = .standby ∧ s.boot.step = .none ∧ s.boot.railsOn = false ∧ s.boot.afterTrip = false ∧
      s.boot.pwrIgnored = false) :=
  ⟨⟨(let s := ready; { s with pins := { s.pins with aux3v3 := false } }), [1], by decide +kernel⟩,
    ⟨(let s := ready; let s := { s with boot := { s.boot with recovery := true } }; { s with pins := { s.pins with pwrEn := false } }),
      by decide +kernel⟩,
    ⟨(let s := standby; let s := { s with boot := { s.boot with vinWait := true } }; { s with pins := { s.pins with pwrEn := true } }),
      by decide +kernel⟩⟩

theorem witness_RailLossAndFullResetClearTheDies :
    (∃ (s : Machine.State), s.pins.aux3v3 = true ∧ s.boot.resetting = ResetKind.full ∧ slotUsable s s.record.preferred = true)
    ∧ (∃ (s : Machine.State) (k : Nat), Admits s k Od.resetCommand 2 ∧ slotUsable s s.record.preferred = true) :=
  ⟨⟨(let s := ready; let s := { s with pins := { s.pins with aux3v3 := true } }; { s with boot := { s.boot with resetting := ResetKind.full } }), by decide +kernel⟩,
    ⟨ready, 0, admits_of (by decide +kernel) (by decide +kernel), by decide +kernel⟩⟩

theorem witness_RailLossAndFullResetClearTheDies_2 :
    (∃ (s : Machine.State) (spoiled : List Nat), s.pins.aux3v3 = true ∧ s.boot.resetting = .full ∧
      slotUsable (slotsSpoiled s spoiled) (slotsSpoiled s spoiled).record.preferred = true)
    ∧ (∃ (spoiled : List Nat) (i : Nat), i < 2 ∧ i ∈ spoiled) :=
  ⟨⟨(let s := ready; { s with boot := { s.boot with resetting := .full } }), [1], by decide +kernel⟩,
    ⟨[0, 1], 1, by decide +kernel⟩⟩

theorem witness_BootAndCalibrationRunTheirSteps_1 :
    (∃ (s : Machine.State), s.boot.step = BootStep.streaming)
    ∧ (∃ (s : Machine.State), s.boot.step = BootStep.linkTraining)
    ∧ (∃ (s : Machine.State), s.boot.step = BootStep.stockpot)
    ∧ (∃ (s : Machine.State), s.boot.step = BootStep.config)
    ∧ (∃ (s : Machine.State), s.boot.step = BootStep.powerUp)
    ∧ (∃ (s : Machine.State) (n : Nat) (r : CalResult), n < 64 ∧ s.nat (Od.calState n) = 1 ∧ (s.engine n).calStep = 3 ∧ r.ok = true) :=
  ⟨⟨(let s := ready; { s with boot := { s.boot with step := BootStep.streaming } }), by decide +kernel⟩,
    ⟨(let s := ready; { s with boot := { s.boot with step := BootStep.linkTraining } }), by decide +kernel⟩,
    ⟨(let s := ready; { s with boot := { s.boot with step := BootStep.stockpot } }), by decide +kernel⟩,
    ⟨(let s := ready; { s with boot := { s.boot with step := BootStep.config } }), by decide +kernel⟩,
    ⟨(let s := ready; { s with boot := { s.boot with step := BootStep.powerUp } }), by decide +kernel⟩,
    ⟨(let s := ready; let s := s.setN (Od.calState 0) 1; s.setEngine 0 { (s.engine 0) with calStep := 3 }), 0,
      ({ ({ ok := false, spur := 0, power := 0, offset := 0, bias := [], gains := [], skew := [], txSkew := [], taps := [], txTaps := [] } : CalResult) with ok := true } :
      CalResult), by decide +kernel⟩⟩

theorem witness_BootAndCalibrationRunTheirSteps_2 :
    (∃ (s : Machine.State) (n : Nat) (r : CalResult), n < 64 ∧ s.nat (Od.calState n) = 1 ∧ 1 ≤ (s.engine n).calStep ∧ (s.engine n).calStep ≤ 5 ∧ r.ok =
      false)
    ∧ (∃ (s : Machine.State) (n : Nat), n < 64 ∧ s.nat (Od.calState n) = 1 ∧ 6 ≤ (s.engine n).calStep ∧ s.nat (Od.calFailStep n) ≠ 0 ∧ s.boot.st ≠
      ModState.calibrate ∧ s.boot.st ≠ ModState.ready ∧ s.boot.st ≠ ModState.traffic)
    ∧ (∃ (s : Machine.State) (n : Nat), n < 64 ∧ s.nat (Od.calState n) = 1 ∧ (s.engine n).calStep = 6 ∧ s.nat (Od.calFailStep n) = 0 ∧ s.nat (Od.lineState
      n) = 1 ∧ s.boot.st = ModState.calibrate)
    ∧ (∃ (s : Machine.State) (n : Nat), n < 64 ∧ (s.engine n).heldEnable = true ∧ s.nat (Od.calState n) = 2 ∧ s.engineUp n = true ∧ (s.boot.st =
      ModState.ready ∨ s.boot.st = ModState.traffic))
    ∧ (∃ (s : Machine.State) (n : Nat), n < 64 ∧ s.nat (Od.calState n) = 3 ∧ s.engineUp n = true ∧ s.beforeCalibrate = false)
    ∧ (∃ (s : Machine.State) (k : Nat) (n : Nat), Admits s k (Od.recalibrate n) 1 ∧ n < 64 ∧ s.nat (Od.calState n) ≠ 1 ∧ s.flag (Od.carrierEnable n) = false
      ∧ s.engineUp n = true) :=
  ⟨⟨(let s := ready; let s := s.setN (Od.calState 0) 1; s.setEngine 0 { (s.engine 0) with calStep := 1 }), 0,
      ({ ({ ok := false, spur := 0, power := 0, offset := 0, bias := [], gains := [], skew := [], txSkew := [], taps := [], txTaps := [] } : CalResult) with ok := false } :
      CalResult), by decide +kernel⟩,
    ⟨(let s := ready; let s := s.setN (Od.calState 0) 1; let s := s.setEngine 0 { (s.engine 0) with calStep := 6 }; let s := s.setN (Od.calFailStep 0) 1;
      let s := { s with boot := { s.boot with st := ModState.ready } }; { s with boot := { s.boot with st := ModState.standby } }), 0, by decide +kernel⟩,
    ⟨(let s := ready; let s := s.setN (Od.calState 0) 1; let s := s.setEngine 0 { (s.engine 0) with calStep := 6 }; let s := s.setN (Od.calFailStep 0) 0;
      let s := s.setN (Od.lineState 0) 1; { s with boot := { s.boot with st := ModState.calibrate } }), 0, by decide +kernel⟩,
    ⟨(let s := ready; let s := s.setEngine 0 { (s.engine 0) with heldEnable := true }; let s := s.setN (Od.calState 0) 2;
      let s := s.setN (Od.powerState 0) 2; { s with boot := { s.boot with st := ModState.ready } }), 0, by decide +kernel⟩,
    ⟨(let s := ready; let s := s.setN (Od.calState 0) 3; s.setN (Od.powerState 0) 2), 0, by decide +kernel⟩,
    ⟨(let s := ready; let s := s.setN (Od.calState 0) 0; let s := s.setB (Od.carrierEnable 0) false; s.setN (Od.powerState 0) 2), 0, 0, admits_of (by
      decide +kernel) (by decide +kernel), by decide +kernel⟩⟩

theorem witness_BootAndCalibrationRunTheirSteps_3 :
    (∃ (s : Machine.State) (k : Nat) (n : Nat), Admits s k (Od.recalibrate n) 1 ∧ s.nat (Od.calState n) ≠ 1 ∧ (s.flag (Od.carrierEnable n) = true ∨
      s.engineUp n = false))
    ∧ (∃ (n : Nat), n < 64) :=
  ⟨⟨(let s := ready; let s := s.setN (Od.calState 0) 0; s.setB (Od.carrierEnable 0) true), 0, 0, admits_of (by decide +kernel) (by decide +kernel), by decide +kernel⟩,
    ⟨0, by decide +kernel⟩⟩

theorem witness_BootAndCalibrationRunTheirSteps_4 :
    (∃ (s : Machine.State) (n : Nat) (power : F32), n < 64 ∧ s.nat (Od.calState n) = 3 ∧ s.engineUp n = true ∧ s.beforeCalibrate = false ∧
      f32GeRat power (-4) 1 = true) :=
  ⟨(let s := ready; s.setN (Od.calState 0) 3), 0, 0xC0800000, by decide +kernel⟩

theorem witness_ManagementAndUnitResetsKeepTheRest_1 :
    (∃ (s : Machine.State) (k : Nat) (st : Status), Admits s k Od.resetCommand 1 ∧ resetRefusal s = some st)
    ∧ (∃ (s : Machine.State) (k : Nat) (n : Nat), Admits s k (Od.engineReset n) 1 ∧ s.engineUp n = true ∧ (s.engine n).resetting = false ∧ s.armed n =
      false)
    ∧ (∃ (s : Machine.State) (k : Nat) (n : Nat), Admits s k (Od.engineReset n) 1 ∧ s.engineUp n = false)
    ∧ (∃ (s : Machine.State) (k : Nat) (n : Nat), Admits s k (Od.engineReset n) 1 ∧ s.engineUp n = true ∧ (s.engine n).resetting = false ∧ s.armed n = true) :=
  ⟨⟨(let s := ready; s.setEngine 5 { s.engine 5 with resetting := true }), 0, (.busy : Status), admits_of (by decide +kernel) (by decide +kernel), by
      decide +kernel⟩,
    ⟨(let s := ready; let s := s.setN (Od.powerState 0) 2; let s := s.setEngine 0 { (s.engine 0) with resetting := false };
      s.setN (Od.commitStatusState 0) 0), 0, 0, admits_of (by decide +kernel) (by decide +kernel), by decide +kernel⟩,
    ⟨(let s := ready; s.setN (Od.powerState 0) 0), 0, 0, admits_of (by decide +kernel) (by decide +kernel), by decide +kernel⟩,
    ⟨(let s := ready; let s := s.setN (Od.powerState 0) 2; let s := s.setEngine 0 { (s.engine 0) with resetting := false };
      s.setN (Od.commitStatusState 0) 1), 0, 0, admits_of (by decide +kernel) (by decide +kernel), by decide +kernel⟩⟩

theorem witness_ManagementAndUnitResetsKeepTheRest_2 :
    (∃ (s : Machine.State) (n : Nat), n < 64 ∧ (s.engine n).resetting = true ∧ (s.domain n).waiting = false)
    ∧ (∃ (s : Machine.State) (k : Nat) (g : Nat), Admits s k (Od.laneGroupReset g) 1 ∧ s.domUp (domLaneGroup g) = true)
    ∧ (∃ (s : Machine.State) (k : Nat) (g : Nat), Admits s k (Od.laneGroupReset g) 1 ∧ s.domUp (domLaneGroup g) = false) :=
  ⟨⟨(let s := ready; let s := s.setEngine 0 { (s.engine 0) with resetting := true }; s.setDomain 0 { (s.domain 0) with waiting := false }), 0, by decide +kernel⟩,
    ⟨(let s := ready; s.setN (Od.powerState (domLaneGroup 0)) 2), 0, 0, admits_of (by decide +kernel) (by decide +kernel), by decide +kernel⟩,
    ⟨(let s := ready; s.setN (Od.powerState (domLaneGroup 0)) 0), 0, 0, admits_of (by decide +kernel) (by decide +kernel), by decide +kernel⟩⟩

theorem witness_ManagementAndUnitResetsKeepTheRest_3 :
    (∃ (s : Machine.State) (k : Nat), Admits s k Od.resetCommand 1 ∧ resetRefusal s = none ∧ slotUsable s s.boot.running = true)
    ∧ (∃ (s : Machine.State), s.boot.resetting = .management ∧ s.boot.fwStarting = true ∧ (s.pins.pwrEn = false ∨ s.boot.st ≠ .standby))
    ∧ (∃ (s : Machine.State), s.boot.resetting = .management ∧ s.boot.fwStarting = true ∧ s.boot.retryBoot = true ∧ s.pins.pwrEn = true ∧
      s.boot.st = .standby ∧ s.boot.step = .none ∧ s.boot.needNegate = false ∧ s.boot.recovery = false ∧ s.boot.pwrIgnored = false ∧
      s.boot.railsOn = false ∧ s.boot.afterTrip = false ∧ s.pins.vin12 = .inRange) :=
  ⟨⟨ready, 0, admits_of (by decide +kernel) (by decide +kernel), by decide +kernel⟩,
    ⟨(let s := ready; { s with boot := { s.boot with resetting := .management, fwStarting := true } }), by decide +kernel⟩,
    ⟨(let s := standby; let s := { s with boot := { s.boot with resetting := .management, fwStarting := true, retryBoot := true } };
      { s with pins := { s.pins with pwrEn := true } }), by decide +kernel⟩⟩

theorem witness_ConfigurationAndFirmwareAreKept_1 :
    (∃ (s : Machine.State) (k : Nat), Admits s k Od.configCommand 1 ∧ configState s = true)
    ∧ (∃ (s : Machine.State) (k : Nat), Admits s k Od.configCommand 2 ∧ configState s = true)
    ∧ (∃ (s : Machine.State) (k : Nat), configState s = false ∧ Admits s k Od.configCommand 1)
    ∧ (∃ (s : Machine.State) (k : Nat), configState s = false ∧ Admits s k Od.configCommand 2)
    ∧ (∃ (s : Machine.State) (k : Nat) (security : Nat), Admits s k Od.firmwareCommand 1 ∧ s.boot.imageWriting = false ∧ s.boot.running < 2 ∧ (s.slot (1 -
      s.boot.running)).st ≠ 0 ∧ (s.slot (1 - s.boot.running)).st ≠ 4 ∧ s.boot.antiRollback ≤ security) :=
  ⟨⟨ready, 0, admits_of (by decide +kernel) (by decide +kernel), by decide +kernel⟩,
    ⟨ready, 0, admits_of (by decide +kernel) (by decide +kernel), by decide +kernel⟩,
    ⟨{ ready with boot := { ready.boot with st := .safe } }, 0, by decide +kernel, admits_of (by decide +kernel) (by decide +kernel)⟩,
    ⟨{ ready with boot := { ready.boot with st := .safe } }, 0, by decide +kernel, admits_of (by decide +kernel) (by decide +kernel)⟩,
    ⟨(let s := ready; let s := { s with boot := { s.boot with imageWriting := false } };
      { s with flash := { s.flash with copy0 := { s.flash.copy0 with slotA := { st := 4 }, slotB := { st := 1 } }, copy1 := { s.flash.copy1 with slotA := { st := 4 }, slotB := { st := 1 } } } }),
      0, 0, admits_of (by decide +kernel) (by decide +kernel), by decide +kernel⟩⟩

theorem witness_ConfigurationAndFirmwareAreKept_2 :
    (∃ (s : Machine.State) (k : Nat), Admits s k Od.firmwareCommand 3 ∧ s.boot.running < 2 ∧ (s.slot s.boot.running).st = 3 ∧ s.boot.recovery = false ∧ 2
      ≤ (s.slot (1 - s.boot.running)).st)
    ∧ (∃ (s : Machine.State) (k : Nat), Admits s k Od.firmwareCommand 4 ∧ s.boot.running < 2 ∧ ((s.slot (1 - s.boot.running)).st = 2 ∨ (s.slot (1 -
      s.boot.running)).st = 4))
    ∧ (∃ (s : Machine.State), s.boot.trialRunning = true ∧ s.boot.running < 2) :=
  ⟨⟨(let s := ready; let s := { s with boot := { s.boot with recovery := false } };
      { s with flash := { s.flash with copy0 := { s.flash.copy0 with slotA := { st := 3 }, slotB := { st := 2 } }, copy1 := { s.flash.copy1 with slotA := { st := 3 }, slotB := { st := 2 } } } }),
      0, admits_of (by decide +kernel) (by decide +kernel), by decide +kernel⟩,
    ⟨(let s := ready;
      { s with flash := { s.flash with copy0 := { s.flash.copy0 with slotA := { st := 4 }, slotB := { st := 2 } }, copy1 := { s.flash.copy1 with slotA := { st := 4 }, slotB := { st := 2 } } } }),
      0, admits_of (by decide +kernel) (by decide +kernel), by decide +kernel⟩,
    ⟨(let s := ready; { s with boot := { s.boot with trialRunning := true } }), by decide +kernel⟩⟩

theorem witness_ConfigurationAndFirmwareAreKept_3 :
    (∃ (s : Machine.State) (k : Nat), Admits s k Od.firmwareCommand 2 ∧ s.boot.running < 2 ∧ (s.slot (1 - s.boot.running)).st = 2 ∧
      resetRefusal s = none ∧ slotUsable s (1 - s.boot.running) = true)
    ∧ (∃ (s : Machine.State), s.boot.trialDeferred = true ∧ s.boot.running < 2 ∧ resetRefusal s = none ∧ slotUsable s (1 - s.boot.running) = true) :=
  ⟨⟨(let s := ready;
      { s with flash := { s.flash with copy0 := { s.flash.copy0 with slotB := { st := 2 } }, copy1 := { s.flash.copy1 with slotB := { st := 2 } } } }),
      0, admits_of (by decide +kernel) (by decide +kernel), by decide +kernel⟩,
    ⟨(let s := ready; let s := { s with boot := { s.boot with trialDeferred := true } };
      { s with flash := { s.flash with copy0 := { s.flash.copy0 with slotB := { st := 2 } }, copy1 := { s.flash.copy1 with slotB := { st := 2 } } } }),
      by decide +kernel⟩⟩

theorem witness_ClaimsAndSessionsAreGivenAndEnd_1 :
    (∃ (s : Machine.State) (k : Nat) (x : Nat), Admits s k (Od.ownershipCommand x) 1 ∧ groupArmed s x = false ∧ s.nat (Od.owner x) = 255)
    ∧ (∃ (s : Machine.State) (k : Nat) (x : Nat), Admits s k (Od.ownershipCommand x) 1 ∧ groupArmed s x = false ∧ s.nat (Od.owner x) = k)
    ∧ (∃ (s : Machine.State) (k : Nat) (x : Nat), Admits s k (Od.ownershipCommand x) 1 ∧ groupArmed s x = false ∧ s.nat (Od.owner x) ≠ 255 ∧ s.nat (Od.owner
      x) ≠ k)
    ∧ (∃ (s : Machine.State) (k : Nat) (x : Nat), Admits s k (Od.ownershipCommand x) 1 ∧ groupArmed s x = true)
    ∧ (∃ (s : Machine.State) (k : Nat) (x : Nat), Admits s k (Od.ownershipCommand x) 2 ∧ groupArmed s x = false ∧ s.nat (Od.owner x) = k)
    ∧ (∃ (s : Machine.State) (k : Nat) (x : Nat), Admits s k (Od.ownershipCommand x) 2 ∧ groupArmed s x = false ∧ s.nat (Od.owner x) = 255) :=
  ⟨⟨(let s := ready; s.setN (Od.owner 0) 255), 0, 0, admits_of (by decide +kernel) (by decide +kernel), by decide +kernel⟩,
    ⟨(let s := ready; s.setN (Od.owner 0) 0), 0, 0, admits_of (by decide +kernel) (by decide +kernel), by decide +kernel⟩,
    ⟨(let s := ready; let s := s.setN (Od.owner 0) 0; s.setN (Od.owner 0) (0 + 7)), 0, 0, admits_of (by decide +kernel) (by decide +kernel), by decide +kernel⟩,
    ⟨(let s := ready; s.setN (Od.commitStatusState 0) 1), 0, 0, admits_of (by decide +kernel) (by decide +kernel), by decide +kernel⟩,
    ⟨(let s := ready; s.setN (Od.owner 0) 0), 0, 0, admits_of (by decide +kernel) (by decide +kernel), by decide +kernel⟩,
    ⟨(let s := ready; s.setN (Od.owner 0) 255), 0, 0, admits_of (by decide +kernel) (by decide +kernel), by decide +kernel⟩⟩

theorem witness_ClaimsAndSessionsAreGivenAndEnd_2 :
    (∃ (s : Machine.State) (k : Nat) (x : Nat), Admits s k (Od.ownershipCommand x) 2 ∧ groupArmed s x = false ∧ s.nat (Od.owner x) ≠ 255 ∧ s.nat (Od.owner
      x) ≠ k)
    ∧ (∃ (s : Machine.State) (k : Nat) (x : Nat), Admits s k (Od.ownershipCommand x) 2 ∧ groupArmed s x = true)
    ∧ (∃ (s : Machine.State) (k : Nat) (x : Nat), Admits s k (Od.ownershipCommand x) 3 ∧ groupArmed s x = false ∧ s.nat (Od.owner x) ≠ 255 ∧ s.nat (Od.owner
      x) ≠ k)
    ∧ (∃ (s : Machine.State) (k : Nat) (x : Nat), Admits s k (Od.ownershipCommand x) 3 ∧ groupArmed s x = false ∧ s.nat (Od.owner x) = 255)
    ∧ (∃ (s : Machine.State) (k : Nat) (x : Nat), Admits s k (Od.ownershipCommand x) 3 ∧ groupArmed s x = true)
    ∧ (∃ (s : Machine.State) (k : Nat), Admits s k Od.releaseMine 1 ∧ (claimsOf s k).any (groupArmed s) = false) :=
  ⟨⟨(let s := ready; let s := s.setN (Od.owner 0) 0; s.setN (Od.owner 0) (0 + 7)), 0, 0, admits_of (by decide +kernel) (by decide +kernel), by decide +kernel⟩,
    ⟨(let s := ready; s.setN (Od.commitStatusState 0) 1), 0, 0, admits_of (by decide +kernel) (by decide +kernel), by decide +kernel⟩,
    ⟨(let s := ready; let s := s.setN (Od.owner 0) 0; s.setN (Od.owner 0) (0 + 7)), 0, 0, admits_of (by decide +kernel) (by decide +kernel), by decide +kernel⟩,
    ⟨(let s := ready; s.setN (Od.owner 0) 255), 0, 0, admits_of (by decide +kernel) (by decide +kernel), by decide +kernel⟩,
    ⟨(let s := ready; s.setN (Od.commitStatusState 0) 1), 0, 0, admits_of (by decide +kernel) (by decide +kernel), by decide +kernel⟩,
    ⟨ready, 0, admits_of (by decide +kernel) (by decide +kernel), by decide +kernel⟩⟩

theorem witness_ClaimsAndSessionsAreGivenAndEnd_3 :
    (∃ (s : Machine.State) (k : Nat), Admits s k Od.releaseMine 1 ∧ (claimsOf s k).any (groupArmed s) = true)
    ∧ (∃ (s : Machine.State) (k : Nat) (x : Nat), Admits s k (Od.closeSession x) 1 ∧ (x = k ∨ (s.session k).role = 3))
    ∧ (∃ (s : Machine.State) (k : Nat) (x : Nat), Admits s k (Od.closeSession x) 1 ∧ x ≠ k ∧ (s.session k).role ≠ 3)
    ∧ (∃ (s : Machine.State) (x : Nat) (g : Nat), Tidy s ∧ x < 8 ∧ (s.session x).isOpen = true ∧ g < 4164)
    ∧ (∃ (s : Machine.State) (x : Nat), Tidy s ∧ x < 8 ∧ (s.session x).isOpen = true)
    ∧ (∃ (s : Machine.State) (k : Nat), Admits s k Od.identityCommand 1) :=
  ⟨⟨(let s := ready; let s := s.setN (Od.owner 3) 0; s.setN (Od.commitStatusState 3) 1), 0, admits_of (by decide +kernel) (by decide +kernel), by
      decide +kernel⟩,
    ⟨ready, 0, 0, admits_of (by decide +kernel) (by decide +kernel), by decide +kernel⟩,
    ⟨ready, 2, (2 + 1), admits_of (by decide +kernel) (by decide +kernel), by decide +kernel⟩,
    ⟨(let s := ready; s.setSession 1 { (s.session 1) with isOpen := true }), 1, 0, tidy_ready, by decide +kernel⟩,
    ⟨(let s := ready; s.setSession 1 { (s.session 1) with isOpen := true }), 1, tidy_ready, by decide +kernel⟩,
    ⟨ready, 1, admits_of (by decide +kernel) (by decide +kernel)⟩⟩

theorem witness_ClaimsAndSessionsAreGivenAndEnd_4 :
    (∃ (k : Nat) (g : Nat), k ≠ 255 ∧ g < 4164) :=
  ⟨0, 17, by decide +kernel⟩

theorem witness_CommitRunsFromArmToCopy_1 :
    (∃ (s : Machine.State) (k : Nat) (n : Nat), Admits s k (Od.commitCommand n) 1 ∧ armCheck s k [n] = Status.ok)
    ∧ (∃ (s : Machine.State) (k : Nat) (n : Nat) (st : Status), Admits s k (Od.commitCommand n) 1 ∧ armCheck s k [n] = st ∧ st ≠ Status.ok)
    ∧ (∃ (k : Nat) (n : Nat), n ≤ 64 ∧ k < 8)
    ∧ (∃ (s : Machine.State) (k : Nat) (n : Nat), Admits s k (Od.commitCommand n) 2 ∧ (s.scope n).member = false ∧ s.armed n = true ∧ s.nat
      (Od.commitStatusState n) ≠ 3 ∧ ((s.scope n).armSlot = k ∨ (s.session k).role = 3))
    ∧ (∃ (s : Machine.State) (k : Nat) (n : Nat), Admits s k (Od.commitCommand n) 2 ∧ (s.scope n).member = false ∧ s.armed n = false)
    ∧ (∃ (s : Machine.State) (k : Nat) (n : Nat), Admits s k (Od.commitCommand n) 2 ∧ (s.scope n).member = false ∧ s.nat (Od.commitStatusState n) = 3) :=
  ⟨⟨ready, 0, 64, admits_of (by decide +kernel) (by decide +kernel), by decide +kernel⟩,
    ⟨ready, 0, 0, (.state : Status), admits_of (by decide +kernel) (by decide +kernel), by decide +kernel⟩,
    ⟨0, 0, by decide +kernel⟩,
    ⟨(let s := ready; let s := s.setN (Od.commitStatusState 0) 1; s.setScope 0 { s.scope 0 with armSlot := 0 }), 0, 0, admits_of (by decide +kernel) (by
      decide +kernel), by decide +kernel⟩,
    ⟨(let s := ready; let s := s.setScope 0 { (s.scope 0) with member := false }; s.setN (Od.commitStatusState 0) 0), 0, 0, admits_of (by decide +kernel)
      (by decide +kernel), by decide +kernel⟩,
    ⟨(let s := ready; let s := s.setScope 0 { (s.scope 0) with member := false }; s.setN (Od.commitStatusState 0) 3), 0, 0, admits_of (by decide +kernel)
      (by decide +kernel), by decide +kernel⟩⟩

theorem witness_CommitRunsFromArmToCopy_2 :
    (∃ (s : Machine.State) (n : Nat), n ≤ 64 ∧ s.armed n = true)
    ∧ (∃ (s : Machine.State) (k : Nat) (n : Nat), Admits s k (Od.commitCommand n) 3 ∧ s.armed n = false)
    ∧ (∃ (s : Machine.State) (k : Nat) (n : Nat), Admits s k (Od.commitCommand n) 3 ∧ s.armed n = true)
    ∧ (∃ (s : Machine.State) (n : Nat), n < 64 ∧ s.nat (Od.commitStatusState n) = 2 ∧ (s.scope n).member = false ∧ (s.scope n).confirmed = false)
    ∧ (∃ (s : Machine.State) (n : Nat) (c : Change), n < 64 ∧ (s.klfTx n).auto = some c ∧ c.waiting = true)
    ∧ (∃ (s : Machine.State) (n : Nat) (f : Nat) (c : Change), n < 64 ∧ (s.klfTx n).host = some c ∧ c.first = some f ∧ f ≤ (s.klfTx n).next ∧ s.armed n =
      true) :=
  ⟨⟨(let s := ready; s.setN (Od.commitStatusState 0) 1), 0, by decide +kernel⟩,
    ⟨(let s := ready; s.setN (Od.commitStatusState 0) 0), 0, 0, admits_of (by decide +kernel) (by decide +kernel), by decide +kernel⟩,
    ⟨(let s := ready; s.setN (Od.commitStatusState 0) 1), 0, 0, admits_of (by decide +kernel) (by decide +kernel), by decide +kernel⟩,
    ⟨(let s := ready; let s := s.setN (Od.commitStatusState 0) 2; let s := s.setScope 0 { (s.scope 0) with member := false };
      s.setScope 0 { (s.scope 0) with confirmed := false }), 0, by decide +kernel⟩,
    ⟨(let s := ready; s.setKlfTx 0 { (s.klfTx 0) with auto := some ({ ({} : Change) with waiting := true } : Change) }), 0,
      ({ ({} : Change) with waiting := true } : Change), by decide +kernel⟩,
    ⟨(let s := ready; let s := s.setKlfTx 0 { (s.klfTx 0) with host := some ({ ({} : Change) with first := some 0 } : Change) };
      s.setN (Od.commitStatusState 0) 1), 0, 0, ({ ({} : Change) with first := some 0 } : Change), by decide +kernel⟩⟩

theorem witness_CommitRunsFromArmToCopy_3 :
    (∃ (s : Machine.State) (n : Nat) (b : Nat) (c : Change), n < 64 ∧ (s.klfTx n).host = some c ∧ c.target = some b ∧ b ≤ (s.klfTx n).next ∧ s.armed n =
      true)
    ∧ (∃ (s : Machine.State) (n : Nat) (b : Nat) (c : Change), n < 64 ∧ (s.klfTx n).auto = some c ∧ c.target = some b ∧ b ≤ (s.klfTx n).next)
    ∧ (∃ (s : Machine.State), s.armed 64 = true ∧ (s.scope 64).member = false ∧ (s.scope 64).due ≤ s.uptime)
    ∧ (∃ (s : Machine.State), s.armed 64 = true ∧ (s.scope 64).member = true ∧ s.nat Od.groupState = 2 ∧ (s.scope 64).due ≤ s.moduleTime) :=
  ⟨⟨(let s := ready; let s := s.setKlfTx 0 { (s.klfTx 0) with host := some ({ ({} : Change) with target := some 0 } : Change) };
      s.setN (Od.commitStatusState 0) 1), 0, 0, ({ ({} : Change) with target := some 0 } : Change), by decide +kernel⟩,
    ⟨(let s := ready; s.setKlfTx 0 { (s.klfTx 0) with auto := some ({ ({} : Change) with target := some 0 } : Change) }), 0, 0,
      ({ ({} : Change) with target := some 0 } : Change), by decide +kernel⟩,
    ⟨(let s := ready; let s := s.setN (Od.commitStatusState 64) 1; s.setScope 64 { (s.scope 64) with member := false }), by decide +kernel⟩,
    ⟨(let s := ready; let s := s.setN (Od.commitStatusState 64) 1; let s := s.setScope 64 { (s.scope 64) with member := true }; s.setN Od.groupState 2),
      by decide +kernel⟩⟩

theorem witness_GroupCommitActsOnAllOrNone_1 :
    (∃ (s : Machine.State) (k : Nat), Admits s k Od.groupCommand 1 ∧ groupScopeList s ≠ [] ∧ (groupScopeList s).any s.armed = false ∧ s.nat Od.groupState
      = 0 ∧ s.moduleTime + 1000000 ≤ unstamp (s.bytes Od.targetTime) ∧ armCheck s k (groupScopeList s) = Status.ok)
    ∧ (∃ (s : Machine.State) (k : Nat), Admits s k Od.groupCommand 1 ∧ groupScopeList s ≠ [] ∧ (groupScopeList s).any s.armed = false ∧ s.nat Od.groupState
      = 0 ∧ unstamp (s.bytes Od.targetTime) < s.moduleTime + 1000000)
    ∧ (∃ (s : Machine.State) (k : Nat), Admits s k Od.groupCommand 1 ∧ groupScopeList s = [])
    ∧ (∃ (s : Machine.State) (k : Nat), Admits s k Od.groupCommand 2 ∧ s.nat Od.groupState = 1)
    ∧ (∃ (s : Machine.State) (k : Nat), Admits s k Od.groupCommand 2 ∧ s.nat Od.groupState = 0)
    ∧ (∃ (s : Machine.State) (k : Nat), Admits s k Od.groupCommand 2 ∧ s.nat Od.groupState = 2) :=
  ⟨⟨(let s := ready; let s := s.setN Od.includeModule 1; s.setO Od.targetTime (stamp 5000000)), 0, admits_of (by decide +kernel) (by decide +kernel), by decide +kernel⟩,
    ⟨(let s := ready; s.setN Od.includeModule 1), 0, admits_of (by decide +kernel) (by decide +kernel), by decide +kernel⟩,
    ⟨ready, 0, admits_of (by decide +kernel) (by decide +kernel), by decide +kernel⟩,
    ⟨(let s := ready; s.setN Od.groupState 1), 0, admits_of (by decide +kernel) (by decide +kernel), by decide +kernel⟩,
    ⟨(let s := ready; s.setN Od.groupState 0), 0, admits_of (by decide +kernel) (by decide +kernel), by decide +kernel⟩,
    ⟨(let s := ready; s.setN Od.groupState 2), 0, admits_of (by decide +kernel) (by decide +kernel), by decide +kernel⟩⟩

theorem witness_GroupCommitActsOnAllOrNone_2 :
    (∃ (s : Machine.State), s.nat Od.groupState = 1 ∧ (∀ (n : Nat), n ∈ groupMembers s → (s.scope n).needsPeer = true → (s.scope n).confirmed = true))
    ∧ (∃ (s : Machine.State) (m : Nat), s.nat Od.groupState = 1 ∧ m ∈ groupMembers s ∧ (s.scope m).needsPeer = true ∧ (s.scope m).confirmed = false) :=
  ⟨⟨(let s := ready; s.setN Od.groupState 1), by decide +kernel⟩,
    ⟨(let s := ready; let s := s.setScope 0 { s.scope 0 with member := true }; let s := s.setN Od.groupState 1;
      let s := s.setScope 0 { (s.scope 0) with needsPeer := true }; s.setScope 0 { (s.scope 0) with confirmed := false }), 0, by decide +kernel⟩⟩

theorem witness_CopyMovesTheScopesShadows :
    (∃ (s : Machine.State), Tidy s) :=
  ⟨ready, tidy_ready⟩

theorem witness_RefusedCommandLeavesOnlyLastStatus :
    (∃ (c : Instr) (k : Nat) (key : Nat) (code : Nat) (s : Machine.State), hostCommand c = some (k, key, code) ∧ s.answers k = false)
    ∧ (∃ (c : Instr) (k : Nat) (key : Nat) (code : Nat) (s : Machine.State), hostCommand c = some (k, key, code) ∧ s.answers k = true ∧ writeGate s k
      (keyIdx key) (keyInst key) (keySub key) code ≠ Status.ok) :=
  ⟨⟨(.engineReset 5 3 : Instr), 5, Od.engineReset 3, 1, ready, by decide +kernel⟩,
    ⟨(.engineReset 3 3 : Instr), 3, Od.engineReset 3, 1, ready, by decide +kernel⟩⟩

theorem witness_ObserverCommandsChangeNothing :
    (∃ (c : Instr) (k : Nat) (key : Nat) (code : Nat) (s : Machine.State), hostCommand c = some (k, key, code) ∧ keyIdx key ≠ 8450 ∧ (s.session k).role =
      1) :=
  ⟨(.engineReset 3 3 : Instr), 3, Od.engineReset 3, 1, ready, by decide +kernel⟩

theorem witness_OwnedGroupRefusesOthers :
    (∃ (c : Instr) (k : Nat) (key : Nat) (code : Nat) (g : Nat) (o : Nat) (s : Machine.State), hostCommand c = some (k, key, code) ∧ groupOf (keyIdx key)
      (keyInst key) = some g ∧ s.nat (Od.owner g) = o ∧ o ≠ 255 ∧ o ≠ k ∧ s.answers k = true ∧ needOf (keyIdx key) (keySub key) code ≠ Need.keyOfficer ∧
      writeGate (s.setN (Od.owner g) 255) k (keyIdx key) (keyInst key) (keySub key) code = Status.ok) :=
  ⟨(.engineReset 0 3 : Instr), 0, Od.engineReset 3, 1, 3, 2, (let s := ready; s.setN (Od.owner 3) 2), by decide +kernel⟩

theorem witness_HostCommandsAreWritesOfTheirObjects :
    (∃ (c : Instr) (k : Nat) (key : Nat) (code : Nat), hostCommand c = some (k, key, code) ∧ (keyIdx key, code) ≠ (32514, 1)) :=
  ⟨(.engineReset 0 3 : Instr), 0, Od.engineReset 3, 1, by decide +kernel⟩

theorem witness_RefusedWriteAppliesNoItem :
    (∃ (s : Machine.State) (k : Nat) (i : Nat) (items : List WriteItem) (st : Status), s.answers k = true ∧ (firstBad (List.map (fun x => x.status)
      (List.map (prepItem s k) items)) 0 = some (i, st)))
    ∧ (∃ (s : Machine.State) (k : Nat) (i : Nat) (items : List WriteItem) (st : Status), s.answers k = true ∧ (firstBad (List.map (fun x => x.status)
      (List.map (prepItem s k) items)) 0 = none) ∧ firstBad (List.map (ruleCheck s (List.foldl (storeItem true) s (List.map (prepItem s k) items)) k)
      (List.map (prepItem s k) items)) 0 = some (i, st))
    ∧ (∃ (s : Machine.State) (k : Nat), s.answers k = false)
    ∧ (∃ (s : Machine.State) (k : Nat) (idx : Nat), s.answers k = true ∧ objRow idx = none) :=
  ⟨⟨ready, 0, 0, [⟨0x0FFF, 0, 0, []⟩], (.noObject : Status), by decide +kernel⟩,
    ⟨ready, 0, 0, [⟨keyIdx Od.safeJunction, 0, keySub Od.safeJunction, [90]⟩], (.inconsistent : Status), by decide +kernel⟩,
    ⟨ready, 6, by decide +kernel⟩,
    ⟨ready, 0, 0, by decide +kernel⟩⟩

theorem witness_AcceptedWriteStoresItsValue_1 :
    (∃ (s : Machine.State) (k : Nat) (key : Nat) (code : Nat) (v : Val) (it : WriteItem), s.answers k = true ∧ keyIdx key ≠ 20736 ∧ keyIdx key ≠ 7952 ∧
      prepItem s k it = { status := Status.ok, acc := Acc.rw, key := key, code := code, val := v } ∧ ruleCheck s (s.setVal key v) k
      { status := Status.ok, acc := Acc.rw, key := key, code := code, val := v } = Status.ok)
    ∧ (∃ (s : Machine.State) (k : Nat) (key : Nat) (code : Nat) (v : Val) (it : WriteItem), s.answers k = true ∧ prepItem s k it =
      { status := Status.ok, acc := Acc.rws, key := key, code := code, val := v } ∧ ruleCheck s (s.setShadow key v) k
      { status := Status.ok, acc := Acc.rws, key := key, code := code, val := v } = Status.ok)
    ∧ (∃ (key : Nat) (other : Nat), other ≠ key)
    ∧ (∃ (s : Machine.State) (k : Nat) (i : Nat), Allows s k (Od.identityEntryEnabled i) 1 (Val.u 1) ∧ i < 32)
    ∧ (∃ (s : Machine.State) (t : Machine.State), (s.isCommissioning = false ∨ t.isCommissioning = true))
    ∧ (∃ (s : Machine.State) (k : Nat) (p : Nat) (sub : Nat) (value : Nat), Allows s k (odKey 8453 p sub) value (Val.u value) ∧ (sub = 1 → value ≤ 1) ∧
      value < 256) :=
  ⟨⟨ready, 0, Od.safeJunction, 99, (.u 99 : Val), (⟨keyIdx Od.safeJunction, 0, keySub Od.safeJunction, [99]⟩ : WriteItem), by decide +kernel⟩,
    ⟨ready, 0, odKey 0x3010 0 3, 3, (.i 3 : Val), (⟨0x3010, 0, 3, [3, 0]⟩ : WriteItem), by decide +kernel⟩,
    ⟨0, 1, by decide +kernel⟩,
    ⟨(let s := ready; let s := s.setO (Od.keyHash 0) (List.replicate 48 1); let s := s.setN (Od.allowedRoles 0) 15;
      s.setSession 1 { s.session 1 with keyHash := List.replicate 48 1 }), 1, 0, allows_of (by decide +kernel) (by decide +kernel) (by decide +kernel) (by
      decide +kernel), by decide +kernel⟩,
    ⟨ready, (let s : Machine.State := ready; s), by decide +kernel⟩,
    ⟨ready, 0, 0, 1, 1, allows_of (by decide +kernel) (by decide +kernel) (by decide +kernel) (by decide +kernel), by decide +kernel⟩⟩

theorem witness_AcceptedWriteStoresItsValue_2 :
    (∃ (s : Machine.State) (k : Nat) (value : Nat), s.answers k = true ∧ writeGate s k 7952 0 1 value = Status.ok ∧ value < 262144)
    ∧ (∃ (s : Machine.State) (k : Nat) (value : Nat), s.answers k = true ∧ writeGate s k 7952 0 2 value = Status.ok ∧ value < 2) :=
  ⟨⟨ready, 0, 0, by decide +kernel⟩,
    ⟨ready, 0, 0, by decide +kernel⟩⟩

theorem witness_ReadsAnswerByClassAndState :
    (∃ (s : Machine.State) (idx : Nat) (inst : Nat) (sub : Nat) (r : SubRow), addrStatus idx inst sub = Status.ok ∧ subRow idx sub = some r ∧ (r.acc =
      Acc.wo ∨ r.acc = Acc.key) ∧ (∀ (m : Nat), r.ty ≠ Ty.block m) ∧ (s.boot.recovery = true → servedInRecovery idx = true))
    ∧ (∃ (s : Machine.State) (idx : Nat) (inst : Nat) (sub : Nat) (r : SubRow), s.beforeCalibrate = true ∧ gated idx = true ∧ s.boot.recovery = false ∧
      addrStatus idx inst sub = Status.ok ∧ subRow idx sub = some r ∧ (∀ (m : Nat), r.ty ≠ Ty.block m) ∧ r.acc ≠ Acc.wo ∧ r.acc ≠ Acc.key) :=
  ⟨⟨(let s := ready; { s with boot := { s.boot with recovery := true → servedInRecovery 0x4310 = true } }), 0x4310, 0, 0, (⟨0, 1, .octets 40, .key, .o
      [], .any⟩ : SubRow), by decide +kernel, by decide +kernel, by decide +kernel, (by intro m h; cases h), by decide +kernel⟩,
    ⟨standby, 0x3010, 0, 3, (⟨3, 1, .i16, .rws, .i 0, .ivl (-40) 20 1⟩ : SubRow), by decide +kernel, by decide +kernel, by decide +kernel, by
      decide +kernel, by decide +kernel, (by intro m h; cases h), by decide +kernel⟩⟩

theorem witness_JournalAndCountersKeepTheirBounds :
    (∃ (s : Machine.State) (key : Nat), s.nat key ≤ counterMax key) :=
  ⟨ready, 0, by decide +kernel⟩

theorem witness_OutOfRangeWriteIsRefused :
    (∃ (s : Machine.State) (k : Nat) (idx : Nat) (inst : Nat) (sub : Nat) (r : SubRow) (v : Val) (value : Bytes), s.answers k = true ∧ addrStatus idx inst
      sub = Status.ok ∧ subRow idx sub = some r ∧ (∀ (m : Nat), r.ty ≠ Ty.block m) ∧ writeGate s k idx inst sub (leNat (List.take 4 value)) = Status.ok ∧
      decodeVal r.ty value = (Status.ok, v) ∧ rngOk r.rng v = false) :=
  ⟨ready, 0, keyIdx Od.safeJunction, 0, 2, (⟨2, 1, .u8, .rw, .u 100, .ivl 85 102 1⟩ : SubRow), (.u 103 : Val), [103], by decide +kernel, by
      decide +kernel, by decide +kernel, (by intro m h; cases h), by decide +kernel⟩

theorem witness_HandshakeAndOpenGiveASession_1 :
    (∃ (s : Machine.State) (conn : Nat) (h : Bytes) (c : Conn) (i : Nat), s.serving = true ∧ s.conn? conn = some c ∧ c.phase = ConnPhase.handshaking ∧
      s.isCommissioning = false ∧ matchIdentity s h = some i) :=
  ⟨(let s := ready; let s := s.setB (Od.identityEntryEnabled 0) true; let s := s.setB (Od.identityEntryEnabled 0) true;
      let s := s.setO (Od.keyHash 0) [1];
      s.setConn ({ ({ id := 20, port := 0, phase := .cookieSent, cookie := 0 } : Conn) with phase := ConnPhase.handshaking } : Conn)), 20, [1],
      ({ ({ id := 20, port := 0, phase := .cookieSent, cookie := 0 } : Conn) with phase := ConnPhase.handshaking } : Conn), 0, by decide +kernel⟩

theorem witness_HandshakeAndOpenGiveASession_2 :
    (∃ (s : Machine.State) (conn : Nat) (c : Conn), s.conn? conn = some c ∧ c.phase ≠ ConnPhase.sessionOpen)
    ∧ (∃ (s : Machine.State) (conn : Nat) (c : Conn), s.conn? conn = some c ∧ c.phase = ConnPhase.sessionOpen)
    ∧ (∃ (s : Machine.State) (h : Bytes) (i : Nat), matchIdentity s h = some i)
    ∧ (∃ (s : Machine.State) (conn : Nat) (role : Nat) (subs : Nat) (k : Nat) (h : SehalHdr) (c : Conn), s.conn? conn = some c ∧ s.serving = true ∧ c.phase
      = ConnPhase.authenticated ∧ openSlot s c h role subs = (Status.ok, k))
    ∧ (∃ (s : Machine.State) (conn : Nat) (role : Nat) (subs : Nat) (h : SehalHdr) (c : Conn), s.conn? conn = some c ∧ s.serving = true ∧ c.phase =
      ConnPhase.authenticated ∧ (openSlot s c h role subs).fst ≠ Status.ok)
    ∧ (∃ (s : Machine.State) (c : Conn) (h : SehalHdr) (role : Nat) (subs : Nat) (k : Nat), openSlot s c h role subs = (Status.ok, k) ∧ 6 ≤ k) :=
  ⟨⟨(let s := ready; s.setConn ({ id := 20, port := 0, phase := .cookieSent, cookie := 0 } : Conn)), 20,
      ({ id := 20, port := 0, phase := .cookieSent, cookie := 0 } : Conn), by decide +kernel⟩,
    ⟨(let s := ready; s.setConn ({ ({ id := 20, port := 0, phase := .cookieSent, cookie := 0 } : Conn) with phase := ConnPhase.sessionOpen } : Conn)), 20,
      ({ ({ id := 20, port := 0, phase := .cookieSent, cookie := 0 } : Conn) with phase := ConnPhase.sessionOpen } : Conn), by decide +kernel⟩,
    ⟨(let s := ready; let s := s.setB (Od.identityEntryEnabled 0) true; s.setO (Od.keyHash 0) ([] : Bytes)), ([] : Bytes), 0, by decide +kernel⟩,
    ⟨(let s := ready; s.setConn ({ id := 20, port := 0, phase := .authenticated, cookie := 0, identity := 255 } : Conn)), 20, 3, 0, 4,
      ({ seq := 0, flags := 0, count := 0 } : SehalHdr), ({ id := 20, port := 0, phase := .authenticated, cookie := 0, identity := 255 } : Conn), by decide +kernel⟩,
    ⟨(let s := ready; s.setConn ({ ({ id := 20, port := 0, phase := .cookieSent, cookie := 0 } : Conn) with phase := ConnPhase.authenticated } : Conn)),
      20, 0, 0, ({ seq := 0, flags := 0, count := 0 } : SehalHdr),
      ({ ({ id := 20, port := 0, phase := .cookieSent, cookie := 0 } : Conn) with phase := ConnPhase.authenticated } : Conn), by decide +kernel⟩,
    ⟨(let s := ready; (List.range 6).foldl (fun s x => s.setSession x (session 3 (x + 10))) s),
      ({ id := 20, port := 0, phase := .authenticated, cookie := 0, identity := 255 } : Conn), ({ seq := 0, flags := 0, count := 0 } : SehalHdr), 3, 0, 6,
      by decide +kernel⟩⟩

theorem witness_HandshakeAndOpenGiveASession_3 :
    (∃ (s : Machine.State) (c : Conn) (h : SehalHdr) (role : Nat) (subs : Nat) (k : Nat) (j : Nat), openSlot s c h role subs = (Status.ok, k) ∧ j < k)
    ∧ (∃ (s : Machine.State) (k : Nat), k < 8 ∧ ((s.session k).transport = 1 ∨ (s.session k).transport = 2))
    ∧ (∃ (s : Machine.State) (k : Nat), k < 8 ∧ (s.session k).transport ≠ 1 ∧ (s.session k).transport ≠ 2) :=
  ⟨⟨ready, ({ id := 20, port := 0, phase := .authenticated, cookie := 0, identity := 255 } : Conn), ({ seq := 0, flags := 0, count := 0 } : SehalHdr), 3,
      0, 4, 2, by decide +kernel⟩,
    ⟨(let s := ready; s.setSession 0 { (s.session 0) with transport := 1 }), 0, by decide +kernel⟩,
    ⟨(let s := ready; s.setSession 0 { (s.session 0) with transport := 0 }), 0, by decide +kernel⟩⟩

theorem witness_HandshakeAndOpenGiveASession_4 :
    (∃ (s : Machine.State) (conn : Nat) (port : Nat), port < 2 ∧ portOn s port = true ∧ s.conn? conn = none ∧ handshakes s < 4)
    ∧ (∃ (s : Machine.State) (conn : Nat) (port : Nat) (offer : HelloOffer) (c : Conn), port < 2 ∧ portOn s port = true ∧ s.conn? conn = some c ∧
      c.phase = .cookieSent ∧ helloOk offer = true)
    ∧ (∃ (s : Machine.State) (conn : Nat) (port : Nat) (offer : HelloOffer) (c : Conn), port < 2 ∧ portOn s port = true ∧ s.conn? conn = some c ∧
      c.phase = .cookieSent ∧ helloOk offer = false)
    ∧ (∃ (s : Machine.State) (conn : Nat) (port : Nat) (c : Conn) (cookie : Option Nat), port < 2 ∧ portOn s port = true ∧ s.conn? conn = some c ∧
      c.phase = .cookieSent ∧ cookie ≠ some c.cookie)
    ∧ (∃ (s : Machine.State) (conn : Nat) (port : Nat), port < 2 ∧ s.conn? conn = none ∧ (4 ≤ handshakes s ∨ portOn s port = false)) :=
  ⟨⟨ready, 10, 1, by decide +kernel⟩,
    ⟨calling .cookieSent, 10, 0, ⟨[0x1302], [0x18], [0x503]⟩, connected .cookieSent 255, by decide +kernel⟩,
    ⟨calling .cookieSent, 10, 0, ⟨[0x1301], [0x18], [0x503]⟩, connected .cookieSent 255, by decide +kernel⟩,
    ⟨calling .cookieSent, 10, 0, connected .cookieSent 255, some 8, by decide +kernel⟩,
    ⟨(let s := ready; let s := { s with boot := { s.boot with recovery := false } };
      { s with conns := (List.range 4).map fun i => { id := i, port := 0, phase := .handshaking, cookie := 0 } }), 10, 0, by decide +kernel⟩⟩

theorem witness_HandshakeAndOpenGiveASession_5 :
    (∃ (s : Machine.State) (conn : Nat) (proof : ClientProof) (c : Conn), portOn s c.port = true ∧ s.conn? conn = some c ∧ c.phase = .handshaking ∧
      proofOk proof = true ∧ s.isCommissioning = true)
    ∧ (∃ (s : Machine.State) (conn : Nat) (proof : ClientProof) (c : Conn) (i : Nat), portOn s c.port = true ∧ s.conn? conn = some c ∧
      c.phase = .handshaking ∧ proofOk proof = true ∧ s.isCommissioning = false ∧ matchIdentity s (sha384 proof.spki) = some i)
    ∧ (∃ (s : Machine.State) (conn : Nat) (proof : ClientProof) (c : Conn), portOn s c.port = true ∧ s.conn? conn = some c ∧ c.phase = .handshaking ∧
      proofOk proof = true ∧ s.isCommissioning = false ∧ matchIdentity s (sha384 proof.spki) = none)
    ∧ (∃ (s : Machine.State) (conn : Nat) (proof : ClientProof) (c : Conn), portOn s c.port = true ∧ s.conn? conn = some c ∧ c.phase = .handshaking ∧
      proofOk proof = false)
    ∧ (∃ (proof : ClientProof), proof.spki = []) :=
  ⟨⟨calling .handshaking, 10, rfcProof, connected .handshaking 255, by decide +kernel⟩,
    ⟨knowing, 10, rfcProof, connected .handshaking 255, 3, by decide +kernel⟩,
    ⟨knowing.setN (Od.identityEntryEnabled 3) 0 |>.setN (Od.identityEntryEnabled 4) 1, 10, rfcProof, connected .handshaking 255, by decide +kernel⟩,
    ⟨calling .handshaking, 10, ⟨[], [], 1, 1⟩, connected .handshaking 255, by decide +kernel⟩,
    ⟨⟨[], [], 1, 1⟩, by decide +kernel⟩⟩

theorem witness_HandshakeAndOpenGiveASession_6 :
    (∃ (s : Machine.State) (conn : Nat) (role : Nat) (subs : Nat) (k : Nat) (h : SehalHdr) (c : Conn), s.conn? conn = some c ∧
      portOn s c.port = true ∧ c.phase = .authenticated ∧ openSlot s c h role subs = (.ok, k))
    ∧ (∃ (s : Machine.State) (conn : Nat) (role : Nat) (subs : Nat) (h : SehalHdr) (c : Conn), s.conn? conn = some c ∧ portOn s c.port = true ∧
      c.phase = .authenticated ∧ (openSlot s c h role subs).1 ≠ .ok) :=
  ⟨⟨(ready.setConn { connected .authenticated 255 with identity := 0 }).setN (Od.allowedRoles 0) 15, 10, 1, 0, 4, ⟨0, 0, 0, none⟩,
      { connected .authenticated 255 with identity := 0 }, by decide +kernel⟩,
    ⟨calling .authenticated, 10, 5, 0, ⟨0, 0, 0, none⟩, connected .authenticated 255, by decide +kernel⟩⟩

theorem witness_RequestsAreServedAndAnswered_2 :
    (∃ (s : Machine.State) (conn : Nat) (h : SehalHdr) (c : Conn) (m : Bytes), s.serving = true ∧ s.conn? conn = some c ∧ c.phase = ConnPhase.sessionOpen
      ∧ (h.seq + 65536 - (s.session c.slot).nextSeq) % 65536 = 65520 ∧ (List.find? (fun p => decide (p.fst = h.seq)) (s.session c.slot).cache = some (h.seq,
      m)))
    ∧ (∃ (s : Machine.State) (k : Nat), (List.find? (fun p => decide (p.fst.seq = (s.session k).nextSeq)) (s.session k).buffered = none))
    ∧ (∃ (s : Machine.State) (k : Nat) (h : SehalHdr), (s.session k).isOpen = true ∧ s.serving = true ∧ h.flags < 2 ∧ h.count = 0 ∧ h.deadDie = none)
    ∧ (∃ (s : Machine.State) (k : Nat) (h : SehalHdr) (items : List ReadItem), h.flags < 2 ∧ h.count = items.length ∧ h.deadDie = none ∧ 8 + List.length
      (encodeResults (readResults s k items (decide (h.flags % 2 = 1)))) ≤ 1200) :=
  ⟨⟨(let s := ready; let s := s.setConn ({ id := 20, port := 0, phase := .sessionOpen, cookie := 0, slot := 0 } : Conn);
      s.setSession ({ id := 20, port := 0, phase := .sessionOpen, cookie := 0, slot := 0 } : Conn).slot { s.session ({ id := 20, port := 0, phase := .sessionOpen, cookie := 0, slot := 0 } : Conn).slot with cache := [(65520, [1])] }),
      20, ({ seq := 65520, flags := 0, count := 0 } : SehalHdr), ({ id := 20, port := 0, phase := .sessionOpen, cookie := 0, slot := 0 } : Conn), [1], by decide +kernel⟩,
    ⟨ready, 0, by decide +kernel⟩,
    ⟨(let s := ready; s.setSession 0 { (s.session 0) with isOpen := true }), 0,
      ({ ({ ({ seq := 0, flags := 0, count := 0 } : SehalHdr) with count := 0 } : SehalHdr) with deadDie := none } : SehalHdr), by decide +kernel⟩,
    ⟨ready, 0, ({ ({ ({ seq := 0, flags := 0, count := 0 } : SehalHdr) with count := ([] : List ReadItem).length } : SehalHdr) with deadDie := none } :
      SehalHdr), ([] : List ReadItem), by decide +kernel⟩⟩

theorem witness_RequestsAreServedAndAnswered_3 :
    (∃ (d : Nat) (h : SehalHdr), h.flags < 2 ∧ h.count = 0 ∧ h.deadDie = some d ∧ d < 27)
    ∧ (∃ (s : Machine.State) (k : Nat) (idx : Nat) (inst : Nat) (sub : Nat) (acc : Machine.Acc) (max : Nat), (s.session k).block = none ∧ addrStatus idx
      inst sub = Status.ok ∧ blockMax idx = some (acc, max))
    ∧ (∃ (s : Machine.State) (k : Nat) (b : BlockXfer), (s.session k).block = some b)
    ∧ (∃ (s : Machine.State) (k : Nat) (offset : Nat) (len : Nat) (b : BlockXfer), (s.session k).block = some b ∧ b.writing = false ∧ 1 ≤ len ∧ len ≤ 1024 ∧
      offset + len ≤ b.total)
    ∧ (∃ (s : Machine.State) (k : Nat) (offset : Nat) (len : Nat) (data : Bytes) (b : BlockXfer), (s.session k).block = some b ∧ b.writing = true ∧ 1 ≤ len
      ∧ len ≤ 1024 ∧ offset + len ≤ b.total ∧ List.length data = len) :=
  ⟨⟨0, ({ ({ ({ seq := 0, flags := 0, count := 0 } : SehalHdr) with count := 0 } : SehalHdr) with deadDie := some 0 } : SehalHdr), by decide +kernel⟩,
    ⟨(let s := ready; s.setSession 0 { (s.session 0) with block := none }), 0, 8454, 0, 0, (.ro : Machine.Acc), (blockMax 8454).elim 0 (·.2), by decide +kernel⟩,
    ⟨(let s := ready;
      s.setSession 0 { (s.session 0) with block := some ({ idx := 0x2031, inst := 0, sub := 1, writing := false, total := 0, content := [], pieces := [] } : BlockXfer) }),
      0, ({ idx := 0x2031, inst := 0, sub := 1, writing := false, total := 0, content := [], pieces := [] } : BlockXfer), by decide +kernel⟩,
    ⟨(let s := ready;
      s.setSession 0 { (s.session 0) with block := some ({ idx := 0x2031, inst := 0, sub := 1, writing := false, total := 4, content := [], pieces := [] } : BlockXfer) }),
      0, 0, 1, ({ idx := 0x2031, inst := 0, sub := 1, writing := false, total := 4, content := [], pieces := [] } : BlockXfer), by decide +kernel⟩,
    ⟨(let s := ready;
      s.setSession 0 { (s.session 0) with block := some ({ idx := 0x2031, inst := 0, sub := 1, writing := true, total := 4, content := [], pieces := [] } : BlockXfer) }),
      0, 0, 1, [7], ({ idx := 0x2031, inst := 0, sub := 1, writing := true, total := 4, content := [], pieces := [] } : BlockXfer), by decide +kernel⟩⟩

theorem witness_RequestsAreServedAndAnswered_4 :
    (∃ (s : Machine.State) (k : Nat) (offset : Nat) (len : Nat) (b : BlockXfer), (s.session k).block = some b ∧ b.total < offset + len)
    ∧ (∃ (s : Machine.State) (k : Nat) (b : BlockXfer), (s.session k).block = some b ∧ b.writing = false)
    ∧ (∃ (s : Machine.State) (k : Nat) (b : BlockXfer), k < 8 ∧ (s.session k).block = some b) :=
  ⟨⟨(let s := ready;
      s.setSession 0 { (s.session 0) with block := some ({ idx := 0x2031, inst := 0, sub := 1, writing := false, total := 0, content := [], pieces := [] } : BlockXfer) }),
      0, 0, 1, ({ idx := 0x2031, inst := 0, sub := 1, writing := false, total := 0, content := [], pieces := [] } : BlockXfer), by decide +kernel⟩,
    ⟨(let s := ready;
      s.setSession 0 { (s.session 0) with block := some ({ ({ idx := 0x2031, inst := 0, sub := 1, writing := false, total := 0, content := [], pieces := [] } : BlockXfer) with writing := false } : BlockXfer) }),
      0, ({ ({ idx := 0x2031, inst := 0, sub := 1, writing := false, total := 0, content := [], pieces := [] } : BlockXfer) with writing := false } :
      BlockXfer), by decide +kernel⟩,
    ⟨(let s := ready;
      s.setSession 0 { (s.session 0) with block := some ({ idx := 0x2031, inst := 0, sub := 1, writing := false, total := 0, content := [], pieces := [] } : BlockXfer) }),
      0, ({ idx := 0x2031, inst := 0, sub := 1, writing := false, total := 0, content := [], pieces := [] } : BlockXfer), by decide +kernel⟩⟩

theorem witness_RequestsAreServedAndAnswered_5 :
    (∃ (s : Machine.State) (conn : Nat) (h : SehalHdr) (c : Conn) (idx : Nat) (inst : Nat) (sub : Nat) (acc : Acc) (max : Nat) (errors : List Nat),
      InTurn s conn h c ∧ h.count = 0 ∧ (s.session c.slot).block = none ∧ addrStatus idx inst sub = .ok ∧ blockMax idx = some (acc, max) ∧
      acc ≠ .wo ∧ s.boot.recovery = false ∧ (gated idx && s.beforeCalibrate) = false ∧ captureBusy s idx inst = false ∧
      (blockContent (received s) idx inst errors).1 ≠ [])
    ∧ (∃ (s : Machine.State) (conn : Nat) (h : SehalHdr) (c : Conn) (idx : Nat) (inst : Nat) (sub : Nat) (total : Nat) (acc : Acc) (max : Nat),
      InTurn s conn h c ∧ h.count = 0 ∧ (s.session c.slot).block = none ∧ addrStatus idx inst sub = .ok ∧ blockMax idx = some (acc, max) ∧
      writeGate (received s) c.slot idx inst sub 0 = .ok ∧ blockLengthOk idx total max = true ∧ openElsewhere s c.slot idx inst sub = false)
    ∧ (∃ (s : Machine.State) (conn : Nat) (h : SehalHdr) (c : Conn) (offset : Nat) (len : Nat) (b : BlockXfer), InTurn s conn h c ∧ h.count = 0 ∧
      (s.session c.slot).block = some b ∧ 1 ≤ len ∧ len ≤ 1024 ∧ offset + len ≤ b.total ∧ b.writing = false)
    ∧ (∃ (s : Machine.State) (conn : Nat) (h : SehalHdr) (c : Conn) (offset : Nat) (len : Nat) (b : BlockXfer) (data : Bytes), InTurn s conn h c ∧
      h.count = 0 ∧ (s.session c.slot).block = some b ∧ 1 ≤ len ∧ len ≤ 1024 ∧ offset + len ≤ b.total ∧ b.writing = true ∧ data.length = len)
    ∧ (∃ (s : Machine.State) (conn : Nat) (h : SehalHdr) (c : Conn) (crc : Nat) (b : BlockXfer) (content : Bytes), InTurn s conn h c ∧ h.count = 0 ∧
      (s.session c.slot).block = some b ∧ b.writing = true ∧ writeGate (received s) c.slot b.idx b.inst b.sub 0 = .ok ∧
      assembled b = some content ∧ crc32 content = crc) :=
  ⟨⟨served, 10, ⟨0, 0, 0, none⟩, connected .sessionOpen 0, 0x3121, 0, 0, .ro, 1009, [], inTurn_of (by decide +kernel), by decide +kernel⟩,
    ⟨served, 10, ⟨0, 0, 0, none⟩, connected .sessionOpen 0, 0x5102, 0, 0, 272, .rw, 272, inTurn_of (by decide +kernel), by decide +kernel⟩,
    ⟨transferring reading, 10, ⟨0, 0, 0, none⟩, connected .sessionOpen 0, 2, 2, reading, inTurn_of (by decide +kernel), by decide +kernel⟩,
    ⟨transferring writing, 10, ⟨0, 0, 0, none⟩, connected .sessionOpen 0, 1, 2, writing, [9, 9], inTurn_of (by decide +kernel), by decide +kernel⟩,
    ⟨transferring writing, 10, ⟨0, 0, 0, none⟩, connected .sessionOpen 0, crc32 [1, 2, 3, 4], writing, [1, 2, 3, 4], inTurn_of (by decide +kernel),
      by decide +kernel⟩⟩

theorem witness_RequestsAreServedAndAnswered_6 :
    (∃ (s : Machine.State) (conn : Nat) (h : SehalHdr) (c : Conn) (items : List ReadItem), InTurn s conn h c ∧ items.length = h.count ∧
      8 + 7 * items.length ≤ 1200 ∧ (∀ q, q ∈ readResults (received s) c.slot items (h.flags % 2 = 1) → q.1 = .ok) ∧
      8 + (encodeResults (readResults (received s) c.slot items (h.flags % 2 = 1))).length ≤ 1200)
    ∧ (∃ (s : Machine.State) (conn : Nat) (key : Nat) (code : Nat) (h : SehalHdr) (c : Conn) (it : WriteItem) (v : Val), InTurn s conn h c ∧
      h.count = 1 ∧ it.value.length ≤ 1183 ∧ prepItem (received s) c.slot it = ⟨.ok, .rws, key, code, v⟩ ∧
      ruleCheck (received s) ((received s).setShadow key v) c.slot ⟨.ok, .rws, key, code, v⟩ = .ok)
    ∧ (∃ (s : Machine.State) (conn : Nat) (key : Nat) (code : Nat) (h : SehalHdr) (c : Conn) (it : WriteItem) (v : Val), InTurn s conn h c ∧
      h.count = 1 ∧ it.value.length ≤ 1183 ∧ prepItem (received s) c.slot it = ⟨.ok, .rw, key, code, v⟩ ∧ keyIdx key ≠ 0x5100 ∧
      keyIdx key ≠ 0x1F10 ∧ ruleCheck (received s) ((received s).setVal key v) c.slot ⟨.ok, .rw, key, code, v⟩ = .ok ∧
      ((wroteOne (received s) c.slot key v).session c.slot).isOpen = true ∧ ((wroteOne (received s) c.slot key v).session c.slot).buffered = [] ∧
      (wroteOne (received s) c.slot key v).serving = true)
    ∧ (∃ (s : Machine.State) (conn : Nat) (h : SehalHdr) (c : Conn), portOn s c.port = true ∧ s.conn? conn = some c ∧ c.phase = .sessionOpen ∧
      h.seq = (s.session c.slot).nextSeq ∧ h.seq < 65536)
    ∧ (∃ (s : Machine.State) (conn : Nat) (h : SehalHdr) (c : Conn), portOn s c.port = true ∧ s.conn? conn = some c ∧ c.phase = .sessionOpen ∧
      (h.seq + 65536 - (s.session c.slot).nextSeq) % 65536 = 7 ∧ (s.session c.slot).buffered = []) :=
  ⟨⟨served, 10, ⟨0, 0, 1, none⟩, connected .sessionOpen 0, [⟨0x1008, 0, 0⟩], inTurn_of (by decide +kernel), by decide +kernel⟩,
    ⟨served, 10, odKey 0x3201 1 1, 130, ⟨0, 0, 1, none⟩, connected .sessionOpen 0, ⟨0x3201, 1, 1, [130]⟩, .u 130, inTurn_of (by decide +kernel),
      by decide +kernel⟩,
    ⟨served, 10, Od.safeJunction, 98, ⟨0, 0, 1, none⟩, connected .sessionOpen 0, ⟨0x2022, 0, 2, [98]⟩, .u 98, inTurn_of (by decide +kernel),
      by decide +kernel⟩,
    ⟨served, 10, ⟨0, 0, 0, none⟩, connected .sessionOpen 0, by decide +kernel⟩,
    ⟨served, 10, ⟨7, 0, 0, none⟩, connected .sessionOpen 0, by decide +kernel⟩⟩

theorem witness_RequestsAreServedAndAnswered_7 :
    (∃ (s : Machine.State) (conn : Nat) (h : SehalHdr) (c : Conn) (m : Bytes), portOn s c.port = true ∧ s.conn? conn = some c ∧
      c.phase = .sessionOpen ∧ (h.seq + 65536 - (s.session c.slot).nextSeq) % 65536 = 65520 ∧
      (s.session c.slot).cache.find? (fun p => p.1 = h.seq) = some (h.seq, m))
    ∧ (∃ (s : Machine.State) (conn : Nat) (h : SehalHdr) (c : Conn), portOn s c.port = true ∧ s.conn? conn = some c ∧ c.phase = .sessionOpen ∧
      (h.seq + 65536 - (s.session c.slot).nextSeq) % 65536 = 8)
    ∧ (∃ (s : Machine.State) (k : Nat) (h : SehalHdr) (items : List ReadItem), h.flags < 2 ∧ h.count = items.length ∧ h.deadDie = none ∧
      8 + 7 * items.length ≤ 1200 ∧ 8 + (encodeResults (readResults s k items (h.flags % 2 = 1))).length ≤ 1200)
    ∧ (∃ (h : SehalHdr) (items : List WriteItem), h.flags < 2 ∧ h.count = items.length ∧ h.deadDie = none ∧
      8 + (items.map fun i => 9 + i.value.length).sum ≤ 1200)
    ∧ (∃ (h : SehalHdr) (b : SehalBody), (2 ≤ h.flags ∨ 1200 < 8 + requestOctets b)) :=
  ⟨⟨(let s := served; s.setSession 0 { s.session 0 with nextSeq := 16, cache := [(0, [1])] }), 10, ⟨0, 0, 0, none⟩, connected .sessionOpen 0, [1],
      by decide +kernel⟩,
    ⟨served, 10, ⟨8, 0, 0, none⟩, connected .sessionOpen 0, by decide +kernel⟩,
    ⟨ready, 0, ⟨0, 1, 1, none⟩, [⟨0x1008, 0, 0⟩], by decide +kernel⟩,
    ⟨⟨0, 0, 1, none⟩, [⟨0x2022, 0, 2, [98]⟩], by decide +kernel⟩,
    ⟨⟨0, 2, 0, none⟩, .nop, by decide +kernel⟩⟩

theorem witness_ManagementAndCanPortsServe_1 :
    (∃ (s : Machine.State) (p : Nat), p < 2 ∧ s.nat (Od.mgmtPortMode p) = 0)
    ∧ (∃ (p : Nat), p < 2) :=
  ⟨⟨(let s := ready; s.setN (Od.mgmtPortMode 0) 0), 0, by decide +kernel⟩,
    ⟨0, by decide +kernel⟩⟩

theorem witness_ManagementAndCanPortsServe_2 :
    (∃ (s : Machine.State) (p : Nat), p < 2 ∧ (s.canPort p).startPending = true ∧ s.flag (Od.canSessionEnabled p) = true ∧ s.serving = true)
    ∧ (∃ (s : Machine.State) (p : Nat), p < 2 ∧ (s.canPort p).started = true ∧ s.serving = true ∧ s.nat Od.producerHeartbeatTime ≠ 0)
    ∧ (∃ (s : Machine.State) (p : Nat), p < 2 ∧ s.nat Od.producerHeartbeatTime = 0) :=
  ⟨⟨(let s := ready; let s := s.setCanPort 0 { (s.canPort 0) with startPending := true }; s.setB (Od.canSessionEnabled 0) true), 0, by decide +kernel⟩,
    ⟨(let s := ready; let s := s.setCanPort 0 { (s.canPort 0) with started := true }; s.setN Od.producerHeartbeatTime 1), 0, by decide +kernel⟩,
    ⟨(let s := ready; s.setN Od.producerHeartbeatTime 0), 0, by decide +kernel⟩⟩

theorem witness_ManagementAndCanPortsServe_3 :
    (∃ (s : Machine.State) (p : Nat) (f : MgmtFrame), p < 2 ∧ portOn s p = true ∧ answered s p f = true)
    ∧ (∃ (s : Machine.State) (p : Nat) (a : Bytes), p < 2 ∧ portOn s p = true ∧ isV4 s p a = false)
    ∧ (∃ (s : Machine.State) (p : Nat) (v6 : Bool) (a : Bytes), p < 2 ∧ portOn s p = true ∧ ourAddress s p v6 a = true)
    ∧ (∃ (s : Machine.State) (p : Nat) (v6 : Bool) (a : Bytes) (port : Nat) (version : Nat), p < 2 ∧ portOn s p = true ∧
      (ourAddress s p v6 a = false ∨ port ≠ s.nat Od.udpPort ∨ version ≠ 1))
    ∧ (∃ (s : Machine.State) (p : Nat) (f : MgmtFrame), p < 2 ∧ portOn s p = true ∧ (f = .tagged ∨ f = .fragment ∨ f = .other)) :=
  ⟨⟨addressed, 0, .arp [10, 0, 0, 7], by decide +kernel⟩,
    ⟨addressed, 0, [10, 0, 0, 8], by decide +kernel⟩,
    ⟨addressed, 0, false, [10, 0, 0, 7], by decide +kernel⟩,
    ⟨addressed, 0, false, [10, 0, 0, 8], 1, 1, by decide +kernel⟩,
    ⟨addressed, 0, .tagged, by decide +kernel⟩⟩

theorem witness_ManagementAndCanPortsServe_4 :
    (∃ (s : Machine.State) (p : Nat) (a : Bytes), isV4 s p a = true)
    ∧ (∃ (s : Machine.State) (p : Nat) (a : Bytes), isV6 s p a = true)
    ∧ (∃ (s : Machine.State) (p : Nat), p < 2 ∧ (s.mgmtPort p).conf.mode = 0)
    ∧ (∃ (s : Machine.State) (p : Nat) (c : MgmtConf) (rest : List MgmtConf), p < 2 ∧ (s.mgmtPort p).waiting = c :: rest)
    ∧ (∃ (s : Machine.State) (p : Nat), p < 2 ∧ (s.mgmtPort p).waiting = []) :=
  ⟨⟨addressed, 0, [10, 0, 0, 7], by decide +kernel⟩,
    ⟨ready, 0, linkLocal 0, by simp [isV6]⟩,
    ⟨(let s := ready; s.setMgmtPort 0 { conf := { mode := 0 } }), 0, by decide +kernel⟩,
    ⟨(let s := ready; s.setMgmtPort 0 { waiting := [{ mode := 0 }] }), 0, { mode := 0 }, [], by decide +kernel⟩,
    ⟨ready, 0, by decide +kernel⟩⟩

theorem witness_SdoServerTransfersValues_1 :
    (∃ (s : Machine.State) (p : Nat) (idx : Nat) (sub : Nat) (f : SdoFrame) (v : Bytes), p < 2 ∧ canLive s p = true ∧ sdoForUs s p f = true ∧
      f.deadDie = none ∧ 1 ≤ v.length ∧ v.length ≤ 4 ∧
      readItem (setSdo s p none) (canSlot p) idx (sdoInstance s p idx) sub (s.session (canSlot p)).shadowView = (.ok, v))
    ∧ (∃ (s : Machine.State) (p : Nat) (idx : Nat) (sub : Nat) (f : SdoFrame) (v : Bytes), p < 2 ∧ canLive s p = true ∧ sdoForUs s p f = true ∧
      f.deadDie = none ∧ 4 < v.length ∧
      readItem (setSdo s p none) (canSlot p) idx (sdoInstance s p idx) sub (s.session (canSlot p)).shadowView = (.ok, v))
    ∧ (∃ (s : Machine.State) (p : Nat) (idx : Nat) (sub : Nat) (f : SdoFrame) (st : Status) (v : Bytes), p < 2 ∧ canLive s p = true ∧
      sdoForUs s p f = true ∧ st ≠ .ok ∧ f.deadDie = none ∧
      readItem (setSdo s p none) (canSlot p) idx (sdoInstance s p idx) sub (s.session (canSlot p)).shadowView = (st, v))
    ∧ (∃ (s : Machine.State) (p : Nat) (d : Nat) (f : SdoFrame), p < 2 ∧ canLive s p = true ∧ sdoForUs s p f = true ∧ f.deadDie = some d ∧ d < 27)
    ∧ (∃ (s : Machine.State) (p : Nat) (f : SdoFrame), p < 2 ∧ sdoForUs s p f = false) :=
  ⟨⟨shelf, 0, 0x1000, 0, { cobId := 0x620 }, (readItem shelf 6 0x1000 0 0 false).2, by decide +kernel⟩,
    ⟨shelf, 0, 0x1008, 0, { cobId := 0x620 }, (readItem shelf 6 0x1008 0 0 false).2, by decide +kernel⟩,
    ⟨shelf, 0, 0x0FFF, 0, { cobId := 0x620 }, .noObject, [], by decide +kernel⟩,
    ⟨shelf, 0, 3, { cobId := 0x620, deadDie := some 3 }, by decide +kernel⟩,
    ⟨shelf, 0, { cobId := 0x621 }, by decide +kernel⟩⟩

theorem witness_SdoServerTransfersValues_2 :
    (∃ (s : Machine.State) (p : Nat) (f : SdoFrame), (f.extended = true ∨ f.nonIso = true ∨ f.cobId ≠ 0x600 + s.nat (Od.nodeId p)))
    ∧ (∃ (s : Machine.State) (p : Nat) (f : SdoFrame) (x : SdoXfer), p < 2 ∧ canLive s p = true ∧ sdoForUs s p f = true ∧ (s.canPort p).sdo = some x ∧
      x.download = false ∧ 7 < x.data.length)
    ∧ (∃ (s : Machine.State) (p : Nat) (f : SdoFrame) (x : SdoXfer), p < 2 ∧ canLive s p = true ∧ sdoForUs s p f = true ∧ (s.canPort p).sdo = some x ∧
      x.download = false ∧ x.data.length ≤ 7)
    ∧ (∃ (s : Machine.State) (p : Nat) (idx : Nat) (sub : Nat) (n : Nat) (f : SdoFrame) (data : Bytes) (u : Machine.State), p < 2 ∧ canLive s p = true ∧
      sdoForUs s p f = true ∧ n ≤ 4 ∧ u.serving = true ∧ sdoWrite (setSdo (setSdo s p none) p none) p idx sub (data.take n) f.deadDie = (.ok, u))
    ∧ (∃ (s : Machine.State) (p : Nat) (f : SdoFrame) (x : SdoXfer) (data : Bytes), p < 2 ∧ canLive s p = true ∧ sdoForUs s p f = true ∧
      (s.canPort p).sdo = some x ∧ x.download = true ∧ data.length ≤ 7 ∧ (x.data ++ data).length ≤ x.total) :=
  ⟨⟨shelf, 0, { cobId := 0x620, extended := true }, by decide +kernel⟩,
    ⟨(let s := shelf; setSdo s 0 (some ({ download := false, idx := 0x1008, sub := 0, total := 8, data := [1, 2, 3, 4, 5, 6, 7, 8] } : SdoXfer))), 0,
      { cobId := 0x620 }, ({ download := false, idx := 0x1008, sub := 0, total := 8, data := [1, 2, 3, 4, 5, 6, 7, 8] } : SdoXfer),
      by decide +kernel⟩,
    ⟨(let s := shelf; setSdo s 0 (some ({ download := false, idx := 0x1008, sub := 0, total := 7, data := [1, 2, 3, 4, 5, 6, 7] } : SdoXfer))), 0,
      { cobId := 0x620 }, ({ download := false, idx := 0x1008, sub := 0, total := 7, data := [1, 2, 3, 4, 5, 6, 7] } : SdoXfer),
      by decide +kernel⟩,
    ⟨officer, 0, 0x2022, 2, 1, { cobId := 0x620 }, [98], (sdoWrite (setSdo (setSdo officer 0 none) 0 none) 0 0x2022 2 (List.take 1 [98]) none).2,
      by decide +kernel⟩,
    ⟨(let s := shelf; setSdo s 0 (some ({ download := true, idx := 0x1008, sub := 0, total := 7, data := [] } : SdoXfer))), 0, { cobId := 0x620 },
      ({ download := true, idx := 0x1008, sub := 0, total := 7, data := [] } : SdoXfer), [1, 2], by decide +kernel⟩⟩

theorem witness_SdoServerTransfersValues_3 :
    (∃ (s : Machine.State) (p : Nat) (f : SdoFrame) (x : SdoXfer) (data : Bytes) (u : Machine.State), p < 2 ∧ canLive s p = true ∧
      sdoForUs s p f = true ∧ (s.canPort p).sdo = some x ∧ x.download = true ∧ data.length ≤ 7 ∧ (x.data ++ data).length = x.total ∧
      u.serving = true ∧ sdoWrite (setSdo s p none) p x.idx x.sub (x.data ++ data) f.deadDie = (.ok, u)) :=
  ⟨(setSdo officer 0 (some ({ download := true, idx := 0x2022, sub := 2, total := 1, data := [] } : SdoXfer))), 0, { cobId := 0x620 },
      ({ download := true, idx := 0x2022, sub := 2, total := 1, data := [] } : SdoXfer), [98],
      (sdoWrite (setSdo (setSdo officer 0 (some ({ download := true, idx := 0x2022, sub := 2, total := 1, data := [] } : SdoXfer))) 0 none) 0 0x2022 2 [98] none).2,
      by decide +kernel⟩

theorem witness_StatusReachesBusAndPort_1 :
    (∃ (s : Machine.State) (p : Nat) (j : Nat), p < 2 ∧ j < 4 ∧ tpdoOn s p j = true ∧ s.nat (Od.eventTimer j p) ≠ 0)
    ∧ (∃ (s : Machine.State) (p : Nat) (j : Nat), tpdoOn s p j = true ∧ (s.tpdo p j).last ≠ some (tpdoPayload s p j) ∧ (s.tpdo p j).inhibited = false)
    ∧ (∃ (s : Machine.State) (p : Nat) (j : Nat), tpdoOn s p j = true ∧ (s.tpdo p j).last ≠ some (tpdoPayload s p j) ∧ (s.tpdo p j).inhibited = true)
    ∧ (∃ (p : Nat), p < 2)
    ∧ (∃ (s : Machine.State) (p : Nat) (j : Nat), p < 2 ∧ j < 4 ∧ (s.tpdo p j).waiting = false) :=
  ⟨⟨(let s := ready; let s := s.setCanPort 0 { s.canPort 0 with started := true };
      let s := s.setSession (canSlot 0) { session 2 0 with transport := 3 + 0 }; let s := s.setN (Od.tpdoMapCount 0 0) 1;
      let s := s.setN (Od.cobId 0 0) 384; s.setN (Od.eventTimer 0 0) 1), 0, 0, by decide +kernel⟩,
    ⟨(let s := ready; let s := s.setCanPort 0 { s.canPort 0 with started := true };
      let s := s.setSession (canSlot 0) { session 2 0 with transport := 3 + 0 }; let s := s.setN (Od.tpdoMapCount 0 0) 1; s.setN (Od.cobId 0 0) 384), 0, 0,
      by decide +kernel⟩,
    ⟨(let s := ready; let s := s.setCanPort 0 { s.canPort 0 with started := true };
      let s := s.setSession (canSlot 0) { session 2 0 with transport := 3 + 0 }; let s := s.setN (Od.tpdoMapCount 0 0) 1;
      let s := s.setN (Od.cobId 0 0) 384; setTpdo s 0 0 { s.tpdo 0 0 with inhibited := true }), 0, 0, by decide +kernel⟩,
    ⟨0, by decide +kernel⟩,
    ⟨(let s := ready; setTpdo s 0 0 { s.tpdo 0 0 with inhibited := true }), 0, 0, by decide +kernel⟩⟩

theorem witness_StatusReachesBusAndPort_2 :
    (∃ (s : Machine.State) (p : Nat) (j : Nat), p < 2 ∧ j < 4 ∧ (s.tpdo p j).waiting = true)
    ∧ (∃ (s : Machine.State) (p : Nat), p < 2 ∧ (s.canPort p).emcy = [])
    ∧ (∃ (s : Machine.State) (p : Nat) (key : Nat) (m : Bytes) (rest : List (Nat × Bool × Bytes)), p < 2 ∧ (s.canPort p).emcy = (key, false, m) :: rest)
    ∧ (∃ (s : Machine.State) (x : Nat) (addr : Nat), addr < 1048576 ∧ s.nat (Od.testPattern x) = 0)
    ∧ (∃ (s : Machine.State) (x : Nat) (addr : Nat), addr < 1048576 ∧ s.nat (Od.testPattern x) = 1)
    ∧ (∃ (s : Machine.State) (x : Nat) (addr : Nat), addr < 1048576 ∧ s.nat (Od.testPattern x) = 2) :=
  ⟨⟨(let s := ready; setTpdo s 0 0 { s.tpdo 0 0 with waiting := true }), 0, 0, by decide +kernel⟩,
    ⟨(let s := ready; s.setCanPort 0 { (s.canPort 0) with emcy := [] }), 0, by decide +kernel⟩,
    ⟨(let s := ready; s.setCanPort 0 { (s.canPort 0) with emcy := (0, false, ([] : Bytes)) :: ([] : List (Nat × Bool × Bytes)) }), 0, 0, ([] : Bytes), ([]
      : List (Nat × Bool × Bytes)), by decide +kernel⟩,
    ⟨(let s := ready; s.setN (Od.testPattern 0) 0), 0, 0, by decide +kernel⟩,
    ⟨(let s := ready; s.setN (Od.testPattern 0) 1), 0, 0, by decide +kernel⟩,
    ⟨(let s := ready; s.setN (Od.testPattern 0) 2), 0, 0, by decide +kernel⟩⟩

theorem witness_StatusReachesBusAndPort_3 :
    (∃ (s : Machine.State) (x : Nat) (addr : Nat), addr < 1048576 ∧ s.nat (Od.testPattern x) = 3)
    ∧ (∃ (s : Machine.State), s.pins.aux3v3 = false)
    ∧ (∃ (s : Machine.State) (addr : Nat), s.boot.railsOn = false ∧ addr ≠ 0)
    ∧ (∃ (addr : Nat), addr ≠ 0 ∧ (addr < 4096 ∨ 4160 ≤ addr ∧ addr < 8192 ∨ 10240 ≤ addr ∧ addr < 12288 ∨ 14336 ≤ addr ∧ addr < 262144 ∨ 524288 ≤ addr))
    ∧ (∃ (s : Machine.State) (n : Nat), n < 64 ∧ s.pins.aux3v3 = true ∧ s.boot.railsOn = true)
    ∧ (∃ (s : Machine.State) (t : Nat), t < 2048 ∧ s.pins.aux3v3 = true ∧ s.boot.railsOn = true) :=
  ⟨⟨(let s := ready; s.setN (Od.testPattern 0) 3), 0, 0, by decide +kernel⟩,
    ⟨(let s := ready; { s with pins := { s.pins with aux3v3 := false } }), by decide +kernel⟩,
    ⟨(let s := ready; { s with boot := { s.boot with railsOn := false } }), 1, by decide +kernel⟩,
    ⟨1, by decide +kernel⟩,
    ⟨(let s := ready; let s := { s with pins := { s.pins with aux3v3 := true } }; { s with boot := { s.boot with railsOn := true } }), 0, by decide +kernel⟩,
    ⟨(let s := ready; let s := { s with pins := { s.pins with aux3v3 := true } }; { s with boot := { s.boot with railsOn := true } }), 0, by decide +kernel⟩⟩

theorem witness_StatusReachesBusAndPort_4 :
    (∃ (s : Machine.State) (l : Nat), l < 262144 ∧ s.pins.aux3v3 = true ∧ s.boot.railsOn = true ∧ (s.ctx l).state < 8) :=
  ⟨(let s := ready; let s := { s with pins := { s.pins with aux3v3 := true } }; { s with boot := { s.boot with railsOn := true } }), 0, by decide +kernel⟩

theorem witness_StatusReachesBusAndPort_5 :
    (∃ (s : Machine.State) (p : Nat) (j : Nat), tpdoOn s p j = false)
    ∧ (∃ (s : Machine.State) (p : Nat) (j : Nat) (v : Bytes), p < 2 ∧ j < 4 ∧ (s.tpdo p j).waiting = true ∧ tpdoOn s p j = true ∧
      (s.tpdo p j).sample = some v ∧ (s.tpdo p j).last ≠ some v)
    ∧ (∃ (s : Machine.State) (p : Nat) (key : Nat) (raised : Bool) (m : Bytes) (rest : List (Nat × Bool × Bytes)), p < 2 ∧ (s.canPort p).emcy = (key,
      raised, m) :: rest) :=
  ⟨⟨ready, 0, 0, by decide +kernel⟩,
    ⟨(let s := ((ready.setCanPort 0 { ready.canPort 0 with started := true }).setSession (canSlot 0) { session 2 0 with transport := 3 }).setN (Od.tpdoMapCount 0 0) 1 |>.setN (Od.cobId 0 0) 384;
      setTpdo s 0 0 { s.tpdo 0 0 with waiting := true, sample := some [1] }), 0, 0, [1], by decide +kernel⟩,
    ⟨(let s := ready; s.setCanPort 0 { s.canPort 0 with emcy := [(0x0A61, true, [1])] }), 0, 0x0A61, true, [1], [], by decide +kernel⟩⟩

theorem witness_LightAndGainAreJudged_1 :
    (∃ (s : Machine.State) (n : Nat), n < 64 ∧ s.nat (Od.lineState n) = 1 ∧ s.engineUp n = true ∧ (s.source (srcCarrier n 0)).real = false)
    ∧ (∃ (s : Machine.State) (n : Nat), n < 64 ∧ s.nat (Od.lineState n) ≠ 1 ∧ s.domUp (domPort (portOf n)) = true)
    ∧ (∃ (s : Machine.State) (n : Nat), n < 64 ∧ s.nat (Od.lineState n) = 1 ∧ s.nat (Od.biasMode n) = 0)
    ∧ (∃ (s : Machine.State) (n : Nat) (power : F32), n < 64 ∧ inService s n = true ∧ isHub s n = false ∧ s.engineUp n = true ∧ f32LtRat power (s.int
      (Od.losThreshold n)) 10 = true)
    ∧ (∃ (s : Machine.State) (n : Nat) (power : F32), n < 64 ∧ inService s n = true ∧ isHub s n = false ∧ s.engineUp n = true ∧ f32GeRat power (s.int
      (Od.losThreshold n) + 10) 10 = true)
    ∧ (∃ (s : Machine.State) (n : Nat) (power : F32), n < 64 ∧ s.engineUp n = true ∧ f32GtRat power 4 1 = true) :=
  ⟨⟨(let s := ready; let s := s.setN (Od.lineState 0) 1; let s := s.setN (Od.powerState 0) 2;
      s.setSource (srcCarrier 0 0) { (s.source (srcCarrier 0 0)) with real := false }), 0, by decide +kernel⟩,
    ⟨(let s := ready; let s := s.setN (Od.lineState 0) 0; s.setN (Od.powerState (domPort (portOf 0))) 2), 0, by decide +kernel⟩,
    ⟨(let s := ready; let s := s.setN (Od.lineState 0) 1; s.setN (Od.biasMode 0) 0), 0, by decide +kernel⟩,
    ⟨(let s := ready; let s := s.setB (Od.carrierEnable 0) true; s.setN (Od.powerState 0) 2), 0, 0xC2C80000, by decide +kernel⟩,
    ⟨(let s := ready; let s := s.setB (Od.carrierEnable 0) true; s.setN (Od.powerState 0) 2), 0, 0, by decide +kernel⟩,
    ⟨(let s := ready; s.setN (Od.powerState 0) 2), 0, 0x42C80000, by decide +kernel⟩⟩

theorem witness_LightAndGainAreJudged_2 :
    (∃ (s : Machine.State) (n : Nat) (power : F32), n < 64 ∧ s.engineUp n = true ∧ f32LeRat power 3 1 = true)
    ∧ (∃ (x : F32), f32LtRat x (-50) 1 = true)
    ∧ (∃ (x : F32), f32LtRat x (-50) 1 = false)
    ∧ (∃ (s : Machine.State) (n : Nat), n < 64 ∧ s.engineUp n = true ∧ s.nat (Od.agcMode n) = 1)
    ∧ (∃ (s : Machine.State) (n : Nat), n < 64 ∧ s.engineUp n = false)
    ∧ (∃ (s : Machine.State) (n : Nat) (j : Nat), n < 64 ∧ j < 4 ∧ s.nat (Od.gainIndex n j) ≤ 47) :=
  ⟨⟨(let s := ready; s.setN (Od.powerState 0) 2), 0, 0, by decide +kernel⟩,
    ⟨0xC2C80000, by decide +kernel⟩,
    ⟨0, by decide +kernel⟩,
    ⟨(let s := ready; let s := s.setN (Od.powerState 0) 2; s.setN (Od.agcMode 0) 1), 0, by decide +kernel⟩,
    ⟨(let s := ready; s.setN (Od.powerState 0) 0), 0, by decide +kernel⟩,
    ⟨ready, 0, 0, by decide +kernel⟩⟩

theorem witness_LightAndGainAreJudged_3 :
    (∃ (s : Machine.State) (n : Nat) (power : F32), n < 64 ∧ s.nat (Od.lineState n) = 1 ∧ s.engineUp n = true ∧ s.domUp (domPort (portOf n)) = true ∧
      f32LtRat power (-6) 1 = true ∧ (s.front n).lineWaits = false)
    ∧ (∃ (s : Machine.State) (n : Nat) (power : F32), n < 64 ∧ (s.nat (Od.lineState n) ≠ 1 ∨ f32LtRat power (-6) 1 = false))
    ∧ (∃ (s : Machine.State) (n : Nat) (power : F32), n < 64 ∧ s.nat (Od.lineState n) ≠ 1 ∧ s.domUp (domPort (portOf n)) = true ∧
      f32GeRat power (-4) 1 = true)
    ∧ (∃ (s : Machine.State) (n : Nat) (power : F32), n < 64 ∧ s.nat (Od.lineState n) ≠ 1 ∧ s.domUp (domPort (portOf n)) = true ∧
      f32GeRat power (-4) 1 = false)
    ∧ (∃ (n : Nat) (key : Nat), n < 64 ∧ (key = Od.lineState n ∨ key = Od.linePower n ∨ key = Od.rxPower n)) :=
  ⟨⟨(let s := ready; s.setN (Od.lineState 0) 1), 0, 0xC0E00000, by decide +kernel⟩,
    ⟨(let s := ready; s.setN (Od.lineState 0) 1), 0, 0, by decide +kernel⟩,
    ⟨ready, 0, 0xC0400000, by decide +kernel⟩,
    ⟨ready, 0, 0xC0E00000, by decide +kernel⟩,
    ⟨0, Od.lineState 0, by decide +kernel⟩⟩

theorem witness_LightAndGainAreJudged_4 :
    (∃ (s : Machine.State) (n : Nat), n < 64 ∧ s.nat (Od.rxState n) = 1 ∧ usableSignal s n = true)
    ∧ (∃ (s : Machine.State) (n : Nat), n < 64 ∧ s.nat (Od.rxState n) = 1 ∧ usableSignal s n = false) :=
  ⟨⟨(let s := ready; let s := s.setN (Od.lineState 0) 1; s.setN (Od.rxState 0) 1), 0, by decide +kernel⟩,
    ⟨(let s := ready; s.setN (Od.rxState 0) 1), 0, by decide +kernel⟩⟩

theorem witness_LoopsAndLaunchFollowTheirRules_1 :
    (∃ (s : Machine.State) (n : Nat), n < 64 ∧ s.nat (Od.lineState n) = 1 ∧ (s.source (srcCarrier n 0)).real = false ∧ s.nat (Od.biasMode n) = 0 ∧ s.domUp
      (domPort (portOf n)) = true)
    ∧ (∃ (s : Machine.State) (n : Nat), n < 64 ∧ s.nat (Od.biasMode n) = 0 ∧ s.engineUp n = true ∧ (s.source (srcCarrier n 3)).real = false)
    ∧ (∃ (s : Machine.State) (n : Nat), n < 64 ∧ s.nat (Od.biasMode n) = 0 ∧ s.engineUp n = true ∧ (s.source (srcCarrier n 3)).real = true)
    ∧ (∃ (s : Machine.State) (n : Nat) (tx : F32), n < 64 ∧ s.engineUp n = true ∧ f32GeRat tx 40 1 = true)
    ∧ (∃ (n : Nat) (tx : F32) (lo : F32), n < 64 ∧ f32LtRat tx 38 1 = true ∧ f32LtRat lo 38 1 = true)
    ∧ (∃ (s : Machine.State) (n : Nat) (r : Ramp), n < 64 ∧ (s.front n).ramp = some r ∧ r.dark = true) :=
  ⟨⟨(let s := ready; let s := s.setN (Od.lineState 0) 1; let s := s.setSource (srcCarrier 0 0) { (s.source (srcCarrier 0 0)) with real := false };
      let s := s.setN (Od.biasMode 0) 0; s.setN (Od.powerState (domPort (portOf 0))) 2), 0, by decide +kernel⟩,
    ⟨(let s := ready; let s := s.setN (Od.biasMode 0) 0; let s := s.setN (Od.powerState 0) 2;
      s.setSource (srcCarrier 0 3) { (s.source (srcCarrier 0 3)) with real := false }), 0, by decide +kernel⟩,
    ⟨(let s := ready; let s := s.setN (Od.biasMode 0) 0; let s := s.setN (Od.powerState 0) 2;
      s.setSource (srcCarrier 0 3) { (s.source (srcCarrier 0 3)) with real := true }), 0, by decide +kernel⟩,
    ⟨(let s := ready; s.setN (Od.powerState 0) 2), 0, 0x42C80000, by decide +kernel⟩,
    ⟨0, 0, 0, by decide +kernel⟩,
    ⟨(let s := ready;
      s.setFront 0 { (s.front 0) with ramp := some ({ ({ lo := 0, hi := 0, start := 0, micros := 0, dark := false } : Ramp) with dark := true } : Ramp) }),
      0, ({ ({ lo := 0, hi := 0, start := 0, micros := 0, dark := false } : Ramp) with dark := true } : Ramp), by decide +kernel⟩⟩

theorem witness_LoopsAndLaunchFollowTheirRules_2 :
    (∃ (s : Machine.State) (n : Nat) (r : Ramp), n < 64 ∧ (s.front n).ramp = some r ∧ r.dark = false)
    ∧ (∃ (s : Machine.State) (n : Nat), s.nat (Od.txState n) = 0 ∧ mayLaunch s n = true ∧ inService s n = true)
    ∧ (∃ (s : Machine.State) (n : Nat), s.nat (Od.txState n) = 2 ∧ mayLaunch s n = false)
    ∧ (∃ (s : Machine.State), s.running = false) :=
  ⟨⟨(let s := ready;
      s.setFront 0 { (s.front 0) with ramp := some ({ ({ lo := 0, hi := 0, start := 0, micros := 0, dark := false } : Ramp) with dark := false } : Ramp) }),
      0, ({ ({ lo := 0, hi := 0, start := 0, micros := 0, dark := false } : Ramp) with dark := false } : Ramp), by decide +kernel⟩,
    ⟨(let s := ready; let s := s.setN (Od.calState 0) 2; let s := s.setN (Od.lineState 0) 1; let s := s.setB (Od.carrierEnable 0) true;
      s.setN (Od.txState 0) 0), 0, by decide +kernel⟩,
    ⟨(let s := ready; s.setN (Od.txState 0) 2), 0, by decide +kernel⟩,
    ⟨(let s := ready; { s with boot := { s.boot with st := .calibrate } }), by decide +kernel⟩⟩

theorem witness_LoopsAndLaunchFollowTheirRules_3 :
    (∃ (s : Machine.State) (n : Nat), n < 64 ∧ s.nat (Od.lineState n) = 1 ∧ (s.front n).lineWaits = false ∧ s.nat (Od.biasMode n) = 0 ∧
      s.domUp (domPort (portOf n)) = true)
    ∧ (∃ (s : Machine.State) (n : Nat), n < 64 ∧ s.engineUp n = true ∧ s.nat (Od.heaterMode n) = 0 ∧ s.nat (Od.lineState n) = 1)
    ∧ (∃ (s : Machine.State) (n : Nat), n < 64 ∧ s.engineUp n = true ∧ s.nat (Od.heaterMode n) ≠ 0 ∧ f32GeRat (s.f32 (Od.txFilterHeater n)) 40 1 = true)
    ∧ (∃ (s : Machine.State) (n : Nat), n < 64 ∧ s.engineUp n = true ∧ s.nat (Od.heaterMode n) ≠ 0 ∧
      f32LtRat (s.f32 (Od.txFilterHeater n)) 38 1 = true ∧ f32LtRat (s.f32 (Od.loFilterHeater n)) 38 1 = true)
    ∧ (∃ (x : F32), f32GtRat x 40 1 = true) :=
  ⟨⟨(let s := ready; s.setN (Od.lineState 0) 1), 0, by decide +kernel⟩,
    ⟨(let s := ready; s.setN (Od.lineState 0) 1), 0, by decide +kernel⟩,
    ⟨(let s := ready; let s := s.setN (Od.heaterMode 0) 1; s.setF (Od.txFilterHeater 0) 0x42240000), 0, by decide +kernel⟩,
    ⟨(let s := ready; s.setN (Od.heaterMode 0) 1), 0, by decide +kernel⟩,
    ⟨0x42240000, by decide +kernel⟩⟩

theorem witness_LoopsAndLaunchFollowTheirRules_4 :
    (∃ (x : F32), f32GtRat x 40 1 = false) :=
  ⟨0x42200000, by decide +kernel⟩

theorem witness_CarriersEnterAndLeaveService_1 :
    (∃ (s : Machine.State) (k : Nat) (n : Nat), Allows s k (Od.carrierEnable n) 1 (Val.u 1) ∧ s.flag (Od.carrierEnable n) = false)
    ∧ (∃ (s : Machine.State) (k : Nat) (n : Nat), s.answers k = true ∧ writeGate s k 12304 n 1 1 = Status.ok ∧ s.flag (Od.carrierEnable n) = false ∧
      (s.boot.st = ModState.safe ∨ s.engineUp n = false ∨ s.nat (Od.calState n) ≠ 2))
    ∧ (∃ (s : Machine.State) (k : Nat) (n : Nat), Allows s k (Od.carrierEnable n) 0 (Val.u 0) ∧ s.flag (Od.carrierEnable n) = true)
    ∧ (∃ (s : Machine.State), (s.boot.st = ModState.ready ∨ s.boot.st = ModState.traffic))
    ∧ (∃ (n : Nat), n < 64)
    ∧ (∃ (s : State) (k p source spacing : Nat) (anchor : Int), s.answers k = true ∧ (∀ (i : Nat), 1 ≤ i → i ≤ 3 → writeGate s k 12288 p i (if i = 1 then
      source else if i = 2 then unsignedOf 16 anchor else spacing) = Status.ok) ∧ source < 256 ∧ spacing < 256 ∧ -32768 ≤ anchor ∧ anchor < 32768 ∧ (∀ (r :
      SubRow), subRow 12288 1 = some r → rngOk r.rng (Val.u source) = true) ∧ (∀ (r : SubRow), subRow 12288 2 = some r → rngOk r.rng (Val.i anchor) = true)
      ∧ (∀ (r : SubRow), subRow 12288 3 = some r → rngOk r.rng (Val.u spacing) = true) ∧ (∀ (j : Nat), j < 8 → s.flag (Od.carrierEnable (8 * p + j)) =
      false) ∧ ∃ c, c = ((s.setVal (Od.lightSource p) (Val.u source)).setVal (Od.anchorIndex p) (Val.i anchor)).setVal (Od.spacingIndex p) (Val.u spacing) ∧
      bandOk c p = true ∧ ∀ (j : Nat), j < 8 → slotFits c (8 * p + j) = true) :=
  ⟨⟨(let s := ready; let s := s.setN (Od.calState 0) 2; s.setN (Od.lineState 0) 1), 0, 0, allows_of (by decide +kernel) (by decide +kernel) (by
      decide +kernel) (by decide +kernel), by decide +kernel⟩,
    ⟨(let s := ready; let s := s.setB (Od.carrierEnable 0) false; { s with boot := { s.boot with st := ModState.safe } }), 0, 0, by decide +kernel⟩,
    ⟨(let s := ready; s.setB (Od.carrierEnable 0) true), 0, 0, allows_of (by decide +kernel) (by decide +kernel) (by decide +kernel) (by decide +kernel),
      by decide +kernel⟩,
    ⟨(let s := ready; { s with boot := { s.boot with st := ModState.ready } }), by decide +kernel⟩,
    ⟨0, by decide +kernel⟩,
    ⟨ready, 0, 0, 1, 64, -128, by decide +kernel, light_gate, by decide, by decide, by decide, by decide, rangeOf _ _ _ (by decide +kernel), rangeOf _ _ _
      (by decide +kernel), rangeOf _ _ _ (by decide +kernel), by decide +kernel, _, rfl, by decide +kernel⟩⟩

theorem witness_CarriersEnterAndLeaveService_2 :
    (∃ (s : Machine.State) (p : Nat) (j : Nat), p < 8 ∧ s.beforeCalibrate = false ∧ j < 8 ∧ s.engineUp (8 * p + j) = true) :=
  ⟨ready, 0, 0, by decide +kernel⟩

theorem witness_CarriersEnterAndLeaveService_3 :
    (∃ (s : Machine.State) (n : Nat), n < 64 ∧ s.engineUp n = true ∧ s.nat (Od.calState n) = 2 ∧ (s.engine n).resetting = false ∧ isHub s n = false ∧
      s.nat (Od.rxState n) = 0 ∧ s.boot.st = .ready ∧ inService s n = true) :=
  ⟨(let s := ready; let s := s.setN (Od.calState 0) 2; s.setB (Od.carrierEnable 0) true), 0, by decide +kernel⟩

theorem witness_ReceiverAcquiresAndLosesLock_1 :
    (∃ (s : Machine.State) (n : Nat), n < 64 ∧ s.nat (Od.rxState n) = 2 ∧ usableSignal s n = true ∧ s.nat (Od.acquireKind n) = 2 ∧ (s.dsp n).step = 1)
    ∧ (∃ (s : Machine.State) (n : Nat), n < 64 ∧ s.nat (Od.rxState n) = 2 ∧ usableSignal s n = true ∧ s.nat (Od.acquireKind n) = 2 ∧ (s.dsp n).step = 5)
    ∧ (∃ (s : Machine.State) (n : Nat), n < 64 ∧ s.nat (Od.rxState n) = 2 ∧ usableSignal s n = true ∧ s.nat (Od.acquireKind n) = 2 ∧ (s.dsp n).step = 8 ∧
      krytelm s n = false)
    ∧ (∃ (s : Machine.State) (n : Nat), s.nat (Od.rxState n) = 2 ∧ n < 64)
    ∧ (∃ (s : Machine.State) (n : Nat), n < 64 ∧ s.nat (Od.rxState n) = 2 ∧ usableSignal s n = true ∧ s.nat (Od.acquireKind n) = 2 ∧ (s.dsp n).held = none)
    ∧ (∃ (n : Nat), n < 64) :=
  ⟨⟨(let s := ready; let s := s.setN (Od.lineState 0) 1; let s := s.setN (Od.rxState 0) 2; let s := s.setN (Od.acquireKind 0) 2;
      s.setDsp 0 { (s.dsp 0) with step := 1 }), 0, by decide +kernel⟩,
    ⟨(let s := ready; let s := s.setN (Od.lineState 0) 1; let s := s.setN (Od.rxState 0) 2; let s := s.setN (Od.acquireKind 0) 2;
      s.setDsp 0 { (s.dsp 0) with step := 5 }), 0, by decide +kernel⟩,
    ⟨(let s := ready; let s := s.setN (Od.lineState 0) 1; let s := s.setN (Od.rxState 0) 2; let s := s.setN (Od.acquireKind 0) 2;
      let s := s.setDsp 0 { (s.dsp 0) with step := 8 }; s.setN (Od.lineProfile 0) 1), 0, by decide +kernel⟩,
    ⟨(let s := ready; s.setN (Od.rxState 0) 2), 0, by decide +kernel⟩,
    ⟨(let s := ready; let s := s.setN (Od.lineState 0) 1; let s := s.setN (Od.rxState 0) 2; let s := s.setN (Od.acquireKind 0) 2;
      s.setDsp 0 { (s.dsp 0) with held := none }), 0, by decide +kernel⟩,
    ⟨0, by decide +kernel⟩⟩

theorem witness_ReceiverAcquiresAndLosesLock_2 :
    (∃ (s : Machine.State) (n : Nat), n < 64 ∧ s.nat (Od.rxState n) = 4)
    ∧ (∃ (s : Machine.State) (k : Nat) (n : Nat), Admits s k (Od.reacquire n) 2 ∧ s.nat (Od.rxState n) = 3 ∧ s.armed n = false)
    ∧ (∃ (s : Machine.State) (k : Nat) (n : Nat), Admits s k (Od.reacquire n) 1 ∧ s.nat (Od.rxState n) = 2 ∧ s.armed n = false ∧ (s.dsp n).held = none)
    ∧ (∃ (s : Machine.State) (k : Nat) (n : Nat) (code : Nat), Admits s k (Od.reacquire n) code ∧ (code = 1 ∨ code = 2) ∧ s.nat (Od.rxState n) ≠ 2 ∧ s.nat
      (Od.rxState n) ≠ 3)
    ∧ (∃ (s : Machine.State) (n : Nat) (cause : Nat), n < 64 ∧ s.nat (Od.rxState n) = 3 ∧ 3 ≤ cause ∧ cause ≤ 6)
    ∧ (∃ (s : Machine.State) (n : Nat), n < 64 ∧ s.nat (Od.rxState n) = 3 ∧ s.nat (Od.warmAttempts n) = 0) :=
  ⟨⟨(let s := ready; s.setN (Od.rxState 0) 4), 0, by decide +kernel⟩,
    ⟨(let s := ready; let s := s.setN (Od.rxState 0) 3; s.setN (Od.commitStatusState 0) 0), 0, 0, admits_of (by decide +kernel) (by decide +kernel), by decide +kernel⟩,
    ⟨(let s := ready; let s := s.setN (Od.rxState 0) 2; let s := s.setN (Od.commitStatusState 0) 0; s.setDsp 0 { (s.dsp 0) with held := none }), 0, 0,
      admits_of (by decide +kernel) (by decide +kernel), by decide +kernel⟩,
    ⟨(let s := ready; s.setN (Od.rxState 0) 0), 0, 0, 1, admits_of (by decide +kernel) (by decide +kernel), by decide +kernel⟩,
    ⟨(let s := ready; s.setN (Od.rxState 0) 3), 0, 3, by decide +kernel⟩,
    ⟨(let s := ready; let s := s.setN (Od.rxState 0) 3; s.setN (Od.warmAttempts 0) 0), 0, by decide +kernel⟩⟩

theorem witness_ReceiverAcquiresAndLosesLock_3 :
    (∃ (s : Machine.State) (n : Nat), n < 64 ∧ s.nat (Od.rxState n) = 2 ∧ usableSignal s n = true ∧ s.nat (Od.acquireKind n) = 2 ∧ (s.dsp n).step = 2)
    ∧ (∃ (s : Machine.State) (n : Nat), n < 64 ∧ s.nat (Od.rxState n) = 2 ∧ usableSignal s n = true ∧ s.nat (Od.acquireKind n) = 2 ∧ (s.dsp n).step = 4)
    ∧ (∃ (s : Machine.State) (n : Nat), n < 64 ∧ s.nat (Od.rxState n) = 2 ∧ usableSignal s n = true ∧ s.nat (Od.acquireKind n) = 2 ∧ (s.dsp n).step = 6)
    ∧ (∃ (s : Machine.State) (n : Nat) (lo : Int) (hi : Int), n < 64 ∧ lo ≤ hi ∧ (s.dsp n).mode = 1)
    ∧ (∃ (s : Machine.State) (n : Nat) (lo : Int) (hi : Int), n < 64 ∧ lo ≤ hi ∧ (s.dsp n).mode ≠ 1) :=
  ⟨⟨(let s := ready; let s := s.setN (Od.lineState 0) 1; let s := s.setN (Od.rxState 0) 2; let s := s.setN (Od.acquireKind 0) 2;
      s.setDsp 0 { s.dsp 0 with step := 2 }), 0, by decide +kernel⟩,
    ⟨(let s := ready; let s := s.setN (Od.lineState 0) 1; let s := s.setN (Od.rxState 0) 2; let s := s.setN (Od.acquireKind 0) 2;
      s.setDsp 0 { s.dsp 0 with step := 4 }), 0, by decide +kernel⟩,
    ⟨(let s := ready; let s := s.setN (Od.lineState 0) 1; let s := s.setN (Od.rxState 0) 2; let s := s.setN (Od.acquireKind 0) 2;
      s.setDsp 0 { s.dsp 0 with step := 6 }), 0, by decide +kernel⟩,
    ⟨(let s := ready; s.setDsp 0 { s.dsp 0 with mode := 1 }), 0, -5, 5, by decide +kernel⟩,
    ⟨ready, 0, -5, 5, by decide +kernel⟩⟩

theorem witness_ReceiverAcquiresAndLosesLock_4 :
    (∃ (s : Machine.State) (n : Nat) (a : Acquired) (w : Warm), n < 64 ∧ s.nat (Od.rxState n) = 2 ∧ usableSignal s n = true ∧
      s.nat (Od.acquireKind n) = 1 ∧ (s.dsp n).step = 1 ∧ (s.dsp n).held = some w ∧ w.tone ≤ 2 * a.tone)
    ∧ (∃ (s : Machine.State) (n : Nat) (a : Acquired) (w : Warm), n < 64 ∧ s.nat (Od.rxState n) = 2 ∧ usableSignal s n = true ∧
      s.nat (Od.acquireKind n) = 1 ∧ (s.dsp n).step = 1 ∧ (s.dsp n).held = some w ∧ 2 * a.tone < w.tone)
    ∧ (∃ (s : Machine.State) (n : Nat) (cause : Nat), n < 64 ∧ s.nat (Od.rxState n) = 3 ∧ cause ≠ 0)
    ∧ (∃ (s : Machine.State) (n : Nat) (run : List (List (Int × Int) × List (Int × Int))), n < 64 ∧ s.nat (Od.rxState n) = 3 ∧
      singular (run.map fun w => whiskOut (s.dsp n).taps w.1 w.2) = true)
    ∧ (∃ (s : Machine.State) (n : Nat) (run : List (List (Int × Int) × List (Int × Int))), n < 64 ∧
      singular (run.map fun w => whiskOut (s.dsp n).taps w.1 w.2) = true ∧ blindRuns s n = true) :=
  ⟨⟨(let s := ready; let s := s.setN (Od.lineState 0) 1; let s := s.setN (Od.rxState 0) 2; let s := s.setN (Od.acquireKind 0) 1;
      s.setDsp 0 { s.dsp 0 with step := 1, held := some ⟨0, [], 0, 0, 2⟩ }), 0, ⟨0, 0, 1, 0, [], false⟩, ⟨0, [], 0, 0, 2⟩, by decide +kernel⟩,
    ⟨(let s := ready; let s := s.setN (Od.lineState 0) 1; let s := s.setN (Od.rxState 0) 2; let s := s.setN (Od.acquireKind 0) 1;
      s.setDsp 0 { s.dsp 0 with step := 1, held := some ⟨0, [], 0, 0, 3⟩ }), 0, ⟨0, 0, 1, 0, [], false⟩, ⟨0, [], 0, 0, 3⟩, by decide +kernel⟩,
    ⟨(let s := ready; s.setN (Od.rxState 0) 3), 0, 7, by decide +kernel⟩,
    ⟨(let s := ready; let s := s.setN (Od.rxState 0) 3; s.setDsp 0 { s.dsp 0 with taps := [(16384, 0), (0, 0), (16384, 0), (0, 0)] }), 0, [([(16384,
      0)], [(0, 0)])], by decide +kernel⟩,
    ⟨(let s := ready; let s := s.setN (Od.lineState 0) 1; let s := s.setN (Od.rxState 0) 2; let s := s.setN (Od.acquireKind 0) 2;
      s.setDsp 0 { s.dsp 0 with step := 4, taps := [(16384, 0), (0, 0), (16384, 0), (0, 0)] }), 0, [([(16384, 0)], [(0, 0)])], by decide +kernel⟩⟩

theorem witness_ReceiverAcquiresAndLosesLock_5 :
    (∃ (s : Machine.State) (n : Nat) (run : List (List (Int × Int) × List (Int × Int))), n < 64 ∧
      singular (run.map fun w => whiskOut (s.dsp n).taps w.1 w.2) = false) :=
  ⟨ready, 0, [([(16384, 0)], [(0, 0)])], by decide +kernel⟩

theorem witness_LadleAndWhiskFollowTheFibre :
    (∃ (s : Machine.State) (n : Nat), n < 64 ∧ s.nat (Od.rxState n) = 3 ∧ (s.dsp n).mode = 0 ∧ s.flag (Od.ladleTrack n) = true ∧ (s.dsp n).fade = none ∧
      1000 * s.nat (Od.trackStep n) ≤ (s.dsp n).residual.natAbs ∧ (s.int (Od.dispersionNow n) + ladleMove (s.dsp n).residual).natAbs ≤ ladleMax s n)
    ∧ (∃ (n : Nat), n < 64)
    ∧ (∃ (s : Machine.State) (n : Nat), n < 64 ∧ s.nat (Od.rxState n) = 3)
    ∧ (∃ (s : Machine.State) (n : Nat), n < 64 ∧ s.nat (Od.rxState n) ≠ 0 ∧ s.nat (Od.rxState n) ≠ 5)
    ∧ (∃ (s : Machine.State) (n : Nat), n < 64 ∧ s.nat (Od.rxState n) = 0) :=
  ⟨⟨(let s := ready; let s := s.setN (Od.rxState 0) 3; let s := s.setDsp 0 { (s.dsp 0) with mode := 0 }; let s := s.setB (Od.ladleTrack 0) true;
      let s := s.setDsp 0 { (s.dsp 0) with fade := none }; let s := s.setDsp 0 { s.dsp 0 with residual := 9000 }; s.setN (Od.fftSize 0) 4096), 0, by decide +kernel⟩,
    ⟨0, by decide +kernel⟩,
    ⟨(let s := ready; s.setN (Od.rxState 0) 3), 0, by decide +kernel⟩,
    ⟨(let s := ready; s.setN (Od.rxState 0) 3), 0, by decide +kernel⟩,
    ⟨(let s := ready; s.setN (Od.rxState 0) 0), 0, by decide +kernel⟩⟩

theorem witness_LadleAndWhiskFollowTheFibre_2 :
    (∃ (s : Machine.State) (n : Nat), n < 64 ∧ (s.dsp n).fade ≠ none ∧ (s.dsp n).due = false)
    ∧ (∃ (s : Machine.State) (n : Nat), n < 64 ∧ s.nat (Od.rxState n) = 3 ∧ (s.dsp n).mode = 0 ∧ s.flag (Od.ladleTrack n) = true ∧
      (s.dsp n).fade ≠ none ∧ 1000 * s.nat (Od.trackStep n) ≤ (s.dsp n).residual.natAbs ∧ (s.dsp n).due = true)
    ∧ (∃ (s : Machine.State) (n : Nat), n < 64 ∧ (s.nat (Od.rxState n) = 2 ∨ s.nat (Od.rxState n) = 3))
    ∧ (∃ (s : Machine.State) (n : Nat), n < 64 ∧ s.nat (Od.rxState n) ≠ 2 ∧ s.nat (Od.rxState n) ≠ 3) :=
  ⟨⟨(let s := ready; s.setDsp 0 { s.dsp 0 with fade := some ⟨[(4294967296, [0])], [1], 0, 4⟩ }), 0, by decide +kernel⟩,
    ⟨(let s := ready; let s := s.setN (Od.rxState 0) 3; let s := s.setB (Od.ladleTrack 0) true;
      s.setDsp 0 { s.dsp 0 with fade := some ⟨[(4294967296, [0])], [1], 0, 4⟩, due := true, residual := 9000000 }), 0, by decide +kernel⟩,
    ⟨(let s := ready; s.setN (Od.rxState 0) 2), 0, by decide +kernel⟩,
    ⟨ready, 0, by decide +kernel⟩⟩

theorem witness_JointRecoveryAndQualityAreKept_1 :
    (∃ (s : Machine.State) (p : Nat), p < 8 ∧ s.flag (Od.jointEnable p) = false)
    ∧ (∃ (s : Machine.State) (p : Nat), p < 8 ∧ s.flag (Od.jointEnable p) = true ∧ s.nat (Od.memberMask p) = 0)
    ∧ (∃ (p : Nat) (js : List Nat) (j : Nat), p < 8 ∧ (∀ (j : Nat), j ∈ js → j < 8) ∧ j < 8)
    ∧ (∃ (p : Nat), p < 8) :=
  ⟨⟨(let s := ready; s.setB (Od.jointEnable 0) false), 0, by decide +kernel⟩,
    ⟨(let s := ready; let s := s.setB (Od.jointEnable 0) true; s.setN (Od.memberMask 0) 0), 0, by decide +kernel⟩,
    ⟨0, ([] : List Nat), 0, by decide +kernel⟩,
    ⟨0, by decide +kernel⟩⟩

theorem witness_JointRecoveryAndQualityAreKept_2 :
    (∃ (js : List Nat) (j : Nat), js.Nodup ∧ (∀ (j : Nat), j ∈ js → j < 8))
    ∧ (∃ (s : Machine.State) (n : Nat), n < 64 ∧ s.nat (Od.rxState n) ≠ 3)
    ∧ (∃ (s : Machine.State) (n : Nat), n < 64 ∧ s.nat (Od.rxState n) = 3)
    ∧ (∃ (s : Machine.State) (n : Nat), n < 64 ∧ s.nat (Od.rxState n) = 3 ∧ f32LtRat (s.f32 (Od.qMarginNow n)) (s.int (Od.qMarginAlarm n)) 10 = true)
    ∧ (∃ (s : Machine.State) (n : Nat), n < 64 ∧ s.nat (Od.rxState n) = 3 ∧ f32GeRat (s.f32 (Od.qMarginNow n)) (s.int (Od.qMarginAlarm n) + 5) 10 = true)
    ∧ (∃ (s : Machine.State) (k : Nat), Admits s k Od.clearRxCounters 1) :=
  ⟨⟨([] : List Nat), 0, by decide +kernel⟩,
    ⟨(let s := ready; s.setN (Od.rxState 0) 0), 0, by decide +kernel⟩,
    ⟨(let s := ready; s.setN (Od.rxState 0) 3), 0, by decide +kernel⟩,
    ⟨(let s := ready; s.setN (Od.rxState 0) 3), 0, by decide +kernel⟩,
    ⟨(let s := ready; let s := s.setN (Od.rxState 0) 3; s.setF (Od.qMarginNow 0) 0x42C80000), 0, by decide +kernel⟩,
    ⟨ready, 0, admits_of (by decide +kernel) (by decide +kernel)⟩⟩

theorem witness_JointRecoveryAndQualityAreKept_3 :
    (∃ (s : Machine.State) (u : Machine.State) (p : Nat) (fits : List (Nat × List Nat)) (js : List Nat) (res : List (Nat × Nat)), p < 8 ∧
      s.flag (Od.jointEnable p) = true ∧ u = residualsReport s p res ∧
      jointPrune fits (1000 * s.nat (Od.residualLimit p)) 8 ((List.range 8).filter fun j => jointCandidate s p j && jointReady s p j) [] = (js,
      res) ∧ 3 ≤ js.length)
    ∧ (∃ (s : Machine.State) (u : Machine.State) (p : Nat) (fits : List (Nat × List Nat)) (js : List Nat) (res : List (Nat × Nat)), p < 8 ∧
      s.flag (Od.jointEnable p) = true ∧ u = residualsReport s p res ∧
      jointPrune fits (1000 * s.nat (Od.residualLimit p)) 8 ((List.range 8).filter fun j => jointCandidate s p j && jointReady s p j) [] = (js,
      res) ∧ js.length < 3)
    ∧ (∃ (s : Machine.State) (u : Machine.State) (p : Nat) (residuals : List (Nat × Nat)), p < 8 ∧ u = residualsReport s p residuals ∧
      u.flag (Od.jointEnable p) = false)
    ∧ (∃ (s : Machine.State) (u : Machine.State) (p : Nat) (residuals : List (Nat × Nat)), p < 8 ∧ u = residualsReport s p residuals ∧
      u.flag (Od.jointEnable p) = true ∧ u.nat (Od.memberMask p) = 0)
    ∧ (∃ (s : Machine.State) (u : Machine.State) (p : Nat) (residuals : List (Nat × Nat)) (keep : List Nat), p < 8 ∧ u = residualsReport s p residuals ∧
      keep = (slotsOf (u.nat (Od.memberMask p))).filter (fun j => jointCandidate u p j && usableSignal u (8 * p + j) && decide (Tbl.get (fun _ => 0) residuals j ≤ 2000 * (u.dsp (8 * p + j)).jointLimit)) ∧
      u.flag (Od.jointEnable p) = true ∧ 3 ≤ keep.length ∧ keep.length ≠ (slotsOf (u.nat (Od.memberMask p))).length) :=
  ⟨⟨(joint 3), residualsReport (joint 3) 0 [(0, 0), (1, 0), (2, 0)], 0, [(7, [])], [0, 1, 2], [(0, 0), (1, 0), (2, 0)], by decide, by decide +kernel,
      rfl, by decide +kernel⟩,
    ⟨(joint 2), residualsReport (joint 2) 0 [], 0, [], [0, 1], [], by decide, by decide +kernel, rfl, by decide +kernel⟩,
    ⟨alone, residualsReport alone 0 [], 0, [], by decide, rfl, by decide +kernel⟩,
    ⟨(joint 3), residualsReport (joint 3) 0 [], 0, [], by decide, rfl, by decide +kernel⟩,
    ⟨joined, residualsReport joined 0 [(3, 1)], 0, [(3, 1)], [0, 1, 2], by decide, rfl, by decide +kernel⟩⟩

theorem witness_JointRecoveryAndQualityAreKept_4 :
    (∃ (s : Machine.State) (u : Machine.State) (p : Nat) (j : Nat) (k : Nat), p < 8 ∧ j < 8 ∧ s.nat (Od.rxState (8 * p + j)) = 3 ∧
      s.flag (Od.jointEnable p) = false ∧ s.flag (Od.jointActive p) = false ∧
      u = (s.bumpBy (Od.cycleSlips (8 * p + j)) k).countEv 1 (8 * p + j) 5 k)
    ∧ (∃ (s : Machine.State) (p : Nat) (j : Nat), p < 8 ∧ j < 8 ∧ jointCandidate s p j = false) :=
  ⟨⟨alone, (alone.bumpBy (Od.cycleSlips 0) 2).countEv 1 0 5 2, 0, 0, 2, by decide, by decide, by decide +kernel, by decide +kernel,
      by decide +kernel, rfl⟩,
    ⟨ready, 0, 0, by decide +kernel⟩⟩

theorem witness_BackChannelReportsAndReceives :
    (∃ (s : Machine.State) (n : Nat), n < 64 ∧ s.engineUp n = true ∧ hasBackChannel s n = true)
    ∧ (∃ (s : Machine.State) (n : Nat), n < 64 ∧ (s.engineUp n = false ∨ hasBackChannel s n = false))
    ∧ (∃ (s : Machine.State) (n : Nat) (cell : Nat), n < 64 ∧ hasBackChannel s n = true ∧ bcCrcOk cell = false)
    ∧ (∃ (s : Machine.State) (n : Nat) (cell : Nat), n < 64 ∧ hasBackChannel s n = true ∧ bcCrcOk cell = true ∧ bcType cell = 0)
    ∧ (∃ (s : Machine.State) (n : Nat), n < 64 ∧ hasBackChannel s n = false)
    ∧ (∃ (s : Machine.State) (k : Nat), Admits s k Od.clearTuneCounters 1) :=
  ⟨⟨(let s := ready; let s := s.setB (Od.carrierEnable 0) true; s.setN (Od.powerState 0) 2), 0, by decide +kernel⟩,
    ⟨(let s := ready; s.setN (Od.powerState 0) 0), 0, by decide +kernel⟩,
    ⟨(let s := ready; s.setB (Od.carrierEnable 0) true), 0, 0, by decide +kernel⟩,
    ⟨(let s := ready; s.setB (Od.carrierEnable 0) true), 0, crc16 176 0, by decide +kernel⟩,
    ⟨ready, 0, by decide +kernel⟩,
    ⟨ready, 0, admits_of (by decide +kernel) (by decide +kernel)⟩⟩

theorem witness_AutomaticChangesFollowTheirRules_1 :
    (∃ (s : Machine.State) (n : Nat), n < 64 ∧ (s.tune n).targets ≠ [] ∧ mayAuto s n = true ∧ (∀ (k : Nat), k < 32 → entropyPending s n k = true → (s.tune
      n).targets.getD k 0 = (codesOf s n).getD k 0) ∧ layoutOk s n (s.tune n).targets (slotsInUse s n) 0 = true)
    ∧ (∃ (s : Machine.State) (n : Nat), n < 64 ∧ (s.tune n).targets ≠ [] ∧ mayAuto s n = true ∧ (∀ (k : Nat), k < 32 → entropyPending s n k = true → (s.tune
      n).targets.getD k 0 = (codesOf s n).getD k 0) ∧ layoutOk s n (s.tune n).targets (slotsInUse s n) 0 = false)
    ∧ (∃ (s : Machine.State) (n : Nat), n < 64 ∧ mayAuto s n = false)
    ∧ (∃ (s : Machine.State) (u : Machine.State) (n : Nat) (want : List Nat), n < 64 ∧ hasBackChannel s n = true ∧ s.nat (Od.tuneMode n) = 2 ∧ s.nat
      (Od.bcState n) = 1 ∧ (s.nat (Od.farRxState n) = 1 ∨ s.nat (Od.farRxState n) = 2) ∧ (s.tune n).lowSince.isSome = true ∧ (s.klfTx n).auto = none ∧
      (s.klfTx n).host = none ∧ s.boot.st ≠ ModState.safe ∧ u = s.setTune n { s.tune n with lowSince := some s.uptime } ∧ (want = List.map (fun k => if
      (decide (k < s.nat (Od.subcarrierCount n)) && (codesOf s n).getD k codeOff != codeOff && decide (netOf (s.nat (Od.fecOverhead n)) (s.nat
      (Od.rescueEntropy n)) < netOf (s.nat (Od.fecOverhead n)) ((codesOf s n).getD k codeOff))) = true then targetCode s n k ((codesOf s n).getD k codeOff)
      (s.nat (Od.rescueEntropy n)) false else (codesOf s n).getD k codeOff) (List.range 32)) ∧ want ≠ codesOf s n ∧ minimumOk s n want = false)
    ∧ (∃ (s : Machine.State) (u : Machine.State) (n : Nat) (want : List Nat), n < 64 ∧ hasBackChannel s n = true ∧ s.nat (Od.tuneMode n) = 2 ∧ s.nat
      (Od.bcState n) = 1 ∧ (s.nat (Od.farRxState n) = 1 ∨ s.nat (Od.farRxState n) = 2) ∧ (s.tune n).lowSince.isSome = true ∧ (s.klfTx n).auto = none ∧
      (s.klfTx n).host = none ∧ s.boot.st ≠ ModState.safe ∧ u = s.setTune n { s.tune n with lowSince := some s.uptime } ∧ (want = List.map (fun k => if
      (decide (k < s.nat (Od.subcarrierCount n)) && (codesOf s n).getD k codeOff != codeOff && decide (netOf (s.nat (Od.fecOverhead n)) (s.nat
      (Od.rescueEntropy n)) < netOf (s.nat (Od.fecOverhead n)) ((codesOf s n).getD k codeOff))) = true then targetCode s n k ((codesOf s n).getD k codeOff)
      (s.nat (Od.rescueEntropy n)) false else (codesOf s n).getD k codeOff) (List.range 32)) ∧ want ≠ codesOf s n ∧ minimumOk s n want = true) :=
  ⟨⟨(let s := ready; let s := s.setTune 0 { s.tune 0 with targets := [24] }; let s := s.setB (Od.carrierEnable 0) true;
      let s := s.setN (Od.tuneMode 0) 2; let s := s.setN (Od.bcState 0) 1; s.setTune 0 { s.tune 0 with targets := codesOf s 0 }), 0, by decide +kernel⟩,
    ⟨(let s := ready; let s := s.setTune 0 { s.tune 0 with targets := [24] }; let s := s.setB (Od.carrierEnable 0) true;
      let s := s.setN (Od.tuneMode 0) 2; s.setN (Od.bcState 0) 1), 0, by decide +kernel⟩,
    ⟨ready, 0, by decide +kernel⟩,
    ⟨(let s := ready; let s := s.setB (Od.carrierEnable 0) true; let s := s.setN (Od.tuneMode 0) 2; let s := s.setN (Od.bcState 0) 1;
      let s := s.setN (Od.farRxState 0) 1; let s := s.setTune 0 { (s.tune 0) with lowSince := some 0 };
      let s := s.setKlfTx 0 { (s.klfTx 0) with auto := none }; let s := s.setKlfTx 0 { (s.klfTx 0) with host := none };
      let s := { s with boot := { s.boot with st := ModState.ready } }; (List.range 31).foldl (fun s k => s.setN (Od.entropy (32 * 0 + k + 1)) codeOff) s),
      (let s : Machine.State := (let s := ready; let s := s.setB (Od.carrierEnable 0) true; let s := s.setN (Od.tuneMode 0) 2;
      let s := s.setN (Od.bcState 0) 1; let s := s.setN (Od.farRxState 0) 1; let s := s.setTune 0 { (s.tune 0) with lowSince := some 0 };
      let s := s.setKlfTx 0 { (s.klfTx 0) with auto := none }; let s := s.setKlfTx 0 { (s.klfTx 0) with host := none };
      let s := { s with boot := { s.boot with st := ModState.ready } }; (List.range 31).foldl (fun s k => s.setN (Od.entropy (32 * 0 + k + 1)) codeOff) s);
      s.setTune 0 { s.tune 0 with lowSince := some s.uptime }), 0, (let s : Machine.State := (let s := ready; let s := s.setB (Od.carrierEnable 0) true;
      let s := s.setN (Od.tuneMode 0) 2; let s := s.setN (Od.bcState 0) 1; let s := s.setN (Od.farRxState 0) 1;
      let s := s.setTune 0 { (s.tune 0) with lowSince := some 0 }; let s := s.setKlfTx 0 { (s.klfTx 0) with auto := none };
      let s := s.setKlfTx 0 { (s.klfTx 0) with host := none }; let s := { s with boot := { s.boot with st := ModState.ready } };
      (List.range 31).foldl (fun s k => s.setN (Od.entropy (32 * 0 + k + 1)) codeOff) s);
      (List.range 32).map fun k => if k < s.nat (Od.subcarrierCount 0) && (codesOf s 0).getD k codeOff != codeOff && decide (netOf (s.nat (Od.fecOverhead 0)) (s.nat (Od.rescueEntropy 0)) < netOf (s.nat (Od.fecOverhead 0)) ((codesOf s 0).getD k codeOff)) then targetCode s 0 k ((codesOf s 0).getD k codeOff) (s.nat (Od.rescueEntropy 0)) false else (codesOf s 0).getD k codeOff),
      by decide +kernel⟩,
    ⟨(let s := ready; let s := s.setB (Od.carrierEnable 0) true; let s := s.setN (Od.tuneMode 0) 2; let s := s.setN (Od.bcState 0) 1;
      let s := s.setN (Od.farRxState 0) 1; let s := s.setTune 0 { (s.tune 0) with lowSince := some 0 };
      let s := s.setKlfTx 0 { (s.klfTx 0) with auto := none }; let s := s.setKlfTx 0 { (s.klfTx 0) with host := none };
      { s with boot := { s.boot with st := ModState.ready } }), (let s : Machine.State := (let s := ready; let s := s.setB (Od.carrierEnable 0) true;
      let s := s.setN (Od.tuneMode 0) 2; let s := s.setN (Od.bcState 0) 1; let s := s.setN (Od.farRxState 0) 1;
      let s := s.setTune 0 { (s.tune 0) with lowSince := some 0 }; let s := s.setKlfTx 0 { (s.klfTx 0) with auto := none };
      let s := s.setKlfTx 0 { (s.klfTx 0) with host := none }; { s with boot := { s.boot with st := ModState.ready } });
      s.setTune 0 { s.tune 0 with lowSince := some s.uptime }), 0, (let s : Machine.State := (let s := ready; let s := s.setB (Od.carrierEnable 0) true;
      let s := s.setN (Od.tuneMode 0) 2; let s := s.setN (Od.bcState 0) 1; let s := s.setN (Od.farRxState 0) 1;
      let s := s.setTune 0 { (s.tune 0) with lowSince := some 0 }; let s := s.setKlfTx 0 { (s.klfTx 0) with auto := none };
      let s := s.setKlfTx 0 { (s.klfTx 0) with host := none }; { s with boot := { s.boot with st := ModState.ready } });
      (List.range 32).map fun k => if k < s.nat (Od.subcarrierCount 0) && (codesOf s 0).getD k codeOff != codeOff && decide (netOf (s.nat (Od.fecOverhead 0)) (s.nat (Od.rescueEntropy 0)) < netOf (s.nat (Od.fecOverhead 0)) ((codesOf s 0).getD k codeOff)) then targetCode s 0 k ((codesOf s 0).getD k codeOff) (s.nat (Od.rescueEntropy 0)) false else (codesOf s 0).getD k codeOff),
      by decide +kernel⟩⟩

theorem witness_AutomaticChangesFollowTheirRules_2 :
    (∃ (s : Machine.State) (n : Nat) (k : Nat), n < 64 ∧ k < 32 ∧ entropyPending s n k = true)
    ∧ (∃ (s : Machine.State) (n : Nat) (c : Change), n < 64 ∧ (s.klfTx n).auto = some c ∧ c.rescue = false) :=
  ⟨⟨(let s := ready; s.setShadow (Od.entropy (32 * 0 + 0)) (.u 24)), 0, 0, by decide +kernel⟩,
    ⟨(let s := ready; s.setKlfTx 0 { (s.klfTx 0) with auto := some ({ ({} : Change) with rescue := false } : Change) }), 0,
      ({ ({} : Change) with rescue := false } : Change), by decide +kernel⟩⟩

theorem witness_AutomaticChangesFollowTheirRules_3 :
    (∃ (s : Machine.State) (n : Nat), (s.armed n = true ∨ s.boot.st = .safe ∨ (s.klfTx n).auto.isSome = true ∨ s.nat (Od.bcState n) ≠ 1))
    ∧ (∃ (s : Machine.State) (n : Nat), n < 64 ∧ s.nat (Od.tuneMode n) ≠ 2) :=
  ⟨⟨ready, 0, by decide +kernel⟩,
    ⟨(let s := ready; s.setN (Od.tuneMode 0) 1), 0, by decide +kernel⟩⟩

theorem witness_BlockFieldsReadBackAsWritten_1 :
    (∃ (record : Nat) (phase : Nat), record < 2 ^ 264 ∧ phase < 32768)
    ∧ (∃ (tag : Nat) (codes : List Nat), tag < 256 ∧ (∀ (k : Nat), codes.getD k codeOff < 256))
    ∧ (∃ (x : Fixed), x.counter < 2 ^ 48 ∧ x.announcement < 2 ^ 32 ∧ x.confirmation < 2 ^ 16 ∧ x.control < 2 ^ 144 ∧ x.backChannel < 2 ^ 192 ∧ x.trayMap < 2
      ^ 64 ∧ x.sealCount < 2 ^ 8)
    ∧ (∃ (countdown : Nat) (tag : Nat) (request : Nat), countdown < 32 ∧ tag < 256 ∧ request < 128)
    ∧ (∃ (type : Nat) (part : Nat) (request : Nat) (record : Nat), type < 16 ∧ part < 2 ∧ request < 128 ∧ record < 2 ^ 264)
    ∧ (∃ (type : Nat) (rxState : Nat) (part : Nat) (seq : Nat) (tag : Nat) (entries : List (Nat × Nat)) (i : Nat), type < 16 ∧ rxState < 4 ∧ part < 4 ∧ seq
      < 16 ∧ tag < 256 ∧ (∀ (e : Nat × Nat), e ∈ entries → e.fst < 256 ∧ e.snd < 256) ∧ i < 8) :=
  ⟨⟨0, 0, by decide +kernel⟩,
    ⟨0, ([] : List Nat), by decide +kernel, (by intro k; simp [codeOff])⟩,
    ⟨({} : Fixed), by decide +kernel⟩,
    ⟨0, 0, 0, by decide +kernel⟩,
    ⟨0, 0, 0, 0, by decide +kernel⟩,
    ⟨0, 0, 0, 0, 0, ([] : List (Nat × Nat)), 0, by decide +kernel⟩⟩

theorem witness_BlockFieldsReadBackAsWritten_2 :
    (∃ (tag : Nat) (entry : Nat → Nat) (e : Nat), tag < 16 ∧ (∀ (i : Nat), entry i < 4096) ∧ e < 4)
    ∧ (∃ (kind : Nat) (status : Nat) (count : Nat) (tray : Nat), kind < 16 ∧ status < 4 ∧ count < 2 ^ 20 ∧ tray < 2048)
    ∧ (∃ (length : Nat) (member : Nat) (priority : Nat), length < 65536 ∧ member < 16 ∧ priority < 8) :=
  ⟨⟨0, fun _ => 0, 0, by decide +kernel, (by intro i; exact (by decide : (0 : Nat) < 4096)), by decide +kernel⟩,
    ⟨0, 0, 0, 0, by decide +kernel⟩,
    ⟨0, 0, 0, by decide +kernel⟩⟩

theorem witness_PayloadIsRecovered :
    (∃ (p : Nat) (cm : Nat) (bs : List Bool), 0 < p ∧ cm ≤ p ∧ bs.length = cm)
    ∧ (∃ (n : Nat) (v : Nat), v < 2 ^ n) :=
  ⟨⟨1, 0, ([] : List Bool), by decide +kernel⟩,
    ⟨0, 0, by decide +kernel⟩⟩

theorem witness_BlocksAreSentAlignedAndDecoded_1 :
    (∃ (s : Machine.State) (u : Machine.State) (v : Machine.State) (n : Nat) (fill : Nat), n < 64 ∧ s.engineUp n = true ∧ s.nat (Od.calState n) = 2 ∧
      (s.engine n).resetting = false ∧ u = (s.setEngine n { s.engine n with tx := { (s.engine n).tx with next := (s.engine n).tx.next + 1 } }).setN
      (Od.txBlockCounter n) ((s.engine n).tx.next % 2 ^ 48) ∧ v = (u.setN (Od.txFill n) (min fill 65536)).peak (Od.txHighWater n) (min fill 65536) ∧
      inService s n = false)
    ∧ (∃ (s : Machine.State) (u : Machine.State) (v : Machine.State) (n : Nat) (fill : Nat) (feeds : List TrayFeed), n < 64 ∧ s.engineUp n = true ∧ s.nat
      (Od.calState n) = 2 ∧ (s.engine n).resetting = false ∧ u = (s.setEngine n
      { s.engine n with tx := { (s.engine n).tx with next := (s.engine n).tx.next + 1 } }).setN (Od.txBlockCounter n) ((s.engine n).tx.next % 2 ^ 48) ∧ v =
      (u.setN (Od.txFill n) (min fill 65536)).peak (Od.txHighWater n) (min fill 65536) ∧ inService s n = true ∧ krytelm s n = true ∧ (((placementsOf v
      n).any fun p => (feedOf feeds p.tray p.prot).underrun) = false))
    ∧ (∃ (s : Machine.State) (n : Nat), n < 64 ∧ (s.engineUp n = false ∨ s.nat (Od.calState n) ≠ 2))
    ∧ (∃ (s : Machine.State) (n : Nat), n < 64 ∧ (∀ (k : Nat), k < 32 → s.nat (Od.entropy (32 * n + k)) < 256) ∧ s.nat (Od.layoutTag n) < 256)
    ∧ (∃ (s : Machine.State) (n : Nat) (header : Nat), n < 64 ∧ receives s n = true ∧ s.nat (Od.rxState n) = 2 ∧ (s.dsp n).step + 2 = lastStep s n ∧
      headerOk header = false)
    ∧ (∃ (s : Machine.State) (n : Nat) (header : Nat), n < 64 ∧ receives s n = true ∧ s.nat (Od.rxState n) = 2 ∧ (s.dsp n).step + 2 = lastStep s n ∧
      headerOk header = true ∧ (s.klfRx n).lastHeader = none) :=
  ⟨⟨(let s := ready; let s := s.setN (Od.powerState 0) 2; let s := s.setN (Od.calState 0) 2; s.setEngine 0 { (s.engine 0) with resetting := false }),
      (let s : Machine.State := (let s := ready; let s := s.setN (Od.powerState 0) 2; let s := s.setN (Od.calState 0) 2;
      s.setEngine 0 { (s.engine 0) with resetting := false });
      (s.setEngine 0 { s.engine 0 with tx := { (s.engine 0).tx with next := (s.engine 0).tx.next + 1 } }).setN (Od.txBlockCounter 0) ((s.engine 0).tx.next % 2 ^ 48)),
      (let s : Machine.State := (let s := ready; let s := s.setN (Od.powerState 0) 2; let s := s.setN (Od.calState 0) 2;
      s.setEngine 0 { (s.engine 0) with resetting := false });
      (((s.setEngine 0 { s.engine 0 with tx := { (s.engine 0).tx with next := (s.engine 0).tx.next + 1 } }).setN (Od.txBlockCounter 0) ((s.engine 0).tx.next % 2 ^ 48)).setN (Od.txFill 0) (min 0 65536)).peak (Od.txHighWater 0) (min 0 65536)),
      0, 0, by decide +kernel⟩,
    ⟨(let s := ready; let s := s.setB (Od.carrierEnable 0) true; let s := s.setN (Od.powerState 0) 2; let s := s.setN (Od.calState 0) 2;
      s.setEngine 0 { (s.engine 0) with resetting := false }), (let s : Machine.State := (let s := ready; let s := s.setB (Od.carrierEnable 0) true;
      let s := s.setN (Od.powerState 0) 2; let s := s.setN (Od.calState 0) 2; s.setEngine 0 { (s.engine 0) with resetting := false });
      (s.setEngine 0 { s.engine 0 with tx := { (s.engine 0).tx with next := (s.engine 0).tx.next + 1 } }).setN (Od.txBlockCounter 0) ((s.engine 0).tx.next % 2 ^ 48)),
      (let s : Machine.State := (let s := ready; let s := s.setB (Od.carrierEnable 0) true; let s := s.setN (Od.powerState 0) 2;
      let s := s.setN (Od.calState 0) 2; s.setEngine 0 { (s.engine 0) with resetting := false });
      (((s.setEngine 0 { s.engine 0 with tx := { (s.engine 0).tx with next := (s.engine 0).tx.next + 1 } }).setN (Od.txBlockCounter 0) ((s.engine 0).tx.next % 2 ^ 48)).setN (Od.txFill 0) (min 0 65536)).peak (Od.txHighWater 0) (min 0 65536)),
      0, 0, ([] : List TrayFeed), by decide +kernel⟩,
    ⟨(let s := ready; s.setN (Od.powerState 0) 0), 0, by decide +kernel⟩,
    ⟨ready, 0, by decide +kernel⟩,
    ⟨(let s := ready; let s := s.setB (Od.carrierEnable 0) true; let s := s.setN (Od.rxState 0) 2; s.setDsp 0 { s.dsp 0 with step := lastStep s 0 - 2 }),
      0, 0, by decide +kernel⟩,
    ⟨(let s := ready; let s := s.setB (Od.carrierEnable 0) true; let s := s.setN (Od.rxState 0) 2;
      let s := s.setDsp 0 { s.dsp 0 with step := lastStep s 0 - 2 }; s.setKlfRx 0 { (s.klfRx 0) with lastHeader := none }), 0, headerSigns 0 0, by decide +kernel⟩⟩

theorem witness_BlocksAreSentAlignedAndDecoded_2 :
    (∃ (s : Machine.State) (n : Nat) (header : Nat) (phase : Nat), n < 64 ∧ receives s n = true ∧ s.nat (Od.rxState n) = 2 ∧ (s.dsp n).step + 2 = lastStep
      s n ∧ headerOk header = true ∧ (s.klfRx n).lastHeader = some (recordTag (headerRecord header), phase) ∧ headerPhase header = (phase +
      codedBitsPerBlock (fmtOf s n) (recordCodes (headerRecord header))) % 32768)
    ∧ (∃ (s : Machine.State) (n : Nat), n < 64 ∧ receives s n = false)
    ∧ (∃ (s : Machine.State) (n : Nat), n < 64 ∧ s.nat (Od.alignState n) = 3)
    ∧ (∃ (s : Machine.State) (n : Nat), n < 64 ∧ s.nat (Od.alignState n) ≠ 3)
    ∧ (∃ (s : Machine.State) (n : Nat), n < 64 ∧ (s.engineUp n = false ∨ s.nat (Od.alignState n) = 0))
    ∧ (∃ (s : Machine.State) (u : Machine.State) (n : Nat) (b : DecodedBlock), n < 64 ∧ s.engineUp n = true ∧ inService s n = true ∧ isHub s n = false ∧
      s.nat (Od.alignState n) ≠ 0 ∧ u = (s.setN (Od.rxFill n) (min b.rxFill 65536)).peak (Od.rxHighWater n) (min b.rxFill 65536)) :=
  ⟨⟨(let s := ready; let s := s.setB (Od.carrierEnable 0) true; let s := s.setN (Od.rxState 0) 2;
      let s := s.setDsp 0 { s.dsp 0 with step := lastStep s 0 - 2 };
      s.setKlfRx 0 { (s.klfRx 0) with lastHeader := some (recordTag (headerRecord (headerSigns 0 0)), 4096) }), 0, headerSigns 0 0, 4096, by decide +kernel⟩,
    ⟨ready, 0, by decide +kernel⟩,
    ⟨(let s := ready; s.setN (Od.alignState 0) 3), 0, by decide +kernel⟩,
    ⟨(let s := ready; s.setN (Od.alignState 0) 0), 0, by decide +kernel⟩,
    ⟨(let s := ready; s.setN (Od.powerState 0) 0), 0, by decide +kernel⟩,
    ⟨(let s := ready; let s := s.setB (Od.carrierEnable 0) true; let s := s.setN (Od.powerState 0) 2; s.setN (Od.alignState 0) 1), (let s : Machine.State
      := (let s := ready; let s := s.setB (Od.carrierEnable 0) true; let s := s.setN (Od.powerState 0) 2; s.setN (Od.alignState 0) 1);
      (s.setN (Od.rxFill 0) (min ({ coded := [], bad := [], frame := true, clients := [], rxFill := 0, overrun := false, delays := [] } : DecodedBlock).rxFill 65536)).peak (Od.rxHighWater 0) (min ({ coded := [], bad := [], frame := true, clients := [], rxFill := 0, overrun := false, delays := [] } : DecodedBlock).rxFill 65536)),
      0, ({ coded := [], bad := [], frame := true, clients := [], rxFill := 0, overrun := false, delays := [] } : DecodedBlock), by decide +kernel⟩⟩

theorem witness_BlocksAreSentAlignedAndDecoded_3 :
    (∃ (s : Machine.State) (n : Nat), n < 64 ∧ s.nat (Od.alignState n) ≠ 2 ∧ 2 ≤ (s.klfRx n).passes)
    ∧ (∃ (s : Machine.State) (n : Nat), n < 64 ∧ s.nat (Od.alignState n) = 2 ∧ (s.klfRx n).fails = 7)
    ∧ (∃ (s : Machine.State) (n : Nat), n < 64 ∧ s.nat (Od.alignState n) = 2 ∧ (s.klfRx n).fails < 7)
    ∧ (∃ (n : Nat), n < 64)
    ∧ (∃ (s : Machine.State) (n : Nat), n < 64 ∧ s.engineUp n = true ∧ inService s n = true ∧ s.nat (Od.alignState n) ≠ 0 ∧ krytelm s n = true ∧ (s.engine
      n).sieveStart < 2)
    ∧ (∃ (s : Machine.State) (n : Nat) (r : CodedRelease), n < 64 ∧ s.engineUp n = true ∧ inService s n = true ∧ s.nat (Od.alignState n) ≠ 0 ∧ krytelm s n =
      true ∧ 2 ≤ (s.engine n).sieveStart ∧ r.uncorrected = true) :=
  ⟨⟨(let s := ready; let s := s.setN (Od.alignState 0) 0; s.setKlfRx 0 { (s.klfRx 0) with passes := 2 }), 0, by decide +kernel⟩,
    ⟨(let s := ready; let s := s.setN (Od.alignState 0) 2; s.setKlfRx 0 { (s.klfRx 0) with fails := 7 }), 0, by decide +kernel⟩,
    ⟨(let s := ready; s.setN (Od.alignState 0) 2), 0, by decide +kernel⟩,
    ⟨0, by decide +kernel⟩,
    ⟨(let s := ready; let s := s.setB (Od.carrierEnable 0) true; let s := s.setN (Od.powerState 0) 2; s.setN (Od.alignState 0) 1), 0, by decide +kernel⟩,
    ⟨(let s := ready; let s := s.setB (Od.carrierEnable 0) true; let s := s.setN (Od.powerState 0) 2; let s := s.setN (Od.alignState 0) 1;
      s.setEngine 0 { (s.engine 0) with sieveStart := 2 }), 0,
      ({ ({ uncorrected := false, ones := 1, zeros := 0, iterations := 0, inFlight := 0 } : CodedRelease) with uncorrected := true } : CodedRelease), by decide +kernel⟩⟩

theorem witness_BlocksAreSentAlignedAndDecoded_4 :
    (∃ (s : Machine.State) (n : Nat) (r : CodedRelease), n < 64 ∧ s.engineUp n = true ∧ inService s n = true ∧ s.nat (Od.alignState n) ≠ 0 ∧ krytelm s n =
      true ∧ 2 ≤ (s.engine n).sieveStart ∧ r.uncorrected = false ∧ r.ones + r.zeros ≠ 0)
    ∧ (∃ (s : Machine.State) (n : Nat), n < 64 ∧ s.engineUp n = false)
    ∧ (∃ (s : Machine.State) (k : Nat), Admits s k Od.clearFecCounters 1) :=
  ⟨⟨(let s := ready; let s := s.setB (Od.carrierEnable 0) true; let s := s.setN (Od.powerState 0) 2; let s := s.setN (Od.alignState 0) 1;
      s.setEngine 0 { (s.engine 0) with sieveStart := 2 }), 0,
      ({ ({ uncorrected := false, ones := 1, zeros := 0, iterations := 0, inFlight := 0 } : CodedRelease) with uncorrected := false } : CodedRelease), by decide +kernel⟩,
    ⟨(let s := ready; s.setN (Od.powerState 0) 0), 0, by decide +kernel⟩,
    ⟨ready, 0, admits_of (by decide +kernel) (by decide +kernel)⟩⟩

theorem witness_BlocksAreSentAlignedAndDecoded_5 :
    (∃ (s : Machine.State) (n : Nat) (v : Nat) (b : DecodedBlock), n < 64 ∧ receives s n = true ∧ s.nat (Od.rxState n) = 2 ∧
      s.nat (Od.alignState n) = 1 ∧ (s.klfRx n).known = false ∧ (s.klfRx n).passes = 0 ∧ b.overrun = false ∧ b.delays = [] ∧
      ((blockData s n b).take 568).length = 568 ∧ (∀ x, x ∈ (blockData s n b).take 568 → x.2 = false) ∧
      v = natOfBits (((blockData s n b).take 568).map (·.1)) ∧ fixedCrcOk v = true ∧ fixedAligned v = true) :=
  ⟨hunting, 0, ({ counter := 5 } : Fixed).encode, opening, by decide +kernel⟩

theorem witness_LayoutChangesAreNegotiated_1 :
    (∃ (s : Machine.State) (n : Nat) (id : Nat) (record : Nat), n < 64 ∧ receives s n = true ∧ id ≠ 0 ∧ (s.klfRx n).judged ≠ id ∧ (Option.map (fun p =>
      p.snd.fst) (s.klfRx n).requestParts.head? = some id) ∧ (recordOf (List.map (fun p => (p.fst, p.snd.snd)) (s.klfRx n).requestParts) = some record) ∧
      s.nat (Od.rxState n) = 3 ∧ recordTag record = (recordTag (s.klfRx n).record + 1) % 256 ∧ (s.klfRx n).target = none ∧ requestCodesOk (fmtOf s n)
      (recordCodes record) = true ∧ meetsMinimum (fmtOf s n) (recordCodes record) = true)
    ∧ (∃ (s : Machine.State) (n : Nat) (id : Nat) (record : Nat), n < 64 ∧ receives s n = true ∧ id ≠ 0 ∧ (s.klfRx n).judged ≠ id ∧ (Option.map (fun p =>
      p.snd.fst) (s.klfRx n).requestParts.head? = some id) ∧ (recordOf (List.map (fun p => (p.fst, p.snd.snd)) (s.klfRx n).requestParts) = some record) ∧
      s.nat (Od.rxState n) ≠ 3)
    ∧ (∃ (s : Machine.State) (n : Nat) (id : Nat) (c : Change), n < 64 ∧ receives s n = true ∧ id ≠ 0 ∧ (s.klfTx n).auto = some c ∧ c.waiting = true ∧
      c.request = id)
    ∧ (∃ (s : Machine.State) (n : Nat) (id : Nat) (c : Change), n < 64 ∧ receives s n = true ∧ id ≠ 0 ∧ (s.klfTx n).auto = none ∧ (s.klfTx n).host = some c
      ∧ c.waiting = true ∧ c.request = id ∧ (s.scope n).member = false)
    ∧ (∃ (s : Machine.State) (n : Nat) (ann : Nat), n < 64 ∧ receives s n = true ∧ (s.klfRx n).known = true ∧ (s.klfRx n).target = none ∧ 1 ≤ annCountdown
      ann ∧ annCountdown ann ≤ 16)
    ∧ (∃ (s : Machine.State) (n : Nat) (ann : Nat) (b : Nat) (tag : Nat), n < 64 ∧ receives s n = true ∧ (s.klfRx n).known = true ∧ (s.klfRx n).target =
      some (b, tag) ∧ annCountdown ann = 0 ∧ 0 < (b + 2 ^ 48 - (s.klfRx n).counter) % 2 ^ 48 ∧ (b + 2 ^ 48 - (s.klfRx n).counter) % 2 ^ 48 < 2 ^ 47) :=
  ⟨⟨(let s := ready; let s := s.setB (Od.carrierEnable 0) true; let s := s.setKlfRx 0 { (s.klfRx 0) with judged := (5 + 7) };
      let s := s.setN (Od.rxState 0) 3; let s := s.setKlfRx 0 { (s.klfRx 0) with target := none };
      s.setKlfRx 0 { s.klfRx 0 with requestParts := [(0, 5, (layoutRecord (fmtOf ready 0) 1 (codesOf ready 0)) / 2 ^ 132), (1, 5, (layoutRecord (fmtOf ready 0) 1 (codesOf ready 0)) % 2 ^ 132)] }),
      0, 5, layoutRecord (fmtOf ready 0) 1 (codesOf ready 0), by decide +kernel⟩,
    ⟨(let s := ready; let s := s.setB (Od.carrierEnable 0) true; let s := s.setKlfRx 0 { (s.klfRx 0) with judged := (5 + 7) };
      let s := s.setN (Od.rxState 0) 0; s.setKlfRx 0 { s.klfRx 0 with requestParts := [(0, 5, (2 ^ 140) / 2 ^ 132), (1, 5, (2 ^ 140) % 2 ^ 132)] }), 0, 5, 2
      ^ 140, by decide +kernel⟩,
    ⟨(let s := ready; let s := s.setB (Od.carrierEnable 0) true;
      s.setKlfTx 0 { (s.klfTx 0) with auto := some ({ ({ ({} : Change) with waiting := true } : Change) with request := 1 } : Change) }), 0, 1,
      ({ ({ ({} : Change) with waiting := true } : Change) with request := 1 } : Change), by decide +kernel⟩,
    ⟨(let s := ready; let s := s.setB (Od.carrierEnable 0) true; let s := s.setKlfTx 0 { (s.klfTx 0) with auto := none };
      let s := s.setKlfTx 0 { (s.klfTx 0) with host := some ({ ({ ({} : Change) with waiting := true } : Change) with request := 1 } : Change) };
      s.setScope 0 { (s.scope 0) with member := false }), 0, 1, ({ ({ ({} : Change) with waiting := true } : Change) with request := 1 } : Change), by decide +kernel⟩,
    ⟨(let s := ready; let s := s.setB (Od.carrierEnable 0) true; let s := s.setKlfRx 0 { (s.klfRx 0) with known := true };
      s.setKlfRx 0 { (s.klfRx 0) with target := none }), 0, 2 ^ 27, by decide +kernel⟩,
    ⟨(let s := ready; let s := s.setB (Od.carrierEnable 0) true; let s := s.setKlfRx 0 { (s.klfRx 0) with known := true };
      s.setKlfRx 0 { (s.klfRx 0) with target := some (3, 0) }), 0, 0, 3, 0, by decide +kernel⟩⟩

theorem witness_LayoutChangesAreNegotiated_2 :
    (∃ (s : Machine.State) (n : Nat) (b : Nat) (tag : Nat) (record : Nat), n < 64 ∧ (s.klfRx n).target = some (b, tag) ∧ recordOf (s.klfRx n).pendingParts
      = some record ∧ s.nat (Od.rxState n) = 3 ∧ recordTag record = tag)
    ∧ (∃ (s : Machine.State) (n : Nat) (b : Nat) (tag : Nat), n < 64 ∧ (s.klfRx n).target = some (b, tag) ∧ recordOf (s.klfRx n).pendingParts = none)
    ∧ (∃ (s : Machine.State) (n : Nat), n < 64 ∧ (s.klfTx n).confirmLeft = 0)
    ∧ (∃ (s : Machine.State) (n : Nat), n < 64 ∧ (s.klfTx n).confirmLeft ≠ 0 ∧ isHub s n = false) :=
  ⟨⟨(let s := ready; let s := s.setN (Od.rxState 0) 3; s.setKlfRx 0 { s.klfRx 0 with pendingParts := [(0, 0), (1, 0)], target := some (0, 0) }), 0, 0, 0,
      0, by decide +kernel⟩,
    ⟨(let s := ready; s.setKlfRx 0 { (s.klfRx 0) with target := some (0, 0) }), 0, 0, 0, by decide +kernel⟩,
    ⟨(let s := ready; s.setKlfTx 0 { (s.klfTx 0) with confirmLeft := 0 }), 0, by decide +kernel⟩,
    ⟨(let s := ready; s.setKlfTx 0 { (s.klfTx 0) with confirmLeft := 1 }), 0, by decide +kernel⟩⟩

theorem witness_LanesComeUpAndExchange_1 :
    (∃ (s : Machine.State) (k : Nat), k < 1024 ∧ s.nat (Od.laneState k) = 1 ∧ clientOf s k = none)
    ∧ (∃ (s : Machine.State) (k : Nat) (t : Nat), k < 1024 ∧ s.nat (Od.laneState k) = 1 ∧ clientOf s k = some t)
    ∧ (∃ (s : Machine.State) (k : Nat) (t : Nat) (ty : Nat) (abilities : Nat), k < 1024 ∧ s.nat (Od.laneState k) = 2 ∧ clientOf s k = some t ∧ s.nat
      (Od.firstLane t) = k ∧ (s.lane k).anEnable = true ∧ (List.find? (fun ty => typeAllowed s t ty && decide (abilities / 2 ^ ty % 2 = 1)) clause73Order =
      some ty))
    ∧ (∃ (s : Machine.State) (k : Nat), k < 1024 ∧ s.nat (Od.laneState k) = 3)
    ∧ (∃ (s : Machine.State) (k : Nat) (fom : F32), k < 1024 ∧ s.nat (Od.laneState k) = 4 ∧ f32GeRat fom (lockThreshold s k) 10 = true ∧ (s.lane
      k).exchangeMode = 0) :=
  ⟨⟨(let s := ready; s.setN (Od.laneState 0) 1), 0, by decide +kernel⟩,
    ⟨(let s := ready; let s := s.setN (Od.laneState 0) 1; let s := s.setN (Od.clientType 0) 1; s.setN (Od.firstLane 0) 0), 0, 0, by decide +kernel⟩,
    ⟨(let s := ready; let s := s.setN (Od.laneState 0) 2; let s := s.setN (Od.clientType 0) 1; let s := s.setN (Od.firstLane 0) 0;
      s.setLane 0 { (s.lane 0) with anEnable := true }), 0, 0, 1, 2, by decide +kernel⟩,
    ⟨(let s := ready; s.setN (Od.laneState 0) 3), 0, by decide +kernel⟩,
    ⟨(let s := ready; let s := s.setN (Od.laneState 0) 4; s.setLane 0 { (s.lane 0) with exchangeMode := 0 }), 0, 0x42C80000, by decide +kernel⟩⟩

theorem witness_LanesComeUpAndExchange_2 :
    (∃ (s : Machine.State) (k : Nat) (fom : F32), k < 1024 ∧ s.nat (Od.laneState k) = 4 ∧ f32GeRat fom (lockThreshold s k) 10 = true ∧ (s.lane
      k).exchangeMode ≠ 0)
    ∧ (∃ (k : Nat), k < 1024)
    ∧ (∃ (s : Machine.State) (k : Nat) (frame : Nat), k < 1024 ∧ s.nat (Od.laneState k) = 5 ∧ frame < 2 ^ 128 ∧ bits frame 127 96 ≠ 3282393660)
    ∧ (∃ (s : Machine.State) (k : Nat) (frame : Nat), k < 1024 ∧ s.nat (Od.laneState k) = 5 ∧ frame < 2 ^ 128 ∧ bits frame 127 96 = 3282393660 ∧ crc16 112
      (frame / 2 ^ 16) = bits frame 15 0 ∧ bits frame 95 88 ≠ 1)
    ∧ (∃ (s : Machine.State) (k : Nat) (frame : Nat), k < 1024 ∧ s.nat (Od.laneState k) = 5 ∧ frame < 2 ^ 128 ∧ bits frame 127 96 = 3282393660 ∧ crc16 112
      (frame / 2 ^ 16) = bits frame 15 0 ∧ bits frame 95 88 = 1)
    ∧ (∃ (s : Machine.State) (k : Nat), k < 1024 ∧ s.nat (Od.laneState k) = 5 ∧ (s.lane k).complete = true) :=
  ⟨⟨(let s := ready; let s := s.setN (Od.laneState 0) 4; s.setLane 0 { (s.lane 0) with exchangeMode := 1 }), 0, 0x42C80000, by decide +kernel⟩,
    ⟨0, by decide +kernel⟩,
    ⟨(let s := ready; s.setN (Od.laneState 0) 5), 0, 0, by decide +kernel⟩,
    ⟨(let s := ready; s.setN (Od.laneState 0) 5), 0, (0xC3A55A3C * 2 ^ 80) * 2 ^ 16 + crc16 112 (0xC3A55A3C * 2 ^ 80), by decide +kernel⟩,
    ⟨(let s := ready; s.setN (Od.laneState 0) 5), 0, (0xC3A55A3C * 2 ^ 80 + 2 ^ 72) * 2 ^ 16 + crc16 112 (0xC3A55A3C * 2 ^ 80 + 2 ^ 72), by decide +kernel⟩,
    ⟨(let s := ready; let s := s.setN (Od.laneState 0) 5; s.setLane 0 { (s.lane 0) with complete := true }), 0, by decide +kernel⟩⟩

theorem witness_LanesComeUpAndExchange_3 :
    (∃ (s : Machine.State) (k : Nat), k < 1024 ∧ s.nat (Od.laneState k) = 5 ∧ (s.lane k).complete = false ∧ (s.lane k).exchangeMode = 2)
    ∧ (∃ (s : Machine.State) (k : Nat), k < 1024 ∧ s.nat (Od.laneState k) = 5 ∧ (s.lane k).complete = false ∧ (s.lane k).exchangeMode ≠ 2)
    ∧ (∃ (k : Nat), k < 1024)
    ∧ (∃ (s : Machine.State) (k : Nat), k < 1024 ∧ (∀ (t : Nat), clientOf s k = some t → s.nat (Od.activeType t) < 32)) :=
  ⟨⟨(let s := ready; let s := s.setN (Od.laneState 0) 5; let s := s.setLane 0 { (s.lane 0) with complete := false };
      s.setLane 0 { (s.lane 0) with exchangeMode := 2 }), 0, by decide +kernel⟩,
    ⟨(let s := ready; let s := s.setN (Od.laneState 0) 5; let s := s.setLane 0 { (s.lane 0) with complete := false };
      s.setLane 0 { (s.lane 0) with exchangeMode := 0 }), 0, by decide +kernel⟩,
    ⟨0, by decide +kernel⟩,
    ⟨ready, 0, by decide +kernel⟩⟩

theorem witness_LanesComeUpAndExchange_4 :
    (∃ (s : Machine.State) (t : Nat) (ty : Nat), t < 2048 ∧ ty ≠ 0 ∧ ty ∈ rateOrder ∧ typeAllowed s t ty = true ∧
      ((spanLanes s t).filter fun k => s.nat (Od.laneState k) = 2).any (fun k => (s.lane k).parallel) = true)
    ∧ (∃ (s : Machine.State) (k : Nat) (r : LaneReport), k < 1024 ∧ s.nat (Od.laneState k) = 4 ∧ f32GeRat r.fom (lockThreshold s k) 10 = true ∧
      (s.lane k).exchangeMode = 0)
    ∧ (∃ (s : Machine.State) (k : Nat) (r : LaneReport), k < 1024 ∧ s.nat (Od.laneState k) = 4 ∧ f32GeRat r.fom (lockThreshold s k) 10 = true ∧
      (s.lane k).exchangeMode ≠ 0)
    ∧ (∃ (s : Machine.State) (k : Nat) (frame : Nat), k < 1024 ∧ s.nat (Od.laneState k) = 5 ∧ frame < 2 ^ 128 ∧ rxInverted s k = false ∧
      bits frame 127 96 ≠ 0xC3A55A3C)
    ∧ (∃ (s : Machine.State) (k : Nat) (frame : Nat), k < 1024 ∧ s.nat (Od.laneState k) = 5 ∧ frame < 2 ^ 128 ∧ rxInverted s k = false ∧
      bits frame 127 96 = 0xC3A55A3C ∧ crc16 112 (frame / 2 ^ 16) = bits frame 15 0 ∧ bits frame 95 88 ≠ 1) :=
  ⟨⟨(let s := ready; let s := s.setN (Od.clientType 0) 10; let s := s.setN (Od.firstLane 0) 0; let s := s.setN (Od.laneState 0) 2;
      s.setLane 0 { s.lane 0 with parallel := true }), 0, 10, by decide +kernel⟩,
    ⟨(let s := ready; let s := s.setN (Od.laneState 0) 4; s.setLane 0 { s.lane 0 with exchangeMode := 0 }), 0, ⟨0x42C80000, 0, 0, 0, [], 0⟩,
      by decide +kernel⟩,
    ⟨(let s := ready; s.setN (Od.laneState 0) 4), 0, ⟨0x42C80000, 0, 0, 0, [], 0⟩, by decide +kernel⟩,
    ⟨(let s := ready; s.setN (Od.laneState 0) 5), 0, 0, by decide +kernel⟩,
    ⟨(let s := ready; s.setN (Od.laneState 0) 5), 0, (0xC3A55A3C * 2 ^ 80) * 2 ^ 16 + crc16 112 ((0xC3A55A3C * 2 ^ 80)), by decide +kernel⟩⟩

theorem witness_LanesComeUpAndExchange_5 :
    (∃ (s : Machine.State) (k : Nat) (frame : Nat), k < 1024 ∧ s.nat (Od.laneState k) = 5 ∧ frame < 2 ^ 128 ∧ rxInverted s k = false ∧
      bits frame 127 96 = 0xC3A55A3C ∧ crc16 112 (frame / 2 ^ 16) = bits frame 15 0 ∧ bits frame 95 88 = 1)
    ∧ (∃ (s : Machine.State) (k : Nat) (frame : Nat), k < 1024 ∧ s.nat (Od.laneState k) = 5 ∧ frame < 2 ^ 128 ∧ rxInverted s k = true ∧
      bits (2 ^ 128 - 1 - frame) 127 96 = 0xC3A55A3C ∧ crc16 112 ((2 ^ 128 - 1 - frame) / 2 ^ 16) = bits (2 ^ 128 - 1 - frame) 15 0 ∧
      bits (2 ^ 128 - 1 - frame) 95 88 = 1) :=
  ⟨⟨(let s := ready; s.setN (Od.laneState 0) 5), 0, (0xC3A55A3C * 2 ^ 80 + 2 ^ 72) * 2 ^ 16 + crc16 112 ((0xC3A55A3C * 2 ^ 80 + 2 ^ 72)),
      by decide +kernel⟩,
    ⟨(let s := ready; let s := s.setN (Od.laneState 0) 5; s.setN (Od.polarityInvert 0) 2), 0,
      2 ^ 128 - 1 - ((0xC3A55A3C * 2 ^ 80 + 2 ^ 72) * 2 ^ 16 + crc16 112 ((0xC3A55A3C * 2 ^ 80 + 2 ^ 72))), by decide +kernel⟩⟩

theorem witness_LanesAndClientsFailAndRecover_1 :
    (∃ (s : Machine.State) (k : Nat), k < 1024 ∧ s.nat (Od.laneState k) ≠ 6 ∧ s.nat (Od.laneState k) ≠ 7)
    ∧ (∃ (s : Machine.State) (k : Nat), k < 1024 ∧ (s.nat (Od.laneState k) = 6 ∨ s.nat (Od.laneState k) = 7))
    ∧ (∃ (s : Machine.State) (k : Nat), k < 1024 ∧ s.flag (Od.laneEnable k) = true ∧ (s.lane k).farTermination = true ∧ s.nat (Od.laneState k) ≠ 6 ∧ s.nat
      (Od.laneState k) ≠ 7) :=
  ⟨⟨(let s := ready; s.setN (Od.laneState 0) 0), 0, by decide +kernel⟩,
    ⟨(let s := ready; s.setN (Od.laneState 0) 6), 0, by decide +kernel⟩,
    ⟨(let s := ready; let s := s.setB (Od.laneEnable 0) true; let s := s.setLane 0 { (s.lane 0) with farTermination := true }; s.setN (Od.laneState 0) 0),
      0, by decide +kernel⟩⟩

theorem witness_LanesAndClientsFailAndRecover_2 :
    (∃ (s : Machine.State) (k : Nat) (l : Nat), Admits s k (Od.laneCommand l) 3)
    ∧ (∃ (s : Machine.State) (k : Nat), Admits s k Od.clearLaneCounters 1)
    ∧ (∃ (s : Machine.State) (l : Nat), laneMayRun s l = false) :=
  ⟨⟨ready, 0, 0, admits_of (by decide +kernel) (by decide +kernel)⟩,
    ⟨ready, 0, admits_of (by decide +kernel) (by decide +kernel)⟩,
    ⟨ready, 0, by decide +kernel⟩⟩

theorem witness_LanesAndClientsFailAndRecover_3 :
    (∃ (s : Machine.State) (t : Nat) (st : Nat), t < 2048 ∧ clientKind (s.nat (Od.activeType t)) = 1 ∧ s.nat (Od.activeType t) ≠ 0 ∧ (((usedLanes s t
      (s.nat (Od.activeType t))).all fun k => decide (s.nat (Od.laneState k) = 6)) = true) ∧ 1 ≤ st ∧ st ≤ 4)
    ∧ (∃ (s : Machine.State) (t : Nat) (st : Nat), t < 2048 ∧ clientKind (s.nat (Od.activeType t)) = 2 ∧ (((usedLanes s t (s.nat (Od.activeType t))).all fun
      k => decide (s.nat (Od.laneState k) = 6)) = true) ∧ (st = 1 ∨ st = 2 ∨ st = 5))
    ∧ (∃ (s : Machine.State) (t : Nat), t < 2048 ∧ s.nat (Od.activeType t) = 0)
    ∧ (∃ (s : Machine.State) (t : Nat), t < 2048 ∧ clientDown s t = false)
    ∧ (∃ (s : Machine.State) (t : Nat), t < 2048 ∧ clientDown s t = true) :=
  ⟨⟨(let s := ready; let s := s.setN (Od.activeType 0) 1; let s := s.setN (Od.laneState 0) 6; let s := s.setN (Od.laneState 1) 6;
      let s := s.setN (Od.laneState 2) 6; s.setN (Od.laneState 3) 6), 0, 1, by decide +kernel⟩,
    ⟨(let s := ready; let s := s.setN (Od.activeType 0) 15; s.setN (Od.laneState 0) 6), 0, 1, by decide +kernel⟩,
    ⟨(let s := ready; s.setN (Od.activeType 0) 0), 0, by decide +kernel⟩,
    ⟨ready, 0, by decide +kernel⟩,
    ⟨(let s := ready; s.setN (Od.clientType 0) 1), 0, by decide +kernel⟩⟩

theorem witness_LanesAndClientsFailAndRecover_4 :
    (∃ (s : Machine.State) (k : Nat) (t : Nat) (items : List (Nat × Bytes)) (i : Nat) (st : Status), s.answers k = true ∧ (firstBad (List.map (fun x =>
      x.status) (List.map (prepItem s k) (List.map (fun x => { idx := 16448, inst := t, sub := x.fst, value := x.snd }) items))) 0 = some (i, st)))
    ∧ (∃ (s : Machine.State) (k : Nat) (t : Nat) (ty : Nat), Allows s k (Od.clientType t) ty (Val.u ty) ∧ ty < 256 ∧ s.nat (Od.clientType t) ≠ ty)
    ∧ (∃ (s : Machine.State) (t : Nat), s.nat (Od.clientType t) ≠ 0 ∧ s.nat (Od.activeType t) = 0) :=
  ⟨⟨ready, 0, 0, [(1, [200])], 0, (.range : Status), by decide +kernel⟩,
    ⟨(let s := ready; s.setN (Od.clientType 0) (0 + 7)), 0, 0, 0, allows_of (by decide +kernel) (by decide +kernel) (by decide +kernel) (by
      decide +kernel), by decide +kernel⟩,
    ⟨(let s := ready; let s := s.setN (Od.clientType 0) 1; s.setN (Od.activeType 0) 0), 0, by decide +kernel⟩⟩

theorem witness_LanesAndClientsFailAndRecover_5 :
    (∃ (s : Machine.State) (k : Nat) (r : LaneReport) (lost : Bool), k < 1024 ∧ (s.nat (Od.laneState k) = 6 ∨ s.nat (Od.laneState k) = 7) ∧
      (lost = true ∨ f32LtRat r.fom (lockThreshold s k - 15) 10 = true))
    ∧ (∃ (s : Machine.State) (k : Nat) (r : LaneReport) (lost : Bool), k < 1024 ∧ (s.nat (Od.laneState k) = 6 ∨ s.nat (Od.laneState k) = 7) ∧
      lost = false ∧ f32LtRat r.fom (lockThreshold s k - 15) 10 = false)
    ∧ (∃ (s : Machine.State) (k : Nat), k < 1024 ∧ 4 ≤ s.nat (Od.laneState k) ∧ laneAdapts s k = false)
    ∧ (∃ (s : Machine.State) (k : Nat), k < 1024 ∧ 4 ≤ s.nat (Od.laneState k) ∧ laneAdapts s k = true)
    ∧ (∃ (s : Machine.State) (k : Nat) (l : Nat), Admits s k (Od.laneCommand l) 1 ∧ (s.lane l).injecting = false) :=
  ⟨⟨(let s := ready; s.setN (Od.laneState 0) 6), 0, ⟨0x42C80000, 0, 0, 0, [], 0⟩, true, by decide +kernel⟩,
    ⟨(let s := ready; s.setN (Od.laneState 0) 6), 0, ⟨0x42C80000, 0, 0, 0, [], 0⟩, false, by decide +kernel⟩,
    ⟨(let s := ready; let s := s.setN (Od.laneState 0) 6; s.setLane 0 { s.lane 0 with adaptMode := 1 }), 0, by decide +kernel⟩,
    ⟨(let s := ready; s.setN (Od.laneState 0) 4), 0, by decide +kernel⟩,
    ⟨ready, 0, 0, admits_of (by decide +kernel) (by decide +kernel), by decide +kernel⟩⟩

theorem witness_LanesAndClientsFailAndRecover_6 :
    (∃ (s : Machine.State) (k : Nat) (l : Nat), Admits s k (Od.laneCommand l) 1 ∧ (s.lane l).injecting = true)
    ∧ (∃ (s : Machine.State) (k : Nat) (l : Nat), Admits s k (Od.laneCommand l) 2 ∧ (s.lane l).injecting = true)
    ∧ (∃ (s : Machine.State) (k : Nat) (l : Nat), Admits s k (Od.laneCommand l) 2 ∧ (s.lane l).injecting = false ∧
      (s.nat (Od.laneState l) = 6 ∨ s.nat (Od.laneState l) = 7) ∧ s.nat (Od.lanePrbsInjectMode l) = 1)
    ∧ (∃ (s : Machine.State) (k : Nat) (l : Nat), Admits s k (Od.laneCommand l) 2 ∧ (s.lane l).injecting = false ∧
      (s.nat (Od.laneState l) = 6 ∨ s.nat (Od.laneState l) = 7) ∧ s.nat (Od.lanePrbsInjectMode l) = 2)
    ∧ (∃ (s : Machine.State) (k : Nat) (l : Nat), Admits s k (Od.laneCommand l) 2 ∧ (s.lane l).injecting = false ∧
      (s.nat (Od.laneState l) = 6 ∨ s.nat (Od.laneState l) = 7) ∧ s.nat (Od.lanePrbsInjectMode l) = 3) :=
  ⟨⟨(let s := ready; s.setLane 0 { s.lane 0 with injecting := true }), 0, 0, admits_of (by decide +kernel) (by decide +kernel), by decide +kernel⟩,
    ⟨(let s := ready; s.setLane 0 { s.lane 0 with injecting := true }), 0, 0, admits_of (by decide +kernel) (by decide +kernel), by decide +kernel⟩,
    ⟨(let s := ready; let s := s.setN (Od.laneState 0) 6; s.setN (Od.lanePrbsInjectMode 0) 1), 0, 0,
      admits_of (by decide +kernel) (by decide +kernel), by decide +kernel⟩,
    ⟨(let s := ready; let s := s.setN (Od.laneState 0) 6; s.setN (Od.lanePrbsInjectMode 0) 2), 0, 0,
      admits_of (by decide +kernel) (by decide +kernel), by decide +kernel⟩,
    ⟨(let s := ready; let s := s.setN (Od.laneState 0) 7; s.setN (Od.lanePrbsInjectMode 0) 3), 0, 0,
      admits_of (by decide +kernel) (by decide +kernel), by decide +kernel⟩⟩

theorem witness_LanesAndClientsFailAndRecover_7 :
    (∃ (s : Machine.State) (k : Nat) (l : Nat), Admits s k (Od.laneCommand l) 2 ∧ (s.lane l).injecting = false ∧ s.nat (Od.laneState l) ≠ 6 ∧
      s.nat (Od.laneState l) ≠ 7)
    ∧ (∃ (s : Machine.State) (k : Nat) (l : Nat), Admits s k (Od.laneCommand l) 4 ∧ (s.lane l).injecting = false)
    ∧ (∃ (s : Machine.State) (k : Nat) (l : Nat), Admits s k (Od.laneCommand l) 4 ∧ (s.lane l).injecting = true)
    ∧ (∃ (s : Machine.State) (k : Nat) (b : Bool), k < 1024 ∧ s.nat (Od.laneState k) = 7 ∧ s.nat (Od.checkPattern k) ≠ 0 ∧ rxInverted s k = false ∧
      s.flag (Od.checkLocked k) = false ∧ (s.lane k).checker.good = 63 ∧ (s.lane k).checker.hist.any id = true ∧
      b = patternNext (s.nat (Od.checkPattern k)) (s.lane k).checker.hist)
    ∧ (∃ (s : Machine.State) (k : Nat) (b : Bool), k < 1024 ∧ s.nat (Od.laneState k) = 7 ∧ s.nat (Od.checkPattern k) ≠ 0 ∧ rxInverted s k = false ∧
      s.flag (Od.checkLocked k) = true ∧ b ≠ patternNext (s.nat (Od.checkPattern k)) (s.lane k).checker.hist ∧
      31 ≤ (((s.lane k).checker.errs.take 63).filter id).length) :=
  ⟨⟨ready, 0, 0, admits_of (by decide +kernel) (by decide +kernel), by decide +kernel⟩,
    ⟨ready, 0, 0, admits_of (by decide +kernel) (by decide +kernel), by decide +kernel⟩,
    ⟨(let s := ready; s.setLane 0 { s.lane 0 with injecting := true }), 0, 0, admits_of (by decide +kernel) (by decide +kernel), by decide +kernel⟩,
    ⟨(let s := ready; let s := s.setN (Od.laneState 0) 7; let s := s.setN (Od.checkPattern 0) 1;
      s.setLane 0 { s.lane 0 with checker := { hist := [true], good := 63 } }), 0, false, by decide +kernel⟩,
    ⟨(let s := ready; let s := s.setN (Od.laneState 0) 7; let s := s.setN (Od.checkPattern 0) 1; let s := s.setB (Od.checkLocked 0) true;
      s.setLane 0 { s.lane 0 with checker := { hist := [true], errs := List.replicate 31 true } }), 0, true, by decide +kernel⟩⟩

theorem witness_HeadroomQueuesHoldAndPause_1 :
    (∃ (s : Machine.State) (t : Nat) (q : Nat) (cap : Nat) (lossless : Bool) (frame : Bytes), t < 2048 ∧ isMember s t = true ∧ clientFailed s t = false ∧
      fcsOk frame = true ∧ macControl frame = false ∧ q = framePriority frame ∧ lossless = decide (s.nat (Od.losslessMask t) / 2 ^ q % 2 = 1) ∧ (cap = s.nat
      (Od.xoffBytes t) + if lossless = true then headroomRequired s t else 0) ∧ cap < queueBytes ((s.member t).inQ q) + List.length frame)
    ∧ (∃ (s : Machine.State) (t : Nat) (q : Nat) (cap : Nat) (lossless : Bool) (frame : Bytes), t < 2048 ∧ isMember s t = true ∧ clientFailed s t = false ∧
      fcsOk frame = true ∧ macControl frame = false ∧ q = framePriority frame ∧ lossless = decide (s.nat (Od.losslessMask t) / 2 ^ q % 2 = 1) ∧ (cap = s.nat
      (Od.xoffBytes t) + if lossless = true then headroomRequired s t else 0) ∧ queueBytes ((s.member t).inQ q) + List.length frame ≤ cap)
    ∧ (∃ (s : Machine.State) (t : Nat) (frame : Bytes), t < 2048 ∧ (isMember s t = false ∨ fcsOk frame = false))
    ∧ (∃ (s : Machine.State) (t : Nat) (q : Nat) (f : Bytes) (rest : List Bytes), (s.member t).inQ q = f :: rest)
    ∧ (∃ (s : Machine.State) (t : Nat) (q : Nat), t < 2048 ∧ q < 8 ∧ (s.member t).xoff.contains q = true ∧ s.nat (Od.xonBytes t) < queueBytes ((s.member
      t).inQ q))
    ∧ (∃ (s : Machine.State) (t : Nat) (q : Nat), t < 2048 ∧ q < 8 ∧ (s.member t).xoff.contains q = true ∧ queueBytes ((s.member t).inQ q) ≤ s.nat
      (Od.xonBytes t)) :=
  ⟨⟨(let s := ready; let s := s.setN (Od.clientType 0) 2; let s := s.setN (Od.mappingKind 0) 1; let s := s.setN (Od.activeType 0) 2;
      let s := s.setN (Od.laneState 0) 6; let s := s.setN (Od.pcsState 0) 2; let s := s.setN (Od.losslessMask 0) 0;
      let s := s.setMember 0 { s.member 0 with ingress := [(0, [List.replicate 200 0])] }; s.setN (Od.xoffBytes 0) 100), 0, framePriority (rawFrame ++ crcOf
      rawFrame), (let s : Machine.State := (let s := ready; let s := s.setN (Od.clientType 0) 2; let s := s.setN (Od.mappingKind 0) 1;
      let s := s.setN (Od.activeType 0) 2; let s := s.setN (Od.laneState 0) 6; let s := s.setN (Od.pcsState 0) 2; let s := s.setN (Od.losslessMask 0) 0;
      let s := s.setMember 0 { s.member 0 with ingress := [(0, [List.replicate 200 0])] }; s.setN (Od.xoffBytes 0) 100);
      s.nat (Od.xoffBytes 0) + if (decide (s.nat (Od.losslessMask 0) / 2 ^ (framePriority (rawFrame ++ crcOf rawFrame)) % 2 = 1)) = true then headroomRequired s 0 else 0),
      (let s : Machine.State := (let s := ready; let s := s.setN (Od.clientType 0) 2; let s := s.setN (Od.mappingKind 0) 1;
      let s := s.setN (Od.activeType 0) 2; let s := s.setN (Od.laneState 0) 6; let s := s.setN (Od.pcsState 0) 2; let s := s.setN (Od.losslessMask 0) 0;
      let s := s.setMember 0 { s.member 0 with ingress := [(0, [List.replicate 200 0])] }; s.setN (Od.xoffBytes 0) 100);
      decide (s.nat (Od.losslessMask 0) / 2 ^ (framePriority (rawFrame ++ crcOf rawFrame)) % 2 = 1)), (rawFrame ++ crcOf rawFrame), by decide +kernel⟩,
    ⟨(let s := ready; let s := s.setN (Od.clientType 0) 2; let s := s.setN (Od.mappingKind 0) 1; let s := s.setN (Od.activeType 0) 2;
      let s := s.setN (Od.laneState 0) 6; let s := s.setN (Od.pcsState 0) 2; let s := s.setN (Od.losslessMask 0) 0; s.setN (Od.xoffBytes 0) 100), 0,
      framePriority (rawFrame ++ crcOf rawFrame), (let s : Machine.State := (let s := ready; let s := s.setN (Od.clientType 0) 2;
      let s := s.setN (Od.mappingKind 0) 1; let s := s.setN (Od.activeType 0) 2; let s := s.setN (Od.laneState 0) 6; let s := s.setN (Od.pcsState 0) 2;
      let s := s.setN (Od.losslessMask 0) 0; s.setN (Od.xoffBytes 0) 100);
      s.nat (Od.xoffBytes 0) + if (decide (s.nat (Od.losslessMask 0) / 2 ^ (framePriority (rawFrame ++ crcOf rawFrame)) % 2 = 1)) = true then headroomRequired s 0 else 0),
      (let s : Machine.State := (let s := ready; let s := s.setN (Od.clientType 0) 2; let s := s.setN (Od.mappingKind 0) 1;
      let s := s.setN (Od.activeType 0) 2; let s := s.setN (Od.laneState 0) 6; let s := s.setN (Od.pcsState 0) 2; let s := s.setN (Od.losslessMask 0) 0;
      s.setN (Od.xoffBytes 0) 100); decide (s.nat (Od.losslessMask 0) / 2 ^ (framePriority (rawFrame ++ crcOf rawFrame)) % 2 = 1)), (rawFrame ++ crcOf
      rawFrame), by decide +kernel⟩,
    ⟨ready, 0, ([] : Bytes), by decide +kernel⟩,
    ⟨(let s := ready; s.setMember 0 { s.member 0 with ingress := [(0, [1] :: ([] : List Bytes))] }), 0, 0, [1], ([] : List Bytes), by decide +kernel⟩,
    ⟨(let s := ready; let s := s.setMember 0 { s.member 0 with xoff := [0], ingress := [(0, [List.replicate 20 0])] }; s.setN (Od.xonBytes 0) 10), 0, 0,
      by decide +kernel⟩,
    ⟨(let s := ready; s.setMember 0 { s.member 0 with xoff := [0] }), 0, 0, by decide +kernel⟩⟩

theorem witness_HeadroomQueuesHoldAndPause_2 :
    (∃ (s : Machine.State) (t : Nat), t < 2048 ∧ isMember s t = true) :=
  ⟨(let s := ready; let s := s.setN (Od.clientType 0) 2; s.setN (Od.mappingKind 0) 1), 0, by decide +kernel⟩

theorem witness_SelectorAndCommandsChooseThePath_1 :
    (∃ (t : Nat), t < 2048)
    ∧ (∃ (s : Machine.State) (t : Nat), t < 2048 ∧ s.nat (Od.activeRequest t) = 7 ∧ s.nat (Od.workingCondition t) = 0)
    ∧ (∃ (s : Machine.State) (t : Nat), t < 2048 ∧ Machine.isProtected s t = true ∧ wantedPath s t ≠ selectedPath s t)
    ∧ (∃ (s : Machine.State) (t : Nat), t < 2048 ∧ (Machine.isProtected s t = false ∨ wantedPath s t = selectedPath s t))
    ∧ (∃ (s : Machine.State) (t : Nat), Machine.isProtected s t = true ∧ (s.tray t).command = 2 ∧ (s.tray t).work.sfHeld = false ∧ (s.tray t).work.sdHeld =
      false)
    ∧ (∃ (s : Machine.State) (t : Nat), Machine.isProtected s t = true ∧ (s.tray t).command = 0 ∧ (s.tray t).prot.sfHeld = false ∧ (s.tray t).work.sfHeld =
      true) :=
  ⟨⟨0, by decide +kernel⟩,
    ⟨(let s := ready; let s := s.setN (Od.activeRequest 0) 7; s.setN (Od.workingCondition 0) 0), 0, by decide +kernel⟩,
    ⟨(let s := ready; let s := s.setN (Od.workCarrier 0) 0; let s := s.setN (Od.protCarrier 0) 1; s.setTray 0 { s.tray 0 with command := 3 }), 0, by decide +kernel⟩,
    ⟨ready, 0, by decide +kernel⟩,
    ⟨(let s := ready; let s := s.setN (Od.workCarrier 0) 0; let s := s.setN (Od.protCarrier 0) 1; let s := s.setTray 0 { (s.tray 0) with command := 2 };
      let s := s.setTray 0 { (s.tray 0) with work := { (s.tray 0).work with sfHeld := false } };
      s.setTray 0 { (s.tray 0) with work := { (s.tray 0).work with sdHeld := false } }), 0, by decide +kernel⟩,
    ⟨(let s := ready; let s := s.setN (Od.workCarrier 0) 0; let s := s.setN (Od.protCarrier 0) 1; let s := s.setTray 0 { (s.tray 0) with command := 0 };
      let s := s.setTray 0 { (s.tray 0) with prot := { (s.tray 0).prot with sfHeld := false } };
      s.setTray 0 { (s.tray 0) with work := { (s.tray 0).work with sfHeld := true } }), 0, by decide +kernel⟩⟩

theorem witness_SelectorAndCommandsChooseThePath_2 :
    (∃ (s : Machine.State) (t : Nat), Machine.isProtected s t = true ∧ (s.tray t).prot.sfHeld = true ∧ (s.tray t).work.sfHeld = false)
    ∧ (∃ (s : Machine.State) (t : Nat), Machine.isProtected s t = true ∧ (s.tray t).prot.sfHeld = true ∧ (s.tray t).work.sfHeld = true)
    ∧ (∃ (s : Machine.State) (t : Nat), t < 2048 ∧ trayFailed s t = false)
    ∧ (∃ (s : Machine.State) (t : Nat), t < 2048 ∧ trayFailed s t = true)
    ∧ (∃ (s : Machine.State) (t : Nat), Machine.isProtected s t = false)
    ∧ (∃ (s : Machine.State) (k : Nat) (t : Nat), Machine.isProtected s t = true ∧ Admits s k (Od.protCommand t) 1) :=
  ⟨⟨(let s := ready; let s := s.setN (Od.workCarrier 0) 0; let s := s.setN (Od.protCarrier 0) 1;
      let s := s.setTray 0 { (s.tray 0) with prot := { (s.tray 0).prot with sfHeld := true } };
      s.setTray 0 { (s.tray 0) with work := { (s.tray 0).work with sfHeld := false } }), 0, by decide +kernel⟩,
    ⟨(let s := ready; let s := s.setN (Od.workCarrier 0) 0; let s := s.setN (Od.protCarrier 0) 1;
      let s := s.setTray 0 { (s.tray 0) with prot := { (s.tray 0).prot with sfHeld := true } };
      s.setTray 0 { (s.tray 0) with work := { (s.tray 0).work with sfHeld := true } }), 0, by decide +kernel⟩,
    ⟨ready, 0, by decide +kernel⟩,
    ⟨(let s := ready; let s := s.setN (Od.workCarrier 0) 0; s.setN (Od.clientType 0) 1), 0, by decide +kernel⟩,
    ⟨ready, 0, by decide +kernel⟩,
    ⟨(let s := ready; let s := s.setN (Od.workCarrier 0) 0; s.setN (Od.protCarrier 0) 1), 0, 0, by decide +kernel, admits_of (by decide +kernel) (by
      decide +kernel)⟩⟩

theorem witness_SelectorAndCommandsChooseThePath_3 :
    (∃ (s : Machine.State) (k : Nat) (t : Nat), Machine.isProtected s t = true ∧ Admits s k (Od.protCommand t) 2)
    ∧ (∃ (s : Machine.State) (k : Nat) (t : Nat), Machine.isProtected s t = true ∧ Admits s k (Od.protCommand t) 3)
    ∧ (∃ (s : Machine.State) (k : Nat) (t : Nat), Machine.isProtected s t = true ∧ Admits s k (Od.protCommand t) 4)
    ∧ (∃ (s : Machine.State) (k : Nat) (t : Nat), Machine.isProtected s t = true ∧ Admits s k (Od.protCommand t) 5 ∧ pathSf s t true = false ∧ pathSd s t
      true = false)
    ∧ (∃ (s : Machine.State) (k : Nat) (t : Nat), Machine.isProtected s t = true ∧ Admits s k (Od.protCommand t) 5 ∧ (pathSf s t true = true ∨ pathSd s t
      true = true))
    ∧ (∃ (s : Machine.State) (k : Nat) (t : Nat), Machine.isProtected s t = true ∧ Admits s k (Od.protCommand t) 6 ∧ pathSf s t false = false ∧ pathSd s t
      false = false) :=
  ⟨⟨(let s := ready; let s := s.setN (Od.workCarrier 0) 0; s.setN (Od.protCarrier 0) 1), 0, 0, by decide +kernel, admits_of (by decide +kernel) (by
      decide +kernel)⟩,
    ⟨(let s := ready; let s := s.setN (Od.workCarrier 0) 0; s.setN (Od.protCarrier 0) 1), 0, 0, by decide +kernel, admits_of (by decide +kernel) (by
      decide +kernel)⟩,
    ⟨(let s := ready; let s := s.setN (Od.workCarrier 0) 0; s.setN (Od.protCarrier 0) 1), 0, 0, by decide +kernel, admits_of (by decide +kernel) (by
      decide +kernel)⟩,
    ⟨(let s := ready; let s := s.setN (Od.workCarrier 0) 0; let s := s.setN (Od.protCarrier 0) 1;
      let s := (List.range 2).foldl (fun s n => (s.setN (Od.rxState n) 3).setN (Od.alignState n) 2) s;
      (s.setTrayPath 0 false { s.trayPath 0 false with sf := false }).setTrayPath 0 true { s.trayPath 0 true with sf := false }), 0, 0, by decide +kernel,
      admits_of (by decide +kernel) (by decide +kernel), by decide +kernel⟩,
    ⟨(let s := ready; let s := s.setN (Od.workCarrier 0) 0; s.setN (Od.protCarrier 0) 1), 0, 0, by decide +kernel, admits_of (by decide +kernel) (by
      decide +kernel), by decide +kernel⟩,
    ⟨(let s := ready; let s := s.setN (Od.workCarrier 0) 0; let s := s.setN (Od.protCarrier 0) 1;
      let s := (List.range 2).foldl (fun s n => (s.setN (Od.rxState n) 3).setN (Od.alignState n) 2) s;
      (s.setTrayPath 0 false { s.trayPath 0 false with sf := false }).setTrayPath 0 true { s.trayPath 0 true with sf := false }), 0, 0, by decide +kernel,
      admits_of (by decide +kernel) (by decide +kernel), by decide +kernel⟩⟩

theorem witness_SelectorAndCommandsChooseThePath_4 :
    (∃ (s : Machine.State) (k : Nat) (t : Nat), Machine.isProtected s t = true ∧ Admits s k (Od.protCommand t) 6 ∧ (pathSf s t false = true ∨ pathSd s t
      false = true))
    ∧ (∃ (s : Machine.State) (k : Nat) (t : Nat), Machine.isProtected s t = true ∧ Admits s k (Od.protCommand t) 7)
    ∧ (∃ (s : Machine.State) (k : Nat) (t : Nat), Machine.isProtected s t = false ∧ Admits s k (Od.protCommand t) 5)
    ∧ (∃ (s : Machine.State) (k : Nat) (t : Nat), Machine.isProtected s t = false ∧ Admits s k (Od.protCommand t) 6)
    ∧ (∃ (s : Machine.State) (k : Nat) (t : Nat), Machine.isProtected s t = false ∧ Admits s k (Od.protCommand t) 3)
    ∧ (∃ (s : Machine.State) (t : Nat), t < 2048 ∧ Machine.isProtected s t = true ∧ pathSf s t false = false ∧ pathSf s t true = false ∧ (s.tray
      t).realignLater = false ∧ (s.int (Od.diffDelay t)).natAbs ≤ s.nat (Od.maxDiffDelay t) * 1000) :=
  ⟨⟨(let s := ready; let s := s.setN (Od.workCarrier 0) 0; s.setN (Od.protCarrier 0) 1), 0, 0, by decide +kernel, admits_of (by decide +kernel) (by
      decide +kernel), by decide +kernel⟩,
    ⟨(let s := ready; let s := s.setN (Od.workCarrier 0) 0; s.setN (Od.protCarrier 0) 1), 0, 0, by decide +kernel, admits_of (by decide +kernel) (by
      decide +kernel)⟩,
    ⟨ready, 0, 0, by decide +kernel, admits_of (by decide +kernel) (by decide +kernel)⟩,
    ⟨ready, 0, 0, by decide +kernel, admits_of (by decide +kernel) (by decide +kernel)⟩,
    ⟨ready, 0, 0, by decide +kernel, admits_of (by decide +kernel) (by decide +kernel)⟩,
    ⟨(let s := ready; let s := s.setN (Od.workCarrier 0) 0; let s := s.setN (Od.protCarrier 0) 1;
      let s := s.setTray 0 { (s.tray 0) with realignLater := false };
      let s := (List.range 2).foldl (fun s n => (s.setN (Od.rxState n) 3).setN (Od.alignState n) 2) s;
      (s.setTrayPath 0 false { s.trayPath 0 false with sf := false }).setTrayPath 0 true { s.trayPath 0 true with sf := false }), 0, by decide +kernel⟩⟩

theorem witness_SelectorAndCommandsChooseThePath_5 :
    (∃ (s : Machine.State) (t : Nat), t < 2048 ∧ Machine.isProtected s t = false)
    ∧ (∃ (s : Machine.State) (k : Nat), Admits s k Od.clearTrayCounters 1) :=
  ⟨⟨ready, 0, by decide +kernel⟩,
    ⟨ready, 0, admits_of (by decide +kernel) (by decide +kernel)⟩⟩

theorem witness_KeysEnterAndLeaveTheirSlots_1 :
    (∃ (s : State) (k x code : Nat) (data key : Bytes), s.answers k = true ∧ writeGate s k 17168 x 0 code = Status.ok ∧ data.length = 40 ∧ s.nat
      (Od.trayKeySlotSlotState x) ≠ 2 ∧ s.boot.trialDeferred = false ∧ unwrapKey s data = some key)
    ∧ (∃ (s : Machine.State) (k : Nat) (x : Nat) (code : Nat) (data : Bytes), s.answers k = true ∧ writeGate s k 17168 x 0 code = Status.ok ∧ List.length
      data = 40 ∧ s.nat (Od.trayKeySlotSlotState x) = 2)
    ∧ (∃ (s : Machine.State) (k : Nat) (x : Nat) (code : Nat) (data : Bytes), s.answers k = true ∧ writeGate s k 17168 x 0 code = Status.ok ∧ List.length
      data = 40 ∧ s.nat (Od.trayKeySlotSlotState x) ≠ 2 ∧ s.boot.trialDeferred = false ∧ unwrapKey s data = none)
    ∧ (∃ (s : State) (k u code : Nat) (data key : Bytes), s.answers k = true ∧ writeGate s k 17176 u 0 code = Status.ok ∧ data.length = 40 ∧
      s.boot.trialDeferred = false ∧ unwrapKey s data = some key)
    ∧ (∃ (x : Nat) (y : Nat), x < 4096 ∧ y ≠ x)
    ∧ (∃ (s : Machine.State) (x : Nat), x < 4096 ∧ (s.keySlot x).key ≠ []) :=
  ⟨⟨keyed, 1, 0, 0, wrapped, unwrap_some.choose, by decide +kernel, by decide +kernel, by decide +kernel, by decide +kernel, by decide +kernel,
      unwrap_some.choose_spec⟩,
    ⟨(let s := ready; s.setN (Od.trayKeySlotSlotState 0) 2), 1, 0, 0, List.replicate 40 0, by decide +kernel⟩,
    ⟨(let s := ready; let s := s.setN (Od.trayKeySlotSlotState 0) 0; { s with boot := { s.boot with trialDeferred := false } }), 1, 0, 0, List.replicate
      40 0, by decide +kernel⟩,
    ⟨keyed, 1, 0, 0, wrapped, unwrap_some.choose, by decide +kernel, by decide +kernel, by decide +kernel, by decide +kernel, unwrap_some.choose_spec⟩,
    ⟨0, (0 + 1), by decide +kernel⟩,
    ⟨(let s := ready; s.setKeySlot 0 { s.keySlot 0 with key := [1] }), 0, by decide +kernel⟩⟩

theorem witness_KeysEnterAndLeaveTheirSlots_2 :
    (∃ (s : Machine.State) (x : Nat), x < 4096 ∧ (s.keySlot x).key = [])
    ∧ (∃ (s : Machine.State) (k : Nat) (x : Nat), Admits s k (Od.keySlotCommand x) 1 ∧ s.nat (Od.trayKeySlotSlotState x) = 2)
    ∧ (∃ (s : Machine.State) (k : Nat) (x : Nat), Admits s k (Od.keySlotCommand x) 1 ∧ s.nat (Od.trayKeySlotSlotState x) ≠ 2)
    ∧ (∃ (x : Nat) (y : Nat), x < 4096 ∧ y ≠ x)
    ∧ (∃ (s : Machine.State) (k : Nat) (u : Nat), Admits s k (Od.utilityKeyCommand u) 1 ∧ s.nat Od.lockHolder ≠ 255 ∧ s.nat Od.lidKeySlot = u)
    ∧ (∃ (s : Machine.State) (k : Nat) (u : Nat), Admits s k (Od.utilityKeyCommand u) 1 ∧ (s.nat Od.lockHolder = 255 ∨ s.nat Od.lidKeySlot ≠ u)) :=
  ⟨⟨(let s := ready; s.setKeySlot 0 { (s.keySlot 0) with key := [] }), 0, by decide +kernel⟩,
    ⟨(let s := ready; s.setN (Od.trayKeySlotSlotState 0) 2), 1, 0, admits_of (by decide +kernel) (by decide +kernel), by decide +kernel⟩,
    ⟨(let s := ready; s.setN (Od.trayKeySlotSlotState 0) 0), 1, 0, admits_of (by decide +kernel) (by decide +kernel), by decide +kernel⟩,
    ⟨0, (0 + 1), by decide +kernel⟩,
    ⟨(let s := ready; let s := s.setN Od.lockHolder 0; s.setN Od.lidKeySlot 0), 1, 0, admits_of (by decide +kernel) (by decide +kernel), by decide +kernel⟩,
    ⟨(let s := ready; s.setN Od.lockHolder 255), 1, 0, admits_of (by decide +kernel) (by decide +kernel), by decide +kernel⟩⟩

theorem witness_KeysEnterAndLeaveTheirSlots_3 :
    (∃ (s : Machine.State) (k : Nat) (code : Nat) (data : Bytes), Allows s k Od.kekPeerKey code (Val.o data) ∧ List.length data = 97)
    ∧ (∃ (s : Machine.State) (k : Nat) (code : Nat) (data : Bytes), Allows s k Od.lidBlock code (Val.o data) ∧ List.length data = 16) :=
  ⟨⟨ready, 1, leNat ((beBytes 97 ((4 * 2 ^ 384 + p384gx) * 2 ^ 384 + p384gy)).take 4), beBytes 97 ((4 * 2 ^ 384 + p384gx) * 2 ^ 384 + p384gy), allows_of
      (by decide +kernel) (by decide +kernel) (by decide +kernel) (by decide +kernel), by decide +kernel⟩,
    ⟨(let s := ready; let s := s.setN Od.lockHolder 1; let s := s.setN (Od.utilityKeySlotSlotState 0) 2; s.setN (Od.useMask 0) 3), 1, 0, List.replicate 16
      0, allows_of (by decide +kernel) (by decide +kernel) (by decide +kernel) (by decide +kernel), by decide +kernel⟩⟩

theorem witness_KeysEnterAndLeaveTheirSlots_4 :
    (∃ (s : Machine.State), peerUnset s = true)
    ∧ (∃ (s : Machine.State), peerUnset s = false)
    ∧ (∃ (s : Machine.State), (s.bytes Od.lidBlock).length = 16) :=
  ⟨⟨ready, by decide +kernel⟩,
    ⟨keyed, by decide +kernel⟩,
    ⟨ready.setO Od.lidBlock (List.replicate 16 0), by decide +kernel⟩⟩

theorem witness_NoticesAndRolloverMoveTheKey_1 :
    (∃ (s : Machine.State) (n : Nat) (t : Nat) (x : Notice) (prot : Bool), n < 64 ∧ t < 2048 ∧ x.sel < 2 ∧ x.epoch < 2 ^ 32 ∧ x.phase < 16 ∧ x.side < 2 ∧
      pathCarrier s t prot = n ∧ (prot = true → pathCarrier s t false ≠ n) ∧ (s.flag (Od.sealEnable t) = false ∨ x.side = s.nat (Od.sealSide t)))
    ∧ (∃ (s : Machine.State) (n : Nat) (t : Nat) (x : Notice) (prot : Bool), n < 64 ∧ t < 2048 ∧ x.sel < 2 ∧ x.epoch < 2 ^ 32 ∧ x.phase < 16 ∧ x.side < 2 ∧
      pathCarrier s t prot = n ∧ (prot = true → pathCarrier s t false ≠ n) ∧ s.flag (Od.sealEnable t) = true ∧ x.side ≠ s.nat (Od.sealSide t) ∧ s.nat
      (rxSealKey t prot) = 0)
    ∧ (∃ (s : Machine.State) (n : Nat) (t : Nat) (x : Notice) (pending : Bool) (prot : Bool), n < 64 ∧ t < 2048 ∧ x.sel < 2 ∧ x.epoch < 2 ^ 32 ∧ x.phase <
      16 ∧ x.side < 2 ∧ pathCarrier s t prot = n ∧ (prot = true → pathCarrier s t false ≠ n) ∧ s.flag (Od.sealEnable t) = true ∧ x.side ≠ s.nat (Od.sealSide
      t) ∧ s.nat (rxSealKey t prot) ≠ 0 ∧ pending = true)
    ∧ (∃ (s : Machine.State) (n : Nat) (t : Nat) (x : Notice) (pending : Bool) (prot : Bool), n < 64 ∧ t < 2048 ∧ x.sel < 2 ∧ x.epoch < 2 ^ 32 ∧ x.phase <
      16 ∧ x.side < 2 ∧ pathCarrier s t prot = n ∧ (prot = true → pathCarrier s t false ≠ n) ∧ s.flag (Od.sealEnable t) = true ∧ x.side ≠ s.nat (Od.sealSide
      t) ∧ s.nat (rxSealKey t prot) ≠ 0 ∧ pending = false)
    ∧ (∃ (s : Machine.State) (n : Nat) (t : Nat) (x : Notice), n < 64 ∧ t < 2048 ∧ x.sel < 2 ∧ x.epoch < 2 ^ 32 ∧ x.phase < 16 ∧ x.side < 2 ∧ pathCarrier s
      t false ≠ n ∧ pathCarrier s t true ≠ n)
    ∧ (∃ (s : Machine.State) (k : Nat) (t : Nat), Admits s k (Od.sealCommand t) 1 ∧ (s.nat (Od.rolloverState t) = 1 ∨ s.nat (Od.agreeState t) = 1)) :=
  ⟨⟨(let s := ready; let s := s.setN (Od.workCarrier 0) 0; s.setB (Od.sealEnable 0) false), 0, 0, (⟨0, 0, 0, 0⟩ : Notice), false, by decide +kernel⟩,
    ⟨(let s := ready; let s := s.setN (Od.workCarrier 0) 0; s.setB (Od.sealEnable 0) true), 0, 0, (⟨0, 0, 0, 1⟩ : Notice), false, by decide +kernel⟩,
    ⟨(let s := ready; let s := s.setN (Od.workCarrier 0) 0; let s := s.setB (Od.sealEnable 0) true; s.setN (Od.workRxState 0) 1), 0, 0, (⟨0, 0, 0, 1⟩ :
      Notice), true, false, by decide +kernel⟩,
    ⟨(let s := ready; let s := s.setN (Od.workCarrier 0) 0; let s := s.setB (Od.sealEnable 0) true; s.setN (Od.workRxState 0) 1), 0, 0, (⟨0, 0, 0, 1⟩ :
      Notice), false, false, by decide +kernel⟩,
    ⟨ready, 0, 0, (⟨0, 0, 0, 0⟩ : Notice), by decide +kernel⟩,
    ⟨(let s := ready; s.setN (Od.rolloverState 0) 1), 1, 0, admits_of (by decide +kernel) (by decide +kernel), by decide +kernel⟩⟩

theorem witness_NoticesAndRolloverMoveTheKey_2 :
    (∃ (s : Machine.State) (k : Nat) (t : Nat), Admits s k (Od.sealCommand t) 1 ∧ s.nat (Od.rolloverState t) ≠ 1 ∧ s.nat (Od.agreeState t) ≠ 1 ∧ s.flag
      (Od.sealEnable t) = true ∧ s.nat (Od.trayKeySlotSlotState (2 * t + (1 - s.nat (Od.txKeySelect t)))) ≠ 0)
    ∧ (∃ (s : Machine.State) (t : Nat) (prot : Bool), t < 2048 ∧ (s.trayPath t prot).tx.roll = none)
    ∧ (∃ (s : Machine.State) (t : Nat) (prot : Bool) (r : Roll), t < 2048 ∧ (s.trayPath t prot).tx.roll = some r ∧ r.start = none)
    ∧ (∃ (s : Machine.State) (t : Nat) (prot : Bool) (r : Roll), t < 2048 ∧ (s.trayPath t prot).tx.roll = some r ∧ r.start ≠ none ∧ r.epoch < 2 ^ 32)
    ∧ (∃ (s : Machine.State) (x : Nat), s.nat (Od.epochNext x) = 4294967295)
    ∧ (∃ (s : Machine.State) (x : Nat), s.nat (Od.epochNext x) ≠ 4294967295) :=
  ⟨⟨(let s := ready; let s := s.setN (Od.rolloverState 0) 0; let s := s.setN (Od.agreeState 0) 0; let s := s.setB (Od.sealEnable 0) true;
      s.setN (Od.trayKeySlotSlotState 1) 1), 1, 0, admits_of (by decide +kernel) (by decide +kernel), by decide +kernel⟩,
    ⟨(let s := ready; s.setTrayPath 0 false { (s.trayPath 0 false) with tx := { (s.trayPath 0 false).tx with roll := none } }), 0, false, by decide +kernel⟩,
    ⟨(let s := ready;
      s.setTrayPath 0 false { (s.trayPath 0 false) with tx := { (s.trayPath 0 false).tx with roll := some ({ ({ sel := 0 } : Roll) with start := none } : Roll) } }),
      0, false, ({ ({ sel := 0 } : Roll) with start := none } : Roll), by decide +kernel⟩,
    ⟨(let s := ready;
      s.setTrayPath 0 false { (s.trayPath 0 false) with tx := { (s.trayPath 0 false).tx with roll := some ({ sel := 0, epoch := 0, start := some 4 } : Roll) } }),
      0, false, ({ sel := 0, epoch := 0, start := some 4 } : Roll), by decide +kernel⟩,
    ⟨(let s := ready; s.setN (Od.epochNext 0) 4294967295), 0, by decide +kernel⟩,
    ⟨(let s := ready; s.setN (Od.epochNext 0) 0), 0, by decide +kernel⟩⟩

theorem witness_NoticesAndRolloverMoveTheKey_3 :
    (∃ (s : Machine.State) (k : Nat), Admits s k Od.clearSealCounters 1) :=
  ⟨ready, 0, admits_of (by decide +kernel) (by decide +kernel)⟩

theorem witness_AgreementAndLidRunByMessages_1 :
    (∃ (s : Machine.State) (k : Nat) (t : Nat), Admits s k (Od.agreeCommand t) 1 ∧ s.boot.trialDeferred = false ∧ (s.nat (Od.rolloverState t) = 1 ∨ s.nat
      (Od.agreeState t) = 1))
    ∧ (∃ (s : Machine.State) (k : Nat) (t : Nat), Admits s k (Od.agreeCommand t) 1 ∧ s.boot.trialDeferred = false ∧ s.nat (Od.rolloverState t) ≠ 1 ∧ s.nat
      (Od.agreeState t) ≠ 1 ∧ ((List.all (s.bytes (Od.peerAgreementKey t)) fun b => b == 0) = false) ∧ s.nat (Od.trayKeySlotSlotState (2 * t + (1 - s.nat
      (Od.txKeySelect t)))) ≠ 2 ∧ onKrytelm s t = true)
    ∧ (∃ (s : Machine.State) (k : Nat) (t : Nat), Admits s k (Od.agreeCommand t) 2 ∧ s.nat (Od.agreeState t) = 1)
    ∧ (∃ (s : Machine.State) (k : Nat) (t : Nat), Admits s k (Od.agreeCommand t) 2 ∧ s.nat (Od.agreeState t) ≠ 1)
    ∧ (∃ (s : Machine.State) (t : Nat), t < 2048 ∧ s.nat (Od.agreeState t) = 1)
    ∧ (∃ (s : Machine.State) (t : Nat), t < 2048 ∧ s.nat (Od.agreeState t) ≠ 1) :=
  ⟨⟨(let s := ready; let s := { s with boot := { s.boot with trialDeferred := false } }; s.setN (Od.rolloverState 0) 1), 1, 0, admits_of (by
      decide +kernel) (by decide +kernel), by decide +kernel⟩,
    ⟨(let s := ready; let s := s.setO (Od.peerAgreementKey 0) [4]; let s := s.setN (Od.clientType 0) 1; let s := s.setN (Od.workCarrier 0) 0;
      let s := { s with boot := { s.boot with trialDeferred := false } }; let s := s.setN (Od.rolloverState 0) 0; s.setN (Od.agreeState 0) 0), 1, 0,
      admits_of (by decide +kernel) (by decide +kernel), by decide +kernel⟩,
    ⟨(let s := ready; s.setN (Od.agreeState 0) 1), 1, 0, admits_of (by decide +kernel) (by decide +kernel), by decide +kernel⟩,
    ⟨(let s := ready; s.setN (Od.agreeState 0) 0), 1, 0, admits_of (by decide +kernel) (by decide +kernel), by decide +kernel⟩,
    ⟨(let s := ready; s.setN (Od.agreeState 0) 1), 0, by decide +kernel⟩,
    ⟨(let s := ready; s.setN (Od.agreeState 0) 0), 0, by decide +kernel⟩⟩

theorem witness_AgreementAndLidRunByMessages_2 :
    (∃ (s : Machine.State) (n : Nat) (t : Nat) (msg : Nat) (part : Nat) (side : Nat) (exch : Nat) (w : Nat) (a : Agree), n < 64 ∧ t < 2048 ∧ msg < 4 ∧
      part < 4 ∧ side < 2 ∧ exch < 256 ∧ w < 2 ^ 112 ∧ (pathCarrier s t false = n ∨ pathCarrier s t true = n) ∧ (s.tray t).agree = some a ∧ s.nat
      (Od.agreeState t) = 1 ∧ side = s.nat (Od.sealSide t))
    ∧ (∃ (s : Machine.State) (n : Nat) (t : Nat) (msg : Nat) (part : Nat) (side : Nat) (exch : Nat) (w : Nat) (a : Agree), n < 64 ∧ t < 2048 ∧ msg < 4 ∧
      part < 4 ∧ side < 2 ∧ exch < 256 ∧ w < 2 ^ 112 ∧ (pathCarrier s t false = n ∨ pathCarrier s t true = n) ∧ (s.tray t).agree = some a ∧ s.nat
      (Od.agreeState t) = 1 ∧ side ≠ s.nat (Od.sealSide t) ∧ msg = 3 ∧ exch = a.exchange)
    ∧ (∃ (s : Machine.State) (n : Nat) (t : Nat) (msg : Nat) (part : Nat) (side : Nat) (exch : Nat) (w : Nat) (a : Agree), n < 64 ∧ t < 2048 ∧ msg < 4 ∧
      part < 4 ∧ side < 2 ∧ exch < 256 ∧ w < 2 ^ 112 ∧ (pathCarrier s t false = n ∨ pathCarrier s t true = n) ∧ (s.tray t).agree = some a ∧ s.nat
      (Od.agreeState t) = 1 ∧ side ≠ s.nat (Od.sealSide t) ∧ s.nat (Od.sealSide t) = 0 ∧ exch = a.exchange ∧ (msg = 1 ∨ msg = 2))
    ∧ (∃ (s : Machine.State) (n : Nat) (t : Nat) (msg : Nat) (part : Nat) (side : Nat) (exch : Nat) (w : Nat) (a : Agree), n < 64 ∧ t < 2048 ∧ msg < 4 ∧
      part < 4 ∧ side < 2 ∧ exch < 256 ∧ w < 2 ^ 112 ∧ (pathCarrier s t false = n ∨ pathCarrier s t true = n) ∧ (s.tray t).agree = some a ∧ s.nat
      (Od.agreeState t) = 1 ∧ side ≠ s.nat (Od.sealSide t) ∧ s.nat (Od.sealSide t) = 1 ∧ exch = a.exchange ∧ msg = 0)
    ∧ (∃ (s : Machine.State) (k : Nat), Admits s k Od.lidLock 1 ∧ (s.session k).transport ≤ 2 ∧ (s.nat Od.lockHolder = 255 ∨ s.nat Od.lockHolder = k))
    ∧ (∃ (s : Machine.State) (k : Nat), Admits s k Od.lidLock 1 ∧ (s.session k).transport ≤ 2 ∧ s.nat Od.lockHolder ≠ 255 ∧ s.nat Od.lockHolder ≠ k) :=
  ⟨⟨(let s := ready; let s := s.setN (Od.workCarrier 0) 0; let s := s.setTray 0 { (s.tray 0) with agree := some ({} : Agree) };
      s.setN (Od.agreeState 0) 1), 0, 0, 0, 0, (let s : Machine.State := (let s := ready; let s := s.setN (Od.workCarrier 0) 0;
      let s := s.setTray 0 { (s.tray 0) with agree := some ({} : Agree) }; s.setN (Od.agreeState 0) 1); s.nat (Od.sealSide 0)), 0, 0, ({} : Agree), by decide +kernel⟩,
    ⟨(let s := ready; let s := s.setN (Od.workCarrier 0) 0; let s := s.setTray 0 { (s.tray 0) with agree := some ({} : Agree) };
      s.setN (Od.agreeState 0) 1), 0, 0, 3, 0, (let s : Machine.State := (let s := ready; let s := s.setN (Od.workCarrier 0) 0;
      let s := s.setTray 0 { (s.tray 0) with agree := some ({} : Agree) }; s.setN (Od.agreeState 0) 1); (s.nat (Od.sealSide 0) + 1)), ({} : Agree).exchange,
      0, ({} : Agree), by decide +kernel⟩,
    ⟨(let s := ready; let s := s.setN (Od.workCarrier 0) 0; let s := s.setTray 0 { (s.tray 0) with agree := some ({} : Agree) };
      let s := s.setN (Od.agreeState 0) 1; s.setN (Od.sealSide 0) 0), 0, 0, 1, 0, (let s : Machine.State := (let s := ready;
      let s := s.setN (Od.workCarrier 0) 0; let s := s.setTray 0 { (s.tray 0) with agree := some ({} : Agree) }; let s := s.setN (Od.agreeState 0) 1;
      s.setN (Od.sealSide 0) 0); (s.nat (Od.sealSide 0) + 1)), ({} : Agree).exchange, 0, ({} : Agree), by decide +kernel⟩,
    ⟨(let s := ready; let s := s.setN (Od.workCarrier 0) 0; let s := s.setTray 0 { (s.tray 0) with agree := some ({} : Agree) };
      let s := s.setN (Od.agreeState 0) 1; s.setN (Od.sealSide 0) 1), 0, 0, 0, 0, 0, ({} : Agree).exchange, 0, ({} : Agree), by decide +kernel⟩,
    ⟨(let s := ready; s.setN Od.lockHolder 255), 0, admits_of (by decide +kernel) (by decide +kernel), by decide +kernel⟩,
    ⟨(let s := ready; let s := s.setN Od.lockHolder 0; s.setN Od.lockHolder (0 + 7)), 0, admits_of (by decide +kernel) (by decide +kernel), by decide +kernel⟩⟩

theorem witness_AgreementAndLidRunByMessages_3 :
    (∃ (s : Machine.State) (k : Nat), Admits s k Od.lidLock 2 ∧ s.nat Od.lockHolder = k)
    ∧ (∃ (s : Machine.State) (k : Nat), Admits s k Od.lidLock 2 ∧ s.nat Od.lockHolder ≠ 255 ∧ s.nat Od.lockHolder ≠ k)
    ∧ (∃ (s : Machine.State) (k : Nat), Admits s k Od.lidLock 3)
    ∧ (∃ (s : Machine.State), s.nat Od.lockHolder ≠ 255)
    ∧ (∃ (s : Machine.State), s.nat Od.lockHolder = 255) :=
  ⟨⟨(let s := ready; s.setN Od.lockHolder 0), 0, admits_of (by decide +kernel) (by decide +kernel), by decide +kernel⟩,
    ⟨(let s := ready; let s := s.setN Od.lockHolder 0; s.setN Od.lockHolder (0 + 7)), 0, admits_of (by decide +kernel) (by decide +kernel), by decide +kernel⟩,
    ⟨ready, 0, admits_of (by decide +kernel) (by decide +kernel)⟩,
    ⟨(let s := ready; s.setN Od.lockHolder 0), by decide +kernel⟩,
    ⟨(let s := ready; s.setN Od.lockHolder 255), by decide +kernel⟩⟩

theorem witness_AgreementAndLidRunByMessages_4 :
    (∃ (a : Agree), (partsOf a 1 4 = none ∨ partsOf a 2 2 = none))
    ∧ (∃ (a : Agree), partsOf a 0 4 = none) :=
  ⟨⟨{}, by decide +kernel⟩,
    ⟨{}, by decide +kernel⟩⟩

theorem witness_SpanIvIsBuiltAsInTheTable :
    (∃ (side : Nat) (tray : Nat) (epoch : Nat) (span : Nat), side < 2 ∧ tray < 2048 ∧ epoch < 2 ^ 32 ∧ span < 2 ^ 44) :=
  ⟨0, 0, 0, 0, by decide +kernel⟩

theorem witness_MapsGrantDisjointBurstsInTheFrame :
    (∃ (s : Machine.State) (i : Nat) (j : Nat) (g : Grant) (q : Int × Int), g ∈ buildMap s i j ∧ g.kind ≠ 2 ∧ q ∈ quiets s i j) :=
  ⟨(let s := ready; let s := (s.setB (Od.hubMode 0) true).setB (Od.hubActive 0) true; let s := (s.setB (Od.carrierEnable 0) true).setN (Od.txState 0) 2;
      let s := s.setB (Od.discoveryEnable 0) true; let s := s.setCtx 5 { s.ctx 5 with state := 2, home := 0, demand := 4 };
      s.setLeafRun 5 { s.leafRun 5 with lastGrant := 0 }), 0, 31, (⟨0, 5, 52034, 6, 0⟩ : Grant), ((-87891 : Int), (52034 : Int)), by decide +kernel⟩

theorem witness_DownstreamFramesCarryTheMaps_1 :
    (∃ (s : Machine.State) (i : Nat), hubRuns s i = true ∧ (s.hub i).building = none)
    ∧ (∃ (s : Machine.State) (i : Nat), i < 2048 ∧ (hubRuns s i = false ∨ (s.hub i).building ≠ none))
    ∧ (∃ (s : Machine.State) (i : Nat) (m : List Grant), hubRuns s i = true ∧ (s.hub i).building = some m)
    ∧ (∃ (s : Machine.State) (i : Nat), i < 2048 ∧ hubRuns s i = false)
    ∧ (∃ (s : Machine.State) (i : Nat), hubRuns s i = true ∧ inService s (i / 32) = true ∧ s.engineUp (i / 32) = true)
    ∧ (∃ (s : Machine.State) (i : Nat), i < 2048 ∧ (hubRuns s i = false ∨ s.engineUp (i / 32) = false)) :=
  ⟨⟨(let s := ready; let s := s.setB (Od.hubMode (0 / 32)) true; let s := s.setB (Od.hubActive 0) true; s.setHub 0 { (s.hub 0) with building := none }),
      0, by decide +kernel⟩,
    ⟨ready, 0, by decide +kernel⟩,
    ⟨(let s := ready; let s := s.setB (Od.hubMode (0 / 32)) true; let s := s.setB (Od.hubActive 0) true;
      s.setHub 0 { (s.hub 0) with building := some ([] : List Grant) }), 0, ([] : List Grant), by decide +kernel⟩,
    ⟨ready, 0, by decide +kernel⟩,
    ⟨(let s := ready; let s := s.setB (Od.hubMode (0 / 32)) true; let s := s.setB (Od.hubActive 0) true; s.setB (Od.carrierEnable 0) true), 0, by decide +kernel⟩,
    ⟨ready, 0, by decide +kernel⟩⟩

theorem witness_DownstreamFramesCarryTheMaps_2 :
    (∃ (s : Machine.State) (i : Nat) (frame : Nat) (m : List Grant), i < 2048 ∧ ((Option.map (fun x => x.snd) (List.find? (fun x => decide (x.fst =
      frame)) (s.hub i).lineMaps)).getD [] = m))
    ∧ (∃ (s : Machine.State), s.hotOrder.length < 16384)
    ∧ (∃ (g : Grant), g.kind < 4 ∧ g.leaf < 2 ^ 18 ∧ g.start < 2 ^ 22 ∧ g.blocks < 2 ^ 10 ∧ g.format < 2) :=
  ⟨⟨ready, 0, 0, ([] : List Grant), by decide +kernel⟩,
    ⟨ready, by decide +kernel⟩,
    ⟨(⟨0, 0, 0, 1, 0⟩ : Grant), by decide +kernel⟩⟩

theorem witness_DownstreamFramesCarryTheMaps_3 :
    (∃ (m : List Grant) (g : Grant), g ∈ m ∧ g.kind ≠ 2) :=
  ⟨[⟨0, 5, 0, 1, 0⟩], ⟨0, 5, 0, 1, 0⟩, by decide +kernel⟩

theorem witness_BurstsAreReceivedInTheirSlots_1 :
    (∃ (s : Machine.State) (i : Nat) (metric : Nat), i < 2048 ∧ (burstRx s i = false ∨ metric ≤ s.nat (Od.preambleThreshold i)))
    ∧ (∃ (s : Machine.State) (i : Nat) (metric : Nat), i < 2048 ∧ burstRx s i = true ∧ s.nat (Od.preambleThreshold i) < metric ∧ (s.hub i).burst.phase = 0)
    ∧ (∃ (s : Machine.State) (i : Nat) (metric : Nat), i < 2048 ∧ burstRx s i = true ∧ s.nat (Od.preambleThreshold i) < metric ∧ (s.hub i).burst.phase = 1 ∧
      (s.hub i).burst.metric < metric)
    ∧ (∃ (s : Machine.State) (i : Nat) (metric : Nat), i < 2048 ∧ burstRx s i = true ∧ s.nat (Od.preambleThreshold i) < metric ∧ (s.hub i).burst.phase = 1 ∧
      metric ≤ (s.hub i).burst.metric)
    ∧ (∃ (s : Machine.State) (i : Nat) (errors : Nat), i < 2048 ∧ (s.hub i).burst.phase = 1 ∧ errors ≤ s.nat (Od.syncErrors i)) :=
  ⟨⟨ready, 0, 0, by decide +kernel⟩,
    ⟨(let s := ready; let s := s.setB (Od.hubMode (0 / 32)) true; let s := s.setB (Od.hubActive 0) true; let s := s.setN (Od.rxState (0 / 32)) 5;
      s.setHub 0 { (s.hub 0) with burst := { (s.hub 0).burst with phase := 0 } }), 0, 9000, by decide +kernel⟩,
    ⟨(let s := ready; let s := s.setB (Od.hubMode (0 / 32)) true; let s := s.setB (Od.hubActive 0) true; let s := s.setN (Od.rxState (0 / 32)) 5;
      let s := s.setHub 0 { (s.hub 0) with burst := { (s.hub 0).burst with phase := 1 } };
      s.setHub 0 { s.hub 0 with burst := { (s.hub 0).burst with metric := 8000 } }), 0, 9000, by decide +kernel⟩,
    ⟨(let s := ready; let s := s.setB (Od.hubMode (0 / 32)) true; let s := s.setB (Od.hubActive 0) true; let s := s.setN (Od.rxState (0 / 32)) 5;
      let s := s.setHub 0 { (s.hub 0) with burst := { (s.hub 0).burst with phase := 1 } };
      s.setHub 0 { s.hub 0 with burst := { (s.hub 0).burst with metric := 9500 } }), 0, 9000, by decide +kernel⟩,
    ⟨(let s := ready; s.setHub 0 { (s.hub 0) with burst := { (s.hub 0).burst with phase := 1 } }), 0, 0, by decide +kernel⟩⟩

theorem witness_BurstsAreReceivedInTheirSlots_2 :
    (∃ (s : Machine.State) (i : Nat), i < 2048 ∧ (s.hub i).burst.phase ≠ 1)
    ∧ (∃ (s : Machine.State) (i : Nat), i < 2048 ∧ (s.hub i).burst.phase ≠ 2) :=
  ⟨⟨(let s := ready; s.setHub 0 { (s.hub 0) with burst := { (s.hub 0).burst with phase := 0 } }), 0, by decide +kernel⟩,
    ⟨(let s := ready; s.setHub 0 { (s.hub 0) with burst := { (s.hub 0).burst with phase := 0 } }), 0, by decide +kernel⟩⟩

theorem witness_BurstsAreReceivedInTheirSlots_3 :
    (∃ (s : Machine.State) (i : Nat) (data : Bytes), i < 2048 ∧ (s.hub i).burst.phase = 3 ∧ (s.hub i).burst.left ≠ 0 ∧ List.length data = 192)
    ∧ (∃ (s : Machine.State) (i : Nat), i < 2048 ∧ (s.hub i).burst.phase = 3)
    ∧ (∃ (s : Machine.State) (i : Nat), i < 2048 ∧ (s.hub i).burst.phase ≠ 3)
    ∧ (∃ (s : Machine.State) (i : Nat) (frame : Nat) (leaf : Nat) (m : List Grant), i < 2048 ∧ ((Option.map (fun x => x.snd) (List.find? (fun x => decide
      (x.fst = frame)) (s.hub i).lineMaps)).getD [] = m) ∧ (∃ g, g ∈ m ∧ g.kind ≠ 2 ∧ g.leaf = leaf))
    ∧ (∃ (s : Machine.State) (i : Nat) (frame : Nat) (leaf : Nat) (m : List Grant), i < 2048 ∧ ((Option.map (fun x => x.snd) (List.find? (fun x => decide
      (x.fst = frame)) (s.hub i).lineMaps)).getD [] = m) ∧ (∀ (g : Grant), g ∈ m → g.kind ≠ 2 → g.leaf ≠ leaf))
    ∧ (∃ (s : Machine.State) (i : Nat) (l : Nat), (s.hub i).settled = true ∧ ((s.ctx l).state = 2 ∨ (s.ctx l).state = 3) ∧ s.nat (Od.lostBursts i) ≤
      (s.leafRun l).missed + 1) :=
  ⟨⟨(let s := ready; let s := s.setHub 0 { (s.hub 0) with burst := { (s.hub 0).burst with phase := 3 } };
      s.setHub 0 { (s.hub 0) with burst := { (s.hub 0).burst with left := 1 } }), 0, List.replicate 192 0, by decide +kernel⟩,
    ⟨(let s := ready; s.setHub 0 { (s.hub 0) with burst := { (s.hub 0).burst with phase := 3 } }), 0, by decide +kernel⟩,
    ⟨(let s := ready; s.setHub 0 { (s.hub 0) with burst := { (s.hub 0).burst with phase := 0 } }), 0, by decide +kernel⟩,
    ⟨(let s := ready; s.setHub 0 { s.hub 0 with lineMaps := [(0, [⟨0, 0, 0, 1, 0⟩])] }), 0, 0, 0, [⟨0, 0, 0, 1, 0⟩], by decide +kernel⟩,
    ⟨ready, 0, 0, 0, ([] : List Grant), by decide +kernel⟩,
    ⟨(let s := ready; let s := s.setHub 0 { (s.hub 0) with settled := true }; let s := s.setCtx 0 { s.ctx 0 with state := 2 };
      s.setLeafRun 0 { s.leafRun 0 with missed := 9 }), 0, 0, by decide +kernel⟩⟩

theorem witness_BurstsAreReceivedInTheirSlots_4 :
    (∃ (s : Machine.State) (i : Nat) (l : Nat), (s.hub i).settled = true ∧ ((s.ctx l).state = 2 ∨ (s.ctx l).state = 3) ∧ (s.leafRun l).missed + 1 < s.nat
      (Od.lostBursts i))
    ∧ (∃ (s : Machine.State) (n : Nat), n < 64 ∧ isHub s n = true ∧ inService s n = true ∧ s.engineUp n = true)
    ∧ (∃ (s : Machine.State) (n : Nat), n < 64 ∧ isHub s n = false) :=
  ⟨⟨(let s := ready; let s := s.setHub 0 { (s.hub 0) with settled := true }; s.setCtx 0 { s.ctx 0 with state := 2 }), 0, 0, by decide +kernel⟩,
    ⟨(let s := ready; let s := s.setB (Od.hubMode 0) true; let s := s.setB (Od.carrierEnable 0) true; s.setN (Od.powerState 0) 2), 0, by decide +kernel⟩,
    ⟨ready, 0, by decide +kernel⟩⟩

theorem witness_BurstsAreReceivedInTheirSlots_5 :
    (∃ (s : Machine.State) (i : Nat) (metric : Nat), i < 2048 ∧ burstRx s i = true ∧ s.nat (Od.preambleThreshold i) < metric ∧
      2 ≤ (s.hub i).burst.phase ∧ (s.hub i).burst.grant = none ∧ (s.hub i).burst.window = false ∧ s.flag (Od.captureGrants i) = false)
    ∧ (∃ (s : Machine.State) (i : Nat) (frame : Nat) (a : Int), grantAt s i frame a = none)
    ∧ (∃ (s : Machine.State) (i : Nat) (bits : List Bool), i < 2048 ∧ (s.hub i).burst.phase = 1 ∧ syncDistance bits ≤ s.nat (Od.syncErrors i))
    ∧ (∃ (s : Machine.State) (i : Nat) (bits : List Bool), i < 2048 ∧ (s.hub i).burst.phase ≠ 1 ∨ s.nat (Od.syncErrors i) < syncDistance bits)
    ∧ (∃ (s : Machine.State) (i : Nat) (header : Nat) (soft : List Int), i < 2048 ∧ (s.hub i).burst.phase = 2 ∧ headerDecoded soft = header ∧
      crc16 80 (header / 65536) ≠ header % 65536 ∧ (s.hub i).burst.grant = none) :=
  ⟨⟨(let s := ready; let s := s.setB (Od.hubMode 0) true; let s := s.setB (Od.hubActive 0) true; let s := s.setN (Od.rxState 0) 5;
      s.setHub 0 { s.hub 0 with burst := { (s.hub 0).burst with phase := 2 } }), 0, 9000, by decide +kernel⟩,
    ⟨ready, 0, 0, 0, by decide +kernel⟩,
    ⟨(let s := ready; s.setHub 0 { s.hub 0 with burst := { (s.hub 0).burst with phase := 1 } }), 0, syncBits 0 ++ syncBits 1, by decide +kernel⟩,
    ⟨ready, 0, [], by decide +kernel⟩,
    ⟨(let s := ready; s.setHub 0 { s.hub 0 with burst := { (s.hub 0).burst with phase := 2 } }), 0, 1, softOf 1, by decide +kernel⟩⟩

theorem witness_BurstsAreReceivedInTheirSlots_6 :
    (∃ (s : Machine.State) (i : Nat) (header : Nat) (soft : List Int), i < 2048 ∧ (s.hub i).burst.phase = 2 ∧ headerDecoded soft = header ∧
      crc16 80 (header / 65536) = header % 65536 ∧ header / 2 ^ 94 = 1 ∧ (s.hub i).burst.window = true)
    ∧ (∃ (s : Machine.State) (i : Nat) (header : Nat) (soft : List Int), i < 2048 ∧ (s.hub i).burst.phase = 2 ∧ headerDecoded soft = header ∧
      crc16 80 (header / 65536) = header % 65536 ∧ header / 2 ^ 94 = 1 ∧ (s.hub i).burst.window = false)
    ∧ (∃ (s : Machine.State) (i : Nat) (header : Nat) (soft : List Int) (g : Grant), i < 2048 ∧ (s.hub i).burst.phase = 2 ∧
      headerDecoded soft = header ∧ crc16 80 (header / 65536) = header % 65536 ∧ header / 2 ^ 94 = 0 ∧ (s.hub i).burst.grant = some g ∧
      g.leaf = header / 2 ^ 76 % 2 ^ 18 ∧ leafRegistered (s.ctx g.leaf).state = true ∧ (s.ctx g.leaf).home = i)
    ∧ (∃ (s : Machine.State) (serial : Bytes), (s.knownLeaves.find? fun l => (s.ctx l).enable && (s.ctx l).serial = serial) = none)
    ∧ (∃ (s : Machine.State) (i : Nat) (coded : Bytes), i < 2048 ∧ (s.hub i).burst.phase = 3 ∧ (s.hub i).burst.left ≠ 0 ∧ coded.length = 256) :=
  ⟨⟨(let s := ready; s.setHub 0 { s.hub 0 with burst := { (s.hub 0).burst with phase := 2, window := true } }), 0, headed (2 ^ 78),
      softOf (headed (2 ^ 78)), by decide +kernel⟩,
    ⟨(let s := ready; s.setHub 0 { s.hub 0 with burst := { (s.hub 0).burst with phase := 2 } }), 0, headed (2 ^ 78), softOf (headed (2 ^ 78)),
      by decide +kernel⟩,
    ⟨(let s := ready; let s := s.setHub 0 { s.hub 0 with burst := { (s.hub 0).burst with phase := 2, grant := some ⟨0, 5, 0, 1, 0⟩ } };
      s.setCtx 5 { s.ctx 5 with state := 1, home := 0 }), 0, headed (5 * 2 ^ 60), softOf (headed (5 * 2 ^ 60)), ⟨0, 5, 0, 1, 0⟩,
      by decide +kernel⟩,
    ⟨ready, [], by decide +kernel⟩,
    ⟨(let s := ready; s.setHub 0 { s.hub 0 with burst := { (s.hub 0).burst with phase := 3, left := 1 } }), 0, List.replicate 256 0,
      by decide +kernel⟩⟩

theorem witness_LeavesFollowTheirCommands_1 :
    (∃ (s : Machine.State) (k : Nat) (l : Nat), Admits s k (Od.leafCommand l) 1 ∧ ((s.ctx l).state = 2 ∨ (s.ctx l).state = 3))
    ∧ (∃ (s : Machine.State) (k : Nat) (l : Nat), Admits s k (Od.leafCommand l) 1 ∧ (s.ctx l).state ≠ 2 ∧ (s.ctx l).state ≠ 3)
    ∧ (∃ (s : Machine.State) (k : Nat) (l : Nat), Admits s k (Od.leafCommand l) 2 ∧ leafRegistered (s.ctx l).state = true)
    ∧ (∃ (s : Machine.State) (k : Nat) (l : Nat), Admits s k (Od.leafCommand l) 2 ∧ leafRegistered (s.ctx l).state = false)
    ∧ (∃ (s : Machine.State) (k : Nat) (l : Nat) (code : Nat), s.answers k = true ∧ writeGate s k 20736 l 1 code = Status.ok)
    ∧ (∃ (s : Machine.State) (l : Nat), (s.ctx l).enable = false ∧ leafRegistered (s.ctx l).state = true) :=
  ⟨⟨(let s := ready; s.setCtx 0 { s.ctx 0 with state := 2 }), 0, 0, admits_of (by decide +kernel) (by decide +kernel), by decide +kernel⟩,
    ⟨(let s := ready; s.setCtx 0 { s.ctx 0 with state := 0 }), 0, 0, admits_of (by decide +kernel) (by decide +kernel), by decide +kernel⟩,
    ⟨(let s := ready; s.setCtx (0) { s.ctx (0) with state := 1 }), 0, 0, admits_of (by decide +kernel) (by decide +kernel), by decide +kernel⟩,
    ⟨ready, 0, 0, admits_of (by decide +kernel) (by decide +kernel), by decide +kernel⟩,
    ⟨ready, 0, 0, 0, by decide +kernel⟩,
    ⟨(let s := ready; let s := s.setCtx (0) { s.ctx (0) with state := 1 }; s.setCtx 0 { s.ctx 0 with enable := false }), 0, by decide +kernel⟩⟩

theorem witness_LeavesFollowTheirCommands_2 :
    (∃ (s : Machine.State) (l : Nat), (s.ctx l).enable = true ∧ (s.ctx l).state = 4)
    ∧ (∃ (s : Machine.State) (l : Nat), (s.ctx l).enable = true ∧ (s.ctx l).state ≠ 4)
    ∧ (∃ (s : Machine.State) (i : Nat), i < 2048 ∧ (s.hub i).rollAt = none)
    ∧ (∃ (s : Machine.State) (i : Nat) (f : Nat) (e : Nat), i < 2048 ∧ (s.hub i).rollAt = some f ∧ (s.hub i).nextEpoch = some e) :=
  ⟨⟨(let s := ready; let s := s.setCtx 0 { s.ctx 0 with enable := true }; s.setCtx 0 { s.ctx 0 with state := 4 }), 0, by decide +kernel⟩,
    ⟨(let s := ready; let s := s.setCtx 0 { s.ctx 0 with enable := true }; s.setCtx 0 { s.ctx 0 with state := 0 }), 0, by decide +kernel⟩,
    ⟨(let s := ready; s.setHub 0 { (s.hub 0) with rollAt := none }), 0, by decide +kernel⟩,
    ⟨(let s := ready; let s := s.setHub 0 { (s.hub 0) with rollAt := some 0 }; s.setHub 0 { (s.hub 0) with nextEpoch := some 0 }), 0, 0, 0, by decide +kernel⟩⟩

theorem witness_LeavesFollowTheirCommands_3 :
    (∃ (s : Machine.State) (i : Nat), i < 2048 ∧ (s.hub i).oldUntil = none)
    ∧ (∃ (s : Machine.State) (i : Nat), i < 2048 ∧ (s.hub i).oldUntil ≠ none)
    ∧ (∃ (s : Machine.State) (j : Nat) (frame : Bytes), j < 16 ∧ s.nat (Od.sourceTray j) < 2048 ∧ fcsOk frame = true ∧ frameTags frame = none)
    ∧ (∃ (s : Machine.State) (j : Nat) (frame : Bytes) (g : Nat × Nat) (l : Nat), j < 16 ∧ s.nat (Od.sourceTray j) < 2048 ∧ fcsOk frame = true ∧ frameTags
      frame = some g ∧ (List.find? (fun l => decide ((s.ctx l).source = j) && decide ((s.ctx l).tags = g.fst)) s.knownLeaves = some l) ∧ ((s.ctx l).state =
      0 ∨ (s.ctx l).state = 4))
    ∧ (∃ (s : Machine.State) (j : Nat) (frame : Bytes) (g : Nat × Nat) (l : Nat) (f : QFrame) (u : Machine.State), j < 16 ∧ s.nat (Od.sourceTray j) < 2048 ∧
      fcsOk frame = true ∧ frameTags frame = some g ∧ (List.find? (fun l => decide ((s.ctx l).source = j) && decide ((s.ctx l).tags = g.fst)) s.knownLeaves
      = some l) ∧ (s.ctx l).state ≠ 0 ∧ (s.ctx l).state ≠ 4 ∧ f = { num := (s.leafRun l).nextNum, priority := g.snd, data := frame } ∧ u = s.setLeafRun l
      { s.leafRun l with queue := (s.leafRun l).queue ++ [f], nextNum := (s.leafRun l).nextNum + 1 } ∧ queuedBytes (s.leafRun l) + List.length frame ≤ s.nat
      (Od.queueLimit l) ∧ queuePages u ≤ queueRegionSize s)
    ∧ (∃ (s : Machine.State) (j : Nat) (frame : Bytes) (g : Nat × Nat) (l : Nat) (f : QFrame) (u : Machine.State), j < 16 ∧ s.nat (Od.sourceTray j) < 2048 ∧
      fcsOk frame = true ∧ frameTags frame = some g ∧ (List.find? (fun l => decide ((s.ctx l).source = j) && decide ((s.ctx l).tags = g.fst)) s.knownLeaves
      = some l) ∧ (s.ctx l).state ≠ 0 ∧ (s.ctx l).state ≠ 4 ∧ f = { num := (s.leafRun l).nextNum, priority := g.snd, data := frame } ∧ u = s.setLeafRun l
      { s.leafRun l with queue := (s.leafRun l).queue ++ [f], nextNum := (s.leafRun l).nextNum + 1 } ∧ s.nat (Od.queueLimit l) < queuedBytes (s.leafRun l) +
      List.length frame) :=
  ⟨⟨(let s := ready; s.setHub 0 { (s.hub 0) with oldUntil := none }), 0, by decide +kernel⟩,
    ⟨(let s := ready; s.setHub 0 { s.hub 0 with oldUntil := some 9 }), 0, by decide +kernel⟩,
    ⟨(let s := ready; s.setN (Od.sourceTray 0) 3), 0, (rawFrame ++ crcOf rawFrame), by decide +kernel⟩,
    ⟨(let s := ready; let s := s.setCtx 5 { s.ctx 5 with source := 0, tags := (4097, 0).1 }; s.setN (Od.sourceTray 0) 3), 0, (tagFrame ++ crcOf tagFrame),
      (4097, 0), 5, by decide +kernel⟩,
    ⟨(let s := ready; let s := s.setCtx 5 { s.ctx 5 with state := 2, source := 0, tags := (4097, 0).1 }; let s := s.setN (Od.sourceTray 0) 3;
      let s := s.setN (Od.queueLimit 5) 5000; { s with stockpot := { s.stockpot with extents := [(1, [(0, 100)]), (5, [(0, 100)])] } }), 0, (tagFrame ++
      crcOf tagFrame), (4097, 0), 5, (let s : Machine.State := (let s := ready;
      let s := s.setCtx 5 { s.ctx 5 with state := 2, source := 0, tags := (4097, 0).1 }; let s := s.setN (Od.sourceTray 0) 3;
      let s := s.setN (Od.queueLimit 5) 5000; { s with stockpot := { s.stockpot with extents := [(1, [(0, 100)]), (5, [(0, 100)])] } });
      ({ num := (s.leafRun 5).nextNum, priority := (4097, 0).snd, data := (tagFrame ++ crcOf tagFrame) } : QFrame)), (let s : Machine.State :=
      (let s := ready; let s := s.setCtx 5 { s.ctx 5 with state := 2, source := 0, tags := (4097, 0).1 }; let s := s.setN (Od.sourceTray 0) 3;
      let s := s.setN (Od.queueLimit 5) 5000; { s with stockpot := { s.stockpot with extents := [(1, [(0, 100)]), (5, [(0, 100)])] } });
      s.setLeafRun 5 { s.leafRun 5 with queue := (s.leafRun 5).queue ++ [({ num := (s.leafRun 5).nextNum, priority := (4097, 0).snd, data := (tagFrame ++ crcOf tagFrame) } : QFrame)], nextNum := (s.leafRun 5).nextNum + 1 }),
      by decide +kernel⟩,
    ⟨(let s := ready; let s := s.setCtx 5 { s.ctx 5 with state := 2, source := 0, tags := (4097, 0).1 }; let s := s.setN (Od.sourceTray 0) 3;
      s.setN (Od.queueLimit 5) 10), 0, (tagFrame ++ crcOf tagFrame), (4097, 0), 5, (let s : Machine.State := (let s := ready;
      let s := s.setCtx 5 { s.ctx 5 with state := 2, source := 0, tags := (4097, 0).1 }; let s := s.setN (Od.sourceTray 0) 3; s.setN (Od.queueLimit 5) 10);
      ({ num := (s.leafRun 5).nextNum, priority := (4097, 0).snd, data := (tagFrame ++ crcOf tagFrame) } : QFrame)), (let s : Machine.State :=
      (let s := ready; let s := s.setCtx 5 { s.ctx 5 with state := 2, source := 0, tags := (4097, 0).1 }; let s := s.setN (Od.sourceTray 0) 3;
      s.setN (Od.queueLimit 5) 10);
      s.setLeafRun 5 { s.leafRun 5 with queue := (s.leafRun 5).queue ++ [({ num := (s.leafRun 5).nextNum, priority := (4097, 0).snd, data := (tagFrame ++ crcOf tagFrame) } : QFrame)], nextNum := (s.leafRun 5).nextNum + 1 }),
      by decide +kernel⟩⟩

theorem witness_LeavesFollowTheirCommands_4 :
    (∃ (s : Machine.State) (j : Nat) (frame : Bytes), j < 16 ∧ (2048 ≤ s.nat (Od.sourceTray j) ∨ fcsOk frame = false))
    ∧ (∃ (s : Machine.State) (k : Nat) (q : Nat), Admits s k (Od.queueCommand q) 1)
    ∧ (∃ (s : Machine.State) (k : Nat), Admits s k Od.clearHubCounters 1) :=
  ⟨⟨(let s := ready; s.setN (Od.sourceTray 0) 2048), 0, ([] : Bytes), by decide +kernel⟩,
    ⟨ready, 0, 0, admits_of (by decide +kernel) (by decide +kernel)⟩,
    ⟨ready, 0, admits_of (by decide +kernel) (by decide +kernel)⟩⟩

theorem witness_LeavesFollowTheirCommands_5 :
    (∃ (s : Machine.State) (k : Nat) (i : Nat), Admits s k (Od.hubKeyCommand i) 1 ∧ hubSubExists s i = false)
    ∧ (∃ (s : Machine.State) (k : Nat) (i : Nat), Admits s k (Od.hubKeyCommand i) 1 ∧ hubSubExists s i = true ∧
      (s.nat (Od.trayKeySlotSlotState (2 * i + (1 - s.nat (Od.hubKeySelect i)))) = 0 ∨ s.flag (Od.hubSeal i) = false))
    ∧ (∃ (s : Machine.State) (k : Nat) (i : Nat), Admits s k (Od.hubKeyCommand i) 1 ∧ hubSubExists s i = true ∧
      s.nat (Od.trayKeySlotSlotState (2 * i + (1 - s.nat (Od.hubKeySelect i)))) ≠ 0 ∧ s.flag (Od.hubSeal i) = true ∧ (s.hub i).rollAt = none ∧
      (s.hub i).oldUntil = none ∧ s.nat (Od.epochNext (2 * i + (1 - s.nat (Od.hubKeySelect i)))) ≠ 4294967295) :=
  ⟨⟨ready, 1, 0, admits_of (by decide +kernel) (by decide +kernel), by decide +kernel⟩,
    ⟨(let s := ready; s.setB (Od.hubMode 0) true), 1, 0, admits_of (by decide +kernel) (by decide +kernel), by decide +kernel⟩,
    ⟨(let s := ready; let s := s.setB (Od.hubMode 0) true; let s := s.setN (Od.trayKeySlotSlotState 1) 2; s.setB (Od.hubSeal 0) true), 1, 0,
      admits_of (by decide +kernel) (by decide +kernel), by decide +kernel⟩⟩

theorem witness_PagesKeepTheirTags_1 :
    (∃ (s : Machine.State) (a : Nat), a < 4 * stackSize ∧ stackUp s a = true)
    ∧ (∃ (s : Machine.State) (a : Nat), a < 4 * stackSize ∧ stackUp s a = false)
    ∧ (∃ (s : Machine.State) (a : Nat), a < 4 * stackSize ∧ stackUp s a = true)
    ∧ (∃ (s : Machine.State) (a : Nat), a < 4 * stackSize ∧ stackUp s a = false)
    ∧ (∃ (s : Machine.State) (a : Nat) (errors : Nat) (x : Page), s.page (physical s a) = x ∧ x.written = true ∧ 0 < errors ∧ errors ≤ s.nat
      Od.activeStrength)
    ∧ (∃ (s : Machine.State) (a : Nat) (errors : Nat) (x : Page), s.page (physical s a) = x ∧ x.written = true ∧ s.nat Od.activeStrength < errors) :=
  ⟨⟨ready, 0, by decide +kernel⟩,
    ⟨(let s := ready; s.setN (Od.powerState (domStack (pageStack 0))) 0), 0, by decide +kernel⟩,
    ⟨ready, 0, by decide +kernel⟩,
    ⟨(let s := ready; s.setN (Od.powerState (domStack (pageStack 0))) 0), 0, by decide +kernel⟩,
    ⟨(let s := ready; let s := s.setPage 0 ({ data := [1], written := true } : Page); s.setN Od.activeStrength 2), 0, 1, ({ data := [1], written := true }
      : Page), by decide +kernel⟩,
    ⟨(let s := ready; let s := s.setPage 0 ({ data := [1], written := true } : Page); s.setN Od.activeStrength 2), 0, 3, ({ data := [1], written := true }
      : Page), by decide +kernel⟩⟩

theorem witness_PagesKeepTheirTags_2 :
    (∃ (s : Machine.State) (a : Nat) (x : Page), s.page (physical s a) = x ∧ x.written = false ∧ x.history = 7)
    ∧ (∃ (s : Machine.State) (a : Nat) (x : Page), s.page (physical s a) = x ∧ x.written = false ∧ x.history ≠ 7)
    ∧ (∃ (s : Machine.State) (a : Nat) (data : Bytes) (q : Nat), (s.page (physical s a)).poisoned = false ∧ List.length data = 4096 ∧ q ≠ physical s a)
    ∧ (∃ (s : Machine.State) (a : Nat), (s.page (physical s a)).poisoned = true) :=
  ⟨⟨(let s := ready; s.setPage 0 ({ history := 7 } : Page)), 0, ({ history := 7 } : Page), by decide +kernel⟩,
    ⟨ready, 0, ({ ({ ({} : Page) with written := false } : Page) with history := 0 } : Page), by decide +kernel⟩,
    ⟨ready, 0, List.replicate 4096 1, 1, by decide +kernel⟩,
    ⟨(let s := ready; s.setPage 0 { history := 7 }), 0, by decide +kernel⟩⟩

theorem witness_PagesKeepTheirTags_3 :
    (∃ (s : Machine.State) (x : Nat) (errors : Nat) (n : Nat) (u : Machine.State), x < 4 ∧ s.domUp (domStack x) = true ∧ nextScrub s x (s.nat
      (Od.scrubPosition x)) = some n ∧ u = (readPage s (x * stackSize + n) errors true).snd.snd.setN (Od.scrubPosition x) (n + 1))
    ∧ (∃ (s : Machine.State) (k : Nat) (a : Nat), Admits s k Od.stockpotCommand 1 ∧ s.nat Od.pageAddress = a ∧ (4 * stackSize ≤ a ∨ firstSpare ≤ pageNumber
      a))
    ∧ (∃ (s : Machine.State) (k : Nat) (a : Nat), Admits s k Od.stockpotCommand 1 ∧ s.nat Od.pageAddress = a ∧ a < 4 * stackSize ∧ pageNumber a < firstSpare
      ∧ s.running = true ∧ sparesUsed s (pageStack a) < stackSize - firstSpare ∧ s.flash.retired.length < 8188)
    ∧ (∃ (s : Machine.State) (k : Nat), Admits s k Od.stockpotCommand 2 ∧ s.nat Od.targetRegion < 2 ∧ anyHub s = true)
    ∧ (∃ (s : Machine.State) (k : Nat), Admits s k Od.stockpotCommand 2 ∧ s.nat Od.targetRegion < 2 ∧ anyHub s = false)
    ∧ (∃ (s : Machine.State) (k : Nat), Admits s k Od.stockpotCommand 2 ∧ 6 ≤ s.nat Od.targetRegion ∧ regionInUse s (s.nat Od.targetRegion - 6) = true) :=
  ⟨⟨(let s := ready; s.setPage 0 { data := [1], written := true }), 0, 0, 0, (let s : Machine.State := (let s := ready;
      s.setPage 0 { data := [1], written := true }); (readPage s (0 * stackSize + 0) 0 true).snd.snd.setN (Od.scrubPosition 0) (0 + 1)), by decide +kernel⟩,
    ⟨(let s := ready; s.setN Od.pageAddress (4 * stackSize)), 0, 4 * stackSize, admits_of (by decide +kernel) (by decide +kernel), by decide +kernel⟩,
    ⟨(let s := ready; s.setN Od.pageAddress 0), 0, 0, admits_of (by decide +kernel) (by decide +kernel), by decide +kernel⟩,
    ⟨(let s := ready; s.setB (Od.hubMode 0) true), 0, admits_of (by decide +kernel) (by decide +kernel), by decide +kernel⟩,
    ⟨ready, 0, admits_of (by decide +kernel) (by decide +kernel), by decide +kernel⟩,
    ⟨(let s := ready; let s := s.setN Od.targetRegion 6; s.setN (Od.dmaState 0) 1), 0, admits_of (by decide +kernel) (by decide +kernel), by decide +kernel⟩⟩

theorem witness_PagesKeepTheirTags_4 :
    (∃ (s : Machine.State) (k : Nat), Admits s k Od.stockpotCommand 2 ∧ 6 ≤ s.nat Od.targetRegion ∧ regionInUse s (s.nat Od.targetRegion - 6) = false)
    ∧ (∃ (s : Machine.State) (k : Nat), Admits s k Od.stockpotCommand 2 ∧ 2 ≤ s.nat Od.targetRegion ∧ s.nat Od.targetRegion < 6 ∧ delayRegionOn s (s.nat
      Od.targetRegion - 2) = true)
    ∧ (∃ (s : Machine.State) (k : Nat), Admits s k Od.stockpotCommand 3)
    ∧ (∃ (s : Machine.State) (k : Nat), Admits s k Od.stockpotCommand 4)
    ∧ (∃ (s : Machine.State) (k : Nat), Admits s k Od.stockpotCommand 5) :=
  ⟨⟨(let s := ready; s.setN Od.targetRegion 6), 0, admits_of (by decide +kernel) (by decide +kernel), by decide +kernel⟩,
    ⟨(let s := ready; let s := s.setN Od.targetRegion 2; { s with stockpot := { s.stockpot with extents := [(1000, [(0, 4)])] } }), 0, admits_of (by
      decide +kernel) (by decide +kernel), by decide +kernel⟩,
    ⟨ready, 0, admits_of (by decide +kernel) (by decide +kernel)⟩,
    ⟨ready, 0, admits_of (by decide +kernel) (by decide +kernel)⟩,
    ⟨ready, 0, admits_of (by decide +kernel) (by decide +kernel)⟩⟩

theorem witness_PagesKeepTheirTags_5 :
    (∃ (s : Machine.State) (x : Nat), x < 4 ∧ stackServes s x = false)
    ∧ (∃ (s : Machine.State) (x : Nat), x < 4 ∧ stackServes s x = true ∧ nextScrub s x (s.nat (Od.scrubPosition x)) = none)
    ∧ (∃ (s : Machine.State) (x : Nat) (errors : Nat) (n : Nat) (u : Machine.State), x < 4 ∧ stackServes s x = true ∧
      nextScrub s x (s.nat (Od.scrubPosition x)) = some n ∧
      u = ((readPage s (x * stackSize + n) errors true).2.2).setN (Od.scrubPosition x) (n + 1)) :=
  ⟨⟨(let s := ready; s.setN (Od.powerState (domStack 0)) 0), 0, by decide +kernel⟩,
    ⟨ready, 0, by decide +kernel⟩,
    ⟨(let s := ready; s.setPage 0 { data := [1], written := true }), 0, 0, 0, ((readPage (let s := ready;
      s.setPage 0 { data := [1], written := true }) (0 * stackSize + 0) 0 true).2.2).setN (Od.scrubPosition 0) (0 + 1), by decide +kernel⟩⟩

theorem witness_DmaChannelsMoveTheirPages_1 :
    (∃ (s : Machine.State) (k : Nat) (c : Nat), Admits s k (Od.dmaCommand c) 1 ∧ s.nat (Od.dmaCommand c) = 0 ∧ dmaOpen s c = false ∧ dmaSourceOk s c =
      true ∧ (((List.range 32).any fun d => d != c && dmaOpen s d && decide (s.nat (Od.sourceKind d) = s.nat (Od.sourceKind c)) && decide (s.nat
      (Od.sourceInstance d) = s.nat (Od.sourceInstance c))) = false) ∧ dmaMisaligned s c = true)
    ∧ (∃ (s : Machine.State) (k : Nat) (c : Nat), Admits s k (Od.dmaCommand c) 1 ∧ s.nat (Od.dmaCommand c) = 0 ∧ dmaOpen s c = false ∧ dmaSourceOk s c =
      true ∧ (((List.range 32).any fun d => d != c && dmaOpen s d && decide (s.nat (Od.sourceKind d) = s.nat (Od.sourceKind c)) && decide (s.nat
      (Od.sourceInstance d) = s.nat (Od.sourceInstance c))) = false) ∧ dmaMisaligned s c = false ∧ dmaOutside s c = true)
    ∧ (∃ (s : Machine.State) (k : Nat) (c : Nat), Admits s k (Od.dmaCommand c) 1 ∧ s.nat (Od.dmaCommand c) = 0 ∧ dmaOpen s c = false ∧ dmaSourceOk s c =
      true ∧ (((List.range 32).any fun d => d != c && dmaOpen s d && decide (s.nat (Od.sourceKind d) = s.nat (Od.sourceKind c)) && decide (s.nat
      (Od.sourceInstance d) = s.nat (Od.sourceInstance c))) = false) ∧ dmaMisaligned s c = false ∧ dmaOutside s c = false ∧ dmaInconsistent s c = false ∧
      (s.nat (Od.sourceKind c) ≠ 6 → ringTotal s c (sourcePort (s.nat (Od.sourceKind c)) (s.nat (Od.sourceInstance c))) + s.nat (Od.ringPages c) ≤ 4096 ∧
      s.domUp (domPort (sourcePort (s.nat (Od.sourceKind c)) (s.nat (Od.sourceInstance c)))) = true) ∧ s.domUp (domStack (dmaDestStack s c)) = true ∧
      s.domUp (domHalf (dmaDestStack s c)) = true ∧ s.domUp (domHalf (dmaSrcHalf s c)) = true ∧ (s.nat (Od.sourceKind c) = 6 → s.domUp (domStack (crStack s
      (s.nat (Od.sourceInstance c)))) = true))
    ∧ (∃ (s : Machine.State) (k : Nat) (c : Nat), s.nat (Od.dmaCommand c) = 0 ∧ Admits s k (Od.dmaCommand c) 2 ∧ s.nat (Od.dmaState c) ≠ 1)
    ∧ (∃ (s : Machine.State) (k : Nat) (c : Nat), s.nat (Od.dmaCommand c) = 0 ∧ Admits s k (Od.dmaCommand c) 4 ∧ s.nat (Od.dmaState c) = 1) :=
  ⟨⟨(let s := ready; s.setN (Od.dmaCommand 0) 0), 0, 0, admits_of (by decide +kernel) (by decide +kernel), by decide +kernel⟩,
    ⟨(let s := ready; let s := s.setN (Od.dmaCommand 0) 0; let s := s.setN (Od.dmaLength 0) 4096; s.setN (Od.sourceKind 0) 1), 0, 0, admits_of (by
      decide +kernel) (by decide +kernel), by decide +kernel⟩,
    ⟨(let s := ready; let s := s.setN (Od.dmaLength 0) 4096; let s := s.setN (Od.sourceKind 0) 1; s.setN (Od.stockpotRegionRegionPages 6) 100), 0, 0,
      admits_of (by decide +kernel) (by decide +kernel), by decide +kernel⟩,
    ⟨(let s := ready; let s := s.setN (Od.dmaCommand 0) 0; s.setN (Od.dmaState 0) 0), 0, 0, by decide +kernel, admits_of (by decide +kernel) (by
      decide +kernel), by decide +kernel⟩,
    ⟨(let s := ready; let s := s.setN (Od.dmaCommand 0) 0; s.setN (Od.dmaState 0) 1), 0, 0, by decide +kernel, admits_of (by decide +kernel) (by
      decide +kernel), by decide +kernel⟩⟩

theorem witness_DmaChannelsMoveTheirPages_2 :
    (∃ (s : Machine.State) (k : Nat) (c : Nat), s.nat (Od.dmaCommand c) = 0 ∧ Admits s k (Od.dmaCommand c) 4 ∧ s.nat (Od.dmaState c) ≠ 1)
    ∧ (∃ (s : Machine.State) (k : Nat) (c : Nat), s.nat (Od.dmaCommand c) = 0 ∧ Admits s k (Od.dmaCommand c) 3 ∧ s.nat (Od.dmaState c) = 2 ∧ (s.dma
      c).ringLost = false ∧ s.domUp (domStack (dmaDestStack s c)) = true ∧ s.domUp (domHalf (dmaDestStack s c)) = true ∧ s.domUp (domHalf (dmaSrcHalf s c))
      = true ∧ (s.nat (Od.sourceKind c) = 6 → s.domUp (domStack (crStack s (s.nat (Od.sourceInstance c)))) = true))
    ∧ (∃ (s : Machine.State) (k : Nat) (c : Nat), s.nat (Od.dmaCommand c) = 0 ∧ Admits s k (Od.dmaCommand c) 3 ∧ s.nat (Od.dmaState c) ≠ 2)
    ∧ (∃ (s : Machine.State) (c : Nat), c < 32 ∧ (s.dma c).drain = Drain.none)
    ∧ (∃ (s : Machine.State) (c : Nat), c < 32 ∧ (s.dma c).drain = Drain.pause)
    ∧ (∃ (s : Machine.State) (c : Nat), c < 32 ∧ (s.dma c).drain = Drain.stop) :=
  ⟨⟨(let s := ready; let s := s.setN (Od.dmaCommand 0) 0; s.setN (Od.dmaState 0) 0), 0, 0, by decide +kernel, admits_of (by decide +kernel) (by
      decide +kernel), by decide +kernel⟩,
    ⟨(let s := ready; let s := s.setN (Od.dmaState 0) 2; s.setN (Od.sourceKind 0) 1), 0, 0, by decide +kernel, admits_of (by decide +kernel) (by
      decide +kernel), by decide +kernel⟩,
    ⟨(let s := ready; let s := s.setN (Od.dmaCommand 0) 0; s.setN (Od.dmaState 0) 0), 0, 0, by decide +kernel, admits_of (by decide +kernel) (by
      decide +kernel), by decide +kernel⟩,
    ⟨(let s := ready; s.setDma 0 { (s.dma 0) with drain := Drain.none }), 0, by decide +kernel⟩,
    ⟨(let s := ready; s.setDma 0 { (s.dma 0) with drain := Drain.pause }), 0, by decide +kernel⟩,
    ⟨(let s := ready; s.setDma 0 { (s.dma 0) with drain := Drain.stop }), 0, by decide +kernel⟩⟩

theorem witness_DmaChannelsMoveTheirPages_3 :
    (∃ (s : Machine.State) (c : Nat) (e : Nat), c < 32 ∧ (s.dma c).drain = Drain.forced e)
    ∧ (∃ (s : Machine.State) (c : Nat) (i : Nat) (k : Nat), c < 32 ∧ s.nat (Od.sourceKind c) = k ∧ s.nat (Od.sourceInstance c) = i ∧ (s.dma c).ringSize ≠ 0
      ∧ dmaOpen s c = true ∧ (s.dma c).ringLost = false ∧ (k = 5 → s.flag (Od.probeEnable i) = true) ∧ (k ≠ 5 → s.engineUp i = true ∧ (s.engine i).resetting
      = false) ∧ (k = 1 → s.flag (Od.monitorEnable i) = true) ∧ (k = 2 → (s.dma c).snapLeft ≠ 0) ∧ (s.dma c).ring.length < (s.dma c).ringSize)
    ∧ (∃ (s : Machine.State) (c : Nat) (i : Nat) (k : Nat), c < 32 ∧ s.nat (Od.sourceKind c) = k ∧ s.nat (Od.sourceInstance c) = i ∧ (s.dma c).ringSize ≠ 0
      ∧ dmaOpen s c = true ∧ (s.dma c).ringLost = false ∧ (k = 5 → s.flag (Od.probeEnable i) = true) ∧ (k ≠ 5 → s.engineUp i = true ∧ (s.engine i).resetting
      = false) ∧ (k = 1 → s.flag (Od.monitorEnable i) = true) ∧ (k = 2 → (s.dma c).snapLeft ≠ 0) ∧ (s.dma c).ringSize ≤ (s.dma c).ring.length)
    ∧ (∃ (s : Machine.State) (c : Nat) (n : Nat) (cur : Bytes), c < 32 ∧ s.nat (Od.dmaState c) = 1 ∧ (s.dma c).drain = Drain.none ∧ n = min (min
      (List.length cur) (4096 - destNext s c % 4096)) (s.nat (Od.dmaLength c) - (destNext s c - s.nat (Od.destOffset c))) ∧ (s.dma c).cur = cur ∧ cur ≠ [])
    ∧ (∃ (s : Machine.State) (c : Nat) (n : Nat) (cur : Bytes) (rest : List Bytes), c < 32 ∧ s.nat (Od.dmaState c) = 1 ∧ (s.dma c).drain = Drain.none ∧ n =
      min (min (List.length cur) (4096 - destNext s c % 4096)) (s.nat (Od.dmaLength c) - (destNext s c - s.nat (Od.destOffset c))) ∧ (s.dma c).cur = [] ∧
      s.nat (Od.burstsPending c) ≠ 0 ∧ s.nat (Od.sourceKind c) ≠ 6 ∧ (s.dma c).ring = cur :: rest ∧ cur ≠ [])
    ∧ (∃ (s : Machine.State) (c : Nat), c < 32 ∧ (s.nat (Od.dmaState c) ≠ 1 ∨ (s.dma c).drain ≠ Drain.none ∨ (s.dma c).cur = [] ∧ s.nat (Od.burstsPending c)
      = 0)) :=
  ⟨⟨(let s := ready; s.setDma 0 { (s.dma 0) with drain := Drain.forced 0 }), 0, 0, by decide +kernel⟩,
    ⟨(let s := ready; let s := s.setN (Od.dmaState 0) 1; let s := s.setN (Od.sourceKind 0) 1; let s := s.setB (Od.monitorEnable 0) true;
      s.setDma 0 { s.dma 0 with ringSize := 1 }), 0, 0, 1, by decide +kernel⟩,
    ⟨(let s := ready; let s := s.setN (Od.dmaState 0) 1; let s := s.setN (Od.sourceKind 0) 1; let s := s.setB (Od.monitorEnable 0) true;
      s.setDma 0 { s.dma 0 with ringSize := 1, ring := [[0]] }), 0, 0, 1, by decide +kernel⟩,
    ⟨(let s := ready; let s := s.setN (Od.dmaState 0) 1; let s := s.setDma 0 { (s.dma 0) with drain := Drain.none };
      s.setDma 0 { (s.dma 0) with cur := [1] }), 0, (let s : Machine.State := (let s := ready; let s := s.setN (Od.dmaState 0) 1;
      let s := s.setDma 0 { (s.dma 0) with drain := Drain.none }; s.setDma 0 { (s.dma 0) with cur := [1] });
      min (min (List.length [1]) (4096 - destNext s 0 % 4096)) (s.nat (Od.dmaLength 0) - (destNext s 0 - s.nat (Od.destOffset 0)))), [1], by decide +kernel⟩,
    ⟨(let s := ready; let s := s.setN (Od.dmaState 0) 1; let s := s.setDma 0 { (s.dma 0) with drain := Drain.none };
      let s := s.setDma 0 { (s.dma 0) with cur := [] }; let s := s.setN (Od.burstsPending 0) 1; let s := s.setN (Od.sourceKind 0) 0;
      s.setDma 0 { (s.dma 0) with ring := [1] :: ([] : List Bytes) }), 0, (let s : Machine.State := (let s := ready; let s := s.setN (Od.dmaState 0) 1;
      let s := s.setDma 0 { (s.dma 0) with drain := Drain.none }; let s := s.setDma 0 { (s.dma 0) with cur := [] }; let s := s.setN (Od.burstsPending 0) 1;
      let s := s.setN (Od.sourceKind 0) 0; s.setDma 0 { (s.dma 0) with ring := [1] :: ([] : List Bytes) });
      min (min (List.length [1]) (4096 - destNext s 0 % 4096)) (s.nat (Od.dmaLength 0) - (destNext s 0 - s.nat (Od.destOffset 0)))), [1], ([] : List Bytes),
      by decide +kernel⟩,
    ⟨(let s := ready; s.setN (Od.dmaState 0) 0), 0, by decide +kernel⟩⟩

theorem witness_DmaChannelsMoveTheirPages_4 :
    (∃ (s : Machine.State) (k : Nat) (c : Nat), Admits s k (Od.dmaCommand c) 1 ∧ dmaOpen s c = true)
    ∧ (∃ (s : Machine.State) (k : Nat) (c : Nat), Admits s k (Od.dmaCommand c) 1 ∧ dmaOpen s c = false ∧ dmaSourceOk s c = true ∧
      ((List.range 32).any fun d => d != c && dmaOpen s d && s.nat (Od.sourceKind d) = s.nat (Od.sourceKind c) && s.nat (Od.sourceInstance d) = s.nat (Od.sourceInstance c)) = false ∧
      dmaMisaligned s c = true)
    ∧ (∃ (s : Machine.State) (k : Nat) (c : Nat), Admits s k (Od.dmaCommand c) 1 ∧ dmaOpen s c = false ∧ dmaSourceOk s c = true ∧
      ((List.range 32).any fun d => d != c && dmaOpen s d && s.nat (Od.sourceKind d) = s.nat (Od.sourceKind c) && s.nat (Od.sourceInstance d) = s.nat (Od.sourceInstance c)) = false ∧
      dmaMisaligned s c = false ∧ dmaOutside s c = true)
    ∧ (∃ (s : Machine.State) (k : Nat) (c : Nat), Admits s k (Od.dmaCommand c) 1 ∧ dmaOpen s c = false ∧ dmaSourceOk s c = true ∧
      ((List.range 32).any fun d => d != c && dmaOpen s d && s.nat (Od.sourceKind d) = s.nat (Od.sourceKind c) && s.nat (Od.sourceInstance d) = s.nat (Od.sourceInstance c)) = false ∧
      dmaMisaligned s c = false ∧ dmaOutside s c = false ∧ dmaInconsistent s c = false ∧
      (s.nat (Od.sourceKind c) ≠ 6 → ringTotal s c (sourcePort (s.nat (Od.sourceKind c)) (s.nat (Od.sourceInstance c))) + s.nat (Od.ringPages c) ≤ 4096) ∧
      s.domUp (domPort (sourcePort (s.nat (Od.sourceKind c)) (s.nat (Od.sourceInstance c)))) = true ∧
      s.domUp (domStack (dmaDestStack s c)) = true ∧ s.domUp (domHalf (dmaDestStack s c)) = true ∧ s.domUp (domHalf (dmaSrcHalf s c)) = true ∧
      (s.nat (Od.sourceKind c) = 6 → s.domUp (domStack (crStack s (s.nat (Od.sourceInstance c)))) = true))
    ∧ (∃ (s : Machine.State) (k : Nat) (c : Nat), Admits s k (Od.dmaCommand c) 2 ∧ s.nat (Od.dmaState c) = 1 ∧ (s.dma c).drain = .none) :=
  ⟨⟨(let s := ready; s.setN (Od.dmaState 0) 1), 0, 0, admits_of (by decide +kernel) (by decide +kernel), by decide +kernel⟩,
    ⟨ready, 0, 0, admits_of (by decide +kernel) (by decide +kernel), by decide +kernel⟩,
    ⟨(let s := ready; let s := s.setN (Od.dmaLength 0) 4096; s.setN (Od.sourceKind 0) 1), 0, 0, admits_of (by decide +kernel) (by decide +kernel),
      by decide +kernel⟩,
    ⟨(let s := ready; let s := s.setN (Od.dmaLength 0) 4096; let s := s.setN (Od.sourceKind 0) 1; s.setN (Od.stockpotRegionRegionPages 6) 100), 0, 0,
      admits_of (by decide +kernel) (by decide +kernel), by decide +kernel⟩,
    ⟨(let s := ready; s.setN (Od.dmaState 0) 1), 0, 0, admits_of (by decide +kernel) (by decide +kernel), by decide +kernel⟩⟩

theorem witness_DmaChannelsMoveTheirPages_5 :
    (∃ (s : Machine.State) (k : Nat) (c : Nat), Admits s k (Od.dmaCommand c) 2 ∧ s.nat (Od.dmaState c) = 1 ∧ (s.dma c).drain ≠ .none) :=
  ⟨(let s := ready; let s := s.setN (Od.dmaState 0) 1; s.setDma 0 { s.dma 0 with drain := .pause }), 0, 0,
      admits_of (by decide +kernel) (by decide +kernel), by decide +kernel⟩

theorem witness_GeneratorsSelectAndObey_1 :
    (∃ (g : Nat), g < 4)
    ∧ (∃ (s : Machine.State) (g : Nat), s.flag (Od.loopOpen g) = false ∧ (s.nat (Od.tgState g) = 1 ∨ s.nat (Od.tgState g) = 2) ∧ s.nat (Od.tgState g) = 1 ∧
      (s.int (Od.outputOffset g)).natAbs ≤ 95000000)
    ∧ (∃ (x : Nat), x < 4)
    ∧ (∃ (s : Machine.State), s.timeCtl.oscinLost = false)
    ∧ (∃ (s : Machine.State), s.timeCtl.oscinLost = true) :=
  ⟨⟨0, by decide +kernel⟩,
    ⟨(let s := ready; let s := s.setB (Od.loopOpen 0) false; s.setN (Od.tgState 0) 1), 0, by decide +kernel⟩,
    ⟨0, by decide +kernel⟩,
    ⟨(let s := ready; { s with timeCtl := { s.timeCtl with oscinLost := false } }), by decide +kernel⟩,
    ⟨(let s := ready; { s with timeCtl := { s.timeCtl with oscinLost := true } }), by decide +kernel⟩⟩

theorem witness_GeneratorsSelectAndObey_2 :
    (∃ (s : Machine.State) (g : Nat), g < 4 ∧ s.nat (Od.tgState g) ≠ 1)
    ∧ (∃ (s : Machine.State) (g : Nat), g < 4 ∧ s.nat (Od.tgState g) = 1 ∧ s.nat (Od.selectedEntry g) < 16)
    ∧ (∃ (s : Machine.State) (g : Nat), g < 4 ∧ s.nat (Od.tgState g) = 3 ∧ s.flag (Od.loopOpen g) = false)
    ∧ (∃ (s : Machine.State) (g : Nat), g < 4 ∧ (s.nat (Od.tgState g) ≠ 3 ∨ s.flag (Od.loopOpen g) = true))
    ∧ (∃ (s : Machine.State) (g : Nat) (b : Nat), g < 4 ∧ s.flag (Od.timingGeneratorRevertive g) = true ∧ (s.tg g).forced = false ∧ s.nat (Od.selectedEntry
      g) < 16 ∧ bestRank s g < (s.tgEntry g (s.nat (Od.selectedEntry g))).rank ∧ bestEntry s g = some b)
    ∧ (∃ (s : Machine.State) (g : Nat), g < 4 ∧ (s.flag (Od.timingGeneratorRevertive g) = false ∨ (s.tg g).forced = true)) :=
  ⟨⟨(let s := ready; s.setN (Od.tgState 0) 0), 0, by decide +kernel⟩,
    ⟨(let s := ready; let s := s.setN (Od.selectedEntry 0) 0; s.setN (Od.tgState 0) 1), 0, by decide +kernel⟩,
    ⟨(let s := ready; let s := s.setN (Od.tgState 0) 3; s.setB (Od.loopOpen 0) false), 0, by decide +kernel⟩,
    ⟨(let s := ready; s.setN (Od.tgState 0) 0), 0, by decide +kernel⟩,
    ⟨(let s := ready; let s := s.setN (Od.selectedEntry 0) 0; let s := s.setN (Od.entryState 1 0) 3;
      let s := s.setTgEntry 0 1 { s.tgEntry 0 1 with rank := 1 }; let s := s.setB (Od.timingGeneratorRevertive 0) true;
      let s := s.setTg 0 { (s.tg 0) with forced := false }; s.setTgEntry 0 0 { s.tgEntry 0 0 with rank := 2 }), 0, 1, by decide +kernel⟩,
    ⟨(let s := ready; s.setB (Od.timingGeneratorRevertive 0) false), 0, by decide +kernel⟩⟩

theorem witness_GeneratorsSelectAndObey_3 :
    (∃ (s : Machine.State) (k : Nat) (g : Nat), Admits s k (Od.tgCommand g) 1 ∧ (s.tg g).forced = true)
    ∧ (∃ (s : Machine.State) (k : Nat) (g : Nat) (b : Nat), Admits s k (Od.tgCommand g) 1 ∧ (s.tg g).forced = false ∧ 16 ≤ s.nat (Od.selectedEntry g) ∧
      bestEntry s g = some b)
    ∧ (∃ (s : Machine.State) (k : Nat) (g : Nat) (b : Nat), Admits s k (Od.tgCommand g) 1 ∧ (s.tg g).forced = false ∧ bestRank s g < (s.tgEntry g (s.nat
      (Od.selectedEntry g))).rank ∧ bestEntry s g = some b)
    ∧ (∃ (s : Machine.State) (k : Nat) (g : Nat), Admits s k (Od.tgCommand g) 1 ∧ s.nat (Od.selectedEntry g) < 16 ∧ qualified s g (s.nat (Od.selectedEntry
      g)) = true ∧ (s.tgEntry g (s.nat (Od.selectedEntry g))).rank = bestRank s g)
    ∧ (∃ (s : Machine.State) (k : Nat) (g : Nat), Admits s k (Od.tgCommand g) 2)
    ∧ (∃ (s : Machine.State) (k : Nat) (g : Nat), Admits s k (Od.tgCommand g) 3 ∧ (s.tg g).forced = true) :=
  ⟨⟨(let s := ready; s.setTg 0 { (s.tg 0) with forced := true }), 0, 0, admits_of (by decide +kernel) (by decide +kernel), by decide +kernel⟩,
    ⟨(let s := ready; let s := s.setN (Od.entryState 1 0) 3; let s := s.setTgEntry 0 1 { s.tgEntry 0 1 with rank := 1 };
      let s := s.setTg 0 { (s.tg 0) with forced := false }; s.setN (Od.selectedEntry 0) 16), 0, 0, 1, admits_of (by decide +kernel) (by decide +kernel), by decide +kernel⟩,
    ⟨(let s := ready; let s := s.setN (Od.entryState 1 0) 3; let s := s.setTgEntry 0 1 { s.tgEntry 0 1 with rank := 1 };
      let s := s.setTg 0 { (s.tg 0) with forced := false }; let s := s.setN (Od.selectedEntry 0) 0; s.setTgEntry 0 0 { s.tgEntry 0 0 with rank := 2 }), 0,
      0, 1, admits_of (by decide +kernel) (by decide +kernel), by decide +kernel⟩,
    ⟨(let s := ready; let s := s.setN (Od.selectedEntry 0) 0; let s := s.setN (Od.entryState 0 0) 3; s.setTgEntry 0 0 { s.tgEntry 0 0 with rank := 1 }),
      0, 0, admits_of (by decide +kernel) (by decide +kernel), by decide +kernel⟩,
    ⟨ready, 0, 0, admits_of (by decide +kernel) (by decide +kernel)⟩,
    ⟨(let s := ready; s.setTg 0 { (s.tg 0) with forced := true }), 0, 0, admits_of (by decide +kernel) (by decide +kernel), by decide +kernel⟩⟩

theorem witness_GeneratorsSelectAndObey_4 :
    (∃ (s : Machine.State) (k : Nat) (g : Nat), Admits s k (Od.tgCommand g) 3 ∧ (s.tg g).forced = false)
    ∧ (∃ (s : Machine.State) (k : Nat) (g : Nat) (code : Nat) (isOpen : Bool), (Allows s k (Od.loopOpen g) code (Val.u (if isOpen = true then 1 else 0))))
    ∧ (∃ (o : Machine.State) (s : Machine.State) (g : Nat), o.flag (Od.loopOpen g) = false ∧ s.flag (Od.loopOpen g) = true)
    ∧ (∃ (o : Machine.State) (s : Machine.State) (g : Nat), o.flag (Od.loopOpen g) = true ∧ s.flag (Od.loopOpen g) = false ∧ s.nat (Od.selectedEntry g) < 16
      ∧ qualified s g (s.nat (Od.selectedEntry g)) = true)
    ∧ (∃ (o : Machine.State) (s : Machine.State) (g : Nat), o.flag (Od.loopOpen g) = s.flag (Od.loopOpen g))
    ∧ (∃ (s : Machine.State) (k : Nat) (g : Nat) (code : Nat) (offset : Int), -2 ^ 31 ≤ offset ∧ offset < 2 ^ 31 ∧ Allows s k (Od.steerOffset g) code (Val.i
      offset)) :=
  ⟨⟨(let s := ready; s.setTg 0 { (s.tg 0) with forced := false }), 0, 0, admits_of (by decide +kernel) (by decide +kernel), by decide +kernel⟩,
    ⟨ready, 0, 0, 0, false, allows_of (by decide +kernel) (by decide +kernel) (by decide +kernel) (by decide +kernel)⟩,
    ⟨ready, (let s := ready; s.setB (Od.loopOpen 0) true), 0, by decide +kernel⟩,
    ⟨ready.setB (Od.loopOpen 0) true, (let s := ready; let s := s.setN (Od.selectedEntry 0) 0; let s := s.setN (Od.entryState 0 0) 3;
      let s := s.setTgEntry 0 0 { s.tgEntry 0 0 with rank := 1 }; s.setB (Od.loopOpen 0) false), 0, by decide +kernel⟩,
    ⟨(let s : Machine.State := ready; s), ready, 0, by decide +kernel⟩,
    ⟨ready, 0, 0, 0, 0, by decide +kernel, by decide +kernel, allows_of (by decide +kernel) (by decide +kernel) (by decide +kernel) (by decide +kernel)⟩⟩

theorem witness_GeneratorsSelectAndObey_5 :
    (∃ (s : Machine.State) (g : Nat), s.flag (Od.loopOpen g) = true)
    ∧ (∃ (s : Machine.State) (k : Nat), Admits s k Od.clearTimingCounters 1) :=
  ⟨⟨(let s := ready; s.setB (Od.loopOpen 0) true), 0, by decide +kernel⟩,
    ⟨ready, 0, admits_of (by decide +kernel) (by decide +kernel)⟩⟩

theorem witness_GeneratorsSelectAndObey_6 :
    (∃ (s : Machine.State) (g : Nat), s.flag (Od.loopOpen g) = false ∧ s.timeCtl.oscinLost = false ∧
      (s.nat (Od.tgState g) = 1 ∨ s.nat (Od.tgState g) = 2) ∧ s.nat (Od.tgState g) = 1 ∧ (s.int (Od.outputOffset g)).natAbs ≤ 95000000)
    ∧ (∃ (s : Machine.State) (g : Nat), (s.flag (Od.loopOpen g) = true ∨ s.timeCtl.oscinLost = true ∨ (s.nat (Od.tgState g) ≠ 1 ∧
      s.nat (Od.tgState g) ≠ 2)))
    ∧ (∃ (s : Machine.State) (g : Nat) (e : Nat), (s.tg g).forced = false ∧ bestEntry s g = some e) :=
  ⟨⟨(let s := ready; s.setN (Od.tgState 0) 1), 0, by decide +kernel⟩,
    ⟨(let s := ready; s.setB (Od.loopOpen 0) true), 0, by decide +kernel⟩,
    ⟨(let s := ready; let s := s.setTgEntry 0 0 { s.tgEntry 0 0 with rank := 1 }; s.setN (Od.entryState 0 0) 3), 0, 0, by decide +kernel⟩⟩

theorem witness_ModuleTimeStepsAndSlews_1 :
    (∃ (s : Machine.State) (k : Nat), Admits s k Od.timeCommand 1 ∧ anyHub s = true)
    ∧ (∃ (s : Machine.State) (k : Nat), Admits s k Od.timeCommand 1 ∧ anyHub s = false ∧ s.nat Od.groupState ≠ 0)
    ∧ (∃ (s : Machine.State) (k : Nat), Admits s k Od.timeCommand 1 ∧ anyHub s = false ∧ s.nat Od.groupState = 0 ∧ s.timeCtl.stepping = true)
    ∧ (∃ (s : Machine.State) (k : Nat), Admits s k Od.timeCommand 1 ∧ anyHub s = false ∧ s.nat Od.groupState = 0 ∧ s.timeCtl.stepping = false)
    ∧ (∃ (s : Machine.State), s.timeCtl.stepping = true)
    ∧ (∃ (s : Machine.State), s.timeCtl.stepping = false) :=
  ⟨⟨(let s := ready; s.setB (Od.hubMode 0) true), 0, admits_of (by decide +kernel) (by decide +kernel), by decide +kernel⟩,
    ⟨(let s := ready; s.setN Od.groupState 1), 0, admits_of (by decide +kernel) (by decide +kernel), by decide +kernel⟩,
    ⟨(let s := ready; let s := s.setN Od.groupState 0; { s with timeCtl := { s.timeCtl with stepping := true } }), 0, admits_of (by decide +kernel) (by
      decide +kernel), by decide +kernel⟩,
    ⟨(let s := ready; let s := s.setN Od.groupState 0; { s with timeCtl := { s.timeCtl with stepping := false } }), 0, admits_of (by decide +kernel) (by
      decide +kernel), by decide +kernel⟩,
    ⟨(let s := ready; { s with timeCtl := { s.timeCtl with stepping := true } }), by decide +kernel⟩,
    ⟨(let s := ready; { s with timeCtl := { s.timeCtl with stepping := false } }), by decide +kernel⟩⟩

theorem witness_ModuleTimeStepsAndSlews_2 :
    (∃ (s : Machine.State) (k : Nat), Admits s k Od.timeCommand 2 ∧ s.timeCtl.stepping = true)
    ∧ (∃ (s : Machine.State) (k : Nat), Admits s k Od.timeCommand 2 ∧ s.timeCtl.stepping = false)
    ∧ (∃ (s : Machine.State) (k : Nat), Admits s k Od.timeCommand 3 ∧ s.timeCtl.stepping = true)
    ∧ (∃ (s : Machine.State) (k : Nat), Admits s k Od.timeCommand 3 ∧ s.timeCtl.stepping = false)
    ∧ (∃ (s : Machine.State), 0 ≤ ↑s.moduleTime * 1000000000 + s.timeCtl.frac + s.timeCtl.slewLeft)
    ∧ (∃ (s : Machine.State) (e : Nat) (time : Nat) (err : Int), s.nat (Od.selectedEntry 0) = e ∧ err = ↑time - ↑((time + 500000000) / 1000000000 *
      1000000000) - s.int Od.ppsOffset ∧ (s.flag Od.ppsAlign = false ∨ s.nat (Od.tgState 0) ≠ 2 ∨ 16 ≤ e ∨ (s.tgEntry 0 e).cand / 4096 ≠ 2)) :=
  ⟨⟨(let s := ready; { s with timeCtl := { s.timeCtl with stepping := true } }), 0, admits_of (by decide +kernel) (by decide +kernel), by decide +kernel⟩,
    ⟨(let s := ready; { s with timeCtl := { s.timeCtl with stepping := false } }), 0, admits_of (by decide +kernel) (by decide +kernel), by
      decide +kernel⟩,
    ⟨(let s := ready; { s with timeCtl := { s.timeCtl with stepping := true } }), 0, admits_of (by decide +kernel) (by decide +kernel), by decide +kernel⟩,
    ⟨(let s := ready; { s with timeCtl := { s.timeCtl with stepping := false } }), 0, admits_of (by decide +kernel) (by decide +kernel), by
      decide +kernel⟩,
    ⟨ready, by decide +kernel⟩,
    ⟨(let s := ready; let s := s.setN (Od.selectedEntry 0) 0; s.setB Od.ppsAlign false), 0, 0, (let s : Machine.State := (let s := ready;
      let s := s.setN (Od.selectedEntry 0) 0; s.setB Od.ppsAlign false); ↑0 - ↑((0 + 500000000) / 1000000000 * 1000000000) - s.int Od.ppsOffset), by decide +kernel⟩⟩

theorem witness_ModuleTimeStepsAndSlews_3 :
    (∃ (s : Machine.State) (e : Nat) (time : Nat) (err : Int), s.nat (Od.selectedEntry 0) = e ∧ err = ↑time - ↑((time + 500000000) / 1000000000 *
      1000000000) - s.int Od.ppsOffset ∧ s.flag Od.ppsAlign = true ∧ s.nat (Od.tgState 0) = 2 ∧ e < 16 ∧ (s.tgEntry 0 e).cand / 4096 = 2 ∧ s.nat
      (Od.refNominal ((s.tgEntry 0 e).cand % 4096)) = 1 ∧ err.natAbs ≤ 100)
    ∧ (∃ (s : Machine.State) (e : Nat) (time : Nat) (err : Int), s.nat (Od.selectedEntry 0) = e ∧ err = ↑time - ↑((time + 500000000) / 1000000000 *
      1000000000) - s.int Od.ppsOffset ∧ s.flag Od.ppsAlign = true ∧ s.nat (Od.tgState 0) = 2 ∧ e < 16 ∧ (s.tgEntry 0 e).cand / 4096 = 2 ∧ s.nat
      (Od.refNominal ((s.tgEntry 0 e).cand % 4096)) = 1 ∧ 100 < err.natAbs ∧ s.timeCtl.slewLeft = 0)
    ∧ (∃ (s : Machine.State) (e : Nat) (time : Nat) (err : Int), s.nat (Od.selectedEntry 0) = e ∧ err = ↑time - ↑((time + 500000000) / 1000000000 *
      1000000000) - s.int Od.ppsOffset ∧ s.flag Od.ppsAlign = true ∧ s.nat (Od.tgState 0) = 2 ∧ e < 16 ∧ (s.tgEntry 0 e).cand / 4096 = 2 ∧ s.nat
      (Od.refNominal ((s.tgEntry 0 e).cand % 4096)) = 1 ∧ 100 < err.natAbs ∧ s.timeCtl.slewLeft ≠ (0 : Int))
    ∧ (∃ (s : Machine.State) (k : Nat) (f : Nat) (code : Nat) (enable : Bool), (Allows s k (Od.fpoEnable f) code (Val.u (if enable = true then 1 else 0))))
    ∧ (∃ (o : Machine.State) (s : Machine.State) (f : Nat), s.flag (Od.fpoEnable f) = true ∧ o.flag (Od.fpoEnable f) = false)
    ∧ (∃ (s : Machine.State) (f : Nat), s.flag (Od.fpoEnable f) = false) :=
  ⟨⟨(let s := ready; let s := s.setN (Od.selectedEntry 0) 0; let s := s.setB Od.ppsAlign true; let s := s.setN (Od.tgState 0) 2;
      let s := s.setN (Od.refNominal ((s.tgEntry 0 0).cand % 4096)) 1; s.setTgEntry 0 0 { s.tgEntry 0 0 with cand := 8192 }), 0, 0, (let s : Machine.State
      := (let s := ready; let s := s.setN (Od.selectedEntry 0) 0; let s := s.setB Od.ppsAlign true; let s := s.setN (Od.tgState 0) 2;
      let s := s.setN (Od.refNominal ((s.tgEntry 0 0).cand % 4096)) 1; s.setTgEntry 0 0 { s.tgEntry 0 0 with cand := 8192 });
      ↑0 - ↑((0 + 500000000) / 1000000000 * 1000000000) - s.int Od.ppsOffset), by decide +kernel⟩,
    ⟨(let s := ready; let s := s.setN (Od.selectedEntry 0) 0; let s := s.setB Od.ppsAlign true; let s := s.setN (Od.tgState 0) 2;
      let s := s.setTgEntry 0 0 { s.tgEntry 0 0 with cand := 8192 }; s.setN (Od.refNominal 0) 1), 0, 500, (let s : Machine.State := (let s := ready;
      let s := s.setN (Od.selectedEntry 0) 0; let s := s.setB Od.ppsAlign true; let s := s.setN (Od.tgState 0) 2;
      let s := s.setTgEntry 0 0 { s.tgEntry 0 0 with cand := 8192 }; s.setN (Od.refNominal 0) 1);
      ↑500 - ↑((500 + 500000000) / 1000000000 * 1000000000) - s.int Od.ppsOffset), by decide +kernel⟩,
    ⟨(let s := ready; let s := s.setN (Od.selectedEntry 0) 0; let s := s.setB Od.ppsAlign true; let s := s.setN (Od.tgState 0) 2;
      let s := s.setTgEntry 0 0 { s.tgEntry 0 0 with cand := 8192 }; let s := s.setN (Od.refNominal 0) 1;
      { s with timeCtl := { s.timeCtl with slewLeft := 5 } }), 0, 500, (let s : Machine.State := (let s := ready; let s := s.setN (Od.selectedEntry 0) 0;
      let s := s.setB Od.ppsAlign true; let s := s.setN (Od.tgState 0) 2; let s := s.setTgEntry 0 0 { s.tgEntry 0 0 with cand := 8192 };
      let s := s.setN (Od.refNominal 0) 1; { s with timeCtl := { s.timeCtl with slewLeft := 5 } });
      (500 : Int) - ((500 + 500000000) / 1000000000 * 1000000000 : Nat) - s.int Od.ppsOffset), by decide +kernel⟩,
    ⟨ready, 0, 0, 0, false, allows_of (by decide +kernel) (by decide +kernel) (by decide +kernel) (by decide +kernel)⟩,
    ⟨ready, (let s := ready; s.setB (Od.fpoEnable 0) true), 0, by decide +kernel⟩,
    ⟨(let s := ready; s.setB (Od.fpoEnable 0) false), 0, by decide +kernel⟩⟩

theorem witness_ModuleTimeStepsAndSlews_4 :
    (∃ (s : Machine.State) (k : Nat) (f : Nat), Admits s k (Od.fpoCommand f) 1 ∧ s.nat (Od.fpoCommand f) ≠ 0)
    ∧ (∃ (s : Machine.State) (k : Nat) (f : Nat), Admits s k (Od.fpoCommand f) 1 ∧ s.nat (Od.fpoCommand f) = 0 ∧ s.flag (Od.fpoEnable f) = false)
    ∧ (∃ (s : Machine.State) (k : Nat) (f : Nat), Admits s k (Od.fpoCommand f) 1 ∧ s.nat (Od.fpoCommand f) = 0 ∧ s.flag (Od.fpoEnable f) = true) :=
  ⟨⟨(let s := ready; s.setN (Od.fpoCommand 0) 1), 0, 0, admits_of (by decide +kernel) (by decide +kernel), by decide +kernel⟩,
    ⟨(let s := ready; let s := s.setN (Od.fpoCommand 0) 0; s.setB (Od.fpoEnable 0) false), 0, 0, admits_of (by decide +kernel) (by decide +kernel), by decide +kernel⟩,
    ⟨(let s := ready; let s := s.setN (Od.fpoCommand 0) 0; s.setB (Od.fpoEnable 0) true), 0, 0, admits_of (by decide +kernel) (by decide +kernel), by decide +kernel⟩⟩

theorem witness_ModuleTimeStepsAndSlews_5 :
    (∃ (s : Machine.State) (k : Nat), Admits s k Od.timeCommand 1 ∧ anyHub s = false ∧ s.nat Od.groupState = 0 ∧ s.nat Od.timeCommand ≠ 0)
    ∧ (∃ (s : Machine.State) (k : Nat), Admits s k Od.timeCommand 1 ∧ anyHub s = false ∧ s.nat Od.groupState = 0 ∧ s.nat Od.timeCommand = 0)
    ∧ (∃ (s : Machine.State), s.timeCtl.slewLeft ≠ 0 ∧ 0 ≤ (s.moduleTime : Int) * 1000000000 + s.timeCtl.frac + s.timeCtl.slewLeft)
    ∧ (∃ (s : Machine.State) (e : Nat) (time : Nat) (err : Int), s.nat (Od.selectedEntry 0) = e ∧
      err = (time : Int) - ((time + 500000000) / 1000000000 * 1000000000 : Nat) - s.int Od.ppsOffset ∧ s.flag Od.ppsAlign = true ∧
      s.nat (Od.tgState 0) = 2 ∧ e < 16 ∧ (s.tgEntry 0 e).cand / 4096 = 2 ∧ s.nat (Od.refNominal ((s.tgEntry 0 e).cand % 4096)) = 1 ∧
      100 < err.natAbs ∧ s.timeCtl.slewLeft ≠ 0 ∧ s.nat Od.timeCommand ≠ 2)
    ∧ (∃ (s : Machine.State) (e : Nat) (time : Nat) (err : Int), s.nat (Od.selectedEntry 0) = e ∧
      err = (time : Int) - ((time + 500000000) / 1000000000 * 1000000000 : Nat) - s.int Od.ppsOffset ∧ s.flag Od.ppsAlign = true ∧
      s.nat (Od.tgState 0) = 2 ∧ e < 16 ∧ (s.tgEntry 0 e).cand / 4096 = 2 ∧ s.nat (Od.refNominal ((s.tgEntry 0 e).cand % 4096)) = 1 ∧
      100 < err.natAbs ∧ s.timeCtl.slewLeft ≠ 0 ∧ s.nat Od.timeCommand = 2) :=
  ⟨⟨(let s := ready; s.setN Od.timeCommand 1), 0, admits_of (by decide +kernel) (by decide +kernel), by decide +kernel⟩,
    ⟨ready, 0, admits_of (by decide +kernel) (by decide +kernel), by decide +kernel⟩,
    ⟨(let s := ready; { s with timeCtl := { s.timeCtl with slewLeft := 5 } }), by decide +kernel⟩,
    ⟨(let s := ready; let s := s.setN (Od.selectedEntry 0) 0; let s := s.setB Od.ppsAlign true; let s := s.setN (Od.tgState 0) 2;
      let s := s.setTgEntry 0 0 { s.tgEntry 0 0 with cand := 8192 }; let s := s.setN (Od.refNominal 0) 1;
      let s := { s with timeCtl := { s.timeCtl with slewLeft := 5 } }; s.setN Od.timeCommand 0), 0, 500, 500, by decide +kernel⟩,
    ⟨(let s := ready; let s := s.setN (Od.selectedEntry 0) 0; let s := s.setB Od.ppsAlign true; let s := s.setN (Od.tgState 0) 2;
      let s := s.setTgEntry 0 0 { s.tgEntry 0 0 with cand := 8192 }; let s := s.setN (Od.refNominal 0) 1;
      let s := { s with timeCtl := { s.timeCtl with slewLeft := 5 } }; s.setN Od.timeCommand 2), 0, 500, 500, by decide +kernel⟩⟩

theorem witness_CountersLatchAtTheBoundary_1 :
    (∃ (s : Machine.State), (s.pins.aux3v3 = false ∨ s.boot.resetting = ResetKind.full))
    ∧ (∃ (s : Machine.State), s.pins.aux3v3 = true ∧ s.boot.resetting ≠ ResetKind.full)
    ∧ (∃ (s : Machine.State) (k : Nat), Admits s k Od.counterCommand 1 ∧ s.nat Od.counterCommand ≠ 0)
    ∧ (∃ (s : Machine.State) (k : Nat), Admits s k Od.counterCommand 1 ∧ s.nat Od.counterCommand = 0) :=
  ⟨⟨(let s := ready; { s with pins := { s.pins with aux3v3 := false } }), by decide +kernel⟩,
    ⟨(let s := ready; { s with pins := { s.pins with aux3v3 := true } }), by decide +kernel⟩,
    ⟨(let s := ready; s.setN Od.counterCommand 1), 0, admits_of (by decide +kernel) (by decide +kernel), by decide +kernel⟩,
    ⟨(let s := ready; s.setN Od.counterCommand 0), 0, admits_of (by decide +kernel) (by decide +kernel), by decide +kernel⟩⟩

theorem witness_CountersLatchAtTheBoundary_2 :
    (∃ (s : Machine.State), s.nat Od.counterCommand = 1)
    ∧ (∃ (s : Machine.State), s.nat Od.counterCommand ≠ 1)
    ∧ (∃ (s : Machine.State) (a : Nat) (c : Nat), s.perf.snapAt = some a ∧ s.nat (Od.counterCurrent c) ≠ 0)
    ∧ (∃ (s : Machine.State) (k : Nat), s.nat Od.counterCommand = 0 ∧ Admits s k Od.counterCommand 2)
    ∧ (∃ (s : Machine.State) (k : Nat), s.nat Od.counterCommand = 0 ∧ Admits s k Od.counterCommand 3)
    ∧ (∃ (s : Machine.State) (k : Nat), s.nat Od.counterCommand = 0 ∧ Admits s k Od.counterCommand 4) :=
  ⟨⟨(let s := ready; s.setN Od.counterCommand 1), by decide +kernel⟩,
    ⟨(let s := ready; s.setN Od.counterCommand 0), by decide +kernel⟩,
    ⟨(let s := ready; let s := { s with perf := { s.perf with snapAt := some 0 } }; s.setN (Od.counterCurrent 0) 1), 0, 0, by decide +kernel⟩,
    ⟨(let s := ready; s.setN Od.counterCommand 0), 0, by decide +kernel, admits_of (by decide +kernel) (by decide +kernel)⟩,
    ⟨(let s := ready; s.setN Od.counterCommand 0), 0, by decide +kernel, admits_of (by decide +kernel) (by decide +kernel)⟩,
    ⟨(let s := ready; s.setN Od.counterCommand 0), 0, by decide +kernel, admits_of (by decide +kernel) (by decide +kernel)⟩⟩

theorem witness_CountersLatchAtTheBoundary_3 :
    (∃ (s : Machine.State) (k : Nat) (c : Nat) (sel : Nat) (code : Nat), sel < 2 ^ 32 ∧ Allows s k (Od.eventSelect c) code (Val.u sel))
    ∧ (∃ (s : Machine.State) (k : Nat) (c : Nat) (threshold : Nat) (code : Nat), threshold < 2 ^ 32 ∧ Allows s k (Od.counterThreshold c) code (Val.u
      threshold))
    ∧ (∃ (s : Machine.State) (u : Machine.State) (k : Nat) (c : Nat) (sel : Nat) (threshold : Nat), s.answers k = true ∧ writeGate s k 29184 c 1 sel =
      Status.ok ∧ writeGate s k 29184 c 2 threshold = Status.ok ∧ eventSelectOk sel = true ∧ sel < 2 ^ 32 ∧ threshold < 2 ^ 32 ∧ u = (s.setVal
      (Od.eventSelect c) (Val.u sel)).setVal (Od.counterThreshold c) (Val.u threshold))
    ∧ (∃ (s : Machine.State) (k : Nat), Admits s k Od.clearCrossingMarks 1)
    ∧ (∃ (s : Machine.State) (k : Nat), Admits s k Od.clearCrossingMarks 2)
    ∧ (∃ (s : Machine.State) (k : Nat), Admits s k Od.clearCrossingMarks 3) :=
  ⟨⟨ready, 0, 0, 0, 0, by decide +kernel, allows_of (by decide +kernel) (by decide +kernel) (by decide +kernel) (by decide +kernel)⟩,
    ⟨ready, 0, 0, 0, 0, by decide +kernel, allows_of (by decide +kernel) (by decide +kernel) (by decide +kernel) (by decide +kernel)⟩,
    ⟨ready, (let s : Machine.State := ready; (s.setVal (Od.eventSelect 0) (Val.u 0)).setVal (Od.counterThreshold 0) (Val.u 0)), 0, 0, 0, 0, by decide +kernel⟩,
    ⟨ready, 0, admits_of (by decide +kernel) (by decide +kernel)⟩,
    ⟨ready, 0, admits_of (by decide +kernel) (by decide +kernel)⟩,
    ⟨ready, 0, admits_of (by decide +kernel) (by decide +kernel)⟩⟩

theorem witness_CountersLatchAtTheBoundary_4 :
    (∃ (s : Machine.State), Tidy s ∧ s.countingHeld = false)
    ∧ (∃ (s : Machine.State), s.countingHeld = true) :=
  ⟨⟨ready, tidy_ready, by decide +kernel⟩,
    ⟨(let s := ready; s.setB Od.countersFrozen true), by decide +kernel⟩⟩

theorem witness_ConvertersAndProbeRecord_1 :
    (∃ (s : Machine.State) (k : Nat) (m : Nat), Admits s k (Od.urgentCommand m) 1 ∧ s.nat (Od.urgentCommand m) ≠ 0)
    ∧ (∃ (s : Machine.State) (k : Nat) (m : Nat), Admits s k (Od.urgentCommand m) 1 ∧ s.nat (Od.urgentCommand m) = 0 ∧ s.flag (Od.suspended m) = true)
    ∧ (∃ (s : Machine.State) (k : Nat) (m : Nat), Admits s k (Od.urgentCommand m) 1 ∧ s.nat (Od.urgentCommand m) = 0 ∧ s.flag (Od.suspended m) = false ∧ (m
      < 8 → s.domUp (domPort m) = true))
    ∧ (∃ (s : Machine.State) (m : Nat), m < 9 ∧ (s.monitor m).urgent = none) :=
  ⟨⟨(let s := ready; s.setN (Od.urgentCommand 0) 1), 0, 0, admits_of (by decide +kernel) (by decide +kernel), by decide +kernel⟩,
    ⟨(let s := ready; let s := s.setN (Od.urgentCommand 0) 0; s.setB (Od.suspended 0) true), 0, 0, admits_of (by decide +kernel) (by decide +kernel), by decide +kernel⟩,
    ⟨(let s := ready; let s := s.setN (Od.urgentCommand 0) 0; s.setB (Od.suspended 0) false), 0, 0, admits_of (by decide +kernel) (by decide +kernel), by decide +kernel⟩,
    ⟨(let s := ready; s.setMonitor 0 { (s.monitor 0) with urgent := none }), 0, by decide +kernel⟩⟩

theorem witness_ConvertersAndProbeRecord_2 :
    (∃ (s : Machine.State) (m : Nat) (ch : Nat) (w : Nat) (gain : Nat), m < 9 ∧ (s.monitor m).urgent = some (ch, w, gain))
    ∧ (∃ (s : Machine.State) (k : Nat), Admits s k Od.clearMonitorPeaks 1)
    ∧ (∃ (w : Nat), w < 64)
    ∧ (∃ (p : Nat), p < 8)
    ∧ (∃ (s : Machine.State) (p : Nat), p < 8 ∧ (s.probe p).event = none)
    ∧ (∃ (s : Machine.State) (p : Nat), p < 8 ∧ (s.probe p).event ≠ none) :=
  ⟨⟨(let s := ready; s.setMonitor 0 { (s.monitor 0) with urgent := some (0, 0, 0) }), 0, 0, 0, 0, by decide +kernel⟩,
    ⟨ready, 0, admits_of (by decide +kernel) (by decide +kernel)⟩,
    ⟨0, by decide +kernel⟩,
    ⟨0, by decide +kernel⟩,
    ⟨(let s := ready; s.setProbe 0 { (s.probe 0) with event := none }), 0, by decide +kernel⟩,
    ⟨(let s := ready; s.setProbe 0 { s.probe 0 with event := some ⟨0, 0, 0, 0, 0, 0, 0, [], [], [], false, false⟩ }), 0, by decide +kernel⟩⟩

theorem witness_ConvertersAndProbeRecord_3 :
    (∃ (s : Machine.State) (k : Nat), Admits s k Od.clearProbe 1) :=
  ⟨ready, 0, admits_of (by decide +kernel) (by decide +kernel)⟩

theorem witness_ConvertersAndProbeRecord_4 :
    (∃ (s : Machine.State) (m : Nat) (ch : Nat) (w : Nat) (gain : Nat), m < 9 ∧ (s.flag (Od.suspended m) = false ∧
      (s.monitor m).urgent = none) ∨ (s.monitor m).finishing = true ∧ (s.monitor m).pass[(s.monitor m).pos]? = some (ch, w, gain))
    ∧ (∃ (s : Machine.State) (m : Nat), m < 9 ∧ ((s.flag (Od.suspended m) = true ∨ (s.monitor m).urgent ≠ none) ∧
      (s.monitor m).finishing = false) ∨ (s.monitor m).pass = [])
    ∧ (∃ (s : Machine.State) (p : Nat), p < 8 ∧ probeInjected s p = true)
    ∧ (∃ (s : Machine.State) (p : Nat), p < 8 ∧ (s.probe p).event ≠ none ∧ probeInjected s p = false) :=
  ⟨⟨(let s := ready; s.setMonitor 0 { s.monitor 0 with pass := [(3, 0, 0)] }), 0, 3, 0, 0, by decide +kernel⟩,
    ⟨ready, 0, by decide +kernel⟩,
    ⟨(let s := ready;
      s.setProbe 0 { s.probe 0 with event := some { start := 0, number := 0, hold := 0, threshold := 0, mask := 0, peakRate := 0, peakExc := 0, disp := [], injected := true } }),
      0, by decide +kernel⟩,
    ⟨(let s := ready;
      s.setProbe 0 { s.probe 0 with event := some { start := 0, number := 0, hold := 0, threshold := 0, mask := 0, peakRate := 0, peakExc := 0, disp := [], injected := false } }),
      0, by decide +kernel⟩⟩

theorem witness_ThermalPolicyAndDomainsMovePower_1 :
    (∃ (s : Machine.State), s.pins.aux3v3 = true ∧ s.boot.resetting ≠ ResetKind.full ∧ s.boot.railsOn = false ∧ s.boot.st =
      ModState.standby)
    ∧ (∃ (s : Machine.State), safeCausesNow s ≠ 0 ∧ s.boot.railsOn = true ∧ s.thermal.shedding = false)
    ∧ (∃ (s : Machine.State), safeCausesNow s ≠ 0 ∧ s.boot.railsOn = true ∧ s.thermal.shedding = true ∧ 64 < s.thermal.shedPos ∧ s.boot.st ≠
      ModState.calibrate)
    ∧ (∃ (s : Machine.State) (n : Nat), safeCausesNow s ≠ 0 ∧ s.boot.railsOn = true ∧ s.thermal.shedding = true ∧ 1 ≤ s.thermal.shedPos ∧ s.thermal.shedPos
      ≤ 64 ∧ s.nat (Od.shedEntry (s.thermal.shedPos - 1)) = n ∧ n < 64 ∧ s.nat (Od.powerState n) = 2 ∧ (s.domain n).waiting = false ∧ s.boot.st ≠
      ModState.calibrate)
    ∧ (∃ (s : Machine.State), s.boot.st = ModState.safe ∧ safeCausesNow s = 0)
    ∧ (∃ (s : Machine.State) (k : Nat), Admits s k Od.clearThermalPeaks 1) :=
  ⟨⟨(let s := ready; let s := { s with pins := { s.pins with aux3v3 := true } }; { s with boot := { s.boot with railsOn := false, st := ModState.standby } }),
      by decide +kernel⟩,
    ⟨(let s := ready; let s := s.setSource 5 { s.source 5 with st := 1, real := true }; let s := { s with boot := { s.boot with railsOn := true } };
      { s with thermal := { s.thermal with shedding := false } }), by decide +kernel⟩,
    ⟨(let s := ready; let s := s.setSource 5 { s.source 5 with st := 1, real := true }; let s := { s with boot := { s.boot with railsOn := true } };
      let s := { s with thermal := { s.thermal with shedding := true } }; let s := { s with thermal := { s.thermal with shedPos := 65 } };
      { s with boot := { s.boot with st := ModState.ready } }), by decide +kernel⟩,
    ⟨(let s := ready; let s := s.setSource 5 { s.source 5 with st := 1, real := true }; let s := { s with boot := { s.boot with railsOn := true } };
      let s := { s with thermal := { s.thermal with shedding := true } }; let s := { s with thermal := { s.thermal with shedPos := 1 } };
      let s := s.setN (Od.shedEntry (s.thermal.shedPos - 1)) 0; let s := s.setN (Od.powerState 0) 2;
      let s := s.setDomain 0 { (s.domain 0) with waiting := false }; { s with boot := { s.boot with st := ModState.ready } }), 0, by decide +kernel⟩,
    ⟨(let s := ready; { s with boot := { s.boot with st := ModState.safe } }), by decide +kernel⟩,
    ⟨ready, 0, admits_of (by decide +kernel) (by decide +kernel)⟩⟩

theorem witness_ThermalPolicyAndDomainsMovePower_2 :
    (∃ (s : Machine.State) (k : Nat) (d : Nat), Admits s k (Od.powerCommand d) 1 ∧ s.running = true ∧ s.nat (Od.powerState d) = 2 ∧ (s.domain d).waiting =
      false ∧ downRefused s d = false ∧ d < 64 ∧ (s.engine d).resetting = true)
    ∧ (∃ (s : Machine.State) (k : Nat) (d : Nat), Admits s k (Od.powerCommand d) 1 ∧ s.running = true ∧ s.nat (Od.powerState d) = 2 ∧ (s.domain d).waiting =
      false ∧ downRefused s d = false ∧ ¬(d < 64 ∧ (s.engine d).resetting = true))
    ∧ (∃ (s : Machine.State) (k : Nat) (d : Nat), Admits s k (Od.powerCommand d) 1 ∧ s.running = true ∧ s.nat (Od.powerState d) = 2 ∧ (s.domain d).waiting =
      false ∧ downRefused s d = true)
    ∧ (∃ (s : Machine.State) (k : Nat) (d : Nat), Admits s k (Od.powerCommand d) 1 ∧ s.running = true ∧ s.nat (Od.powerState d) = 0)
    ∧ (∃ (s : Machine.State) (k : Nat) (d : Nat), Admits s k (Od.powerCommand d) 1 ∧ s.running = false)
    ∧ (∃ (s : Machine.State) (k : Nat) (d : Nat), Admits s k (Od.powerCommand d) 2 ∧ s.running = true ∧ s.boot.st ≠ ModState.safe ∧ s.nat (Od.powerState d)
      = 0 ∧ (∀ (r : Nat), requiredDomain d = some r → s.domUp r = true)) :=
  ⟨⟨(let s := ready; let s := s.setN (Od.powerState 0) 2; let s := s.setDomain 0 { (s.domain 0) with waiting := false };
      s.setEngine 0 { s.engine 0 with resetting := true }), 0, 0, admits_of (by decide +kernel) (by decide +kernel), by decide +kernel⟩,
    ⟨(let s := ready; let s := s.setN (Od.powerState 0) 2; s.setDomain 0 { (s.domain 0) with waiting := false }), 0, 0, admits_of (by decide +kernel) (by
      decide +kernel), by decide +kernel⟩,
    ⟨(let s := ready; let s := s.setN (Od.powerState 64) 2; s.setDomain 64 { (s.domain 64) with waiting := false }), 0, 64, admits_of (by decide +kernel)
      (by decide +kernel), by decide +kernel⟩,
    ⟨(let s := ready; s.setN (Od.powerState 0) 0), 0, 0, admits_of (by decide +kernel) (by decide +kernel), by decide +kernel⟩,
    ⟨(let s := ready; { s with boot := { s.boot with st := .calibrate } }), 0, 0, admits_of (by decide +kernel) (by decide +kernel), by decide +kernel⟩,
    ⟨(let s := ready; let s := { s with boot := { s.boot with st := ModState.ready } }; s.setN (Od.powerState 0) 0), 0, 0, admits_of (by decide +kernel)
      (by decide +kernel), by decide +kernel⟩⟩

theorem witness_ThermalPolicyAndDomainsMovePower_3 :
    (∃ (s : Machine.State) (k : Nat) (d : Nat) (r : Nat), Admits s k (Od.powerCommand d) 2 ∧ s.nat (Od.powerState d) = 0 ∧ requiredDomain d = some r ∧
      s.domUp r = false)
    ∧ (∃ (s : Machine.State) (k : Nat) (d : Nat), Admits s k (Od.powerCommand d) 2 ∧ s.boot.st = ModState.safe)
    ∧ (∃ (s : Machine.State) (d : Nat), d < 112 ∧ s.nat (Od.powerState d) = 3)
    ∧ (∃ (s : Machine.State) (d : Nat), d < 112 ∧ s.nat (Od.powerState d) = 1 ∧ s.running = true) :=
  ⟨⟨(let s := ready; let s := s.setN (Od.powerState 0) 0; s.setN (Od.powerState 64) 0), 0, 0, 64, admits_of (by decide +kernel) (by decide +kernel), by decide +kernel⟩,
    ⟨(let s := ready; { s with boot := { s.boot with st := ModState.safe } }), 0, 0, admits_of (by decide +kernel) (by decide +kernel), by decide +kernel⟩,
    ⟨(let s := ready; s.setN (Od.powerState 0) 3), 0, by decide +kernel⟩,
    ⟨(let s := ready; s.setN (Od.powerState 0) 1), 0, by decide +kernel⟩⟩

theorem witness_SourcesOccurAndHold :
    (∃ (s : Machine.State) (key : Nat), srcExists key = true ∧ s.pins.aux3v3 = true ∧ srcDown s key = false ∧ key ≠ 18)
    ∧ (∃ (key : Nat), srcExists key = false)
    ∧ (∃ (s : Machine.State) (key : Nat), key ≠ 0 ∧ (s.source key).st = 0 ∧ (s.source key).present = false ∧ (srcCritical key = true ∨ s.entriesOf false <
      4032))
    ∧ (∃ (s : Machine.State) (key : Nat), ((s.source key).st = 1 ∨ (s.source key).st = 2) ∧ srcMomentary key = true)
    ∧ (∃ (s : Machine.State) (key : Nat), (s.source key).st ≠ 3)
    ∧ (∃ (bit : Nat), bit < 8) :=
  ⟨⟨(let s := ready; { s with pins := { s.pins with aux3v3 := true } }), 0, by decide +kernel⟩,
    ⟨0xFFFD, by decide +kernel⟩,
    ⟨(let s := ready; s.setSource 1 { (s.source 1) with st := 0 }), 1, by decide +kernel⟩,
    ⟨(let s := ready; s.setSource 1 { (s.source 1) with st := 1 }), 1, by decide +kernel⟩,
    ⟨(let s := ready; s.setSource 0 { (s.source 0) with st := 0 }), 0, by decide +kernel⟩,
    ⟨0, by decide +kernel⟩⟩

theorem witness_SourcesOccurAndHold_2 :
    (∃ (key : Nat), (0x1000 ≤ key ∧ key < 0x2000) ∨ 0xA000 ≤ key) :=
  ⟨0x1000, by decide +kernel⟩

theorem witness_SourcesAreAckedAndInjected_1 :
    (∃ (s : Machine.State) (k : Nat), Admits s k Od.eventCommand 1 ∧ srcAssigned (s.nat Od.ackSource) = true ∧ s.nat Od.ackSource ≠ 65534)
    ∧ (∃ (s : Machine.State) (k : Nat), Admits s k Od.eventCommand 1 ∧ srcAssigned (s.nat Od.ackSource) = false ∧ s.nat Od.ackSource ≠ 65534)
    ∧ (∃ (s : Machine.State) (k : Nat), Admits s k Od.eventCommand 1 ∧ s.nat Od.ackSource = 65534)
    ∧ (∃ (s : Machine.State) (k : Nat), Admits s k Od.eventCommand 2)
    ∧ (∃ (s : Machine.State) (k : Nat), Admits s k Od.eventCommand 3)
    ∧ (∃ (s : Machine.State) (key : Nat), (s.source key).openAlarm = true ∧ (s.source key).present = true ∧ srcMomentary key = false) :=
  ⟨⟨(let s := ready; s.setN Od.ackSource 0), 0, admits_of (by decide +kernel) (by decide +kernel), by decide +kernel⟩,
    ⟨(let s := ready; s.setN Od.ackSource 0xFFFF), 0, admits_of (by decide +kernel) (by decide +kernel), by decide +kernel⟩,
    ⟨(let s := ready; s.setN Od.ackSource 65534), 0, admits_of (by decide +kernel) (by decide +kernel), by decide +kernel⟩,
    ⟨ready, 0, admits_of (by decide +kernel) (by decide +kernel)⟩,
    ⟨ready, 0, admits_of (by decide +kernel) (by decide +kernel)⟩,
    ⟨(let s := ready; s.setSource 5 { s.source 5 with st := 1, real := true }), 5, by decide +kernel⟩⟩

theorem witness_SourcesAreAckedAndInjected_2 :
    (∃ (s : Machine.State) (key : Nat), key ≠ 0 ∧ (s.source key).openAlarm = true ∧ ((s.source key).present = false ∨ srcMomentary key = true))
    ∧ (∃ (s : Machine.State) (key : Nat), (s.source key).openAlarm = false)
    ∧ (∃ (s : Machine.State) (k : Nat) (j : Nat) (left : Nat), Admits s k (Od.injectCommand j) 1 ∧ j < 8 ∧ s.nat (Od.injectState j) ≠ 1 ∧ (left = if s.nat
      (Od.injectorInjectMode j) = 3 then s.nat (Od.injectorInjectCount j) else 1) ∧ srcExists (injectKey s j) = true ∧ s.nat (Od.injectScope j) = 0 ∧ (∀ (i
      : Nat), i < 8 → s.nat (Od.injectState i) = 1 → (s.injector i).src ≠ injectKey s j))
    ∧ (∃ (s : Machine.State) (k : Nat) (j : Nat), Admits s k (Od.injectCommand j) 1 ∧ s.nat (Od.injectState j) = 1)
    ∧ (∃ (s : Machine.State) (k : Nat) (j : Nat), Admits s k (Od.injectCommand j) 1 ∧ s.nat (Od.injectState j) ≠ 1 ∧ srcExists (injectKey s j) = false)
    ∧ (∃ (s : Machine.State) (k : Nat) (j : Nat), Admits s k (Od.injectCommand j) 2 ∧ s.nat (Od.injectState j) = 1) :=
  ⟨⟨(let s := ready; s.setSource 5 { s.source 5 with st := 1 }), 5, by decide +kernel⟩,
    ⟨ready, 0, by decide +kernel⟩,
    ⟨(let s := ready; let s := s.setN (Od.injectState 0) 0; s.setN (Od.injectScope 0) 0), 0, 0, (let s : Machine.State := (let s := ready;
      let s := s.setN (Od.injectState 0) 0; s.setN (Od.injectScope 0) 0);
      if s.nat (Od.injectorInjectMode 0) = 3 then s.nat (Od.injectorInjectCount 0) else 1), admits_of (by decide +kernel) (by decide +kernel), by decide +kernel⟩,
    ⟨(let s := ready; s.setN (Od.injectState 0) 1), 0, 0, admits_of (by decide +kernel) (by decide +kernel), by decide +kernel⟩,
    ⟨(let s := ready; s.setN (Od.injectSource 0) 0xFFFD), 0, 0, admits_of (by decide +kernel) (by decide +kernel), by decide +kernel⟩,
    ⟨(let s := ready; s.setN (Od.injectState 0) 1), 0, 0, admits_of (by decide +kernel) (by decide +kernel), by decide +kernel⟩⟩

theorem witness_SourcesAreAckedAndInjected_3 :
    (∃ (s : Machine.State) (k : Nat) (j : Nat), Admits s k (Od.injectCommand j) 2 ∧ s.nat (Od.injectState j) ≠ 1)
    ∧ (∃ (s : Machine.State) (j : Nat), j < 8 ∧ s.nat (Od.injectState j) = 1 ∧ (s.injector j).holding = true ∧ s.nat (Od.injectorInjectMode j) ≠ 2 ∧ s.nat
      (Od.injectScope j) = 0 ∧ (s.injector j).remaining = 0)
    ∧ (∃ (s : Machine.State) (j : Nat), j < 8 ∧ s.nat (Od.injectState j) = 1 ∧ (s.injector j).holding = true ∧ s.nat (Od.injectorInjectMode j) ≠ 2 ∧ s.nat
      (Od.injectScope j) = 0 ∧ (s.injector j).remaining ≠ 0)
    ∧ (∃ (s : Machine.State) (j : Nat), j < 8 ∧ s.nat (Od.injectState j) = 1 ∧ (s.injector j).holding = false ∧ (s.injector j).remaining ≠ 0) :=
  ⟨⟨(let s := ready; s.setN (Od.injectState 0) 0), 0, 0, admits_of (by decide +kernel) (by decide +kernel), by decide +kernel⟩,
    ⟨(let s := ready; let s := s.setN (Od.injectState 0) 1; let s := s.setInjector 0 { (s.injector 0) with holding := true };
      let s := s.setN (Od.injectorInjectMode 0) 0; let s := s.setN (Od.injectScope 0) 0; s.setInjector 0 { (s.injector 0) with remaining := 0 }), 0, by decide +kernel⟩,
    ⟨(let s := ready; let s := s.setN (Od.injectState 0) 1; let s := s.setInjector 0 { (s.injector 0) with holding := true };
      let s := s.setN (Od.injectorInjectMode 0) 0; let s := s.setN (Od.injectScope 0) 0; s.setInjector 0 { (s.injector 0) with remaining := 1 }), 0, by decide +kernel⟩,
    ⟨(let s := ready; let s := s.setN (Od.injectState 0) 1; let s := s.setInjector 0 { (s.injector 0) with holding := false };
      s.setInjector 0 { (s.injector 0) with remaining := 1 }), 0, by decide +kernel⟩⟩
end Sys2Proof.Tests.Slice0
end

section
/-! SUPPORT. Proofs: the step and the reset, what the object table says of an address, a host's command as the write of its object, and reading and
writing one item (O1, O2, O17, O19, O20, O22). -/

open Sys2Proof Sys2Proof.Machine

namespace Sys2Proof.Machine

/-! ### Keys and the object table (R6–R9, R506) -/

@[simp] theorem keyIdx_odKey {idx sub : Nat} (inst : Nat) (hi : idx < 65536) (hs : sub < 256) : keyIdx (odKey idx inst sub) = idx := by
  unfold keyIdx odKey
  omega

@[simp] theorem keyInst_odKey {idx sub : Nat} (inst : Nat) (hi : idx < 65536) (hs : sub < 256) : keyInst (odKey idx inst sub) = inst := by
  unfold keyInst odKey
  omega

@[simp] theorem keySub_odKey {sub : Nat} (idx inst : Nat) (hs : sub < 256) : keySub (odKey idx inst sub) = sub := by
  unfold keySub odKey
  omega

theorem mem_of_findObj {t : List ObjRow} {idx : Nat} {o : ObjRow} (h : findObj t idx = some o) : o ∈ t := by
  induction t with
  | nil => cases h
  | cons r t ih =>
    rw [findObj] at h
    split at h
    · cases h
      exact List.mem_cons_self
    · exact List.mem_cons_of_mem _ (ih h)

theorem findSub_some {t : List SubRow} {sub : Nat} {r : SubRow} (h : findSub t sub = some r) :
    r ∈ t ∧ r.sub ≤ sub ∧ sub < r.sub + r.count := by
  induction t with
  | nil => cases h
  | cons x t ih =>
    rw [findSub] at h
    split at h
    · cases h
      exact ⟨List.mem_cons_self, ‹_›⟩
    · obtain ⟨hmem, hsub⟩ := ih h
      exact ⟨List.mem_cons_of_mem _ hmem, hsub⟩

theorem subRow_eq_some {idx sub : Nat} {r : SubRow} :
    subRow idx sub = some r ↔ ∃ o, objRow idx = some o ∧ findSub o.subs sub = some r := by
  unfold subRow
  cases objRow idx <;> simp

theorem objectTable_subs_pos : ∀ o ∈ objectTable, o.single = false → ∀ r ∈ o.subs, 0 < r.sub := by
  decide +kernel

/-- Only an object without subs has a line at sub 0 (R9). -/
theorem single_of_findSub_zero {idx : Nat} {o : ObjRow} {r : SubRow} (ho : objRow idx = some o) (hr : findSub o.subs 0 = some r) :
    o.single = true := by
  obtain ⟨hmem, hle, -⟩ := findSub_some hr
  cases hs : o.single with
  | true => rfl
  | false =>
    have hpos := objectTable_subs_pos o (mem_of_findObj ho) hs r hmem
    omega

/-! ### The step -/

/-- Settles O1: the two cases of the queue. -/
theorem stepRunsTheFrontCommand : Obligations.StepRunsTheFrontCommand := by
  constructor
  · intro c rest s h
    rw [step, h]
  · intro s h
    rw [step, h]

/-! ### Reset (R21) -/

theorem State.reset_val (key : Nat) : State.reset.val key = odDefault key := rfl

theorem State.nat_of_val {s : State} {key n : Nat} (h : s.val key = .u n) : s.nat key = n := by
  rw [State.nat, h]
  rfl

theorem odDefault_shedEntry {j : Nat} (hj : j < 64) : odDefault (Od.shedEntry j) = .u (63 - j) := by
  have hsub : 1 + j < 256 := by omega
  simp [odDefault, Od.shedEntry, hsub]
  omega

theorem odDefault_owner (g : Nat) : odDefault (Od.owner g) = .u 255 := by
  have hrow : subRow 0x2110 1 = some ⟨1, 1, .u8, .ro, .u 255, .any⟩ := rfl
  simp [odDefault, Od.owner, hrow]

theorem odDefault_calState (n : Nat) : odDefault (Od.calState n) = .u 0 := by
  have hrow : subRow 0x2006 1 = some ⟨1, 1, .u8, .ro, .u 0, .any⟩ := rfl
  simp [odDefault, Od.calState, hrow]

theorem odDefault_rxState (n : Nat) : odDefault (Od.rxState n) = .u 0 := by
  have hrow : subRow 0x3100 1 = some ⟨1, 1, .u8, .ro, .u 0, .any⟩ := rfl
  simp [odDefault, Od.rxState, hrow]

theorem odDefault_carrierEnable (n : Nat) : odDefault (Od.carrierEnable n) = .u 0 := by
  have hrow : subRow 0x3010 1 = some ⟨1, 1, .bool, .rw, .u 0, .any⟩ := rfl
  simp [odDefault, Od.carrierEnable, hrow]

/-- Settles O2: the state of reset is empty, so that every object reads the default of its line, and the defaults that depend on
the unit or the sub are those of `odDefault`. -/
theorem resetLeavesTheDefaults : Obligations.ResetLeavesTheDefaults := by
  refine ⟨rfl, rfl, rfl, rfl, rfl, rfl, rfl, rfl, State.reset_val, rfl, rfl, rfl, rfl, rfl, rfl, ?_, ?_, ?_⟩
  · exact fun j hj => State.nat_of_val (odDefault_shedEntry hj)
  · exact fun g _ => State.nat_of_val (odDefault_owner g)
  · intro n _
    have hflag : State.reset.flag (Od.carrierEnable n) = false := by
      rw [State.flag, State.reset_val, odDefault_carrierEnable]
      rfl
    exact ⟨State.nat_of_val (odDefault_calState n), State.nat_of_val (odDefault_rxState n), hflag⟩

/-! ### A host's command and the table of commands (R12, R14, R118) -/

theorem commandOf_odKey {k idx x code : Nat} (hi : idx < 65536) : commandOf k (odKey idx x 0) code =
    ((commandTable k x code).find? fun e => e.1 = idx && (e.2.1.isNone || e.2.1 = some code)).map (·.2.2) := by
  rw [commandOf, keyInst_odKey x hi (by decide), keyIdx_odKey x hi (by decide)]

/-- A command that runs the entry `f` of the table for its object is the plain write of its code to that object. -/
theorem isWrite_of_tableEntry {c : Instr} {s : State} {k idx x code : Nat} {f : State → Status × State} (hi : idx < 65536)
    (hf : ((commandTable k x code).find? fun e => e.1 = idx && (e.2.1.isNone || e.2.1 = some code)).map (·.2.2) = some f)
    (hc : exec c s = .next (if quietCommand idx then hostCmdQuiet s k (odKey idx x 0) code f else hostCmd s k (odKey idx x 0) code f)) :
    ∃ f, commandOf k (odKey idx x 0) code = some f ∧ Yields c s
      (if quietCommand (keyIdx (odKey idx x 0)) then hostCmdQuiet s k (odKey idx x 0) code f else hostCmd s k (odKey idx x 0) code f) := by
  refine ⟨f, (commandOf_odKey hi).trans hf, ?_⟩
  rw [keyIdx_odKey x hi (by decide)]
  exact hc

/-- Settles O17, row by row: what each host command runs is the table's entry for its object and code. Only `FirmwareCommand` code 1,
which the statement leaves out, takes operands that a plain write does not carry. -/
theorem hostCommandsAreWritesOfTheirObjects : Obligations.HostCommandsAreWritesOfTheirObjects := by
  intro c k key code s h hne
  cases c with
  | firmwareVerify =>
    cases h
    exact absurd rfl hne
  | _ => cases h <;> exact isWrite_of_tableEntry (by decide) rfl rfl

/-! ### Reading one item (R12, R96, R119) -/

/-- What a read of an existing sub answers where the boot ROM serves its index: by access class, then by module state, then by the
gate of the Lid objects. -/
theorem readItem_of_row {s : State} {k idx inst sub : Nat} {shadow : Bool} {r : SubRow} (ha : addrStatus idx inst sub = .ok)
    (hr : subRow idx sub = some r) (hb : ∀ m, r.ty ≠ .block m) (hrec : s.boot.recovery = true → servedInRecovery idx = true) :
    readItem s k idx inst sub shadow =
      if r.acc = .wo ∨ r.acc = .key then (.writeOnly, [])
      else if gated idx && s.beforeCalibrate then
        (.ok, encodeVal r.ty (if r.acc = .rw ∨ r.acc = .rws then odDefault (odKey idx inst sub) else zeroVal r.ty))
      else if lidGate s k (odKey idx inst sub) = .ok then
        (.ok, encodeVal r.ty (fullOctets r (readVal s k (odKey idx inst sub) shadow)))
      else (lidGate s k (odKey idx inst sub), []) := by
  obtain ⟨o, ho, hf⟩ := subRow_eq_some.1 hr
  have hserved : ¬ (s.boot.recovery = true ∧ (!servedInRecovery idx) = true) := by
    rintro ⟨h, hno⟩
    simp [hrec h] at hno
  have hsub : ¬ (sub = 0 ∧ (!o.single) = true) := by
    rintro ⟨rfl, hs⟩
    simp [single_of_findSub_zero ho hf] at hs
  rw [readItem, ha, ho]
  simp only [if_neg hserved, if_neg hsub, hf]
  cases lidGate s k (odKey idx inst sub) <;> rfl

/-- Settles O20: the first two answers of `readItem_of_row`. -/
theorem readsAnswerByClassAndState : Obligations.ReadsAnswerByClassAndState := by
  constructor
  · intro s k idx inst sub shadow r ha hr hacc hb hrec
    rw [readItem_of_row ha hr hb hrec, if_pos hacc]
  · intro s k idx inst sub shadow r hs hg hrec ha hr hb hwo hkey
    have hclass : ¬ (r.acc = .wo ∨ r.acc = .key) := by simp [hwo, hkey]
    rw [readItem_of_row ha hr hb (by simp [hrec]), if_neg hclass, hg, hs, Bool.and_self, if_pos rfl]

/-! ### Judging one written item (R13, R97) -/

theorem addrStatus_of_writeGate {s : State} {k idx inst sub code : Nat} (h : writeGate s k idx inst sub code = .ok) :
    addrStatus idx inst sub = .ok := by
  unfold writeGate at h
  split at h
  · assumption
  · exact h

theorem subRow_of_writeGate {s : State} {k idx inst sub code : Nat} (h : writeGate s k idx inst sub code = .ok) :
    ∃ r, subRow idx sub = some r := by
  rw [writeGate, addrStatus_of_writeGate h] at h
  cases ho : objRow idx with
  | none => simp [ho] at h
  | some o =>
    cases hf : findSub o.subs sub with
    | none =>
      simp only [ho, hf] at h
      split at h <;> cases h
    | some r => exact ⟨r, subRow_eq_some.2 ⟨o, ho, hf⟩⟩

/-- An item that passes the common checks is judged by the form of its value, then by its range. -/
theorem prepItem_of_row {s : State} {k : Nat} {it : WriteItem} {r : SubRow} (ha : addrStatus it.idx it.inst it.sub = .ok)
    (hr : subRow it.idx it.sub = some r) (hb : ∀ m, r.ty ≠ .block m)
    (hg : writeGate s k it.idx it.inst it.sub (leNat (it.value.take 4)) = .ok) :
    prepItem s k it =
      ⟨if (decodeVal r.ty it.value).1 = .ok then (if rngOk r.rng (decodeVal r.ty it.value).2 then .ok else .range)
        else (decodeVal r.ty it.value).1,
       r.acc, odKey it.idx it.inst it.sub, leNat (it.value.take 4), (decodeVal r.ty it.value).2⟩ := by
  rw [prepItem, ha, hr]
  simp only [hg]

/-- A request with an item that fails its own checks leaves only `LastStatus` (R98, R116). -/
theorem hostWrite_refused {s : State} {k i : Nat} {items : List WriteItem} {st : Status} (hs : s.answers k = true)
    (h : firstBad ((items.map (prepItem s k)).map (·.status)) 0 = some (i, st)) : hostWrite s k items = s.refuse k st := by
  rw [hostWrite, if_pos hs, writeRequest]
  simp only [h]

theorem State.refuse_val (s : State) (k : Nat) (st : Status) (key : Nat) : (s.refuse k st).val key = s.val key := rfl

/-- Settles O22: the item's own check answers `OD_RANGE`, and a refusal leaves the objects. -/
theorem outOfRangeWriteIsRefused : Obligations.OutOfRangeWriteIsRefused := by
  intro s k idx inst sub r v value hs ha hr hb hg hd hrng
  have hp : (prepItem s k ⟨idx, inst, sub, value⟩).status = .range := by
    rw [prepItem_of_row ha hr hb hg, hd]
    simp [hrng]
  have hw : hostWrite s k [⟨idx, inst, sub, value⟩] = s.refuse k .range :=
    hostWrite_refused (i := 0) hs (by simp [hp, firstBad])
  exact ⟨congrArg Host.Outcome.next hw, s.refuse_val k .range⟩

/-! ### Accepted writes (R12, R103, R109, R110, R116–R118, R138)

What O19 says of each kind of write, as a theorem of its own; the write to a CAN port's set-up needs a sub below 256. -/

theorem State.shadowVal_setShadow (s : State) (k j : Nat) (v : Val) :
    (s.setShadow k v).shadowVal j = if j = k then v else s.shadowVal j := Tbl.get_put ..

theorem State.isCommissioning_congr {s t : State} (h : t.od = s.od) : t.isCommissioning = s.isCommissioning := by
  simp [State.isCommissioning, State.flag, State.val, h]

theorem commissioningEnds_eq_self {s t : State} (k : Nat) (h : s.isCommissioning = false ∨ t.isCommissioning = true) :
    commissioningEnds s t k = t := by
  rcases h with h | h <;> simp [commissioningEnds, h]

theorem commissioningEnds_of_od {s t : State} (k : Nat) (h : t.od = s.od) : commissioningEnds s t k = t := by
  apply commissioningEnds_eq_self
  rw [State.isCommissioning_congr h]
  cases s.isCommissioning <;> simp

theorem hostWrite_rw {s : State} {k key code : Nat} {v : Val} {it : WriteItem} (hs : s.answers k = true) (hleaf : keyIdx key ≠ 0x5100)
    (hcan : keyIdx key ≠ 0x1F10) (hp : prepItem s k it = ⟨.ok, .rw, key, code, v⟩)
    (hr : ruleCheck s (s.setVal key v) k ⟨.ok, .rw, key, code, v⟩ = .ok) : hostWrite s k [it] = wroteOne s k key v := by
  simp [hostWrite, hs, writeRequest, hp, firstBad, storeItem, hleaf, hcan, hr, applyItems, wroteOne, wrote]

theorem hostWrite_rws {s : State} {k key code : Nat} {v : Val} {it : WriteItem} (hs : s.answers k = true)
    (hp : prepItem s k it = ⟨.ok, .rws, key, code, v⟩)
    (hr : ruleCheck s (s.setShadow key v) k ⟨.ok, .rws, key, code, v⟩ = .ok) :
    hostWrite s k [it] = (s.setShadow key v).journalBy k 2 (keyIdx key) (keyInst key) (keySub key) := by
  have hce : commissioningEnds s ((s.setShadow key v).journalBy k 2 (keyIdx key) (keyInst key) (keySub key)) k = _ :=
    commissioningEnds_of_od k (by simp)
  simpa [hostWrite, hs, writeRequest, hp, firstBad, storeItem, hr, applyItems] using hce

theorem prepItem_of_allows {s : State} {k idx inst sub code : Nat} {v : Val} {value : Bytes} (hi : idx < 65536) (hsub : sub < 256)
    (h : Allows s k (odKey idx inst sub) code v) (hcode : leNat (value.take 4) = code)
    (hd : ∀ r, subRow idx sub = some r → decodeVal r.ty value = (.ok, v)) :
    prepItem s k ⟨idx, inst, sub, value⟩ = ⟨.ok, .rw, odKey idx inst sub, code, v⟩ := by
  have hg := h.gate
  rw [keyIdx_odKey inst hi hsub, keyInst_odKey inst hi hsub, keySub_odKey idx inst hsub, ← hcode] at hg
  obtain ⟨r, hr⟩ := subRow_of_writeGate hg
  have hdec := hd r hr
  have hb : ∀ m, r.ty ≠ .block m := by
    intro m hm
    simp [hm, decodeVal] at hdec
  obtain ⟨hacc, hrng⟩ := h.range r (by rwa [keyIdx_odKey inst hi hsub, keySub_odKey idx inst hsub])
  rw [prepItem_of_row (addrStatus_of_writeGate hg) hr hb hg]
  simp [hdec, hacc, hrng, hcode]

/-- The write of one item that is allowed stores its value, with its journal entry and its effect. -/
theorem hostWrite_of_allows {s : State} {k idx inst sub code : Nat} {v : Val} {value : Bytes} (hi : idx < 65536) (hsub : sub < 256)
    (hleaf : idx ≠ 0x5100) (hcan : idx ≠ 0x1F10) (h : Allows s k (odKey idx inst sub) code v) (hcode : leNat (value.take 4) = code)
    (hd : ∀ r, subRow idx sub = some r → decodeVal r.ty value = (.ok, v)) :
    hostWrite s k [⟨idx, inst, sub, value⟩] = wroteOne s k (odKey idx inst sub) v :=
  hostWrite_rw h.answers (by rwa [keyIdx_odKey inst hi hsub]) (by rwa [keyIdx_odKey inst hi hsub])
    (prepItem_of_allows hi hsub h hcode hd) h.rules

/-- Below 3000h only chapter 05 and 2105h have effects of a write. -/
theorem writeEffect_of_idx_lt {old s : State} {key : Nat} (h : keyIdx key < 0x3000) : writeEffect old s key = commAfter old s key := by
  have hne : ∀ idx, 0x3000 ≤ idx → keyIdx key ≠ idx := by omega
  simp [writeEffect, opticsAfter, lanesAfter, tuneAfter, traysAfter, sealAfter, hubAfter, timingAfter, monitorAfter, stockpotAfter, hne]

theorem leNat_leBytes_one {n : Nat} (h : n < 256) : leNat (leBytes 1 n) = n := by
  simp [leBytes, leNat, Nat.mod_eq_of_lt h]

theorem leNat_leBytes_four {n : Nat} (h : n < 2 ^ 32) : leNat (leBytes 4 n) = n := by
  simp [leBytes, leNat]
  omega

/-- Enabling an identity entry stores the flag and, where it ends commissioning, ends the sessions opened in it (R103). -/
theorem exec_identityEnableWrite {s : State} {k i : Nat} (h : Allows s k (Od.identityEntryEnabled i) 1 (.u 1)) :
    Yields (.identityEnableWrite k [⟨0x2104, i, 4, [1]⟩]) s (commissioningEnds s (wrote s k (Od.identityEntryEnabled i) (.u 1)) k) := by
  have hrow : subRow 0x2104 4 = some ⟨4, 1, .bool, .rw, .u 0, .any⟩ := rfl
  have hw : hostWrite s k [⟨0x2104, i, 4, [1]⟩] = wroteOne s k (Od.identityEntryEnabled i) (.u 1) := by
    refine hostWrite_of_allows (by decide) (by decide) (by decide) (by decide) h rfl fun r hr => ?_
    cases hr.symm.trans hrow
    rfl
  have he : effectKey (Od.identityEntryEnabled i) = Od.identityEntryEnabled i := by
    simp [effectKey, Od.identityEntryEnabled]
  refine congrArg Host.Outcome.next (hw.trans ?_)
  rw [wroteOne, he, writeEffect_of_idx_lt (by simp [Od.identityEntryEnabled])]
  simp [commAfter, Od.identityEntryEnabled]

theorem subRow_canSession {sub : Nat} {r : SubRow} (h : subRow 0x2105 sub = some r) :
    (sub = 1 ∧ r.ty = .bool) ∨ (sub ≠ 1 ∧ r.ty = .u8) := by
  have hs : subRow 0x2105 sub = findSub [⟨1, 1, .bool, .rw, .u 0, .any⟩, ⟨2, 1, .u8, .rw, .u 0, .ivl 1 127 1⟩,
    ⟨3, 1, .u8, .rw, .u 1, .ivl 1 3 1⟩] sub := rfl
  rw [hs] at h
  obtain ⟨hmem, hle, hlt⟩ := findSub_some h
  simp only [List.mem_cons, List.not_mem_nil, or_false] at hmem
  rcases hmem with rfl | rfl | rfl
  · exact .inl ⟨by simp only at hle hlt; omega, rfl⟩
  · exact .inr ⟨by simp only at hle; omega, rfl⟩
  · exact .inr ⟨by simp only at hle; omega, rfl⟩

/-- A write to the set-up of a CAN port, as O19 has it, with the bound on the sub that its refutation shows to be needed (R101). -/
theorem exec_canSessionReconfigure {s : State} {k p sub value : Nat} (hsub : sub < 256)
    (h : Allows s k (odKey 0x2105 p sub) value (.u value)) (hb : sub = 1 → value ≤ 1) (hv : value < 256) :
    Yields (.canSessionReconfigure k p sub value) s
      (commissioningEnds s (canReconfigured s (wrote s k (odKey 0x2105 p sub) (.u value)) p) k) := by
  have hle := leNat_leBytes_one hv
  have hlen : (leBytes 1 value).length = 1 := rfl
  have hw : hostWrite s k [⟨0x2105, p, sub, leBytes 1 value⟩] = wroteOne s k (odKey 0x2105 p sub) (.u value) := by
    refine hostWrite_of_allows (by decide) hsub (by decide) (by decide) h hle fun r hr => ?_
    rcases subRow_canSession hr with ⟨hs, hty⟩ | ⟨-, hty⟩
    · simp [hty, decodeVal, hlen, hle, hb hs]
    · simp [hty, decodeVal, hlen, hle]
  have he : effectKey (odKey 0x2105 p sub) = odKey 0x2105 p 1 := by simp [effectKey, hsub]
  refine congrArg Host.Outcome.next (hw.trans ?_)
  rw [wroteOne, he, writeEffect_of_idx_lt (by simp)]
  simp [commAfter]

/-- A write to 1F10h changes the session's own copy and nothing else (R138). -/
theorem hostWrite_canAccess {s : State} {k sub : Nat} {value : Bytes} {r : SubRow} {v : Val} (hs : s.answers k = true) (hsub : sub < 256)
    (hg : writeGate s k 0x1F10 0 sub (leNat (value.take 4)) = .ok) (hr : subRow 0x1F10 sub = some r) (hacc : r.acc = .rw)
    (hb : ∀ m, r.ty ≠ .block m) (hd : decodeVal r.ty value = (.ok, v)) (hrng : rngOk r.rng v = true) :
    hostWrite s k [⟨0x1F10, 0, sub, value⟩] = s.setSession k
      (if sub = 1 then { s.session k with canInst := v.nat } else { s.session k with shadowView := v.nat != 0 }) := by
  have hp : prepItem s k ⟨0x1F10, 0, sub, value⟩ = ⟨.ok, .rw, odKey 0x1F10 0 sub, leNat (value.take 4), v⟩ := by
    rw [prepItem_of_row (addrStatus_of_writeGate hg) hr hb hg]
    simp [hd, hrng, hacc]
  have hrule : ruleCheck s s k ⟨.ok, .rw, odKey 0x1F10 0 sub, leNat (value.take 4), v⟩ = .ok := by
    simp [ruleCheck, hsub, firstBad, lidGate, commCheck, opticsCheck, rxCheck, tuneCheck, lanesCheck, traysCheck, sealCheck, hubCheck,
      timingCheck, monitorCheck, stockpotCheck, dmaCheck, faultsCheck, thermalCheck]
  have hce : ∀ x, commissioningEnds s (s.setSession k x) k = s.setSession k x := fun _ => commissioningEnds_of_od k rfl
  simp [hostWrite, hs, writeRequest, hp, firstBad, storeItem, hrule, applyItems, ownCopy, hce, hsub]

theorem exec_canAccessWrite_canInst {s : State} {k value : Nat} (hs : s.answers k = true)
    (hg : writeGate s k 0x1F10 0 1 value = .ok) (hv : value < 262144) :
    Yields (.canAccessWrite k 1 value) s (s.setSession k { s.session k with canInst := value }) := by
  have hle : leNat (leBytes 4 value) = value := leNat_leBytes_four (by omega)
  have hrow : subRow 0x1F10 1 = some ⟨1, 1, .u32, .rw, .u 0, .ivl 0 262143 1⟩ := rfl
  have hrng : rngOk (.ivl 0 262143 1) (.u value) = true := by
    simp [rngOk, Val.num]
    omega
  have hw := hostWrite_canAccess (value := leBytes 4 value) (v := .u value) hs (by decide)
    (show writeGate s k 0x1F10 0 1 (leNat (leBytes 4 value)) = .ok by rwa [hle]) hrow rfl (by simp)
    (by rw [decodeVal, hle]; rfl) hrng
  exact congrArg Host.Outcome.next hw

theorem exec_canAccessWrite_shadowView {s : State} {k value : Nat} (hs : s.answers k = true)
    (hg : writeGate s k 0x1F10 0 2 value = .ok) (hv : value < 2) :
    Yields (.canAccessWrite k 2 value) s (s.setSession k { s.session k with shadowView := value != 0 }) := by
  have hle : leNat (leBytes 1 value) = value := leNat_leBytes_one (by omega)
  have hrow : subRow 0x1F10 2 = some ⟨2, 1, .bool, .rw, .u 0, .any⟩ := rfl
  have hw := hostWrite_canAccess (value := leBytes 1 value) (v := .u value) hs (by decide)
    (show writeGate s k 0x1F10 0 2 (leNat (leBytes 1 value)) = .ok by rwa [hle]) hrow rfl (by simp)
    (by rw [decodeVal, hle, if_pos (by omega : value ≤ 1)]; rfl) rfl
  exact congrArg Host.Outcome.next hw

/-! ### The unbounded sub of O19

`odKey` packs a sub into eight bits. 6916 = 27 · 256 + 4, so that `odKey 0x2105 0 6916` is the key of `Lead`, 2120h[0].4, an `RW`
object; the address 2105h[0].6916 does not exist. -/

/-- One open session, a Maintainer's, that the management firmware serves; all else is as after reset. -/
def oneMaintainer : State := { boot := { fwReady := true }, sessions := [(0, { isOpen := true, role := 3 })] }

theorem odKey_overlong_sub : odKey 0x2105 0 6916 = Od.lead 0 := rfl

theorem oneMaintainer_allows_lead : Allows oneMaintainer 0 (Od.lead 0) 16 (.u 16) where
  answers := by decide +kernel
  gate := by decide +kernel
  range r hr := by
    cases hr.symm.trans (show _ = some ⟨4, 1, .u32, .rw, .u 16, .ivl 2 1000000 1⟩ from rfl)
    decide
  rules := by decide +kernel

/-- Refutes O19: its clause for a CAN port's set-up bounds no sub. At sub 6916 its hypothesis speaks of `Lead`, which the Maintainer of
`oneMaintainer` may write, while the request names 2105h[0].6916, which is refused without the journal entry that the clause claims. The
other clauses hold (above), and so does this one below sub 256 (`exec_canSessionReconfigure`). -/
theorem not_acceptedWriteStoresItsValue : ¬ Obligations.AcceptedWriteStoresItsValue := by
  rintro ⟨-, -, -, -, -, hcan, -, -⟩
  have hallows : Allows oneMaintainer 0 (odKey 0x2105 0 6916) 16 (.u 16) := by
    rw [odKey_overlong_sub]
    exact oneMaintainer_allows_lead
  have h := hcan oneMaintainer 0 0 6916 16 hallows (by decide) (by decide)
  injection h with hstate
  have hrefused : (hostWrite oneMaintainer 0 [⟨0x2105, 0, 6916, leBytes 1 16⟩]).journalNext = 1 := by decide +kernel
  have hclaimed : (commissioningEnds oneMaintainer
      (canReconfigured oneMaintainer (wrote oneMaintainer 0 (odKey 0x2105 0 6916) (.u 16)) 0) 0).journalNext = 2 := by decide +kernel
  rw [hstate, hclaimed] at hrefused
  cases hrefused

end Sys2Proof.Machine
end

section
/-! SUPPORT. Proofs: what an SDO request does to its port, and what it answers (O26). -/

open Sys2Proof Sys2Proof.Machine

namespace Sys2Proof.Machine

/-! ### Reading a port and an object after an update -/

@[simp] theorem State.canPort_setCanPort (s : State) (p q : Nat) (x : CanPort) :
    (s.setCanPort p x).canPort q = if q = p then x else s.canPort q := Tbl.get_put ..

@[simp] theorem setSdo_sdo (s : State) (p : Nat) (x : Option SdoXfer) : ((setSdo s p x).canPort p).sdo = x := by
  simp [setSdo]

theorem State.nat_setVal_of_ne (s : State) {k j : Nat} (v : Val) (h : j ≠ k) : (s.setVal k v).nat j = s.nat j := by
  simp [State.nat, State.val, Tbl.get_put, h]

theorem State.nat_setN_same (s : State) (k n : Nat) : (s.setN k n).nat k = n := by
  simp [State.setN, State.nat, State.val, Tbl.get_put, Val.nat]

theorem odKey_ne_of_idx {idx idx' sub sub' : Nat} (inst inst' : Nat) (hi : idx < 65536) (hi' : idx' < 65536) (hs : sub < 256)
    (hs' : sub' < 256) (h : idx ≠ idx') : odKey idx inst sub ≠ odKey idx' inst' sub' := fun e =>
  h ((keyIdx_odKey inst hi hs).symm.trans ((congrArg keyIdx e).trans (keyIdx_odKey inst' hi' hs')))

theorem nodeId_ne_sdoAborts (p q : Nat) : Od.nodeId p ≠ Od.sdoAborts q :=
  odKey_ne_of_idx p q (by decide) (by decide) (by decide) (by decide) (by decide)

/-! ### Requests for a port (R134, R137) -/

section
variable {s t : State} {p : Nat} {f : SdoFrame}

/-- A request for the port, while it runs, is served. -/
theorem onSdo_served (g : State → State) (hp : p < 2) (hl : canLive s p = true) (hf : sdoForUs s p f = true) :
    onSdo p f s g = .next (g s) := by
  simp [onSdo, onUnit, hp, hl, hf]

theorem onSdo_ignored (g : State → State) (hp : p < 2) (hf : sdoForUs s p f = false) : onSdo p f s g = .next s := by
  simp [onSdo, onUnit, hp, hf]

section
variable (hp : p < 2) (hl : canLive s p = true) (hf : sdoForUs s p f = true)
include hp hl hf

theorem yields_sdoUploadInitiate {idx sub : Nat} (h : sdoUpload s p f idx sub = t) : Yields (.sdoUploadInitiate p f idx sub) s t :=
  h ▸ onSdo_served (sdoUpload · p f idx sub) hp hl hf

theorem yields_sdoUploadSegment {toggle : Bool} (h : sdoUploadSegment s p f toggle = t) :
    Yields (.sdoUploadSegment p f toggle) s t :=
  h ▸ onSdo_served (sdoUploadSegment · p f toggle) hp hl hf

theorem yields_sdoDownloadInitiate {idx sub : Nat} {size : Option Nat} {expedited : Bool} {data : Bytes}
    (h : sdoDownload s p f idx sub size expedited data = t) : Yields (.sdoDownloadInitiate p f idx sub size expedited data) s t :=
  h ▸ onSdo_served (sdoDownload · p f idx sub size expedited data) hp hl hf

theorem yields_sdoDownloadSegment {toggle : Bool} {data : Bytes} {last : Bool}
    (h : sdoDownloadSegment s p f toggle data last = t) : Yields (.sdoDownloadSegment p f toggle data last) s t :=
  h ▸ onSdo_served (sdoDownloadSegment · p f toggle data last) hp hl hf

/-- Block SDO is refused, and a transfer that runs goes on. -/
theorem yields_sdoBlockRequest (idx sub : Nat) : Yields (.sdoBlockRequest p f idx sub) s
    ((sdoReply (s.bump (Od.sdoAborts p)) p f.fd 0x80 idx sub 0x05040001).refuse (canSlot p) .general) :=
  onSdo_served (fun s => (sdoReply (s.bump (Od.sdoAborts p)) p f.fd 0x80 idx sub 0x05040001).refuse (canSlot p) .general)
    hp hl hf
end
end

/-- Only an ISO frame of the port's own COB-ID with 11 bits is a request for it (R134, R135). -/
theorem sdoForUs_eq_false {s : State} {p : Nat} {f : SdoFrame}
    (h : f.extended = true ∨ f.nonIso = true ∨ f.cobId ≠ 0x600 + s.nat (Od.nodeId p)) : sdoForUs s p f = false := by
  rcases h with h | h | h <;> simp [sdoForUs, h]

/-! ### Uploads -/

/-- A die that answers gives the value, or the refusal, of the address. -/
theorem sdoRead_alive {s : State} {p idx sub : Nat} {dead : Option Nat} {st : Status} {v : Bytes} (ha : dead = none)
    (h : readItem s (canSlot p) idx (sdoInstance s p idx) sub (s.session (canSlot p)).shadowView = (st, v)) :
    sdoRead s p idx sub dead = (st, v, s) := by
  simp [sdoRead, ha, h]

theorem sdoRead_dead (s : State) (p idx sub : Nat) {dead : Option Nat} {d : Nat} (ha : dead = some d) (hd : d < 27) :
    sdoRead s p idx sub dead = (.hardware, [], s.raise (0x40 + d)) := by
  simp [sdoRead, ha, deadRequest, Nat.mod_eq_of_lt hd]

theorem sdoUpload_short {s t : State} {p idx sub : Nat} {f : SdoFrame} {v : Bytes}
    (hr : sdoRead (setSdo s p none) p idx sub f.deadDie = (.ok, v, t)) (h1 : 1 ≤ v.length) (h4 : v.length ≤ 4) :
    sdoUpload s p f idx sub = sdoReply t p f.fd (0x43 + 4 * (4 - v.length)) idx sub (leNat v) := by
  simp [sdoUpload, hr, h1, h4]

theorem sdoUpload_long {s t : State} {p idx sub : Nat} {f : SdoFrame} {v : Bytes}
    (hr : sdoRead (setSdo s p none) p idx sub f.deadDie = (.ok, v, t)) (h4 : 4 < v.length) :
    sdoUpload s p f idx sub =
      sdoReply (setSdo t p (some { download := false, idx := idx, sub := sub, total := v.length, data := v, fd := f.fd })) p f.fd 0x41
        idx sub v.length := by
  simp [sdoUpload, hr, Nat.not_le.2 h4]

theorem sdoUpload_refused {s t : State} {p idx sub : Nat} {f : SdoFrame} {st : Status} {v : Bytes}
    (hr : sdoRead (setSdo s p none) p idx sub f.deadDie = (st, v, t)) (hst : st ≠ .ok) :
    sdoUpload s p f idx sub = sdoAbort t p f.fd idx sub st.abort st := by
  simp [sdoUpload, hr, hst]

theorem sdoUploadSegment_middle {s : State} {p : Nat} (f : SdoFrame) {x : SdoXfer} (hx : (s.canPort p).sdo = some x)
    (hd : x.download = false) (h7 : 7 < x.data.length) : sdoUploadSegment s p f x.toggle =
      sdoSend (setSdo s p (some { x with data := x.data.drop 7, toggle := !x.toggle, fd := f.fd })) p f.fd
        (leBytes 1 (if x.toggle then 0x10 else 0) ++ x.data.take 7) := by
  have hpart : min 7 x.data.length = 7 := by omega
  have hrest : (x.data.drop 7).isEmpty = false := by simp [h7]
  simp [sdoUploadSegment, hx, hd, hpart, hrest]

theorem sdoUploadSegment_last {s : State} {p : Nat} (f : SdoFrame) {x : SdoXfer} (hx : (s.canPort p).sdo = some x)
    (hd : x.download = false) (h7 : x.data.length ≤ 7) : sdoUploadSegment s p f x.toggle =
      sdoSend (setSdo s p none) p f.fd (leBytes 1 ((if x.toggle then 0x10 else 0) + 2 * (7 - x.data.length) + 1) ++ x.data
        ++ List.replicate (7 - x.data.length) 0) := by
  simp [sdoUploadSegment, hx, hd, List.take_of_length_le h7, List.drop_eq_nil_of_le h7]

theorem sdoUploadSegment_wrongToggle {s : State} {p : Nat} (f : SdoFrame) {x : SdoXfer} (hx : (s.canPort p).sdo = some x)
    (hd : x.download = false) : sdoUploadSegment s p f (!x.toggle) = sdoAbort s p f.fd x.idx x.sub 0x05030000 .general := by
  simp [sdoUploadSegment, hx, hd]

/-! ### Downloads -/

/-- A value that the dictionary takes is confirmed, in the format of the request. -/
theorem sdoFinish_accepted {s u : State} {p idx sub : Nat} {f : SdoFrame} {data : Bytes} (confirm : Bytes)
    (hw : sdoWrite (setSdo s p none) p idx sub data f.deadDie = (.ok, u)) (hu : u.serving = true) :
    sdoFinish s p f idx sub data confirm = u.send (.can p (0x580 + s.nat (Od.nodeId p)) f.fd confirm) := by
  simp [sdoFinish, hw, hu]

theorem sdoDownload_expedited {s u : State} {p idx sub n : Nat} {f : SdoFrame} {data : Bytes} (hn : n ≤ 4) (hu : u.serving = true)
    (hw : sdoWrite (setSdo (setSdo s p none) p none) p idx sub (data.take n) f.deadDie = (.ok, u)) :
    sdoDownload s p f idx sub (some n) true data =
      u.send (.can p (0x580 + s.nat (Od.nodeId p)) f.fd (leBytes 1 0x60 ++ leBytes 2 idx ++ leBytes 1 sub ++ leBytes 4 0)) := by
  rw [← Nat.min_eq_left hn] at hw
  exact sdoFinish_accepted _ hw hu

theorem sdoDownloadSegment_middle {s : State} {p : Nat} (f : SdoFrame) {x : SdoXfer} {data : Bytes} (hx : (s.canPort p).sdo = some x)
    (hd : x.download = true) (h7 : data.length ≤ 7) (hle : (x.data ++ data).length ≤ x.total) :
    sdoDownloadSegment s p f x.toggle data false =
      sdoSend (setSdo s p (some { x with data := x.data ++ data, toggle := !x.toggle, fd := f.fd })) p f.fd
        (leBytes 1 (0x20 + if x.toggle then 0x10 else 0) ++ List.replicate 7 0) := by
  have hfit : ¬ x.total < x.data.length + data.length := by simpa using hle
  simp [sdoDownloadSegment, hx, hd, List.take_of_length_le h7, hfit]

theorem sdoDownloadSegment_last {s u : State} {p : Nat} {f : SdoFrame} {x : SdoXfer} {data : Bytes} (hx : (s.canPort p).sdo = some x)
    (hd : x.download = true) (h7 : data.length ≤ 7) (hlen : (x.data ++ data).length = x.total) (hu : u.serving = true)
    (hw : sdoWrite (setSdo s p none) p x.idx x.sub (x.data ++ data) f.deadDie = (.ok, u)) :
    sdoDownloadSegment s p f x.toggle data true =
      u.send (.can p (0x580 + s.nat (Od.nodeId p)) f.fd (leBytes 1 (0x20 + if x.toggle then 0x10 else 0) ++ List.replicate 7 0)) := by
  have hlen' : x.data.length + data.length = x.total := by simpa using hlen
  simp [sdoDownloadSegment, hx, hd, List.take_of_length_le h7, hlen', sdoFinish_accepted _ hw hu]

theorem sdoDownloadSegment_wrongToggle {s : State} {p : Nat} (f : SdoFrame) {x : SdoXfer} (data : Bytes) (last : Bool)
    (hx : (s.canPort p).sdo = some x) (hd : x.download = true) :
    sdoDownloadSegment s p f (!x.toggle) data last = sdoAbort s p f.fd x.idx x.sub 0x05030000 .general := by
  simp [sdoDownloadSegment, hx, hd]

/-! ### Time-out and abort -/

theorem yields_sdoSegmentTimeout {s : State} {p : Nat} {x : SdoXfer} (hp : p < 2) (hl : canLive s p = true)
    (hx : (s.canPort p).sdo = some x) : Yields (.sdoSegmentTimeout p) s (sdoAbort s p x.fd x.idx x.sub 0x05040000 .general) := by
  change execSdoSegmentTimeout p s = _
  simp [execSdoSegmentTimeout, onUnit, hp, hx, hl]

/-- An abort ends the transfer, counts it and sends its code. -/
theorem sdoAbort_spec (s : State) (p idx sub code : Nat) (fd : Bool) (st : Status) :
    ((sdoAbort s p fd idx sub code st).canPort p).sdo = none ∧ (sdoAbort s p fd idx sub code st).od = (s.bump (Od.sdoAborts p)).od
      ∧ .can p (0x580 + s.nat (Od.nodeId p)) fd (leBytes 1 0x80 ++ leBytes 2 idx ++ leBytes 1 sub ++ leBytes 4 code)
        ∈ (sdoAbort s p fd idx sub code st).outbox := by
  have hsdo := setSdo_sdo s p none
  have hnode : ((setSdo s p none).bump (Od.sdoAborts p)).nat (Od.nodeId p) = s.nat (Od.nodeId p) :=
    State.nat_setVal_of_ne _ _ (nodeId_ne_sdoAborts p p)
  refine ⟨hsdo, rfl, ?_⟩
  rw [← hnode]
  exact List.mem_cons_self

/-- Settles O26: each frame of an SDO transfer runs the lemma above that says what it answers. -/
theorem sdoServerTransfersValues : Obligations.SdoServerTransfersValues := by
  unfold Obligations.SdoServerTransfersValues
  refine ⟨?short, ?long, ?refused, ?dead, ?ignored, ?notOurs, ?upMiddle, ?upLast, ?initiate, ?expedited, ?downMiddle, ?downLast,
    ?wrongToggle, ?block, sdoAbort_spec⟩
  case short =>
    intro s p idx sub f v hp hl hf ha h1 h4 hr
    exact yields_sdoUploadInitiate hp hl hf (sdoUpload_short (sdoRead_alive ha hr) h1 h4)
  case long =>
    intro s p idx sub f v hp hl hf ha h4 hr
    exact ⟨_, yields_sdoUploadInitiate hp hl hf (sdoUpload_long (sdoRead_alive ha hr) h4), rfl, setSdo_sdo _ _ _⟩
  case refused =>
    intro s p idx sub f st v hp hl hf hst ha hr
    exact yields_sdoUploadInitiate hp hl hf (sdoUpload_refused (sdoRead_alive ha hr) hst)
  case dead =>
    intro s p idx sub d f hp hl hf ha hd
    exact yields_sdoUploadInitiate hp hl hf (sdoUpload_refused (sdoRead_dead _ p idx sub ha hd) (by decide))
  case ignored => exact fun s p idx sub f hp hf => onSdo_ignored (sdoUpload · p f idx sub) hp hf
  case notOurs => exact fun s p f => sdoForUs_eq_false
  case upMiddle =>
    intro s p f x hp hl hf hx hd h7
    exact yields_sdoUploadSegment hp hl hf (sdoUploadSegment_middle f hx hd h7)
  case upLast =>
    intro s p f x hp hl hf hx hd h7
    exact yields_sdoUploadSegment hp hl hf (sdoUploadSegment_last f hx hd h7)
  case initiate =>
    intro s p idx sub n f data hp hl hf
    exact ⟨yields_sdoDownloadInitiate hp hl hf rfl, yields_sdoDownloadInitiate hp hl hf rfl⟩
  case expedited =>
    intro s p idx sub n f data u hp hl hf hn hu hw
    exact yields_sdoDownloadInitiate hp hl hf (sdoDownload_expedited hn hu hw)
  case downMiddle =>
    intro s p f x data hp hl hf hx hd h7 hle
    exact yields_sdoDownloadSegment hp hl hf (sdoDownloadSegment_middle f hx hd h7 hle)
  case downLast =>
    intro s p f x data u hp hl hf hx hd h7 hlen hu hw
    exact yields_sdoDownloadSegment hp hl hf (sdoDownloadSegment_last hx hd h7 hlen hu hw)
  case wrongToggle =>
    intro s p x hp hl hx
    refine ⟨fun f data last hf hd => ?_, fun f hf hd => ?_, yields_sdoSegmentTimeout hp hl hx⟩
    · exact yields_sdoDownloadSegment hp hl hf (sdoDownloadSegment_wrongToggle f data last hx hd)
    · exact yields_sdoUploadSegment hp hl hf (sdoUploadSegment_wrongToggle f hx hd)
  case block => exact fun s p idx sub f hp hl hf => yields_sdoBlockRequest hp hl hf idx sub

end Sys2Proof.Machine
end

section
/-! SUPPORT. Proofs: TPDOs and EMCY messages on a CAN port, and the fast status RAM as its ports read it (O27). -/

open Sys2Proof Sys2Proof.Machine

namespace Sys2Proof.Machine

/-! ### TPDOs (R139, R140) -/

@[simp] theorem tpdo_setTpdo (s : State) (p j : Nat) (x : Tpdo) : (setTpdo s p j x).tpdo p j = x := by
  simp [State.tpdo, setTpdo, Tbl.get_put]

/-- Whether a TPDO works depends on its port only by whether that has started. -/
@[simp] theorem tpdoOn_setTpdo (s : State) (p j : Nat) (x : Tpdo) : tpdoOn (setTpdo s p j x) p j = tpdoOn s p j := by
  have hlive : canLive (setTpdo s p j x) p = canLive s p := by
    simp [canLive, setTpdo, State.session, State.serving]
  rw [tpdoOn, hlive]
  rfl

theorem tpdoSend_tpdo (s : State) (p j : Nat) (v : Bytes) : (tpdoSend s p j v).tpdo p j =
    { s.tpdo p j with last := some v, inhibited := s.nat (Od.inhibitTime j p) != 0, waiting := false } := tpdo_setTpdo ..

theorem tpdoJudge_unchanged {s : State} {p j : Nat} {v : Bytes} (hv : (s.tpdo p j).sample = some v) (hl : (s.tpdo p j).last = some v) :
    tpdoJudge s p j = s := by
  simp [tpdoJudge, hv, hl]

theorem tpdoJudge_inhibited {s : State} {p j : Nat} {v : Bytes} (hv : (s.tpdo p j).sample = some v) (hl : (s.tpdo p j).last ≠ some v)
    (hi : (s.tpdo p j).inhibited = true) : tpdoJudge s p j = setTpdo s p j { s.tpdo p j with waiting := true } := by
  simp [tpdoJudge, hv, hl, hi]

theorem tpdoJudge_sends {s : State} {p j : Nat} {v : Bytes} (hv : (s.tpdo p j).sample = some v) (hl : (s.tpdo p j).last ≠ some v)
    (hi : (s.tpdo p j).inhibited = false) : tpdoJudge s p j = tpdoSend s p j v := by
  simp [tpdoJudge, hv, hl, hi]

theorem tpdoSample_on {s : State} {p j : Nat} (hon : tpdoOn s p j = true) :
    tpdoSample s p j = tpdoJudge (setTpdo s p j { s.tpdo p j with sample := some (tpdoPayload s p j) }) p j := by
  simp [tpdoSample, hon]

theorem tpdoSample_off {s : State} {p j : Nat} (hoff : tpdoOn s p j = false) : tpdoSample s p j = s := by
  simp [tpdoSample, hoff]

theorem yields_tpdoEventTimer {s : State} {p j : Nat} (hp : p < 2) (hj : j < 4) (hon : tpdoOn s p j = true)
    (ht : s.nat (Od.eventTimer j p) ≠ 0) :
    Yields (.tpdoEventTimer p j) s (tpdoSend s p j ((s.tpdo p j).sample.getD (tpdoPayload s p j))) := by
  change execTpdoEventTimer p j s = _
  simp [execTpdoEventTimer, onUnit, hp, hj, hon, ht]

theorem yields_tpdoInhibitExpired {s : State} {p j : Nat} (hp : p < 2) (hj : j < 4) : Yields (.tpdoInhibitExpired p j) s
    (if (s.tpdo p j).waiting && tpdoOn s p j then tpdoJudge (setTpdo s p j { s.tpdo p j with inhibited := false, waiting := false }) p j
      else setTpdo s p j { s.tpdo p j with inhibited := false, waiting := false }) := by
  change execTpdoInhibitExpired p j s = _
  simp [execTpdoInhibitExpired, onUnit, hp, hj]

/-! ### EMCY (R141) -/

theorem yields_emcyInhibitExpired_none {s : State} {p : Nat} (hp : p < 2) (he : (s.canPort p).emcy = []) :
    Yields (.emcyInhibitExpired p) s (s.setCanPort p { s.canPort p with emcyInhibit := false }) := by
  change execEmcyInhibitExpired p s = _
  simp [execEmcyInhibitExpired, onUnit, hp, he]

/-- The state after the oldest waiting EMCY message `m` of a port has gone out, before its source counts as notified. -/
def emcySent (s : State) (p : Nat) (m : Bytes) (rest : List (Nat × Bool × Bytes)) : State :=
  (canSend s p 0x080 m).setCanPort p { s.canPort p with emcy := rest, emcyInhibit := s.nat Od.inhibitTimeEmcy != 0 }

theorem yields_emcyInhibitExpired_some {s : State} {p key : Nat} {raised : Bool} {m : Bytes} {rest : List (Nat × Bool × Bytes)}
    (hp : p < 2) (he : (s.canPort p).emcy = (key, raised, m) :: rest) : Yields (.emcyInhibitExpired p) s
    (if raised then (emcySent s p m rest).delivered key else emcySent s p m rest) := by
  change execEmcyInhibitExpired p s = _
  simp [execEmcyInhibitExpired, onUnit, hp, he, emcySent]

/-- A delivery concerns the sources only. -/
theorem State.delivered_eq (s : State) (key : Nat) : s.delivered key = { s with sources := (s.delivered key).sources } := by
  unfold State.delivered
  extract_lets x
  split <;> rfl

theorem emcyInhibitExpired_sends {s : State} {p key : Nat} {raised : Bool} {m : Bytes} {rest : List (Nat × Bool × Bytes)} (hp : p < 2)
    (he : (s.canPort p).emcy = (key, raised, m) :: rest) : ∃ t, Yields (.emcyInhibitExpired p) s t ∧ (t.canPort p).emcy = rest
      ∧ t.outbox.head? = some (.can p (0x080 + s.nat (Od.nodeId p)) false m) ∧ t.od = s.od := by
  refine ⟨_, yields_emcyInhibitExpired_some hp he, ?_⟩
  have hsent : ((emcySent s p m rest).canPort p).emcy = rest := by simp [emcySent]
  cases raised with
  | false => exact ⟨hsent, rfl, rfl⟩
  | true =>
    rw [if_pos rfl, State.delivered_eq]
    exact ⟨hsent, rfl, rfl⟩

/-! ### The bits of a status byte (R145, R146) -/

theorem bitIf_le (b : Bool) (i : Nat) : bitIf b i ≤ 2 ^ i := by
  unfold bitIf
  split <;> simp

theorem carrierStateCode_lt (s : State) (n : Nat) : carrierStateCode s n < 8 := by
  unfold carrierStateCode
  repeat' split
  all_goals decide

theorem trayStateCode_lt (s : State) (t : Nat) : trayStateCode s t < 4 := by
  unfold trayStateCode
  repeat' split
  all_goals decide

/-- A STATE field above three single bits. -/
theorem stateField_of_bits (c : Nat) (b₂ b₁ b₀ : Bool) : (8 * c + bitIf b₂ 2 + bitIf b₁ 1 + bitIf b₀ 0) / 8 = c := by
  have h₂ := bitIf_le b₂ 2
  have h₁ := bitIf_le b₁ 1
  have h₀ := bitIf_le b₀ 0
  omega

theorem carrierBits_div (s : State) (n : Nat) : carrierBits s n / 8 = carrierStateCode s n := stateField_of_bits ..

theorem leafBits_div (s : State) (l : Nat) : leafBits s l / 8 = (s.ctx l).state := stateField_of_bits ..

theorem trayBits_div (s : State) (t : Nat) : trayBits s t / 16 = trayStateCode s t := by
  have h₃ := bitIf_le (s.held (fsTray t) 3) 3
  have h₂ := bitIf_le (clientFailed s t || (s.source (srcTray t 0)).present) 2
  have h₁ := bitIf_le (s.held (fsTray t) 1) 1
  have h₀ := bitIf_le ((s.tray t).work.tx.on || (s.tray t).prot.tx.on) 0
  rw [trayBits]
  omega

/-- Bits 7 and 6 stand above the bits of the entry's class. -/
theorem withAlarm_mod {low : Nat} (s : State) (addr : Nat) (h : low < 64) : withAlarm s addr low % 64 = low := by
  rw [withAlarm]
  split <;> split <;> omega

/-- ALM is 1 while a source attributed to the entry is open. -/
theorem withAlarm_alm {low : Nat} (s : State) (addr : Nat) (h : low < 64) : 128 ≤ withAlarm s addr low ↔
    ∃ p, p ∈ s.sources ∧ p.2.openAlarm = true ∧ (entriesOfSource s p.1).contains addr = true := by
  have halm : 128 ≤ withAlarm s addr low ↔ alarmsOf s addr ≠ [] := by
    rw [withAlarm]
    generalize alarmsOf s addr = a
    have hinj : (if a.any (fun p => p.2.injAny) || injectedAt s addr then 64 else 0) ≤ 64 := by
      split <;> decide
    by_cases he : a = []
    · have hempty : a.isEmpty = true := List.isEmpty_iff.2 he
      exact iff_of_false (by rw [if_pos hempty]; omega) (not_not_intro he)
    · have hsome : ¬ a.isEmpty = true := fun h => he (List.isEmpty_iff.1 h)
      exact iff_of_true (by rw [if_neg hsome]; omega) he
  rw [halm, alarmsOf, ← List.isEmpty_eq_false_iff, List.isEmpty_eq_false_iff_exists_mem]
  simp

/-! ### The entries (R144) -/

theorem statusByte_unpowered {s : State} (addr : Nat) (h : s.pins.aux3v3 = false) : statusByte s addr = 0 := by
  simp [statusByte, h]

theorem statusByte_railsOff {s : State} {addr : Nat} (h : s.boot.railsOn = false) (ha : addr ≠ 0) : statusByte s addr = 0 := by
  simp [statusByte, h, ha]

theorem statusByte_between (s : State) {addr : Nat} (ha : addr ≠ 0) (hgap : addr < 0x1000 ∨ (0x1040 ≤ addr ∧ addr < 0x2000)
    ∨ (0x2800 ≤ addr ∧ addr < 0x3000) ∨ (0x3800 ≤ addr ∧ addr < 0x40000) ∨ 0x80000 ≤ addr) : statusByte s addr = 0 := by
  have hcarrier : ¬ (0x1000 ≤ addr ∧ addr < 0x1040) := by omega
  have htray : ¬ (0x2000 ≤ addr ∧ addr < 0x2800) := by omega
  have hhub : ¬ (0x3000 ≤ addr ∧ addr < 0x3800) := by omega
  have hleaf : ¬ (0x40000 ≤ addr ∧ addr < 0x80000) := by omega
  simp [statusByte, ha, hcarrier, htray, hhub, hleaf]

section
variable {s : State} (haux : s.pins.aux3v3 = true) (hrails : s.boot.railsOn = true)
include haux hrails

theorem statusByte_carrier {n : Nat} (hn : n < 64) : statusByte s (fsCarrier n) = withAlarm s (fsCarrier n) (carrierBits s n) := by
  have hin : 0x1000 ≤ 0x1000 + n ∧ 0x1000 + n < 0x1040 := by omega
  simp [statusByte, haux, hrails, fsCarrier, hin]

theorem statusByte_tray {t : Nat} (ht : t < 2048) : statusByte s (fsTray t) = withAlarm s (fsTray t) (trayBits s t) := by
  have hcarrier : ¬ (0x1000 ≤ 0x2000 + t ∧ 0x2000 + t < 0x1040) := by omega
  have hin : 0x2000 ≤ 0x2000 + t ∧ 0x2000 + t < 0x2800 := by omega
  simp [statusByte, haux, hrails, fsTray, hcarrier, hin]

theorem statusByte_leaf {l : Nat} (hl : l < 262144) : statusByte s (fsLeaf l) = withAlarm s (fsLeaf l) (leafBits s l) := by
  have hcarrier : ¬ (0x1000 ≤ 0x40000 + l ∧ 0x40000 + l < 0x1040) := by omega
  have htray : ¬ (0x2000 ≤ 0x40000 + l ∧ 0x40000 + l < 0x2800) := by omega
  have hhub : ¬ (0x3000 ≤ 0x40000 + l ∧ 0x40000 + l < 0x3800) := by omega
  have hin : 0x40000 ≤ 0x40000 + l ∧ 0x40000 + l < 0x80000 := by omega
  simp [statusByte, haux, hrails, fsLeaf, hcarrier, htray, hhub, hin]

/-- A carrier's entry shows its STATE field, and ALM. -/
theorem statusByte_carrier_shows {n : Nat} (hn : n < 64) : statusByte s (fsCarrier n) / 8 % 8 = carrierStateCode s n
    ∧ (128 ≤ statusByte s (fsCarrier n) ↔
      ∃ p, p ∈ s.sources ∧ p.2.openAlarm = true ∧ (entriesOfSource s p.1).contains (fsCarrier n) = true) := by
  have hstate := carrierStateCode_lt s n
  have hfield := carrierBits_div s n
  have hlow : carrierBits s n < 64 := by omega
  have hmod := withAlarm_mod s (fsCarrier n) hlow
  rw [statusByte_carrier haux hrails hn]
  exact ⟨by omega, withAlarm_alm s _ hlow⟩

theorem statusByte_tray_shows {t : Nat} (ht : t < 2048) : statusByte s (fsTray t) / 16 % 4 = trayStateCode s t := by
  have hstate := trayStateCode_lt s t
  have hfield := trayBits_div s t
  have hmod := withAlarm_mod s (fsTray t) (low := trayBits s t) (by omega)
  rw [statusByte_tray haux hrails ht]
  omega

theorem statusByte_leaf_shows {l : Nat} (hl : l < 262144) (hstate : (s.ctx l).state < 8) :
    statusByte s (fsLeaf l) / 8 % 8 = (s.ctx l).state := by
  have hfield := leafBits_div s l
  have hmod := withAlarm_mod s (fsLeaf l) (low := leafBits s l) (by omega)
  rw [statusByte_leaf haux hrails hl]
  omega
end

/-- Port `x` drives the status byte, or what its test pattern makes of the address (R143, R148). -/
theorem fspRead_patterns (s : State) (x addr : Nat) :
    (s.nat (Od.testPattern x) = 0 → fspRead s x addr = statusByte s addr)
    ∧ (s.nat (Od.testPattern x) = 1 → fspRead s x addr = addr % 256)
    ∧ (s.nat (Od.testPattern x) = 2 → fspRead s x addr = addr / 256 % 256)
    ∧ (s.nat (Od.testPattern x) = 3 → fspRead s x addr % 16 = addr / 65536 % 16 ∧ fspRead s x addr / 16 = 15 - addr / 65536 % 16) := by
  refine ⟨fun h => ?_, fun h => ?_, fun h => ?_, fun h => ?_⟩ <;> simp only [fspRead, h]
  omega

/-! ### Hold bits (R146) -/

theorem State.held_hold_same (s : State) (addr bit : Nat) : (s.hold addr bit).held addr bit = true := by
  by_cases h : addr * 8 + bit ∈ s.holds <;> simp [State.hold, State.held, h]

theorem holdFalls_self (addr bit : Nat) : holdFalls addr bit (addr * 8 + bit) = true := by
  simp [holdFalls]

/-- With a hold bit no other one falls: the mark of injection is bit 6. -/
theorem holdFalls_other {addr bit a b : Nat} (hb : b < 6) (hbit : bit < 6) (hne : (a, b) ≠ (addr, bit)) :
    holdFalls addr bit (a * 8 + b) = false := by
  have hself : a * 8 + b ≠ addr * 8 + bit := by
    intro h
    exact hne (Prod.ext (by simp only; omega) (by simp only; omega))
  have hmark : a * 8 + b ≠ addr * 8 + 6 := by omega
  simp [holdFalls, hself, hmark]

/-- The hold bits left when hold bit `bit` of the entry at `addr` has fallen. -/
theorem held_filter (s : State) (addr bit a b : Nat) :
    State.held { s with holds := s.holds.filter fun h => !holdFalls addr bit h } a b =
      (s.held a b && !holdFalls addr bit (a * 8 + b)) := by
  simp [State.held, List.contains_eq_mem]

/-- Settles O27: the rules above, one for each clause. -/
theorem statusReachesBusAndPort : Obligations.StatusReachesBusAndPort := by
  unfold Obligations.StatusReachesBusAndPort
  refine ⟨⟨fun s p j => yields_tpdoEventTimer, ?sample, fun s p j => tpdoSample_off, fun s => rfl, ?send, ?quiet, ?waits,
    fun s p => yields_emcyInhibitExpired_none, fun s p key raised m rest => emcyInhibitExpired_sends⟩,
    fun s x addr _ => fspRead_patterns s x addr, fun s addr => statusByte_unpowered addr, fun s addr => statusByte_railsOff,
    fun s addr => statusByte_between s, fun s n hn ha hr => statusByte_carrier_shows ha hr hn,
    fun s t ht ha hr => statusByte_tray_shows ha hr ht, fun s l hl ha hr => statusByte_leaf_shows ha hr hl, fun s addr bit => rfl,
    ?hold⟩
  case sample =>
    intro s p j hon
    refine ⟨_, rfl, fun hl hi => ?_, fun hl hi => ?_, fun hl => ?_⟩ <;> rw [tpdoSample_on hon]
    · exact tpdoJudge_sends (by simp) (by simpa using hl) (by simpa using hi)
    · exact tpdoJudge_inhibited (v := tpdoPayload s p j) (by simp) (by simpa using hl) (by simpa using hi)
    · exact tpdoJudge_unchanged (v := tpdoPayload s p j) (by simp) (by simpa using hl)
  case send =>
    intro s p j v _
    rw [tpdoSend_tpdo]
    exact ⟨rfl, rfl, rfl⟩
  case quiet =>
    intro s p j hp hj hw
    have h := yields_tpdoInhibitExpired (s := s) hp hj
    simpa [hw] using h
  case waits =>
    intro s p j v hp hj hw hon hv hl
    have h := yields_tpdoInhibitExpired (s := s) hp hj
    rw [hw, hon, tpdoJudge_sends (v := v) (by simpa using hv) (by simpa using hl) (by simp)] at h
    exact h
  case hold =>
    intro s addr bit
    refine ⟨s.held_hold_same addr bit, ?_, fun a b hb hbit hne => ?_⟩
    · simp [held_filter, holdFalls_self]
    · simp [held_filter, holdFalls_other hb hbit hne]

end Sys2Proof.Machine
end

section
/-! SUPPORT. Proofs: what an occurrence of a fault source, its condition's end and its hold bit do, and the state that refutes O59. -/

open Sys2Proof Sys2Proof.Machine

namespace Sys2Proof.Machine

/-! ### Sources and the reports of them -/

@[simp] theorem State.source_setSource (s : State) (k j : Nat) (x : Source) :
    (s.setSource k x).source j = if j = k then x else s.source j := Tbl.get_put ..

@[simp] theorem State.source_setN (s : State) (k n j : Nat) : (s.setN k n).source j = s.source j := rfl

theorem State.source_congr {s t : State} (h : t.sources = s.sources) (j : Nat) : t.source j = s.source j := by
  rw [State.source, h, State.source]

theorem State.nat_congr {s t : State} (h : t.od = s.od) (k : Nat) : t.nat k = s.nat k := by
  rw [State.nat, State.val, h, State.nat, State.val]

/-- From `s` to `t` the sources stay as they are, but that a path may have delivered `key` (R492); no entry has been numbered. -/
structure Reported (key : Nat) (s t : State) : Prop where
  source : ∀ j, t.source j = s.source j ∨ (j = key ∧ (s.source j).st = 1 ∧ t.source j = { s.source j with st := 2 })
  seq : t.nat Od.nextEntrySeq = s.nat Od.nextEntrySeq

namespace Reported
variable {key : Nat} {s t u : State}

theorem of_sources (hs : t.sources = s.sources) (hseq : t.nat Od.nextEntrySeq = s.nat Od.nextEntrySeq) : Reported key s t :=
  ⟨fun j => .inl (State.source_congr hs j), hseq⟩

theorem of_fields (hs : t.sources = s.sources) (hod : t.od = s.od) : Reported key s t := of_sources hs (State.nat_congr hod _)

theorem refl (key : Nat) (s : State) : Reported key s s := of_fields rfl rfl

theorem trans (hst : Reported key s t) (htu : Reported key t u) : Reported key s u := by
  refine ⟨fun j => ?_, htu.seq.trans hst.seq⟩
  rcases hst.source j with h | ⟨hj, h1, h⟩
  · simpa only [h] using htu.source j
  · rcases htu.source j with h' | ⟨-, h1', -⟩
    · exact .inr ⟨hj, h1, h'.trans h⟩
    · simp [h] at h1'

/-- A value stored in another object than `NextEntrySeq` changes nothing here. -/
theorem setVal {k : Nat} (v : Val) (h : Od.nextEntrySeq ≠ k) : Reported key s (s.setVal k v) :=
  of_sources rfl (State.nat_setVal_of_ne s v h)

theorem foldl {α : Type} {f : State → α → State} (hf : ∀ s a, Reported key s (f s a)) (l : List α) (s : State) :
    Reported key s (l.foldl f s) := by
  induction l generalizing s with
  | nil => exact refl key s
  | cons a l ih => exact (hf s a).trans (ih (f s a))

/-- A source other than `key` is as it was. -/
theorem source_other (h : Reported key s t) {j : Nat} (hj : j ≠ key) : t.source j = s.source j :=
  (h.source j).resolve_right fun h' => hj h'.1

end Reported

theorem nextEntrySeq_ne_of_idx {idx sub : Nat} (inst : Nat) (hi : idx < 65536) (hs : sub < 256) (h : 0x2200 ≠ idx) :
    Od.nextEntrySeq ≠ odKey idx inst sub :=
  odKey_ne_of_idx 0 inst (by decide) hi (by decide) hs h

theorem reported_delivered (s : State) (key : Nat) : Reported key s (s.delivered key) := by
  unfold State.delivered
  extract_lets x
  split
  next h1 =>
    refine ⟨fun j => ?_, rfl⟩
    by_cases hj : j = key
    · subst hj
      exact .inr ⟨rfl, h1, by simp [x]⟩
    · exact .inl (by simp [hj])
  next => exact .refl key s

theorem reported_emcyPort (s : State) (p key : Nat) (raised : Bool) (flags : Nat) : Reported key s (s.emcyPort p key raised flags) := by
  unfold State.emcyPort
  extract_lets c m t
  have hsent : Reported key s t := .of_fields rfl rfl
  split
  · exact .refl key s
  · split
    · split
      · exact .of_fields rfl rfl
      · exact .setVal _ (nextEntrySeq_ne_of_idx p (by decide) (by decide) (by decide))
    · split
      · exact hsent.trans (reported_delivered t key)
      · exact hsent

theorem reported_emcy (s : State) (key : Nat) (raised : Bool) (flags : Nat) : Reported key s (s.emcy key raised flags) :=
  (reported_emcyPort s 0 key raised flags).trans (reported_emcyPort _ 1 key raised flags)

theorem reported_notifyAll (s : State) (key bit kind : Nat) (content : Bytes) : Reported key s (s.notifyAll bit kind content).2 := by
  rw [State.notifyAll_eq]
  exact .of_fields rfl rfl

theorem reported_countEv (s : State) (key cls inst ev n : Nat) (injected : Bool) :
    Reported key s (s.countEv cls inst ev n injected) := by
  unfold State.countEv
  split
  · exact .refl key s
  · refine .foldl (fun s c => ?_) _ s
    have hcount : ∀ n, Reported key s (s.setN (Od.counterCurrent c) n) := fun n =>
      .setVal _ (nextEntrySeq_ne_of_idx c (by decide) (by decide) (by decide))
    split
    · exact (hcount _).trans (.of_fields rfl rfl)
    · exact hcount _

theorem reported_peak (s : State) (key : Nat) {k : Nat} (n : Nat) (h : Od.nextEntrySeq ≠ k) : Reported key s (s.peak k n) := by
  unfold State.peak
  split
  · exact .setVal _ h
  · exact .refl key s

/-- The sessions are told of a source, and a path that delivers the news is noted. -/
theorem reported_tell (s : State) (key bit kind : Nat) (content : Bytes) : Reported key s
    (if (s.notifyAll bit kind content).1 then (s.notifyAll bit kind content).2.delivered key else (s.notifyAll bit kind content).2) := by
  split
  · exact (reported_notifyAll s key bit kind content).trans (reported_delivered _ key)
  · exact reported_notifyAll s key bit kind content

/-! ### Raising (R492, R493) -/

/-- No slot is left for an entry of the source. -/
def queueFull (s : State) (key : Nat) : Bool := !srcCritical key && decide (4032 ≤ s.entriesOf false)

/-- A source that has just been raised, with its entry where it has got one. -/
def Source.raised (x : Source) (e : Option QEntry) (injected : Bool) : Source :=
  { x with st := 1, entry := e, occurrences := min (x.occurrences + 1) 4294967295, injAny := injected, realAny := !injected }

/-- The entry that a raising makes. -/
def newEntry (s : State) (unit : Nat) (injected : Bool) : QEntry :=
  { seq := s.nat Od.nextEntrySeq, first := s.stampNow, last := s.stampNow, count := 1, injLatest := injected, injAny := injected,
    realAny := !injected, unit := unit }

theorem raiseEntry_full {s : State} {key : Nat} (unit : Nat) (injected : Bool) (h : queueFull s key = true) :
    Reported key (s.setSource key ((s.source key).raised none injected)) (s.raiseEntry key unit injected) := by
  unfold queueFull at h
  simp only [State.raiseEntry, h, if_true]
  refine .trans (.trans ?_ (reported_countEv _ key 7 0 2 1 injected)) (reported_emcy _ key true _)
  exact .setVal _ (by decide)

theorem raiseEntry_room {s : State} {key : Nat} (unit : Nat) (injected : Bool) (h : queueFull s key = false) :
    Reported key ((s.setSource key ((s.source key).raised (some (newEntry s unit injected)) injected)).setN Od.nextEntrySeq
      (s.nat Od.nextEntrySeq + 1)) (s.raiseEntry key unit injected) := by
  unfold queueFull at h
  simp only [State.raiseEntry, h, Bool.false_eq_true, if_false]
  have hpeak := fun s n => reported_peak s key (k := Od.entriesHighWater) n (by decide)
  exact (((hpeak _ _).trans (reported_countEv _ key 7 0 1 1 injected)).trans (reported_tell _ key 0 2 _)).trans
    (reported_emcy _ key true _)

/-- Raising one source changes no other. -/
theorem raiseEntry_source_other {s : State} {key j : Nat} (unit : Nat) (injected : Bool) (hj : j ≠ key) :
    (s.raiseEntry key unit injected).source j = s.source j := by
  cases h : queueFull s key with
  | true =>
    rw [(raiseEntry_full unit injected h).source_other hj]
    simp [hj]
  | false =>
    rw [(raiseEntry_room unit injected h).source_other hj]
    simp [hj]

/-- What an occurrence leaves of a source before it is raised: a condition has arisen, for its real or its injected cause. -/
def Source.struck (x : Source) (key : Nat) (injected : Bool) : Source :=
  if srcMomentary key then x else if injected then { x with inj := true } else { x with real := true }

theorem Source.struck_entry (x : Source) (key : Nat) (injected : Bool) : (x.struck key injected).entry = x.entry := by
  unfold Source.struck
  split
  · rfl
  · split <;> rfl

theorem Source.struck_occurrences (x : Source) (key : Nat) (injected : Bool) :
    (x.struck key injected).occurrences = x.occurrences := by
  unfold Source.struck
  split
  · rfl
  · split <;> rfl

/-- A lost entry raises `EVQ_OVERFLOW`, the source 0, or occurs to it again (R493). -/
def overflowRaised (s : State) : State :=
  if (s.source 0).present then s
  else if (s.source 0).st = 0 then (s.setSource 0 { s.source 0 with real := true }).raiseEntry 0 0 false
  else (s.setSource 0 { s.source 0 with real := true }).raiseAgain 0 0 false

theorem overflowRaised_source {s : State} {key : Nat} (hkey : key ≠ 0) : (overflowRaised s).source key = s.source key := by
  unfold overflowRaised
  split
  · rfl
  · split
    · rw [raiseEntry_source_other _ _ hkey]
      simp [hkey]
    · simp [State.raiseAgain, hkey]

/-- An occurrence of a source that is `CLEAR` raises it. -/
theorem occur_of_clear {s : State} {key : Nat} (unit : Nat) (injected : Bool) (hst : (s.source key).st = 0)
    (hp : (s.source key).present = false) : s.occur key unit injected =
      if queueFull (s.setSource key ((s.source key).struck key injected)) key
      then overflowRaised ((s.setSource key ((s.source key).struck key injected)).raiseEntry key unit injected)
      else (s.setSource key ((s.source key).struck key injected)).raiseEntry key unit injected := by
  unfold State.occur
  extract_lets x was x' t s' o s''
  have hwas : ¬ (was && !srcMomentary key) = true := by simp [was, x, hp]
  rw [if_neg hwas, if_pos hst]
  rfl

/-- From `s` to `t` the source has become `RAISED` or, once a path has delivered it, `NOTIFIED`, with one new entry (R492). -/
def RaisedWithEntry (key : Nat) (s t : State) : Prop :=
  ((t.source key).st = 1 ∨ (t.source key).st = 2) ∧ (t.source key).entry.isSome = true
    ∧ (t.source key).occurrences = min ((s.source key).occurrences + 1) 4294967295
    ∧ t.nat Od.nextEntrySeq = s.nat Od.nextEntrySeq + 1

/-- Where a slot is free the source gets its entry. -/
theorem occur_of_clear_room {s : State} {key : Nat} (unit : Nat) (injected : Bool) (hst : (s.source key).st = 0)
    (hp : (s.source key).present = false) (hroom : queueFull (s.setSource key ((s.source key).struck key injected)) key = false) :
    RaisedWithEntry key s (s.occur key unit injected) := by
  rw [occur_of_clear unit injected hst hp, if_neg (by simp [hroom])]
  have hr := raiseEntry_room unit injected hroom
  have hocc := (s.source key).struck_occurrences key injected
  refine ⟨?_, ?_, ?_, hr.seq.trans (State.nat_setN_same ..)⟩ <;> rcases hr.source key with h | ⟨-, -, h⟩ <;> simp [h, Source.raised, hocc]

/-- Where no slot is free the source has no entry. -/
theorem occur_of_clear_full {s : State} {key : Nat} (unit : Nat) (injected : Bool) (hkey : key ≠ 0) (hst : (s.source key).st = 0)
    (hp : (s.source key).present = false) (hfull : queueFull (s.setSource key ((s.source key).struck key injected)) key = true) :
    ((s.occur key unit injected).source key).entry = none := by
  rw [occur_of_clear unit injected hst hp, if_pos hfull, overflowRaised_source hkey]
  rcases (raiseEntry_full unit injected hfull).source key with h | ⟨-, -, h⟩ <;> simp [h, Source.raised]

/-! ### The queue's occupancy under an update of one source -/

theorem Tbl.get_of_forall_lt {α : Type} {d : Nat → α} {t : List (Nat × α)} {i : Nat} (h : ∀ a ∈ t, i < a.1) : Tbl.get d t i = d i := by
  induction t with
  | nil => rfl
  | cons a t ih =>
    obtain ⟨ha, ht⟩ := List.forall_mem_cons.1 h
    rw [Tbl.get, if_neg (by omega), ih ht]

/-- In an ascending table an update that keeps what `q` says of its key lists no more entries that satisfy `q`. -/
theorem Tbl.countP_ins_le {α : Type} {d : Nat → α} {t : List (Nat × α)} {i : Nat} {x : α} (q : Nat × α → Bool)
    (ht : t.Pairwise fun a b => a.1 < b.1) (hx : q (i, x) = q (i, Tbl.get d t i)) (hd : q (i, d i) = false) :
    (Tbl.ins t i x).countP q ≤ t.countP q := by
  induction t with
  | nil =>
    have hx' : q (i, x) = false := hx.trans hd
    simp [Tbl.ins, hx']
  | cons a t ih =>
    obtain ⟨k, v⟩ := a
    obtain ⟨hk, htail⟩ := List.pairwise_cons.1 ht
    rw [Tbl.ins]
    split
    next hlt =>
      have hget : Tbl.get d ((k, v) :: t) i = d i := Tbl.get_of_forall_lt fun a ha => by
        rcases List.mem_cons.1 ha with rfl | ha
        · exact hlt
        · exact Nat.lt_trans hlt (hk a ha)
      rw [hget, hd] at hx
      simp [List.countP_cons, hx]
    next =>
      split
      next heq =>
        subst heq
        have hx' : q (i, x) = q (i, v) := by simpa [Tbl.get] using hx
        simp [List.countP_cons, hx']
      next heq =>
        have hx' : q (i, x) = q (i, Tbl.get d t i) := by simpa [Tbl.get, Ne.symm heq] using hx
        simpa [List.countP_cons] using ih htail hx'

theorem entriesOf_setSource_le {s : State} {key : Nat} {x : Source} (critical : Bool)
    (hs : Tbl.wf (fun _ => ({} : Source)) s.sources = true) (hx : x.entry = (s.source key).entry) :
    (s.setSource key x).entriesOf critical ≤ s.entriesOf critical := by
  simp only [State.entriesOf, State.setSource_sources, ← List.countP_eq_length_filter, Tbl.put]
  split
  · exact List.Sublist.countP_le List.filter_sublist
  · exact Tbl.countP_ins_le (d := fun _ => {}) _ ((Tbl.wf_iff _).1 hs).1 (by simp [hx, State.source]) rfl

/-! ### What O59 says of each kind of occurrence

Its clause for a source that is `CLEAR` needs the table of sources in its canonical form, as every well-formed state has it (`Tidy`). -/

theorem yields_sourceOccurrence {s : State} {key : Nat} (unit : Nat) (hx : srcExists key = true) (haux : s.pins.aux3v3 = true)
    (hdown : srcDown s key = false) (hbridge : key ≠ 0x12) : Yields (.sourceOccurrence key unit) s
      (condJudge (occurHold (s.occur key (if 0xD ≤ key ∧ key ≤ 0x10 then unit else srcUnit key) false) key) key) := by
  change execSourceOccurrence key unit s = _
  simp [execSourceOccurrence, onUnit, hx, haux, hdown, hbridge]

theorem yields_conditionEnd {s : State} {key : Nat} (hx : srcExists key = true) :
    Yields (.conditionEnd key) s (condJudge (s.setCond key false) key) := by
  change execConditionEnd key s = _
  simp [execConditionEnd, onUnit, hx]

theorem exec_noSuchSource (s : State) {key : Nat} (unit : Nat) (hx : srcExists key = false) :
    exec (.sourceOccurrence key unit) s = .fault .noSuchUnit ∧ exec (.conditionEnd key) s = .fault .noSuchUnit := by
  constructor
  · change execSourceOccurrence key unit s = _
    simp [execSourceOccurrence, onUnit, hx]
  · change execConditionEnd key s = _
    simp [execConditionEnd, onUnit, hx]

/-- No judgement hangs on a lane's or a leaf's source. -/
theorem condJudge_of_lane_or_leaf (s : State) {key : Nat} (h : (0x1000 ≤ key ∧ key < 0x2000) ∨ 0xA000 ≤ key) : condJudge s key = s := by
  have hmodule : ¬ key < 0x800 := by omega
  have hcarrier : ¬ key < 0x1000 := by omega
  rcases h with ⟨-, hlane⟩ | hleaf
  · rw [condJudge, if_neg hmodule, if_neg hcarrier, if_pos hlane]
  · have hlane : ¬ key < 0x2000 := by omega
    have htray : ¬ key < 0xA000 := by omega
    rw [condJudge, if_neg hmodule, if_neg hcarrier, if_neg hlane, if_neg htray]

/-- In a well-formed state an occurrence of a source that is `CLEAR` gets its entry unless the queue is full. -/
theorem occur_of_clear_tidy {s : State} {key : Nat} (unit : Nat) (injected : Bool) (hs : Tidy s) (hst : (s.source key).st = 0)
    (hp : (s.source key).present = false) (hroom : srcCritical key = true ∨ s.entriesOf false < 4032) :
    RaisedWithEntry key s (s.occur key unit injected) := by
  refine occur_of_clear_room unit injected hst hp ?_
  have hle := entriesOf_setSource_le false hs.sources ((s.source key).struck_entry key injected)
  rcases hroom with hcrit | hfree
  · simp [queueFull, hcrit]
  · have hfree' := Nat.lt_of_le_of_lt hle hfree
    simp [queueFull, Nat.not_le.2 hfree']

/-- A further occurrence of an open momentary source is counted in its entry; none is added, and nothing is sent. -/
theorem occur_of_open {s : State} {key : Nat} (unit : Nat) (injected : Bool) (hst : (s.source key).st = 1 ∨ (s.source key).st = 2)
    (hm : srcMomentary key = true) : ((s.occur key unit injected).source key).st = (s.source key).st
      ∧ ((s.occur key unit injected).source key).occurrences = min ((s.source key).occurrences + 1) 4294967295
      ∧ ((s.occur key unit injected).source key).entry.isSome = (s.source key).entry.isSome
      ∧ (s.occur key unit injected).od = s.od ∧ (s.occur key unit injected).outbox = s.outbox := by
  have hopen : (s.source key).st ≠ 0 := by omega
  have hocc : s.occur key unit injected = (s.setSource key (s.source key)).raiseAgain key unit injected := by
    simp [State.occur, hm, hopen]
  rw [hocc]
  simp [State.raiseAgain]

/-- The end of a condition leaves an open source open. -/
theorem endCond_st {s : State} {key : Nat} (injected : Bool) (hst : (s.source key).st ≠ 3) :
    ((s.endCond key injected).source key).st = (s.source key).st := by
  cases injected <;> simp [State.endCond, hst]

theorem State.held_hold (s : State) (a b addr bit : Nat) (hb : b < 8) (hbit : bit < 8) :
    (s.hold a b).held addr bit = (s.held addr bit || decide (addr = a ∧ bit = b)) := by
  have hkey : addr * 8 + bit = a * 8 + b ↔ addr = a ∧ bit = b := by omega
  rw [Bool.eq_iff_iff]
  by_cases h : a * 8 + b ∈ s.holds
  · simp only [State.hold, State.held, List.contains_eq_mem, h, decide_true, if_true, Bool.or_eq_true, decide_eq_true_eq]
    exact ⟨.inl, fun hor => hor.elim id fun heq => hkey.2 heq ▸ h⟩
  · simp [State.hold, State.held, h, hkey, or_comm]

/-- The hold bit of an occurrence: `OVLP` of the hub where a leaf is homed for its first source, `SEAL` of a tray for its source 6 (R146). -/
theorem occurHold_held (s : State) (key addr bit : Nat) (hbit : bit < 8) : (occurHold s key).held addr bit = (s.held addr bit
    || (decide (0x10000 ≤ key ∧ (key - 0x10000) % 4 = 0) && decide (addr = fsHub (s.ctx (srcUnit key)).home ∧ bit = 2))
    || (decide (0x2000 ≤ key ∧ key < 0x10000 ∧ (key - 0x2000) % 16 = 6) && decide (addr = fsTray (srcUnit key) ∧ bit = 3))) := by
  unfold occurHold
  split
  next hleaf =>
    have hnot : ¬ key < 0x10000 := Nat.not_lt.2 hleaf
    split
    next hfirst => simp [s.held_hold _ 2 addr bit (by decide) hbit, hleaf, hfirst, hnot]
    next hfirst => simp [hfirst, hnot]
  next hleaf =>
    split
    next htray => simp [s.held_hold _ 3 addr bit (by decide) hbit, hleaf, htray, Nat.lt_of_not_le hleaf]
    next htray =>
      have hseal : ¬ (0x2000 ≤ key ∧ key < 0x10000 ∧ (key - 0x2000) % 16 = 6) := fun h => htray ⟨h.1, h.2.2⟩
      simp [hleaf, hseal]

/-- The clauses of O59 but the one for a source that is `CLEAR` hold of every state. -/
theorem sourcesOccurAndHold_of_clear (hclear : ∀ (s : State) (key unit : Nat) (injected : Bool), key ≠ 0 → (s.source key).st = 0 →
    (s.source key).present = false → (srcCritical key = true ∨ s.entriesOf false < 4032) →
    RaisedWithEntry key s (s.occur key unit injected)) : Obligations.SourcesOccurAndHold := by
  unfold Obligations.SourcesOccurAndHold
  exact ⟨⟨fun s key unit hx haux hdown hbridge => yields_sourceOccurrence unit hx haux hdown hbridge,
    fun s key hx => yields_conditionEnd hx, fun s key h => condJudge_of_lane_or_leaf s h, fun s key unit hx => exec_noSuchSource s unit hx,
    hclear, fun s key unit injected hst hm => occur_of_open unit injected hst hm, fun s key injected hst => endCond_st injected hst⟩,
    occurHold_held⟩

/-! ### The state that refutes O59

Its table of sources lists the key 0x20 behind the larger key 0x21, so that the state is not `Tidy`. An update of source 0x20 then lists it a
second time, and one more entry is counted. -/

/-- The entry of a source that has occurred once. -/
def onceQueued : QEntry :=
  { seq := 0, first := [], last := [], count := 1, injLatest := false, injAny := false, realAny := true, unit := 0 }

/-- `n + 2` non-critical entries, the last of them of a source that is `CLEAR`. -/
def misplacedSource (n : Nat) : State :=
  { sources := (0x21, { st := 1, entry := some onceQueued }) ::
      (List.replicate n (0x21, { st := 1, entry := some onceQueued }) ++ [(0x20, { entry := some onceQueued })]) }

theorem Tbl.get_replicate_append {α : Type} {d : Nat → α} {k i : Nat} (v : α) (n : Nat) (t : List (Nat × α)) (h : k ≠ i) :
    Tbl.get d (List.replicate n (k, v) ++ t) i = Tbl.get d t i := by
  induction n with
  | zero => rfl
  | succ n ih => rw [List.replicate_succ, List.cons_append, Tbl.get, if_neg h, ih]

theorem misplacedSource_source (n : Nat) : (misplacedSource n).source 0x20 = { entry := some onceQueued } := by
  rw [State.source, misplacedSource, Tbl.get, if_neg (by decide), Tbl.get_replicate_append _ _ _ (by decide)]
  rfl

theorem misplacedSource_entries (n : Nat) : (misplacedSource n).entriesOf false = n + 2 := by
  simp [State.entriesOf, misplacedSource, List.filter_append, srcCritical]

theorem misplacedSource_entries_update (n : Nat) :
    ((misplacedSource n).setSource 0x20 { entry := some onceQueued }).entriesOf false = n + 3 := by
  simp [State.entriesOf, misplacedSource, Tbl.put, Tbl.ins, List.filter_append, srcCritical]

/-- Refutes O59: its clause for a source that is `CLEAR` is claimed of every state, and in `misplacedSource 4029` the occurrence of source 0x20
finds 4,031 entries before the update of its condition and 4,032 after it, so that the source gets no entry. Of well-formed states the
clause holds (`occur_of_clear_tidy`), and the other clauses hold of every state (`sourcesOccurAndHold_of_clear`). -/
theorem not_sourcesOccurAndHold : ¬ Obligations.SourcesOccurAndHold := by
  unfold Obligations.SourcesOccurAndHold
  rintro ⟨⟨-, -, -, -, hclear, -, -⟩, -⟩
  have hsource := misplacedSource_source 4029
  have hst : ((misplacedSource 4029).source 0x20).st = 0 := by rw [hsource]
  have hp : ((misplacedSource 4029).source 0x20).present = false := by
    rw [hsource]
    rfl
  have hroom : (misplacedSource 4029).entriesOf false < 4032 := by
    rw [misplacedSource_entries]
    decide
  obtain ⟨-, hentry, -, -⟩ := hclear (misplacedSource 4029) 0x20 0 false (by decide) hst hp (.inr hroom)
  have hfull : queueFull ((misplacedSource 4029).setSource 0x20 (((misplacedSource 4029).source 0x20).struck 0x20 false)) 0x20 = true := by
    have hstruck : ((misplacedSource 4029).source 0x20).struck 0x20 false = { entry := some onceQueued } := by
      rw [hsource]
      rfl
    rw [hstruck, queueFull, misplacedSource_entries_update]
    decide
  rw [occur_of_clear_full 0 false (by decide) hst hp hfull] at hentry
  cases hentry

end Sys2Proof.Machine
end

section
/-! SUPPORT. Proofs: what stays of a carrier's line while queues, sources, trays and slots are brought up to date (O38). -/

open Sys2Proof Sys2Proof.Machine

namespace Sys2Proof.Machine

/-! ### What stays of a carrier's line when something else is brought up to date -/

/-- The objects of the carriers (chapters 06 to 09) and of their queues (R37). -/
def lineObject (key : Nat) : Prop := keyIdx key = 0x2040 ∨ (0x3000 ≤ keyIdx key ∧ keyIdx key < 0x4000)

/-- An index and a sub of another object. -/
def offLine (idx sub : Nat) : Bool := decide (sub < 256 ∧ idx ≠ 0x2040 ∧ (idx < 0x3000 ∨ (0x4000 ≤ idx ∧ idx < 65536)))

theorem ne_odKey_of_lineObject {key idx sub : Nat} (inst : Nat) (hk : lineObject key) (ho : offLine idx sub = true) :
    key ≠ odKey idx inst sub := by
  rintro rfl
  obtain ⟨hs, hne, hr⟩ := of_decide_eq_true ho
  rw [lineObject, keyIdx_odKey inst (by omega) hs] at hk
  omega

theorem lineObject_odKey {idx sub : Nat} (inst : Nat)
    (h : sub < 256 ∧ (idx = 0x2040 ∨ (0x3000 ≤ idx ∧ idx < 0x4000)) := by decide) : lineObject (odKey idx inst sub) := by
  rw [lineObject, keyIdx_odKey inst (by omega) h.1]
  exact h.2

/-- From `s` to `t` the carriers' objects and their engines' own state are the same. -/
structure LineSame (s t : State) : Prop where
  val : ∀ key, lineObject key → t.val key = s.val key
  engines : t.engines = s.engines

namespace LineSame
variable {s t u : State}

theorem refl (s : State) : LineSame s s := ⟨fun _ _ => rfl, rfl⟩

theorem nat (h : LineSame s t) {key : Nat} (hk : lineObject key) : t.nat key = s.nat key := congrArg Val.nat (h.val key hk)

theorem engine (h : LineSame s t) (n : Nat) : t.engine n = s.engine n := by
  rw [State.engine, h.engines, State.engine]

/-- An update of other fields than the objects and the engines. -/
theorem of_fields (h : LineSame s t) (hod : u.od = t.od) (he : u.engines = t.engines) : LineSame s u := by
  refine ⟨fun key hk => ?_, he.trans h.engines⟩
  rw [State.val, hod]
  exact h.val key hk

theorem setVal (h : LineSame s t) {idx inst sub : Nat} (v : Val) (ho : offLine idx sub = true := by decide) :
    LineSame s (t.setVal (odKey idx inst sub) v) := by
  refine ⟨fun key hk => ?_, h.engines⟩
  rw [State.val, State.setVal_od, Tbl.get_put, if_neg (ne_odKey_of_lineObject inst hk ho)]
  exact h.val key hk

theorem setN (h : LineSame s t) {idx inst sub : Nat} (n : Nat) (ho : offLine idx sub = true := by decide) :
    LineSame s (t.setN (odKey idx inst sub) n) := h.setVal _ ho

theorem setI (h : LineSame s t) {idx inst sub : Nat} (z : Int) (ho : offLine idx sub = true := by decide) :
    LineSame s (t.setI (odKey idx inst sub) z) := h.setVal _ ho

theorem setB (h : LineSame s t) {idx inst sub : Nat} (b : Bool) (ho : offLine idx sub = true := by decide) :
    LineSame s (t.setB (odKey idx inst sub) b) := h.setVal _ ho

theorem bump (h : LineSame s t) {idx inst sub : Nat} (ho : offLine idx sub = true := by decide) :
    LineSame s (t.bump (odKey idx inst sub)) := h.setVal _ ho

theorem setSource (h : LineSame s t) (k : Nat) (x : Source) : LineSame s (t.setSource k x) := h.of_fields rfl rfl

theorem setTray (h : LineSame s t) (i : Nat) (x : Tray) : LineSame s (t.setTray i x) := h.of_fields rfl rfl

theorem setTrayPath (h : LineSame s t) (i : Nat) (prot : Bool) (p : TrayPath) : LineSame s (t.setTrayPath i prot p) := h.setTray i _

theorem ite {c : Prop} [Decidable c] (ht : LineSame s t) (hu : LineSame s u) : LineSame s (if c then t else u) := by
  split <;> assumption

theorem foldl {α : Type} {f : State → α → State} (h : LineSame s t) (l : List α) (hf : ∀ u a, LineSame s u → LineSame s (f u a)) :
    LineSame s (l.foldl f t) := by
  induction l generalizing t with
  | nil => exact h
  | cons a l ih => exact ih (hf t a h)

theorem foldl_snd {α β : Type} {f : β × State → α → β × State} {r : β × State} (h : LineSame s r.2) (l : List α)
    (hf : ∀ r a, LineSame s r.2 → LineSame s (f r a).2) : LineSame s (l.foldl f r).2 := by
  induction l generalizing r with
  | nil => exact h
  | cons a l ih => exact ih (hf r a h)

end LineSame

section
variable {s t : State}

theorem lineSame_peak (h : LineSame s t) {idx inst sub : Nat} (n : Nat) (ho : offLine idx sub = true := by decide) :
    LineSame s (t.peak (odKey idx inst sub) n) := .ite (h.setVal _ ho) h

/-! Fault sources and performance counters (chapters 16 and 17) -/

theorem lineSame_countEv (h : LineSame s t) (cls inst ev n : Nat) (injected : Bool := false) :
    LineSame s (t.countEv cls inst ev n injected) := by
  refine .ite h (.foldl h _ fun u c hu => ?_)
  have hcount : LineSame s (u.setN (Od.counterCurrent c) (min (u.nat (Od.counterCurrent c) + n) 281474976710655)) := hu.setVal _
  exact .ite (hcount.of_fields rfl rfl) hcount

theorem lineSame_delivered (h : LineSame s t) (key : Nat) : LineSame s (t.delivered key) :=
  .ite (h.of_fields rfl rfl) h

theorem lineSame_emcyPort (h : LineSame s t) (p key : Nat) (raised : Bool) (flags : Nat) :
    LineSame s (t.emcyPort p key raised flags) := by
  unfold State.emcyPort
  extract_lets c m sent
  have hsent : LineSame s sent := h.of_fields rfl rfl
  exact .ite h (.ite (.ite (h.of_fields rfl rfl) (h.setVal _)) (.ite (lineSame_delivered hsent key) hsent))

theorem lineSame_emcy (h : LineSame s t) (key : Nat) (raised : Bool) (flags : Nat) : LineSame s (t.emcy key raised flags) :=
  lineSame_emcyPort (lineSame_emcyPort h 0 key raised flags) 1 key raised flags

theorem lineSame_notifyAll (h : LineSame s t) (bit kind : Nat) (content : Bytes) : LineSame s (t.notifyAll bit kind content).2 := by
  rw [State.notifyAll_eq]
  exact h.of_fields rfl rfl

theorem lineSame_raiseEntry (h : LineSame s t) (key unit : Nat) (injected : Bool) : LineSame s (t.raiseEntry key unit injected) := by
  unfold State.raiseEntry
  extract_lets x full seq e raised counted told delivered
  have hraised : LineSame s raised := h.of_fields rfl rfl
  have hcounted : LineSame s counted :=
    .ite (lineSame_countEv hraised.bump 7 0 2 1 _) (lineSame_countEv (lineSame_peak (hraised.setN _) _) 7 0 1 1 _)
  have htold : LineSame s told.2 := lineSame_notifyAll hcounted 0 2 _
  have hdelivered : LineSame s delivered := .ite hcounted (.ite (lineSame_delivered htold key) htold)
  exact lineSame_emcy hdelivered key true _

theorem lineSame_raiseAgain (h : LineSame s t) (key unit : Nat) (injected : Bool) : LineSame s (t.raiseAgain key unit injected) :=
  h.of_fields rfl rfl

theorem lineSame_occur (h : LineSame s t) (key unit : Nat) (injected : Bool) : LineSame s (t.occur key unit injected) := by
  unfold State.occur
  extract_lets x was x' struck raised o overflow
  have hstruck : LineSame s struck := h.of_fields rfl rfl
  have hraised : LineSame s raised := lineSame_raiseEntry hstruck key unit injected
  have hoverflow : LineSame s overflow := hraised.of_fields rfl rfl
  exact .ite hstruck (.ite (.ite (.ite hraised (.ite (lineSame_raiseEntry hoverflow 0 0 false) (lineSame_raiseAgain hoverflow 0 0 false)))
    hraised) (lineSame_raiseAgain hstruck key unit injected))

theorem lineSame_raise (h : LineSame s t) (key : Nat) : LineSame s (t.raise key) := lineSame_occur h key _ false

theorem lineSame_toClear (h : LineSame s t) (key : Nat) : LineSame s (t.toClear key) :=
  lineSame_emcy (h.setSource key _) key false _

theorem lineSame_endCond (h : LineSame s t) (key : Nat) (injected : Bool) : LineSame s (t.endCond key injected) := by
  unfold State.endCond
  extract_lets x x' ended
  have hended : LineSame s ended := h.setSource key _
  exact .ite (lineSame_toClear hended key) hended

theorem lineSame_overflowCheck (h : LineSame s t) : LineSame s t.overflowCheck := .ite (lineSame_endCond h 0 false) h

theorem lineSame_clearCond (h : LineSame s t) (key : Nat) : LineSame s (t.clearCond key) :=
  lineSame_overflowCheck (lineSame_endCond h key false)

theorem lineSame_setCond (h : LineSame s t) (key : Nat) (present : Bool) : LineSame s (t.setCond key present) :=
  .ite (.ite h (lineSame_raise h key)) (.ite (lineSame_clearCond h key) h)

/-! Trays and their seals (chapters 11 and 12) -/

theorem lineSame_pathJudge (h : LineSame s t) (i : Nat) (prot : Bool) : LineSame s (pathJudge t i prot) :=
  (h.setTrayPath i prot _).setTrayPath i prot _

theorem lineSame_trayRefresh (h : LineSame s t) (i : Nat) : LineSame s (trayRefresh t i) := by
  unfold trayRefresh
  extract_lets judged cond conds a restored request equalised b unprotected other switched failed x timed filled
  have hjudged : LineSame s judged := lineSame_pathJudge (lineSame_pathJudge h i false) i true
  have hconds : LineSame s conds := (hjudged.setN _).setN _
  have hrestored : LineSame s restored := .ite hconds (hconds.setTray i _)
  have hrequest : LineSame s request := hrestored.setN _
  have hequalised : LineSame s equalised := .ite hrequest (hrequest.setB _)
  have hunprotected : LineSame s unprotected := .ite hequalised ((lineSame_setCond (hequalised.setI _) _ _).setTray i _)
  have hswitched : LineSame s switched := lineSame_setCond hunprotected _ _
  have hfailed : LineSame s failed := .ite (lineSame_setCond hswitched _ _) hswitched
  have htimed : LineSame s timed := by
    unfold timed
    split
    · exact hfailed.setTray i _
    · exact hfailed.setTray i _
    · exact hfailed
  have hfilled : LineSame s filled := .ite (htimed.setTray i _) htimed
  exact hfilled.setN _

theorem lineSame_traysRefresh (h : LineSame s t) (n : Nat) : LineSame s (traysRefresh t n) := by
  refine h.foldl _ fun u p hu => .ite (lineSame_trayRefresh hu p.tray) (lineSame_trayRefresh ?_ p.tray)
  exact .ite hu (hu.setTrayPath _ _ _)

theorem lineSame_slotsRefresh (h : LineSame s t) (i : Nat) : LineSame s (slotsRefresh t i) :=
  h.foldl _ fun _ _ hu => hu.setN _

theorem lineSame_setTxPhase (h : LineSame s t) (i : Nat) (prot : Bool) (q : Nat) : LineSame s (t.setN (txPhaseKey i prot) q) := by
  cases prot
  · exact h.setN (idx := 0x4301) (sub := 3) q
  · exact h.setN (idx := 0x4301) (sub := 4) q

theorem lineSame_setRxSeal (h : LineSame s t) (i : Nat) (prot : Bool) (q : Nat) : LineSame s (t.setN (rxSealKey i prot) q) := by
  cases prot
  · exact h.setN (idx := 0x4301) (sub := 5) q
  · exact h.setN (idx := 0x4301) (sub := 6) q

theorem lineSame_rxUnsync (h : LineSame s t) (i : Nat) (prot : Bool) : LineSame s (rxUnsync t i prot) :=
  lineSame_setRxSeal (h.setTrayPath i prot _) i prot _

theorem lineSame_sealTrackEntry (h : LineSame s t) (n : Nat) : LineSame s (sealTrackEntry t n) :=
  h.foldl _ fun _ p hu => .ite (lineSame_slotsRefresh (lineSame_trayRefresh (lineSame_rxUnsync hu p.tray p.prot) p.tray) p.tray) hu

theorem lineSame_sealMismatch (h : LineSame s t) (i : Nat) : LineSame s (sealMismatch t i) :=
  lineSame_trayRefresh (lineSame_setCond h _ _) i

theorem lineSame_epochJudge (h : LineSame s t) (i : Nat) : LineSame s (epochJudge t i) := lineSame_setCond h _ _

theorem lineSame_drawEpoch (h : LineSame s t) (x : Nat) : LineSame s (drawEpoch t x).2 := by
  unfold drawEpoch
  extract_lets e
  split
  · exact h
  · exact h.setN _

theorem lineSame_spanEnd (h : LineSame s t) (i : Nat) (prot : Bool) : LineSame s (spanEnd t i prot) :=
  .ite h (h.setTrayPath i prot _)

theorem lineSame_spanBoundary (h : LineSame s t) (i : Nat) (prot : Bool) (n c : Nat) : LineSame s (spanBoundary t i prot n c) := by
  unfold spanBoundary
  extract_lets phKey p₀ phased q ended p stop x y sel drawn z
  have hphased : LineSame s phased := .ite (lineSame_setTxPhase h i prot _) h
  have hended : LineSame s ended := lineSame_spanEnd hphased i prot
  have hdrawn : LineSame s drawn.2 := lineSame_drawEpoch hended _
  have hstopped := lineSame_setTxPhase (hended.setTrayPath i prot { p with tx := { tag := p.tx.tag } }) i prot 255
  exact .ite hphased (.ite (lineSame_slotsRefresh (lineSame_epochJudge hstopped i) i)
    (.ite (lineSame_slotsRefresh (lineSame_epochJudge (hdrawn.setTrayPath i prot _) i) i) (hended.setTrayPath i prot _)))

theorem lineSame_spansAt (h : LineSame s t) (n c : Nat) : LineSame s (spansAt t n c) :=
  h.foldl _ fun _ p hu => .ite hu (lineSame_spanBoundary hu p.tray p.prot n c)

theorem lineSame_spansDropped (h : LineSame s t) (n : Nat) : LineSame s (spansDropped t n) :=
  h.foldl _ fun _ p hu => .ite (hu.setTrayPath p.tray p.prot _) hu

theorem lineSame_takeTags (h : LineSame s t) (n cap : Nat) : LineSame s (takeTags t n cap).2 :=
  h.foldl _ fun _ p hu => hu.setTrayPath p.tray p.prot _

theorem lineSame_sealArea (h : LineSame s t) (i : Nat) (prot : Bool) (overhead : Nat) (bits : List Bool) :
    LineSame s (sealArea t i prot overhead bits).2 := by
  unfold sealArea
  extract_lets p x key iv ct
  split
  · exact h
  · exact h.setTrayPath i prot _

/-- The notice or message of the next service segment leaves the carriers' objects. -/
theorem lineSame_serviceSegment (h : LineSame s t) (n c cursor : Nat) : LineSame s (serviceSegment t n c cursor).2 := by
  unfold serviceSegment
  split
  · split
    · exact h
    · exact .ite (h.setTray _ _) h
  · extract_lets +onlyGivenNames paths rolling pick
    clear_value pick
    split
    · next p =>
      extract_lets +onlyGivenNames x
      split
      · exact h
      · next r hr =>
        extract_lets +onlyGivenNames q j st drawn e sent
        have hdrawn : LineSame s drawn.2 := by
          unfold drawn
          split
          · exact h
          · exact lineSame_drawEpoch h _
        have hsent : LineSame s sent := .ite (hdrawn.foldl _ fun _ o hu => hu.setTrayPath o.tray o.prot _) hdrawn
        exact hsent.setTrayPath p.tray p.prot _
    · split
      · exact h
      · next p _ => exact h.setTrayPath p.tray p.prot _

/-! Payload (chapters 10, 11 and 13) -/

theorem lineSame_sendPfc (h : LineSame s t) (i q time : Nat) : LineSame s (sendPfc t i q time) := by
  unfold sendPfc
  extract_lets sent
  have hsent : LineSame s sent := h.of_fields rfl rfl
  exact .ite hsent hsent.bump

theorem lineSame_memberTake (h : LineSame s t) (i q : Nat) : LineSame s (memberTake t i q).2 := by
  unfold memberTake
  extract_lets x
  split
  · exact h
  · extract_lets y
    have hset : ∀ z, LineSame s (t.setMember i z) := fun _ => h.of_fields rfl rfl
    split
    · exact lineSame_sendPfc (hset _) i q 0
    · exact hset y

theorem lineSame_nextFrame (h : LineSame s t) (a q : Nat) : LineSame s (nextFrame t a q).2 := by
  induction q with
  | zero => exact h
  | succ q ih =>
    unfold nextFrame
    extract_lets ms last ready
    split
    · exact ih
    · next m hm =>
      have htake := lineSame_memberTake h m.1 q
      split
      · next ht => rwa [ht] at htake
      · next ht =>
        rw [ht] at htake
        exact htake.setTray a _

theorem lineSame_aggStream (h : LineSame s t) (a p fuel : Nat) (bs : List Bool) : LineSame s (aggStream a p fuel bs t).2 := by
  induction fuel generalizing t bs with
  | zero => exact h
  | succ fuel ih =>
    unfold aggStream
    split
    · exact h
    · exact ih (lineSame_nextFrame h a 8) _

theorem lineSame_hubTake (h : LineSame s t) (i p : Nat) : LineSame s (hubTake t i p).2.2.2 := by
  unfold hubTake
  extract_lets x bits padded pos sent taken last
  have htaken : LineSame s taken := h.foldl _ fun u m hu =>
    have hqueue : LineSame s (u.setLeafRun m.2.1 _) := hu.of_fields rfl rfl
    hqueue.bump
  exact htaken.of_fields rfl rfl

theorem lineSame_pathPayload (h : LineSame s t) (i : Nat) (prot : Bool) (f : TrayFeed) (p : Nat) :
    LineSame s (pathPayload t i prot f p).2.2.2 := by
  unfold pathPayload
  extract_lets +onlyGivenNames x fault
  split
  · extract_lets +onlyGivenNames cm client counted
    have hcounted : LineSame s counted := .ite (lineSame_countEv h 2 i 1 cm) h
    exact hcounted.setTrayPath i prot _
  · exact (lineSame_countEv h 2 i 1 _).setTrayPath i prot _
  · extract_lets +onlyGivenNames r
    have hr : LineSame s r.2 := by
      unfold r
      split
      · exact h
      · exact lineSame_aggStream h i p _ _
    exact (lineSame_countEv hr 2 i 1 p).setTrayPath i prot _
  · exact lineSame_hubTake h i p

theorem lineSame_pathArea (h : LineSame s t) (q : Placed) (f : TrayFeed) (len : Nat) : LineSame s (pathArea t q f len).2 := by
  unfold pathArea
  extract_lets i kind status r head area
  have hr : LineSame s r.2.2.2 := lineSame_pathPayload h i q.prot f _
  change LineSame s area.2
  unfold area
  split
  · exact hr
  · exact lineSame_sealArea hr i q.prot head _

theorem lineSame_blockPayload (h : LineSame s t) (n c : Nat) (feeds : List TrayFeed) : LineSame s (blockPayload t n c feeds).2 :=
  .foldl_snd (r := ([], t)) h _ fun _ p hr => lineSame_pathArea hr p _ _

end
end Sys2Proof.Machine
end

section
/-! SUPPORT. Proofs: reading an object or an engine after an update, the codes of headers and fixed parts, and how a carrier sends a block (O38). -/

open Sys2Proof Sys2Proof.Machine

namespace Sys2Proof.Machine

/-! ### Reading objects and engines after an update -/

@[simp] theorem odKey_inj {idx inst sub idx' inst' sub' : Nat} (hi : idx < 65536) (hi' : idx' < 65536) (hs : sub < 256) (hs' : sub' < 256) :
    odKey idx inst sub = odKey idx' inst' sub' ↔ idx = idx' ∧ inst = inst' ∧ sub = sub' := by
  unfold odKey
  omega

theorem State.nat_setN (s : State) (k n j : Nat) : (s.setN k n).nat j = if j = k then n else s.nat j := by
  split
  · next h => rw [h, State.nat_setN_same]
  · next h => exact State.nat_setVal_of_ne s _ h

theorem State.nat_bumpBy (s : State) (k n j : Nat) :
    (s.bumpBy k n).nat j = if j = k then min (s.nat k + n) (counterMax k) else s.nat j := State.nat_setN ..

theorem State.nat_bump (s : State) (k j : Nat) : (s.bump k).nat j = if j = k then min (s.nat k + 1) (counterMax k) else s.nat j :=
  State.nat_bumpBy ..

theorem State.nat_peak_of_ne (s : State) {k j : Nat} (n : Nat) (h : j ≠ k) : (s.peak k n).nat j = s.nat j := by
  unfold State.peak
  split
  · exact State.nat_setVal_of_ne s _ h
  · rfl

@[simp] theorem State.nat_setEngine (s : State) (n : Nat) (x : Engine) (j : Nat) : (s.setEngine n x).nat j = s.nat j := rfl

@[simp] theorem State.engine_setEngine_same (s : State) (n : Nat) (x : Engine) : (s.setEngine n x).engine n = x := by
  simp [State.engine, Tbl.get_put]

@[simp] theorem State.engine_setN (s : State) (k v n : Nat) : (s.setN k v).engine n = s.engine n := rfl

@[simp] theorem State.engine_peak (s : State) (k v n : Nat) : (s.peak k v).engine n = s.engine n := by
  unfold State.peak
  split <;> rfl

@[simp] theorem State.klfRx_setKlfRx (s : State) (n : Nat) (x : KlfRx) : (s.setKlfRx n x).klfRx n = x := by
  simp [State.klfRx, State.setKlfRx]

@[simp] theorem State.klfTx_setKlfTx (s : State) (n : Nat) (x : KlfTx) : (s.setKlfTx n x).klfTx n = x := by
  simp [State.klfTx, State.setKlfTx]

theorem onUnit_of {p : Prop} [Decidable p] (hp : p) (s : State) (f : State → State) : onUnit (decide p) s f = .next (f s) :=
  if_pos (decide_eq_true hp)

theorem inService_congr {s t : State} {n : Nat} (hod : t.nat (Od.carrierEnable n) = s.nat (Od.carrierEnable n))
    (he : (t.engine n).heldEnable = (s.engine n).heldEnable) : inService t n = inService s n := by
  rw [inService, he, inService]
  exact congrArg (fun e : Nat => e != 0 && !(s.engine n).heldEnable) hod

theorem krytelm_congr {s t : State} {n : Nat} (h : t.nat (Od.lineProfile n) = s.nat (Od.lineProfile n)) : krytelm t n = krytelm s n := by
  rw [krytelm, profileOf, h, krytelm, profileOf]

/-! ### Check codes and fields of a block (R273, R278) -/

theorem crcFeed_lt {w poly n v r : Nat} (hp : poly < 2 ^ w) (hr : r < 2 ^ w) : crcFeed w poly n v r < 2 ^ w := by
  induction n generalizing r with
  | zero => exact hr
  | succ n ih =>
    have hsh : 2 * r % 2 ^ w < 2 ^ w := Nat.mod_lt _ (Nat.two_pow_pos w)
    rw [crcFeed]
    apply ih
    split
    · exact hsh
    · exact Nat.xor_lt_two_pow hsh hp

theorem crc16_lt (n v : Nat) : crc16 n v < 2 ^ 16 := crcFeed_lt (by decide) (by decide)

theorem crc32Sent_lt (n v : Nat) : crc32Sent n v < 2 ^ 32 := Nat.xor_lt_two_pow (crcFeed_lt (by decide) (by decide)) (by decide)

/-- A check code that stands behind what it covers is read back, and so is what it covers. -/
theorem div_and_mod_of_code {v code : Nat} (n : Nat) (h : code < 2 ^ n) : (v * 2 ^ n + code) / 2 ^ n = v ∧ (v * 2 ^ n + code) % 2 ^ n = code := by
  rw [Nat.mul_comm, Nat.mul_add_div (Nat.two_pow_pos n), Nat.div_eq_of_lt h, Nat.mul_add_mod, Nat.mod_eq_of_lt h]
  exact ⟨rfl, rfl⟩

theorem fixedCrcOk_encode (x : Fixed) : fixedCrcOk x.encode = true := by
  unfold fixedCrcOk Fixed.encode
  extract_lets v
  obtain ⟨hv, hcode⟩ := div_and_mod_of_code 32 (v := v) (crc32Sent_lt 536 v)
  rw [hv, hcode, decide_eq_true rfl]

theorem headerOk_headerSigns (record phase : Nat) : headerOk (headerSigns record phase) = true := by
  unfold headerOk headerSigns
  extract_lets v
  obtain ⟨hv, hcode⟩ := div_and_mod_of_code 16 (v := v) (crc16_lt 280 (v % 2 ^ 280))
  have hmod : (v * 2 ^ 16 + crc16 280 (v % 2 ^ 280)) % 65536 = crc16 280 (v % 2 ^ 280) := hcode
  rw [hv, hmod, decide_eq_true rfl]

theorem headerRecord_headerSigns {record : Nat} (phase : Nat) (h : record < 2 ^ 264) : headerRecord (headerSigns record phase) = record := by
  unfold headerRecord headerSigns
  extract_lets v
  have hv : (v * 2 ^ 16 + crc16 280 (v % 2 ^ 280)) / 2 ^ 16 = v := (div_and_mod_of_code 16 (crc16_lt 280 (v % 2 ^ 280))).1
  have hrecord : v / 2 ^ 16 = record := (div_and_mod_of_code 16 (by omega)).1
  rw [show (2 : Nat) ^ 32 = 2 ^ 16 * 2 ^ 16 from rfl, ← Nat.div_div_eq_div_mul, hv, hrecord, Nat.mod_eq_of_lt h]

theorem layoutRecord_lt {f : Fmt} {tag : Nat} {codes : List Nat} (ht : tag < 256) (hc : ∀ k, codes.getD k codeOff < 256) :
    layoutRecord f tag codes < 2 ^ 264 := by
  have hfold : ∀ (l : List Nat) (a m : Nat), a < 256 ^ m →
      l.foldl (fun a k => a * 256 + if k < f.n then codes.getD k codeOff else codeOff) a < 256 ^ (m + l.length) := by
    intro l
    induction l with
    | nil => exact fun a m ha => ha
    | cons k l ih =>
      intro a m ha
      have hk : (if k < f.n then codes.getD k codeOff else codeOff) < 256 := by
        split
        · exact hc k
        · decide
      have hstep := ih (a * 256 + if k < f.n then codes.getD k codeOff else codeOff) (m + 1) (by rw [Nat.pow_succ]; omega)
      rwa [Nat.add_assoc, Nat.add_comm 1] at hstep
  have h := hfold (List.range 32) tag 1 ht
  rw [show 264 = 8 * (1 + (List.range 32).length) from rfl, Nat.pow_mul]
  exact h

theorem codesOf_getD_lt {s : State} {n : Nat} (h : ∀ k, k < 32 → s.nat (Od.entropy (32 * n + k)) < 256) (k : Nat) :
    (codesOf s n).getD k codeOff < 256 := by
  by_cases hk : k < 32
  · simpa [codesOf, List.getD, hk] using h k hk
  · simp [codesOf, List.getD, hk, codeOff]

/-! ### A block is sent (R273, R278, R280, R511) -/

theorem mapBlocks_header (f : Fmt) (fuel : Nat) (x : KlfTx) : (mapBlocks f fuel x).header = x.header ∧ (mapBlocks f fuel x).fixed = x.fixed := by
  induction fuel generalizing x with
  | zero => exact ⟨rfl, rfl⟩
  | succ fuel ih =>
    unfold mapBlocks
    split
    · exact ⟨rfl, rfl⟩
    · extract_lets need b
      split
      · exact ⟨rfl, rfl⟩
      · exact ih _

theorem confirmationAt_od (s : State) (n : Nat) : (confirmationAt s n).2.od = s.od := by
  unfold confirmationAt
  extract_lets x
  split <;> rfl

theorem nextCell_od (s : State) (n : Nat) : (nextCell s n).2.od = s.od := by
  unfold nextCell
  extract_lets x p entries
  split
  · rfl
  · split <;> rfl

theorem controlAt_val {s : State} {key : Nat} (n c : Nat) (hk : lineObject key) : (controlAt s n c).2.val key = s.val key := by
  unfold controlAt
  split
  · rfl
  · split
    · rfl
    · extract_lets cur r
      have hr := (lineSame_serviceSegment (.refl s) n c cur).val key hk
      split <;> exact hr

theorem sendBlock_fixed (s : State) (n c : Nat) (feeds : List TrayFeed) :
    ∃ x : Fixed, x.counter = c % 2 ^ 48 ∧ ((sendBlock s n c feeds).klfTx n).fixed = x.encode := by
  unfold sendBlock
  extract_lets
  rw [State.klfTx_setKlfTx, (mapBlocks_header ..).2]
  exact ⟨_, rfl, rfl⟩

theorem sendBlock_header (s : State) (n c : Nat) (feeds : List TrayFeed) :
    ∃ phase, ((sendBlock s n c feeds).klfTx n).header = headerSigns (layoutRecord (fmtOf s n) (s.nat (Od.layoutTag n)) (codesOf s n)) phase := by
  unfold sendBlock
  extract_lets f codes spans ctl tags conf cell sent fixed pay paid head data x header enc offsets x'
  have htag : paid.nat (Od.layoutTag n) = s.nat (Od.layoutTag n) := by
    have hk : lineObject (Od.layoutTag n) := lineObject_odKey n
    calc paid.nat (Od.layoutTag n)
      _ = sent.nat (Od.layoutTag n) := (lineSame_blockPayload (.refl sent) n c feeds).nat hk
      _ = conf.2.nat (Od.layoutTag n) := State.nat_congr (nextCell_od ..) _
      _ = tags.2.nat (Od.layoutTag n) := State.nat_congr (confirmationAt_od ..) _
      _ = ctl.2.nat (Od.layoutTag n) := (lineSame_takeTags (.refl ctl.2) n _).nat hk
      _ = spans.nat (Od.layoutTag n) := congrArg Val.nat (controlAt_val n c hk)
      _ = s.nat (Od.layoutTag n) := (lineSame_spansAt (.refl s) n c).nat hk
  rw [State.klfTx_setKlfTx, (mapBlocks_header ..).1, ← htag]
  exact ⟨_, rfl⟩

/-- What a sent block carries in its fixed part and its header signs. -/
theorem sendBlock_spec (s : State) (n c : Nat) (feeds : List TrayFeed) :
    fixedCrcOk ((sendBlock s n c feeds).klfTx n).fixed = true
    ∧ (∃ x : Fixed, x.counter = c % 2 ^ 48 ∧ ((sendBlock s n c feeds).klfTx n).fixed = x.encode)
    ∧ ((∀ k, k < 32 → s.nat (Od.entropy (32 * n + k)) < 256) → s.nat (Od.layoutTag n) < 256 →
      headerRecord ((sendBlock s n c feeds).klfTx n).header = layoutRecord (fmtOf s n) (s.nat (Od.layoutTag n)) (codesOf s n)
      ∧ headerOk ((sendBlock s n c feeds).klfTx n).header = true) := by
  obtain ⟨x, hcounter, hfixed⟩ := sendBlock_fixed s n c feeds
  obtain ⟨phase, hheader⟩ := sendBlock_header s n c feeds
  rw [hfixed, hheader]
  exact ⟨fixedCrcOk_encode x, ⟨x, hcounter, rfl⟩, fun hcodes htag =>
    ⟨headerRecord_headerSigns phase (layoutRecord_lt htag (codesOf_getD_lt hcodes)), headerOk_headerSigns _ phase⟩⟩

/-- A queue's fill and its high-water mark are objects of 2040h: every other object stays. -/
theorem nat_noteFill (s : State) {key i sub i' sub' : Nat} (m : Nat) (hs : sub < 256) (hs' : sub' < 256) (hk : keyIdx key ≠ 0x2040) :
    ((s.setN (odKey 0x2040 i sub) m).peak (odKey 0x2040 i' sub') m).nat key = s.nat key := by
  have hne : ∀ {j r}, r < 256 → key ≠ odKey 0x2040 j r := by
    rintro j r hr rfl
    exact hk (keyIdx_odKey j (by decide) hr)
  rw [State.nat_peak_of_ne _ _ (hne hs'), State.nat_setN, if_neg (hne hs)]

theorem yields_klfBlockTransmit_idle {s : State} {n : Nat} (feeds : List TrayFeed) (fill : Nat) (hn : n < 64)
    (h : s.engineUp n = false ∨ s.nat (Od.calState n) ≠ 2) : Yields (.klfBlockTransmit n feeds fill) s s := by
  change execKlfBlockTransmit n feeds fill s = _
  rcases h with h | h <;> simp [execKlfBlockTransmit, onUnit, hn, h]

/-- The next block of carrier `n` is counted (R511). -/
def blockCounted (s : State) (n : Nat) : State :=
  (s.setEngine n { s.engine n with tx := { (s.engine n).tx with next := (s.engine n).tx.next + 1 } }).setN (Od.txBlockCounter n)
    ((s.engine n).tx.next % 2 ^ 48)

/-- The fill of the tray transmit queue is noted (R37). -/
def txFillNoted (s : State) (n fill : Nat) : State := (s.setN (Od.txFill n) (min fill 65536)).peak (Od.txHighWater n) (min fill 65536)

/-- The fill of the tray receive queue is noted (R37). -/
def rxFillNoted (s : State) (n fill : Nat) : State := (s.setN (Od.rxFill n) (min fill 65536)).peak (Od.rxHighWater n) (min fill 65536)

section
variable {s : State} {n fill : Nat}

theorem nat_blockCounted {key : Nat} (hk : key ≠ Od.txBlockCounter n) : (blockCounted s n).nat key = s.nat key := by
  rw [blockCounted, State.nat_setN, if_neg hk, State.nat_setEngine]

theorem inService_blockCounted : inService (blockCounted s n) n = inService s n :=
  inService_congr (nat_blockCounted (by simp [Od.carrierEnable, Od.txBlockCounter])) (by simp [blockCounted])

theorem nat_txFillNoted {key : Nat} (hk : keyIdx key ≠ 0x2040) : (txFillNoted s n fill).nat key = s.nat key :=
  nat_noteFill s _ (by decide) (by decide) hk

theorem nat_rxFillNoted {key : Nat} (hk : keyIdx key ≠ 0x2040) : (rxFillNoted s n fill).nat key = s.nat key :=
  nat_noteFill s _ (by decide) (by decide) hk

theorem engine_rxFillNoted (k : Nat) : (rxFillNoted s n fill).engine k = s.engine k := by simp [rxFillNoted]

theorem nat_rxFillNoted_rxFill : (rxFillNoted s n fill).nat (Od.rxFill n) = min fill 65536 := by
  rw [rxFillNoted, State.nat_peak_of_ne _ _ (by simp [Od.rxFill, Od.rxHighWater]), State.nat_setN_same]

/-- Counting a block and noting the fill leave the symbols still to be mapped and the profile. -/
theorem krytelm_txFillNoted : krytelm (txFillNoted (blockCounted s n) n fill) n = krytelm s n := by
  refine krytelm_congr ((nat_txFillNoted (by simp [Od.lineProfile])).trans (nat_blockCounted ?_))
  simp [Od.lineProfile, Od.txBlockCounter]

theorem klfTx_layouts_txFillNoted : ((txFillNoted (blockCounted s n) n fill).klfTx n).layouts = (s.engine n).tx.layouts := by
  simp [txFillNoted, blockCounted, State.klfTx]

variable (feeds : List TrayFeed) (hn : n < 64) (hup : s.engineUp n = true) (hcal : s.nat (Od.calState n) = 2)
  (hres : (s.engine n).resetting = false)
include hn hup hcal hres

theorem yields_klfBlockTransmit_disabled (hin : inService s n = false) : Yields (.klfBlockTransmit n feeds fill) s (blockCounted s n) := by
  change execKlfBlockTransmit n feeds fill s = _
  have hstop : (!inService (blockCounted s n) n) = true := by rw [inService_blockCounted, hin]; rfl
  rw [execKlfBlockTransmit, onUnit_of hn]
  refine congrArg Host.Outcome.next ?_
  dsimp only
  rw [if_neg (by simp [hup, hcal, hres])]
  exact if_pos hstop

/-- A Krytelm carrier in service sends the block; its samples leave the DACs where the symbols of a block have been mapped. -/
theorem yields_klfBlockTransmit_sends (hin : inService s n = true) (hk : krytelm s n = true)
    (hfeeds : ((placementsOf (txFillNoted (blockCounted s n) n fill) n).any fun p => (feedOf feeds p.tray p.prot).underrun) = false) :
    Yields (.klfBlockTransmit n feeds fill) s
      (if ((sendBlock (txFillNoted (blockCounted s n) n fill) n (s.engine n).tx.next feeds).klfTx n).layouts.length
          ≤ (s.engine n).tx.layouts.length && decide (0 < (s.engine n).tx.layouts.length)
        then dacCount (sendBlock (txFillNoted (blockCounted s n) n fill) n (s.engine n).tx.next feeds) n
        else sendBlock (txFillNoted (blockCounted s n) n fill) n (s.engine n).tx.next feeds) := by
  change execKlfBlockTransmit n feeds fill s = _
  have hgo : ¬ (!inService (blockCounted s n) n) = true := by simp [inService_blockCounted, hin]
  have hshort : ((placementsOf (txFillNoted (blockCounted s n) n fill) n).filter fun p => (feedOf feeds p.tray p.prot).underrun).isEmpty
      = true := by
    simpa [List.isEmpty_iff, List.filter_eq_nil_iff] using hfeeds
  rw [execKlfBlockTransmit, onUnit_of hn]
  refine congrArg Host.Outcome.next ?_
  extract_lets e c tx counted noted short recentred mapped sent
  have hcounted : counted = blockCounted s n := rfl
  have hnoted : noted = txFillNoted (blockCounted s n) n fill := rfl
  have hrecentred : recentred = noted := if_pos hshort
  have hmapped : mapped = (s.engine n).tx.layouts.length := by
    unfold mapped
    rw [hrecentred, hnoted, klfTx_layouts_txFillNoted]
  have hsent : sent = sendBlock (txFillNoted (blockCounted s n) n fill) n (s.engine n).tx.next feeds := by
    unfold sent
    rw [hrecentred, hnoted]
  rw [if_neg (by simp [e, hup, hcal, hres]), if_neg (hcounted ▸ hgo), hrecentred, hnoted, if_pos (krytelm_txFillNoted.trans hk), hsent, hmapped]

theorem yields_klfBlockTransmit_unmapped (hin : inService s n = true) (hk : krytelm s n = true)
    (hfeeds : ((placementsOf (txFillNoted (blockCounted s n) n fill) n).any fun p => (feedOf feeds p.tray p.prot).underrun) = false)
    (hnone : (s.engine n).tx.layouts = []) :
    Yields (.klfBlockTransmit n feeds fill) s (sendBlock (txFillNoted (blockCounted s n) n fill) n (s.engine n).tx.next feeds) := by
  have hy := yields_klfBlockTransmit_sends feeds hn hup hcal hres hin hk hfeeds
  rwa [if_neg (by simp [hnone])] at hy

theorem yields_klfBlockTransmit_mapped (hin : inService s n = true) (hk : krytelm s n = true)
    (hfeeds : ((placementsOf (txFillNoted (blockCounted s n) n fill) n).any fun p => (feedOf feeds p.tray p.prot).underrun) = false)
    (hsome : (s.engine n).tx.layouts ≠ [])
    (hle : ((sendBlock (txFillNoted (blockCounted s n) n fill) n (s.engine n).tx.next feeds).klfTx n).layouts.length
      ≤ (s.engine n).tx.layouts.length) :
    Yields (.klfBlockTransmit n feeds fill) s
      (dacCount (sendBlock (txFillNoted (blockCounted s n) n fill) n (s.engine n).tx.next feeds) n) := by
  have hy := yields_klfBlockTransmit_sends feeds hn hup hcal hres hin hk hfeeds
  rwa [if_pos (by simp [hle, List.length_pos_iff, hsome])] at hy

end

end Sys2Proof.Machine
end

section
/-! SUPPORT. Proofs: header signs, block alignment and decoded blocks of a carrier (O38). -/

open Sys2Proof Sys2Proof.Machine

namespace Sys2Proof.Machine

/-! ### Header signs (R273, R285) -/

theorem yields_headerSignsRead_ignored {s : State} {n : Nat} (header : Nat) (hn : n < 64) (hr : receives s n = false) :
    Yields (.headerSignsRead n header) s s := by
  change execHeaderSignsRead n header s = _
  simp [execHeaderSignsRead, onUnit, hn, hr]

/-- What header signs do to a carrier that awaits them. -/
theorem yields_headerSignsRead_awaited {s : State} {n : Nat} (header : Nat) (hn : n < 64) (hr : receives s n = true)
    (hst : s.nat (Od.rxState n) = 2) (hstep : (s.dsp n).step + 2 = lastStep s n) : Yields (.headerSignsRead n header) s
      (if headerOk header = false then s.setKlfRx n { s.klfRx n with lastHeader := none }
        else if (s.klfRx n).lastHeader.any (fun h => h.1 = recordTag (headerRecord header)
            && headerPhase header = (h.2 + codedBitsPerBlock (fmtOf s n) (recordCodes (headerRecord header))) % 32768)
          then headerAccept s n (headerRecord header)
        else s.setKlfRx n { s.klfRx n with lastHeader := some (recordTag (headerRecord header), headerPhase header) }) := by
  change execHeaderSignsRead n header s = _
  rw [execHeaderSignsRead, onUnit_of hn]
  simp only [hr, hst, hstep, bne_self_eq_false, Bool.not_true, Bool.false_eq_true, if_false, Bool.not_eq_true']

/-- An accepted header begins the wait for alignment under its record. -/
theorem headerAccept_spec (s : State) (n record : Nat) :
    (headerAccept s n record).nat (Od.alignState n) = 1 ∧ ((headerAccept s n record).klfRx n).record = record := by
  unfold headerAccept demapStart
  extract_lets adopted x y
  refine ⟨State.nat_setN_same .., ?_⟩
  simp [State.setDsp, State.klfRx, y, x, adopted, recordAdopt]

/-! ### Block alignment (R283, R284) -/

section
variable {s : State} {n : Nat}

theorem yields_lofTimer_lost (hn : n < 64) (h : s.nat (Od.alignState n) = 3) : Yields (.lofTimer n) s (lockLost s n 5) := by
  change execLofTimer n s = _
  simp [execLofTimer, onUnit, hn, h]

theorem yields_lofTimer_kept (hn : n < 64) (h : s.nat (Od.alignState n) ≠ 3) : Yields (.lofTimer n) s s := by
  change execLofTimer n s = _
  simp [execLofTimer, onUnit, hn, h]

theorem lineObject_alignState (n : Nat) : lineObject (Od.alignState n) := lineObject_odKey n

/-- The last step of an acquisition leaves the alignment state that its caller has set. -/
theorem trackEntry_alignState (s : State) (n : Nat) : (trackEntry s n).nat (Od.alignState n) = s.nat (Od.alignState n) := by
  have hk := lineObject_alignState n
  unfold trackEntry
  split
  · rfl
  · extract_lets x entered counted valid a q e tracking recent received
    calc (traysRefresh (sealTrackEntry received n) n).nat (Od.alignState n)
      _ = received.nat (Od.alignState n) := (lineSame_traysRefresh (lineSame_sealTrackEntry (.refl received) n) n).nat hk
      _ = tracking.nat (Od.alignState n) := by
        unfold received
        split
        · rw [(lineSame_setCond (.refl _) _ _).nat hk, State.nat_setN, if_neg (by simp [Od.alignState, Od.bcState])]
        · rfl
      _ = (counted.setB (Od.measuresValid n) true).nat (Od.alignState n) := (lineSame_setCond (.refl _) _ _).nat hk
      _ = counted.nat (Od.alignState n) := State.nat_setVal_of_ne _ _ (by simp [Od.alignState, Od.measuresValid])
      _ = entered.nat (Od.alignState n) := by
        unfold counted
        split <;> rw [State.nat_bump, if_neg (by simp [Od.alignState, Od.warmAcquisitions, Od.coldAcquisitions])]
      _ = s.nat (Od.alignState n) := by simp [entered, State.nat_setN, Od.alignState, Od.rxState, Od.lastAcquireMicros]

theorem alignStep_true_eq (hp : (s.klfRx n).passes < 2) :
    alignStep s n true = s.setKlfRx n { s.klfRx n with passes := (s.klfRx n).passes + 1, fails := 0 } := by
  have hmin : min ((s.klfRx n).passes + 1) 3 = (s.klfRx n).passes + 1 := by omega
  have hne : (s.klfRx n).passes + 1 ≠ 3 := by omega
  unfold alignStep
  simp [hmin, hne]

/-- The third passing block in a row aligns the carrier. -/
theorem alignStep_true_aligns (h : s.nat (Od.alignState n) ≠ 2) (hp : 2 ≤ (s.klfRx n).passes) :
    (alignStep s n true).nat (Od.alignState n) = 2 := by
  unfold alignStep
  extract_lets x passes fails noted st cleared counted tracked
  have hst : st ≠ 2 := h
  have hpasses : passes = 3 := Nat.min_eq_right (Nat.succ_le_succ hp)
  rw [if_pos (by simp [hst, hpasses])]
  calc (traysRefresh tracked n).nat (Od.alignState n)
    _ = tracked.nat (Od.alignState n) := (lineSame_traysRefresh (.refl tracked) n).nat (lineObject_alignState n)
    _ = counted.nat (Od.alignState n) := by
      unfold tracked
      split
      · exact trackEntry_alignState counted n
      · rfl
    _ = cleared.nat (Od.alignState n) := by
      unfold counted
      split
      · rfl
      · rw [State.nat_setN, if_neg (by simp [Od.alignState, Od.rxBlockCounter])]
    _ = (noted.setN (Od.alignState n) 2).nat (Od.alignState n) := (lineSame_setCond (.refl _) _ _).nat (lineObject_alignState n)
    _ = 2 := State.nat_setN_same ..

/-- The eighth failing block in a row of an aligned carrier loses it (R284). -/
theorem alignStep_false_loses (h : s.nat (Od.alignState n) = 2) (hf : (s.klfRx n).fails = 7) :
    (alignStep s n false).nat (Od.alignState n) = 3
    ∧ (alignStep s n false).nat (Od.lofEntries n) = (s.bump (Od.lofEntries n)).nat (Od.lofEntries n) := by
  have hlost : ∀ noted : State, LineSame ((noted.setN (Od.alignState n) 3).bump (Od.lofEntries n))
      (traysRefresh (((noted.setN (Od.alignState n) 3).bump (Od.lofEntries n)).raise (srcCarrier n 13)) n) := fun noted =>
    lineSame_traysRefresh (lineSame_raise (.refl _) _) n
  have heq : ∃ noted : State, noted.od = s.od ∧
      alignStep s n false = traysRefresh (((noted.setN (Od.alignState n) 3).bump (Od.lofEntries n)).raise (srcCarrier n 13)) n := by
    unfold alignStep
    extract_lets x passes fails noted st
    have hst : st = 2 := h
    have hfails : fails = 8 := by simp [fails, x, hf]
    refine ⟨noted, rfl, ?_⟩
    rw [if_neg (by simp [hst]), if_pos (by simp [hst, hfails])]
  obtain ⟨noted, hod, heq⟩ := heq
  have hentries : lineObject (Od.lofEntries n) := lineObject_odKey n
  rw [heq, (hlost noted).nat (lineObject_alignState n), (hlost noted).nat hentries]
  simp [State.nat_bump, State.nat_setN, Od.alignState, Od.lofEntries, State.nat_congr hod]

theorem alignStep_false_holds (h : s.nat (Od.alignState n) = 2) (hf : (s.klfRx n).fails < 7) :
    (alignStep s n false).nat (Od.alignState n) = 2 ∧ (alignStep s n false).sources = s.sources := by
  unfold alignStep
  extract_lets x passes fails noted st
  have hst : st = 2 := h
  have hfails : fails ≠ 8 := by
    simp only [fails, x, Bool.false_eq_true, if_false]
    omega
  rw [if_neg (by simp [hst]), if_neg (by simp [hfails])]
  exact ⟨h, rfl⟩

end

/-! ### A decoded block (R283, R290, R335) -/

theorem yields_klfBlockDecoded_ignored {s : State} {n : Nat} (b : DecodedBlock) (hn : n < 64)
    (h : s.engineUp n = false ∨ s.nat (Od.alignState n) = 0) : Yields (.klfBlockDecoded n b) s s := by
  change execKlfBlockDecoded n b s = _
  rcases h with h | h <;> simp [execKlfBlockDecoded, onUnit, hn, h]

theorem yields_klfBlockDecoded {s : State} {n : Nat} (b : DecodedBlock) (hn : n < 64) (hup : s.engineUp n = true)
    (hin : inService s n = true) (hhub : isHub s n = false) (halign : s.nat (Od.alignState n) ≠ 0) : Yields (.klfBlockDecoded n b) s
      (b.delays.foldl (fun t d => if d.1 < 2048 then trayRefresh (delayMeasured t d.1 d.2) d.1 else t)
        (if krytelm s n then blockReceive (rxFillNoted s n b.rxFill) n b else frameReceive (rxFillNoted s n b.rxFill) n b)) := by
  have hk : krytelm (rxFillNoted s n b.rxFill) n = krytelm s n := krytelm_congr (nat_rxFillNoted (by simp [Od.lineProfile]))
  change execKlfBlockDecoded n b s = _
  rw [execKlfBlockDecoded, onUnit_of hn]
  refine congrArg Host.Outcome.next ?_
  extract_lets noted received
  have hnoted : noted = rxFillNoted s n b.rxFill := rfl
  have hreceived : received = if krytelm s n then blockReceive noted n b else frameReceive noted n b := by
    rw [← hk, ← hnoted]
  rw [if_neg (by simp [hup, hin, hhub, halign]), hreceived, hnoted]

/-- From `s` to `t` the alignment of carrier `n` stays: the carriers' objects but `TrayMapMismatch`, and what the receiver knows of the
block counter and of the run of passing blocks. -/
structure AlignSame (n : Nat) (s t : State) : Prop where
  nat : ∀ key, lineObject key → key ≠ Od.trayMapMismatch n → t.nat key = s.nat key
  known : (t.klfRx n).known = (s.klfRx n).known
  counter : (t.klfRx n).counter = (s.klfRx n).counter
  passes : (t.klfRx n).passes = (s.klfRx n).passes

section
variable {s t u : State} {n : Nat}

theorem AlignSame.trans (hst : AlignSame n s t) (htu : AlignSame n t u) : AlignSame n s u :=
  ⟨fun key hk hne => (htu.nat key hk hne).trans (hst.nat key hk hne), htu.known.trans hst.known, htu.counter.trans hst.counter,
    htu.passes.trans hst.passes⟩

theorem LineSame.alignSame (h : LineSame s t) (n : Nat) : AlignSame n s t := by
  have hrx : t.klfRx n = s.klfRx n := congrArg Engine.rx (h.engine n)
  exact ⟨fun key hk _ => h.nat hk, by rw [hrx], by rw [hrx], by rw [hrx]⟩

theorem alignSame_setKlfRx {x : KlfRx} (hk : x.known = (s.klfRx n).known) (hc : x.counter = (s.klfRx n).counter)
    (hp : x.passes = (s.klfRx n).passes) : AlignSame n s (s.setKlfRx n x) := by
  refine ⟨fun _ _ _ => rfl, ?_, ?_, ?_⟩ <;> rw [State.klfRx_setKlfRx] <;> assumption

theorem alignSame_mapMismatch (s : State) (n : Nat) (b : Bool) : AlignSame n s (s.setB (Od.trayMapMismatch n) b) :=
  ⟨fun _ _ hne => State.nat_setVal_of_ne s _ hne, rfl, rfl, rfl⟩

theorem alignSame_mapCompare (s : State) (n counter cell : Nat) : AlignSame n s (mapCompare s n counter cell) := by
  unfold mapCompare
  extract_lets x y slots wrong again kept run noted
  have hy : y.known = x.known ∧ y.counter = x.counter ∧ y.passes = x.passes := by
    unfold y
    split <;> exact ⟨rfl, rfl, rfl⟩
  obtain ⟨hknown, hcounter, hpasses⟩ := hy
  have hnoted : AlignSame n s noted := alignSame_setKlfRx hknown hcounter hpasses
  have hset : ∀ b, AlignSame n s ((noted.setB (Od.trayMapMismatch n) b).setCond (srcCarrier n 15) b) := fun b =>
    (hnoted.trans (alignSame_mapMismatch noted n b)).trans ((lineSame_setCond (.refl _) _ _).alignSame n)
  split
  · exact hset true
  · split
    · exact hset false
    · exact hnoted

theorem alignSame_controlTaken (s : State) (n cell : Nat) : AlignSame n s (controlTaken s n cell) := by
  unfold controlTaken
  extract_lets x part
  split
  · exact (LineSame.refl s).alignSame n
  · split
    · exact alignSame_setKlfRx rfl rfl rfl
    · exact alignSame_setKlfRx rfl rfl rfl

theorem blockData_congr {b : DecodedBlock} (hnat : ∀ key, keyIdx key ≠ 0x2040 → t.nat key = s.nat key) (he : t.engine n = s.engine n) :
    blockData t n b = blockData s n b := by
  have hk : krytelm t n = krytelm s n := krytelm_congr (hnat _ (by simp [Od.lineProfile]))
  have hf : fmtOf t n = fmtOf s n := by
    simp [fmtOf, hnat, Od.symbolRate, Od.subcarrierCount, Od.pilotRate, Od.fecOverhead]
  rw [blockData, hf, rxCodes, hk, he, blockData, rxCodes]

/-- The block counter of a passing block is taken (R283). -/
def counterTaken (s : State) (n c : Nat) : State :=
  (s.setKlfRx n { s.klfRx n with counter := c, since := 0, known := true }).setN (Od.rxBlockCounter n) c

/-- A passing block where no count is known: its counter is taken, the alignment takes a step, and what comes before the step leaves the
alignment as it was. -/
theorem blockReceive_passing {v : Nat} {b : DecodedBlock} (hknown : (s.klfRx n).known = false)
    (hlen : ((blockData s n b).take 568).length = 568) (hclean : ∀ x, x ∈ (blockData s n b).take 568 → x.2 = false)
    (hv : v = natOfBits (((blockData s n b).take 568).map (·.1))) (hcrc : fixedCrcOk v = true) (haligned : fixedAligned v = true) :
    ∃ (u : State) (tags : List (Nat × Nat × Nat)), AlignSame n (counterTaken s n (fixedOf v).counter) u ∧
      blockReceive s n b = if b.overrun then rxOverrun (alignStep u n true) n
        else if carrierGood (alignStep u n true) n then payloadReceive (alignStep u n true) n (fixedOf v).counter (blockData s n b) tags
        else spansDropped (alignStep u n true) n := by
  unfold blockReceive
  extract_lets x data head w clean noted used f due pass c started received taken tags judged stepped
  have hw : w = v := hv.symm
  have hisClean : clean = true := by
    simpa [clean, head, data, hlen] using fun e m hm => hclean (e, m) hm
  have hused : used = true := by simp [used, hisClean, hw, hcrc]
  have hpass : pass = true := by simp [pass, hused, hw, haligned, x, hknown]
  have hc : c = (fixedOf v).counter := by
    rw [← hw]
    exact if_pos hpass
  have hnoted : noted = s := if_neg (by simp [hw, hcrc])
  have hstarted : started = counterTaken s n (fixedOf v).counter := by
    unfold started
    rw [hnoted, hc]
    rfl
  have hreceived : AlignSame n started received := by
    unfold received
    rw [if_pos hpass]
    exact ((lineSame_countEv (.refl started) 1 n 4 1).alignSame n).trans (alignSame_mapCompare ..)
  have htaken : AlignSame n started taken := by
    unfold taken
    rw [if_pos hused]
    exact hreceived.trans (alignSame_controlTaken ..)
  have htags : LineSame taken judged := (LineSame.refl taken).foldl _ fun u e hu => .ite (lineSame_sealMismatch hu e.1) hu
  refine ⟨judged, tags, hstarted ▸ htaken.trans (htags.alignSame n), ?_⟩
  unfold stepped
  rw [hpass, hc]

/-- The first passing block after a header is accepted starts the count. -/
theorem blockReceive_first {v : Nat} {b : DecodedBlock} (halign : s.nat (Od.alignState n) = 1) (hknown : (s.klfRx n).known = false)
    (hpasses : (s.klfRx n).passes = 0) (hover : b.overrun = false) (hlen : ((blockData s n b).take 568).length = 568)
    (hclean : ∀ x, x ∈ (blockData s n b).take 568 → x.2 = false) (hv : v = natOfBits (((blockData s n b).take 568).map (·.1)))
    (hcrc : fixedCrcOk v = true) (haligned : fixedAligned v = true) :
    ((blockReceive s n b).klfRx n).known = true ∧ ((blockReceive s n b).klfRx n).counter = (fixedOf v).counter
    ∧ ((blockReceive s n b).klfRx n).passes = 1 ∧ (blockReceive s n b).nat (Od.rxBlockCounter n) = (fixedOf v).counter
    ∧ (blockReceive s n b).nat (Od.alignState n) = 1 ∧ (blockReceive s n b).nat (Od.rxFill n) = s.nat (Od.rxFill n) := by
  obtain ⟨u, tags, hu, heq⟩ := blockReceive_passing hknown hlen hclean hv hcrc haligned
  generalize (fixedOf v).counter = c at *
  have hrx : (counterTaken s n c).klfRx n = { s.klfRx n with counter := c, since := 0, known := true } := State.klfRx_setKlfRx s n _
  have hk : lineObject (Od.alignState n) ∧ lineObject (Od.rxBlockCounter n) ∧ lineObject (Od.rxFill n) :=
    ⟨lineObject_odKey n, lineObject_odKey n, lineObject_odKey n⟩
  obtain ⟨halignKey, hcounterKey, hfillKey⟩ := hk
  have hcounter : u.nat (Od.rxBlockCounter n) = c := by
    rw [hu.nat _ hcounterKey (by simp [Od.rxBlockCounter, Od.trayMapMismatch])]
    exact State.nat_setN_same ..
  have hother : ∀ key, lineObject key → key ≠ Od.trayMapMismatch n → key ≠ Od.rxBlockCounter n → u.nat key = s.nat key := by
    intro key hk hne hne'
    rw [hu.nat key hk hne, counterTaken, State.nat_setN, if_neg hne']
    rfl
  have hpassed : (u.klfRx n).passes = 0 := by
    rw [hu.passes, hrx]
    exact hpasses
  have hstep : alignStep u n true = u.setKlfRx n { u.klfRx n with passes := 1, fails := 0 } := by
    rw [alignStep_true_eq (by omega), hpassed]
  have hone : u.nat (Od.alignState n) = 1 := by
    rw [hother _ halignKey (by simp [Od.alignState, Od.trayMapMismatch]) (by simp [Od.alignState, Od.rxBlockCounter]), halign]
  have hgood : carrierGood (alignStep u n true) n = false := by
    have : (alignStep u n true).nat (Od.alignState n) = 1 := by rw [hstep]; exact hone
    simp [carrierGood, this]
  rw [if_neg (by simp [hover]), if_neg (by simp [hgood]), hstep] at heq
  have hsame := lineSame_spansDropped (.refl (u.setKlfRx n { u.klfRx n with passes := 1, fails := 0 })) n
  rw [← heq] at hsame
  have hfinal : (blockReceive s n b).klfRx n = { u.klfRx n with passes := 1, fails := 0 } :=
    (congrArg Engine.rx (hsame.engine n)).trans (State.klfRx_setKlfRx ..)
  rw [hfinal, hsame.nat hcounterKey, hsame.nat halignKey, hsame.nat hfillKey]
  refine ⟨?_, ?_, rfl, hcounter, hone, hother _ hfillKey ?_ ?_⟩
  · rw [hu.known, hrx]
  · rw [hu.counter, hrx]
  · simp [Od.rxFill, Od.trayMapMismatch]
  · simp [Od.rxFill, Od.rxBlockCounter]

end

theorem receives_eq_true {s : State} {n : Nat} (h : receives s n = true) :
    s.engineUp n = true ∧ inService s n = true ∧ krytelm s n = true ∧ isHub s n = false := by
  simpa [receives, and_assoc] using h

/-- The first passing block of a carrier that waits for alignment (R283). -/
theorem yields_klfBlockDecoded_first {s : State} {n v : Nat} {b : DecodedBlock} (hn : n < 64) (hr : receives s n = true)
    (halign : s.nat (Od.alignState n) = 1) (hknown : (s.klfRx n).known = false) (hpasses : (s.klfRx n).passes = 0)
    (hover : b.overrun = false) (hdelays : b.delays = []) (hlen : ((blockData s n b).take 568).length = 568)
    (hclean : ∀ x, x ∈ (blockData s n b).take 568 → x.2 = false) (hv : v = natOfBits (((blockData s n b).take 568).map (·.1)))
    (hcrc : fixedCrcOk v = true) (haligned : fixedAligned v = true) :
    ∃ t, Yields (.klfBlockDecoded n b) s t ∧ (t.klfRx n).known = true ∧ (t.klfRx n).counter = (fixedOf v).counter ∧ (t.klfRx n).passes = 1
      ∧ t.nat (Od.rxBlockCounter n) = (fixedOf v).counter ∧ t.nat (Od.alignState n) = 1 ∧ t.nat (Od.rxFill n) = min b.rxFill 65536 := by
  obtain ⟨hup, hin, hk, hhub⟩ := receives_eq_true hr
  have hy := yields_klfBlockDecoded b hn hup hin hhub (by omega)
  rw [if_pos hk, hdelays] at hy
  have hrx : (rxFillNoted s n b.rxFill).klfRx n = s.klfRx n := congrArg Engine.rx (engine_rxFillNoted n)
  have hdata : blockData (rxFillNoted s n b.rxFill) n b = blockData s n b :=
    blockData_congr (fun _ => nat_rxFillNoted) (engine_rxFillNoted n)
  have hfirst := blockReceive_first (s := rxFillNoted s n b.rxFill) (n := n) (v := v) (b := b)
    ((nat_rxFillNoted (by simp [Od.alignState])).trans halign) (by rw [hrx, hknown]) (by rw [hrx, hpasses]) hover
    (by rw [hdata, hlen]) (by rwa [hdata]) (by rwa [hdata]) hcrc haligned
  rw [nat_rxFillNoted_rxFill] at hfirst
  exact ⟨_, hy, hfirst⟩

end Sys2Proof.Machine
end

section
/-! SUPPORT. Proofs: released coded blocks, the clear of their counters, and O38. -/

open Sys2Proof Sys2Proof.Machine

namespace Sys2Proof.Machine

/-! ### Released coded blocks (R290, R292) -/

theorem yields_codedBlockRelease_unpowered {s : State} {n : Nat} (r : CodedRelease) (hn : n < 64) (hup : s.engineUp n = false) :
    Yields (.codedBlockRelease n r) s s := by
  change execCodedBlockRelease n r s = _
  simp [execCodedBlockRelease, onUnit, hn, hup]

/-- From `s` to `t` the counters of carrier `n`'s Sieve stay. -/
structure SieveSame (n : Nat) (s t : State) : Prop where
  decoded : t.nat (Od.decodedBlocks n) = s.nat (Od.decodedBlocks n)
  uncorrected : t.nat (Od.uncorrectedBlocks n) = s.nat (Od.uncorrectedBlocks n)
  ones : t.nat (Od.correctedOnes n) = s.nat (Od.correctedOnes n)
  zeros : t.nat (Od.correctedZeros n) = s.nat (Od.correctedZeros n)

section
variable {s t u : State} {n : Nat}

theorem SieveSame.trans (hst : SieveSame n s t) (htu : SieveSame n t u) : SieveSame n s u :=
  ⟨htu.decoded.trans hst.decoded, htu.uncorrected.trans hst.uncorrected, htu.ones.trans hst.ones, htu.zeros.trans hst.zeros⟩

theorem LineSame.sieveSame (h : LineSame s t) (n : Nat) : SieveSame n s t :=
  ⟨h.nat (lineObject_odKey n), h.nat (lineObject_odKey n), h.nat (lineObject_odKey n), h.nat (lineObject_odKey n)⟩

theorem SieveSame.setEngine (h : SieveSame n s t) (m : Nat) (x : Engine) : SieveSame n s (t.setEngine m x) :=
  ⟨h.decoded, h.uncorrected, h.ones, h.zeros⟩

theorem sieveSame_poolPeak (s : State) (n p : Nat) (x : Engine) : SieveSame n s (poolPeak (s.setEngine n x) p) := by
  constructor <;> exact State.nat_peak_of_ne _ _
    (by simp [Od.decodedBlocks, Od.uncorrectedBlocks, Od.correctedOnes, Od.correctedZeros, Od.blocksInFlightPeak])

theorem sieveSame_iterationLimitHits (s : State) (n : Nat) : SieveSame n s (s.bump (Od.iterationLimitHits n)) := by
  constructor <;> rw [State.nat_bump, if_neg
    (by simp [Od.decodedBlocks, Od.uncorrectedBlocks, Od.correctedOnes, Od.correctedZeros, Od.iterationLimitHits])]

theorem SieveSame.bump_decodedBlocks (h : SieveSame n s t) : SieveSame n (s.bump (Od.decodedBlocks n)) (t.bump (Od.decodedBlocks n)) := by
  constructor <;> simp only [State.nat_bump, h.decoded, h.uncorrected, h.ones, h.zeros]

theorem SieveSame.others_of_bump (h : SieveSame n (s.bump (Od.decodedBlocks n)) t) :
    t.nat (Od.uncorrectedBlocks n) = s.nat (Od.uncorrectedBlocks n) ∧ t.nat (Od.correctedOnes n) = s.nat (Od.correctedOnes n)
    ∧ t.nat (Od.correctedZeros n) = s.nat (Od.correctedZeros n) := by
  rw [h.uncorrected, h.ones, h.zeros]
  simp [State.nat_bump, Od.decodedBlocks, Od.uncorrectedBlocks, Od.correctedOnes, Od.correctedZeros]

theorem lineSame_releaseCounted (h : LineSame s t) (n : Nat) (r : CodedRelease) : LineSame s (releaseCounted t n r) :=
  lineSame_countEv (lineSame_countEv (lineSame_countEv h 1 n 1 1) 1 n 2 _) 1 n 3 _

variable (r : CodedRelease) (hn : n < 64) (hup : s.engineUp n = true) (hin : inService s n = true)
  (halign : s.nat (Od.alignState n) ≠ 0) (hk : krytelm s n = true)
include hn hup hin halign hk

/-- A coded block after decoding starts is not counted. -/
theorem yields_codedBlockRelease_start (hstart : (s.engine n).sieveStart < 2) :
    ∃ t, Yields (.codedBlockRelease n r) s t ∧ (t.engine n).sieveStart = (s.engine n).sieveStart + 1 ∧ SieveSame n s t := by
  have hpool := sieveSame_poolPeak s n (portOf n) { s.engine n with inFlight := min r.inFlight 128 }
  refine ⟨(poolPeak (s.setEngine n { s.engine n with inFlight := min r.inFlight 128 }) (portOf n)).setEngine n
    { s.engine n with inFlight := min r.inFlight 128, sieveStart := (s.engine n).sieveStart + 1 }, ?_, ?_, ?_⟩
  · change execCodedBlockRelease n r s = _
    rw [execCodedBlockRelease, onUnit_of hn]
    simp only [hup, hin, halign, hk, hstart, Bool.not_true, Bool.or_self, decide_false, Bool.false_eq_true, if_false, if_true]
  · rw [State.engine_setEngine_same]
  · exact hpool.setEngine n _

/-- A later coded block is counted as decoded, and then by what the decoder says of it. -/
theorem yields_codedBlockRelease_counted (hstart : 2 ≤ (s.engine n).sieveStart) :
    ∃ u, SieveSame n (s.bump (Od.decodedBlocks n)) u ∧ Yields (.codedBlockRelease n r) s
      (if r.uncorrected then u.bump (Od.uncorrectedBlocks n)
        else if r.ones + r.zeros = 0 then u
        else (((u.bump (Od.correctedBlocks n)).bumpBy (Od.fecStatsCorrectedBits n) (r.ones + r.zeros)).bumpBy (Od.correctedOnes n)
          r.ones).bumpBy (Od.correctedZeros n) r.zeros) := by
  have hlate : ¬ (s.engine n).sieveStart < 2 := by omega
  change ∃ u, _ ∧ execCodedBlockRelease n r s = _
  rw [execCodedBlockRelease, onUnit_of hn]
  extract_lets e fixed e' pooled' most it add summed counted limited
  have hsummed : SieveSame n s summed := (sieveSame_poolPeak s n (portOf n) e').setEngine n _
  have hlimited : SieveSame n (summed.bump (Od.decodedBlocks n)) limited := by
    have hcounted : SieveSame n (summed.bump (Od.decodedBlocks n)) counted := (lineSame_releaseCounted (.refl _) n r).sieveSame n
    unfold limited
    split
    · exact hcounted.trans (sieveSame_iterationLimitHits counted n)
    · exact hcounted
  refine ⟨limited, hsummed.bump_decodedBlocks.trans hlimited, congrArg Host.Outcome.next ?_⟩
  rw [if_neg (by simp [hup, hin, halign]), if_neg (by simp [hk]), if_neg hlate]

theorem codedBlockRelease_uncorrected (hstart : 2 ≤ (s.engine n).sieveStart) (hbad : r.uncorrected = true) :
    ∃ t, Yields (.codedBlockRelease n r) s t ∧ t.nat (Od.decodedBlocks n) = (s.bump (Od.decodedBlocks n)).nat (Od.decodedBlocks n)
      ∧ t.nat (Od.uncorrectedBlocks n) = (s.bump (Od.uncorrectedBlocks n)).nat (Od.uncorrectedBlocks n)
      ∧ t.nat (Od.correctedOnes n) = s.nat (Od.correctedOnes n) := by
  obtain ⟨u, hu, hy⟩ := yields_codedBlockRelease_counted r hn hup hin halign hk hstart
  obtain ⟨huncorrected, hones, -⟩ := hu.others_of_bump
  refine ⟨_, hy.trans (congrArg Host.Outcome.next (if_pos hbad)), ?_, ?_, ?_⟩
  · rw [← hu.decoded, State.nat_bump, if_neg (by simp [Od.decodedBlocks, Od.uncorrectedBlocks])]
  · rw [State.nat_bump, huncorrected, State.nat_bump]
  · rw [State.nat_bump, if_neg (by simp [Od.correctedOnes, Od.uncorrectedBlocks]), hones]

theorem codedBlockRelease_corrected (hstart : 2 ≤ (s.engine n).sieveStart) (hgood : r.uncorrected = false)
    (hfixed : r.ones + r.zeros ≠ 0) :
    ∃ t, Yields (.codedBlockRelease n r) s t ∧ t.nat (Od.correctedOnes n) = (s.bumpBy (Od.correctedOnes n) r.ones).nat (Od.correctedOnes n)
      ∧ t.nat (Od.correctedZeros n) = (s.bumpBy (Od.correctedZeros n) r.zeros).nat (Od.correctedZeros n)
      ∧ t.nat (Od.uncorrectedBlocks n) = s.nat (Od.uncorrectedBlocks n) := by
  obtain ⟨u, hu, hy⟩ := yields_codedBlockRelease_counted r hn hup hin halign hk hstart
  obtain ⟨huncorrected, hones, hzeros⟩ := hu.others_of_bump
  refine ⟨_, hy.trans (congrArg Host.Outcome.next ((if_neg (by simp [hgood])).trans (if_neg hfixed))), ?_⟩
  simp only [Od.correctedBlocks, Od.uncorrectedBlocks, Od.fecStatsCorrectedBits, Od.correctedOnes, Od.correctedZeros] at *
  simp [State.nat_bump, State.nat_bumpBy, huncorrected, hones, hzeros]

end

/-! ### The counters of chapter 09 are cleared (R292) -/

theorem State.val_clearObjs (s : State) (p : Nat → Bool) (k : Nat) : (s.clearObjs p).val k = if p k then odDefault k else s.val k :=
  Tbl.get_clear ..

theorem odDefault_sieveCounter (n : Nat) : odDefault (Od.decodedBlocks n) = .u 0 ∧ odDefault (Od.uncorrectedBlocks n) = .u 0
    ∧ odDefault (Od.correctedOnes n) = .u 0 := by
  have h1 : subRow 0x3311 1 = some ⟨1, 1, .u64, .ro, .u 0, .any⟩ := rfl
  have h3 : subRow 0x3311 3 = some ⟨3, 1, .u64, .ro, .u 0, .any⟩ := rfl
  have h5 : subRow 0x3311 5 = some ⟨5, 1, .u64, .ro, .u 0, .any⟩ := rfl
  simp [odDefault, Od.decodedBlocks, Od.uncorrectedBlocks, Od.correctedOnes, h1, h3, h5]

/-- A clear takes the Sieve's counters to 0 and leaves the alignment, the engines and the fault sources. -/
theorem clearFecCounters_spec (s : State) :
    (∀ n, (clearFecCounters s).2.nat (Od.decodedBlocks n) = 0 ∧ (clearFecCounters s).2.nat (Od.uncorrectedBlocks n) = 0
      ∧ (clearFecCounters s).2.nat (Od.correctedOnes n) = 0 ∧ (clearFecCounters s).2.nat (Od.alignState n) = s.nat (Od.alignState n))
    ∧ (clearFecCounters s).2.engines = s.engines ∧ (clearFecCounters s).2.sources = s.sources := by
  refine ⟨fun n => ?_, rfl, rfl⟩
  obtain ⟨h1, h3, h5⟩ := odDefault_sieveCounter n
  refine ⟨State.nat_of_val ?_, State.nat_of_val ?_, State.nat_of_val ?_, congrArg Val.nat ?_⟩
  · rw [← h1]
    refine (State.val_clearObjs ..).trans (if_pos ?_)
    simp [Od.decodedBlocks]
  · rw [← h3]
    refine (State.val_clearObjs ..).trans (if_pos ?_)
    simp [Od.uncorrectedBlocks]
  · rw [← h5]
    refine (State.val_clearObjs ..).trans (if_pos ?_)
    simp [Od.correctedOnes]
  · refine (State.val_clearObjs ..).trans (if_neg ?_)
    simp [Od.alignState]

theorem yields_clearFecCounters {s : State} {k : Nat} (h : Admits s k Od.clearFecCounters 1) :
    ∃ u, u.od = s.od ∧ u.engines = s.engines ∧ u.sources = s.sources ∧ Yields (.clearFecCounters k) s (clearFecCounters u).2 := by
  refine ⟨noted s k Od.clearFecCounters, State.journalBy_od .., State.journalBy_engines .., State.journalBy_sources .., ?_⟩
  change execClearFecCounters k s = _
  exact congrArg Host.Outcome.next (hostCmd_accepts h.answers h.gate rfl)

/-! ### O38 -/

/-- Settles O38, clause by clause. -/
theorem blocksAreSentAlignedAndDecoded : Obligations.BlocksAreSentAlignedAndDecoded := by
  refine ⟨⟨?_, ?_, ?_⟩, ⟨?_, ?_, ?_, ?_, ?_, ?_, ?_, ?_, ?_, ?_⟩, ?_, ?_, ?_⟩
  · intro s u v n fill feeds hn hup hcal hres hu hv
    obtain rfl : u = blockCounted s n := hu
    obtain rfl : v = txFillNoted (blockCounted s n) n fill := hv
    refine ⟨yields_klfBlockTransmit_disabled feeds hn hup hcal hres, fun hin hk hfeeds => ⟨_, rfl, ?_⟩⟩
    exact ⟨yields_klfBlockTransmit_unmapped feeds hn hup hcal hres hin hk hfeeds,
      yields_klfBlockTransmit_mapped feeds hn hup hcal hres hin hk hfeeds⟩
  · exact fun s n fill feeds hn h => yields_klfBlockTransmit_idle feeds fill hn h
  · exact fun s n c feeds _ => sendBlock_spec s n c feeds
  · intro s n header hn hr hst hstep
    have hy := yields_headerSignsRead_awaited header hn hr hst hstep
    refine ⟨fun hok => ?_, fun hok hlast => ?_, fun phase hok hlast hphase => ?_⟩
    · exact hy.trans (congrArg Host.Outcome.next (if_pos hok))
    · exact hy.trans (congrArg Host.Outcome.next ((if_neg (by simp [hok])).trans (if_neg (by simp [hlast]))))
    · exact hy.trans (congrArg Host.Outcome.next ((if_neg (by simp [hok])).trans (if_pos (by simp [hlast, hphase]))))
  · exact fun s n header hn hr => yields_headerSignsRead_ignored header hn hr
  · exact fun s n hn h => yields_lofTimer_lost hn h
  · exact fun s n hn h => yields_lofTimer_kept hn h
  · exact fun s n b hn h => yields_klfBlockDecoded_ignored b hn h
  · intro s u n b hn hup hin hhub halign hu
    obtain rfl : u = rxFillNoted s n b.rxFill := hu
    exact yields_klfBlockDecoded b hn hup hin hhub halign
  · intro s n v b hn hr _ halign hknown hpasses hover hdelays hlen hclean hv hcrc haligned
    exact yields_klfBlockDecoded_first hn hr halign hknown hpasses hover hdelays hlen hclean hv hcrc haligned
  · exact fun s n _ h hp => alignStep_true_aligns h hp
  · exact fun s n _ h => ⟨alignStep_false_loses h, alignStep_false_holds h⟩
  · exact fun s n record _ => headerAccept_spec s n record
  · intro s n r hn hup hin halign hk
    refine ⟨fun hstart => ?_, fun hstart hbad => ?_, fun hstart hgood hfixed => ?_⟩
    · obtain ⟨t, hy, hsieve, hsame⟩ := yields_codedBlockRelease_start r hn hup hin halign hk hstart
      exact ⟨t, hy, hsieve, hsame.decoded, hsame.uncorrected⟩
    · exact codedBlockRelease_uncorrected r hn hup hin halign hk hstart hbad
    · exact codedBlockRelease_corrected r hn hup hin halign hk hstart hgood hfixed
  · exact fun s n r hn hup => yields_codedBlockRelease_unpowered r hn hup
  · intro s k h
    obtain ⟨u, hod, he, hsrc, hy⟩ := yields_clearFecCounters h
    obtain ⟨hcleared, hengines, hsources⟩ := clearFecCounters_spec u
    simp only [State.nat_congr hod, he, hsrc] at hcleared hengines hsources
    exact ⟨_, hy, fun n _ => hcleared n, hengines, hsources⟩

end Sys2Proof.Machine
end
